-- ==== Sys2Proof/Word.lean ====
section
/-! DEFINITION. The word types of the machine and the small closed types that operands and fields are made of. -/

namespace Sys2Proof

/-- A byte of memory. -/
abbrev Byte := BitVec 8

/-- An instruction word, a vector lane, a word of the scratchpad (R35, R186). -/
abbrev Word32 := BitVec 32

/-- A scalar register value or an address (R60). -/
abbrev Word := BitVec 64

/-- The four issue clusters, in the order C, L, K, S (R19, R44). -/
inductive Cluster where
  | c | l | k | s
deriving DecidableEq, Repr

/-- Joint mode and split mode (R29). -/
inductive Mode where
  | joint | split
deriving DecidableEq, Repr

/-- The kinds of access that a page-table walk checks (R167). An atomic counts as a write. -/
inductive AccessKind where
  | read | write | fetch
deriving DecidableEq, Repr

/-- The HINT, TKIN and TKOUT fields of an E-format word (R44). -/
structure Tk where
  hint : BitVec 2
  tkin : BitVec 2
  tkout : BitVec 2
deriving DecidableEq, Repr

/-- The two memory spaces a load or store names (R133). -/
inductive Space where
  | global | local
deriving DecidableEq, Repr

/-- The rounding modes of R93. -/
inductive RMode where
  | rne | rtz | rdn | rup | rmm
deriving DecidableEq, Repr

/-- A message of the gang protocol (R360): CONFIRM, GO, or NOGO with the mask of missing members. -/
inductive GangMsg where
  | confirm
  | go
  | nogo (mask : BitVec 8)
deriving DecidableEq, Repr

/-- A 64-bit register of the PF's status page: the counters of a partition (R357), those of a ring (R353), ALMCFG (R379) and LDSTAT (R408). -/
inductive StatusReg where
  | malformed (part : Nat)
  | discard (part : Nat)
  | outLaunch (part : Nat)
  | outGraph (part : Nat)
  | outPhase (part : Nat)
  | outJob (part : Nat)
  | ringClm (part ring : Nat)
  | ringRsv (part ring : Nat)
  | ringDrops (part ring : Nat)
  | almcfg
  | ldstat
deriving DecidableEq, Repr

/-- A host access to a function's BARs (R331, R342, R368): in BAR2 a read of some bytes, or a write of bytes; an access to `n` bytes at an offset
of a portal page, the packet writes and the wake apart; a read of an error record; and a read of a register of the status page. -/
inductive HostAccess where
  | read (n : Nat)
  | write (data : List Byte)
  | portal (q off n : Nat) (read : Bool)
  | errlog (part rec : Nat)
  | status (reg : StatusReg)
deriving DecidableEq, Repr

/-- The operations an atomic can ask for (R254). -/
inductive AmoOp where
  | add | and | or | xor | max | maxu | swap | cas
deriving DecidableEq, Repr

/-- An access of a gang peer that arrives over Tether (R184, R246): a read, a write, an atomic on `size` bytes with its data and
compare value, an add to a signal, or a hurdle arrival with the sender's launch or gang identity. -/
inductive PeerAccess where
  | read (addr : BitVec 52) (n : Nat)
  | write (addr : BitVec 52) (data : List Byte)
  | atomic (addr : BitVec 52) (op : AmoOp) (size : Nat) (cmp val : BitVec 128)
  | signal (idx : BitVec 12) (add : Word)
  | arrive (core hurdle count ident : Nat)
deriving DecidableEq, Repr

/-- A piece of a core's work outside any region (R262): its oldest post (0), the oldest arrival on its way to it (1), the entry of a chain slot (2
to 5), the oldest steal request (6) or answer (7) on its way to it, or a committed copy (8 and its serial). -/
structure OutWork where
  core : Nat
  piece : Nat
deriving DecidableEq, Repr

/-- A die's estimate of its power, and the working limit that firmware lowers with it, if it does (R377, R380). -/
structure PowerReport where
  watts : Nat
  limit : Option Nat
deriving DecidableEq, Repr

/-- How a firmware update ends (R376): the staged image does not verify, is written, or the power is lost during the write. -/
inductive UpdateEnd where
  | refused | written | lost
deriving DecidableEq, Repr

/-- A flit on a Tether port of a die (R371). -/
structure PortFlit where
  port : Nat
  flit : Nat
deriving DecidableEq, Repr

/-- A host-written register whose write has no behaviour beyond its fields (R5): the registers of R338, R341, R353, R369, R372,
R379 and R380; the partition configuration that firmware writes on host command (R337); the address space of a function's aperture (R368); and
the naming of the time master (R373). -/
inductive HostReg where
  | queueDesc (part q : Nat)
  | ringDesc (part ring : Nat)
  | hostWindow (part n : Nat)
  | peerEntry (part n : Nat)
  | pctl (part : Nat)
  | almcfg
  | powerCeiling
  | coreMask (part die : Nat)
  | trapSegment (part : Nat)
  | retryMax (part : Nat)
  | saveArea (part : Nat)
  | partOwner (part : Nat)
  | queueFunction (part func : Nat)
  | apertureSpace (func : Nat)
  | timeMaster
deriving DecidableEq, Repr

end Sys2Proof
end

