-- ==== Sys2Proof/Config.lean ====
section
/-! DEFINITION. What an implementation fixes and the spec leaves open: free values, constants with no body, so that nothing can be proved
of them (logs 4, 7, 9, 12). Each is applied to the counter `State.tick`, or to the values it depends on. -/

namespace Sys2Proof.Config

/-- Nanoseconds of device time that a step takes (log 7: the latencies of the spec are not bounds for the whole machine). -/
opaque freeNs : Nat → Nat

/-- Core cycles that a step of a core takes (log 7). -/
opaque freeCc : Nat → Nat

/-- Whether firmware verifies an ECDSA P-521 signature: key identifier, signature bytes and message bytes (log 12). -/
opaque sigValid : Word → List Byte → List Byte → Bool

/-- A word that the spec leaves open, fresh for each value of the counter and each place that asks for one (log 4). -/
opaque freeWord : Nat → Nat → Word

end Sys2Proof.Config
end

