-- ==== Sys2Proof/Machine/Sparse.lean ====
section
/-! DEFINITION. A finite map from numbers to values in one canonical form: keys strictly rising, no entry equal to what an unlisted key
reads as. Memory, scratchpad, operand store, tile table and hurdles are held in it. -/

namespace Sys2Proof.Machine

/-- A map listed by rising key. -/
abbrev Sparse (α : Type) := List (Nat × α)

/-- The value at a key; an unlisted key reads as `d`. -/
def Sparse.get {α : Type} (d : α) : Sparse α → Nat → α
  | [], _ => d
  | (k, v) :: r, i => if i = k then v else if i < k then d else Sparse.get d r i

/-- The map with the value `v` at key `i`; writing `d` removes the entry. -/
def Sparse.put {α : Type} [DecidableEq α] (d : α) : Sparse α → Nat → α → Sparse α
  | [], i, v => if v = d then [] else [(i, v)]
  | (k, w) :: r, i, v =>
      if i < k then (if v = d then (k, w) :: r else (i, v) :: (k, w) :: r)
      else if i = k then (if v = d then r else (i, v) :: r)
      else (k, w) :: Sparse.put d r i v

/-- Every key of the map is above `lo`, keys rise strictly, and no entry holds `d`. -/
def Sparse.wfFrom {α : Type} [DecidableEq α] (d : α) : Option Nat → Sparse α → Bool
  | _, [] => true
  | lo, (k, v) :: r => (match lo with | none => true | some l => decide (l < k)) && decide (v ≠ d) && Sparse.wfFrom d (some k) r

/-- The canonical form. -/
def Sparse.wf {α : Type} [DecidableEq α] (d : α) (m : Sparse α) : Bool := Sparse.wfFrom d none m

/-- Insertion into a rising list of numbers without repeats. -/
def natInsert (n : Nat) : List Nat → List Nat
  | [] => [n]
  | k :: r => if n < k then n :: k :: r else if n = k then k :: r else k :: natInsert n r

/-- The element of a list at an index, or `d` beyond its end. -/
def nth {α : Type} (d : α) : List α → Nat → α
  | [], _ => d
  | x :: _, 0 => x
  | _ :: r, n + 1 => nth d r n

/-- The list with the element at an index replaced; unchanged beyond its end. -/
def setNth {α : Type} (v : α) : List α → Nat → List α
  | [], _ => []
  | _ :: r, 0 => v :: r
  | x :: r, n + 1 => x :: setNth v r n

end Sys2Proof.Machine
end

