-- ==== Sys2Proof/Syntax.lean ====
section
/-! DEFINITION. The instruction set as an inductive type: one constructor per row of the opcode table, in the table's order.
An operand field of a word is a bit vector of the field's width, under the field's letter in the table; the three fields HINT, TKIN
and TKOUT of the E format (R44) are one operand of type `Tk`. A row that is a whole step of an engine, of the Drove, of the firmware
or of the host has no word: its operands say which core, slot, queue or register the step is of. -/

namespace Sys2Proof

/-- The instructions and steps of the opcode table. -/
inductive Instr where
  /-- ADD (R106): Writes xa + xb modulo 2^64 to xd under the guard flag. -/
  | add (d : BitVec 6) (a : BitVec 6) (b : BitVec 6) (g : BitVec 3)
  /-- SUB (R106): Writes xa - xb modulo 2^64 to xd. -/
  | sub (d : BitVec 6) (a : BitVec 6) (b : BitVec 6) (g : BitVec 3)
  /-- AND (R106): Writes xa AND xb to xd. -/
  | and (d : BitVec 6) (a : BitVec 6) (b : BitVec 6) (g : BitVec 3)
  /-- OR (R106): Writes xa OR xb to xd. -/
  | or (d : BitVec 6) (a : BitVec 6) (b : BitVec 6) (g : BitVec 3)
  /-- XOR (R106): Writes xa XOR xb to xd. -/
  | xor (d : BitVec 6) (a : BitVec 6) (b : BitVec 6) (g : BitVec 3)
  /-- SLL (R106): Shifts xa left by xb[5:0] into xd. -/
  | sll (d : BitVec 6) (a : BitVec 6) (b : BitVec 6) (g : BitVec 3)
  /-- SRL (R106): Shifts xa right with zero fill by xb[5:0] into xd. -/
  | srl (d : BitVec 6) (a : BitVec 6) (b : BitVec 6) (g : BitVec 3)
  /-- SRA (R106): Shifts xa right with sign fill by xb[5:0] into xd. -/
  | sra (d : BitVec 6) (a : BitVec 6) (b : BitVec 6) (g : BitVec 3)
  /-- MUL (R106): Writes the low 64 bits of xa times xb to xd. -/
  | mul (d : BitVec 6) (a : BitVec 6) (b : BitVec 6) (g : BitVec 3)
  /-- MULHI_S (R106): Writes bits 127:64 of the signed product to xd. -/
  | mulhiS (d : BitVec 6) (a : BitVec 6) (b : BitVec 6) (g : BitVec 3)
  /-- MULHI_U (R106): Writes bits 127:64 of the unsigned product to xd. -/
  | mulhiU (d : BitVec 6) (a : BitVec 6) (b : BitVec 6) (g : BitVec 3)
  /-- QUOT_S (R106): Signed truncated division, with the clamped cases of R79 setting SAT. -/
  | quotS (d : BitVec 6) (a : BitVec 6) (b : BitVec 6) (g : BitVec 3)
  /-- QUOT_U (R106): Unsigned truncated division, with division by zero as R79 gives. -/
  | quotU (d : BitVec 6) (a : BitVec 6) (b : BitVec 6) (g : BitVec 3)
  /-- RMDR_S (R106): Signed remainder with the sign of the dividend. -/
  | rmdrS (d : BitVec 6) (a : BitVec 6) (b : BitVec 6) (g : BitVec 3)
  /-- RMDR_U (R106): Unsigned remainder. -/
  | rmdrU (d : BitVec 6) (a : BitVec 6) (b : BitVec 6) (g : BitVec 3)
  /-- ADDI (R107): Writes xa plus the sign-extended immediate to xd. -/
  | addi (d : BitVec 6) (a : BitVec 6) (i : BitVec 13)
  /-- ANDI (R107): Writes xa AND the sign-extended immediate to xd. -/
  | andi (d : BitVec 6) (a : BitVec 6) (i : BitVec 13)
  /-- ORI (R107): Writes xa OR the sign-extended immediate to xd. -/
  | ori (d : BitVec 6) (a : BitVec 6) (i : BitVec 13)
  /-- XORI (R107): Writes xa XOR the sign-extended immediate to xd. -/
  | xori (d : BitVec 6) (a : BitVec 6) (i : BitVec 13)
  /-- SLLI (R107): Shifts xa left by an immediate amount into xd. -/
  | slli (d : BitVec 6) (a : BitVec 6) (s : BitVec 6)
  /-- SRLI (R107): Shifts xa right with zero fill by an immediate amount. -/
  | srli (d : BitVec 6) (a : BitVec 6) (s : BitVec 6)
  /-- SRAI (R107): Shifts xa right with sign fill by an immediate amount. -/
  | srai (d : BitVec 6) (a : BitVec 6) (s : BitVec 6)
  /-- HIMM (R108): Writes the sign-extended upper immediate to xd. -/
  | himm (d : BitVec 6) (i : BitVec 19)
  /-- ADPC (R108): Writes the instruction or bundle address plus the upper immediate to xd. -/
  | adpc (d : BitVec 6) (i : BitVec 19)
  /-- CMP_EQ (R109): Sets flag fd if xa equals xb. -/
  | cmpEq (d : BitVec 6) (a : BitVec 6) (b : BitVec 6) (g : BitVec 3)
  /-- CMP_NE (R109): Sets flag fd if xa differs from xb. -/
  | cmpNe (d : BitVec 6) (a : BitVec 6) (b : BitVec 6) (g : BitVec 3)
  /-- CMP_LT (R109): Sets flag fd on signed less-than. -/
  | cmpLt (d : BitVec 6) (a : BitVec 6) (b : BitVec 6) (g : BitVec 3)
  /-- CMP_GE (R109): Sets flag fd on signed greater-or-equal. -/
  | cmpGe (d : BitVec 6) (a : BitVec 6) (b : BitVec 6) (g : BitVec 3)
  /-- CMP_LTU (R109): Sets flag fd on unsigned less-than. -/
  | cmpLtu (d : BitVec 6) (a : BitVec 6) (b : BitVec 6) (g : BitVec 3)
  /-- CMP_GEU (R109): Sets flag fd on unsigned greater-or-equal. -/
  | cmpGeu (d : BitVec 6) (a : BitVec 6) (b : BitVec 6) (g : BitVec 3)
  /-- FL_AND (R109): fd := fa AND fb. -/
  | flAnd (d : BitVec 6) (a : BitVec 6) (b : BitVec 6) (g : BitVec 3)
  /-- FL_OR (R109): fd := fa OR fb. -/
  | flOr (d : BitVec 6) (a : BitVec 6) (b : BitVec 6) (g : BitVec 3)
  /-- FL_XOR (R109): fd := fa XOR fb. -/
  | flXor (d : BitVec 6) (a : BitVec 6) (b : BitVec 6) (g : BitVec 3)
  /-- FL_ANDN (R109): fd := fa AND NOT fb. -/
  | flAndn (d : BitVec 6) (a : BitVec 6) (b : BitVec 6) (g : BitVec 3)
  /-- FL_RD (R109): Copies the cluster's flags f7 to f0 into xd. -/
  | flRd (d : BitVec 6) (g : BitVec 3)
  /-- FL_WR (R109): Sets f1 to f7 from bits 7:1 of xa. -/
  | flWr (a : BitVec 6) (g : BitVec 3)
  /-- CMPI_EQ (R110): Sets flag fd if xa equals the immediate. -/
  | cmpiEq (f : BitVec 3) (a : BitVec 6) (i : BitVec 13)
  /-- CMPI_NE (R110): Sets flag fd if xa differs from the immediate. -/
  | cmpiNe (f : BitVec 3) (a : BitVec 6) (i : BitVec 13)
  /-- CMPI_LT (R110): Sets flag fd on signed less-than the immediate. -/
  | cmpiLt (f : BitVec 3) (a : BitVec 6) (i : BitVec 13)
  /-- CMPI_GE (R110): Sets flag fd on signed greater-or-equal to the immediate. -/
  | cmpiGe (f : BitVec 3) (a : BitVec 6) (i : BitVec 13)
  /-- CMPI_LTU (R110): Sets flag fd on unsigned less-than the immediate. -/
  | cmpiLtu (f : BitVec 3) (a : BitVec 6) (i : BitVec 13)
  /-- CMPI_GEU (R110): Sets flag fd on unsigned greater-or-equal to the immediate. -/
  | cmpiGeu (f : BitVec 3) (a : BitVec 6) (i : BitVec 13)
  /-- BR (R111): Branches to the target if flag fF is 1. -/
  | br (f : BitVec 3) (o : BitVec 22)
  /-- BRN (R111): Branches to the target if flag fF is 0. -/
  | brn (f : BitVec 3) (o : BitVec 22)
  /-- CALL (R111): Writes the link register and branches if flag fF is 1. -/
  | call (f : BitVec 3) (o : BitVec 22)
  /-- JMPR (R112): Jumps to xa and writes the return address to xd. -/
  | jmpr (d : BitVec 6) (a : BitVec 6) (g : BitVec 3)
  /-- REP (R67): Runs the next word n times, stepping the selected register fields. -/
  | rep (n : BitVec 8) (f : BitVec 4) (s : BitVec 4)
  /-- LOOP_O (R114): Starts hardware loop level 0 over the following words with the count in xa. -/
  | loopO (a : BitVec 6) (i : BitVec 13)
  /-- LOOP_I (R114): Starts hardware loop level 1. -/
  | loopI (a : BitVec 6) (i : BitVec 13)
  /-- LPCLR_O (R114): Deactivates hardware loop level 0. -/
  | lpclrO
  /-- LPCLR_I (R114): Deactivates hardware loop level 1. -/
  | lpclrI
  /-- LOOPM (R117): Runs a joint-mode modulo-scheduled loop over the next ii bundles, squashing out-of-range stages and rotating VBASE. -/
  | loopm (i : BitVec 6) (a : BitVec 6) (b : BitVec 6) (g : BitVec 3) (s : BitVec 4)
  /-- YSET (R122): Sets sync bit yn. -/
  | yset (n : BitVec 6) (g : BitVec 3)
  /-- YCLR (R122): Clears sync bit yn. -/
  | yclr (n : BitVec 6) (g : BitVec 3)
  /-- YWAIT (R122): Stalls the cluster until sync bit yn is 1. -/
  | ywait (n : BitVec 6) (g : BitVec 3)
  /-- YWAITC (R122): Stalls the cluster until sync bit yn is 0. -/
  | ywaitc (n : BitVec 6) (g : BitVec 3)
  /-- YTAS (R122): Reads sync bit yn into fd and sets it in one step. -/
  | ytas (d : BitVec 6) (n : BitVec 6) (g : BitVec 3)
  /-- YRD (R122): Copies y15 to y0 into xd. -/
  | yrd (d : BitVec 6) (g : BitVec 3)
  /-- TKPUSH (R123): Waits for room and pushes one token to the named peer cluster. -/
  | tkpush (p : BitVec 6) (g : BitVec 3)
  /-- TKWAIT (R123): Waits for and pops one token from the named peer cluster. -/
  | tkwait (p : BitVec 6) (g : BitVec 3)
  /-- TKCNT (R123): Writes the count of tokens waiting from the peer to xd. -/
  | tkcnt (d : BitVec 6) (p : BitVec 6) (g : BitVec 3)
  /-- RSET (R126): Sets the range register and refuses any pending incoming steal request. -/
  | rset (a : BitVec 6) (b : BitVec 6) (g : BitVec 3)
  /-- RNEXT (R126): Answers any pending steal request, then takes the next index of the range into xd and sets fa. -/
  | rnext (d : BitVec 6) (f : BitVec 6) (g : BitVec 3)
  /-- RSTEAL (R127): Records a commit-attached steal request to the next or previous neighbour. -/
  | rsteal (r : BitVec 6) (g : BitVec 3)
  /-- RSTAT (R126): Writes REFUSED, GRANT and PEND to xd. -/
  | rstat (d : BitVec 6) (g : BitVec 3)
  /-- FADD_F64 (R129): FP64 add rounded under FRM. -/
  | faddF64 (d : BitVec 6) (a : BitVec 6) (b : BitVec 6) (g : BitVec 3)
  /-- FSUB_F64 (R129): FP64 subtract. -/
  | fsubF64 (d : BitVec 6) (a : BitVec 6) (b : BitVec 6) (g : BitVec 3)
  /-- FMUL_F64 (R129): FP64 multiply. -/
  | fmulF64 (d : BitVec 6) (a : BitVec 6) (b : BitVec 6) (g : BitVec 3)
  /-- FDIV_F64 (R129): FP64 divide. -/
  | fdivF64 (d : BitVec 6) (a : BitVec 6) (b : BitVec 6) (g : BitVec 3)
  /-- FSQRT_F64 (R129): FP64 square root. -/
  | fsqrtF64 (d : BitVec 6) (a : BitVec 6) (g : BitVec 3)
  /-- FMIN_F64 (R129): FP64 minimumNumber. -/
  | fminF64 (d : BitVec 6) (a : BitVec 6) (b : BitVec 6) (g : BitVec 3)
  /-- FMAX_F64 (R129): FP64 maximumNumber. -/
  | fmaxF64 (d : BitVec 6) (a : BitVec 6) (b : BitVec 6) (g : BitVec 3)
  /-- FMAC_F64 (R129): FP64 fused multiply-add into xd. -/
  | fmacF64 (d : BitVec 6) (a : BitVec 6) (b : BitVec 6) (g : BitVec 3)
  /-- FCMP_EQ_F64 (R129): Quiet FP64 equality compare into a flag. -/
  | fcmpEqF64 (d : BitVec 6) (a : BitVec 6) (b : BitVec 6) (g : BitVec 3)
  /-- FCMP_LT_F64 (R129): FP64 less-than compare into a flag. -/
  | fcmpLtF64 (d : BitVec 6) (a : BitVec 6) (b : BitVec 6) (g : BitVec 3)
  /-- FCMP_LE_F64 (R129): FP64 less-or-equal compare into a flag. -/
  | fcmpLeF64 (d : BitVec 6) (a : BitVec 6) (b : BitVec 6) (g : BitVec 3)
  /-- SCVT_F64_F32 (R130): Converts FP32 xa to FP64. -/
  | scvtF64F32 (d : BitVec 6) (a : BitVec 6) (m : BitVec 3) (g : BitVec 3)
  /-- SCVT_F64_I64 (R130): Converts signed xa to FP64. -/
  | scvtF64I64 (d : BitVec 6) (a : BitVec 6) (m : BitVec 3) (g : BitVec 3)
  /-- SCVT_F64_UI64 (R130): Converts unsigned xa to FP64. -/
  | scvtF64Ui64 (d : BitVec 6) (a : BitVec 6) (m : BitVec 3) (g : BitVec 3)
  /-- SCVT_I64_F64 (R130): Converts FP64 xa to INT64. -/
  | scvtI64F64 (d : BitVec 6) (a : BitVec 6) (m : BitVec 3) (g : BitVec 3)
  /-- SCVT_UI64_F64 (R130): Converts FP64 xa to UINT64. -/
  | scvtUi64F64 (d : BitVec 6) (a : BitVec 6) (m : BitVec 3) (g : BitVec 3)
  /-- SCVT_I32_F64 (R130): Converts FP64 xa to INT32, sign-extended. -/
  | scvtI32F64 (d : BitVec 6) (a : BitVec 6) (m : BitVec 3) (g : BitVec 3)
  /-- FKIND_F64 (R131): Writes the FP64 class code and poison bit of xa to xd. -/
  | fkindF64 (d : BitVec 6) (a : BitVec 6) (g : BitVec 3)
  /-- FABS_F64 (R129): Clears the FP64 sign bit. -/
  | fabsF64 (d : BitVec 6) (a : BitVec 6) (g : BitVec 3)
  /-- FNEG_F64 (R129): Inverts the FP64 sign bit. -/
  | fnegF64 (d : BitVec 6) (a : BitVec 6) (g : BitVec 3)
  /-- FMSGN_F64 (R129): Replaces the FP64 sign of xa by the sign of the product of xa and xb. -/
  | fmsgnF64 (d : BitVec 6) (a : BitVec 6) (b : BitVec 6) (g : BitVec 3)
  /-- FADD_F32 (R129): FP32 add rounded under FRM. -/
  | faddF32 (d : BitVec 6) (a : BitVec 6) (b : BitVec 6) (g : BitVec 3)
  /-- FSUB_F32 (R129): FP32 subtract. -/
  | fsubF32 (d : BitVec 6) (a : BitVec 6) (b : BitVec 6) (g : BitVec 3)
  /-- FMUL_F32 (R129): FP32 multiply. -/
  | fmulF32 (d : BitVec 6) (a : BitVec 6) (b : BitVec 6) (g : BitVec 3)
  /-- FDIV_F32 (R129): FP32 divide. -/
  | fdivF32 (d : BitVec 6) (a : BitVec 6) (b : BitVec 6) (g : BitVec 3)
  /-- FSQRT_F32 (R129): FP32 square root. -/
  | fsqrtF32 (d : BitVec 6) (a : BitVec 6) (g : BitVec 3)
  /-- FMIN_F32 (R129): FP32 minimumNumber. -/
  | fminF32 (d : BitVec 6) (a : BitVec 6) (b : BitVec 6) (g : BitVec 3)
  /-- FMAX_F32 (R129): FP32 maximumNumber. -/
  | fmaxF32 (d : BitVec 6) (a : BitVec 6) (b : BitVec 6) (g : BitVec 3)
  /-- FMAC_F32 (R129): FP32 fused multiply-add into xd. -/
  | fmacF32 (d : BitVec 6) (a : BitVec 6) (b : BitVec 6) (g : BitVec 3)
  /-- FCMP_EQ_F32 (R129): Quiet FP32 equality compare into a flag. -/
  | fcmpEqF32 (d : BitVec 6) (a : BitVec 6) (b : BitVec 6) (g : BitVec 3)
  /-- FCMP_LT_F32 (R129): FP32 less-than compare into a flag. -/
  | fcmpLtF32 (d : BitVec 6) (a : BitVec 6) (b : BitVec 6) (g : BitVec 3)
  /-- FCMP_LE_F32 (R129): FP32 less-or-equal compare into a flag. -/
  | fcmpLeF32 (d : BitVec 6) (a : BitVec 6) (b : BitVec 6) (g : BitVec 3)
  /-- SCVT_F32_F64 (R130): Converts FP64 xa to FP32. -/
  | scvtF32F64 (d : BitVec 6) (a : BitVec 6) (m : BitVec 3) (g : BitVec 3)
  /-- SCVT_F32_I64 (R130): Converts signed xa to FP32. -/
  | scvtF32I64 (d : BitVec 6) (a : BitVec 6) (m : BitVec 3) (g : BitVec 3)
  /-- SCVT_F32_UI64 (R130): Converts unsigned xa to FP32. -/
  | scvtF32Ui64 (d : BitVec 6) (a : BitVec 6) (m : BitVec 3) (g : BitVec 3)
  /-- SCVT_I64_F32 (R130): Converts FP32 xa to INT64. -/
  | scvtI64F32 (d : BitVec 6) (a : BitVec 6) (m : BitVec 3) (g : BitVec 3)
  /-- SCVT_UI64_F32 (R130): Converts FP32 xa to UINT64. -/
  | scvtUi64F32 (d : BitVec 6) (a : BitVec 6) (m : BitVec 3) (g : BitVec 3)
  /-- SCVT_I32_F32 (R130): Converts FP32 xa to INT32, sign-extended. -/
  | scvtI32F32 (d : BitVec 6) (a : BitVec 6) (m : BitVec 3) (g : BitVec 3)
  /-- FKIND_F32 (R131): Writes the FP32 class code and poison bit of xa to xd. -/
  | fkindF32 (d : BitVec 6) (a : BitVec 6) (g : BitVec 3)
  /-- FABS_F32 (R129): Clears the FP32 sign bit. -/
  | fabsF32 (d : BitVec 6) (a : BitVec 6) (g : BitVec 3)
  /-- FNEG_F32 (R129): Inverts the FP32 sign bit. -/
  | fnegF32 (d : BitVec 6) (a : BitVec 6) (g : BitVec 3)
  /-- FMSGN_F32 (R129): Replaces the FP32 sign of xa by the sign of the product. -/
  | fmsgnF32 (d : BitVec 6) (a : BitVec 6) (b : BitVec 6) (g : BitVec 3)
  /-- CSRRD (R132): Reads a CSR into xd. -/
  | csrrd (d : BitVec 6) (c : BitVec 10)
  /-- CSRWR (R132): Writes xa to a CSR field by field and returns the old value. -/
  | csrwr (d : BitVec 6) (a : BitVec 6) (c : BitVec 10)
  /-- CSRSET (R132): Writes old OR xa to a CSR and returns the old value. -/
  | csrset (d : BitVec 6) (a : BitVec 6) (c : BitVec 10)
  /-- CSRCLR (R132): Writes old AND NOT xa to a CSR and returns the old value. -/
  | csrclr (d : BitVec 6) (a : BitVec 6) (c : BitVec 10)
  /-- FORK (R119): Switches the unit from joint to split mode with L, K and S at their entries. -/
  | fork (d : BitVec 6) (a : BitVec 6) (b : BitVec 6) (g : BitVec 3)
  /-- JOIN (R120): Rendezvous of all four clusters; the fourth arrival enters joint mode at C's target. -/
  | join (o : BitVec 22)
  /-- COMMIT (R267): Ends the region after its waits, takes the snapshot and releases the commit buffer. -/
  | commit
  /-- COMMIT_D (R273): Commits with a durable record in mirrored memory, including flushed tile images, and clears LOCALW. -/
  | commitD (a : BitVec 6) (b : BitVec 6)
  /-- REPLAY (R268): Discards the open region as a detected error with source 6. -/
  | replay (g : BitVec 3)
  /-- PSET (R269): Copies xa to xd with the poison side bit set. -/
  | pset (d : BitVec 6) (a : BitVec 6) (g : BitVec 3)
  /-- PCLR (R269): Copies xa to xd with the poison side bit clear. -/
  | pclr (d : BitVec 6) (a : BitVec 6) (g : BitVec 3)
  /-- PTEST (R269): Writes the side bit of xa into flag fd. -/
  | ptest (d : BitVec 6) (a : BitVec 6) (g : BitVec 3)
  /-- HINIT (R247): Sets a local hurdle's TARGET and settles it. -/
  | hinit (x : BitVec 6) (y : BitVec 6) (tk : Tk)
  /-- HARRIVE (R247): Arrives at a local hurdle at once, or records a remote arrival for release at commit. -/
  | harrive (x : BitVec 6) (y : BitVec 6) (tk : Tk)
  /-- HWAIT (R247): Waits until the local hurdle's phase count has reached the given phase. -/
  | hwait (x : BitVec 6) (y : BitVec 6) (tk : Tk)
  /-- HSTAT (R247): Writes a local hurdle's PHCNT, COUNT and armed bit to xd. -/
  | hstat (x : BitVec 6) (y : BitVec 6) (tk : Tk)
  /-- CHAIN_KICK (R251): Records a commit-attached kick of a chain slot at a global address. -/
  | chainKick (x : BitVec 6) (y : BitVec 6) (tk : Tk)
  /-- CHAIN_STOP (R251): Stops a chain slot at once after its current entry and drops any pending kick. -/
  | chainStop (x : BitVec 6) (tk : Tk)
  /-- CHAIN_STAT (R251): Writes a chain slot's status, pending-kick bit and CPC to xd. -/
  | chainStat (x : BitVec 6) (y : BitVec 6) (tk : Tk)
  /-- QPOST (R250): Copies a 64-byte packet into the commit buffer for posting to a queue at commit. -/
  | qpost (x : BitVec 6) (y : BitVec 6) (tk : Tk)
  /-- SIGADD (R250): Records a commit-attached add to a partition signal. -/
  | sigadd (x : BitVec 6) (y : BitVec 6) (tk : Tk)
  /-- RINGPOST (R250): Records a commit-attached add to a ring counter. -/
  | ringpost (x : BitVec 6) (y : BitVec 6) (tk : Tk)
  /-- ARES (R255): Waits while result slot k is pending, then reads its bits 63:0. -/
  | ares (x : BitVec 6) (y : BitVec 6) (tk : Tk)
  /-- ARESH (R255): Waits while result slot k is pending, then reads its bits 127:64. -/
  | aresh (x : BitVec 6) (y : BitVec 6) (tk : Tk)
  /-- JEOS (R161): Branches if the end-of-stream flag of stream port qn is set. -/
  | jeos (n : BitVec 3) (o : BitVec 22)
  /-- FENCE_CORE (R154): Waits until the cluster's earlier accesses are performed before later accesses and engine operations issue. -/
  | fenceCore (g : BitVec 3)
  /-- FENCE_DIE (R154): Fence at die scope: also releases pinned lines and applies this die's queued invalidations. -/
  | fenceDie (g : BitVec 3)
  /-- FENCE_PKG (R154): Fence at package scope, applying invalidations queued by either die cache. -/
  | fencePkg (g : BitVec 3)
  /-- FENCE_SYS (R173): Fence at system scope, also waiting for peer-window acknowledgements and host-window flushing reads. -/
  | fenceSys (g : BitVec 3)
  /-- END (R121): Commits the open region and ends the unit. -/
  | endOp (g : BitVec 3)
  /-- LD_G (R145): Loads a 1 to 8-byte scalar from global memory into xd, with optional post-increment. -/
  | ldG (x : BitVec 6) (y : BitVec 6) (p : BitVec 1) (u : BitVec 1) (s : BitVec 2) (tk : Tk)
  /-- LD_L (R145): Loads a scalar from the plain scratchpad into xd. -/
  | ldL (x : BitVec 6) (y : BitVec 6) (p : BitVec 1) (u : BitVec 1) (s : BitVec 2) (tk : Tk)
  /-- VLD_G (R147): Loads the active lanes of a 256-byte vector from global memory into vd or a bound port. -/
  | vldG (x : BitVec 6) (y : BitVec 6) (p : BitVec 1) (m : BitVec 3) (tk : Tk)
  /-- VLD_L (R147): Loads the active lanes of a vector from the plain scratchpad. -/
  | vldL (x : BitVec 6) (y : BitVec 6) (p : BitVec 1) (m : BitVec 3) (tk : Tk)
  /-- GATH (R148): Gathers one word per active lane from per-lane offsets into vd. -/
  | gath (x : BitVec 6) (y : BitVec 6) (e : BitVec 1) (c : BitVec 1) (m : BitVec 3) (tk : Tk)
  /-- SBASE_L (R158): Issued on L: sets a stream engine's BASE, stopping it first if running. -/
  | sbaseL (x : BitVec 6) (y : BitVec 6) (tk : Tk)
  /-- SDIM0_L (R158): Issued on L: sets C0 and S0 of a stream engine. -/
  | sdim0L (x : BitVec 6) (y : BitVec 6) (tk : Tk)
  /-- SDIM1_L (R158): Issued on L: sets C1 and S1 of a stream engine. -/
  | sdim1L (x : BitVec 6) (y : BitVec 6) (tk : Tk)
  /-- SDIM2_L (R158): Issued on L: sets C2 and S2 of a stream engine. -/
  | sdim2L (x : BitVec 6) (y : BitVec 6) (tk : Tk)
  /-- SMODE_L (R158): Issued on L: sets a stream engine's direction and space. -/
  | smodeL (x : BitVec 6) (y : BitVec 6) (tk : Tk)
  /-- SBIND_L (R158): Issued on L: binds stream engine qn as port v(56+n). -/
  | sbindL (x : BitVec 6) (tk : Tk)
  /-- SUNBIND_L (R158): Issued on L: unbinds a stream port. -/
  | sunbindL (x : BitVec 6) (tk : Tk)
  /-- SSTART_L (R158): Issued on L: checks alignment, resets POS and EOS and starts the engine. -/
  | sstartL (x : BitVec 6) (tk : Tk)
  /-- SSTOP_L (R158): Issued on L: discards the inbound FIFO or drains the outbound FIFO and stops the engine. -/
  | sstopL (x : BitVec 6) (tk : Tk)
  /-- SSEEK_L (R158): Issued on L: stops the engine, sets POS and clears EOS. -/
  | sseekL (x : BitVec 6) (y : BitVec 6) (tk : Tk)
  /-- SPOS_L (R158): Issued on L: writes a stream engine's POS to xd. -/
  | sposL (x : BitVec 6) (y : BitVec 6) (tk : Tk)
  /-- MARK_L (R143): Issued on L: pairs with S's mark to realign the load and store queues. -/
  | markL (tk : Tk)
  /-- CPIN (R237): Queues a linear copy from global memory into the plain scratchpad. -/
  | cpin (x : BitVec 6) (y : BitVec 6) (tk : Tk)
  /-- CPIN_2D (R237): Queues a 2D copy from global memory into the scratchpad. -/
  | cpin2d (x : BitVec 6) (y : BitVec 6) (tk : Tk)
  /-- CPIN_T (R237): Queues an inbound copy of a tile and turns it FILLING. -/
  | cpinT (x : BitVec 6) (y : BitVec 6) (tk : Tk)
  /-- PREF_G (R152): Starts a fill of a line into the stash or L1; never traps. -/
  | prefG (y : BitVec 6) (tk : Tk)
  /-- SSIZE (R152): Writes back and drops every stash line and sets SSZ. -/
  | ssize (y : BitVec 6) (tk : Tk)
  /-- SMAP (R152): Maps stash window w over a global range. -/
  | smap (x : BitVec 6) (y : BitVec 6) (tk : Tk)
  /-- SUNMAP (R152): Writes back and drops a window's lines and removes the window. -/
  | sunmap (x : BitVec 6) (tk : Tk)
  /-- SFLUSH (R152): Writes back a window's dirty lines, keeping them clean. -/
  | sflush (x : BitVec 6) (tk : Tk)
  /-- SINVAL (R152): Writes back and drops a window's lines, keeping the window mapped. -/
  | sinval (x : BitVec 6) (tk : Tk)
  /-- VADD (R193): Element-wise add of active elements. -/
  | vadd (d : BitVec 6) (a : BitVec 6) (b : BitVec 6) (m : BitVec 3) (t : BitVec 4)
  /-- VSUB (R193): Element-wise subtract. -/
  | vsub (d : BitVec 6) (a : BitVec 6) (b : BitVec 6) (m : BitVec 3) (t : BitVec 4)
  /-- VMUL (R193): Element-wise multiply. -/
  | vmul (d : BitVec 6) (a : BitVec 6) (b : BitVec 6) (m : BitVec 3) (t : BitVec 4)
  /-- VFMA (R193): Element-wise fused a times b plus vd. -/
  | vfma (d : BitVec 6) (a : BitVec 6) (b : BitVec 6) (m : BitVec 3) (t : BitVec 4)
  /-- VFMS (R193): Element-wise fused a times b minus vd. -/
  | vfms (d : BitVec 6) (a : BitVec 6) (b : BitVec 6) (m : BitVec 3) (t : BitVec 4)
  /-- VFNMA (R193): Element-wise fused minus a times b plus vd. -/
  | vfnma (d : BitVec 6) (a : BitVec 6) (b : BitVec 6) (m : BitVec 3) (t : BitVec 4)
  /-- VMIN (R193): Element-wise minimum. -/
  | vmin (d : BitVec 6) (a : BitVec 6) (b : BitVec 6) (m : BitVec 3) (t : BitVec 4)
  /-- VMAX (R193): Element-wise maximum. -/
  | vmax (d : BitVec 6) (a : BitVec 6) (b : BitVec 6) (m : BitVec 3) (t : BitVec 4)
  /-- VDIV (R193): Element-wise float divide. -/
  | vdiv (d : BitVec 6) (a : BitVec 6) (b : BitVec 6) (m : BitVec 3) (t : BitVec 4)
  /-- VAND (R193): Element-wise AND. -/
  | vand (d : BitVec 6) (a : BitVec 6) (b : BitVec 6) (m : BitVec 3) (t : BitVec 4)
  /-- VOR (R193): Element-wise OR. -/
  | vor (d : BitVec 6) (a : BitVec 6) (b : BitVec 6) (m : BitVec 3) (t : BitVec 4)
  /-- VXOR (R193): Element-wise XOR. -/
  | vxor (d : BitVec 6) (a : BitVec 6) (b : BitVec 6) (m : BitVec 3) (t : BitVec 4)
  /-- VSLL (R193): Element-wise shift left. -/
  | vsll (d : BitVec 6) (a : BitVec 6) (b : BitVec 6) (m : BitVec 3) (t : BitVec 4)
  /-- VSRL (R193): Element-wise logical shift right. -/
  | vsrl (d : BitVec 6) (a : BitVec 6) (b : BitVec 6) (m : BitVec 3) (t : BitVec 4)
  /-- VSRA (R193): Element-wise arithmetic shift right. -/
  | vsra (d : BitVec 6) (a : BitVec 6) (b : BitVec 6) (m : BitVec 3) (t : BitVec 4)
  /-- VADDS (R193): Element-wise saturating add. -/
  | vadds (d : BitVec 6) (a : BitVec 6) (b : BitVec 6) (m : BitVec 3) (t : BitVec 4)
  /-- VSUBS (R193): Element-wise saturating subtract. -/
  | vsubs (d : BitVec 6) (a : BitVec 6) (b : BitVec 6) (m : BitVec 3) (t : BitVec 4)
  /-- VMULH (R193): Element-wise high half of the exact product. -/
  | vmulh (d : BitVec 6) (a : BitVec 6) (b : BitVec 6) (m : BitVec 3) (t : BitVec 4)
  /-- VABSD (R193): Element-wise absolute difference. -/
  | vabsd (d : BitVec 6) (a : BitVec 6) (b : BitVec 6) (m : BitVec 3) (t : BitVec 4)
  /-- VAVG (R193): Element-wise rounded-up average. -/
  | vavg (d : BitVec 6) (a : BitVec 6) (b : BitVec 6) (m : BitVec 3) (t : BitVec 4)
  /-- VCMPEQ (R195): Writes a mask of element-wise equality. -/
  | vcmpeq (d : BitVec 6) (a : BitVec 6) (b : BitVec 6) (m : BitVec 3) (t : BitVec 4)
  /-- VCMPLT (R195): Writes a mask of element-wise less-than. -/
  | vcmplt (d : BitVec 6) (a : BitVec 6) (b : BitVec 6) (m : BitVec 3) (t : BitVec 4)
  /-- VCMPLE (R195): Writes a mask of element-wise less-or-equal. -/
  | vcmple (d : BitVec 6) (a : BitVec 6) (b : BitVec 6) (m : BitVec 3) (t : BitVec 4)
  /-- VCMPNE (R195): Writes a mask of element-wise inequality. -/
  | vcmpne (d : BitVec 6) (a : BitVec 6) (b : BitVec 6) (m : BitVec 3) (t : BitVec 4)
  /-- VSEL (R196): Selects each element from va or vb by mask bit. -/
  | vsel (d : BitVec 6) (a : BitVec 6) (b : BitVec 6) (m : BitVec 3) (t : BitVec 4)
  /-- VPERM (R197): Permutes elements of va by the indices in vb. -/
  | vperm (d : BitVec 6) (a : BitVec 6) (b : BitVec 6) (m : BitVec 3) (t : BitVec 4)
  /-- VZIP_LO (R198): Interleaves the low halves of va and vb. -/
  | vzipLo (d : BitVec 6) (a : BitVec 6) (b : BitVec 6) (t : BitVec 4)
  /-- VZIP_HI (R198): Interleaves the high halves of va and vb. -/
  | vzipHi (d : BitVec 6) (a : BitVec 6) (b : BitVec 6) (t : BitVec 4)
  /-- VUZP_EV (R198): De-interleaves the even elements of va and vb. -/
  | vuzpEv (d : BitVec 6) (a : BitVec 6) (b : BitVec 6) (t : BitVec 4)
  /-- VUZP_OD (R198): De-interleaves the odd elements of va and vb. -/
  | vuzpOd (d : BitVec 6) (a : BitVec 6) (b : BitVec 6) (t : BitVec 4)
  /-- VSLIDE (R199): Slides the elements of va up or down by xb, with zero fill or rotation. -/
  | vslide (d : BitVec 6) (a : BitVec 6) (b : BitVec 6) (r : BitVec 1) (n : BitVec 1) (t : BitVec 4)
  /-- VABS (R200): Element-wise absolute value. -/
  | vabs (d : BitVec 6) (a : BitVec 6) (m : BitVec 3) (t : BitVec 4)
  /-- VNEG (R200): Element-wise negation. -/
  | vneg (d : BitVec 6) (a : BitVec 6) (m : BitVec 3) (t : BitVec 4)
  /-- VSQRT (R200): Element-wise square root. -/
  | vsqrt (d : BitVec 6) (a : BitVec 6) (m : BitVec 3) (t : BitVec 4)
  /-- VRECIP (R200): Element-wise correctly rounded reciprocal. -/
  | vrecip (d : BitVec 6) (a : BitVec 6) (m : BitVec 3) (t : BitVec 4)
  /-- VRSQRT (R200): Element-wise correctly rounded reciprocal square root. -/
  | vrsqrt (d : BitVec 6) (a : BitVec 6) (m : BitVec 3) (t : BitVec 4)
  /-- VNOT (R200): Element-wise NOT. -/
  | vnot (d : BitVec 6) (a : BitVec 6) (m : BitVec 3) (t : BitVec 4)
  /-- VCLZ (R200): Element-wise count of leading zeros. -/
  | vclz (d : BitVec 6) (a : BitVec 6) (m : BitVec 3) (t : BitVec 4)
  /-- VPOPC (R200): Element-wise count of one bits. -/
  | vpopc (d : BitVec 6) (a : BitVec 6) (m : BitVec 3) (t : BitVec 4)
  /-- VRINT (R200): Element-wise round to an integral value under FRM. -/
  | vrint (d : BitVec 6) (a : BitVec 6) (m : BitVec 3) (t : BitVec 4)
  /-- VCLASS (R200): Element-wise class code and poison bit, without propagating poison. -/
  | vclass (d : BitVec 6) (a : BitVec 6) (m : BitVec 3) (t : BitVec 4)
  /-- VMOV (R200): Element-wise copy of bits and poison. -/
  | vmov (d : BitVec 6) (a : BitVec 6) (m : BitVec 3) (t : BitVec 4)
  /-- VCVT (R202): Converts every element between types over register groups, with optional saturation. -/
  | vcvt (d : BitVec 6) (a : BitVec 6) (s : BitVec 1) (u : BitVec 4) (m : BitVec 3) (t : BitVec 4)
  /-- VRED_SUM (R204): Sums active elements over the fixed pairwise tree into element 0. -/
  | vredSum (d : BitVec 6) (a : BitVec 6) (m : BitVec 3) (t : BitVec 4)
  /-- VRED_MIN (R204): Minimum of active elements into element 0. -/
  | vredMin (d : BitVec 6) (a : BitVec 6) (m : BitVec 3) (t : BitVec 4)
  /-- VRED_MAX (R204): Maximum of active elements into element 0. -/
  | vredMax (d : BitVec 6) (a : BitVec 6) (m : BitVec 3) (t : BitVec 4)
  /-- VRED_AND (R204): AND of active elements into element 0. -/
  | vredAnd (d : BitVec 6) (a : BitVec 6) (m : BitVec 3) (t : BitVec 4)
  /-- VRED_OR (R204): OR of active elements into element 0. -/
  | vredOr (d : BitVec 6) (a : BitVec 6) (m : BitVec 3) (t : BitVec 4)
  /-- VRED_XOR (R204): XOR of active elements into element 0. -/
  | vredXor (d : BitVec 6) (a : BitVec 6) (m : BitVec 3) (t : BitVec 4)
  /-- VRED_SUMW (R204): Exact wide integer sum of active elements into lanes 0 and 1. -/
  | vredSumw (d : BitVec 6) (a : BitVec 6) (m : BitVec 3) (t : BitVec 4)
  /-- VSCAN_SUM (R205): Sequential prefix sum of active elements. -/
  | vscanSum (d : BitVec 6) (a : BitVec 6) (m : BitVec 3) (t : BitVec 4)
  /-- VSCAN_MIN (R205): Prefix minimum of active elements. -/
  | vscanMin (d : BitVec 6) (a : BitVec 6) (m : BitVec 3) (t : BitVec 4)
  /-- VSCAN_MAX (R205): Prefix maximum of active elements. -/
  | vscanMax (d : BitVec 6) (a : BitVec 6) (m : BitVec 3) (t : BitVec 4)
  /-- MAND (R206): md := ma AND mb. -/
  | mand (d : BitVec 6) (a : BitVec 6) (b : BitVec 6)
  /-- MOR (R206): md := ma OR mb. -/
  | mor (d : BitVec 6) (a : BitVec 6) (b : BitVec 6)
  /-- MXOR (R206): md := ma XOR mb. -/
  | mxor (d : BitVec 6) (a : BitVec 6) (b : BitVec 6)
  /-- MANDN (R206): md := ma AND NOT mb. -/
  | mandn (d : BitVec 6) (a : BitVec 6) (b : BitVec 6)
  /-- MLEN (R206): Sets the low min(xa, 256) bits of md. -/
  | mlen (d : BitVec 6) (a : BitVec 6)
  /-- MPOPC (R206): Writes the number of set mask bits to xd. -/
  | mpopc (d : BitVec 6) (a : BitVec 6)
  /-- MFIRST (R206): Writes the index of the lowest set mask bit, or 256, to xd. -/
  | mfirst (d : BitVec 6) (a : BitVec 6)
  /-- MTOV (R206): Copies mask bits into lanes 0 to 7 of vd. -/
  | mtov (d : BitVec 6) (a : BitVec 6)
  /-- VSPLAT (R207): Writes the low bits of xa into every active element. -/
  | vsplat (d : BitVec 6) (a : BitVec 6) (m : BitVec 3) (t : BitVec 4)
  /-- VEXT (R208): Moves element xb mod n of va into xd. -/
  | vext (d : BitVec 6) (a : BitVec 6) (b : BitVec 6) (t : BitVec 4)
  /-- VINS (R208): Writes xa into element xb mod n of vd. -/
  | vins (d : BitVec 6) (a : BitVec 6) (b : BitVec 6) (t : BitVec 4)
  /-- MXNEST (R226): Reads and checks a nest table and queues the loop nest on the matrix engine. -/
  | mxnest (y : BitVec 6) (tk : Tk)
  /-- MXGO (R221): Sets GO in the oldest armed nest of the queue. -/
  | mxgo (tk : Tk)
  /-- MXWAIT (R221): Completes when the matrix engine queue is empty. -/
  | mxwait (tk : Tk)
  /-- MXSTAT (R221): Writes the queue depth, armed-head and fault bits to xd. -/
  | mxstat (x : BitVec 6) (tk : Tk)
  /-- MXDRAIN (R228): Queues a drain of accumulator an into a tile with one rounding. -/
  | mxdrain (x : BitVec 6) (y : BitVec 6) (m : BitVec 3) (tk : Tk)
  /-- MXZERO (R228): Queues setting every element of accumulator an to +0. -/
  | mxzero (x : BitVec 6) (tk : Tk)
  /-- MXMMA (R223): Queues one tile product of handles xa and xb into accumulator n. -/
  | mxmma (x : BitVec 6) (y : BitVec 6) (n : BitVec 3) (tk : Tk)
  /-- TDEF (R218): Reads and checks a tile descriptor and defines the handle. -/
  | tdef (x : BitVec 6) (y : BitVec 6) (tk : Tk)
  /-- TVALID (R218): Marks a tile READY. -/
  | tvalid (y : BitVec 6) (tk : Tk)
  /-- TINVAL (R218): Marks a tile EMPTY. -/
  | tinval (y : BitVec 6) (tk : Tk)
  /-- TSTAT (R218): Writes a tile's state, V, FETCH, type and shape to xd. -/
  | tstat (x : BitVec 6) (y : BitVec 6) (tk : Tk)
  /-- TWAIT (R218): Waits until a tile is READY. -/
  | twait (y : BitVec 6) (tk : Tk)
  /-- WALK_ADD (R233): Starts a tile walk summing all elements of a run of tiles. -/
  | walkAdd (x : BitVec 6) (tk : Tk)
  /-- WALK_MIN (R233): Starts a tile walk for the smallest element. -/
  | walkMin (x : BitVec 6) (tk : Tk)
  /-- WALK_MAX (R233): Starts a tile walk for the largest element. -/
  | walkMax (x : BitVec 6) (tk : Tk)
  /-- WALK_AND (R233): Starts a tile walk for the AND of all elements. -/
  | walkAnd (x : BitVec 6) (tk : Tk)
  /-- WALK_OR (R233): Starts a tile walk for the OR of all elements. -/
  | walkOr (x : BitVec 6) (tk : Tk)
  /-- WALK_XOR (R233): Starts a tile walk for the XOR of all elements. -/
  | walkXor (x : BitVec 6) (tk : Tk)
  /-- WALK_POPC (R233): Starts a tile walk counting one bits. -/
  | walkPopc (x : BitVec 6) (tk : Tk)
  /-- WALK_HIST (R233): Starts a tile walk building a 256-bin histogram. -/
  | walkHist (x : BitVec 6) (tk : Tk)
  /-- VVIEW (R64): Sets VVIEW from xa. -/
  | vview (x : BitVec 6) (tk : Tk)
  /-- AVIEW (R64): Sets AVIEW from xa. -/
  | aview (x : BitVec 6) (tk : Tk)
  /-- VIGIL_MX (R276): Queues a known-answer BF16 matrix check against the literal CRC. -/
  | vigilMx (x : BitVec 6) (y : BitVec 6) (tk : Tk) (lit : BitVec 32)
  /-- VIGIL_VEC (R276): Queues a known-answer vector check of an FP32 tile against the literal CRC. -/
  | vigilVec (x : BitVec 6) (tk : Tk) (lit : BitVec 32)
  /-- VIGIL_RD (R276): Queues a CRC check of a tile's bytes read through the fetcher. -/
  | vigilRd (x : BitVec 6) (tk : Tk) (lit : BitVec 32)
  /-- AMDEF (R292): Loads Almanac method table m from the scratchpad. -/
  | amdef (x : BitVec 6) (y : BitVec 6) (tk : Tk)
  /-- ASET (R282): Loads an Almanac sample slot from a descriptor and applies the clip rule. -/
  | aset (x : BitVec 6) (y : BitVec 6) (tk : Tk)
  /-- ASTAGE (R288): Queues forming the next stage input and time for each accepted slot of a range. -/
  | astage (x : BitVec 6) (y : BitVec 6) (tk : Tk)
  /-- AERR (R290): Queues writing the new state and measuring the error norm of each accepted slot. -/
  | aerr (x : BitVec 6) (tk : Tk)
  /-- ADEC (R291): Queues accepting or rejecting each accepted slot's step and choosing the next step size. -/
  | adec (x : BitVec 6) (tk : Tk)
  /-- AGET (R292): Reads one field of an Almanac slot into xd. -/
  | aget (x : BitVec 6) (y : BitVec 6) (tk : Tk)
  /-- APUT (R292): Writes H, HMIN or TEND of an Almanac slot and applies the clip rule. -/
  | aput (x : BitVec 6) (y : BitVec 6) (tk : Tk)
  /-- ASTAT (R292): Writes status counts over a slot range to xd. -/
  | astat (x : BitVec 6) (y : BitVec 6) (tk : Tk)
  /-- AOFF (R292): Sets every slot of a range to OFF. -/
  | aoff (x : BitVec 6) (tk : Tk)
  /-- AWAIT (R292): Completes when the Almanac queue is empty. -/
  | await (tk : Tk)
  /-- SHDECL (R306): Declares or redeclares a Shepherd region slot. -/
  | shdecl (x : BitVec 6) (y : BitVec 6) (tk : Tk)
  /-- APXB (R307): Opens a Shepherd region, capturing inputs or replacing the body with the surrogate. -/
  | apxb (x : BitVec 6) (tk : Tk)
  /-- APXE (R307): Closes a Shepherd region, recording a pair or evaluating a sampled invocation. -/
  | apxe (x : BitVec 6) (tk : Tk)
  /-- SHINV (R306): Sets a Shepherd slot that is not OFF to INVALID. -/
  | shinv (x : BitVec 6) (tk : Tk)
  /-- SHWLD (R308): Copies words from the scratchpad into the surrogate store. -/
  | shwld (x : BitVec 6) (y : BitVec 6) (tk : Tk)
  /-- SHWST (R308): Copies committed surrogate weights into the scratchpad. -/
  | shwst (x : BitVec 6) (y : BitVec 6) (tk : Tk)
  /-- SHSTAT (R308): Writes a Shepherd slot's status word to xd. -/
  | shstat (x : BitVec 6) (y : BitVec 6) (tk : Tk)
  /-- SHMEAN (R308): Writes a Shepherd slot's EMEAN to xd. -/
  | shmean (x : BitVec 6) (y : BitVec 6) (tk : Tk)
  /-- ST_G (R146): Enters a scalar store to global memory into the commit buffer. -/
  | stG (x : BitVec 6) (y : BitVec 6) (p : BitVec 1) (s : BitVec 2) (tk : Tk)
  /-- ST_L (R146): Stores a scalar into the plain scratchpad, carrying poison into marks. -/
  | stL (x : BitVec 6) (y : BitVec 6) (p : BitVec 1) (s : BitVec 2) (tk : Tk)
  /-- VST_G (R147): Enters the active lanes of a vector store to global memory into the commit buffer. -/
  | vstG (x : BitVec 6) (y : BitVec 6) (p : BitVec 1) (m : BitVec 3) (tk : Tk)
  /-- VST_L (R147): Stores the active lanes of a vector into the plain scratchpad. -/
  | vstL (x : BitVec 6) (y : BitVec 6) (p : BitVec 1) (m : BitVec 3) (tk : Tk)
  /-- SCAT (R148): Scatters active lanes of v(a) to per-lane offsets from v(a+1). -/
  | scat (x : BitVec 6) (y : BitVec 6) (e : BitVec 1) (c : BitVec 1) (m : BitVec 3) (tk : Tk)
  /-- SBASE_S (R158): Issued on S: sets a stream engine's BASE. -/
  | sbaseS (x : BitVec 6) (y : BitVec 6) (tk : Tk)
  /-- SDIM0_S (R158): Issued on S: sets C0 and S0. -/
  | sdim0S (x : BitVec 6) (y : BitVec 6) (tk : Tk)
  /-- SDIM1_S (R158): Issued on S: sets C1 and S1. -/
  | sdim1S (x : BitVec 6) (y : BitVec 6) (tk : Tk)
  /-- SDIM2_S (R158): Issued on S: sets C2 and S2. -/
  | sdim2S (x : BitVec 6) (y : BitVec 6) (tk : Tk)
  /-- SMODE_S (R158): Issued on S: sets direction and space. -/
  | smodeS (x : BitVec 6) (y : BitVec 6) (tk : Tk)
  /-- SBIND_S (R158): Issued on S: binds a stream port. -/
  | sbindS (x : BitVec 6) (tk : Tk)
  /-- SUNBIND_S (R158): Issued on S: unbinds a stream port. -/
  | sunbindS (x : BitVec 6) (tk : Tk)
  /-- SSTART_S (R158): Issued on S: starts a stream engine. -/
  | sstartS (x : BitVec 6) (tk : Tk)
  /-- SSTOP_S (R158): Issued on S: stops a stream engine after discard or drain. -/
  | sstopS (x : BitVec 6) (tk : Tk)
  /-- SSEEK_S (R158): Issued on S: stops a stream engine and sets POS. -/
  | sseekS (x : BitVec 6) (y : BitVec 6) (tk : Tk)
  /-- SPOS_S (R158): Issued on S: writes POS to xd. -/
  | sposS (x : BitVec 6) (y : BitVec 6) (tk : Tk)
  /-- MARK_S (R143): Issued on S: pairs with L's mark to realign the queues. -/
  | markS (tk : Tk)
  /-- CPOUT (R238): Records a linear outbound copy to run after the region commits. -/
  | cpout (x : BitVec 6) (y : BitVec 6) (tk : Tk)
  /-- CPOUT_2D (R238): Records a 2D outbound copy to run after commit. -/
  | cpout2d (x : BitVec 6) (y : BitVec 6) (tk : Tk)
  /-- CPOUT_T (R238): Records an outbound copy of a tile and turns it DRAINING. -/
  | cpoutT (x : BitVec 6) (y : BitVec 6) (tk : Tk)
  /-- AMO_ADD (R255): Atomic add of 4 or 8 bytes, core-scope or commit-attached. -/
  | amoAdd (x : BitVec 6) (y : BitVec 6) (c : BitVec 1) (z : BitVec 1) (tk : Tk)
  /-- AMO_AND (R255): Atomic AND. -/
  | amoAnd (x : BitVec 6) (y : BitVec 6) (c : BitVec 1) (z : BitVec 1) (tk : Tk)
  /-- AMO_OR (R255): Atomic OR. -/
  | amoOr (x : BitVec 6) (y : BitVec 6) (c : BitVec 1) (z : BitVec 1) (tk : Tk)
  /-- AMO_XOR (R255): Atomic XOR. -/
  | amoXor (x : BitVec 6) (y : BitVec 6) (c : BitVec 1) (z : BitVec 1) (tk : Tk)
  /-- AMO_MAX (R255): Atomic signed maximum. -/
  | amoMax (x : BitVec 6) (y : BitVec 6) (c : BitVec 1) (z : BitVec 1) (tk : Tk)
  /-- AMO_MAXU (R255): Atomic unsigned maximum. -/
  | amoMaxu (x : BitVec 6) (y : BitVec 6) (c : BitVec 1) (z : BitVec 1) (tk : Tk)
  /-- AMO_SWAP (R255): Atomic swap. -/
  | amoSwap (x : BitVec 6) (y : BitVec 6) (c : BitVec 1) (z : BitVec 1) (tk : Tk)
  /-- AMO_CAS_D (R255): Atomic 64-bit compare-and-swap. -/
  | amoCasD (x : BitVec 6) (y : BitVec 6) (c : BitVec 1) (tk : Tk)
  /-- AMO_CAS_Q (R255): Atomic 128-bit compare-and-swap. -/
  | amoCasQ (x : BitVec 6) (y : BitVec 6) (c : BitVec 1) (tk : Tk)
  /-- TRET (R323): Returns from the system handler, or restores the held frame at the gate. -/
  | tret (g : BitVec 3)
  /-- TRET_N (R323): As tret, first advancing the trapping cluster past its instruction. -/
  | tretN (g : BitVec 3)
  /-- UCALL (R324): Passes an EMUL trap to the unit's emulation handler, holding the frame. -/
  | ucall (g : BitVec 3)
  /-- SVC (R327): Sends the active frame to the fault service and stalls for its answer. -/
  | svc (d : BitVec 6) (a : BitVec 6) (g : BitVec 3)
  /-- TLBINV (R327): Removes an ASN's entries for a page range from every TLB and walk cache of the partition. -/
  | tlbinv (a : BitVec 6) (b : BitVec 6) (g : BitVec 3)
  /-- SCSRWR (R328): Writes TVEC, RTRYMAX, or the active frame's TVAL and EPCs. -/
  | scsrwr (a : BitVec 6) (b : BitVec 6) (g : BitVec 3)
  /-- SEGSET (R329): Installs a checked segment descriptor on a handle of a partition. -/
  | segset (a : BitVec 6) (b : BitVec 6) (g : BitVec 3)
  /-- SEGCLR (R329): Clears a segment handle once no unit holds it. -/
  | segclr (a : BitVec 6) (g : BitVec 3)
  /-- CTXOUT (R330): Saves a halted core's context into a shadow-store image slot. -/
  | ctxout (a : BitVec 6) (b : BitVec 6) (g : BitVec 3)
  /-- CTXIN (R330): Loads an image slot into a halted core. -/
  | ctxin (a : BitVec 6) (b : BitVec 6) (g : BitVec 3)
  /-- ASSET (R330): Writes an address-space descriptor of a partition. -/
  | asset (a : BitVec 6) (b : BitVec 6) (g : BitVec 3)
  /-- PINFO (R330): Writes the partition's core mask for a die to xd. -/
  | pinfo (d : BitVec 6) (a : BitVec 6) (g : BitVec 3)
  /-- PSCRUB (R330): Scrubs the halted cores of a partition to zero. -/
  | pscrub (a : BitVec 6) (g : BitVec 3)
  /-- ERRRD (R330): Reads one dword of a partition's error log record. -/
  | errrd (d : BitVec 6) (a : BitVec 6) (g : BitVec 3)
  /-- HRMARK (R330): Marks a core retired in the health record. -/
  | hrmark (a : BitVec 6) (g : BitVec 3)
  /-- HINT (R53): A HINT word completes in its issue cycle with no effect but the program counter. -/
  | hint (h : BitVec 27)
  /-- EMUL_MAJOR_7C (R54): An EMUL word at major 0x7C traps to the emulation path, or raises UDF detail 2. -/
  | emulMajor7c (x : BitVec 25)
  /-- EMUL_MAJOR_7D (R54): An EMUL word at major 0x7D traps to the emulation path, or raises UDF detail 2. -/
  | emulMajor7d (x : BitVec 25)
  /-- EMUL_MAJOR_7E (R54): An EMUL word at major 0x7E traps to the emulation path, or raises UDF detail 2. -/
  | emulMajor7e (x : BitVec 25)
  /-- UNDEFINED_MAJOR (R51): Issue of a word at major 0x00, 0x7F or an unassigned major raises UDF detail 0. -/
  | undefinedMajor (w : BitVec 32)
  /-- STREAM_FETCH (R158): A running inbound stream engine fetches its next vector into the FIFO when room frees. -/
  | streamFetch (core : Nat) (q : Nat)
  /-- STREAM_OUTBOUND_WRITE (R160): An outbound stream engine writes its oldest FIFO vector to the scratchpad or its commit-buffer sectors. -/
  | streamOutboundWrite (core : Nat) (q : Nat)
  /-- TRANSLATION_WALK (R167): The die walker completes a page-table walk for a TLB miss, returning a translation or a fault. -/
  | translationWalk (core : Nat) (va : BitVec 64) (k : AccessKind)
  /-- INVALIDATION_APPLY (R177): A core applies a queued invalidation from a die cache, at most 2 µs after its arrival. -/
  | invalidationApply (core : Nat)
  /-- MATRIX_OP_RUN (R220): The matrix engine runs the queued operation at its head: a step, nest, drain or zeroing, with checks. -/
  | matrixOpRun (core : Nat)
  /-- FETCHER_COPY (R224): The operand fetcher's inbound copy of an EMPTY tile lands and turns it READY. -/
  | fetcherCopy (core : Nat) (h : Nat)
  /-- WALK_RUN (R234): The tile walker completes a walk and writes its results. -/
  | walkRun (core : Nat)
  /-- VIGIL_CHECK (R276): A queued Vigil check runs when its engine is idle and compares its CRC with the literal. -/
  | vigilCheck (core : Nat)
  /-- ALMANAC_STEP (R294): The Almanac queue runs its head step over the slots of its range in ascending order. -/
  | almanacStep (core : Nat)
  /-- SHEPHERD_OPERATION (R304): The Shepherd runs one training step or validation for a committed slot in the background. -/
  | shepherdOperation (core : Nat)
  /-- COPY_PIECE_LAND (R237): A piece of an inbound copy lands in the scratchpad and arrives at its hurdle; the last completes the copy. -/
  | copyPieceLand (core : Nat)
  /-- OUTBOUND_COPY_EXECUTE (R238): After commit, the transfer engine reads the source bytes and writes an outbound copy to its homes. -/
  | outboundCopyExecute (core : Nat)
  /-- OUTBOUND_COPY_COMPLETE (R239): An outbound copy completes when its homes accept it, and its tile returns to READY. -/
  | outboundCopyComplete (core : Nat)
  /-- COPY_FREEZE (R241): A fault found by a running copy freezes every cluster, engine and CYC and sends a fault record. -/
  | copyFreeze (core : Nat)
  /-- FREEZE_RESUME (R241): When the fault service reports the copy fault resolved, the frozen core resumes in one cc. -/
  | freezeResume (core : Nat)
  /-- FREEZE_UNRESOLVABLE (R241): When the fault service reports the copy fault unresolvable, the unit ends with the cause. -/
  | freezeUnresolvable (core : Nat)
  /-- FAULT_SERVICE_ANSWER (R332): The fault service answers an svc request resolved or unresolvable. -/
  | faultServiceAnswer (core : Nat) (ans : Option (BitVec 64))
  /-- CHAIN_END (R253): A chain END entry waits for earlier copies and sets the slot DONE. -/
  | chainEnd (core : Nat) (slot : Nat)
  /-- CHAIN_COPY (R252): A chain COPY entry queues a linear copy and moves on. -/
  | chainCopy (core : Nat) (slot : Nat)
  /-- CHAIN_COPY2D (R252): A chain COPY2D entry queues a 2D copy and moves on. -/
  | chainCopy2d (core : Nat) (slot : Nat)
  /-- CHAIN_WAIT (R354): A chain WAIT entry holds until its ring counter reaches the compare value, applying the ring's drop policy. -/
  | chainWait (core : Nat) (slot : Nat)
  /-- CHAIN_POST (R253): A chain POST entry waits for earlier copies and adds to a ring counter. -/
  | chainPost (core : Nat) (slot : Nat)
  /-- CHAIN_LINK (R252): A chain LINK entry sets CPC to the next entry address. -/
  | chainLink (core : Nat) (slot : Nat)
  /-- CHAIN_FLAG (R253): A chain FLAG entry waits for earlier copies and writes a value into the scratchpad. -/
  | chainFlag (core : Nat) (slot : Nat)
  /-- CHAIN_ARRIVE (R253): A chain ARRIVE entry waits for earlier copies and arrives at a local hurdle. -/
  | chainArrive (core : Nat) (slot : Nat)
  /-- PENDING_KICK_START (R251): A pending kick starts its chain when the slot leaves RUN or WAIT. -/
  | pendingKickStart (core : Nat) (slot : Nat)
  /-- POST_DEPARTURE (R249): Posts, signal adds, ring posts, kicks and remote arrivals leave once earlier outbound copies complete. -/
  | postDeparture (core : Nat)
  /-- QPOST_DELIVERY (R343): A committed qpost is accepted into its queue, waiting while the ring is full or in FETCH_FAULT. -/
  | qpostDelivery (core : Nat)
  /-- HOST_ATOMICOP_COMPLETION (R184): A PCIe AtomicOp completion writes the result slot, or zero with poison on error status. -/
  | hostAtomicopCompletion (core : Nat) (err : Bool)
  /-- PEER_WRITE_ACK (R178): A peer's home acknowledges a Tether write. -/
  | peerWriteAck (core : Nat)
  /-- PEER_REFUSED (R256): A peer refuses a write; an error record and an error status in the unit's completion result. -/
  | peerRefused (core : Nat)
  /-- REMOTE_HURDLE_ARRIVAL (R248): A remote hurdle arrival reaches a core and is applied, or discarded if the launch or gang differs. -/
  | remoteHurdleArrival (core : Nat)
  /-- STEAL_REQUEST_ARRIVAL (R127): A steal request reaches its target core and is taken or refused at once. -/
  | stealRequestArrival (core : Nat)
  /-- STEAL_GRANT (R127): A grant reaches the stealer and installs the granted range. -/
  | stealGrant (core : Nat)
  /-- STEAL_REFUSAL (R127): A refusal reaches the stealer and sets REFUSED. -/
  | stealRefusal (core : Nat)
  /-- DETECTED_ERROR_REPLAY (R263): A detected error in the open region discards it, restores the snapshot, reapplies external arrivals and resumes. -/
  | detectedErrorReplay (core : Nat) (src : Nat)
  /-- UNIT_ADOPTION (R270): An adopting core receives the retired core's state, restores the snapshot and resumes the unit. -/
  | unitAdoption (core : Nat) (adopter : Nat)
  /-- OUT_OF_REGION_ERROR (R262): An error in work outside any region resends the piece, escalating after the third resend. -/
  | outOfRegionError (work : OutWork)
  /-- SNAPSHOT_STORE_ERROR (R272): An uncorrectable snapshot-store error handles the unit as on a lone core failure and retires the core. -/
  | snapshotStoreError (core : Nat)
  /-- DIE_FAILOVER (R271): The surviving die adopts the failed die's queues and resumes, re-queues or fails each of its units. -/
  | dieFailover (die : Nat)
  /-- THERMAL_TRIP (R381): At 120 °C junction an independent circuit holds the die in reset, a die power fault. -/
  | thermalTrip (die : Nat)
  /-- THERMAL_THROTTLE (R381): At 110 °C junction the die grants no boost and gates until 105 °C. -/
  | thermalThrottle (die : Nat)
  /-- POWER_ESTIMATE (R380): Every 4 µs each die estimates power and withholds boost or gates clocks over the ceiling. -/
  | powerEstimate (die : Nat) (power : PowerReport)
  /-- BOOST_INTERVAL (R382): At each 4 µs interval boundary permit counts change and the arbiter grants boost steps. -/
  | boostInterval
  /-- DTIME_SYNC (R373): Every 1 ms a non-master gang member measures link delay and slews its DTIME. -/
  | dtimeSync (slew : Int)
  /-- PATROL_SCRUB (R366): The patrol scrubber reads a sector, writes back corrections and records errors. -/
  | patrolScrub (sector : Nat)
  /-- GLITCH_DETECT (R378): A clock or voltage glitch detector raises ERASE: halt and zeroise the keys. -/
  | glitchDetect
  /-- PACKAGE_RESET (R374): Package reset: boot ROM verifies firmware, keys are drawn and registers take reset values. -/
  | packageReset (fail : List Nat)
  /-- FIRMWARE_RESTART (R375): A lockstep mismatch restarts the die's firmware after holding cores at commit points. -/
  | firmwareRestart (die : Nat) (fail : List Nat)
  /-- FIRMWARE_UPDATE (R376): A staged update image is verified and written over the flash copy. -/
  | firmwareUpdate (ver : Nat) (minVer : Option Nat) (end_ : UpdateEnd)
  /-- FLR_OWNER (R339): A function-level reset of an owning function ends, drains and scrubs its partition. -/
  | flrOwner (func : Nat)
  /-- FLR_QUEUE_FUNCTION (R339): A function-level reset of a queue function resets only its queues. -/
  | flrQueueFunction (func : Nat)
  /-- PORTAL_DMWR (R342): A 64-byte DMWr to a portal delivers a packet with a completion status. -/
  | portalDmwr (func : Nat) (q : Nat) (pkt : BitVec 512)
  /-- PORTAL_POSTED_WRITE (R342): A 64-byte posted write to a portal delivers a packet whose outcome shows in the status word. -/
  | portalPostedWrite (func : Nat) (q : Nat) (pkt : BitVec 512)
  /-- PORTAL_WAKE (R358): A write to the wake register is a wake, setting PW while the queue is unmapping or unmapped. -/
  | portalWake (func : Nat) (q : Nat)
  /-- QUEUE_ACTIVATE (R350): A host write of STATE 0 makes a queue ACTIVE or WAITING, mapping it if unmapped. -/
  | queueActivate (part : Nat) (q : Nat)
  /-- QUEUE_STOP (R350): A host write of STATE 2 stops fetching. -/
  | queueStop (part : Nat) (q : Nat)
  /-- QUEUE_UNMAP (R358): A host write of STATE 5 starts unmapping the queue. -/
  | queueUnmap (part : Nat) (q : Nat)
  /-- QUEUE_UNMAPPED (R358): The Drove finishes saving the descriptor and the queue becomes UNMAPPED. -/
  | queueUnmapped (part : Nat) (q : Nat)
  /-- HEAD_CONDITION_SATISFIED (R350): A WAITING queue's head condition comes to hold and the queue returns to ACTIVE. -/
  | headConditionSatisfied (part : Nat) (q : Nat)
  /-- QUEUE_FETCH (R349): The Drove fetches the next packet of a queue in SEQ order. -/
  | queueFetch (part : Nat) (q : Nat)
  /-- NOP_PACKET (R349): A NOP packet at the head completes at once. -/
  | nopPacket (part : Nat) (q : Nat)
  /-- LAUNCH_PACKET (R349): A LAUNCH packet at the head becomes a dispatch candidate. -/
  | launchPacket (part : Nat) (q : Nat)
  /-- NODE_PACKET (R349): A NODE packet enters the graph table and becomes a candidate once its predecessors complete. -/
  | nodePacket (part : Nat) (q : Nat)
  /-- WAIT_ALL_PACKET (R349): A WAIT_ALL packet holds the head until all its signals are satisfied. -/
  | waitAllPacket (part : Nat) (q : Nat)
  /-- WAIT_ANY_PACKET (R349): A WAIT_ANY packet holds the head until one of its signals is satisfied. -/
  | waitAnyPacket (part : Nat) (q : Nat)
  /-- SIGNAL_PACKET (R349): A SIGNAL packet adds to a signal or ring counter. -/
  | signalPacket (part : Nat) (q : Nat)
  /-- CANCEL_PACKET (R359): A CANCEL packet cancels a launch, graph, phase or job of its partition. -/
  | cancelPacket (part : Nat) (q : Nat)
  /-- GANG_PACKET (R360): A GANG packet reserves cores and starts the gang protocol. -/
  | gangPacket (part : Nat) (q : Nat)
  /-- GANG_MESSAGE_RECEIVE (R360): A CONFIRM, GO or NOGO message arrives over Tether. -/
  | gangMessageReceive (part : Nat) (gang : Nat) (member : Nat) (msg : GangMsg)
  /-- GANG_GO_DECISION (R360): At TICK - 2 µs a member sends GO or NOGO. -/
  | gangGoDecision (part : Nat) (gang : Nat)
  /-- GANG_RELEASE (R360): At TICK a member releases its units or withdraws with GANG_WITHDRAWN. -/
  | gangRelease (part : Nat) (gang : Nat)
  /-- DISPATCH (R355): When a core is free or a candidate arrives, the Drove chooses a partition and candidate and starts it. -/
  | dispatch (core : Nat)
  /-- CANDIDATE_AGED (R355): After 50 µs a candidate has aged and may go to the first free core. -/
  | candidateAged (part : Nat) (index : Nat)
  /-- STANDING_CLAIM (R354): The Drove claims the next item of a standing launch's input ring and dispatches or skips it. -/
  | standingClaim (part : Nat) (q : Nat)
  /-- UNIT_COMPLETION (R121): Once all its operations have completed, an ended unit's completion is posted to the Drove. -/
  | unitCompletion (core : Nat)
  /-- MSIX_MESSAGE (R370): In each allowed µs a function sends its merged pending MSI-X messages. -/
  | msixMessage (func : Nat)
  /-- PREEMPTION_REQUEST (R278): A pre-emption request reaches a core; a unit with no commit is discarded and re-queued. -/
  | preemptionRequest (core : Nat)
  /-- CONTEXT_SWITCH (R334): At the next commit point the core halts, saves its image and loads the incoming unit. -/
  | contextSwitch (core : Nat)
  /-- FLIT_CRC_FAILURE (R371): A Tether flit failing its CRC is sent again, up to 8 times. -/
  | flitCrcFailure (die : Nat) (flit : PortFlit)
  /-- LINK_TRAINING_TIMEOUT (R371): 10 µs without training reports the link failed. -/
  | linkTrainingTimeout (die : Nat) (port : Nat)
  /-- HOST_MEMORY_ACCESS (R368): A host access through BAR2 reads or writes device memory through the home die cache. -/
  | hostMemoryAccess (func : Nat) (addr : BitVec 64) (acc : HostAccess)
  /-- LOADER_DOORBELL (R393): A host write to the loader doorbell queues a load request. -/
  | loaderDoorbell (value : BitVec 64)
  /-- LOAD_REQUEST (R395): The loader reads, selects, places, verifies and installs an image and writes the result record. -/
  | loadRequest
  /-- FEN_WRITE (R391): A host write to FEN takes effect only while the partition has no running or switched-out unit. -/
  | fenWrite (part : Nat) (value : BitVec 64)
  /-- RING_ENABLE (R353): Writing EN = 1 enables a ring when PUB equals REL, resetting CLM, DROPS and DROPPED bits. -/
  | ringEnable (part : Nat) (ring : Nat)
  /-- MIRRORED_SIZE_SET (R362): At package reset the host sets the mirrored size taken from each die. -/
  | mirroredSizeSet (gib : Nat)
  /-- HOST_REGISTER_WRITE (R5): A host write to a register without behaviour of its own sets its fields under their Access codes. -/
  | hostRegisterWrite (reg : HostReg) (value : BitVec 256)
  /-- TETHER_PEER_ACCESS (R184): A read, write, atomic or signal from a gang peer arrives over Tether and is performed at this package's home die cache. -/
  | tetherPeerAccess (member : Nat) (part : Nat) (acc : PeerAccess)
  /-- PEER_ATOMIC_COMPLETION (R255): The result of a commit-attached atomic performed at its device-memory or peer home returns, writes its result slot and clears PEND. -/
  | peerAtomicCompletion (core : Nat)
  /-- LINK_TRAINING_COMPLETE (R372): A Tether port completes training and its link is up, so peer-window traffic may leave on it. -/
  | linkTrainingComplete (die : Nat) (port : Nat)
  /-- THERMAL_THROTTLE_END (R381): A throttling die cools to 105 °C junction and stops gating and withholding boost. -/
  | thermalThrottleEnd (die : Nat)
  /-- OWNER_PROVISIONING (R378): The owner provisions the package, installing the owner keys against which segment signatures are verified. -/
  | ownerProvisioning (part : Nat) (key : BitVec 64)
deriving DecidableEq, Repr

end Sys2Proof
end

