-- ==== Sys2Proof/Machine/State.lean ====
section
/-! DEFINITION. The state of a package as plain data: cores, dies, partitions, device memory, and the outside world as requests find
it. `Core.a` holds exactly the items of the commit snapshot (R259). Reset values: log 1 where the spec gives none. -/

namespace Sys2Proof.Machine

/-! ## A core's snapshot items -/

/-- A scalar register with its poison side bit (R60, R99). -/
structure Reg where
  val : Word
  psn : Bool
deriving DecidableEq, Repr

/-- A 32-bit lane of the operand store with its side bit, or a word of the scratchpad with its mark (R99, R137). -/
structure Lane where
  data : Word32
  psn : Bool
deriving DecidableEq, Repr

/-- What a cluster does: it runs, or it has stopped at a word that waits for the other clusters (R120, R121, R143, R267). -/
inductive ClSt where
  | run
  | atJoin (target : Word)
  | atCommit
  | atCommitD (first count : Nat)
  | atEnd
  /-- At a `mark`, with the queues that its word pops and pushes (R45, R143). -/
  | atMark (pop push : Option Nat)
deriving DecidableEq, Repr

/-- One hardware loop level of a cluster (R114). -/
structure LoopLv where
  start : Word
  last : Word
  count : Nat
  active : Bool
deriving DecidableEq, Repr

/-- The modulo sequencer while it runs (R117, R118). `buf` is the loop buffer: the words of the body's slots in order, none for a word that
could not be fetched when the body was. -/
structure Seqr where
  k : Nat
  b : Nat
  n : Nat
  stages : Nat
  ii : Nat
  map : Word
  body : Word
  buf : List (Option Word32)
deriving DecidableEq, Repr

/-- A stream engine's descriptor, binding and position (R155). -/
structure Stream where
  base : Word
  c0 : BitVec 20
  c1 : BitVec 20
  c2 : BitVec 20
  s0 : BitVec 32
  s1 : BitVec 32
  s2 : BitVec 32
  out : Bool
  loc : Bool
  bound : Bool
  running : Bool
  pos : Word
  eos : Bool
deriving DecidableEq, Repr

/-- What names a unit to a core that it has asked for work: its partition, launch and index, and its dispatch's ARRIVE, which tells the units of
a standing launch apart (R127, R354). -/
structure UnitRef where
  part : Nat
  launch : Nat
  index : Nat
  arrive : Nat
deriving DecidableEq, Repr

/-- Tile states with their codes in order (R214). -/
inductive TileSt where
  | empty | filling | ready | draining
deriving DecidableEq, Repr

/-- An entry of the tile table (R214). -/
structure Tile where
  desc : BitVec 256
  v : Bool
  st : TileSt
deriving DecidableEq, Repr

/-- A hurdle (R243). Its external delta is the part of `Core.ext` that names it. -/
structure Hurdle where
  target : Nat
  count : Nat
  phcnt : BitVec 16
deriving DecidableEq, Repr

/-- An atomic's result slot (R255). -/
structure ResSlot where
  val : BitVec 128
  psn : Bool
  pend : Bool
deriving DecidableEq, Repr

/-- The status codes of an Almanac slot (R283). -/
inductive AlmSt where
  | off | run | accepted | rejected | done | failed
deriving DecidableEq, Repr

/-- An Almanac sample slot (R281, R283). -/
structure AlmSlot where
  t : Word
  h : Word
  hmin : Word
  tend : Word
  lasterr : Word
  hh1 : Word
  hh2 : Word
  nrej : Nat
  nacc : Nat
  hcnt : Nat
  peff : Nat
  meth : Nat
  sidx : Nat
  errv : Bool
  clip : Bool
  psn : Bool
  st : AlmSt
  tx : Nat
  trb : Nat
  ty : Nat
  tk : List Nat
  th : List Nat
deriving DecidableEq, Repr

/-- The states of a Shepherd slot, in the order of their codes (R299). -/
inductive ShSt where
  | off | observe | train | candidate | active | fallback | invalid
deriving DecidableEq, Repr

/-- A Shepherd region slot (R297, R299). -/
structure ShSlot where
  decl : BitVec 256
  st : ShSt
  ocnt : Nat
  scnt : Nat
  emean : Word32
  retr : Nat
  tstep : Nat
  seg : BitVec 6
  opened : Bool
deriving DecidableEq, Repr

/-- The items of the commit snapshot (R259). In joint mode the four program counters are equal. `repK` is the progress of a `rep`: the
next repetition and their number, once the prefix has passed its checks (R69); `litAt` the bundle whose K slot is the literal of a `vigil`
in the bundle before it (R70). -/
structure Arch where
  mode : Mode
  pc : Vector Word 4
  repK : Vector (Option (Nat × Nat)) 4
  litAt : Option Word
  clst : Vector ClSt 4
  segCur : BitVec 6
  tl : Bool
  uh : Bool
  held : Bool
  regs : Vector Reg 64
  flags : Vector (BitVec 8) 4
  y : BitVec 16
  masks : Vector (BitVec 256) 8
  tokens : Vector Nat 12
  heldTok : Vector Nat 12
  loops : Vector LoopLv 8
  seq : Option Seqr
  frm : BitVec 3
  ustat : BitVec 8
  vrot : BitVec 6
  vbase : BitVec 11
  abase : BitVec 7
  rcur : Word
  rend : Word
  req : Option UnitRef
  pend : Bool
  grant : Bool
  refused : Bool
  markL : Nat
  markS : Nat
  ssz : Nat
  windows : Vector (Option (Word × Word)) 16
  streams : Vector Stream 8
  tiles : Sparse Tile
  hurdles : Sparse Hurdle
  res : Vector ResSlot 16
  nextRes : Nat
  pins : List Nat
  methods : Vector (Option (List Word)) 4
  alm : Sparse AlmSlot
  shep : Vector ShSlot 16
  shmaxe : Word32
  shmean : Word32
deriving DecidableEq, Repr

/-! ## A core's other state -/

/-- A synchronous cause with its detail, TVAL and, for STREAM_FAULT, TSTRM (R315 to R317). -/
structure Trap where
  cause : Nat
  detail : Nat
  tval : Word
  strm : Option (Nat × Nat)
deriving DecidableEq, Repr

/-- An arrival from outside the open region, as a replay applies it again (R242, R216, R128, R255). -/
inductive ExtEv where
  | hurdle (h count : Nat)
  | token (pair : Nat)
  | tileDone (h : Nat)
  | result (slot : Nat) (val : BitVec 128) (psn : Bool)
  | request (thief : UnitRef)
  | grantGiven (low : Word) (thief : UnitRef)
  | refusalGiven (thief : UnitRef)
  | grantGot (lo hi : Word)
  | stealRefused
deriving DecidableEq, Repr

/-- A line of the L1 by its physical line number, with a poison mark for each word (R137). `stale` holds the copy once the home has a newer
value and its invalidation is still queued (R177): the old bytes. -/
structure L1Line where
  line : Nat
  marks : BitVec 32
  stale : Option (List Byte)
deriving DecidableEq, Repr

/-- A line of the stash by its physical line number: whether it is held dirty, a poison mark for each word (R137, R151), and the virtual lines
at which it has been touched, by which it belongs to a window (R152). -/
structure StashLine where
  line : Nat
  dirty : Bool
  marks : BitVec 32
  vas : List Word
deriving DecidableEq, Repr

/-- A line of a die cache by its physical line number, with the partition tag it was brought in under (R170), a poison mark for each word
(R137), and whether memory holds it too. -/
structure DcLine where
  line : Nat
  part : Nat
  marks : BitVec 32
  dirty : Bool
deriving DecidableEq, Repr

/-- A queued invalidation: the die cache it comes from, the line, and DTIME at its arrival (R177). -/
structure Inval where
  die : Nat
  line : Nat
  time : Word
deriving DecidableEq, Repr

/-- A cached translation: partition tag, ASN, first address, log2 of the page size and the leaf entry (R170). -/
structure TlbEntry where
  part : Nat
  asn : BitVec 16
  vbase : Nat
  size : Nat
  leaf : Word
deriving DecidableEq, Repr

/-- Which token queue a completing operation pushes to, as a pair number, or none (R45). -/
abbrev Push := Option Nat

/-- A copy of the transfer engine: `rows` rows of `rowBytes` bytes at `off + r · lpitch` and `gaddr + r · gpitch` (R236 to R238, R252).
`tile` names the handle of a tile copy, `fetcher` a copy of the operand fetcher (R224), `slot` the chain it belongs to, `hurdle` the
local hurdle its bytes arrive at; `homes` has a bit for each die whose local memory it writes (R271); `done` counts the bytes moved.
`made` counts the bytes whose arrival has been made, which a repeated copy does not make again (R270); `entry` is the address of a
chain's entry. `open_` says that the copy belongs to the open region; `fault` is what stopped a copy of the fetcher (R230); `ahead` holds the
bytes, with their marks, that came with a whole word of the source and are not written yet (R136). -/
structure Copy where
  id : Nat
  outb : Bool
  rows : Nat
  rowBytes : Nat
  off : Nat
  gaddr : Word
  lpitch : Nat
  gpitch : Nat
  hurdle : Option Nat
  tile : Option Nat
  fetcher : Bool
  slot : Option Nat
  push : Push
  homes : BitVec 2
  done : Nat
  made : Nat
  entry : Word
  open_ : Bool
  fault : Option Trap
  ahead : List (Byte × Bool) := []
deriving DecidableEq, Repr

/-- An entry of the commit buffer, in entry order (R139, R249). -/
inductive CEntry where
  /-- A sector of 32 bytes at a physical address, entered under a virtual address, with its written bytes, as (offset, byte) pairs by rising
  offset. -/
  | sector (pa : Nat) (va : Word) (bytes : Sparse (Option Byte))
  | atomic (pa : Nat) (va : Word) (op : AmoOp) (size : Nat) (cmp val : BitVec 128) (slot : Nat)
  | copy (c : Copy)
  | post (queue : Nat) (pkt : BitVec 512)
  | sigadd (idx : Nat) (val : Word)
  | ringadd (idx : Nat) (val : Word)
  | kick (slot : Nat) (addr : Word)
  | arrive (ref : Word) (count : Nat)
  | steal (prev : Bool)
deriving DecidableEq, Repr

/-- A released post that has not left: it waits for the outbound copies with a serial below `after` (R249). -/
structure Departing where
  entry : CEntry
  after : Nat
deriving DecidableEq, Repr

/-- A write, an atomic or a hurdle arrival that left for a host or a peer and is not yet acknowledged (R178, R184, R248). A peer write keeps
the port that it left on, the place, the bytes with the marks of their words, and whether the peer has performed it, after which it refuses it
no more (R256); the others keep their port. -/
inductive Outstanding where
  | peerWrite (member port key : Nat) (data : List Byte) (psn : List Bool) (done : Bool)
  | peerArrive (member port : Nat)
  | peerAtomic (member port : Nat) (slot : Nat) (result : BitVec 128) (psn : Bool)
  | hostAtomic (slot : Nat) (result : BitVec 128)
  | homeAtomic (slot : Nat) (result : BitVec 128) (psn : Bool)
deriving DecidableEq, Repr

/-- The FIFO of a stream engine: vectors from position `first` on, the number still wanted by a pending `sstart` push, and the fault
that stopped an inbound fetch (R155, R162). An outbound entry is a vector with the position it was pushed at. -/
structure Fifo where
  vecs : List (List Lane)
  first : Nat
  fault : Option Trap
  push : Push
  pushOpen : Bool
deriving DecidableEq, Repr

/-- The status of a chain slot (R251). -/
inductive ChainSt where
  | idle | run | wait | done | stopped | fault
deriving DecidableEq, Repr

/-- A chain slot (R251). `skip` is the ring and the item that a WAIT under DROP_NEW gives up: the entries up to the POST are skipped
(R354). `held` says that its entry waits for earlier copies (R253), `stopping` that `chain.stop` has come meanwhile: the slot stops once the entry
has completed (R251; log 60). -/
structure Chain where
  cpc : Word
  st : ChainSt
  kick : Option Word
  held : Bool
  stopping : Bool
  skip : Option (Nat × Nat)
deriving DecidableEq, Repr

/-- The operations of the matrix engine queue (R219). -/
inductive MxKind where
  /-- A nest: the sixteen dwords of its table and the table's offset (R225). -/
  | nest (table : List Word) (off : Nat)
  | drain (acc handle : Nat) (mode : BitVec 3)
  | zero (acc : Nat)
  | mma (acc ha hb : Nat)
deriving DecidableEq, Repr

/-- The sums of a column or row of a matrix group (R227), in units of 2⁻¹⁶⁵¹² (log 31): the start values with the products of the steps, the
magnitudes of both, and whether a value that is no number keeps it from being compared. -/
structure CheckSum where
  sum : Int
  abs : Int
  skip : Bool
deriving DecidableEq, Repr

/-- A queued matrix operation with the ABASE and rounding mode in force at issue (R220), and its progress: step number, rows of the step
accumulated, the group's shape once its first step has begun, whether the step has passed its checks, whether its group waits to be
drained, the flags due at completion (R98), and the sums of the group's columns and rows (R227). -/
structure MxOp where
  kind : MxKind
  abase : BitVec 7
  mode : BitVec 3
  push : Push
  step : Nat
  row : Nat
  group : Option (Nat × Nat)
  begun : Bool
  drains : Bool
  flags : BitVec 8
  cols : List CheckSum
  rows : List CheckSum
deriving DecidableEq, Repr

/-- A tile walk (R232); `stopped` while it waits for the handler of its fault to return (R230), `counts` what `hist` has read at its start
(R233). -/
structure Walk where
  op : Nat
  ctrl : Word
  off : Nat
  push : Push
  stopped : Bool
  counts : Option (List Lane)
deriving DecidableEq, Repr

/-- A queued Vigil check (R275). -/
structure Vigil where
  kind : Nat
  ha : Nat
  hb : Nat
  crc : Word32
  push : Push
deriving DecidableEq, Repr

/-- A queued Almanac step: 0 `astage`, 1 `aerr`, 2 `adec`; slot range, time array offset, the slot reached (R286, R287), and whether it
waits for the handler of its fault to return (R294). -/
structure AlmOp where
  kind : Nat
  first : Nat
  count : Nat
  off : Nat
  at_ : Nat
  push : Push
  stopped : Bool
deriving DecidableEq, Repr

/-- A Shepherd operation that runs, or whose result waits for commit (R304): the slot, and the gradients or the result. -/
inductive ShRun where
  | none
  | running (slot : Nat)
  | trained (slot : Nat) (grads : List Word32)
  | validated (slot : Nat) (pass : Bool) (emean : Word32)
deriving DecidableEq, Repr

/-- The inputs of the open Shepherd region (R307): CAP, SMP and YS. -/
structure ShCap where
  slot : Nat
  cap : List Word32
  smp : Bool
  ys : List Word32
deriving DecidableEq, Repr

/-- What a trap saves besides the EPCs (R318). -/
structure Frame where
  mode : Mode
  litAt : Option Word
  loops : Vector LoopLv 8
  seq : Option Seqr
  segCur : BitVec 6
deriving DecidableEq, Repr

/-- The trap registers of a frame (R316, R317). -/
structure TrapRegs where
  cl : BitVec 2
  detail : BitVec 16
  cause : BitVec 6
  tval : Word
  stream : BitVec 3
  elem : BitVec 56
  epc : Vector Word 4
  frame : Frame
deriving DecidableEq, Repr

/-- TVEC (R317). -/
structure Tvec where
  hseg : BitVec 6
  v : Bool
  off : BitVec 28
deriving DecidableEq, Repr

/-- A fault that an engine has found and C or K takes at its first instruction that has not completed (R230, R252). -/
structure EngTrap where
  cl : Cluster
  trap : Trap
deriving DecidableEq, Repr

/-- The fault record of a frozen core (R241): the cause, its detail, the address, and the copy or the chain slot that met it. `err` is the source
of an error whose replay waits for the end of the freeze (R264). -/
structure Freeze where
  cause : Nat
  detail : Nat
  addr : Word
  copy : Option Nat
  slot : Option Nat
  err : Option Nat
deriving DecidableEq, Repr

/-- The unit a core holds (R356, R271). -/
structure UnitInfo where
  part : Nat
  asn : BitVec 16
  launch : Nat
  index : Nat
  prio : Nat
  arrive : Nat
  start : Nat
  seg : BitVec 6
  committed : Bool
  localw : BitVec 2
  record : Option Nat
  err : Option (Nat × Nat)
  gang : Option Nat
deriving DecidableEq, Repr

/-- What a core does (R121, R327, R330, R270, R375). `ending` carries the completion status, `svc` the register that takes the answer; `held`
is a core that waits at its commit point for a firmware restart. -/
inductive RunSt where
  | idle
  | running
  | ending (cause detail : Nat)
  | svc (d : BitVec 6)
  | halted
  | held
  | retired
deriving DecidableEq, Repr

/-- A core (R19). `a` is the current value of the snapshot items, `snap` the snapshot and `ext` the arrivals since it; `nopSlot` is the slot
that `tret.n` makes a `nop` (R323), `preempt` the partition of a pre-emption request that is held (R325), `asker` the candidate that raised
it as partition, launch and index (R355), `inbox` the steal requests on their way (the unit that asks, previous), `answers` the grants and
refusals on their way to it, each with the unit that has asked, and `arrivals` the remote hurdle arrivals on their way (hurdle, count, launch or gang identity); `backlog` holds the
released copies that wait for a place among the 16 that may be queued at once (R240); `resends` counts how often each piece of work outside
any region has been sent again (R262): key 0 is the oldest post, 1 the oldest arrival, 2 to 5 the entry of a chain slot, 6 and 7 the oldest
steal request and the oldest answer, 8 + n the piece of copy n; `adopter` is the core that took over a retired core's unit, and `moved` the unit
of a retired core that waits to start again from its launch record (R270, R272); `icache` lists the lines of each cluster's instruction cache,
the last used first (R19, log 51); `badOst` and `badScr` are the lanes and words that hold an uncorrectable error of the SRAM (R261), on the
environment's side. -/
structure Core where
  a : Arch
  snap : Arch
  ext : List ExtEv
  ost : Sparse Lane
  scratch : Sparse Lane
  badOst : List Nat
  badScr : List Nat
  chunkDirty : BitVec 128
  stash : List StashLine
  icache : Vector (List Nat) 4
  l1 : List L1Line
  invq : List Inval
  tlb1 : List TlbEntry
  tlb2 : List TlbEntry
  cbuf : List CEntry
  departing : List Departing
  outst : List Outstanding
  fifos : Vector Fifo 8
  copies : List Copy
  backlog : List Copy
  nextCopy : Nat
  chains : Vector Chain 4
  mxq : List MxOp
  mxrow : Word
  walk : Option Walk
  vigils : List Vigil
  almq : List AlmOp
  sstore : Sparse Word32
  shcap : Option ShCap
  pobs : Vector Nat 16
  sfail : BitVec 16
  shrun : ShRun
  engTraps : List EngTrap
  tr : TrapRegs
  heldTr : TrapRegs
  tvec : Tvec
  bank : Vector Reg 4
  nopSlot : Option Cluster
  segL : BitVec 6
  rgnpc : Word
  rtryTotal : Nat
  rtryCount : Nat
  rtryMax : Nat
  cyc : Word
  unit : Option UnitInfo
  run : RunSt
  freeze : Option Freeze
  preempt : Option Nat
  asker : Option (Nat × Nat × Nat)
  tags : List Word32
  inbox : List (UnitRef × Bool)
  answers : List (UnitRef × Option (Word × Word))
  arrivals : List (Nat × Nat × Nat)
  resends : Sparse Nat
  adopter : Option Nat
  moved : Option UnitRef
deriving DecidableEq, Repr

/-! ## Partitions -/

/-- A segment descriptor (R311). -/
structure Seg where
  base : Word
  len : Word32
  gate : Word32
  toff : Word32
  eoff : Word32
  fw : Bool
  sys : Bool
  ev : Bool
  v : Bool
deriving DecidableEq, Repr

/-- An error record (R331). -/
structure ErrRec where
  aux : Word
  addr : Word
  time : Word
  part : BitVec 3
  die : BitVec 1
  core : BitVec 6
  detail : BitVec 16
  eccst : BitVec 2
  cause : BitVec 6
deriving DecidableEq, Repr

/-- A ring descriptor with the Drove's items (R353). `dropped` lists the items whose DROPPED bit is set, `finished` the items completed or
dropped that wait for their turn to be released, `outDone` the reserved items that wait for their turn to be published, the next of them
`outNext` (R354). -/
structure Ring where
  recbase : Word
  slotsz : Word32
  slotbase : Word
  capm1 : BitVec 16
  en : Bool
  policy : BitVec 2
  relc : BitVec 8
  pubc : BitVec 8
  clm : Nat
  drops : Nat
  dropped : List Nat
  rsv : Nat
  finished : List Nat
  outDone : List Nat
  outNext : Nat
deriving DecidableEq, Repr

/-- Queue states in the order of their codes (R350). -/
inductive QState where
  | active | waiting | stopped | fetchFault | unmapping | unmapped | reset
deriving DecidableEq, Repr

/-- A queue: its descriptor (R341), the portal's LREF (R342), the packet held at the head with its SEQ, whether that packet has acted, and
the SEQs that have not completed (R349, R350). -/
structure Queue where
  tail : Nat
  head : Nat
  pw : Bool
  st : QState
  asn : BitVec 16
  func : Nat
  ien : Bool
  homedie : Nat
  dataPlane : Bool
  part : Nat
  cplbase : Word
  ringbase : Word
  log2n : Nat
  lref : Bool
  heldPkt : Option (BitVec 512)
  heldSeq : Nat
  started : Bool
  open_ : List Nat
deriving DecidableEq, Repr

/-- A launch record (R356, R357): queue, SEQ and packet, the ASN that its units keep, number of units, the units not yet dispatched, running
and failed, and for a standing launch the items claimed and not yet ended. -/
structure Launch where
  id : Nat
  queue : Nat
  seq : Nat
  pkt : BitVec 512
  asn : BitVec 16
  units : Nat
  todo : List Nat
  live : List Nat
  fail : Option (Nat × Nat × Nat × Nat)
  cancelled : Option Nat
  standing : Bool
  arrive : Nat
  node : Bool
  gang : Option Nat
  items : List (Nat × Option Nat)
deriving DecidableEq, Repr

/-- A gang in its protocol (R360). -/
structure Gang where
  gangid : Nat
  members : BitVec 8
  self : Nat
  tick : Nat
  launch : Nat
  confirms : BitVec 8
  gos : BitVec 8
  nogos : BitVec 8
  missing : BitVec 8
  sent : Bool
  reserved : List Nat
deriving DecidableEq, Repr

/-- A unit switched out, or re-queued with its state (R334 to R336): what it left behind, the shadow-store slot of a die that holds its image
(none: the save area, log 52), its scratchpad as coded, the core it left, its launch and the arrivals held for it. -/
structure Switched where
  image : Core
  place : Option (Nat × Nat)
  coded : List Byte
  core : Nat
  launch : Nat
  index : Nat
  held : List ExtEv
deriving DecidableEq, Repr

/-- A durable record of a unit (R273); `stores` holds what its region wrote to device memory, tile images among it, as addresses, bytes and the
marks of their line's words (R185). -/
structure Durable where
  launch : Nat
  index : Nat
  snap : Arch
  unit : Option UnitInfo
  stores : List (Nat × List Byte × BitVec 32)
deriving DecidableEq, Repr

/-- A request to the fault service: the core and whether it comes from `svc` (R332). -/
structure SvcReq where
  core : Nat
  svc : Bool
  arg : Word
deriving DecidableEq, Repr

/-- A partition (R337). `boostNow` is the BOOSTEN in force in the present boost interval (R338); `gangEarly` holds the messages of gangs whose packet has not acted here yet: gang, member, message (R360). -/
structure Part where
  owner : Nat
  queueFuncs : List Nat
  member : Nat
  mask0 : BitVec 36
  mask1 : BitVec 36
  segs : Vector Seg 64
  trapSeg : Option (BitVec 6)
  asds : Sparse Word
  saveArea : Word
  records : List Durable
  rtrymax : Nat
  hostWin : Vector (BitVec 128) 64
  peerWin : Vector (BitVec 128) 8
  boosten : Bool
  boostNow : Bool
  weight : Nat
  fen : Word
  signals : Sparse Word
  ringCtrs : Sparse Word
  rings : Vector Ring 64
  queues : Vector Queue 64
  launches : List Launch
  nextLaunch : Nat
  errlog : List ErrRec
  errNext : Nat
  errOver : Nat
  malformed : Nat
  discard : Nat
  outLaunch : Nat
  outGraph : Nat
  outPhase : Nat
  outJob : Nat
  ownerKeys : List Word
  svcq : List SvcReq
  gangs : List Gang
  gangEarly : List (Nat × Nat × GangMsg)
  switched : List Switched
  resetting : Bool
  egressDropped : Nat
deriving DecidableEq, Repr

/-! ## Dies and package -/

/-- A boost domain (R382 to R384). `claim` is the claim at the start of the interval, `seen` whether there has been one since, and
`claimSince` the interval in which the present claim began. -/
structure Domain where
  step : Nat
  halves : Nat
  claim : Bool
  seen : Bool
  claimSince : Nat
  falling : Bool
  waitNoClaim : Bool
  idleRun : Nat
deriving DecidableEq, Repr

/-- A Tether port (R371): `retries` counts the failures of each flit that has failed and not gone through since the link came up, and `since` is DTIME when the link last stopped being up. -/
structure Port where
  up : Bool
  failed : Bool
  retries : Sparse Nat
  since : Word
deriving DecidableEq, Repr

/-- A node of the graph table (R349). -/
structure GNode where
  part : Nat
  graph : Nat
  nodeid : Nat
  preds : List Nat
  launch : Nat
  ready : Bool
deriving DecidableEq, Repr

/-- A candidate of the dispatch choice (R355). -/
structure Cand where
  part : Nat
  launch : Nat
  index : Nat
  prio : Nat
  arrive : Nat
  queue : Nat
  seq : Nat
  aff : List Word32
  homedie : Nat
  cosched : Bool
  aged : Bool
  resume : Bool
deriving DecidableEq, Repr

/-- An entry of the walk cache: a table entry of level 0 to 2 by its tag, ASN and index path (R170). -/
structure WalkCached where
  part : Nat
  asn : BitVec 16
  level : Nat
  path : Nat
  table : Nat
deriving DecidableEq, Repr

/-- A die (R13). `gateHeld`, `pwrgHeld` and `thrtHeld` are the values at the start of the boost interval, which BSTAT reports (R384);
`restarting` says that its firmware restarts (R375), `watts` is its last power estimate and `estimates` the number of intervals of 4 µs that
it has estimated (R380). -/
structure Die where
  up : Bool
  endpointUp : Bool
  bellwether : Option Nat
  dispatchOn : Bool
  recovery : Bool
  lastRestart : Option Nat
  west : Domain
  east : Domain
  gate : Nat
  pwrg : Bool
  thrt : Bool
  noBoost : Bool
  watts : Nat
  estimates : Nat
  gateHeld : Nat
  pwrgHeld : Bool
  thrtHeld : Bool
  restarting : Bool
  ports : Vector Port 4
  dcache : List DcLine
  graph : List GNode
  images : Sparse (Option Core)
  cands : List Cand
  resvCores : List (Nat × Nat)
  walkCache : List WalkCached
deriving DecidableEq, Repr

/-- The levels of the security alarm that last until a package reset (R378). -/
inductive Alarm where
  | none | halt | erase
deriving DecidableEq, Repr

/-- What the environment has done to a sector (R365). -/
inductive SectorFault where
  | uncorrectable
  | tagMismatch (corrected : Bool)
  | corrected
deriving DecidableEq, Repr

/-- A message that has left the package (logs 10, 11). -/
inductive OutMsg where
  | msix (func vector : Nat)
  | dmwrOk (func q : Nat)
  | dmwrRetry (func q : Nat)
  | dmwrAbort (func q : Nat)
  | unsupported (func q : Nat)
  | hostRead (func : Nat) (data : List Byte) (psn : Bool)
  | hostRefused (func : Nat)
  | hostWrite (die : Nat) (func : Nat) (addr : Word) (data : List Byte) (psn : Bool)
  | hostAtomic (die : Nat) (func : Nat) (addr : Word)
  | tetherWrite (member : Nat) (addr : Nat) (data : List Byte) (psn : Bool)
  | tetherReply (member : Nat) (data : List Byte) (psn : Bool)
  | tetherRefused (member : Nat)
  | tetherArrive (member core hurdle count ident : Nat)
  | gang (member gangid : Nat) (msg : GangMsg)
  | wakeNotice (part q : Nat)
deriving DecidableEq, Repr

/-- An error of an SRAM word that SECDED finds (R261): of one bit, in any SRAM; or an uncorrectable one, in a word of a core's scratchpad, a lane of
its operand store, a word of a line of its L1 or its stash, or a word of a line of a die cache. -/
inductive Upset where
  | bit
  | scr (core word : Nat)
  | ost (core lane : Nat)
  | l1 (core line word : Nat)
  | stash (core line word : Nat)
  | dcache (die line word : Nat)
deriving DecidableEq, Repr

/-- What the next step does: the issue of a cluster of a core; an issue whose loads and stores stay in their queues, or the next access of a
cluster's queue (R142; log 6); an error in an SRAM, which the environment brings about (R261; log 10); or a step of an engine, the Drove, the
firmware or the host. -/
inductive Act where
  | issue (core : Nat) (cl : Cluster)
  | late (core : Nat) (cl : Cluster)
  | perform (core : Nat) (cl : Cluster)
  | upset (x : Upset)
  | event (i : Instr)
deriving DecidableEq, Repr

/-- An access in the load queue of L or the store queue of S: the instruction that has issued, the core whose operands it took, and the token
queue that it pushes to once it has been performed (R45, R142). -/
structure Queued where
  core : Nat
  cl : Cluster
  instr : Instr
  pre : Core
  push : Push
deriving DecidableEq, Repr

/-- A move of the agenda with the device time and core cycles it takes (log 5, log 7). -/
structure Move where
  act : Act
  ns : Nat
  cc : Nat
deriving DecidableEq, Repr

/-- A bundle whose slots are being executed (R57, R58): the core as it stood before, the causes raised in slot order, whether a slot
stalls, the target of a transfer of the C slot, and whether a slot has itself set the program counters; `unpin` that an
access met a retry response; `flagged` the USTAT flags that its slots have set; `arrivals` the local arrivals of its slots, which settle
together once its last slot has executed (R244). -/
structure Bundle where
  pre : Core
  flagged : BitVec 8
  raised : Option (Cluster × Trap)
  stalled : Bool
  target : Option Word
  pcSet : Bool
  unpin : Bool
  arrivals : List (Nat × Nat)
deriving DecidableEq, Repr

/-- The state of a package. `mirroredNext` is the mirrored size for the next package reset (R362); `slew` the correction of DTIME in force,
in parts per million, with its remainder `slewAcc`, and `timeMaster` whether the host has named the package time master (R373); `apertures`
the address space of each function's aperture (R368); `fwImage` the version of the verified image in each die's SRAM and `attKey` whether
the package holds its attestation key (R374, R378); `sectorTags` the partition tag, plus one, that a sector was written under (R364);
`boostAt` the number of the boost interval under way (R382). `waiting` keeps for a core at a commit point in joint mode what it was before
the bundle and right after its slots (R58, R230); `accesses` holds the load and store queues of the cores, in the order of issue (R142);
`agenda`, `focus`, `bundle` and `tick` are the model's own (logs 4, 5); `hostMem`, `peerMem`, `faulty` and `outbox` are the environment's
side (logs 10, 11). Memory is listed by physical address, host memory by bus address, peer memory by member and physical address. -/
structure State where
  cores : Vector Core 72
  dies : Vector Die 2
  parts : Vector Part 8
  mem : List Host.Cell
  poisoned : List Nat
  sectorTags : Sparse Nat
  faulty : Sparse (Option SectorFault)
  hostMem : List Host.Cell
  hostPoison : List Nat
  peerMem : List Host.Cell
  peerPoison : List Nat
  dtime : Word
  mirroredGiB : Nat
  mirroredNext : Nat
  slew : Int
  slewAcc : Nat
  boostAt : Nat
  powerCeiling : Nat
  workLimit : Nat
  intthr : Nat
  mismatches : List Nat
  alarm : Alarm
  keysValid : Bool
  attKey : Bool
  keyEpoch : Nat
  retiredCores : List Nat
  minVersion : Nat
  flashValid : Bool
  flashVersion : Nat
  fwImage : Vector (Option Nat) 2
  doorbells : List Word
  ldLast : BitVec 8
  ldDone : BitVec 32
  msixPending : List (Nat × Nat)
  msixLast : Sparse Nat
  outbox : List OutMsg
  corrected : Nat
  apertures : Vector (BitVec 16) 17
  timeMaster : Bool
  waiting : List (Nat × Core × Core)
  accesses : List Queued
  agenda : List Move
  focusCore : Nat
  focusCl : Cluster
  bundle : Option Bundle
  tick : Nat
deriving DecidableEq, Repr

/-! ## Reset -/

/-- A register that holds zero, not poison. -/
def Reg.zero : Reg := { val := 0, psn := false }

/-- A lane that holds zero, not poison. -/
def Lane.zero : Lane := { data := 0, psn := false }

/-- An inactive loop level. -/
def LoopLv.zero : LoopLv := { start := 0, last := 0, count := 0, active := false }

/-- A stream engine at unit start (R155). -/
def Stream.zero : Stream :=
  { base := 0, c0 := 1, c1 := 1, c2 := 1, s0 := 0, s1 := 0, s2 := 0, out := false, loc := false, bound := false, running := false,
    pos := 0, eos := false }

/-- A tile handle at unit start (R214): the fields of its descriptor, which `tstat` shows, are zero (log 55). -/
def Tile.zero : Tile := { desc := 0, v := false, st := .empty }

/-- A hurdle at unit start (R243). -/
def Hurdle.zero : Hurdle := { target := 0, count := 0, phcnt := 0 }

/-- A result slot never written (R255). -/
def ResSlot.zero : ResSlot := { val := 0, psn := false, pend := false }

/-- An Almanac slot that is OFF with all fields zero (R279, R292). -/
def AlmSlot.zero : AlmSlot :=
  { t := 0, h := 0, hmin := 0, tend := 0, lasterr := 0, hh1 := 0, hh2 := 0, nrej := 0, nacc := 0, hcnt := 0, peff := 0, meth := 0,
    sidx := 0, errv := false, clip := false, psn := false, st := .off, tx := 0, trb := 0, ty := 0, tk := [0, 0, 0, 0, 0, 0, 0],
    th := [0, 0, 0] }

/-- A Shepherd slot that is OFF (R297). -/
def ShSlot.zero : ShSlot :=
  { decl := 0, st := .off, ocnt := 0, scnt := 0, emean := 0, retr := 0, tstep := 0, seg := 0, opened := false }

/-- The snapshot items at package reset: those of unit start (R104, R62, R63, R94, R97), registers zero, joint mode at address 0 (log 1). -/
def Arch.zero : Arch :=
  { mode := .joint, pc := Vector.replicate 4 0, repK := Vector.replicate 4 none, litAt := none, clst := Vector.replicate 4 .run, segCur := 0,
    tl := false, uh := false, held := false, regs := Vector.replicate 64 Reg.zero, flags := Vector.replicate 4 0, y := 0,
    masks := Vector.replicate 8 0, tokens := Vector.replicate 12 0, heldTok := Vector.replicate 12 0,
    loops := Vector.replicate 8 LoopLv.zero, seq := none, frm := 0, ustat := 0, vrot := 0, vbase := 0, abase := 0x40, rcur := 0,
    rend := 0, req := none, pend := false, grant := false, refused := false, markL := 0, markS := 0, ssz := 0,
    windows := Vector.replicate 16 none, streams := Vector.replicate 8 Stream.zero, tiles := [], hurdles := [],
    res := Vector.replicate 16 ResSlot.zero, nextRes := 0, pins := [], methods := Vector.replicate 4 none, alm := [],
    shep := Vector.replicate 16 ShSlot.zero, shmaxe := 0, shmean := 0 }

/-- An empty FIFO. -/
def Fifo.zero : Fifo := { vecs := [], first := 0, fault := none, push := none, pushOpen := false }

/-- A chain slot at unit start (R251). -/
def Chain.zero : Chain := { cpc := 0, st := .idle, kick := none, held := false, stopping := false, skip := none }

/-- The trap registers at reset (R316, R317). -/
def TrapRegs.zero : TrapRegs :=
  { cl := 0, detail := 0, cause := 0, tval := 0, stream := 0, elem := 0, epc := Vector.replicate 4 0,
    frame := { mode := .joint, litAt := none, loops := Vector.replicate 8 LoopLv.zero, seq := none, segCur := 0 } }

/-- A core at package reset: it holds no unit. -/
def Core.zero : Core :=
  { a := Arch.zero, snap := Arch.zero, ext := [], ost := [], scratch := [], badOst := [], badScr := [], chunkDirty := 0, stash := [],
    icache := Vector.replicate 4 [], l1 := [], invq := [],
    tlb1 := [], tlb2 := [], cbuf := [], departing := [], outst := [], fifos := Vector.replicate 8 Fifo.zero, copies := [],
    backlog := [], nextCopy := 0, chains := Vector.replicate 4 Chain.zero, mxq := [], mxrow := 0, walk := none, vigils := [], almq := [],
    sstore := [], shcap := none, pobs := Vector.replicate 16 0, sfail := 0, shrun := .none, engTraps := [], tr := TrapRegs.zero,
    heldTr := TrapRegs.zero, tvec := { hseg := 0, v := false, off := 0 }, bank := Vector.replicate 4 Reg.zero, nopSlot := none,
    segL := 0, rgnpc := 0, rtryTotal := 0, rtryCount := 0, rtryMax := 3, cyc := 0, unit := none, run := .idle, freeze := none, preempt := none,
    asker := none, tags := [], inbox := [], answers := [], arrivals := [], resends := [], adopter := none, moved := none }

/-- A segment handle at reset (R311). -/
def Seg.zero : Seg :=
  { base := 0, len := 0, gate := 0, toff := 0, eoff := 0, fw := false, sys := false, ev := false, v := false }

/-- A ring descriptor at reset (R353). -/
def Ring.zero : Ring :=
  { recbase := 0, slotsz := 0, slotbase := 0, capm1 := 0, en := false, policy := 0, relc := 0, pubc := 0, clm := 0, drops := 0,
    dropped := [], rsv := 0, finished := [], outDone := [], outNext := 0 }

/-- A queue descriptor at reset: STATE STOPPED, LOG2N 4 (R341). -/
def Queue.zero : Queue :=
  { tail := 0, head := 0, pw := false, st := .stopped, asn := 0, func := 0, ien := false, homedie := 0, dataPlane := false, part := 0,
    cplbase := 0, ringbase := 0, log2n := 4, lref := false, heldPkt := none, heldSeq := 0, started := false, open_ := [] }

/-- Partition `p` at package reset: owned by function `p` (log 1), with the reset values of R277, R338 and R391. -/
def Part.zero (p : Nat) : Part :=
  { owner := p, queueFuncs := [], member := 0, mask0 := 0, mask1 := 0, segs := Vector.replicate 64 Seg.zero, trapSeg := none, asds := [],
    saveArea := 0, records := [], rtrymax := 3, hostWin := Vector.replicate 64 0, peerWin := Vector.replicate 8 0, boosten := true, boostNow := true,
    weight := 8, fen := 0xFF, signals := [], ringCtrs := [], rings := Vector.replicate 64 Ring.zero,
    queues := Vector.replicate 64 Queue.zero, launches := [], nextLaunch := 0, errlog := [], errNext := 0, errOver := 0,
    malformed := 0, discard := 0, outLaunch := 0, outGraph := 0, outPhase := 0, outJob := 0, ownerKeys := [], svcq := [], gangs := [],
    gangEarly := [], switched := [], resetting := false, egressDropped := 0 }

/-- A boost domain at package reset: 2.1 GHz, 64 permits (R382, R384). -/
def Domain.zero : Domain :=
  { step := 0, halves := 128, claim := false, seen := false, claimSince := 0, falling := false, waitNoClaim := false, idleRun := 0 }

/-- A Tether port whose link has not trained. -/
def Port.zero : Port := { up := false, failed := false, retries := [], since := 0 }

/-- A die at package reset: its first candidate pair is the Bellwether pair, cores 34 and 35 (R16). -/
def Die.zero : Die :=
  { up := true, endpointUp := true, bellwether := some 35, dispatchOn := true, recovery := false, lastRestart := none, west := Domain.zero,
    east := Domain.zero, gate := 0, pwrg := false, thrt := false, noBoost := false, watts := 0, estimates := 0,
    gateHeld := 0, pwrgHeld := false, thrtHeld := false, restarting := false,
    ports := Vector.replicate 4 Port.zero, dcache := [], graph := [], images := [], cands := [], resvCores := [],
    walkCache := [] }

/-- The package right after reset: no unit on any core, no partition configured, nothing in memory. -/
def State.reset : State :=
  { cores := Vector.replicate 72 Core.zero, dies := Vector.replicate 2 Die.zero,
    parts := #v[Part.zero 0, Part.zero 1, Part.zero 2, Part.zero 3, Part.zero 4, Part.zero 5, Part.zero 6, Part.zero 7], mem := [],
    poisoned := [], sectorTags := [], faulty := [], hostMem := [], hostPoison := [], peerMem := [], peerPoison := [], dtime := 0, mirroredGiB := 8, mirroredNext := 8, slew := 0, slewAcc := 0, boostAt := 0,
    powerCeiling := 600,
    workLimit := 600, intthr := 4, mismatches := [], alarm := .none, keysValid := true, attKey := true, keyEpoch := 0, retiredCores := [],
    minVersion := 0, flashValid := true, flashVersion := 0, fwImage := #v[some 0, some 0], doorbells := [], ldLast := 0, ldDone := 0, msixPending := [], msixLast := [],
    outbox := [], corrected := 0, apertures := Vector.replicate 17 0, timeMaster := false, waiting := [], accesses := [], agenda := [], focusCore := 0, focusCl := .c, bundle := none, tick := 0 }

/-! ## Outcomes -/

/-- Why a run stops with a fault. -/
inductive Fault where
  /-- Raised by a step of an engine, the Drove, the firmware or the host whose operand names a core, slot, queue or register that the
  package does not have. Safe: no agent makes such a step. -/
  | noSuchAgent
deriving DecidableEq, Repr

/-- Why an instruction is refused. -/
inductive Refusal where
  /-- Raised by `exec` for an instruction whose meaning is not modelled. Safe: nothing can be proved of it. -/
  | notModelled (mnemonic : String)
deriving DecidableEq, Repr

end Sys2Proof.Machine
end

