-- ==== Sys2Proof/WellFormed.lean ====
section
/-! DEFINITION. Which instructions the device accepts once their word is read: the limits that R51 checks at its last three field
steps, one Boolean function per step, and the operand limits of the steps that have no word. -/

namespace Sys2Proof

/-- The integer element types, ET 0 to 7 (R186). -/
def isIntType (t : BitVec 4) : Bool := t.toNat < 8

/-- The floating-point element types of the arithmetic, ET 8 to 10 (R186). -/
def isFloatType (t : BitVec 4) : Bool := 8 ≤ t.toNat && t.toNat < 11

/-- I or F (R193). -/
def isArithType (t : BitVec 4) : Bool := t.toNat < 11

/-- ET 0 to 12: every type but FP4, FP6 and the reserved code (R196). -/
def isMoveType (t : BitVec 4) : Bool := t.toNat < 13

/-- Width in bits of an element type (R186; FP4 4 and FP6 8 for grouping, R202). -/
def typeWidth (t : BitVec 4) : Nat :=
  match t.toNat with
  | 0 | 1 | 11 | 12 | 14 => 8
  | 2 | 3 | 8 | 9 => 16
  | 4 | 5 | 10 => 32
  | 6 | 7 => 64
  | 13 => 4
  | _ => 8

/-- Width of a group element as `vcvt` counts it (R202). -/
def cvtGroup (ts td : BitVec 4) : Nat :=
  max (typeWidth ts) (typeWidth td) / min (typeWidth ts) (typeWidth td)

/-- The first register of the group of a `vcvt`: its destination when widening, its source when narrowing (R202). -/
def cvtFirst (d a : BitVec 6) (ts td : BitVec 4) : Nat :=
  if typeWidth ts < typeWidth td then d.toNat
  else if typeWidth td < typeWidth ts then a.toNat
  else 0

/-- A rounding-mode field holds 0 to 4 or 7 (R93). -/
def modeFieldOk (m : BitVec 3) : Bool := m.toNat != 5 && m.toNat != 6

/-- Fields whose value an entry refuses with RESERVED_FIELD detail 0: static rounding modes 5 and 6 (R93, R130, R219), and the mode
and `.sat` limits of `vcvt` (R201). -/
def Instr.modeOk : Instr → Bool
  | .scvtF64F32 _ _ m _ | .scvtF64I64 _ _ m _ | .scvtF64Ui64 _ _ m _ | .scvtI64F64 _ _ m _ | .scvtUi64F64 _ _ m _
  | .scvtI32F64 _ _ m _ | .scvtF32F64 _ _ m _ | .scvtF32I64 _ _ m _ | .scvtF32Ui64 _ _ m _ | .scvtI64F32 _ _ m _
  | .scvtUi64F32 _ _ m _ | .scvtI32F32 _ _ m _ => modeFieldOk m
  | .mxdrain _ _ m _ => modeFieldOk m
  | .vcvt _ _ s u m t =>
      modeFieldOk m && (if isIntType t && isIntType u then m.toNat == 7 else s == 0)
  | _ => true

/-- A six-bit field that names a flag, a mask, an accumulator or a stream engine (R60). -/
def lt8 (x : BitVec 6) : Bool := x.toNat < 8

/-- A six-bit field that names a sync bit, an Almanac or Shepherd slot, or a result slot. -/
def lt16 (x : BitVec 6) : Bool := x.toNat < 16

/-- A peer code of an explicit token instruction (R123). -/
def peerOk (p : BitVec 6) : Bool := 1 ≤ p.toNat && p.toNat ≤ 3

/-- The register and port ranges that R51 refuses with RESERVED_FIELD detail 1. -/
def Instr.rangeOk : Instr → Bool
  | .cmpEq d _ _ _ | .cmpNe d _ _ _ | .cmpLt d _ _ _ | .cmpGe d _ _ _ | .cmpLtu d _ _ _ | .cmpGeu d _ _ _ => lt8 d
  | .flAnd d a b _ | .flOr d a b _ | .flXor d a b _ | .flAndn d a b _ => lt8 d && lt8 a && lt8 b
  | .fcmpEqF64 d _ _ _ | .fcmpLtF64 d _ _ _ | .fcmpLeF64 d _ _ _ => lt8 d
  | .fcmpEqF32 d _ _ _ | .fcmpLtF32 d _ _ _ | .fcmpLeF32 d _ _ _ => lt8 d
  | .loopm i _ _ _ _ => lt8 i
  | .yset n _ | .yclr n _ | .ywait n _ | .ywaitc n _ => lt16 n
  | .ytas d n _ => lt8 d && lt16 n
  | .tkpush p _ | .tkwait p _ => peerOk p
  | .tkcnt _ p _ => peerOk p
  | .rnext _ f _ => lt8 f
  | .rsteal r _ => r.toNat < 2
  | .ptest d _ _ => lt8 d
  | .chainKick x _ _ => x.toNat < 4
  | .chainStop x _ => x.toNat < 4
  | .chainStat _ y _ => y.toNat < 4
  | .ares _ y _ | .aresh _ y _ => lt16 y
  | .scat x _ _ _ _ _ => x.toNat < 63
  | .sbaseL x _ _ | .sdim0L x _ _ | .sdim1L x _ _ | .sdim2L x _ _ | .smodeL x _ _ | .sseekL x _ _ => lt8 x
  | .sbaseS x _ _ | .sdim0S x _ _ | .sdim1S x _ _ | .sdim2S x _ _ | .smodeS x _ _ | .sseekS x _ _ => lt8 x
  | .sbindL x _ | .sunbindL x _ | .sstartL x _ | .sstopL x _ => lt8 x
  | .sbindS x _ | .sunbindS x _ | .sstartS x _ | .sstopS x _ => lt8 x
  | .sposL x _ _ | .sposS x _ _ => lt8 x
  | .cpin x _ _ | .cpout x _ _ | .cpinT x _ _ | .cpoutT x _ _ => x.toNat < 62
  | .cpin2d x _ _ | .cpout2d x _ _ => x.toNat < 61
  | .smap x y _ => lt16 x && y.toNat < 63
  | .sunmap x _ | .sflush x _ | .sinval x _ => lt16 x
  | .vcmpeq d _ _ _ _ | .vcmplt d _ _ _ _ | .vcmple d _ _ _ _ | .vcmpne d _ _ _ _ => lt8 d
  | .mand d a b | .mor d a b | .mxor d a b | .mandn d a b => lt8 d && lt8 a && lt8 b
  | .mlen d _ => lt8 d
  | .mpopc _ a | .mfirst _ a | .mtov _ a => lt8 a
  | .vcvt d a _ u _ t => !(t.toNat < 15 && isMoveType u) || cvtFirst d a t u + cvtGroup t u ≤ 64
  | .mxdrain x _ _ _ => lt8 x
  | .mxzero x _ => lt8 x
  | .walkAdd x _ | .walkMin x _ | .walkMax x _ | .walkAnd x _ | .walkOr x _ | .walkXor x _ | .walkPopc x _
  | .walkHist x _ => x.toNat < 63
  | .amdef x _ _ => x.toNat < 4
  | .shdecl x _ _ => lt16 x
  | .apxb x _ | .apxe x _ | .shinv x _ => lt16 x
  | .shstat _ y _ | .shmean _ y _ => lt16 y
  | .amoCasD x _ _ _ => x.toNat < 63
  | .amoCasQ x _ _ _ => x.toNat < 61
  | _ => true

/-- The element-type checks that R51 refuses with RESERVED_FIELD detail 2 (R48, R193 to R208). -/
def Instr.typeOk : Instr → Bool
  | .vadd _ _ _ _ t | .vsub _ _ _ _ t | .vmul _ _ _ _ t | .vmin _ _ _ _ t | .vmax _ _ _ _ t | .vabsd _ _ _ _ t
  | .vcmpeq _ _ _ _ t | .vcmplt _ _ _ _ t | .vcmple _ _ _ _ t | .vcmpne _ _ _ _ t => isArithType t
  | .vfma _ _ _ _ t | .vfms _ _ _ _ t | .vfnma _ _ _ _ t | .vdiv _ _ _ _ t => isFloatType t
  | .vand _ _ _ _ t | .vor _ _ _ _ t | .vxor _ _ _ _ t | .vsll _ _ _ _ t | .vsrl _ _ _ _ t | .vsra _ _ _ _ t
  | .vadds _ _ _ _ t | .vsubs _ _ _ _ t | .vmulh _ _ _ _ t | .vavg _ _ _ _ t => isIntType t
  | .vsel _ _ _ _ t | .vperm _ _ _ _ t => isMoveType t
  | .vzipLo _ _ _ t | .vzipHi _ _ _ t | .vuzpEv _ _ _ t | .vuzpOd _ _ _ t => isMoveType t
  | .vslide _ _ _ _ _ t => isMoveType t
  | .vabs _ _ _ t | .vneg _ _ _ t => isArithType t
  | .vsqrt _ _ _ t | .vrecip _ _ _ t | .vrsqrt _ _ _ t | .vrint _ _ _ t | .vclass _ _ _ t => isFloatType t
  | .vnot _ _ _ t | .vclz _ _ _ t | .vpopc _ _ _ t => isIntType t
  | .vmov _ _ _ t => isMoveType t
  | .vcvt _ _ _ u _ t => t.toNat < 15 && isMoveType u
  | .vredSum _ _ _ t | .vredMin _ _ _ t | .vredMax _ _ _ t | .vscanSum _ _ _ t | .vscanMin _ _ _ t
  | .vscanMax _ _ _ t => isArithType t
  | .vredAnd _ _ _ t | .vredOr _ _ _ t | .vredXor _ _ _ t | .vredSumw _ _ _ t => isIntType t
  | .vsplat _ _ _ t => isMoveType t
  | .vext _ _ _ t | .vins _ _ _ t => isMoveType t
  | _ => true

/-- The value of a must-be-nonzero selector: a `loop` form has IMM13 from 1 to 8,191 (0 is `lpclr`, R114), a load does not combine
`.d` with zero extension (R144), a CSR number is one that R132 lists, `loopm` has at most four stages (R117), a HINT word and an
undefined major have their major. -/
def csrListed (c : BitVec 10) : Bool :=
  c.toNat ∈ [0x000, 0x001, 0x002, 0x003, 0x010, 0x011, 0x012, 0x013, 0x020, 0x021, 0x022, 0x024, 0x025, 0x026, 0x027,
    0x028, 0x030, 0x031, 0x032, 0x033, 0x040, 0x041]

/-- The majors that R49 leaves unassigned, with 0x00 and 0x7F (R51). -/
def majorUndefined (m : Nat) : Bool :=
  m == 0 || (0x29 ≤ m && m ≤ 0x2F) || m == 0x52 || m == 0x53 || (0x5B ≤ m && m ≤ 0x5F) || (0x69 ≤ m && m ≤ 0x6F) ||
    (0x75 ≤ m && m ≤ 0x77) || m == 0x7F

/-- The limits a word's subfunction fixes before any field is checked: a word that breaks one is another row's word, or none's. -/
def Instr.formOk : Instr → Bool
  | .loopO _ i | .loopI _ i => i != 0
  | .ldG _ _ _ u s _ | .ldL _ _ _ u s _ => !(u == 1 && s == 3)
  | .csrrd _ c => csrListed c
  | .csrwr _ _ c | .csrset _ _ c | .csrclr _ _ c => csrListed c
  | .loopm _ _ _ _ s => s.toNat < 4
  | .undefinedMajor w => majorUndefined (w.toNat / 2 ^ 25)
  | _ => true

/-- The limits of the operands of a step that has no word: a core is one of 72, a die one of two, a queue or ring one of 64, and so on
(R13, R19, R251, R341, R353, R371). -/
def Instr.stepOk : Instr → Bool
  | .streamFetch c q | .streamOutboundWrite c q => c < 72 && q < 8
  | .translationWalk c _ _ => c < 72
  | .invalidationApply c | .matrixOpRun c | .walkRun c | .vigilCheck c | .almanacStep c | .shepherdOperation c
  | .copyPieceLand c | .outboundCopyExecute c | .outboundCopyComplete c | .copyFreeze c | .freezeResume c
  | .freezeUnresolvable c | .faultServiceAnswer c _ | .postDeparture c | .qpostDelivery c | .hostAtomicopCompletion c _
  | .peerWriteAck c | .peerRefused c | .remoteHurdleArrival c | .stealRequestArrival c | .stealGrant c | .stealRefusal c
  | .outOfRegionError ⟨c, _⟩ | .snapshotStoreError c | .dispatch c | .unitCompletion c | .preemptionRequest c | .contextSwitch c
  | .peerAtomicCompletion c => c < 72
  | .fetcherCopy c h => c < 72 && h < 512
  | .chainEnd c s | .chainCopy c s | .chainCopy2d c s | .chainWait c s | .chainPost c s | .chainLink c s | .chainFlag c s
  | .chainArrive c s | .pendingKickStart c s => c < 72 && s < 4
  | .detectedErrorReplay c s => c < 72 && s < 7
  | .unitAdoption c a => c < 72 && a < 72
  | .dieFailover d | .thermalTrip d | .thermalThrottle d | .thermalThrottleEnd d | .powerEstimate d _
  | .firmwareRestart d _ => d < 2
  | .flrOwner f | .flrQueueFunction f | .msixMessage f => f < 17
  | .portalDmwr f q _ | .portalPostedWrite f q _ | .portalWake f q => f < 17 && q < 64
  | .queueActivate p q | .queueStop p q | .queueUnmap p q | .queueUnmapped p q | .headConditionSatisfied p q
  | .queueFetch p q | .nopPacket p q | .launchPacket p q | .nodePacket p q | .waitAllPacket p q | .waitAnyPacket p q
  | .signalPacket p q | .cancelPacket p q | .gangPacket p q | .standingClaim p q => p < 8 && q < 64
  | .gangMessageReceive p _ m _ => p < 8 && m < 8
  | .gangGoDecision p _ | .gangRelease p _ | .candidateAged p _ | .fenWrite p _ | .ownerProvisioning p _ => p < 8
  | .ringEnable p r => p < 8 && r < 64
  | .flitCrcFailure d ⟨p, _⟩ | .linkTrainingTimeout d p | .linkTrainingComplete d p => d < 2 && p < 4
  | .hostMemoryAccess f _ _ => f < 17
  | .mirroredSizeSet g => 1 ≤ g && g ≤ 56
  | .tetherPeerAccess m p _ => m < 8 && p < 8
  | _ => true

/-- An instruction that its word can stand for and that R51 accepts, or a step whose operands are in range. -/
def Instr.wf (i : Instr) : Bool := i.formOk && i.modeOk && i.rangeOk && i.typeOk && i.stepOk

end Sys2Proof
end

