-- ==== Sys2Proof/Machine/Ops.lean ====
section
/-! DEFINITION. The named operations on cores, registers, flags, tokens and program counters; taking a trap (R318) and returning from
one (R323); and `issue`, the one frame in which every word issues: the checks of R51 that depend on cluster, mode and segment, the token
fields (R45), the guard (R39), and the end of the instruction. -/

namespace Sys2Proof.Machine

/-! ## Vectors by number -/

/-- The element at an index; `d` beyond the end. -/
def vget {α : Type} {n : Nat} (v : Vector α n) (d : α) (i : Nat) : α := if h : i < n then v[i] else d

/-- The vector with the element at an index replaced; unchanged beyond the end. -/
def vset {α : Type} {n : Nat} (v : Vector α n) (i : Nat) (x : α) : Vector α n := if h : i < n then v.set i x h else v

/-- The vector with a function applied to every element. -/
def vmap {α : Type} {n : Nat} (f : α → α) (v : Vector α n) : Vector α n := ⟨⟨v.toList.map f⟩, by simp⟩

/-- A bit of a word by number. -/
def bitOf {n : Nat} (v : BitVec n) (i : Nat) : Bool := v.getLsbD i

/-- The `n` bits of a word from bit `lo` up, as a number. -/
def fieldOf {w : Nat} (v : BitVec w) (lo n : Nat) : Nat := v.toNat / 2 ^ lo % 2 ^ n

/-- One if true. -/
def b2n (b : Bool) : Nat := if b then 1 else 0

/-- The signed value of the low `n` bits of a number. -/
def sintOf (n v : Nat) : Int := if v % 2 ^ n < 2 ^ (n - 1) then (v % 2 ^ n : Nat) else (v % 2 ^ n : Nat) - (2 ^ n : Nat)

/-! ## Parts of the package -/

/-- Core `i` of the package, numbered 36 · die + core. -/
def getCore (s : State) (i : Nat) : Core := vget s.cores Core.zero i

/-- The state with core `i` replaced. -/
def putCore (s : State) (i : Nat) (c : Core) : State := { s with cores := vset s.cores i c }

/-- The state with core `i` changed. -/
def modCore (s : State) (i : Nat) (f : Core → Core) : State := putCore s i (f (getCore s i))

/-- The state with the snapshot items of core `i` changed. -/
def modArch (s : State) (i : Nat) (f : Arch → Arch) : State := modCore s i fun c => { c with a := f c.a }

/-- Partition `p`. -/
def getPart (s : State) (p : Nat) : Part := vget s.parts (Part.zero p) p

/-- The state with partition `p` replaced. -/
def putPart (s : State) (p : Nat) (x : Part) : State := { s with parts := vset s.parts p x }

/-- The state with partition `p` changed. -/
def modPart (s : State) (p : Nat) (f : Part → Part) : State := putPart s p (f (getPart s p))

/-- Die `d`. -/
def getDie (s : State) (d : Nat) : Die := vget s.dies Die.zero d

/-- The state with die `d` replaced. -/
def putDie (s : State) (d : Nat) (x : Die) : State := { s with dies := vset s.dies d x }

/-- The state with die `d` changed. -/
def modDie (s : State) (d : Nat) (f : Die → Die) : State := putDie s d (f (getDie s d))

/-- The die of a core. -/
def dieOf (core : Nat) : Nat := core / 36

/-- A cluster's number in the order C, L, K, S. -/
def cnum : Cluster → Nat
  | .c => 0 | .l => 1 | .k => 2 | .s => 3

/-- The cluster of a number mod 4. -/
def clusterOf (n : Nat) : Cluster :=
  match n % 4 with
  | 0 => .c | 1 => .l | 2 => .k | _ => .s

/-- The partition of the unit that a core holds; 0 for none. -/
def partOf (c : Core) : Nat := match c.unit with | some u => u.part | none => 0

/-- What names a unit (R127). -/
def refOf (u : UnitInfo) : UnitRef := { part := u.part, launch := u.launch, index := u.index, arrive := u.arrive }

/-- Whether a core holds the unit that a reference names. -/
def holdsUnit (c : Core) (u : UnitRef) : Bool := c.unit.any fun x => refOf x == u

/-- The address space of the unit that a core holds (R165). -/
def asnOf (c : Core) : BitVec 16 := match c.unit with | some u => u.asn | none => 0

/-- A feature bit of a partition's FEN (R390, R391). -/
def fenBit (s : State) (part bit : Nat) : Bool := bitOf (getPart s part).fen bit

/-- A segment handle of a partition (R311). -/
def segOf (s : State) (part : Nat) (h : BitVec 6) : Seg := vget (getPart s part).segs Seg.zero h.toNat

/-- The current segment of a core (R312). -/
def curSeg (s : State) (c : Core) : Seg := segOf s (partOf c) c.a.segCur

/-- Whether an address lies in a valid segment's range (R312). -/
def inSeg (g : Seg) (a : Word) : Bool := g.v && g.base.toNat ≤ a.toNat && a.toNat < g.base.toNat + g.len.toNat

/-- Whether the unit has an emulation handler: EV of its launch segment, unless FEN masks the feature (R324, R390). -/
def hasEmul (s : State) (c : Core) : Bool := (segOf s (partOf c) c.segL).ev && fenBit s (partOf c) 7

/-! ## Values that the spec leaves open -/

/-- A value that the spec leaves open, at a place of the model named by `site` (log 4). -/
def openWord (s : State) (site : Nat) : Word := Config.freeWord s.tick site

/-- A value, or for `none` one that the spec leaves open. -/
def wordOr (s : State) (site : Nat) (v : Option Word) : Word := match v with | some w => w | none => openWord s site

/-! ## Error records (R331) -/

/-- The error log of a partition with one more record: the ring has 1,024 places, and a record over the oldest counts. -/
def pushErr (p : Part) (r : ErrRec) : Part :=
  if p.errlog.length < 1024 then { p with errlog := p.errlog ++ [r], errNext := (p.errlog.length + 1) % 1024 }
  else { p with errlog := setNth r p.errlog p.errNext, errNext := (p.errNext + 1) % 1024, errOver := (p.errOver + 1) % 2 ^ 32 }

/-- The state with an error record written. ADDR and AUX that the spec does not give for the cause are open (log 4). -/
def logErr (s : State) (part core cause detail : Nat) (addr aux : Option Word) (eccst : Nat) : State :=
  modPart s part fun p => pushErr p
    { aux := wordOr s (1000 + cause) aux, addr := wordOr s (2000 + cause) addr, time := s.dtime, part := BitVec.ofNat 3 part, die := BitVec.ofNat 1 (dieOf core),
      core := BitVec.ofNat 6 (core % 36), detail := BitVec.ofNat 16 detail, eccst := BitVec.ofNat 2 eccst, cause := BitVec.ofNat 6 cause }

/-! ## What an issuing word sees -/

/-- The issue of a word: core, cluster, the core as operands read it (in a bundle, as it stood before the bundle, R57), the address A of
R41, and the token queue that TKOUT names. -/
structure Env where
  ci : Nat
  cl : Cluster
  rd : Core
  addr : Word
  pout : Push

/-- How the meaning of a word ends. -/
inductive Res where
  /-- It has completed; the program counter moves on and TKOUT pushes. -/
  | done (s : State)
  /-- It has issued an engine operation, which pushes TKOUT at its own completion. -/
  | later (s : State)
  /-- As `later`, and the program counter steps over a literal word (R70). -/
  | lit (s : State)
  /-- It transfers control to a checked target. -/
  | jump (s : State) (t : Word)
  /-- It has set the program counters itself, or holds its cluster at a rendezvous. -/
  | set (s : State)
  /-- It waits: nothing changes and it issues again. -/
  | stall
  /-- An access met a line that another core has pinned: it issues again, and the core ends its own pins (R182, R183). -/
  | retry
  /-- It raises a cause. -/
  | raise (t : Trap)

/-- A cause without a stream (R315). -/
def mkTrap (cause detail : Nat) (tval : Word) : Trap := { cause := cause, detail := detail, tval := tval, strm := none }

/-- What a walk answers that meets a pinned line: no cause, but the retry response, on which the access is made again (R182; log 62). -/
def retryTrap : Trap := mkTrap 0 0 0

/-- Whether what an access met is the retry response. -/
def isRetry (t : Trap) : Bool := t.cause == 0

/-- The state once a core's own access has met a line that another core pins: it ends its own pins (R183). -/
def unpin (s : State) (ci : Nat) : State := modArch s ci fun a => { a with pins := [] }

/-- What an EMUL word raises: EMUL where the unit has an emulation handler, otherwise UDF with detail 2 (R51, R54). -/
def emulTrap (s : State) (c : Core) (w : Word) : Trap := if hasEmul s c then mkTrap 0x05 0 w else mkTrap 0x01 2 w

/-- A raised cause. -/
def raise (cause detail : Nat) (tval : Word) : Res := .raise (mkTrap cause detail tval)

/-- The address in a program counter: bits 55:0 (R35). -/
def pcOf (c : Core) (cl : Cluster) : Word := vget c.a.pc 0 (cnum cl)

/-- The issue that the state's focus names. -/
def envOf (s : State) : Env :=
  let rd := match s.bundle with | some b => b.pre | none => getCore s s.focusCore
  let p := pcOf rd s.focusCl
  { ci := s.focusCore, cl := s.focusCl, rd := rd,
    addr := if (vget rd.a.repK none (cnum s.focusCl)).isSome then p + 4 else p, pout := none }

/-! ## Scalar registers (R60, R61, R321) -/

/-- While a handler runs, x28 to x31 name the trap bank (R321). -/
def inBank (a : Arch) (i : Nat) : Bool := (a.tl || a.uh) && 28 ≤ i && i < 32

/-- Register `i` of a core: x0 reads as zero. -/
def rdReg (c : Core) (i : Nat) : Reg :=
  if i = 0 then Reg.zero else if inBank c.a i then vget c.bank Reg.zero (i - 28) else vget c.a.regs Reg.zero i

/-- The core with register `i` written, in the trap bank if `bank` says so: a write to x0 is discarded. -/
def wrRegIn (bank : Bool) (c : Core) (i : Nat) (r : Reg) : Core :=
  if i = 0 then c else if bank then { c with bank := vset c.bank (i - 28) r }
  else { c with a := { c.a with regs := vset c.a.regs i r } }

/-- The core with register `i` written as it stands. -/
def wrReg (c : Core) (i : Nat) (r : Reg) : Core := wrRegIn (inBank c.a i) c i r

/-- A scalar operand of the issuing word. -/
def Env.x (e : Env) (i : BitVec 6) : Reg := rdReg e.rd i.toNat

/-- The scalar operand `k` places after the named one. -/
def Env.xk (e : Env) (i : BitVec 6) (k : Nat) : Reg := rdReg e.rd (i.toNat + k)

/-- The state with a scalar destination of the issuing word written: the names are those in force as it issues. -/
def setX (e : Env) (s : State) (i : BitVec 6) (v : Word) (psn : Bool) : State :=
  modCore s e.ci fun c => wrRegIn (inBank e.rd.a i.toNat) c i.toNat { val := v, psn := psn }

/-! ## Flags (R60, R109) -/

/-- Flag `i` of a cluster: f0 reads as 1. -/
def rdFlag (a : Arch) (cl : Cluster) (i : Nat) : Bool := i == 0 || bitOf (vget a.flags 0 (cnum cl)) i

/-- A word with bit `i` set to `b`. -/
def putBit {n : Nat} (v : BitVec n) (i : Nat) (b : Bool) : BitVec n :=
  if b then v ||| BitVec.ofNat n (2 ^ i) else v &&& ~~~(BitVec.ofNat n (2 ^ i))

/-- Flag `i` of a cluster written: a write to f0 is discarded. -/
def wrFlag (a : Arch) (cl : Cluster) (i : Nat) (b : Bool) : Arch :=
  if i = 0 then a else { a with flags := vset a.flags (cnum cl) (putBit (vget a.flags 0 (cnum cl)) i b) }

/-- The state with a flag of the issuing cluster written. -/
def setFlag (e : Env) (s : State) (i : Nat) (b : Bool) : State := modArch s e.ci fun a => wrFlag a e.cl i b

/-! ## Tokens (R44, R45, R123) -/

/-- The queue from cluster `a` to cluster `b`, in the pair order of R346. -/
def pairOf (a b : Nat) : Nat := 3 * a + (if b < a then b else b - 1)

/-- The cluster that a peer code names, `k` places after the issuing cluster (R44). -/
def peerOf (cl : Cluster) (k : Nat) : Nat := ((cnum cl) + k) % 4

/-- The queue that the issuing cluster pops under a peer code, none for code 0. -/
def popPair (cl : Cluster) (k : Nat) : Push := if k = 0 then none else some (pairOf (peerOf cl k) (cnum cl))

/-- The queue that the issuing cluster pushes under a peer code, none for code 0. -/
def pushPair (cl : Cluster) (k : Nat) : Push := if k = 0 then none else some (pairOf (cnum cl) (peerOf cl k))

/-- Whether a token waits in a queue; true for none. -/
def popReady (a : Arch) (p : Push) : Bool := match p with | none => true | some i => decide (0 < vget a.tokens 0 i)

/-- Whether a queue has room for a push, counting the pushes that are held; true for none. -/
def pushReady (a : Arch) (p : Push) : Bool :=
  match p with | none => true | some i => decide (vget a.tokens 0 i + vget a.heldTok 0 i < 15)

/-- One token taken from a queue. -/
def popTok (a : Arch) (p : Push) : Arch :=
  match p with | none => a | some i => { a with tokens := vset a.tokens i (vget a.tokens 0 i - 1) }

/-- One push held on a queue. -/
def holdTok (a : Arch) (p : Push) : Arch :=
  match p with | none => a | some i => { a with heldTok := vset a.heldTok i (vget a.heldTok 0 i + 1) }

/-- A held push delivered. -/
def deliverTok (a : Arch) (p : Push) : Arch :=
  match p with
  | none => a
  | some i => { a with heldTok := vset a.heldTok i (vget a.heldTok 0 i - 1), tokens := vset a.tokens i (vget a.tokens 0 i + 1) }

/-- The TKOUT push of an engine operation that completes: a push of an operation issued before the snapshot is an external arrival (R125). -/
def completePush (c : Core) (p : Push) (ext : Bool) : Core :=
  match p with
  | none => c
  | some i => { c with a := deliverTok c.a (some i), ext := if ext then c.ext ++ [.token i] else c.ext }

/-! ## Program counters (R36, R115, R118) -/

/-- The core with the program counter of every cluster set: joint mode has one (R29). -/
def setPcs (c : Core) (p : Word) : Core :=
  { c with a := { c.a with pc := Vector.replicate 4 p, repK := Vector.replicate 4 none } }

/-- The core with one cluster's program counter set. -/
def setPc (c : Core) (cl : Nat) (p : Word) : Core :=
  { c with a := { c.a with pc := vset c.a.pc cl p, repK := vset c.a.repK cl none } }

/-- Hardware loop level `lv` of a cluster after a word at `p` has issued in sequence: the loops, and where it goes back to (R115). -/
def loopStep (loops : Vector LoopLv 8) (cl lv : Nat) (p : Word) : Vector LoopLv 8 × Option Word :=
  let l := vget loops LoopLv.zero (2 * cl + lv)
  if l.active && p == l.last then
    if 1 < l.count then (vset loops (2 * cl + lv) { l with count := l.count - 1 }, some l.start)
    else (vset loops (2 * cl + lv) { l with count := 0, active := false }, none)
  else (loops, none)

/-- The next program counter of a cluster after the word at `p` has issued in sequence: the inner level first, then the outer (R115). -/
def nextPc (loops : Vector LoopLv 8) (cl : Nat) (p : Word) : Vector LoopLv 8 × Word :=
  match loopStep loops cl 1 p with
  | (l, some t) => (l, t)
  | (l, none) => match loopStep l cl 0 p with
    | (l', some t) => (l', t)
    | (l', none) => (l', p + 4)

/-- The core after the word at `p` has issued in sequence on a cluster in split mode. -/
def advanceSplit (c : Core) (cl : Nat) (p : Word) : Core :=
  let r := nextPc c.a.loops cl p
  setPc { c with a := { c.a with loops := r.1 } } cl r.2

/-- The sequencer after a row, the core's VBASE turned at the end of a kernel iteration, and the address of the next bundle (R117, R118). -/
def advanceSeq (c : Core) (q : Seqr) : Core :=
  if q.b + 1 < q.ii then
    setPcs { c with a := { c.a with seq := some { q with b := q.b + 1 } } } (q.body + BitVec.ofNat 64 (16 * (q.b + 1)))
  else
    let a := { c.a with vbase := c.a.vbase + BitVec.ofNat 11 c.a.vrot.toNat }
    if q.k + 1 < q.n + q.stages - 1 then
      setPcs { c with a := { a with seq := some { q with k := q.k + 1, b := 0 } } } q.body
    else setPcs { c with a := { a with seq := none } } (q.body + BitVec.ofNat 64 (16 * q.ii))

/-- The core after a bundle has issued in sequence: the next bundle, or the next row of the sequencer. -/
def advanceJoint (c : Core) : Core :=
  match c.a.seq with
  | none => setPcs c (vget c.a.pc 0 0 + 16)
  | some q => advanceSeq c q

/-- The core after a word of a cluster has completed; `skip` bytes of literal are stepped over. In a `rep`, the next repetition. -/
def advance (c : Core) (cl : Cluster) (skip : Nat) : Core :=
  match c.a.mode with
  | .joint => advanceJoint c
  | .split =>
    match vget c.a.repK none (cnum cl) with
    | none => advanceSplit c (cnum cl) (vget c.a.pc 0 (cnum cl) + BitVec.ofNat 64 skip)
    | some (k, n) =>
      if k + 1 < n then { c with a := { c.a with repK := vset c.a.repK (cnum cl) (some (k + 1, n)) } }
      else advanceSplit c (cnum cl) (vget c.a.pc 0 (cnum cl) + 4)

/-! ## The end of a unit and discarded regions (R251, R263, R318) -/

/-- The FIFO of a discarded region: its vectors and fault go; a push of an `sstart` of an earlier region stays due. -/
def discardFifo (f : Fifo) : Fifo :=
  { f with vecs := [], fault := none, push := if f.pushOpen then none else f.push, pushOpen := false }

/-- The released copies that wait for a place among the 16 take those that have come free (R240). -/
def refillCopies (c : Core) : Core :=
  let n := 16 - c.copies.length
  { c with copies := c.copies ++ c.backlog.take n, backlog := c.backlog.drop n }

/-- The core with its open region's queued work, commit-buffer entries and FIFOs discarded (R263). -/
def discardRegion (c : Core) : Core := refillCopies
  { c with mxq := [], walk := none, vigils := [], almq := [], cbuf := [], engTraps := c.engTraps.filter (fun t => t.cl == .c), nopSlot := none,
           shrun := (match c.shrun with | .running _ => .none | r => r), shcap := none, pobs := Vector.replicate 16 0, sfail := 0,
           mxrow := c.mxrow &&& (2 ^ 63 - 1 : BitVec 64),
           copies := c.copies.filter fun x => !x.open_,
           fifos := vmap discardFifo c.fifos }

/-- The requests of a core to the fault service withdrawn. -/
def withdraw (s : State) (part ci : Nat) : State :=
  modPart s part fun p => { p with svcq := p.svcq.filter fun x => x.core != ci }

/-- Whether an entry of the commit buffer is a kick. -/
def CEntry.isKick : CEntry → Bool
  | .kick _ _ => true
  | _ => false

/-- A chain slot stopped by the end of its unit: a live chain stops, and a pending kick is dropped (R251, R253). -/
def endChain (x : Chain) : Chain :=
  match x.st with
  | .run | .wait => { x with st := .stopped, kick := none, held := false, stopping := false, skip := none }
  | _ => { x with kick := none }

/-- The chains of a core stopped by the end of its unit, with the kicks that have not left (R253). -/
def endChains (c : Core) : Core :=
  { c with chains := vmap endChain c.chains, departing := c.departing.filter fun x => !x.entry.isKick }

/-- The unit of a core ends with a cause: the open region is discarded, its chains stop, an error record is written, and the completion follows
once the waits of R121 end (R253, R318). -/
def endUnitAux (s : State) (ci cause detail : Nat) (tval aux : Option Word) : State :=
  let c := getCore s ci
  let s1 := putCore s ci { endChains (discardRegion c) with run := .ending cause detail, freeze := none }
  logErr (withdraw s1 (partOf c) ci) (partOf c) ci cause detail tval aux 0

/-- The unit of a core ends with a cause for whose record the spec gives no AUX. -/
def endUnit (s : State) (ci cause detail : Nat) (tval : Option Word) : State := endUnitAux s ci cause detail tval none

/-! ## Tiles and hurdles by number (R214, R243) -/

/-- A tile of a core. -/
def tileOf (a : Arch) (h : Nat) : Tile := Sparse.get Tile.zero a.tiles h

/-- A tile of a core replaced. -/
def putTile (a : Arch) (h : Nat) (t : Tile) : Arch := { a with tiles := Sparse.put Tile.zero a.tiles h t }

/-- A tile's state set. -/
def setTileSt (a : Arch) (h : Nat) (st : TileSt) : Arch := putTile a h { tileOf a h with st := st }

/-- A hurdle of a core. -/
def hurdleOf (a : Arch) (h : Nat) : Hurdle := Sparse.get Hurdle.zero a.hurdles h

/-- A hurdle settled (R244): the phases that its count completes. -/
def settle (x : Hurdle) : Hurdle :=
  if x.target = 0 then x
  else { x with count := x.count % x.target, phcnt := x.phcnt + BitVec.ofNat 16 (x.count / x.target) }

/-- A local arrival of `n` at hurdle `h` (R247). -/
def arrive (a : Arch) (h n : Nat) : Arch :=
  let x := hurdleOf a h
  let x' := if x.target = 0 then { x with count := min (x.count + n) (2 ^ 32 - 1) } else settle { x with count := x.count + n }
  { a with hurdles := Sparse.put Hurdle.zero a.hurdles h x' }

/-- An arrival from outside the open region: it is noted as a delta (R242). -/
def arriveExt (c : Core) (h n : Nat) : Core := { c with a := arrive c.a h n, ext := c.ext ++ [.hurdle h n] }

/-- The arrival of a copy's bytes at its hurdle: internal for a copy of the open region (R242). -/
def arriveCopy (c : Core) (x : Copy) (n : Nat) : Core :=
  match x.hurdle with
  | none => c
  | some h => if x.open_ then { c with a := arrive c.a h n } else arriveExt c h n

/-! ## Replay and retirement (R263, R270) -/

/-- An arrival from outside the region applied again after a restore (R128, R216, R242, R255). -/
def applyExt (c : Core) (x : ExtEv) : Core :=
  match x with
  | .hurdle h n => { c with a := arrive c.a h n }
  | .token i => { c with a := deliverTok c.a (some i) }
  | .tileDone h =>
      if (c.copies ++ c.backlog).any (fun y => y.outb && y.tile == some h) then c else { c with a := setTileSt c.a h .ready }
  | .result k v p => { c with a := { c.a with res := vset c.a.res k { val := v, psn := p, pend := false } } }
  | .request j => { c with a := { c.a with req := some j } }
  | .grantGiven low j =>
      { c with a := { c.a with rend := (if low.toNat < c.a.rend.toNat then low else c.a.rend),
                               req := (if c.a.req = some j then none else c.a.req) } }
  | .refusalGiven j => { c with a := { c.a with req := (if c.a.req = some j then none else c.a.req) } }
  | .grantGot lo hi => { c with a := { c.a with rcur := lo, rend := hi, grant := true, pend := false } }
  | .stealRefused => { c with a := { c.a with refused := true, pend := false } }

/-- The FIFOs of a core start again at the positions of its streams (R164). -/
def rewindFifos (c : Core) : Core :=
  { c with fifos := (List.range 8).foldl (fun v q =>
      vset v q { vget v Fifo.zero q with first := (vget c.a.streams Stream.zero q).pos.toNat }) c.fifos }

/-- The snapshot restored and the arrivals since it applied in their order (R259, R263). -/
def restoreSnap (c : Core) : Core := rewindFifos (c.ext.foldl applyExt { c with a := c.snap })

/-- A core leaves a partition's mask (R18, R337). -/
def maskOut (p : Part) (ci : Nat) : Part :=
  if dieOf ci = 0 then { p with mask0 := putBit p.mask0 (ci % 36) false } else { p with mask1 := putBit p.mask1 (ci % 36) false }

/-- The state with a core out of every partition's mask: software sees user cores only (R18). -/
def leaveMasks (s : State) (ci : Nat) : State := { s with parts := vmap (fun p => maskOut p ci) s.parts }

/-- The state with a core marked retired in the health record (R18, R270). -/
def markRetired (s : State) (ci : Nat) : State := leaveMasks { s with retiredCores := natInsert ci s.retiredCores } ci

/-- A core retired without a record (R270, steps 1 and 2): its unit waits for adoption. -/
def stopCore (s : State) (ci : Nat) : State := markRetired (modCore s ci fun c => { discardRegion c with run := .retired }) ci

/-- A core retired for an error of source `src`, with its record (R270). -/
def retireCore (s : State) (ci src : Nat) : State := logErr (stopCore s ci) (partOf (getCore s ci)) ci 0x22 src none none 0

/-- The open region discarded and run again after an error of source `src`, or the core retired on its last allowed attempt (R263). -/
def replayRegion (s : State) (ci src : Nat) : State :=
  let c := getCore s ci
  let s1 := logErr (putCore s ci (discardRegion c)) (partOf c) ci 0x21 src none none 0
  if c.rtryMax ≤ c.rtryCount then retireCore s1 ci src
  else modCore s1 ci fun c =>
    restoreSnap { c with rtryCount := c.rtryCount + 1, rtryTotal := min (c.rtryTotal + 1) 65535 }

/-! ## A bundle taken back while its commit waits (R58, R230) -/

/-- A value taken back: one that the bundle's slots changed goes back, one that has changed since stays. -/
def merge3 {α : Type} [DecidableEq α] (pre post cur : α) : α := if cur = post then pre else if pre = post then cur else pre

/-- The elements of a vector taken back. -/
def vmerge {α : Type} [DecidableEq α] {n : Nat} (pre post cur : Vector α n) : Vector α n :=
  Vector.ofFn fun i => merge3 pre[i] post[i] cur[i]

/-- The entries of a map taken back. -/
def smerge {α : Type} [DecidableEq α] (d : α) (pre post cur : Sparse α) : Sparse α :=
  ((pre ++ post).map fun x => x.1).foldl
    (fun m k => Sparse.put d m k (merge3 (Sparse.get d pre k) (Sparse.get d post k) (Sparse.get d cur k))) cur

/-- A count taken back: what has been added since the bundle's slots stays. -/
def cmerge (pre post cur : Nat) : Nat := pre + cur - post

/-- Token counts taken back. -/
def tmerge (pre post cur : Vector Nat 12) : Vector Nat 12 := Vector.ofFn fun i => cmerge pre[i] post[i] cur[i]

/-- The snapshot items taken back. -/
def undoArch (pre post cur : Arch) : Arch :=
  { pre with tokens := tmerge pre.tokens post.tokens cur.tokens, heldTok := tmerge pre.heldTok post.heldTok cur.heldTok,
             ustat := pre.ustat ||| (cur.ustat &&& ~~~post.ustat), rcur := merge3 pre.rcur post.rcur cur.rcur,
             rend := merge3 pre.rend post.rend cur.rend, req := merge3 pre.req post.req cur.req, pend := merge3 pre.pend post.pend cur.pend,
             grant := merge3 pre.grant post.grant cur.grant, refused := merge3 pre.refused post.refused cur.refused,
             tiles := smerge Tile.zero pre.tiles post.tiles cur.tiles, hurdles := smerge Hurdle.zero pre.hurdles post.hurdles cur.hurdles,
             res := vmerge pre.res post.res cur.res, alm := smerge AlmSlot.zero pre.alm post.alm cur.alm,
             shep := vmerge pre.shep post.shep cur.shep }

/-- A core that waits at a commit point in joint mode put back to where its bundle has not issued: what its slots have done is undone, and what
engines and other agents have done since stays (R58, R230; log 57). Slots change the matrix queue only once no operation of it can run
(`finishBundle`), so the accumulators go back with it. -/
def undoCore (pre post cur : Core) : Core :=
  { cur with
    a := undoArch pre.a post.a cur.a
    ost := if pre.mxq = post.mxq then smerge Lane.zero pre.ost post.ost cur.ost else pre.ost
    scratch := smerge Lane.zero pre.scratch post.scratch cur.scratch
    nopSlot := pre.nopSlot, tvec := pre.tvec, cbuf := pre.cbuf, fifos := pre.fifos, mxq := if pre.mxq = post.mxq then cur.mxq else pre.mxq
    walk := if pre.walk = post.walk then cur.walk else none
    vigils := cur.vigils.take (cur.vigils.length + pre.vigils.length - post.vigils.length)
    almq := cur.almq.take (cur.almq.length + pre.almq.length - post.almq.length)
    copies := cur.copies.filter fun x => !(x.open_ && decide (pre.nextCopy ≤ x.id) && decide (x.id < post.nextCopy))
    shrun := if pre.shrun = post.shrun then cur.shrun else pre.shrun
    shcap := pre.shcap, pobs := pre.pobs, sfail := pre.sfail }

/-- The bundle that a core's commit waits in, if it does: the core before it, and right after its slots. -/
def heldBundle (s : State) (ci : Nat) : Option (Core × Core) :=
  match s.waiting.find? fun x => x.1 == ci with
  | some (_, x) => some x
  | none => none

/-- The state without a held bundle of a core. -/
def dropBundle (s : State) (ci : Nat) : State := { s with waiting := s.waiting.filter fun x => x.1 != ci }

/-- The bundle in which a core waits at its commit point taken back. -/
def undoBundle (s : State) (ci : Nat) : State :=
  match heldBundle s ci, vget (getCore s ci).a.clst .run 0 with
  | some (pre, post), .atCommit | some (pre, post), .atCommitD _ _ | some (pre, post), .atEnd =>
      dropBundle (modCore s ci fun c => undoCore pre post c) ci
  | _, _ => dropBundle s ci

/-! ## Taking a trap, and returning from one -/

/-- The value an EPC takes: the repetition index in bits 63:56 and the program counter below (R317). -/
def epcOf (a : Arch) (cl : Nat) : Word :=
  let k := match vget a.repK none cl with | some (k, _) => k | none => 0
  (vget a.pc 0 cl &&& (2 ^ 56 - 1 : BitVec 64)) ||| BitVec.ofNat 64 (k * 2 ^ 56)

/-- Whether a core's TVEC names a handler: V is set and its handle is valid with SYS (R318). -/
def hasHandler (s : State) (c : Core) : Bool :=
  let g := segOf s (partOf c) c.tvec.hseg
  c.tvec.v && g.v && g.sys

/-- The trap registers of the active frame as a trap writes them (R316 to R318). -/
def trapRegs (c : Core) (cl : Cluster) (t : Trap) : TrapRegs :=
  { cl := BitVec.ofNat 2 (cnum cl), detail := BitVec.ofNat 16 t.detail, cause := BitVec.ofNat 6 t.cause, tval := t.tval,
    stream := (match t.strm with | some (q, _) => BitVec.ofNat 3 q | none => c.tr.stream),
    elem := (match t.strm with | some (_, n) => BitVec.ofNat 56 n | none => c.tr.elem),
    epc := #v[epcOf c.a 0, epcOf c.a 1, epcOf c.a 2, epcOf c.a 3],
    frame := { mode := c.a.mode, litAt := c.a.litAt, loops := c.a.loops, seq := c.a.seq, segCur := c.a.segCur } }

/-- Entry of the system handler: the frame is saved, TL set, and the core continues in joint mode at the trap entry (R318). The hardware
loops and the sequencer are inactive until the frame is restored. -/
def enterHandler (s : State) (ci : Nat) (cl : Cluster) (t : Trap) : State :=
  let c := getCore s ci
  let g := segOf s (partOf c) c.tvec.hseg
  let c' := { c with tr := trapRegs c cl t, nopSlot := none,
                     a := { c.a with tl := true, litAt := none, mode := .joint, segCur := c.tvec.hseg, seq := none,
                                     loops := Vector.replicate 8 LoopLv.zero, clst := Vector.replicate 4 .run } }
  putCore s ci (setPcs c' (g.base + BitVec.ofNat 64 (16 * c.tvec.off.toNat)))

/-- A core whose trap finds no handler: TVAL and the EPCs hold what R404 gives. -/
def noteTrap (s : State) (ci : Nat) (cl : Cluster) (t : Trap) : State :=
  modCore s ci fun c => let r := trapRegs c cl t; { c with tr := { c.tr with tval := r.tval, epc := r.epc } }

/-- A cause of delivery T reaches a core (R318). REPLAYED, raised by `replay` alone (R268), replays the region; TRAP_NESTED, for a word that
a handler may not issue (R322), ends the unit. The retry response of a walk raises nothing: the core ends its pins, and the word issues again
(R183). Nested in the system handler, or UDF or EMUL in a user emulation handler, it ends the unit;
with no handler it ends the unit with its own cause; otherwise the system handler is entered. -/
def takeTrap (s : State) (ci : Nat) (cl : Cluster) (t : Trap) : State :=
  let c := getCore s ci
  if isRetry t then unpin s ci
  else if t.cause == 0x21 then replayRegion s ci t.detail
  else if t.cause == 0x07 then endUnit s ci 0x07 t.detail none
  else if c.a.tl then endUnit s ci 0x07 t.cause (some t.tval)
  else if c.a.uh && (t.cause == 0x01 || t.cause == 0x05) then endUnit s ci 0x06 t.cause (some t.tval)
  else if hasHandler s c then enterHandler s ci cl t
  else endUnit (noteTrap s ci cl t) ci t.cause t.detail (some t.tval)

/-- A frame restored: mode, loops, sequencer, segment, and every cluster at its EPC, a nonzero REPK naming the repetition (R69, R323). An engine
whose fetch has faulted tries it again (R162). -/
def restoreFrame (c : Core) (r : TrapRegs) : Core :=
  let rep := fun i => let k := fieldOf (vget r.epc 0 i) 56 8; if k = 0 then none else some (k, 256)
  let pc := fun i => vget r.epc 0 i &&& (2 ^ 56 - 1 : BitVec 64)
  { c with nopSlot := none, fifos := vmap (fun (f : Fifo) => { f with fault := none }) c.fifos,
           a := { c.a with mode := r.frame.mode, litAt := r.frame.litAt, loops := r.frame.loops, seq := r.frame.seq, segCur := r.frame.segCur,
                           clst := Vector.replicate 4 .run,
                           pc := (match r.frame.mode with | .joint => Vector.replicate 4 (pc 0) | .split => #v[pc 0, pc 1, pc 2, pc 3]),
                           repK := (match r.frame.mode with
                                    | .joint => Vector.replicate 4 none
                                    | .split => #v[rep 0, rep 1, rep 2, rep 3]) } }

/-! ## Taken control transfers (R35, R37, R312) -/

/-- The handle whose range holds an address: the lowest valid one. -/
def findSeg (segs : Vector Seg 64) (a : Word) : Option Nat :=
  (List.range 64).find? fun h => inSeg (vget segs Seg.zero h) a

/-- The segment that becomes current when a core transfers control to `t` in mode `m`, or the trap that the transfer raises: ILLEGAL_ADDR
above bit 55, MISALIGN in joint mode, and the segment rules of R312. -/
def checkTarget (s : State) (c : Core) (m : Mode) (t : Word) : Except Trap (BitVec 6) :=
  if 2 ^ 56 ≤ t.toNat then .error (mkTrap 0x10 0 t)
  else if t.toNat % (match m with | .joint => 16 | .split => 4) ≠ 0 then .error (mkTrap 0x14 0 t)
  else
    let g := curSeg s c
    if inSeg g t then .ok c.a.segCur
    else match findSeg (getPart s (partOf c)).segs t with
      | none => .error (mkTrap 0x39 0 t)
      | some h =>
        let g' := segOf s (partOf c) (BitVec.ofNat 6 h)
        if m = .split then .error (mkTrap 0x39 3 t)
        else if !(g.v && g.sys) && g'.sys && t != g'.base + g'.gate.setWidth 64 then .error (mkTrap 0x39 1 t)
        else .ok (BitVec.ofNat 6 h)

/-- A taken transfer to `t`: it raises what `checkTarget` finds, or goes there. -/
def transfer (e : Env) (s : State) (t : Word) : Res :=
  match checkTarget s e.rd e.rd.a.mode t with
  | .error tr => .raise tr
  | .ok h => .jump (modArch s e.ci fun a => { a with segCur := h }) t

/-! ## Issue -/

/-- The major opcode of a word as a number (R35). -/
def majNat (w : Nat) : Nat := w / 2 ^ 25

/-- Whether a major has format E, with its subfunction in SUB5 (R44, R50). -/
def isEFormat (maj : Nat) : Bool :=
  maj == 0x1B || maj == 0x1C || (0x20 ≤ maj && maj ≤ 0x28) || (0x54 ≤ maj && maj ≤ 0x5A) || (0x60 ≤ maj && maj ≤ 0x68)

/-- The subfunction of a word: SUB5 of format E, SUB4 otherwise. -/
def subNat (w : Nat) : Nat := if isEFormat (majNat w) then w / 2 ^ 8 % 32 else w % 16

/-- The feature bit of FEN that masks a form (R390). -/
def fenOf (maj sub : Nat) : Option Nat :=
  if maj = 0x59 then some 2 else if maj = 0x5A then some 3 else if maj = 0x56 then some 4
  else if maj = 0x28 ∧ (sub = 1 ∨ sub = 2) then some 5 else none

/-- The clusters that may issue a major (R50, R266). In joint mode control transfers, `commit` and `replay` are legal in the C slot only. -/
def clusterOk (maj sub : Nat) (cl : Cluster) (m : Mode) : Bool :=
  if maj = 0x0B ∨ maj = 0x0C ∨ maj = 0x0D ∨ maj = 0x0E ∨ maj = 0x1D then m == .split || cl == .c
  else if maj = 0x11 ∨ maj = 0x14 ∨ maj = 0x18 ∨ maj = 0x1C ∨ maj = 0x1F then cl == .c
  else if maj = 0x1A then (if sub = 1 then cl == .c else if sub = 0 ∨ sub = 2 then m == .split || cl == .c else true)
  else if 0x20 ≤ maj ∧ maj ≤ 0x28 then cl == .l
  else if 0x30 ≤ maj ∧ maj ≤ 0x5A then cl == .k
  else if 0x60 ≤ maj ∧ maj ≤ 0x68 then cl == .s
  else if 0x70 ≤ maj ∧ maj ≤ 0x74 then cl == .c
  else true

/-- The detail of ILLEGAL_SLOT for a form in a mode that it does not have: 2 for a joint-only form in split mode, 3 for a split-only form
in joint mode (R50, R52, R305). -/
def modeDetail (maj sub : Nat) (m : Mode) : Option Nat :=
  match m with
  | .split => if maj = 0x11 ∨ maj = 0x18 then some 2 else none
  | .joint =>
    if maj = 0x0F ∨ maj = 0x10 ∨ maj = 0x19 then some 3
    else if maj = 0x5A ∧ (sub = 1 ∨ sub = 2) then some 3 else none

/-- The privilege, cluster, slot and mode checks of R51, in their order: the cause and detail of the first that fails (R52, R313). Undefined
majors, HINT words and EMUL words are settled before them. -/
def preDecode (maj sub : Nat) (cl : Cluster) (m : Mode) (g : Seg) : Option (Nat × Nat) :=
  if majorUndefined maj ∨ 0x78 ≤ maj then none
  else if 0x70 ≤ maj ∧ maj ≤ 0x77 ∧ !(g.v && g.sys) then some (0x38, 0)
  else if (maj = 0x72 ∨ (maj = 0x73 ∧ sub ≠ 3) ∨ maj = 0x74) ∧ !g.fw then some (0x38, 1)
  else if !clusterOk maj sub cl m then some (0x02, 0)
  else match modeDetail maj sub m with
    | some d => some (0x02, d)
    | none => none

/-- The write window of a cluster in split mode (R59). -/
def inWindow (cl : Cluster) (i : BitVec 6) : Bool :=
  i == 0 ||
  match cl with
  | .c => decide (i.toNat ≤ 31)
  | .l => decide (32 ≤ i.toNat) && decide (i.toNat ≤ 43)
  | .k => decide (44 ≤ i.toNat) && decide (i.toNat ≤ 51)
  | .s => decide (52 ≤ i.toNat)

/-- The checks of R51 before the fields, for the word `w` issued as `e` says: none if they pass. A handler runs in joint mode, where `join` is
not legal: R322 gives it TRAP_NESTED there (log 16). TVAL of SEG_SYS is the word, as for the encoding causes (log 53). -/
def slotTrap (w : Nat) (s : State) (e : Env) : Option Trap :=
  match preDecode (majNat w) (subNat w) e.cl e.rd.a.mode (curSeg s e.rd) with
  | some (cause, d) =>
    if majNat w = 0x19 ∧ (e.rd.a.tl || e.rd.a.uh) then some (mkTrap 0x07 0x19 0) else some (mkTrap cause d (BitVec.ofNat 64 w))
  | none =>
    match fenOf (majNat w) (subNat w) with
    | none => none
    | some b => if fenBit s (partOf e.rd) b then none else some (mkTrap 0x01 1 (BitVec.ofNat 64 w))

/-- The trap of the checks of R51 that depend on where a word with the scalar destinations `dsts` issues, none if it may issue. -/
def issueTrap (w : Nat) (dsts : List (BitVec 6)) (s : State) (e : Env) : Option Trap :=
  match slotTrap w s e with
  | some t => some t
  | none =>
    if e.rd.a.mode = .split ∧ dsts.any (fun d => !inWindow e.cl d) then some (mkTrap 0x02 1 (BitVec.ofNat 64 w)) else none

/-- The state once the `vigil` of a bundle at `p` has issued: the next bundle's K slot is its literal, if the core goes on in sequence (R70,
R71). -/
def noteLiteral (s : State) (e : Env) : State :=
  modArch s e.ci fun a =>
    let q := vget a.pc 0 0
    let goesOn := a.mode == .joint && (q == e.addr || q == e.addr + 16) && a.tl == e.rd.a.tl && a.uh == e.rd.a.uh
    if goesOn then { a with litAt := some (e.addr + 16) } else a

/-- The end of an issue. Inside a bundle a raise, a stall or a transfer is only recorded (R58); alone, the word is a whole bundle or a word
of its cluster: it traps, waits, goes on or transfers. -/
def conclude (s0 : State) (e : Env) (r : Res) : Host.Outcome State Fault Refusal :=
  match s0.bundle with
  | some b =>
    match r with
    | .raise t => .next { s0 with bundle := some { b with raised := (match b.raised with | none => some (e.cl, t) | some x => some x) } }
    | .stall => .next { s0 with bundle := some { b with stalled := true } }
    | .retry => .next { s0 with bundle := some { b with stalled := true, unpin := true } }
    | .done s => .next s
    | .later s => .next s
    | .lit s => .next (noteLiteral s e)
    | .jump s t => .next { s with bundle := (match s.bundle with | some b => some { b with target := some t } | none => none) }
    | .set s => .next { s with bundle := (match s.bundle with | some b => some { b with pcSet := true } | none => none) }
  | none =>
    match r with
    | .raise t => .next (takeTrap s0 e.ci e.cl t)
    | .stall => .next s0
    | .retry => .next (unpin s0 e.ci)
    | .done s => .next (modCore s e.ci fun c => advance c e.cl 0)
    | .later s => .next (modCore s e.ci fun c => advance c e.cl 0)
    | .lit s => .next (modCore s e.ci fun c => advance c e.cl 4)
    | .jump s t => .next (modCore s e.ci fun c => match e.rd.a.mode with | .joint => setPcs c t | .split => setPc c (cnum e.cl) t)
    | .set s => .next s

/-- No token fields. -/
def tkNone : Tk := { hint := 0, tkin := 0, tkout := 0 }

/-- The issue of the word `w` with scalar destinations `dsts`, guard `g` and token fields `tk` (R51, R45, R39): the checks, the token wait
and pop, the hold of the TKOUT push, the guard, the meaning, and the delivery of the push for a meaning that has completed. A trap or a
wait restores the tokens. -/
def issue (w : Nat) (dsts : List (BitVec 6)) (g : BitVec 3) (tk : Tk) (s : State) (sem : Env → State → Res) :
    Host.Outcome State Fault Refusal :=
  let e := envOf s
  match issueTrap w dsts s e with
  | some t => conclude s e (.raise t)
  | none =>
    let pin := popPair e.cl tk.tkin.toNat
    let pout := pushPair e.cl tk.tkout.toNat
    if !(popReady e.rd.a pin && pushReady e.rd.a pout) then conclude s e .stall
    else
      let s1 := modArch s e.ci fun a => holdTok (popTok a pin) pout
      if !rdFlag e.rd.a e.cl g.toNat then conclude s e (.done s)
      else match sem { e with pout := pout } s1 with
        | .done s2 => conclude s e (.done (modArch s2 e.ci fun a => deliverTok a pout))
        | r => conclude s e r

end Sys2Proof.Machine
end

