-- ==== Sys2Proof/Machine/Mem.lean ====
section
/-! DEFINITION. Memory: physical memory with its poison marks and errors, translation, windows, the commit buffer, the L1 copies, the
scratchpad and the operand store. -/

namespace Sys2Proof.Machine

/-! ## Bytes -/

/-- The number that bytes hold, the first the least significant (R4). -/
def leNat : List Byte → Nat
  | [] => 0
  | b :: r => b.toNat + 256 * leNat r

/-- The low `n` bytes of a number, the least significant first. -/
def natBytes : Nat → Nat → List Byte
  | 0, _ => []
  | n + 1, v => BitVec.ofNat 8 v :: natBytes n (v / 256)

/-- The low `n` bits of a number, sign-extended to 64. -/
def sext64 (n v : Nat) : Word := BitVec.ofInt 64 (sintOf n v)

/-! ## Physical memory (R168, R363 to R366) -/

/-- The bytes from a physical address on. -/
def memBytes (m : List Host.Cell) : Nat → Nat → List Byte
  | _, 0 => []
  | a, n + 1 => Sparse.get 0 m a :: memBytes m (a + 1) n

/-- Memory with bytes written from an address on. -/
def memWrite (m : List Host.Cell) : Nat → List Byte → List Host.Cell
  | _, [] => m
  | a, b :: r => memWrite (Sparse.put 0 m a b) (a + 1) r

/-- The target field PA[51:48] (R168). -/
def paKind (pa : Nat) : Nat := pa / 2 ^ 48 % 16

/-- The die whose local memory a physical address lies in has failed (R185). -/
def lostMem (s : State) (pa : Nat) : Bool :=
  (paKind pa == 0 && !(getDie s 0).up) || (paKind pa == 1 && !(getDie s 1).up)

/-- The home die of a device-memory address (R168). -/
def homeDie (s : State) (pa : Nat) : Nat :=
  if paKind pa = 1 then 1 else if paKind pa = 0 then 0 else if (getDie s 0).up then 0 else 1

/-- Whether a physical address lies in device memory below its size (R168, R362). -/
def inDevice (s : State) (pa : Nat) : Bool :=
  let o := pa % 2 ^ 48
  if paKind pa ≤ 1 then decide (o < (112 - s.mirroredGiB) * 2 ^ 30)
  else paKind pa == 2 && decide (o < s.mirroredGiB * 2 ^ 30)

/-- The state once an integrity mismatch has been found: a LOG alarm, and HALT at the INTTHR-th within the time of R379 (R378; log 49). -/
def countMismatch (s : State) (part core : Nat) : State :=
  let now := s.dtime.toNat
  let ms := s.mismatches.filter (fun t => decide (now ≤ t + 3600000000)) ++ [now]
  let s1 := logErr { s with mismatches := ms } part core 0x3C 0 none none 0
  if s.intthr ≤ ms.length then { logErr s1 part core 0x3C 1 none none 0 with alarm := (if s.alarm = .erase then .erase else .halt) } else s1

/-! ## Sectors of memory and lines of the die caches (R137, R170, R364 to R366) -/

/-- The words of a line that `n` bytes from an address on touch, as a mask of the line's 32 words. -/
def wordBits (pa n : Nat) : BitVec 32 := BitVec.ofNat 32 (2 ^ ((pa % 128 + n + 3) / 4) - 2 ^ (pa % 128 / 4))

/-- The words of a line that `n` bytes from an address on cover whole. -/
def wholeBits (pa n : Nat) : BitVec 32 := BitVec.ofNat 32 (2 ^ ((pa % 128 + n) / 4) - 2 ^ ((pa % 128 + 3) / 4))

/-- The marks of a line's words once `n` bytes have been written with the marks `psn`: a word written whole takes its mark from the write, a
partial write keeps the mark it finds. -/
def writeMarks (old psn : BitVec 32) (pa n : Nat) : BitVec 32 := (old &&& ~~~(wholeBits pa n)) ||| (psn &&& wordBits pa n)

/-- Whether a sector was written under the tag of another partition (R364). -/
def tagOther (s : State) (part sec : Nat) : Bool :=
  let t := Sparse.get 0 s.sectorTags sec
  t != 0 && t != part + 1

/-- Whether memory returns a sector with every word marked (R365). -/
def sectorBad (s : State) (part sec : Nat) : Bool :=
  s.poisoned.contains sec || tagOther s part sec ||
  match Sparse.get none s.faulty sec with
  | some .uncorrectable => true
  | some (.tagMismatch _) => true
  | _ => false

/-- A read of a sector of memory under a partition's tag (R365): the state with its record and the sector stored poisoned, and whether every
word of it comes back marked. -/
def readSector (s : State) (part core pa : Nat) (va : Word) : State × Bool :=
  let sec := pa / 256
  let addr := BitVec.ofNat 64 (sec * 256)
  let spoil := fun (t : State) => { t with poisoned := natInsert sec t.poisoned, faulty := Sparse.put none t.faulty sec none }
  let mismatch := fun corr =>
    spoil (countMismatch (logErr s part core 0x3A 0 (some addr) (some va) (b2n corr)) part core)
  if s.poisoned.contains sec then (s, true)
  else match Sparse.get none s.faulty sec with
    | some .uncorrectable => (spoil (logErr s part core 0x3B 0 (some addr) (some va) 2), true)
    | some (.tagMismatch corr) => (mismatch corr, true)
    | some .corrected =>
        if tagOther s part sec then (mismatch true, true)
        else ({ s with faulty := Sparse.put none s.faulty sec none, corrected := s.corrected + 1 }, false)
    | none => if tagOther s part sec then (mismatch false, true) else (s, false)

/-- The line of a die cache that holds an address. -/
def dcFind (s : State) (pa : Nat) : Option DcLine := (getDie s (homeDie s pa)).dcache.find? fun l => l.line == pa / 128

/-- The line that a request with a partition's tag finds at its home (R170). -/
def dcHit (s : State) (part pa : Nat) : Option DcLine :=
  match dcFind s pa with
  | some l => if l.part = part then some l else none
  | none => none

/-- The state with the lines of a die cache changed. -/
def modDc (s : State) (d : Nat) (f : List DcLine → List DcLine) : State := modDie s d fun x => { x with dcache := f x.dcache }

/-- The lines that a die cache holds of a sector. -/
def dcSector (s : State) (d sec : Nat) : List DcLine := (getDie s d).dcache.filter fun l => l.line / 2 == sec

/-- The write-back of what a die cache holds of a sector (R137, R366): both lines of it are a whole write; one line alone is a partial write,
which reads the sector. A marked word stores the sector poisoned. -/
def writeBack (s : State) (d sec : Nat) : State :=
  let ls := dcSector s d sec
  if ls.any (fun l => l.dirty) then
    let part := match ls with | l :: _ => l.part | [] => 0
    let whole := ls.length == 2
    let r := if whole then (s, false) else readSector s part (36 * d) (256 * sec) 0
    let bad := r.2 || ls.any fun l => l.marks != 0
    let t := modDc r.1 d fun x => x.map fun l => if l.line / 2 == sec then { l with dirty := false } else l
    { t with poisoned := (if bad then natInsert sec t.poisoned else t.poisoned.filter (· != sec)), faulty := Sparse.put none t.faulty sec none,
             sectorTags := Sparse.put 0 t.sectorTags sec (part + 1) }
  else s

/-- A die cache without the lines of a sector, written back first. -/
def dcDrop (s : State) (d sec : Nat) : State := modDc (writeBack s d sec) d fun x => x.filter fun l => l.line / 2 != sec

/-- A die cache without the lines of a sector, if another partition has brought one of them in. -/
def dcOthers (s : State) (d part sec : Nat) : State := if (dcSector s d sec).any fun l => l.part != part then dcDrop s d sec else s

/-- The number of lines of a die cache: 32 MiB of 128 bytes (R13). -/
def dcLines : Nat := 262144

/-- The state with a line at the front of its die cache; past its size the line used longest ago is written back and leaves (log 8). -/
def dcPut (s : State) (d : Nat) (l : DcLine) : State :=
  let t := modDc s d fun x => l :: x.filter fun y => y.line != l.line
  match (getDie t d).dcache[dcLines]? with
  | none => t
  | some y => modDc (writeBack t d (y.line / 2)) d fun x => x.filter fun z => z.line != y.line

/-- The stash lines of every core but the requester's are written back where another agent requests the line (R151). -/
def cleanStash (s : State) (ci : Option Nat) (line : Nat) : State :=
  let f := fun (c : Core) => { c with stash := c.stash.map fun (x : StashLine) => if x.line == line then { x with dirty := false } else x }
  let cores := vmap f s.cores
  match ci with
  | none => { s with cores := cores }
  | some i => { s with cores := vset cores i (getCore s i) }

/-- A request of an agent for a line at its home (R137, R170, R365): the state with the line in the die cache, and the marks of its words. A line
that another partition's request brought in is written back and read again under the requester's tag. -/
def touchLine (s : State) (part core : Nat) (ci : Option Nat) (pa : Nat) (va : Word) : State × BitVec 32 :=
  if lostMem s pa then (s, BitVec.allOnes 32)
  else
    let d := homeDie s pa
    let s0 := cleanStash s ci (pa / 128)
    match dcHit s0 part pa with
    | some l => (dcPut s0 d l, l.marks)
    | none =>
      let s1 := dcOthers s0 d part (pa / 256)
      let r := readSector s1 part core pa va
      let m := if r.2 then BitVec.allOnes 32 else 0
      (dcPut r.1 d { line := pa / 128, part := part, marks := m, dirty := false }, m)

/-- The address of the first marked word among `n` bytes of one line, for the marks of the line's words. -/
def markedAt (m : BitVec 32) (pa n : Nat) (va : Word) : Word :=
  match (List.range ((pa % 4 + n + 3) / 4)).find? fun k => bitOf m (pa % 128 / 4 + k) with
  | some k => va + BitVec.ofNat 64 (4 * k) - BitVec.ofNat 64 (pa % 4)
  | none => va

/-- A request for `n` bytes of one line: the state, and whether a word of them is marked. -/
def touchSector (s : State) (part core : Nat) (ci : Option Nat) (pa n : Nat) (va : Word) : State × Bool :=
  let r := touchLine s part core ci pa va
  (r.1, r.2 &&& wordBits pa n != 0)

/-- The marks of a line's words as a request with a partition's tag would find them, without the request. -/
def homeMarks (s : State) (part pa : Nat) : BitVec 32 :=
  if lostMem s pa then BitVec.allOnes 32
  else match dcHit s part pa with
    | some l => l.marks
    | none =>
      let held := match dcFind s pa with | some _ => (dcSector s (homeDie s pa) (pa / 256)).any fun l => l.dirty | none => false
      if held || sectorBad s part (pa / 256) then BitVec.allOnes 32 else 0

/-- Whether a request for `n` bytes of one line would find a marked word. -/
def homeMarked (s : State) (part pa n : Nat) : Bool := homeMarks s part pa &&& wordBits pa n != 0

/-! ## Translation (R165 to R172) -/

/-- The first address bit of an index of level `l`, and the number of index bits (R165). -/
def levelShift (l : Nat) : Nat := 55 - 10 * l

/-- The index of level `l` of a virtual address. -/
def levelIndex (va : Word) (l : Nat) : Nat := if l = 0 then fieldOf va 55 9 else fieldOf va (levelShift l) 10

/-- The detail of a translation cause (R167). -/
def walkDetail (l : Nat) (malformed : Bool) (k : AccessKind) (poisoned : Bool) : Nat :=
  l + 8 * b2n malformed + 16 * (if k = .fetch then 1 else 0) + 32 * b2n poisoned

/-- A fault of a walk: PAGE_FAULT_W for a write, PAGE_FAULT_R otherwise (R167). -/
def walkFault (l : Nat) (malformed poisoned : Bool) (k : AccessKind) (va : Word) : Trap :=
  mkTrap (if k = .write then 0x12 else 0x11) (walkDetail l malformed k poisoned) va

/-- Whether a leaf's rights permit an access (R166, R167). -/
def leafPermits (leaf : Word) (k : AccessKind) : Bool :=
  match k with
  | .read => bitOf leaf 3
  | .write => bitOf leaf 4
  | .fetch => bitOf leaf 5

/-! ### Pins (R182) -/

/-- Whether another core has pinned the line of a physical address (R182). -/
def pinnedByOther (s : State) (ci : Nat) (pa : Nat) : Bool :=
  (List.range 72).any fun j => j != ci && (getCore s j).a.pins.contains (pa / 128)

/-- Whether a core has pinned the line of a physical address: an agent that is no core meets a retry response (R182). -/
def pinned (s : State) (pa : Nat) : Bool := (List.range 72).any fun j => (getCore s j).a.pins.contains (pa / 128)

/-- Whether the line of a physical address is pinned against an access: by another core for a core's access, by any core for another agent's. -/
def pinnedFor (s : State) (me : Option Nat) (pa : Nat) : Bool := match me with | some ci => pinnedByOther s ci pa | none => pinned s pa

/-! ### The walk -/

/-- A walk from the table at `t` of level `l` on for the core `me` or another agent: the leaf's entry, with the table entries of levels 0 to 2
it read, or the fault. The fuel is the number of levels left. -/
def walkFrom (s : State) (me : Option Nat) (part : Nat) (va : Word) (k : AccessKind) :
    Nat → Nat → Nat → Except Trap (Word × Nat × List (Nat × Nat))
  | 0, l, _ => .error (walkFault l true false k va)
  | fuel + 1, l, t =>
    let pa := t + 8 * levelIndex va l
    let e := BitVec.ofNat 64 (leNat (memBytes s.mem pa 8))
    if pinnedFor s me pa then .error retryTrap
    else if homeMarked s part pa 8 then .error (walkFault l true true k va)
    else if !bitOf e 0 then .error (walkFault l false false k va)
    else if fieldOf e 52 4 ≠ 0 ∨ fieldOf e 6 7 ≠ 0 ∨ bitOf e 2 then .error (walkFault l true false k va)
    else if !bitOf e 1 then
      let t' := fieldOf e 13 39 * 2 ^ 13
      if l = 4 ∨ 2 < paKind t' then .error (walkFault l true false k va)
      else match walkFrom s me part va k fuel (l + 1) t' with
        | .error x => .error x
        | .ok (leaf, sz, ts) => .ok (leaf, sz, if l ≤ 2 then (l, t') :: ts else ts)
    else if l < 2 then .error (walkFault l true false k va)
    else
      let sz := levelShift l
      if fieldOf e 13 (sz - 13) ≠ 0 then .error (walkFault l true false k va)
      else .ok (e, sz, [])

/-- The deepest cached table entry of the die's walk cache for an address: the level after it and its table (R170). -/
def walkCacheFind (d : Die) (part : Nat) (asn : BitVec 16) (va : Word) : Option (Nat × Nat) :=
  let hit := fun l => d.walkCache.find? fun w => w.part == part && w.asn == asn && w.level == l && w.path == va.toNat / 2 ^ levelShift l
  match hit 2 with
  | some w => some (3, w.table)
  | none => match hit 1 with
    | some w => some (2, w.table)
    | none => (hit 0).map fun w => (1, w.table)

/-- The walk of a virtual address under an address space (R167): the leaf and its page size, or the fault. -/
def walkTable (s : State) (me : Option Nat) (die part : Nat) (asn : BitVec 16) (va : Word) (k : AccessKind) : Except Trap (Word × Nat × List (Nat × Nat)) :=
  match walkCacheFind (getDie s die) part asn va with
  | some (l, t) => walkFrom s me part va k (5 - l) l t
  | none =>
    let asd := Sparse.get 0 (getPart s part).asds asn.toNat
    if !bitOf asd 0 then .error (walkFault 0 false false k va)
    else walkFrom s me part va k 5 0 (fieldOf asd 12 40 * 2 ^ 12)

/-- The physical address that a leaf gives. -/
def leafPa (leaf : Word) (sz : Nat) (va : Word) : Nat := fieldOf leaf sz (52 - sz) * 2 ^ sz + fieldOf va 0 sz

/-- A cached translation of a core for an address (R170). -/
def tlbFind (c : Core) (part : Nat) (asn : BitVec 16) (va : Word) : Option TlbEntry :=
  let hit := fun (e : TlbEntry) => e.part == part && e.asn == asn && e.vbase == va.toNat / 2 ^ e.size * 2 ^ e.size
  match c.tlb1.find? hit with
  | some e => some e
  | none => c.tlb2.find? hit

/-- The level of a page size, for the detail of RIGHTS. -/
def sizeLevel (sz : Nat) : Nat := (55 - sz) / 10

/-- Translation under an address space for a requester on a die with the TLB entries of `c`: the physical address, or the fault. A TLB hit
uses the entry it holds (R171). -/
def translateAs (s : State) (me : Option Nat) (c : Core) (die part : Nat) (asn : BitVec 16) (va : Word) (k : AccessKind) : Except Trap Nat :=
  let use := fun leaf sz =>
    if leafPermits leaf k then .ok (leafPa leaf sz va) else .error (mkTrap 0x13 (walkDetail (sizeLevel sz) false k false) va)
  match tlbFind c part asn va with
  | some e => use e.leaf e.size
  | none => match walkTable s me die part asn va k with
    | .error t => .error t
    | .ok (leaf, sz, _) => use leaf sz

/-- Where a physical address goes (R168): device memory, a host window with an offset, or a peer window with an offset. -/
inductive Target where
  | dev (pa : Nat)
  | host (win off : Nat)
  | peer (win off : Nat)
deriving DecidableEq, Repr

/-- The target of a physical address for a partition; ILLEGAL_ADDR with the virtual address for an absent one (R168, R369, R372, R390). -/
def resolve (s : State) (part : Nat) (va : Word) (pa : Nat) : Except Trap Target :=
  let p := getPart s part
  let bad : Except Trap Target := .error (mkTrap 0x10 0 va)
  if paKind pa ≤ 2 then (if inDevice s pa then .ok (.dev pa) else bad)
  else if paKind pa = 4 then
    let w := pa / 2 ^ 42 % 64; let o := pa % 2 ^ 42
    let d := vget p.hostWin 0 w
    if bitOf d 0 ∧ o < 2 ^ fieldOf d 32 6 then .ok (.host w o) else bad
  else if 8 ≤ paKind pa then
    let w := pa / 2 ^ 48 % 8; let o := pa % 2 ^ 48
    let d := vget p.peerWin 0 w
    if bitOf d 0 ∧ fieldOf d 4 4 ≠ 0 ∧ o < 2 ^ fieldOf d 32 6 ∧ fenBit s part 6 then .ok (.peer w o) else bad
  else bad

/-- The attribute bit that an access needs of a window: 1 RD, 2 WR, 3 AT (R169). -/
def windowAllows (s : State) (part : Nat) (t : Target) (attr : Nat) : Bool :=
  match t with
  | .dev _ => true
  | .host w _ => bitOf (vget (getPart s part).hostWin 0 w) attr
  | .peer w _ => bitOf (vget (getPart s part).peerWin 0 w) attr

/-- Translation of an access of a core's unit to its target, without the window attribute. -/
def transTarget (s : State) (ci : Nat) (va : Word) (k : AccessKind) : Except Trap (Target × Nat) :=
  let c := getCore s ci
  match translateAs s (some ci) c (dieOf ci) (partOf c) (asnOf c) va k with
  | .error t => .error t
  | .ok pa => match resolve s (partOf c) va pa with
    | .error t => .error t
    | .ok tg => .ok (tg, pa)

/-- Translation of an access of a core's unit, and the window attribute `attr` that it needs (R149: HOST_WINDOW comes after). -/
def transAccess (s : State) (ci : Nat) (va : Word) (k : AccessKind) (attr : Nat) : Except Trap (Target × Nat) :=
  match transTarget s ci va k with
  | .error t => .error t
  | .ok (tg, pa) => if windowAllows s (partOf (getCore s ci)) tg attr then .ok (tg, pa) else .error (mkTrap 0x16 0 va)

/-! ## The L1 and the stash (R138, R151, R177) -/

/-- The line of a core's L1 with a physical line number. -/
def l1Find (c : Core) (line : Nat) : Option L1Line := c.l1.find? fun x => x.line == line

/-- The L1 with a line touched: present, with the marks it comes with where it was not, and the 16 most recent of its set kept (R138, log 8). -/
def l1Touch (l : List L1Line) (line : Nat) (marks : BitVec 32) : List L1Line :=
  let old := match l.find? (fun x => x.line == line) with | some x => x | none => { line := line, marks := marks, stale := none }
  let rest := l.filter fun x => x.line != line
  let same := (rest.filter fun x => x.line % 128 == line % 128).take 15
  old :: (same ++ rest.filter fun x => x.line % 128 != line % 128)

/-- Whether an address lies in a mapped stash window while the stash part has lines (R151, R153). -/
def inStash (a : Arch) (va : Word) : Bool :=
  a.ssz != 0 && a.windows.toList.any fun w =>
    match w with | some (b, n) => decide (b.toNat ≤ va.toNat) && decide (va.toNat < b.toNat + n.toNat) | none => false

/-- The line of a core's stash with a physical line number. -/
def stashFind (c : Core) (line : Nat) : Option StashLine := c.stash.find? fun x => x.line == line

/-- The chunks of the scratchpad that hold the stash part, as DIRTY bits (R134, R336). -/
def stashChunks (a : Arch) : BitVec 128 := BitVec.ofNat 128 (2 ^ 128 - 2 ^ (128 - 4 * a.ssz))

/-- The virtual address of the line that an address lies in. -/
def lineVa (va : Word) : Word := va - BitVec.ofNat 64 (va.toNat % 128)

/-- The stash with a line touched at a virtual address: it comes with its marks where it was not there, and the least recently touched is
dropped past the size (R151). A fill writes the scratchpad, so the chunks of the stash part are dirty (R336). -/
def stashTouch (c : Core) (va : Word) (line : Nat) (dirty : Bool) (marks : BitVec 32) : Core :=
  let old := match stashFind c line with | some x => x | none => { line := line, dirty := false, marks := marks, vas := [] }
  let vas := if old.vas.contains (lineVa va) then old.vas else lineVa va :: old.vas
  { c with stash := ({ old with dirty := old.dirty || dirty, vas := vas } :: c.stash.filter fun x => x.line != line).take (2048 * c.a.ssz),
           chunkDirty := c.chunkDirty ||| stashChunks c.a }

/-- The core with a line brought into its stash or L1. -/
def fillLine (c : Core) (va : Word) (pa : Nat) (marks : BitVec 32) : Core :=
  if inStash c.a va then stashTouch c va (pa / 128) false marks else { c with l1 := l1Touch c.l1 (pa / 128) marks }

/-- The core with the line of a load brought in: a load that the stash serves leaves no older copy in the L1, from which a later load could read
(R175). -/
def loadLine (c : Core) (va : Word) (pa : Nat) (marks : BitVec 32) : Core :=
  let c1 := fillLine c va pa marks
  if inStash c.a va then { c1 with l1 := c1.l1.filter fun x => x.line != pa / 128 } else c1

/-- A list with bytes replaced from an offset on. -/
def patchBytes (l : List Byte) (o : Nat) (b : List Byte) : List Byte := l.take o ++ b ++ l.drop (o + b.length)

/-- Every other core that holds a line in its L1 keeps its old copy until it applies the invalidation that is queued for it (R176, R177);
a stash line goes at once (R151). -/
def queueInval (s : State) (ci : Option Nat) (line : Nat) : State :=
  let old := memBytes s.mem (line * 128) 128
  let die := homeDie s (line * 128)
  let f := fun (x : Core) =>
    let c := { x with stash := x.stash.filter fun y => y.line != line }
    if c.l1.any fun x => x.line == line then
      { c with l1 := c.l1.map fun (x : L1Line) => if x.line == line && x.stale.isNone then { x with stale := some old } else x,
               invq := c.invq ++ [{ die := die, line := line, time := s.dtime }] }
    else c
  let cores := vmap f s.cores
  match ci with
  | none => { s with cores := cores }
  | some i => { s with cores := vset cores i (getCore s i) }

/-- The writer's own copies of a line once `n` bytes of it have been written: L1 and stash in the same step as the home (R138, R177), a line
homed on the core's die held dirty in the stash (R151). -/
def updateOwn (c : Core) (own : Bool) (pa : Nat) (bytes : List Byte) (psn : BitVec 32) : Core :=
  { c with l1 := c.l1.map fun (x : L1Line) =>
             if x.line == pa / 128 then { x with stale := x.stale.map fun y => patchBytes y (pa % 128) bytes,
                                                 marks := writeMarks x.marks psn pa bytes.length } else x,
           stash := c.stash.map fun (y : StashLine) =>
             if y.line == pa / 128 then { y with dirty := y.dirty || own, marks := writeMarks y.marks psn pa bytes.length } else y }

/-- A write of bytes to device memory within one line at its home (R137, R176, R177, R185, R366): other copies are invalidated, the writer's own
are updated, and the words take their marks from `psn`. The home brings the line in first, unless the write covers it or is one of those
that together cover its sector (`whole`); `va` is the virtual address that the writer used, 0 for one that has none (R365). -/
def devWrite (s : State) (ci : Option Nat) (part pa : Nat) (va : Word) (bytes : List Byte) (psn : BitVec 32) (whole : Bool) : State :=
  if lostMem s pa then s
  else
    let d := homeDie s pa
    let fresh : DcLine := { line := pa / 128, part := part, marks := 0, dirty := true }
    let s1 := queueInval s ci (pa / 128)
    let s2 := match dcHit s1 part pa with
      | some _ => s1
      | none => if whole || 128 ≤ bytes.length then dcPut (dcOthers s1 d part (pa / 256)) d fresh
                else (touchLine s1 part (match ci with | some i => i | none => 36 * d) ci pa va).1
    let s3 := match ci with
      | none => s2
      | some i => modCore s2 i fun c => updateOwn c (decide (d = dieOf i)) pa bytes psn
    let s4 := modDc s3 d fun x => x.map fun l =>
      if l.line == pa / 128 then { l with dirty := true, marks := writeMarks l.marks psn pa bytes.length } else l
    { s4 with mem := memWrite s4.mem pa bytes }

/-- A committed store or outbound copy that touches a stash window fills the window's line, which is held dirty where it is homed on the core's
die (R151, R153). -/
def stashStore (s : State) (ci : Nat) (va : Word) (pa : Nat) : State :=
  let c := getCore s ci
  if inStash c.a va && !lostMem s pa then
    let t := touchLine s (partOf c) ci (some ci) pa va
    modCore t.1 ci fun c => stashTouch c va (pa / 128) (decide (homeDie s pa = dieOf ci)) t.2
  else s

/-! ## Windows (R141, R178, R369, R372) -/

/-- The bus address of a host-window offset. -/
def busAddr (s : State) (part w o : Nat) : Nat := fieldOf (vget (getPart s part).hostWin 0 w) 64 64 + o

/-- The function whose requester ID the window's traffic carries. -/
def busFunc (s : State) (part w : Nat) : Nat := fieldOf (vget (getPart s part).hostWin 0 w) 4 5

/-- The peer's member number of a peer window, and the address there. -/
def peerAddr (s : State) (part w o : Nat) : Nat × Nat :=
  let d := vget (getPart s part).peerWin 0 w
  (fieldOf d 8 3, fieldOf d 64 52 + o)

/-- The port on which a peer window's traffic leaves a die: the lowest of PORTS whose link is up (R372). -/
def peerPort (s : State) (die part w : Nat) : Option Nat :=
  let d := vget (getPart s part).peerWin 0 w
  (List.range 4).find? fun i => bitOf d (4 + i) && (vget (getDie s die).ports Port.zero i).up

/-- Whether some port of a peer window is up on a die (R372). -/
def peerLinkUp (s : State) (die part w : Nat) : Bool := (peerPort s die part w).isSome

/-- The key of a peer's byte in `State.peerMem`. -/
def peerKey (m a : Nat) : Nat := m * 2 ^ 52 + a

/-- An access of a core's unit that its peer has refused: an error record, and an error status in the unit's completion (R256, R372). -/
def refusedBy (s : State) (ci m : Nat) (addr : Word) : State :=
  let part := partOf (getCore s ci)
  logErr (modCore s ci fun c => { c with unit := c.unit.map fun u => { u with err := some (0x36, m) } }) part ci 0x36 m (some addr) none 0

/-- A list of marked words once bytes with marks of their own have been written from an address on: a word takes the mark of what it is given,
and a word written only in part keeps its mark. -/
def markWords (l : List Nat) (a : Nat) (pm : List Bool) : List Nat :=
  let words := (List.range ((a % 4 + pm.length + 3) / 4)).map fun k => a / 4 + k
  words.foldl (fun l w =>
    let hit := (pm.zipIdx).any fun x => x.1 && (a + x.2) / 4 == w
    if hit then natInsert w l
    else if a ≤ 4 * w ∧ 4 * w + 4 ≤ a + pm.length then l.filter (· != w) else l) l

/-- The state once a peer has performed an operation on its way to it: a write that it has not performed yet lands in its memory (R178). -/
def performPeer (s : State) (o : Outstanding) : State :=
  match o with
  | .peerWrite _ _ k b psn false => { s with peerMem := memWrite s.peerMem k b, peerPoison := markWords s.peerPoison k psn }
  | _ => s

/-- Whether an operation on its way is a write to a peer. -/
def writesTo (m : Nat) (o : Outstanding) : Bool := match o with | .peerWrite k _ _ _ _ _ => k == m | _ => false

/-- An operation on its way once its peer has performed it. -/
def performedOut (o : Outstanding) : Outstanding := match o with | .peerWrite m q k b psn _ => .peerWrite m q k b psn true | _ => o

/-- The state once a peer has performed what a core has sent to it: what the core sends or reads next comes after it on the link (R178). -/
def landPeer (s : State) (ci m : Nat) : State :=
  let l := (getCore s ci).outst.filter (writesTo m)
  modCore (l.foldl performPeer s) ci fun c => { c with outst := c.outst.map fun o => if writesTo m o then performedOut o else o }

/-- A read of a window by a core's unit: the bytes, each with the mark of its word. A completion that the host sends poisoned marks every word that
it returns (R137). The core's earlier writes to a peer come before its read. With no link of a peer window up the read is refused, and every
word comes marked (R372; log 30). -/
def windowRead (s : State) (ci : Nat) (t : Target) (n : Nat) : State × List Byte × List Bool :=
  let part := partOf (getCore s ci)
  match t with
  | .dev pa => (s, memBytes s.mem pa n, List.replicate n false)
  | .host w o =>
    let a := busAddr s part w o
    (s, memBytes s.hostMem a n, List.replicate n ((List.range n).any fun i => s.hostPoison.contains ((a + i) / 4)))
  | .peer w o =>
    let (m, a) := peerAddr s part w o
    if peerLinkUp s (dieOf ci) part w then
      let t := landPeer s ci m
      (t, memBytes t.peerMem (peerKey m a) n, (List.range n).map fun i => t.peerPoison.contains (peerKey m (a + i) / 4))
    else (refusedBy s ci m (BitVec.ofNat 64 a), memBytes s.peerMem (peerKey m a) n, List.replicate n true)

/-- The state once bytes, each with the mark of its word, have left for a window: a posted write of the host, or a Tether write that awaits its
acknowledgement, and that the peer performs or refuses (R178, R256). A peer write with no link up is refused (R256, R372). -/
def windowWrite (s : State) (ci : Nat) (t : Target) (bytes : List Byte) (pm : List Bool) : State :=
  let part := partOf (getCore s ci)
  match t with
  | .dev _ => s
  | .host w o =>
      let a := busAddr s part w o
      { s with outbox := s.outbox ++ [.hostWrite (dieOf ci) (busFunc s part w) (BitVec.ofNat 64 a) bytes (pm.any id)],
               hostMem := memWrite s.hostMem a bytes, hostPoison := markWords s.hostPoison a pm }
  | .peer w o =>
      let (m, a) := peerAddr s part w o
      match peerPort s (dieOf ci) part w with
      | some q =>
        modCore { s with outbox := s.outbox ++ [.tetherWrite m a bytes (pm.any id)] } ci
          fun c => { c with outst := c.outst ++ [.peerWrite m q (peerKey m a) bytes pm false] }
      | none => refusedBy s ci m (BitVec.ofNat 64 a)

/-! ## The commit buffer (R139, R140, R249) -/

/-- The 32-byte sectors that an entry takes (R139, R250). -/
def sectorsOf (x : CEntry) : Nat :=
  match x with
  | .sector _ _ _ | .atomic _ _ _ _ _ _ _ | .sigadd _ _ | .ringadd _ _ | .kick _ _ | .arrive _ _ => 1
  | .post _ _ => 2
  | .copy _ | .steal _ => 0

/-- Whether one of some entries is an atomic on a word of the sector at `q`. -/
def atomicIn (b : List CEntry) (q : Nat) : Bool := b.any fun x => match x with | .atomic pa _ _ _ _ _ _ => pa / 32 * 32 == q | _ => false

/-- Whether one of some entries is the sector at `q`. -/
def sectorIn (b : List CEntry) (q : Nat) : Bool := b.any fun x => match x with | .sector p _ _ => p == q | _ => false

/-- The entries whose sector a later entry holds too, after an atomic on one of its words: they take no sector more. -/
def heldAgain : List CEntry → Nat
  | [] => 0
  | .sector q _ _ :: r => (if atomicIn r q && sectorIn r q then 1 else 0) + heldAgain r
  | _ :: r => heldAgain r

/-- The sectors in use. -/
def sectorsUsed (b : List CEntry) : Nat := (b.map sectorsOf).sum - heldAgain b

/-- The bytes of a sector entry with bytes added from an offset. -/
def sectorPut (m : Sparse (Option Byte)) : Nat → List Byte → Sparse (Option Byte)
  | _, [] => m
  | o, b :: r => sectorPut (Sparse.put none m o (some b)) (o + 1) r

/-- The buffer with bytes of one sector entered under a virtual address: a held sector is merged into (R139), unless an atomic on one of its words
has entered after it, behind which the bytes are released (R181). -/
def enterSector (b : List CEntry) (pa : Nat) (va : Word) (bytes : List Byte) : List CEntry :=
  match b with
  | [] => [.sector (pa / 32 * 32) (va - BitVec.ofNat 64 (pa % 32)) (sectorPut [] (pa % 32) bytes)]
  | .sector q v m :: r =>
      if q = pa / 32 * 32 ∧ !atomicIn r q then .sector q v (sectorPut m (pa % 32) bytes) :: r else .sector q v m :: enterSector r pa va bytes
  | x :: r => x :: enterSector r pa va bytes

/-- Whether the open region holds the sector of an address. -/
def hasSector (b : List CEntry) (pa : Nat) : Bool := sectorIn b (pa / 32 * 32)

/-- A store's piece within one sector: its physical and virtual address and its bytes. -/
abbrev StorePiece := Nat × Word × List Byte

/-- The buffer with stores entered, each within one sector; none where a free sector is wanting (CBUF_OVERFLOW, R139). -/
def enterStores (b : List CEntry) (l : List StorePiece) : Option (List CEntry) :=
  let b' := l.foldl (fun acc x => enterSector acc x.1 x.2.1 x.2.2) b
  if sectorsUsed b' ≤ 2048 then some b' else none

/-- The buffer with one more entry, none where its sectors are wanting. -/
def enterEntry (b : List CEntry) (x : CEntry) : Option (List CEntry) :=
  if sectorsUsed b + sectorsOf x ≤ 2048 then some (b ++ [x]) else none

/-- The byte that the open region has stored last at an address (R140). -/
def bufByte (b : List CEntry) (pa : Nat) : Option Byte :=
  match b with
  | [] => none
  | .sector q _ m :: r => match bufByte r pa with
    | some y => some y
    | none => if q = pa / 32 * 32 then Sparse.get none m (pa % 32) else none
  | _ :: r => bufByte r pa

/-- Bytes read, each from the open region's stores where it has one. -/
def forward (b : List CEntry) : Nat → List Byte → List Byte
  | _, [] => []
  | a, x :: r => (match bufByte b a with | some y => y | none => x) :: forward b (a + 1) r

/-- Whether the open region has stored every byte of a range. -/
def allForwarded (b : List CEntry) (pa n : Nat) : Bool := (List.range n).all fun i => (bufByte b (pa + i)).isSome

/-- Whether one of `n` bytes read carries a mark: a byte that the open region has stored carries none. -/
def liveMark (b : List CEntry) (pa n : Nat) (mk : Nat → Bool) : Bool := (List.range n).any fun i => (bufByte b (pa + i)).isNone && mk i

/-- A queued invalidation applied: the core's copy of the line goes (R177). -/
def applyInval (c : Core) (i : Inval) : Core := { c with l1 := c.l1.filter fun x => x.line != i.line }

/-- The queued invalidations that a test names applied in their order of arrival. -/
def applyInvals (c : Core) (p : Inval → Bool) : Core := (c.invq.filter p).foldl applyInval { c with invq := c.invq.filter fun i => !p i }

/-- An acquire at PKG or SYS scope: every invalidation queued by either die is applied (R173, R248). -/
def acquire (c : Core) : Core := applyInvals c fun _ => true

/-- The state once the invalidations whose 2 µs are over have been applied at a core (R177). -/
def expireInvals (s : State) (ci : Nat) : State :=
  if (getCore s ci).invq.isEmpty then s
  else modCore s ci fun c => applyInvals c fun i => decide (i.time.toNat + 2000 ≤ s.dtime.toNat)

/-- A load's read of bytes of one line by a core, with the OR of their marks (R140, R145): its own open stores, then its copy of the line in the
stash or the L1, then the home, which fills the stash or the L1. -/
def readLoad (s0 : State) (ci : Nat) (va : Word) (t : Target) (pa n : Nat) : State × List Byte × Bool :=
  let s := expireInvals s0 ci
  let c := getCore s ci
  let byWord := fun (m : BitVec 32) => liveMark c.cbuf pa n fun i => bitOf m ((pa + i) % 128 / 4)
  if allForwarded c.cbuf pa n then (s, forward c.cbuf pa (List.replicate n 0), false)
  else match t with
    | .dev _ =>
      let held := if inStash c.a va then (stashFind c (pa / 128)).map fun x => (none, x.marks) else (l1Find c (pa / 128)).map fun x => (x.stale, x.marks)
      match held with
      | some (some b, m) => (s, forward c.cbuf pa ((b.drop (pa % 128)).take n), byWord m)
      | some (none, m) => (modCore s ci fun c => loadLine c va pa m, forward c.cbuf pa (memBytes s.mem pa n), byWord m)
      | none =>
        let (s1, m) := touchLine s (partOf c) ci (some ci) pa va
        (modCore s1 ci fun c => loadLine c va pa m, forward c.cbuf pa (memBytes s1.mem pa n), byWord m)
    | _ =>
      let (s1, b, m) := windowRead s ci t n
      (s1, forward c.cbuf pa b, liveMark c.cbuf pa n fun i => nth false m i)

/-- An engine's read of committed bytes within one line (R140, R163), each with the mark of its word. A line of a stash window comes from the
stash, which it fills where it is not there (R151). -/
def readCommitted (s : State) (ci : Nat) (va : Word) (t : Target) (n : Nat) : State × List Byte × List Bool :=
  let c := getCore s ci
  match t with
  | .dev pa =>
    let r := match (if inStash c.a va then stashFind c (pa / 128) else none) with
      | some x => (s, x.marks)
      | none => touchLine s (partOf c) ci (some ci) pa va
    (if inStash c.a va then modCore r.1 ci fun c => stashTouch c va (pa / 128) false r.2 else r.1, memBytes r.1.mem pa n,
     (List.range n).map fun i => bitOf r.2 ((pa + i) % 128 / 4))
  | _ => windowRead s ci t n

/-- The lanes of bytes read, each with the mark of its word. -/
def lanesOf (b : List Byte) (marks : List Bool) : Nat → List Lane
  | 0 => []
  | n + 1 => { data := BitVec.ofNat 32 (leNat (b.take 4)), psn := nth false marks 0 } :: lanesOf (b.drop 4) (marks.drop 4) n

/-! ## The scratchpad (R134 to R137, R336) -/

/-- PLAIN, the size of the plain part (R134). -/
def plain (a : Arch) : Nat := 8388608 - 262144 * a.ssz

/-- A word of the scratchpad: one that holds an uncorrectable error reads marked (R261). -/
def scrWord (c : Core) (w : Nat) : Lane :=
  let x := Sparse.get Lane.zero c.scratch w
  if c.badScr.contains w then { x with psn := true } else x

/-- The core with a word of the scratchpad written, and its chunk dirty (R336). -/
def putScr (c : Core) (w : Nat) (x : Lane) : Core :=
  { c with scratch := Sparse.put Lane.zero c.scratch w x, badScr := c.badScr.filter (· != w), chunkDirty := putBit c.chunkDirty (w / 16384) true }

/-- The bytes of a word, the least significant first. -/
def wordBytes (w : Word32) : List Byte := natBytes 4 w.toNat

/-- Byte `o` of the scratchpad. -/
def scrByte (c : Core) (o : Nat) : Byte := BitVec.ofNat 8 ((scrWord c (o / 4)).data.toNat / 2 ^ (8 * (o % 4)))

/-- The bytes from an offset of the scratchpad on. -/
def scrBytes (c : Core) : Nat → Nat → List Byte
  | _, 0 => []
  | o, n + 1 => scrByte c o :: scrBytes c (o + 1) n

/-- The offset of the lowest marked word among `n` words from word `w` on, if any. -/
def firstMarked (c : Core) (w : Nat) : Nat → Option Nat
  | 0 => none
  | n + 1 => if (scrWord c w).psn then some (4 * w) else firstMarked c (w + 1) n

/-- Whether a scratchpad range holds a marked word. -/
def scrMarked (c : Core) (o n : Nat) : Bool := (firstMarked c (o / 4) ((o + n + 3) / 4 - o / 4)).isSome

/-- The number in `n` bytes of the scratchpad. -/
def scrNat (c : Core) (o n : Nat) : Nat := leNat (scrBytes c o n)

/-- One byte of a word replaced. -/
def putByte (w : Word32) (i : Nat) (b : Byte) : Word32 :=
  BitVec.ofNat 32 (w.toNat - w.toNat / 2 ^ (8 * i) % 256 * 2 ^ (8 * i) + b.toNat * 2 ^ (8 * i))

/-- The core with bytes of the scratchpad written from an offset on; marks stay. -/
def scrPutBytes (c : Core) : Nat → List Byte → Core
  | _, [] => c
  | o, b :: r => let x := scrWord c (o / 4); scrPutBytes (putScr c (o / 4) { x with data := putByte x.data (o % 4) b }) (o + 1) r

/-- The core with the marks of a store set (R146): poison marks every word touched; otherwise a word written whole is unmarked, and a
partial write keeps the mark. -/
def scrMark (c : Core) (o n : Nat) (psn : Bool) : Core :=
  (List.range ((o + n + 3) / 4 - o / 4)).foldl (fun c i =>
    let w := o / 4 + i
    let x := scrWord c w
    if psn then putScr c w { x with psn := true }
    else if o ≤ 4 * w ∧ 4 * w + 4 ≤ o + n then putScr c w { x with psn := false } else c) c

/-- A store of bytes into the scratchpad with its effect on the marks (R146). -/
def scrStore (c : Core) (o : Nat) (b : List Byte) (psn : Bool) : Core := scrMark (scrPutBytes c o b) o b.length psn

/-- Bytes put into the scratchpad, each with the mark of its word (R137, R237). -/
def scrStoreMarks (c : Core) (o : Nat) (b : List Byte) (pm : List Bool) : Core :=
  (List.range ((o + b.length + 3) / 4 - o / 4)).foldl (fun c k =>
    let lo := max o (4 * (o / 4 + k))
    let hi := min (o + b.length) (4 * (o / 4 + k) + 4)
    scrMark c lo (hi - lo) (((pm.drop (lo - o)).take (hi - lo)).any id)) (scrPutBytes c o b)

/-- The marks of `n` bytes of the scratchpad, each that of its word. -/
def scrMarks (c : Core) (o n : Nat) : List Bool := (List.range n).map fun i => (scrWord c ((o + i) / 4)).psn

/-- The marks of bytes as those of the words of the line that they go to. -/
def lineMarks (pa : Nat) (pm : List Bool) : BitVec 32 :=
  (pm.zipIdx).foldl (fun m x => if x.1 then m ||| BitVec.ofNat 32 (2 ^ ((pa % 128 + x.2) / 4)) else m) 0

/-- A local access of `n` bytes at a 64-bit offset: the offset of the first byte that fails (R134). -/
def localFault (a : Arch) (o : Word) (n : Nat) : Option Word :=
  if 2 ^ 23 ≤ o.toNat then some o
  else if o.toNat + n ≤ plain a then none
  else if plain a ≤ o.toNat then some o else some (BitVec.ofNat 64 (plain a))

/-! ## The operand store (R62, R63) -/

/-- A lane of the operand store; lane numbers wrap at 131,072. One that holds an uncorrectable error reads marked (R261). -/
def ostLane (c : Core) (i : Nat) : Lane :=
  let x := Sparse.get Lane.zero c.ost (i % 131072)
  if c.badOst.contains (i % 131072) then { x with psn := true } else x

/-- The core with a lane of the operand store written. -/
def putOst (c : Core) (i : Nat) (x : Lane) : Core :=
  { c with ost := Sparse.put Lane.zero c.ost (i % 131072) x, badOst := c.badOst.filter (· != i % 131072) }

/-- The operand-store lane of lane `i` of vector register `n` (R62). -/
def vLane (a : Arch) (n i : Nat) : Nat := 64 * a.vbase.toNat + 64 * n + i

/-- The first operand-store lane of element (i, j) of accumulator `n` under a base (R63). -/
def aLane (abase : BitVec 7) (n i j : Nat) : Nat := 1024 * abase.toNat + 8192 * n + 4 * (32 * i + j)

/-- The lanes of vector register `n`. -/
def readV (c : Core) (n : Nat) : List Lane := (List.range 64).map fun i => ostLane c (vLane c.a n i)

/-- The core with lanes of the operand store written from lane `i` on. -/
def putLanes (c : Core) : Nat → List Lane → Core
  | _, [] => c
  | i, x :: r => putLanes (putOst c i x) (i + 1) r

/-- The core with vector register `n` written, as the view of `a` names it (R62). -/
def writeV (a : Arch) (c : Core) (n : Nat) (v : List Lane) : Core := putLanes c (vLane a n 0) v

/-- The lanes of vector register `n` of a core, as the view of `a` names it. -/
def readVAs (a : Arch) (c : Core) (n : Nat) : List Lane := (List.range 64).map fun i => ostLane c (vLane a n i)

/-! ## Instruction fetch (R35, R167, R312) -/

/-- The word at an address as it would issue, or the trap it raises instead: ILLEGAL_ADDR for a launch entry with one of bits 63:56 set, the only
program counter that can have one (R35), then the segment and the page (R167, R312). The spec gives no coherence rule for the instruction
caches: the word is the one that memory holds now (log 51). -/
def fetchWord (s : State) (ci : Nat) (va : Word) : Except Trap Word32 :=
  let c := getCore s ci
  let g := curSeg s c
  if 2 ^ 56 ≤ va.toNat then .error (mkTrap 0x10 0 va)
  else if !g.v then .error (mkTrap 0x39 2 va)
  else if !inSeg g va then .error (mkTrap 0x39 0 va)
  else match transTarget s ci va .fetch with
    | .error t => .error t
    | .ok (.dev pa, _) =>
        if homeMarked s (partOf c) pa 4 then .error (mkTrap 0x20 5 va) else .ok (BitVec.ofNat 32 (leNat (memBytes s.mem pa 4)))
    | .ok (_, _) => .error (mkTrap 0x16 2 va)

end Sys2Proof.Machine
end

