-- ==== Sys2Proof/Machine/Load.lean ====
section
/-! DEFINITION. A program placed from outside the machine (log 14): a unit on core 0 with an identity-mapped segment of code, and one
instruction at its program counter. -/

namespace Sys2Proof.Machine

/-- Where the placed instruction lies. -/
def placePc : Nat := 0x10000

/-- The mode, cluster and slot in which a major is placed: those that the clusters table allows (R50). -/
def placeAt (maj : Nat) : Mode × Cluster :=
  if maj = 0x11 ∨ maj = 0x18 then (.joint, .c)
  else if 0x20 ≤ maj ∧ maj ≤ 0x28 then (.split, .l)
  else if 0x30 ≤ maj ∧ maj ≤ 0x5A then (.split, .k)
  else if 0x60 ≤ maj ∧ maj ≤ 0x68 then (.split, .s)
  else (.split, .c)

/-- The bytes that are placed: the instruction and its literal word, or a bundle of it and three `nop`. -/
def placeBytes (m : Mode) (w : Nat) : List Byte :=
  match m with
  | .split => natBytes 8 w
  | .joint => natBytes 4 w ++ natBytes 4 0xF0000000 ++ natBytes 4 0xF0000000 ++ natBytes 4 0xF0000000

/-- Three tables that map the first 32 GiB to themselves, readable, writable and executable (R165, R166). -/
def placeTables (m : List Host.Cell) : List Host.Cell :=
  memWrite (memWrite (memWrite m 0x100000 (natBytes 8 (0x102000 + 1))) 0x102000 (natBytes 8 (0x104000 + 1))) 0x104000 (natBytes 8 0x3B)

/-- The segment of the placed unit, with SYS and FW so that every word may issue (R311, R313). -/
def placeSeg : Seg := { base := BitVec.ofNat 64 placePc, len := 0x10000, gate := 0, toff := 0, eoff := 0, fw := true, sys := true, ev := false, v := true }

/-- The placed unit. -/
def placeUnit : UnitInfo :=
  { part := 0, asn := 0, launch := 0, index := 0, prio := 0, arrive := 0, start := 0, seg := 0, committed := false, localw := 0,
    record := none, err := none, gang := none }

/-- The core that runs the placed instruction. -/
def placeCore (m : Mode) : Core :=
  { Core.zero with unit := some placeUnit, run := .running,
                   a := { Arch.zero with mode := m, pc := Vector.replicate 4 (BitVec.ofNat 64 placePc) },
                   snap := { Arch.zero with mode := m, pc := Vector.replicate 4 (BitVec.ofNat 64 placePc) } }

/-- Sectors that hold the placed bytes and tables. -/
def placeSectors : List Nat := [0x10000 / 256, 0x100000 / 256, 0x102000 / 256, 0x104000 / 256]

/-- The package with the unit, its tables and the instruction `w` in place, and the issue of it the next move. -/
def placeWord (s : State) (w : Nat) : State :=
  let (m, cl) := placeAt (w % 2 ^ 32 / 2 ^ 25)
  let p := getPart s 0
  let s1 := putPart (putCore s 0 (placeCore m)) 0
    { p with segs := vset p.segs 0 placeSeg, asds := Sparse.put 0 p.asds 0 (0x100001 : Word) }
  let d := getDie s1 0
  { putDie s1 0 { d with up := true, walkCache := [] } with
    mem := memWrite (placeTables s.mem) placePc (placeBytes m w), poisoned := s.poisoned.filter fun x => !placeSectors.contains x,
    faulty := placeSectors.foldl (fun f x => Sparse.put none f x none) s.faulty, bundle := none, alarm := .none,
    agenda := [{ act := .issue 0 cl, ns := 0, cc := 0 }] }

end Sys2Proof.Machine
end

