-- ==== Sys2Proof/Machine/Fp.lean ====
section
/-! DEFINITION. Number formats and rounding (R80 to R97): values as exact dyadic numbers, one rounding function for every format and mode,
and the arithmetic and conversions that use it. No unit flushes subnormals; tininess is detected after rounding (R95). -/

namespace Sys2Proof.Machine

/-- A rounding mode from its code; code 7 and the reserved codes name none (R93). -/
def rmodeOf (m : Nat) : Option RMode :=
  match m with
  | 0 => some .rne | 1 => some .rtz | 2 => some .rdn | 3 => some .rup | 4 => some .rmm | _ => none

/-- The mode that FRM holds (R94). -/
def frmMode (a : Arch) : RMode := match rmodeOf a.frm.toNat with | some r => r | none => .rne

/-- The mode of an instruction field: static, or FRM for code 7 (R93). -/
def modeOf (a : Arch) (m : BitVec 3) : RMode := match rmodeOf m.toNat with | some r => r | none => frmMode a

/-- An IEEE-style format: exponent and fraction widths and bias; E4M3 has no infinity and one NaN fraction; FP6 and FP4 have neither (R80,
R81). -/
structure Fmt where
  ew : Nat
  fw : Nat
  bias : Nat
  inf : Bool
  nan : Bool
  cnan : Nat
  poison : Nat
deriving DecidableEq, Repr

/-- FP64. Its poison has no encoding of its own and is written as the canonical NaN (R129). -/
def fF64 : Fmt := { ew := 11, fw := 52, bias := 1023, inf := true, nan := true, cnan := 0x7FF8000000000000, poison := 0x7FF8000000000000 }
/-- FP32. -/
def fF32 : Fmt := { ew := 8, fw := 23, bias := 127, inf := true, nan := true, cnan := 0x7FC00000, poison := 0x7FE5A5A5 }
/-- BF16. -/
def fBF16 : Fmt := { ew := 8, fw := 7, bias := 127, inf := true, nan := true, cnan := 0x7FC0, poison := 0x7FE5 }
/-- FP16. -/
def fF16 : Fmt := { ew := 5, fw := 10, bias := 15, inf := true, nan := true, cnan := 0x7E00, poison := 0x7E5A }
/-- E5M2. -/
def fE5M2 : Fmt := { ew := 5, fw := 2, bias := 15, inf := true, nan := true, cnan := 0x7F, poison := 0x7E }
/-- E4M3. -/
def fE4M3 : Fmt := { ew := 4, fw := 3, bias := 7, inf := false, nan := true, cnan := 0x7F, poison := 0xFF }
/-- FP6 (E3M2). -/
def fFP6 : Fmt := { ew := 3, fw := 2, bias := 3, inf := false, nan := false, cnan := 0, poison := 0 }
/-- FP4 (E2M1). -/
def fFP4 : Fmt := { ew := 2, fw := 1, bias := 1, inf := false, nan := false, cnan := 0, poison := 0 }

/-- A value: NaN (signalling or quiet), an infinity, or a finite number (−1)^neg · mant · 2^exp, with its sign kept for zero. -/
inductive Fv where
  | nan (sig : Bool)
  | inf (neg : Bool)
  | fin (neg : Bool) (mant : Nat) (exp : Int)
deriving DecidableEq, Repr

/-- The width of a format. -/
def Fmt.width (f : Fmt) : Nat := 1 + f.ew + f.fw

/-- The value of an encoding (R81, R82). -/
def decodeF (f : Fmt) (v : Nat) : Fv :=
  let s := v / 2 ^ (f.ew + f.fw) % 2 == 1
  let e := v / 2 ^ f.fw % 2 ^ f.ew
  let m := v % 2 ^ f.fw
  let top := e == 2 ^ f.ew - 1
  if top && f.inf then (if m = 0 then .inf s else .nan (m < 2 ^ (f.fw - 1)))
  else if top && f.nan && m == 2 ^ f.fw - 1 then .nan false
  else if e = 0 then .fin s m (1 - (f.bias : Int) - f.fw)
  else .fin s (m + 2 ^ f.fw) ((e : Int) - f.bias - f.fw)

/-- Status flags (R97). -/
structure Flg where
  sat : Bool := false
  subst : Bool := false
  nv : Bool := false
  dz : Bool := false
  of : Bool := false
  uf : Bool := false
  nx : Bool := false
deriving DecidableEq, Repr

/-- Flags combined by OR (R98). -/
def Flg.or (a b : Flg) : Flg :=
  { sat := a.sat || b.sat, subst := a.subst || b.subst, nv := a.nv || b.nv, dz := a.dz || b.dz, of := a.of || b.of, uf := a.uf || b.uf,
    nx := a.nx || b.nx }

/-- The USTAT bits of flags (R97). -/
def Flg.bits (f : Flg) : BitVec 8 :=
  BitVec.ofNat 8 (128 * b2n f.sat + 64 * b2n f.subst + 16 * b2n f.nv + 8 * b2n f.dz + 4 * b2n f.of + 2 * b2n f.uf + b2n f.nx)

/-- Whether a mode rounds up in magnitude, given the sign, the parity of the kept part, and the dropped part against a half. -/
def roundsUp (r : RMode) (neg odd : Bool) (half : Ordering) (exact : Bool) : Bool :=
  if exact then false
  else match r with
    | .rne => half == .gt || (half == .eq && odd)
    | .rtz => false
    | .rdn => neg
    | .rup => !neg
    | .rmm => half != .lt

/-- A magnitude `m · 2^e`, with a sticky part below it, rounded to a multiple of 2^q: the multiple and whether it is inexact. -/
def roundAt (r : RMode) (neg : Bool) (m : Nat) (sticky : Bool) (e q : Int) : Nat × Bool :=
  if q ≤ e then
    if sticky then
      let k := m * 2 ^ (e - q).toNat
      (if roundsUp r neg (k % 2 == 1) .lt false then k + 1 else k, true)
    else (m * 2 ^ (e - q).toNat, false)
  else
    let d := (q - e).toNat
    let k := m / 2 ^ d
    let rem := m % 2 ^ d
    let exact := rem == 0 && !sticky
    let half := match compare rem (2 ^ (d - 1)) with
      | .eq => if sticky then .gt else .eq
      | o => o
    (if roundsUp r neg (k % 2 == 1) half exact then k + 1 else k, !exact)

/-- The position of the top bit of a nonzero number. -/
def topBit (m : Nat) : Nat := Nat.log2 m

/-- A finite nonzero magnitude rounded to a format (R95, R96): the encoding without sign handling of special values, and flags. `sticky` says
that the exact value lies strictly between `m` and `m + 1` units of 2^e; the caller then gives `m` at least two bits more than the
format keeps. -/
def roundF (f : Fmt) (r : RMode) (neg : Bool) (m : Nat) (sticky : Bool) (e : Int) : Nat × Flg :=
  let sgn := if neg then 2 ^ (f.ew + f.fw) else 0
  if m = 0 then (sgn, {})
  else
    let emin : Int := 1 - (f.bias : Int)
    let top : Int := e + topBit m
    let q : Int := max (top - f.fw) (emin - f.fw)
    let (k, nx) := roundAt r neg m sticky e q
    -- tininess after rounding: with unbounded exponent the rounded value lies below 2^emin
    let (k', _) := roundAt r neg m sticky e (top - f.fw)
    let tiny := decide (top + (if k' = 2 ^ (f.fw + 1) then 1 else 0) < emin)
    let q' := if k = 2 ^ (f.fw + 1) then q + 1 else q
    let k2 := if k = 2 ^ (f.fw + 1) then 2 ^ f.fw else k
    let ebits : Int := if k2 < 2 ^ f.fw then 0 else q' + f.fw + f.bias
    let emax : Nat := if f.inf then 2 ^ f.ew - 2 else 2 ^ f.ew - 1
    let ovf := decide ((emax : Int) < ebits) || (!f.inf && f.nan && decide (ebits = (emax : Int)) && k2 == 2 ^ (f.fw + 1) - 1)
    if ovf then
      if f.inf then
        let toInf := match r with | .rne => true | .rmm => true | .rtz => false | .rdn => neg | .rup => !neg
        (sgn + (if toInf then (2 ^ f.ew - 1) * 2 ^ f.fw else (2 ^ f.ew - 1) * 2 ^ f.fw - 1), { of := true, nx := true })
      else (sgn + ((2 ^ f.ew - 1) * 2 ^ f.fw + 2 ^ f.fw - 2), { of := true, nx := true, sat := true })
    else
      let enc := if k2 < 2 ^ f.fw then k2 else (ebits.toNat) * 2 ^ f.fw + (k2 - 2 ^ f.fw)
      (sgn + enc, { uf := tiny && nx, nx := nx })

/-- The encoding of an infinity in a format; E4M3 gives ±448 with NX and SAT (R96). -/
def infF (f : Fmt) (neg : Bool) : Nat × Flg :=
  let sgn := if neg then 2 ^ (f.ew + f.fw) else 0
  if f.inf then (sgn + (2 ^ f.ew - 1) * 2 ^ f.fw, {})
  else (sgn + ((2 ^ f.ew - 1) * 2 ^ f.fw + 2 ^ f.fw - 2), { nx := true, sat := true })

/-- A zero of a sign. -/
def zeroF (f : Fmt) (neg : Bool) : Nat := if neg then 2 ^ (f.ew + f.fw) else 0

/-- The canonical NaN with NV if asked. -/
def nanF (f : Fmt) (nv : Bool) : Nat × Flg := (f.cnan, { nv := nv })

/-- Whether a value is a signalling NaN. -/
def Fv.isSig : Fv → Bool
  | .nan b => b
  | _ => false

/-- Whether a value is a NaN. -/
def Fv.isNan : Fv → Bool
  | .nan _ => true
  | _ => false

/-- A finite value as an integer multiple of 2^e, e no greater than its own exponent. -/
def fvInt (neg : Bool) (m : Nat) (x e : Int) : Int :=
  let v : Int := (m * 2 ^ (x - e).toNat : Nat)
  if neg then -v else v

/-- The sum of two finite values: sign, magnitude and exponent; an exact zero sum of opposite signs is negative only under RDN (IEEE 754). -/
def addFin (r : RMode) (na : Bool) (ma : Nat) (ea : Int) (nb : Bool) (mb : Nat) (eb : Int) : Bool × Nat × Int :=
  let e := min ea eb
  let s := fvInt na ma ea e + fvInt nb mb eb e
  if s = 0 then ((if na == nb then na else r == .rdn), 0, e)
  else (decide (s < 0), s.natAbs, e)

/-- The value rounded into a format. -/
def packF (f : Fmt) (r : RMode) (v : Fv) : Nat × Flg :=
  match v with
  | .nan sig => nanF f sig
  | .inf n => infF f n
  | .fin n m e => roundF f r n m false e

/-- The exact sum of two values, none for a NaN result: an operand that is NaN, or infinities of opposite sign. -/
def addV (r : RMode) (a b : Fv) : Option Fv :=
  match a, b with
  | .nan _, _ => none
  | _, .nan _ => none
  | .inf x, .inf y => if x == y then some (.inf x) else none
  | .inf x, .fin .. => some (.inf x)
  | .fin .., .inf y => some (.inf y)
  | .fin na ma ea, .fin nb mb eb => let (n, m, e) := addFin r na ma ea nb mb eb; some (.fin n m e)

/-- The exact product of two values, none for a NaN result: an operand that is NaN, or zero times infinity. -/
def mulV (a b : Fv) : Option Fv :=
  match a, b with
  | .nan _, _ => none
  | _, .nan _ => none
  | .inf x, .inf y => some (.inf (x != y))
  | .inf x, .fin n m _ => if m = 0 then none else some (.inf (x != n))
  | .fin n m _, .inf y => if m = 0 then none else some (.inf (n != y))
  | .fin na ma ea, .fin nb mb eb => some (.fin (na != nb) (ma * mb) (ea + eb))

/-- A value with its sign inverted. -/
def negV : Fv → Fv
  | .nan s => .nan s
  | .inf n => .inf (!n)
  | .fin n m e => .fin (!n) m e

/-- The result of an operation whose value is exact: NV for a signalling operand or an invalid operation. -/
def finish1 (f : Fmt) (r : RMode) (ops : List Fv) (v : Option Fv) : Nat × Flg :=
  match v with
  | none => nanF f (ops.any Fv.isSig || ops.all (fun x => !x.isNan))
  | some v => packF f r v

/-- Addition. -/
def fAdd (f : Fmt) (r : RMode) (a b : Nat) : Nat × Flg :=
  let x := decodeF f a; let y := decodeF f b
  finish1 f r [x, y] (addV r x y)

/-- Subtraction. -/
def fSub (f : Fmt) (r : RMode) (a b : Nat) : Nat × Flg :=
  let x := decodeF f a; let y := decodeF f b
  finish1 f r [x, y] (addV r x (negV y))

/-- Multiplication. -/
def fMul (f : Fmt) (r : RMode) (a b : Nat) : Nat × Flg :=
  let x := decodeF f a; let y := decodeF f b
  finish1 f r [x, y] (mulV x y)

/-- Fused a × b + c on values, with one rounding (R95). Zero times infinity is invalid whatever c is. -/
def fmaV (f : Fmt) (r : RMode) (x y z : Fv) : Nat × Flg :=
  match mulV x y with
  | none =>
    if x.isNan || y.isNan then nanF f (x.isSig || y.isSig || z.isSig) else nanF f true
  | some p => match addV r p z with
    | none => nanF f (z.isSig || !z.isNan)
    | some v => packF f r v

/-- Fused multiply-add. -/
def fFma (f : Fmt) (r : RMode) (a b c : Nat) : Nat × Flg := fmaV f r (decodeF f a) (decodeF f b) (decodeF f c)

/-- Division, with enough quotient bits and a sticky remainder; a finite nonzero value over zero sets DZ (R97). -/
def divV (f : Fmt) (r : RMode) (x y : Fv) : Nat × Flg :=
  match x, y with
  | .nan _, _ => nanF f (x.isSig || y.isSig)
  | _, .nan _ => nanF f y.isSig
  | .inf _, .inf _ => nanF f true
  | .inf n, .fin m _ _ => infF f (n != m)
  | .fin n _ _, .inf m => (zeroF f (n != m), {})
  | .fin na ma ea, .fin nb mb eb =>
    if mb = 0 then (if ma = 0 then nanF f true else let (v, g) := infF f (na != nb); (v, { g with dz := true }))
    else if ma = 0 then (zeroF f (na != nb), {})
    else
      let sh := f.fw + 4 + topBit mb
      let q := ma * 2 ^ sh / mb
      roundF f r (na != nb) q (ma * 2 ^ sh % mb != 0) (ea - eb - sh)

/-- Division of encodings. -/
def fDiv (f : Fmt) (r : RMode) (a b : Nat) : Nat × Flg := divV f r (decodeF f a) (decodeF f b)

/-- The integer square root, one bit at a time from bit `b` down. -/
def isqrtGo (n : Nat) : Nat → Nat → Nat
  | 0, r => if (r + 1) * (r + 1) ≤ n then r + 1 else r
  | b + 1, r => isqrtGo n b (if (r + 2 ^ (b + 1)) * (r + 2 ^ (b + 1)) ≤ n then r + 2 ^ (b + 1) else r)

/-- The integer square root. -/
def isqrt (n : Nat) : Nat := isqrtGo n (Nat.log2 n / 2 + 1) 0

/-- Square root: −0 gives −0, a negative value is invalid. -/
def sqrtV (f : Fmt) (r : RMode) (x : Fv) : Nat × Flg :=
  match x with
  | .nan s => nanF f s
  | .inf n => if n then nanF f true else infF f false
  | .fin n m e =>
    if m = 0 then (zeroF f n, {})
    else if n then nanF f true
    else
      let sh := 2 * (f.fw + 4) + (if e % 2 = 0 then 0 else 1)
      let v := m * 2 ^ sh
      let q := isqrt v
      roundF f r false q (q * q != v) ((e - sh) / 2)

/-- Square root of an encoding. -/
def fSqrt (f : Fmt) (r : RMode) (a : Nat) : Nat × Flg := sqrtV f r (decodeF f a)

/-- The order of two values that are not NaN, −0 equal to +0. -/
def cmpV (x y : Fv) : Ordering :=
  match x, y with
  | .nan _, _ => .eq
  | _, .nan _ => .eq
  | .inf a, .inf b => if a == b then .eq else if a then .lt else .gt
  | .inf a, .fin .. => if a then .lt else .gt
  | .fin .., .inf b => if b then .gt else .lt
  | .fin na ma ea, .fin nb mb eb => let e := min ea eb; compare (fvInt na ma ea e) (fvInt nb mb eb e)

/-- The sign of a value. -/
def Fv.neg : Fv → Bool
  | .nan _ => false
  | .inf n => n
  | .fin n _ _ => n

/-- minimumNumber and maximumNumber with −0 below +0 (R129): a single NaN gives the other operand, two give the canonical NaN; a signalling
NaN sets NV. -/
def fMinMax (f : Fmt) (isMax : Bool) (a b : Nat) : Nat × Flg :=
  let x := decodeF f a; let y := decodeF f b
  let g : Flg := { nv := x.isSig || y.isSig }
  if x.isNan && y.isNan then (f.cnan, g)
  else if x.isNan then (b, g)
  else if y.isNan then (a, g)
  else
    let aFirst := match cmpV x y with
      | .lt => true
      | .gt => false
      | .eq => x.neg || !y.neg
    (if aFirst != isMax then a else b, g)

/-- The comparisons: equality is quiet, the orders set NV on any NaN (R129). Codes 0 eq, 1 lt, 2 le. -/
def fCmp (f : Fmt) (code a b : Nat) : Bool × Flg :=
  let x := decodeF f a; let y := decodeF f b
  if x.isNan || y.isNan then (false, { nv := if code = 0 then x.isSig || y.isSig else true })
  else
    let o := cmpV x y
    (match code with | 0 => o == .eq | 1 => o == .lt | _ => o != .gt, {})

/-- The class code of an encoding (R131). -/
def fClass (f : Fmt) (v : Nat) : Nat :=
  match decodeF f v with
  | .nan true => 9
  | .nan false => 8
  | .inf n => if n then 7 else 6
  | .fin n m _ =>
    let s := b2n n
    if m = 0 then s else if m < 2 ^ f.fw ∧ v / 2 ^ f.fw % 2 ^ f.ew = 0 then 2 + s else 4 + s

/-- Conversion between float formats with one rounding (R96): poison is the caller's. -/
def fCvt (src dst : Fmt) (r : RMode) (v : Nat) : Nat × Flg := packF dst r (decodeF src v)

/-- A magnitude `m · 2^e` rounded to an integer. -/
def roundInt (r : RMode) (n : Bool) (m : Nat) (e : Int) : Int × Bool :=
  let (k, nx) := roundAt r n m false e 0
  (if n then -(k : Int) else k, nx)

/-- Conversion of a value to an integer of `w` bits (R96): the integer and flags. -/
def toIntV (signed : Bool) (w : Nat) (r : RMode) (v : Fv) : Int × Flg :=
  let lo : Int := if signed then -(2 ^ (w - 1) : Nat) else 0
  let hi : Int := if signed then (2 ^ (w - 1) : Nat) - 1 else (2 ^ w : Nat) - 1
  match v with
  | .nan _ => (0, { nv := true })
  | .inf n => (if n then lo else hi, { nv := true })
  | .fin n m e =>
    let (k, nx) := roundInt r n m e
    if k < lo then (lo, { nv := true }) else if hi < k then (hi, { nv := true }) else (k, { nx := nx })

/-- Conversion of an integer to a float format (R96). -/
def ofIntF (f : Fmt) (r : RMode) (i : Int) : Nat × Flg := roundF f r (decide (i < 0)) i.natAbs false 0

/-- Rounding of a float to an integral value of its own format; NaN gives the canonical NaN. -/
def fRint (f : Fmt) (r : RMode) (v : Nat) : Nat × Flg :=
  match decodeF f v with
  | .nan s => nanF f s
  | .inf n => infF f n
  | .fin n m e =>
    let (k, nx) := roundAt r n m false e 0
    let (x, _) := roundF f r n k false 0
    (x, { nx := nx })

/-- The widening of an FP4 or FP6 code to E4M3 (R84). -/
def widen (f : Fmt) (v : Nat) : Nat := (packF fE4M3 .rne (decodeF f v)).1

/-! ## E80 (R89 to R91) -/

/-- An accumulator element: poison, inexact-sticky, and its value; a non-canonical encoding is the NaN, −0 reads as +0 (R90). -/
structure Acc where
  psn : Bool
  inx : Bool
  val : Fv
deriving DecidableEq, Repr

/-- The element that the 128 bits of the operand store hold (R89, R90). A NaN whose top fraction bit is 0 is signalling (R82). -/
def accOf (v : Nat) : Acc :=
  let e : Nat := v / 2 ^ 64 % 2 ^ 15
  let m : Nat := v % 2 ^ 64
  let n := v / 2 ^ 79 % 2 == 1
  let j := m / 2 ^ 63 == 1
  let val : Fv :=
    if e = 0 then (if j then .nan false else .fin (n && m != 0) m (-16382 - 63))
    else if !j then .nan false
    else if e = 0x7FFF then (if m = 2 ^ 63 then .inf n else .nan (m / 2 ^ 62 % 2 == 0))
    else .fin n m ((e : Int) - 16383 - 63)
  { psn := v / 2 ^ 80 % 2 == 1, inx := v / 2 ^ 81 % 2 == 1, val := val }

/-- Rounding to E80: 64 significand bits, to nearest even, subnormals kept, overflow to infinity (R91). The result is exact or not. -/
def roundE80 (v : Fv) : Fv × Bool :=
  match v with
  | .nan s => (.nan s, true)
  | .inf n => (.inf n, true)
  | .fin n m e =>
    if m = 0 then (.fin false 0 (-16445), true)
    else
      let q : Int := max (e + topBit m - 63) (-16382 - 63)
      let (k, nx) := roundAt .rne n m false e q
      let (k, q) := if k = 2 ^ 64 then (2 ^ 63, q + 1) else (k, q)
      if q + 63 > 16383 then (.inf n, false) else (.fin n k q, !nx)

/-- The bits 79:0 of a value that E80 holds exactly. -/
def packE80 (v : Fv) : Nat :=
  match v with
  | .nan _ => 0x7FFF * 2 ^ 64 + 0xC000000000000000
  | .inf n => b2n n * 2 ^ 79 + 0x7FFF * 2 ^ 64 + 2 ^ 63
  | .fin n m e =>
    if m = 0 then 0
    else
      let t := topBit m
      let top : Int := e + t
      if top < -16382 then b2n n * 2 ^ 79 + m * 2 ^ (e + 16445).toNat
      else b2n n * 2 ^ 79 + (top + 16383).toNat * 2 ^ 64 + (if t ≤ 63 then m * 2 ^ (63 - t) else m / 2 ^ (t - 63))

/-- The 128 bits that the engine writes for an element: the poison element has the canonical NaN in bits 79:0 (R90). -/
def accBits (a : Acc) : Nat :=
  b2n a.inx * 2 ^ 81 + b2n a.psn * 2 ^ 80 + (if a.psn then packE80 (.nan false) else packE80 a.val)

/-- One accumulation step of R91: the product of two operand values added to an element. -/
def accStep (acc : Acc) (a b : Fv) (psn : Bool) : Acc :=
  if psn || acc.psn then { acc with psn := true }
  else match acc.val with
    | .nan _ => acc
    | _ =>
      match mulV a b with
      | none => { acc with val := .nan false }
      | some p =>
        let p := match p with | .fin _ 0 e => Fv.fin false 0 e | x => x
        match addV .rne acc.val p with
        | none => { acc with val := .nan false }
        | some (.fin _ 0 _) => { acc with val := .fin false 0 (-16445) }
        | some s =>
          let (v, exact) := roundE80 s
          { acc with val := v, inx := acc.inx || !exact }

end Sys2Proof.Machine
end

