-- ==== Sys2Proof/Machine/Shep.lean ====
section
/-! DEFINITION. The Shepherd's slots (R297 to R304): declarations, the surrogate store, the network and its training, and what a commit does
to the slots. -/

namespace Sys2Proof.Machine

/-! ## Declarations (R297, R298) -/

/-- OBUF. -/
def shObuf (d : BitVec 256) : Nat := fieldOf d 0 23
/-- WOFF. -/
def shWoff (d : BitVec 256) : Nat := fieldOf d 32 14
/-- SAMP. -/
def shSamp (d : BitVec 256) : Nat := fieldOf d 48 16
/-- NI. -/
def shNi (d : BitVec 256) : Nat := fieldOf d 64 6 + 1
/-- NO. -/
def shNo (d : BitVec 256) : Nat := fieldOf d 72 6 + 1
/-- H1. -/
def shH1 (d : BitVec 256) : Nat := fieldOf d 80 6 + 1
/-- H2. -/
def shH2 (d : BitVec 256) : Nat := fieldOf d 88 7
/-- ACT. -/
def shAct (d : BitVec 256) : Bool := bitOf d 95
/-- VI. -/
def shVi (d : BitVec 256) : Nat := fieldOf d 96 6
/-- VO. -/
def shVo (d : BitVec 256) : Nat := fieldOf d 104 6
/-- EPOCHS. -/
def shEpochs (d : BitVec 256) : Nat := fieldOf d 112 8
/-- LR. -/
def shLr (d : BitVec 256) : Nat := fieldOf d 128 32

/-- The layers of a network: inputs and units of each. -/
def shLayers (d : BitVec 256) : List (Nat × Nat) :=
  if shH2 d = 0 then [(shNi d, shH1 d), (shH1 d, shNo d)] else [(shNi d, shH1 d), (shH1 d, shH2 d), (shH2 d, shNo d)]

/-- The weight count W. -/
def shWords (d : BitVec 256) : Nat := (shLayers d).foldl (fun n l => n + l.2 * (l.1 + 1)) 0

/-- A slot. -/
def shOf (a : Arch) (k : Nat) : ShSlot := vget a.shep ShSlot.zero k

/-- A slot replaced. -/
def putSh (a : Arch) (k : Nat) (x : ShSlot) : Arch := { a with shep := vset a.shep k x }

/-- A word of the surrogate store. -/
def storeWord (c : Core) (k : Nat) : Nat := (Sparse.get 0 c.sstore k).toNat

/-- The core with words of the surrogate store written from word `k` on. -/
def putStore (c : Core) (k : Nat) (l : List Word32) : Core :=
  { c with sstore := l.zipIdx.foldl (fun m x => Sparse.put 0 m (k + x.2) x.1) c.sstore }

/-! ## Arithmetic (R301) -/

/-- FP32 sum, to nearest even without flags. -/
def rAdd (a b : Nat) : Nat := (fAdd fF32 .rne a b).1
/-- FP32 difference. -/
def rSub (a b : Nat) : Nat := (fSub fF32 .rne a b).1
/-- FP32 product. -/
def rMul (a b : Nat) : Nat := (fMul fF32 .rne a b).1
/-- FP32 quotient. -/
def rDiv (a b : Nat) : Nat := (fDiv fF32 .rne a b).1
/-- Fused a × b + c. -/
def rFma (a b c : Nat) : Nat := (fFma fF32 .rne a b c).1
/-- FP32 `a ≤ b`, false for a NaN. -/
def rLe (a b : Nat) : Bool := (fCmp fF32 2 a b).1
/-- FP32 `a < b`, false for a NaN. -/
def rLt (a b : Nat) : Bool := (fCmp fF32 1 a b).1
/-- An FP32 encoding without its sign. -/
def rAbs (a : Nat) : Nat := a % 2 ^ 31
/-- Whether an FP32 encoding is finite. -/
def rFinite (a : Nat) : Bool := match decodeF fF32 a with | .fin .. => true | _ => false

/-- The hidden activation. -/
def shF (act : Bool) (z : Nat) : Nat :=
  if !act then (if (decodeF fF32 z).isNan || rLt 0 z then z else 0)
  else if rLe 0x40400000 (rAbs z) then (if z / 2 ^ 31 % 2 = 1 then 0xBF800000 else 0x3F800000)
  else
    let u := rMul z z
    rDiv (rMul z (rAdd 0x41D80000 u)) (rAdd 0x41D80000 (rMul 0x41100000 u))

/-- The derivative of the hidden activation. -/
def shDf (act : Bool) (z : Nat) : Nat :=
  if !act then (if rLt 0 z then 0x3F800000 else 0)
  else if rLe 0x40400000 (rAbs z) then 0
  else
    let u := rMul z z
    let g := rDiv (rSub 0x41100000 u) (rMul 0x40400000 (rAdd 0x40400000 u))
    rMul g g

/-! ## The network (R302) -/

/-- The weights of the layers of a network from word `o` on: bias and weights of each unit. -/
def shWeights (c : Core) : Nat → List (Nat × Nat) → List (List (List Nat))
  | _, [] => []
  | o, (n, u) :: r =>
    ((List.range u).map fun j => (List.range (n + 1)).map fun i => storeWord c (o + j * (n + 1) + i)) :: shWeights c (o + u * (n + 1)) r

/-- z of one unit: its bias and the products in ascending order. -/
def unitZ (w a : List Nat) : Nat :=
  match w with
  | [] => 0
  | b :: ws => (ws.zip a).foldl (fun z x => rFma x.1 x.2 z) b

/-- The forward pass: for each layer its inputs and its z; the output layer is linear. -/
def shPass (act : Bool) : List (List (List Nat)) → List Nat → List (List Nat × List Nat)
  | [], _ => []
  | l :: r, a =>
    let z := l.map fun w => unitZ w a
    (a, z) :: shPass act r (z.map (shF act))

/-- The output of a network: z of its last layer. -/
def shForward (c : Core) (d : BitVec 256) (x : List Nat) : List Nat :=
  match (shPass (shAct d) (shWeights c (shWoff d) (shLayers d)) x).getLast? with
  | some l => l.2
  | none => []

/-- The deltas of each layer, from the first, for the deltas of the output layer. -/
def shBack (act : Bool) (out : List Nat) : List (List (List Nat)) → List (List Nat × List Nat) → List (List Nat)
  | _ :: w :: ws, p :: ps =>
    let rest := shBack act out (w :: ws) ps
    let next := nth [] rest 0
    (p.2.zipIdx.map fun z => rMul ((w.zip next).foldl (fun s x => rFma (nth 0 x.1 (z.2 + 1)) x.2 s) 0) (shDf act z.1)) :: rest
  | _, _ => [out]

/-- The gradients of a network with those of one pair added. -/
def shAccum (g : List (List (List Nat))) (d : List (List Nat)) (p : List (List Nat × List Nat)) : List (List (List Nat)) :=
  (g.zip (d.zip p)).map fun l =>
    (l.1.zip l.2.1).map fun u =>
      match u.1 with
      | [] => []
      | b :: ws => rAdd b u.2 :: (ws.zip l.2.2.1).map fun x => rFma u.2 x.2 x.1

/-- Words of the plain scratchpad as numbers. -/
def scrWords (c : Core) (o n : Nat) : List Nat := (List.range n).map fun i => scrNat c (o + 4 * i) 4

/-- Pair `p` of a slot's buffer: inputs and outputs (R303). -/
def shPair (c : Core) (d : BitVec 256) (p : Nat) : List Nat × List Nat :=
  let o := shObuf d + p * (shNi d + shNo d) * 4
  (scrWords c o (shNi d), scrWords c (o + 4 * shNi d) (shNo d))

/-- The gradients of one training step, in store order: batch TSTEP mod 7 of the training pairs (R302, R303). -/
def shTrain (c : Core) (x : ShSlot) : List Word32 :=
  let d := x.decl
  let ws := shWeights c (shWoff d) (shLayers d)
  let pairs := ((List.range 256).filter fun p => p % 8 != 7).drop (32 * (x.tstep % 7)) |>.take 32
  let g := pairs.foldl (fun g p =>
    let xt := shPair c d p
    let ps := shPass (shAct d) ws xt.1
    let y := match ps.getLast? with | some l => l.2 | none => []
    shAccum g (shBack (shAct d) ((y.zip xt.2).map fun z => rSub z.1 z.2) ws ps) ps) (ws.map fun l => l.map fun u => u.map fun _ => 0)
  g.flatMap fun l => l.flatMap fun u => u.map (BitVec.ofNat 32)

/-- The error of outputs against their targets: the largest difference, or +∞ for a NaN (R303). -/
def shErr (y t : List Nat) : Nat :=
  let l := (y.zip t).map fun z => rAbs (rSub z.1 z.2)
  if l.any fun v => (decodeF fF32 v).isNan then 0x7F800000 else l.foldl (fun m v => if rLt m v then v else m) 0

/-- EMEAN after one more error. -/
def shMean (m e : Nat) : Nat := rFma 0x3D800000 (rSub e m) m

/-- A validation: whether it passes, and the final EMEAN (R303). -/
def shValidate (c : Core) (x : ShSlot) : Bool × Word32 :=
  let es := (List.range 32).map fun k => let p := shPair c x.decl (8 * k + 7); shErr (shForward c x.decl p.1) p.2
  let m := match es with | [] => 0 | e :: r => r.foldl shMean e
  (es.all (fun e => rLe e c.a.shmaxe.toNat) && rLe m c.a.shmean.toNat, BitVec.ofNat 32 m)

/-! ## Commit (R300, R304) -/

/-- TRAIN begun; a training of no epochs goes straight to CANDIDATE. -/
def enterTrain (x : ShSlot) (retr : Nat) : ShSlot :=
  { x with retr := retr, tstep := 0, st := if shEpochs x.decl = 0 then .candidate else .train }

/-- The weights of a slot after an update: w − e × G with e = R(LR × 2⁻⁵). -/
def shUpdate (c : Core) (d : BitVec 256) (g : List Word32) : List Word32 :=
  let e := rMul (shLr d) 0x3D000000
  g.zipIdx.map fun x => BitVec.ofNat 32 (rFma ((e + 2 ^ 31) % 2 ^ 32) x.1.toNat (storeWord c (shWoff d + x.2)))

/-- Step 1: the result of a completed operation applied, to a slot that is still in the state that asked for it. -/
def applyShRun (c : Core) : Core :=
  match c.shrun with
  | .trained k g =>
    let x := shOf c.a k
    let c1 := { c with shrun := .none }
    if x.st = .train then
      let w := shUpdate c x.decl g
      if w.all fun v => rFinite v.toNat then { putStore c1 (shWoff x.decl) w with a := putSh c.a k { x with tstep := x.tstep + 1 } }
      else { c1 with a := putSh c.a k { x with st := .invalid } }
    else c1
  | .validated k pass m =>
    let x := shOf c.a k
    let c1 := { c with shrun := .none }
    if x.st = .candidate then
      let y := { x with emean := m }
      { c1 with a := putSh c.a k (if pass then { y with st := .active, scnt := 0 }
                                  else if y.retr < 3 then enterTrain y (y.retr + 1) else { y with st := .invalid }) }
    else c1
  | _ => c

/-- Steps 2 and 3: the region's observations and sampled failure of a slot, and the changes of R300. -/
def settleSh (x : ShSlot) (pobs : Nat) (failed : Bool) : ShSlot :=
  let y := { x with ocnt := x.ocnt + pobs }
  match y.st with
  | .observe => if 256 ≤ y.ocnt then enterTrain y y.retr else y
  | .train => if 7 * shEpochs y.decl ≤ y.tstep then { y with st := .candidate } else y
  | .active => if failed then { y with st := .fallback, ocnt := 0 } else y
  | .fallback => if 256 ≤ y.ocnt then (if y.retr < 3 then enterTrain y (y.retr + 1) else { y with st := .invalid }) else y
  | _ => y

/-- What a commit does to the Shepherd state before the snapshot (R304). -/
def shepCommit (c : Core) : Core :=
  let c1 := applyShRun c
  let a := (List.range 16).foldl (fun a k => putSh a k (settleSh (shOf a k) (vget c1.pobs 0 k) (bitOf c1.sfail k))) c1.a
  { c1 with a := a, shcap := none, pobs := Vector.replicate 16 0, sfail := 0 }

end Sys2Proof.Machine
end

