-- ==== Sys2Proof/Machine/Flags.lean ====
section
/-! DEFINITION. Flags: the USTAT flags that arithmetic sets (R97, R98), the relations of the compares (R109, R110), integer division with
its clamped cases (R79). -/

namespace Sys2Proof.Machine

/-- The state with USTAT flags of a core set (R98); a bundle in issue notes them. -/
def addFlags (s : State) (ci : Nat) (f : Flg) : State :=
  modArch { s with bundle := s.bundle.map fun (b : Bundle) => { b with flagged := b.flagged ||| f.bits } } ci
    fun a => { a with ustat := a.ustat ||| f.bits }

/-- The USTAT flags that the bundle in issue has set: a W1C write of its other slots leaves them set (R98). -/
def flaggedNow (s : State) : BitVec 8 := match s.bundle with | some b => b.flagged | none => 0

/-- The relations of `cmp` and `cmpi` by code: eq, ne, lt, ge, ltu, geu (R109). -/
def relHolds (code : Nat) (x y : Word) : Bool :=
  match code with
  | 0 => x == y
  | 1 => x != y
  | 2 => x.slt y
  | 3 => !x.slt y
  | 4 => x.ult y
  | _ => !x.ult y

/-- Signed division truncated towards zero (R79): quotient, remainder, and whether it is a clamped case. -/
def divS (x y : Word) : Word × Word × Bool :=
  if y = 0 then
    ((if x = 0 then 0 else if x.msb then BitVec.ofNat 64 (2 ^ 63) else BitVec.ofNat 64 (2 ^ 63 - 1)), x, true)
  else if x = BitVec.ofNat 64 (2 ^ 63) ∧ y = BitVec.ofNat 64 (2 ^ 64 - 1) then (BitVec.ofNat 64 (2 ^ 63 - 1), 0, true)
  else (BitVec.ofInt 64 (x.toInt.tdiv y.toInt), BitVec.ofInt 64 (x.toInt.tmod y.toInt), false)

/-- Unsigned division (R79): quotient, remainder, and whether it is a clamped case. -/
def divU (x y : Word) : Word × Word × Bool :=
  if y = 0 then ((if x = 0 then 0 else BitVec.ofNat 64 (2 ^ 64 - 1)), x, true)
  else (BitVec.ofNat 64 (x.toNat / y.toNat), BitVec.ofNat 64 (x.toNat % y.toNat), false)

end Sys2Proof.Machine
end

