-- ==== Sys2Proof/Machine/Operands.lean ====
section
/-! DEFINITION. Operand forms: scalar operands that consume poison (R102, R269) or carry it (R101), immediates (R40 to R42), and the frames
of the issue for each word format. -/

namespace Sys2Proof.Machine

/-! ## Formats -/

/-- The issue of a format A word: guard `g` and no token fields (R39). -/
def issueA (w : Nat) (dsts : List (BitVec 6)) (g : BitVec 3) (s : State) (sem : Env → State → Res) : Host.Outcome State Fault Refusal :=
  issue w dsts g tkNone s sem

/-- The issue of a word with neither guard nor token fields. -/
def issueI (w : Nat) (dsts : List (BitVec 6)) (s : State) (sem : Env → State → Res) : Host.Outcome State Fault Refusal :=
  issue w dsts 0 tkNone s sem

/-- The issue of a format E word (R44). -/
def issueE (w : Nat) (dsts : List (BitVec 6)) (tk : Tk) (s : State) (sem : Env → State → Res) : Host.Outcome State Fault Refusal :=
  issue w dsts 0 tk s sem

/-! ## Immediates and targets -/

/-- IMM13 sign-extended (R40). -/
def imm13 (i : BitVec 13) : Word := i.signExtend 64

/-- The value that format U carries (R42). -/
def upperImm (i : BitVec 19) : Word := (i ++ (0 : BitVec 13)).signExtend 64

/-- The target of a format B word (R41). -/
def branchTarget (e : Env) (o : BitVec 22) : Word := e.addr + (o ++ (0 : BitVec 2)).signExtend 64

/-- The return address of a call: A + 4 in split mode, A + 16 in joint mode (R111). -/
def linkAddr (e : Env) : Word := e.addr + (match e.rd.a.mode with | .joint => 16 | .split => 4)

/-- The link register of a cluster (R111). -/
def linkReg (cl : Cluster) : BitVec 6 :=
  match cl with | .c => 31 | .l => 43 | .k => 51 | .s => 63

/-! ## Poison of scalar operands -/

/-- The lowest detail that a register has among its roles in a list: one register in two roles takes the lower (R269). -/
def lowestDetail {α : Type} [DecidableEq α] (r : α) (d : Nat) (l : List (α × Nat)) : Nat :=
  l.foldl (fun m x => if x.1 = r then min m x.2 else m) d

/-- The trap of the first poisoned operand of a list of registers, each with the detail of its role (R102, R269). -/
def poisonTrap (e : Env) : List (BitVec 6 × Nat) → Option Trap
  | [] => none
  | (r, d) :: rest =>
    if (e.x r).psn then some (mkTrap 0x20 (lowestDetail r d rest) (BitVec.ofNat 64 r.toNat)) else poisonTrap e rest

/-- A meaning that consumes the operands of a list: POISON_CONSUMED if one is poisoned. -/
def consume (e : Env) (l : List (BitVec 6 × Nat)) (r : Res) : Res :=
  match poisonTrap e l with
  | some t => .raise t
  | none => r

/-- As `consume`, for registers named by number: x(n) beyond x63 does not occur, because the ranges of R51 refuse it. -/
def poisonTrapN (e : Env) : List (Nat × Nat) → Option Trap
  | [] => none
  | (r, d) :: rest =>
    if (rdReg e.rd r).psn then some (mkTrap 0x20 (lowestDetail r d rest) (BitVec.ofNat 64 r)) else poisonTrapN e rest

/-- A meaning that consumes registers named by number. -/
def consumeN (e : Env) (l : List (Nat × Nat)) (r : Res) : Res :=
  match poisonTrapN e l with
  | some t => .raise t
  | none => r

/-- An integer result of one operand: poison gives data zero with the side bit (R101). -/
def unaryX (e : Env) (s : State) (d a : BitVec 6) (f : Word → Word) : Res :=
  if (e.x a).psn then .done (setX e s d 0 true) else .done (setX e s d (f (e.x a).val) false)

/-- An integer result of two operands (R106). -/
def binaryX (e : Env) (s : State) (d a b : BitVec 6) (f : Word → Word → Word) : Res :=
  if (e.x a).psn || (e.x b).psn then .done (setX e s d 0 true) else .done (setX e s d (f (e.x a).val (e.x b).val) false)

/-- A result of integer division: the clamped cases set SAT (R79, R106). -/
def divideX (e : Env) (s : State) (d a b : BitVec 6) (f : Word → Word → Word × Bool) : Res :=
  if (e.x a).psn || (e.x b).psn then .done (setX e s d 0 true)
  else
    let r := f (e.x a).val (e.x b).val
    .done (addFlags (setX e s d r.1 false) e.ci { sat := r.2 })

/-- A compare of two operands into a flag (R109). -/
def compareX (e : Env) (s : State) (code : Nat) (d a b : BitVec 6) : Res :=
  consume e [(a, 3), (b, 3)] (.done (setFlag e s d.toNat (relHolds code (e.x a).val (e.x b).val)))

/-- A compare with an immediate into a flag (R110). -/
def compareI (e : Env) (s : State) (code : Nat) (f : BitVec 3) (a : BitVec 6) (i : BitVec 13) : Res :=
  consume e [(a, 3)] (.done (setFlag e s f.toNat (relHolds code (e.x a).val (imm13 i))))

/-- Logic on two flags of the issuing cluster (R109). -/
def flagLogic (e : Env) (s : State) (d a b : BitVec 6) (f : Bool → Bool → Bool) : Res :=
  .done (setFlag e s d.toNat (f (rdFlag e.rd.a e.cl a.toNat) (rdFlag e.rd.a e.cl b.toNat)))

/-! ## Scalar floating point (R100, R101, R129) -/

/-- The bits of a scalar float operand: all of them, or bits 31:0 for FP32. -/
def floatBits (f : Fmt) (r : Reg) : Nat := r.val.toNat % 2 ^ f.width

/-- Whether a scalar float operand is poison: its side bit, or for FP32 the poison encoding (R100). -/
def floatPsn (f : Fmt) (r : Reg) : Bool := r.psn || (f != fF64 && floatBits f r == f.poison)

/-- The state with a scalar float result: poison is the format's poison encoding with the side bit. -/
def setF (e : Env) (s : State) (f : Fmt) (d : BitVec 6) (psn : Bool) (r : Nat × Flg) : Res :=
  if psn then .done (setX e s d (BitVec.ofNat 64 f.poison) true)
  else .done (addFlags (setX e s d (BitVec.ofNat 64 r.1) false) e.ci r.2)

/-- A float result of one operand. -/
def unaryF (e : Env) (s : State) (f : Fmt) (d a : BitVec 6) (op : Nat → Nat × Flg) : Res :=
  setF e s f d (floatPsn f (e.x a)) (op (floatBits f (e.x a)))

/-- A float result of two operands. -/
def binaryF (e : Env) (s : State) (f : Fmt) (d a b : BitVec 6) (op : Nat → Nat → Nat × Flg) : Res :=
  setF e s f d (floatPsn f (e.x a) || floatPsn f (e.x b)) (op (floatBits f (e.x a)) (floatBits f (e.x b)))

/-- A float compare into a flag (R129): a poisoned operand is consumed. -/
def compareF (e : Env) (s : State) (f : Fmt) (code : Nat) (d a b : BitVec 6) : Res :=
  if floatPsn f (e.x a) then raise 0x20 3 (BitVec.ofNat 64 a.toNat)
  else if floatPsn f (e.x b) then raise 0x20 3 (BitVec.ofNat 64 b.toNat)
  else
    let r := fCmp f code (floatBits f (e.x a)) (floatBits f (e.x b))
    .done (addFlags (setFlag e s d.toNat r.1) e.ci r.2)

/-- A conversion to an integer register of `w` bits, sign- or zero-extended to 64 (R130). -/
def convertToInt (e : Env) (s : State) (f : Fmt) (signed : Bool) (w : Nat) (d a : BitVec 6) (m : BitVec 3) : Res :=
  if floatPsn f (e.x a) then .done (setX e s d 0 true)
  else
    let r := toIntV signed w (modeOf e.rd.a m) (decodeF f (floatBits f (e.x a)))
    .done (addFlags (setX e s d (BitVec.ofInt 64 r.1) false) e.ci r.2)

/-- A conversion from an integer register (R130). -/
def convertOfInt (e : Env) (s : State) (f : Fmt) (signed : Bool) (d a : BitVec 6) (m : BitVec 3) : Res :=
  setF e s f d (e.x a).psn (ofIntF f (modeOf e.rd.a m) (if signed then (e.x a).val.toInt else (e.x a).val.toNat))

/-- The class code and poison bit of a scalar float (R131). -/
def kindF (e : Env) (s : State) (f : Fmt) (d a : BitVec 6) : Res :=
  .done (setX e s d (BitVec.ofNat 64 (fClass f (floatBits f (e.x a)) + 16 * b2n (floatPsn f (e.x a)))) false)

end Sys2Proof.Machine
end

