-- ==== Sys2Proof/Machine/Tile.lean ====
section
/-! DEFINITION. Tile descriptors and their layout (R211 to R213), and the pieces in which copies move bytes between the scratchpad and
global memory (R236 to R238). -/

namespace Sys2Proof.Machine

/-! ## Descriptors (R211) -/

/-- BASE. -/
def tBase (d : BitVec 256) : Nat := fieldOf d 0 23
/-- TTYPE. -/
def tType (d : BitVec 256) : Nat := fieldOf d 23 5
/-- FETCH. -/
def tFetch (d : BitVec 256) : Bool := bitOf d 28
/-- The number of rows. -/
def tRows (d : BitVec 256) : Nat := fieldOf d 32 12 + 1
/-- The number of columns. -/
def tCols (d : BitVec 256) : Nat := fieldOf d 44 12 + 1
/-- AUX1. -/
def tAux1 (d : BitVec 256) : Nat := fieldOf d 64 23
/-- AUX2. -/
def tAux2 (d : BitVec 256) : Nat := fieldOf d 87 23
/-- GADDR. -/
def tGaddr (d : BitVec 256) : Nat := fieldOf d 128 64
/-- GPITCH. -/
def tGpitch (d : BitVec 256) : Nat := fieldOf d 192 32
/-- PITCH. -/
def tPitch (d : BitVec 256) : Nat := fieldOf d 224 20

/-- QN4 and INT4G tiles are stored by column, with two further arrays (R212). -/
def tQuant (d : BitVec 256) : Bool := tType d == 16 || tType d == 17

/-- The element width in bits of a tile type; 0 for a reserved type. -/
def tWidth (t : Nat) : Nat :=
  match t with
  | 0 | 1 | 11 | 12 => 8
  | 2 | 3 | 8 | 9 => 16
  | 4 | 5 | 10 => 32
  | 6 | 7 => 64
  | 13 | 16 | 17 => 4
  | 14 => 6
  | 18 => 128
  | _ => 0

/-- The number of lines of a tile. -/
def tLines (d : BitVec 256) : Nat := if tQuant d then tCols d else tRows d

/-- LB, the bytes of a line (R212). -/
def tLB (d : BitVec 256) : Nat := if tQuant d then tRows d / 2 else (tCols d * tWidth (tType d) + 7) / 8

/-- The blocks or groups of 64 elements of a QN4 or INT4G tile. -/
def tBlocks (d : BitVec 256) : Nat := tRows d * tCols d / 64

/-- The offset after the last byte of a tile's lines and its further arrays. -/
def tEnd (d : BitVec 256) : Nat :=
  let e := tBase d + (tLines d - 1) * tPitch d + tLB d
  if tType d = 16 then max e (max (tAux1 d + tBlocks d) (tAux2 d + 4 * ((tBlocks d + 255) / 256)))
  else if tType d = 17 then max e (max (tAux1 d + 2 * tBlocks d) (tAux2 d + (tBlocks d + 1) / 2))
  else e

/-- Whether a tile's bytes reach PLAIN, the condition that each use checks again (R213). -/
def tOver (a : Arch) (d : BitVec 256) : Bool := decide (plain a < tEnd d)

/-- Whether a descriptor is malformed (R213). -/
def tMalformed (a : Arch) (d : BitVec 256) : Bool :=
  fieldOf d 244 12 != 0 || fieldOf d 110 18 != 0 || fieldOf d 56 8 != 0 || fieldOf d 29 3 != 0 ||
  tWidth (tType d) == 0 || tBase d % 4 != 0 || tPitch d % 4 != 0 || decide (tPitch d < tLB d) ||
  (tType d == 14 && tCols d % 4 != 0) ||
  (tQuant d && (tRows d % 64 != 0 || decide (tAux1 d < tBase d) || decide (tAux2 d < tBase d) ||
    (tFetch d && tGpitch d != tPitch d))) ||
  (tFetch d && (tGaddr d % 4 != 0 || decide (tGpitch d < tLB d))) ||
  (!tQuant d && (tAux1 d != 0 || tAux2 d != 0)) ||
  tOver a d

/-- The image of a tile as rows: number, bytes of a row, local and global pitch (R212). -/
def tImage (d : BitVec 256) (gp : Nat) : Nat × Nat × Nat × Nat :=
  if tQuant d then (1, tEnd d - tBase d, 0, 0) else (tRows d, tLB d, tPitch d, gp)

/-- The 256 bits at an offset of the scratchpad. -/
def scrDesc (c : Core) (o : Nat) : BitVec 256 := BitVec.ofNat 256 (scrNat c o 32)

/-- Whether an entry of the commit buffer is an outbound copy of a tile. -/
def CEntry.isTileCopy (h : Nat) : CEntry → Bool
  | .copy x => x.tile == some h
  | _ => false

/-- Whether a tile has an outbound copy recorded in the open region (R215). -/
def ownCopy (c : Core) (h : Nat) : Bool := c.cbuf.any (CEntry.isTileCopy h)

/-! ## Pieces of a copy (R136, R237, R238) -/

/-- The place of byte `e` of a copy: scratchpad offset and global address. -/
def copyByte (x : Copy) (e : Nat) : Nat × Word :=
  let r := e / x.rowBytes
  let o := e % x.rowBytes
  (x.off + r * x.lpitch + o, x.gaddr + BitVec.ofNat 64 (r * x.gpitch + o))

/-- The next piece of a copy: scratchpad offset, global address and length; a piece lies in one line of 128 bytes and in one row. -/
def pieceOf (x : Copy) : Nat × Word × Nat :=
  let p := copyByte x x.done
  (p.1, p.2, min (x.rowBytes - x.done % x.rowBytes) (128 - p.2.toNat % 128))

/-- Whether every byte of a copy has moved. -/
def copyDone (x : Copy) : Bool := decide (x.rows * x.rowBytes ≤ x.done)

/-- Where byte `e` of a copy lies in the scratchpad. -/
def scrPlace (x : Copy) (e : Nat) : Nat := (copyByte x e).1

/-- Where byte `e` of a copy lies in global memory. -/
def memPlace (x : Copy) (e : Nat) : Nat := (copyByte x e).2.toNat

/-- The first byte of a copy from byte `e` on that does not lie in one aligned 8-byte word with the byte before it, at the places that `f`
gives. -/
def wordStart (x : Copy) (f : Nat → Nat) : Nat → Nat → Nat
  | 0, e => e
  | k + 1, e => if 0 < e ∧ e < x.rows * x.rowBytes ∧ f e = f (e - 1) + 1 ∧ f e % 8 ≠ 0 then wordStart x f k (e + 1) else e

/-- The bytes of a copy that the step of its piece writes, from the first on and before the second, and the end of those that it reads. An
aligned 8-byte word is written whole by the step that starts it, and the last one read is read whole: what is read ahead waits in `Copy.ahead`
(R136, R175). -/
def pieceSpan (x : Copy) : Nat × Nat × Nat :=
  let dst := if x.outb then memPlace x else scrPlace x
  let src := if x.outb then scrPlace x else memPlace x
  let hi := wordStart x dst 8 (x.done + (pieceOf x).2.2)
  (wordStart x dst 8 x.done, hi, wordStart x src 8 hi)

/-- The bytes `lo` to `hi - 1` of a copy as runs of following places, none of which crosses a line of 128 bytes: place and length. -/
def byteRuns (f : Nat → Nat) (lo hi : Nat) : List (Nat × Nat) :=
  ((List.range (hi - lo)).map fun k => f (lo + k)).foldr (fun a r =>
    match r with
    | (b, n) :: t => if b = a + 1 ∧ b % 128 ≠ 0 then (a, n + 1) :: t else (a, 1) :: r
    | [] => [(a, 1)]) []

/-- The same in global memory. -/
def memRuns (x : Copy) (lo hi : Nat) : List (Word × Nat) := (byteRuns (memPlace x) lo hi).map fun y => (BitVec.ofNat 64 y.1, y.2)

/-- What the step of an inbound piece reads of global memory: what it has not read ahead. -/
def pieceReads (x : Copy) : List (Word × Nat) :=
  let (lo, _, top) := pieceSpan x
  memRuns x (lo + x.ahead.length) top

/-- What the step of an outbound piece writes of global memory. -/
def pieceWrites (x : Copy) : List (Word × Nat) :=
  let (lo, hi, _) := pieceSpan x
  memRuns x lo hi

/-- What comes of moving a piece. -/
inductive Moved where
  /-- The piece has moved; what it has read ahead. -/
  | ok (s : State) (ahead : List (Byte × Bool))
  /-- The line is pinned by another core: the piece is tried again. -/
  | retry
  /-- The access faults. -/
  | fault (t : Trap)

/-- The first fault of the parts of a piece, or whether one of them meets a line that another core has pinned. -/
def partsCheck (s : State) (ci : Nat) (k : AccessKind) (attr : Nat) : List (Word × Nat) → Except Trap Bool
  | [] => .ok false
  | (va, _) :: r =>
    match transAccess s ci va k attr with
    | .error t => if isRetry t then .ok true else .error t
    | .ok (_, pa) => match partsCheck s ci k attr r with
      | .error t => .error t
      | .ok b => .ok (pinnedByOther s ci pa || b)

/-- Committed bytes read run by run, each with the mark of its word (R137, R237). -/
def readRuns (s : State) (ci : Nat) : List (Word × Nat) → State × List (Byte × Bool)
  | [] => (s, [])
  | (va, n) :: r =>
    match transTarget s ci va .read with
    | .error _ => (s, [])
    | .ok (tg, _) =>
      let x := readCommitted s ci va tg n
      let y := readRuns x.1 ci r
      (y.1, x.2.1.zip x.2.2 ++ y.2)

/-- Bytes with their marks put into the scratchpad run by run (R137, R237). -/
def scrRuns (c : Core) : List (Nat × Nat) → List (Byte × Bool) → Core
  | [], _ => c
  | (o, n) :: r, b => scrRuns (scrStoreMarks c o ((b.take n).map fun y => y.1) ((b.take n).map fun y => y.2)) r (b.drop n)

/-- Bytes of the scratchpad with their marks on their way to global memory: to their home, which fills a stash window's line, or to a window
(R151, R238). -/
def partOut (s : State) (ci : Nat) (k : AccessKind) (va : Word) (b : List (Byte × Bool)) : State :=
  let bytes := b.map fun y => y.1
  let m := b.map fun y => y.2
  match transTarget s ci va k with
  | .error _ => s
  | .ok (.dev pa, _) => stashStore (devWrite s (some ci) (partOf (getCore s ci)) pa va bytes (lineMarks pa m) false) ci va pa
  | .ok (t, _) => windowWrite s ci t bytes m

/-- The same run by run. -/
def writeRuns (s : State) (ci : Nat) (k : AccessKind) : List (Word × Nat) → List (Byte × Bool) → State
  | [], _ => s
  | (va, n) :: r, b => writeRuns (partOut s ci k va (b.take n)) ci k r (b.drop n)

/-- One inbound piece (R237): what is read, after what was read ahead, goes into the scratchpad up to the last whole word. -/
def movePieceIn (s : State) (ci : Nat) (x : Copy) : Moved :=
  let (lo, hi, _) := pieceSpan x
  match partsCheck s ci .read 1 (pieceReads x) with
  | .error t => .fault t
  | .ok true => .retry
  | .ok false =>
    let r := readRuns s ci (pieceReads x)
    let b := x.ahead ++ r.2
    .ok (modCore r.1 ci fun c => scrRuns c (byteRuns (scrPlace x) lo hi) (b.take (hi - lo))) (b.drop (hi - lo))

/-- The bytes of the scratchpad that the step of an outbound piece reads, each with the mark of its word, after what was read ahead (R238). -/
def pieceBytes (c : Core) (x : Copy) : List (Byte × Bool) :=
  let (lo, _, top) := pieceSpan x
  let a := lo + x.ahead.length
  x.ahead ++ (List.range (top - a)).map fun k => let o := scrPlace x (a + k); (scrByte c o, (scrWord c (o / 4)).psn)

/-- One outbound piece (R238). -/
def movePieceOut (s : State) (ci : Nat) (x : Copy) (k : AccessKind) (attr : Nat) : Moved :=
  let (lo, hi, _) := pieceSpan x
  match partsCheck s ci k attr (pieceWrites x) with
  | .error t => .fault t
  | .ok true => .retry
  | .ok false =>
    let b := pieceBytes (getCore s ci) x
    .ok (writeRuns s ci k (pieceWrites x) (b.take (hi - lo))) (b.drop (hi - lo))

/-- A copy that writes the image of a tile to its GADDR (R273). -/
def imageCopy (d : BitVec 256) : Copy :=
  let (rows, rb, lp, gp) := tImage d (tGpitch d)
  { id := 0, outb := true, rows := rows, rowBytes := rb, off := tBase d, gaddr := BitVec.ofNat 64 (tGaddr d), lpitch := lp,
    gpitch := gp, hurdle := none, tile := none, fetcher := false, slot := none, push := none, homes := 0, done := 0, made := 0,
    entry := 0, open_ := false, fault := none }

/-- Every piece of a copy from where it stands: used where neither a fault nor a pin can meet one (R273). -/
def moveAllOut (s : State) (ci : Nat) (x : Copy) : Nat → State
  | 0 => s
  | fuel + 1 =>
    if copyDone x then s
    else
      let n := (pieceOf x).2.2
      match movePieceOut s ci x .read 1 with
      | .ok s' b => moveAllOut s' ci { x with done := x.done + n, ahead := b } fuel
      | _ => moveAllOut s ci { x with done := x.done + n, ahead := [] } fuel

/-- The number of pieces that a copy has at most. -/
def pieceBound (x : Copy) : Nat := x.rows * (x.rowBytes / 128 + 2)

end Sys2Proof.Machine
end

