-- ==== Sys2Proof/Machine/Commit.lean ====
section
/-! DEFINITION. Commit points (R257 to R268, R273): when a region may commit, the release of the commit buffer in entry order (R176, R181,
R249), the snapshot, and the meeting of the clusters at `join`, `commit` and `end` (R120, R121, R267). -/

namespace Sys2Proof.Machine

/-! ## Rings of cores (R16, R18, R127) -/

/-- Whether a core is a user core: its die is up, and it is neither retired nor in the Bellwether pair. -/
def isUserCore (s : State) (ci : Nat) : Bool :=
  let d := getDie s (dieOf ci)
  d.up && !s.retiredCores.contains ci &&
  match d.bellwether with
  | none => false
  | some l => ci % 36 != l && ci % 36 + 1 != l

/-- The next or previous user core of a die, wrapping (R127). -/
def neighbour (s : State) (ci : Nat) (prev : Bool) : Nat :=
  let ring := (List.range 36).map fun k =>
    36 * dieOf ci + (ci % 36 + (if prev then 35 - k else k + 1)) % 36
  match ring.find? (isUserCore s) with
  | some j => j
  | none => ci

/-! ## Steal requests and their answers (R127) -/

/-- The core at which a unit is: the one that holds it, or the one that it has been switched out of. -/
def unitAt (s : State) (u : UnitRef) : Option Nat :=
  match (List.range 72).find? fun i => holdsUnit (getCore s i) u with
  | some i => some i
  | none => ((getPart s u.part).switched.find? fun x => holdsUnit x.image u).map fun x => x.core

/-- An answer to the steal request of a unit, a range or none for a refusal, on its way to the core where the unit is: it is lost if there is no
such unit any more (log 56). -/
def sendAnswer (s : State) (u : UnitRef) (x : Option (Word × Word)) : State :=
  match unitAt s u with
  | some i => modCore s i fun c => { c with answers := c.answers ++ [(u, x)] }
  | none => s

/-! ## Atomics (R181, R184, R254) -/

/-- The new value of an atomic on `size` bytes, none where nothing is written. -/
def amoNew (op : AmoOp) (size : Nat) (old cmp val : Nat) : Option Nat :=
  let m := 2 ^ (8 * size)
  match op with
  | .add => some ((old + val) % m)
  | .and => some (Nat.land old (val % m))
  | .or => some (Nat.lor old (val % m))
  | .xor => some (Nat.xor old (val % m))
  | .max => some (if sintOf (8 * size) old < sintOf (8 * size) val then val % m else old)
  | .maxu => some (max old (val % m))
  | .swap => some (val % m)
  | .cas => if old = cmp % m then some (val % m) else none

/-- Traffic of a committed region for a window that the host has taken away meanwhile: a request to the host is dropped and counted (R377), one to
a peer refused (R372). -/
def lostTraffic (s : State) (ci : Nat) (pa : Nat) (va : Word) : State :=
  let part := partOf (getCore s ci)
  if paKind pa = 4 then modPart s part fun p => { p with egressDropped := p.egressDropped + 1 }
  else refusedBy s ci (fieldOf (vget (getPart s part).peerWin 0 (pa / 2 ^ 48 % 8)) 8 3) va

/-- A commit-attached atomic performed at its home (R181, R255): a marked word stops it, with an error record and a poisoned result. The
result is on its way until its completion arrives. -/
def performAtomic (s : State) (ci : Nat) (pa : Nat) (va : Word) (op : AmoOp) (size : Nat) (cmp val : BitVec 128) (slot : Nat) : State :=
  let c := getCore s ci
  let part := partOf c
  match resolve s part va pa with
  | .ok (.host w o) =>
      let a := busAddr s part w o
      let old := leNat (memBytes s.hostMem a size)
      let s1 := match amoNew op size old cmp.toNat val.toNat with
        | some v => { s with hostMem := memWrite s.hostMem a (natBytes size v), hostPoison := markWords s.hostPoison a (List.replicate size false) }
        | none => s
      modCore { s1 with outbox := s1.outbox ++ [.hostAtomic (dieOf ci) (busFunc s part w) (BitVec.ofNat 64 a)] } ci
        fun c => { c with outst := c.outst ++ [.hostAtomic slot (BitVec.ofNat 128 old)] }
  | .ok (.peer w o) =>
      let (m, a) := peerAddr s part w o
      match peerPort s (dieOf ci) part w with
      | some q =>
        let k := peerKey m a
        let s0 := landPeer s ci m
        match (List.range size).find? fun i => s0.peerPoison.contains ((k + i) / 4) with
        | some i =>
          modCore (logErr s0 part ci 0x20 2 (some (va + BitVec.ofNat 64 (i / 4 * 4))) none 0) ci fun c => { c with outst := c.outst ++ [.peerAtomic m q slot 0 true] }
        | none =>
          let old := leNat (memBytes s0.peerMem k size)
          let s1 := match amoNew op size old cmp.toNat val.toNat with
            | some v => { s0 with peerMem := memWrite s0.peerMem k (natBytes size v), peerPoison := markWords s0.peerPoison k (List.replicate size false) }
            | none => s0
          modCore s1 ci fun c => { c with outst := c.outst ++ [.peerAtomic m q slot (BitVec.ofNat 128 old) false] }
      | none => modCore (refusedBy s ci m va) ci fun c => { c with outst := c.outst ++ [.homeAtomic slot 0 true] }
  | .error _ => modCore (lostTraffic s ci pa va) ci fun c => { c with outst := c.outst ++ [.homeAtomic slot 0 true] }
  | .ok (.dev _) =>
      let (s1, m) := touchLine s part ci (some ci) pa va
      if m &&& wordBits pa size != 0 then
        modCore (logErr s1 part ci 0x20 2 (some (markedAt m pa size va)) none 0) ci fun c => { c with outst := c.outst ++ [.homeAtomic slot 0 true] }
      else
        let old := leNat (memBytes s1.mem pa size)
        let s2 := match amoNew op size old cmp.toNat val.toNat with
          | some v => devWrite s1 (some ci) part pa va (natBytes size v) 0 false
          | none => s1
        modCore s2 ci fun c => { c with outst := c.outst ++ [.homeAtomic slot (BitVec.ofNat 128 old) false] }

/-! ## Release (R139, R176, R249) -/

/-- The runs of consecutive written bytes of a sector: offset and bytes. -/
def runsOf : Sparse (Option Byte) → List (Nat × List Byte)
  | [] => []
  | (o, b) :: r =>
    let x := match b with | some y => y | none => 0
    match runsOf r with
    | (o', l) :: rest => if o' = o + 1 then (o, x :: l) :: rest else (o, [x]) :: (o', l) :: rest
    | [] => [(o, [x])]

/-- Whether a commit buffer overwrites a whole 256-byte sector of memory. -/
def wholeSector (b : List CEntry) (pa : Nat) : Bool := allForwarded b (pa / 256 * 256) 256

/-- A sector released to its home, where it fills a stash window's line, or to a window (R151, R176, R178). -/
def releaseSector (s : State) (ci : Nat) (b : List CEntry) (pa : Nat) (va : Word) (m : Sparse (Option Byte)) : State :=
  (runsOf m).foldl (fun s r =>
    let part := partOf (getCore s ci)
    let clear := List.replicate r.2.length false
    match resolve s part 0 (pa + r.1) with
    | .ok (.host w o) => windowWrite s ci (.host w o) r.2 clear
    | .ok (.peer w o) => windowWrite s ci (.peer w o) r.2 clear
    | .error _ => lostTraffic s ci pa va
    | .ok (.dev _) => stashStore (devWrite s (some ci) part (pa + r.1) (va + BitVec.ofNat 64 r.1) r.2 0 (wholeSector b pa)) ci (va + BitVec.ofNat 64 r.1) (pa + r.1)) s

/-- A released copy takes a place among the 16 that may be queued at once, or waits for one behind those released before it (R240). -/
def queueReleased (c : Core) (x : Copy) : Core :=
  if c.copies.length < 16 ∧ c.backlog.isEmpty then { c with copies := c.copies ++ [x] } else { c with backlog := c.backlog ++ [x] }

/-- The serial below which a post must wait: that of the first copy recorded after it, or the next free one (R249). -/
def afterSerial (next : Nat) : List CEntry → Nat
  | [] => next
  | .copy x :: _ => x.id
  | _ :: r => afterSerial next r

/-- The commit buffer released in entry order: `rest` is what is left of `all`. -/
def releaseAll (s : State) (ci : Nat) (all : List CEntry) : List CEntry → State
  | [] => s
  | x :: rest =>
    let leave := modCore s ci fun c => { c with departing := c.departing ++ [{ entry := x, after := afterSerial c.nextCopy rest }] }
    let s' := match x with
      | .sector pa va m => releaseSector s ci all pa va m
      | .atomic pa va op size cmp val slot => performAtomic s ci pa va op size cmp val slot
      | .copy y => modCore s ci fun c => queueReleased c { y with open_ := false }
      | .steal _ => s
      | .post _ _ => leave
      | .sigadd _ _ => leave
      | .ringadd _ _ => leave
      | .kick _ _ => leave
      | .arrive _ _ => leave
    releaseAll s' ci all rest

/-- A steal request leaves at the commit of its region (R127): dropped with REFUSED if one is pending or the range is not empty. -/
def sendSteals (s : State) (ci : Nat) : List CEntry → State
  | [] => s
  | .steal prev :: r =>
    let a := (getCore s ci).a
    let me := ((getCore s ci).unit.map refOf).toList
    let s' :=
      if a.pend || decide (a.rcur.toNat < a.rend.toNat) then modArch s ci fun a => { a with refused := true }
      else
        modCore (modArch s ci fun a => { a with pend := true, grant := false, refused := false }) (neighbour s ci prev)
          fun c => { c with inbox := c.inbox ++ me.map fun u => (u, prev) }
    sendSteals s' ci r
  | _ :: r => sendSteals s ci r

/-- The dies whose local memory a region's release writes: its sectors, atomics and recorded copies (R271). -/
def localHomes (b : List CEntry) : BitVec 2 :=
  b.foldl (fun acc x =>
    let k := fun pa => if paKind pa = 0 then 1#2 else if paKind pa = 1 then 2#2 else 0#2
    acc ||| match x with
      | .sector pa _ _ => k pa
      | .atomic pa _ _ _ _ _ _ => k pa
      | .copy y => y.homes
      | _ => 0) 0

/-! ## When a region may commit (R32, R164, R267) -/

/-- Whether the head of the matrix queue is an armed nest: a nest without GO (bit 41 of its header, R225). -/
def isArmed (x : MxOp) : Bool :=
  match x.kind with
  | .nest t _ => !bitOf (nth 0 t 0) 41
  | _ => false

/-- The table's offset of the oldest armed nest of the queue (R221). -/
def armedNest (c : Core) : Option Nat :=
  (c.mxq.find? isArmed).bind fun x => match x.kind with | .nest _ off => some off | _ => none

/-- Whether the matrix queue holds an operation that can run: one ahead of its armed nests. -/
def mxRunnable (l : List MxOp) : Bool := match l with | x :: _ => !isArmed x | [] => false

/-- Whether every engine operation of the open region has completed, and every outbound FIFO has drained. -/
def regionDone (c : Core) : Bool :=
  c.mxq.isEmpty && c.walk.isNone && c.vigils.isEmpty && c.almq.isEmpty &&
  c.copies.all (fun x => x.outb || !x.open_) && c.engTraps.isEmpty &&
  (List.range 8).all fun q => !(vget c.a.streams Stream.zero q).out || (vget c.fifos Fifo.zero q).vecs.isEmpty

/-- Whether every line that a commit writes is free of other cores' pins (R182). -/
def releaseFree (s : State) (ci : Nat) : Bool :=
  (getCore s ci).cbuf.all fun x =>
    match x with
    | .sector pa _ _ => !pinnedByOther s ci pa
    | .atomic pa _ _ _ _ _ _ => !pinnedByOther s ci pa
    | _ => true

/-! ## The commit -/

/-- RGNPC for a snapshot (R277). -/
def rgnpcOf (a : Arch) : Word :=
  BitVec.ofNat 64 (b2n (a.mode == .joint) * 2 ^ 56 + (vget a.pc 0 0).toNat % 2 ^ 56)

/-- The core with every cluster past its commit: the next bundle, or in split mode the next word of each cluster (R36, R267). -/
def pastCommit (c : Core) : Core :=
  let c1 := { c with a := { c.a with clst := Vector.replicate 4 .run } }
  match c.a.mode with
  | .joint => advanceJoint c1
  | .split =>
    (List.range 4).foldl (fun c k => advanceSplit c k (vget c.a.pc 0 k)) c1

/-- The results on their way to a slot below `n` given up: a later atomic has taken the slot (R255). -/
def voidResults (l : List Outstanding) (n : Nat) : List Outstanding :=
  l.map fun o => match o with
    | .peerAtomic m q k v p => if k < n then .peerAtomic m q 16 v p else o
    | .hostAtomic k v => if k < n then .hostAtomic 16 v else o
    | .homeAtomic k v p => if k < n then .homeAtomic 16 v p else o
    | .peerWrite _ _ _ _ _ _ => o
    | .peerArrive _ _ => o

/-- The copy list of a core marked as belonging to committed work (R242). -/
def closeRegion (c : Core) : Core :=
  { c with copies := c.copies.map fun (x : Copy) => { x with open_ := false },
           fifos := vmap (fun (f : Fifo) => { f with pushOpen := false }) c.fifos }

/-- The commit of the open region (R267, R278, R375): steal requests leave, the Shepherd's changes are made (R304), NEXT and the pins end,
the snapshot is taken, the deltas and RTRY.COUNT are cleared, and the buffer is released in entry order. `resume` says that the clusters go
on past the commit. -/
def commitRegion (s : State) (ci : Nat) (resume durable : Bool) : State :=
  let b := (getCore s ci).cbuf
  let s1 := sendSteals s ci b
  let s2 := modCore s1 ci fun c =>
    let c1 := shepCommit (if resume then pastCommit c else c)
    let a := { c1.a with nextRes := 0, pins := [] }
    let c2 := closeRegion { c1 with a := a, snap := a, ext := [], cbuf := [], outst := voidResults c1.outst c1.a.nextRes, rtryCount := 0, rgnpc := rgnpcOf a,
                                    rtryMax := (getPart s1 (partOf c)).rtrymax }
    { c2 with run := if c.preempt.isSome && resume then .halted else if (getDie s (dieOf ci)).restarting && resume then .held else c.run,
              unit := c.unit.map fun u =>
                { u with committed := true, localw := if durable then 0 else u.localw ||| localHomes b } }
  releaseAll (dropBundle s2 ci) ci b b

/-- An armed nest found at a commit: K takes TILE_FAULT with detail 5, in joint mode with no slot of the commit's bundle in effect (R58, R221). -/
def armedTrap (s : State) (ci off : Nat) : State := takeTrap (undoBundle s ci) ci .k (mkTrap 0x17 5 (BitVec.ofNat 64 off))

/-- The core in joint mode at the target of C's `join` (R120). -/
def enterJoint (c : Core) (t : Word) : Core :=
  setPcs { c with a := { c.a with mode := .joint, litAt := none, loops := Vector.replicate 8 LoopLv.zero, clst := Vector.replicate 4 .run } } t

/-- Whether the clusters L, K and S have a state. -/
def restAt (a : Arch) (p : ClSt → Bool) : Bool := (List.range 3).all fun k => p (vget a.clst .run (k + 1))

/-- Whether a cluster waits at a `join`. -/
def waitsJoin (x : ClSt) : Bool := match x with | .atJoin _ => true | _ => false

/-- Whether a cluster waits at a `commit`. -/
def waitsCommit (x : ClSt) : Bool := match x with | .atCommit => true | _ => false

/-- A commit once its clusters are at it: it takes the trap of an armed nest, waits for the region's work, or commits. `free` says that no
line that it writes is pinned by another core; where one is, the core ends its own pins and tries again (R183). -/
def tryCommit (s : State) (ci : Nat) (free : Bool) (commit : State → State) : State :=
  let c := getCore s ci
  match armedNest c with
  | some off => armedTrap s ci off
  | none =>
    if !regionDone c then s
    else if !free then modArch s ci fun a => { a with pins := [] }
    else commit s

/-- The images of `count` tiles from handle `first` on, as copies (R273). -/
def imagesOf (a : Arch) (first count : Nat) : List Copy := (List.range count).map fun k => imageCopy (tileOf a (first + k)).desc

/-- The places of device memory that a copy will write, from where it stands: physical address and length of each piece. -/
def piecePlaces (s : State) (ci : Nat) (x : Copy) : Nat → List (Nat × Nat)
  | 0 => []
  | fuel + 1 =>
    if copyDone x then []
    else
      let (_, va, n) := pieceOf x
      (match transTarget s ci va .read with
       | .ok (.dev pa, _) => [(pa, n)]
       | _ => []) ++ piecePlaces s ci { x with done := x.done + n } fuel

/-- The places of device memory that a region's durable commit writes: its sectors and atomics, and the images of the named tiles (R185, R273). -/
def recordPlaces (s : State) (ci first count : Nat) : List (Nat × Nat) :=
  let c := getCore s ci
  let own : List (Nat × Nat) := c.cbuf.flatMap fun x =>
    match x with
    | .sector pa _ m => if inDevice s pa then (runsOf m).map fun r => (pa + r.1, r.2.length) else []
    | .atomic pa _ _ size _ _ _ => if inDevice s pa then [(pa, size)] else []
    | _ => []
  own ++ (imagesOf c.a first count).flatMap fun x => piecePlaces s ci x (pieceBound x)

/-- What a durable record holds of some places: what the region's writes leave there, with the marks of the words, so that to apply it again
does not undo an atomic of the region (R185; log 47). -/
def recordStores (s : State) (part : Nat) (l : List (Nat × Nat)) : List (Nat × List Byte × BitVec 32) :=
  l.map fun y => (y.1, memBytes s.mem y.1 y.2, homeMarks s part y.1)

/-- Whether the lines of the images of `commit.d` are free of other cores' pins. -/
def imagesFree (s : State) (ci first count : Nat) : Bool :=
  (imagesOf (getCore s ci).a first count).all fun x => (piecePlaces s ci x (pieceBound x)).all fun y => !pinnedByOther s ci y.1

/-- `commit.d` (R273): the tile images go out with the sectors, and the record is kept for the unit. -/
def commitDurable (s : State) (ci first count : Nat) : State :=
  let images := imagesOf (getCore s ci).a first count
  let s2 := images.foldl (fun s x => moveAllOut s ci x (pieceBound x)) (commitRegion s ci true true)
  let c := getCore s2 ci
  match c.unit with
  | none => s2
  | some u =>
    let r : Durable := { launch := u.launch, index := u.index, snap := c.snap, unit := c.unit, stores := recordStores s2 u.part (recordPlaces s ci first count) }
    let s3 := modPart s2 u.part fun p =>
      { p with records := p.records.filter (fun (x : Durable) => !(x.launch == u.launch && x.index == u.index)) ++ [r] }
    modCore s3 ci fun c => { c with unit := c.unit.map fun u => { u with record := some u.index } }

/-- The stream engines of a core stopped by `end` (R164). -/
def stopStreams (a : Arch) : Arch := { a with streams := vmap (fun (x : Stream) => { x with running := false }) a.streams }

/-- The end of a unit once it may commit (R121): its streams stop, its region commits, and the core waits for what the unit has started. -/
def commitEnd (s : State) (ci : Nat) : State :=
  modCore (commitRegion (modArch s ci stopStreams) ci false false) ci fun c => { c with run := .ending 0 0 }

/-- The clusters' waits at `join`, `commit`, `commit.d` and `end` looked at (R120, R121, R267): the core goes on if they meet. -/
def settleWaits (s : State) (ci : Nat) : State :=
  let c := getCore s ci
  let split := c.a.mode == .split
  match vget c.a.clst .run 0 with
  | .atJoin t => if split && restAt c.a waitsJoin then putCore s ci (enterJoint c t) else s
  | .atEnd => if !split || restAt c.a waitsJoin then tryCommit s ci (releaseFree s ci) (fun s => commitEnd s ci) else s
  | .atCommit => if !split || restAt c.a waitsCommit then tryCommit s ci (releaseFree s ci) (fun s => commitRegion s ci true false) else s
  | .atCommitD f n =>
    if !split || restAt c.a waitsCommit then
      tryCommit s ci (releaseFree s ci && imagesFree s ci f n) (fun s => commitDurable s ci f n)
    else s
  | _ => s

/-- A word holds its cluster at a meeting: alone, the meeting is looked at now; in a bundle, once its slots have executed. -/
def holdAt (e : Env) (s : State) (st : ClSt) : Res :=
  let s1 := modArch s e.ci fun a => { a with clst := vset a.clst (cnum e.cl) st }
  .set (match s.bundle with | none => settleWaits (dropBundle s1 e.ci) e.ci | some _ => s1)

/-- A commit point, `fork`, `join` or `loopm` in a handler ends the unit with TRAP_NESTED and its major (R322). -/
def notInHandler (e : Env) (maj : Nat) (r : Res) : Res := if e.rd.a.tl || e.rd.a.uh then raise 0x07 maj 0 else r

end Sys2Proof.Machine
end

