-- ==== Sys2Proof/Decode.lean ====
section
/-! DEFINITION. The decoder of instruction words and, after it, the encoder. `rawDecode` reads the row that a word's major and
subfunction select, with every operand field, whatever the must-be-zero bits hold; `decodeWord` then applies the field checks of R51 in
their order. The checks that depend on the cluster, mode and segment of the issue are made where the word issues.

Lean compiles no code that builds a constructor past the 245th of a type, so the definitions that build an `Instr` are marked
`noncomputable`; the kernel evaluates them as any other. -/

namespace Sys2Proof

/-- Why a word is no instruction, in the order of R51. -/
inductive Reject where
  /-- Fewer than four bytes were given. -/
  | truncated
  /-- The subfunction or function code is unassigned (UDF, detail 1). -/
  | unassigned
  /-- A must-be-zero bit or an unused field is nonzero, or a mode field holds a refused code (RESERVED_FIELD, detail 0). -/
  | mustBeZero
  /-- A register field exceeds its range (RESERVED_FIELD, detail 1). -/
  | range
  /-- The element type is reserved or not accepted (RESERVED_FIELD, detail 2). -/
  | elementType
deriving DecidableEq, Repr

/-- The value of the `n` bits of a word from bit `lo` up. -/
def bitsAt (w : Word32) (lo n : Nat) : Nat := w.toNat / 2 ^ lo % 2 ^ n

/-- The `n` bits of a word from bit `lo` up. -/
def bitsOf (w : Word32) (lo n : Nat) : BitVec n := BitVec.ofNat n (w.toNat / 2 ^ lo)

/-- The HINT, TKIN and TKOUT fields of an E-format word (R44). -/
def tkOf (w : Word32) : Tk := { hint := bitsOf w 6 2, tkin := bitsOf w 2 2, tkout := bitsOf w 0 2 }

/-- The major opcode, bits 31:25 (R35). -/
def majorOf (w : Word32) : Nat := w.toNat / 2 ^ 25

/-- Major 0x01: the subfunction selects the row. -/
def decodeMajor01 (w : Word32) : Option Instr :=
  match bitsAt w 0 4 with
  | 0 => some (.add (bitsOf w 19 6) (bitsOf w 13 6) (bitsOf w 7 6) (bitsOf w 4 3))
  | 1 => some (.sub (bitsOf w 19 6) (bitsOf w 13 6) (bitsOf w 7 6) (bitsOf w 4 3))
  | 2 => some (.and (bitsOf w 19 6) (bitsOf w 13 6) (bitsOf w 7 6) (bitsOf w 4 3))
  | 3 => some (.or (bitsOf w 19 6) (bitsOf w 13 6) (bitsOf w 7 6) (bitsOf w 4 3))
  | 4 => some (.xor (bitsOf w 19 6) (bitsOf w 13 6) (bitsOf w 7 6) (bitsOf w 4 3))
  | 5 => some (.sll (bitsOf w 19 6) (bitsOf w 13 6) (bitsOf w 7 6) (bitsOf w 4 3))
  | 6 => some (.srl (bitsOf w 19 6) (bitsOf w 13 6) (bitsOf w 7 6) (bitsOf w 4 3))
  | 7 => some (.sra (bitsOf w 19 6) (bitsOf w 13 6) (bitsOf w 7 6) (bitsOf w 4 3))
  | 8 => some (.mul (bitsOf w 19 6) (bitsOf w 13 6) (bitsOf w 7 6) (bitsOf w 4 3))
  | 9 => some (.mulhiS (bitsOf w 19 6) (bitsOf w 13 6) (bitsOf w 7 6) (bitsOf w 4 3))
  | 10 => some (.mulhiU (bitsOf w 19 6) (bitsOf w 13 6) (bitsOf w 7 6) (bitsOf w 4 3))
  | 11 => some (.quotS (bitsOf w 19 6) (bitsOf w 13 6) (bitsOf w 7 6) (bitsOf w 4 3))
  | 12 => some (.quotU (bitsOf w 19 6) (bitsOf w 13 6) (bitsOf w 7 6) (bitsOf w 4 3))
  | 13 => some (.rmdrS (bitsOf w 19 6) (bitsOf w 13 6) (bitsOf w 7 6) (bitsOf w 4 3))
  | 14 => some (.rmdrU (bitsOf w 19 6) (bitsOf w 13 6) (bitsOf w 7 6) (bitsOf w 4 3))
  | _ => none

/-- Major 0x06: the subfunction selects the row. -/
def decodeMajor06 (w : Word32) : Option Instr :=
  match bitsAt w 11 2 with
  | 0 => some (.slli (bitsOf w 19 6) (bitsOf w 13 6) (bitsOf w 0 6))
  | 1 => some (.srli (bitsOf w 19 6) (bitsOf w 13 6) (bitsOf w 0 6))
  | 2 => some (.srai (bitsOf w 19 6) (bitsOf w 13 6) (bitsOf w 0 6))
  | _ => none

/-- Major 0x09: the subfunction selects the row. -/
def decodeMajor09 (w : Word32) : Option Instr :=
  match bitsAt w 0 4 with
  | 0 => some (.cmpEq (bitsOf w 19 6) (bitsOf w 13 6) (bitsOf w 7 6) (bitsOf w 4 3))
  | 1 => some (.cmpNe (bitsOf w 19 6) (bitsOf w 13 6) (bitsOf w 7 6) (bitsOf w 4 3))
  | 2 => some (.cmpLt (bitsOf w 19 6) (bitsOf w 13 6) (bitsOf w 7 6) (bitsOf w 4 3))
  | 3 => some (.cmpGe (bitsOf w 19 6) (bitsOf w 13 6) (bitsOf w 7 6) (bitsOf w 4 3))
  | 4 => some (.cmpLtu (bitsOf w 19 6) (bitsOf w 13 6) (bitsOf w 7 6) (bitsOf w 4 3))
  | 5 => some (.cmpGeu (bitsOf w 19 6) (bitsOf w 13 6) (bitsOf w 7 6) (bitsOf w 4 3))
  | 8 => some (.flAnd (bitsOf w 19 6) (bitsOf w 13 6) (bitsOf w 7 6) (bitsOf w 4 3))
  | 9 => some (.flOr (bitsOf w 19 6) (bitsOf w 13 6) (bitsOf w 7 6) (bitsOf w 4 3))
  | 10 => some (.flXor (bitsOf w 19 6) (bitsOf w 13 6) (bitsOf w 7 6) (bitsOf w 4 3))
  | 11 => some (.flAndn (bitsOf w 19 6) (bitsOf w 13 6) (bitsOf w 7 6) (bitsOf w 4 3))
  | 12 => some (.flRd (bitsOf w 19 6) (bitsOf w 4 3))
  | 13 => some (.flWr (bitsOf w 13 6) (bitsOf w 4 3))
  | _ => none

/-- Major 0x0A: the subfunction selects the row. -/
def decodeMajor0A (w : Word32) : Option Instr :=
  match bitsAt w 22 3 with
  | 0 => some (.cmpiEq (bitsOf w 19 3) (bitsOf w 13 6) (bitsOf w 0 13))
  | 1 => some (.cmpiNe (bitsOf w 19 3) (bitsOf w 13 6) (bitsOf w 0 13))
  | 2 => some (.cmpiLt (bitsOf w 19 3) (bitsOf w 13 6) (bitsOf w 0 13))
  | 3 => some (.cmpiGe (bitsOf w 19 3) (bitsOf w 13 6) (bitsOf w 0 13))
  | 4 => some (.cmpiLtu (bitsOf w 19 3) (bitsOf w 13 6) (bitsOf w 0 13))
  | 5 => some (.cmpiGeu (bitsOf w 19 3) (bitsOf w 13 6) (bitsOf w 0 13))
  | _ => none

/-- Major 0x0E: the subfunction selects the row. -/
def decodeMajor0E (w : Word32) : Option Instr :=
  match bitsAt w 0 4 with
  | 0 => some (.jmpr (bitsOf w 19 6) (bitsOf w 13 6) (bitsOf w 4 3))
  | _ => none

/-- Major 0x11: the subfunction selects the row. -/
def decodeMajor11 (w : Word32) : Option Instr :=
  match bitsAt w 0 4 with
  | 0 | 1 | 2 | 3 => some (.loopm (bitsOf w 19 6) (bitsOf w 13 6) (bitsOf w 7 6) (bitsOf w 4 3) (bitsOf w 0 4))
  | _ => none

/-- Major 0x12: the subfunction selects the row. -/
def decodeMajor12 (w : Word32) : Option Instr :=
  match bitsAt w 0 4 with
  | 0 => some (.yset (bitsOf w 13 6) (bitsOf w 4 3))
  | 1 => some (.yclr (bitsOf w 13 6) (bitsOf w 4 3))
  | 2 => some (.ywait (bitsOf w 13 6) (bitsOf w 4 3))
  | 3 => some (.ywaitc (bitsOf w 13 6) (bitsOf w 4 3))
  | 4 => some (.ytas (bitsOf w 19 6) (bitsOf w 13 6) (bitsOf w 4 3))
  | 5 => some (.yrd (bitsOf w 19 6) (bitsOf w 4 3))
  | _ => none

/-- Major 0x13: the subfunction selects the row. -/
def decodeMajor13 (w : Word32) : Option Instr :=
  match bitsAt w 0 4 with
  | 0 => some (.tkpush (bitsOf w 13 6) (bitsOf w 4 3))
  | 1 => some (.tkwait (bitsOf w 13 6) (bitsOf w 4 3))
  | 2 => some (.tkcnt (bitsOf w 19 6) (bitsOf w 13 6) (bitsOf w 4 3))
  | _ => none

/-- Major 0x14: the subfunction selects the row. -/
def decodeMajor14 (w : Word32) : Option Instr :=
  match bitsAt w 0 4 with
  | 0 => some (.rset (bitsOf w 13 6) (bitsOf w 7 6) (bitsOf w 4 3))
  | 1 => some (.rnext (bitsOf w 19 6) (bitsOf w 13 6) (bitsOf w 4 3))
  | 2 => some (.rsteal (bitsOf w 13 6) (bitsOf w 4 3))
  | 3 => some (.rstat (bitsOf w 19 6) (bitsOf w 4 3))
  | _ => none

/-- Major 0x15, SUB4 11: XB[5:3] selects the conversion (R130). -/
def decodeCvt15 (w : Word32) : Option Instr :=
  match bitsAt w 10 3 with
  | 0 => some (.scvtF64F32 (bitsOf w 19 6) (bitsOf w 13 6) (bitsOf w 7 3) (bitsOf w 4 3))
  | 1 => some (.scvtF64I64 (bitsOf w 19 6) (bitsOf w 13 6) (bitsOf w 7 3) (bitsOf w 4 3))
  | 2 => some (.scvtF64Ui64 (bitsOf w 19 6) (bitsOf w 13 6) (bitsOf w 7 3) (bitsOf w 4 3))
  | 3 => some (.scvtI64F64 (bitsOf w 19 6) (bitsOf w 13 6) (bitsOf w 7 3) (bitsOf w 4 3))
  | 4 => some (.scvtUi64F64 (bitsOf w 19 6) (bitsOf w 13 6) (bitsOf w 7 3) (bitsOf w 4 3))
  | 5 => some (.scvtI32F64 (bitsOf w 19 6) (bitsOf w 13 6) (bitsOf w 7 3) (bitsOf w 4 3))
  | _ => none

/-- Major 0x15: the subfunction selects the row. -/
def decodeMajor15 (w : Word32) : Option Instr :=
  match bitsAt w 0 4 with
  | 0 => some (.faddF64 (bitsOf w 19 6) (bitsOf w 13 6) (bitsOf w 7 6) (bitsOf w 4 3))
  | 1 => some (.fsubF64 (bitsOf w 19 6) (bitsOf w 13 6) (bitsOf w 7 6) (bitsOf w 4 3))
  | 2 => some (.fmulF64 (bitsOf w 19 6) (bitsOf w 13 6) (bitsOf w 7 6) (bitsOf w 4 3))
  | 3 => some (.fdivF64 (bitsOf w 19 6) (bitsOf w 13 6) (bitsOf w 7 6) (bitsOf w 4 3))
  | 4 => some (.fsqrtF64 (bitsOf w 19 6) (bitsOf w 13 6) (bitsOf w 4 3))
  | 5 => some (.fminF64 (bitsOf w 19 6) (bitsOf w 13 6) (bitsOf w 7 6) (bitsOf w 4 3))
  | 6 => some (.fmaxF64 (bitsOf w 19 6) (bitsOf w 13 6) (bitsOf w 7 6) (bitsOf w 4 3))
  | 7 => some (.fmacF64 (bitsOf w 19 6) (bitsOf w 13 6) (bitsOf w 7 6) (bitsOf w 4 3))
  | 8 => some (.fcmpEqF64 (bitsOf w 19 6) (bitsOf w 13 6) (bitsOf w 7 6) (bitsOf w 4 3))
  | 9 => some (.fcmpLtF64 (bitsOf w 19 6) (bitsOf w 13 6) (bitsOf w 7 6) (bitsOf w 4 3))
  | 10 => some (.fcmpLeF64 (bitsOf w 19 6) (bitsOf w 13 6) (bitsOf w 7 6) (bitsOf w 4 3))
  | 11 => decodeCvt15 w
  | 12 => some (.fkindF64 (bitsOf w 19 6) (bitsOf w 13 6) (bitsOf w 4 3))
  | 13 => some (.fabsF64 (bitsOf w 19 6) (bitsOf w 13 6) (bitsOf w 4 3))
  | 14 => some (.fnegF64 (bitsOf w 19 6) (bitsOf w 13 6) (bitsOf w 4 3))
  | 15 => some (.fmsgnF64 (bitsOf w 19 6) (bitsOf w 13 6) (bitsOf w 7 6) (bitsOf w 4 3))
  | _ => none

/-- Major 0x16, SUB4 11: XB[5:3] selects the conversion (R130). -/
def decodeCvt16 (w : Word32) : Option Instr :=
  match bitsAt w 10 3 with
  | 0 => some (.scvtF32F64 (bitsOf w 19 6) (bitsOf w 13 6) (bitsOf w 7 3) (bitsOf w 4 3))
  | 1 => some (.scvtF32I64 (bitsOf w 19 6) (bitsOf w 13 6) (bitsOf w 7 3) (bitsOf w 4 3))
  | 2 => some (.scvtF32Ui64 (bitsOf w 19 6) (bitsOf w 13 6) (bitsOf w 7 3) (bitsOf w 4 3))
  | 3 => some (.scvtI64F32 (bitsOf w 19 6) (bitsOf w 13 6) (bitsOf w 7 3) (bitsOf w 4 3))
  | 4 => some (.scvtUi64F32 (bitsOf w 19 6) (bitsOf w 13 6) (bitsOf w 7 3) (bitsOf w 4 3))
  | 5 => some (.scvtI32F32 (bitsOf w 19 6) (bitsOf w 13 6) (bitsOf w 7 3) (bitsOf w 4 3))
  | _ => none

/-- Major 0x16: the subfunction selects the row. -/
def decodeMajor16 (w : Word32) : Option Instr :=
  match bitsAt w 0 4 with
  | 0 => some (.faddF32 (bitsOf w 19 6) (bitsOf w 13 6) (bitsOf w 7 6) (bitsOf w 4 3))
  | 1 => some (.fsubF32 (bitsOf w 19 6) (bitsOf w 13 6) (bitsOf w 7 6) (bitsOf w 4 3))
  | 2 => some (.fmulF32 (bitsOf w 19 6) (bitsOf w 13 6) (bitsOf w 7 6) (bitsOf w 4 3))
  | 3 => some (.fdivF32 (bitsOf w 19 6) (bitsOf w 13 6) (bitsOf w 7 6) (bitsOf w 4 3))
  | 4 => some (.fsqrtF32 (bitsOf w 19 6) (bitsOf w 13 6) (bitsOf w 4 3))
  | 5 => some (.fminF32 (bitsOf w 19 6) (bitsOf w 13 6) (bitsOf w 7 6) (bitsOf w 4 3))
  | 6 => some (.fmaxF32 (bitsOf w 19 6) (bitsOf w 13 6) (bitsOf w 7 6) (bitsOf w 4 3))
  | 7 => some (.fmacF32 (bitsOf w 19 6) (bitsOf w 13 6) (bitsOf w 7 6) (bitsOf w 4 3))
  | 8 => some (.fcmpEqF32 (bitsOf w 19 6) (bitsOf w 13 6) (bitsOf w 7 6) (bitsOf w 4 3))
  | 9 => some (.fcmpLtF32 (bitsOf w 19 6) (bitsOf w 13 6) (bitsOf w 7 6) (bitsOf w 4 3))
  | 10 => some (.fcmpLeF32 (bitsOf w 19 6) (bitsOf w 13 6) (bitsOf w 7 6) (bitsOf w 4 3))
  | 11 => decodeCvt16 w
  | 12 => some (.fkindF32 (bitsOf w 19 6) (bitsOf w 13 6) (bitsOf w 4 3))
  | 13 => some (.fabsF32 (bitsOf w 19 6) (bitsOf w 13 6) (bitsOf w 4 3))
  | 14 => some (.fnegF32 (bitsOf w 19 6) (bitsOf w 13 6) (bitsOf w 4 3))
  | 15 => some (.fmsgnF32 (bitsOf w 19 6) (bitsOf w 13 6) (bitsOf w 7 6) (bitsOf w 4 3))
  | _ => none

/-- Major 0x17: the subfunction selects the row. -/
def decodeMajor17 (w : Word32) : Option Instr :=
  match bitsAt w 10 3 with
  | 0 => if csrListed (bitsOf w 0 10) then some (.csrrd (bitsOf w 19 6) (bitsOf w 0 10)) else none
  | 1 => if csrListed (bitsOf w 0 10) then some (.csrwr (bitsOf w 19 6) (bitsOf w 13 6) (bitsOf w 0 10)) else none
  | 2 => if csrListed (bitsOf w 0 10) then some (.csrset (bitsOf w 19 6) (bitsOf w 13 6) (bitsOf w 0 10)) else none
  | 3 => if csrListed (bitsOf w 0 10) then some (.csrclr (bitsOf w 19 6) (bitsOf w 13 6) (bitsOf w 0 10)) else none
  | _ => none

/-- Major 0x18: the subfunction selects the row. -/
def decodeMajor18 (w : Word32) : Option Instr :=
  match bitsAt w 0 4 with
  | 0 => some (.fork (bitsOf w 19 6) (bitsOf w 13 6) (bitsOf w 7 6) (bitsOf w 4 3))
  | _ => none

/-- Major 0x1A: the subfunction selects the row. -/
def decodeMajor1A (w : Word32) : Option Instr :=
  match bitsAt w 0 4 with
  | 0 => some (.commit)
  | 1 => some (.commitD (bitsOf w 13 6) (bitsOf w 7 6))
  | 2 => some (.replay (bitsOf w 4 3))
  | 3 => some (.pset (bitsOf w 19 6) (bitsOf w 13 6) (bitsOf w 4 3))
  | 4 => some (.pclr (bitsOf w 19 6) (bitsOf w 13 6) (bitsOf w 4 3))
  | 5 => some (.ptest (bitsOf w 19 6) (bitsOf w 13 6) (bitsOf w 4 3))
  | _ => none

/-- Major 0x1B: the subfunction selects the row. -/
def decodeMajor1B (w : Word32) : Option Instr :=
  match bitsAt w 8 5 with
  | 0 => some (.hinit (bitsOf w 19 6) (bitsOf w 13 6) (tkOf w))
  | 1 => some (.harrive (bitsOf w 19 6) (bitsOf w 13 6) (tkOf w))
  | 2 => some (.hwait (bitsOf w 19 6) (bitsOf w 13 6) (tkOf w))
  | 3 => some (.hstat (bitsOf w 19 6) (bitsOf w 13 6) (tkOf w))
  | _ => none

/-- Major 0x1C: the subfunction selects the row. -/
def decodeMajor1C (w : Word32) : Option Instr :=
  match bitsAt w 8 5 with
  | 0 => some (.chainKick (bitsOf w 19 6) (bitsOf w 13 6) (tkOf w))
  | 1 => some (.chainStop (bitsOf w 19 6) (tkOf w))
  | 2 => some (.chainStat (bitsOf w 19 6) (bitsOf w 13 6) (tkOf w))
  | 3 => some (.qpost (bitsOf w 19 6) (bitsOf w 13 6) (tkOf w))
  | 4 => some (.sigadd (bitsOf w 19 6) (bitsOf w 13 6) (tkOf w))
  | 5 => some (.ringpost (bitsOf w 19 6) (bitsOf w 13 6) (tkOf w))
  | 6 => some (.ares (bitsOf w 19 6) (bitsOf w 13 6) (tkOf w))
  | 7 => some (.aresh (bitsOf w 19 6) (bitsOf w 13 6) (tkOf w))
  | _ => none

/-- Major 0x1E: the subfunction selects the row. -/
def decodeMajor1E (w : Word32) : Option Instr :=
  match bitsAt w 0 4 with
  | 0 => some (.fenceCore (bitsOf w 4 3))
  | 1 => some (.fenceDie (bitsOf w 4 3))
  | 2 => some (.fencePkg (bitsOf w 4 3))
  | 3 => some (.fenceSys (bitsOf w 4 3))
  | _ => none

/-- Major 0x1F: the subfunction selects the row. -/
def decodeMajor1F (w : Word32) : Option Instr :=
  match bitsAt w 0 4 with
  | 0 => some (.endOp (bitsOf w 4 3))
  | _ => none

/-- Major 0x20: the subfunction selects the row. -/
def decodeMajor20 (w : Word32) : Option Instr :=
  match bitsAt w 8 5 with
  | 0 | 1 | 2 | 3 | 4 | 5 | 6 | 8 | 9 | 10 | 11 | 12 | 13 | 14 => some (.ldG (bitsOf w 19 6) (bitsOf w 13 6) (bitsOf w 11 1) (bitsOf w 10 1) (bitsOf w 8 2) (tkOf w))
  | _ => none

/-- Major 0x21: the subfunction selects the row. -/
def decodeMajor21 (w : Word32) : Option Instr :=
  match bitsAt w 8 5 with
  | 0 | 1 | 2 | 3 | 4 | 5 | 6 | 8 | 9 | 10 | 11 | 12 | 13 | 14 => some (.ldL (bitsOf w 19 6) (bitsOf w 13 6) (bitsOf w 11 1) (bitsOf w 10 1) (bitsOf w 8 2) (tkOf w))
  | _ => none

/-- Major 0x22: the subfunction selects the row. -/
def decodeMajor22 (w : Word32) : Option Instr :=
  match bitsAt w 8 5 with
  | 0 | 1 | 2 | 3 | 4 | 5 | 6 | 7 | 8 | 9 | 10 | 11 | 12 | 13 | 14 | 15 => some (.vldG (bitsOf w 19 6) (bitsOf w 13 6) (bitsOf w 11 1) (bitsOf w 8 3) (tkOf w))
  | _ => none

/-- Major 0x23: the subfunction selects the row. -/
def decodeMajor23 (w : Word32) : Option Instr :=
  match bitsAt w 8 5 with
  | 0 | 1 | 2 | 3 | 4 | 5 | 6 | 7 | 8 | 9 | 10 | 11 | 12 | 13 | 14 | 15 => some (.vldL (bitsOf w 19 6) (bitsOf w 13 6) (bitsOf w 11 1) (bitsOf w 8 3) (tkOf w))
  | _ => none

/-- Major 0x24: the subfunction selects the row. -/
def decodeMajor24 (w : Word32) : Option Instr :=
  match bitsAt w 8 5 with
  | 0 | 1 | 2 | 3 | 4 | 5 | 6 | 7 | 8 | 9 | 10 | 11 | 12 | 13 | 14 | 15 | 16 | 17 | 18 | 19 | 20 | 21 | 22 | 23 | 24 | 25 | 26 | 27 | 28 | 29 | 30 | 31 => some (.gath (bitsOf w 19 6) (bitsOf w 13 6) (bitsOf w 12 1) (bitsOf w 11 1) (bitsOf w 8 3) (tkOf w))
  | _ => none

/-- Major 0x25: the subfunction selects the row. -/
def decodeMajor25 (w : Word32) : Option Instr :=
  match bitsAt w 8 5 with
  | 0 => some (.sbaseL (bitsOf w 19 6) (bitsOf w 13 6) (tkOf w))
  | 1 => some (.sdim0L (bitsOf w 19 6) (bitsOf w 13 6) (tkOf w))
  | 2 => some (.sdim1L (bitsOf w 19 6) (bitsOf w 13 6) (tkOf w))
  | 3 => some (.sdim2L (bitsOf w 19 6) (bitsOf w 13 6) (tkOf w))
  | 4 => some (.smodeL (bitsOf w 19 6) (bitsOf w 13 6) (tkOf w))
  | 5 => some (.sbindL (bitsOf w 19 6) (tkOf w))
  | 6 => some (.sunbindL (bitsOf w 19 6) (tkOf w))
  | 7 => some (.sstartL (bitsOf w 19 6) (tkOf w))
  | 8 => some (.sstopL (bitsOf w 19 6) (tkOf w))
  | 9 => some (.sseekL (bitsOf w 19 6) (bitsOf w 13 6) (tkOf w))
  | 10 => some (.sposL (bitsOf w 19 6) (bitsOf w 13 6) (tkOf w))
  | _ => none

/-- Major 0x26: the subfunction selects the row. -/
def decodeMajor26 (w : Word32) : Option Instr :=
  match bitsAt w 8 5 with
  | 0 => some (.markL (tkOf w))
  | _ => none

/-- Major 0x27: the subfunction selects the row. -/
def decodeMajor27 (w : Word32) : Option Instr :=
  match bitsAt w 8 5 with
  | 0 => some (.cpin (bitsOf w 19 6) (bitsOf w 13 6) (tkOf w))
  | 1 => some (.cpin2d (bitsOf w 19 6) (bitsOf w 13 6) (tkOf w))
  | 2 => some (.cpinT (bitsOf w 19 6) (bitsOf w 13 6) (tkOf w))
  | _ => none

/-- Major 0x28: the subfunction selects the row. -/
def decodeMajor28 (w : Word32) : Option Instr :=
  match bitsAt w 8 5 with
  | 0 => some (.prefG (bitsOf w 13 6) (tkOf w))
  | 1 => some (.ssize (bitsOf w 13 6) (tkOf w))
  | 2 => some (.smap (bitsOf w 19 6) (bitsOf w 13 6) (tkOf w))
  | 3 => some (.sunmap (bitsOf w 19 6) (tkOf w))
  | 4 => some (.sflush (bitsOf w 19 6) (tkOf w))
  | 5 => some (.sinval (bitsOf w 19 6) (tkOf w))
  | _ => none

/-- Major 0x4A: the subfunction selects the row. -/
def decodeMajor4A (w : Word32) : Option Instr :=
  match bitsAt w 4 3 with
  | 0 => some (.vzipLo (bitsOf w 19 6) (bitsOf w 13 6) (bitsOf w 7 6) (bitsOf w 0 4))
  | 1 => some (.vzipHi (bitsOf w 19 6) (bitsOf w 13 6) (bitsOf w 7 6) (bitsOf w 0 4))
  | 2 => some (.vuzpEv (bitsOf w 19 6) (bitsOf w 13 6) (bitsOf w 7 6) (bitsOf w 0 4))
  | 3 => some (.vuzpOd (bitsOf w 19 6) (bitsOf w 13 6) (bitsOf w 7 6) (bitsOf w 0 4))
  | _ => none

/-- Major 0x4C: the subfunction selects the row. -/
def decodeMajor4C (w : Word32) : Option Instr :=
  match bitsAt w 7 6 with
  | 0 => some (.vabs (bitsOf w 19 6) (bitsOf w 13 6) (bitsOf w 4 3) (bitsOf w 0 4))
  | 1 => some (.vneg (bitsOf w 19 6) (bitsOf w 13 6) (bitsOf w 4 3) (bitsOf w 0 4))
  | 2 => some (.vsqrt (bitsOf w 19 6) (bitsOf w 13 6) (bitsOf w 4 3) (bitsOf w 0 4))
  | 3 => some (.vrecip (bitsOf w 19 6) (bitsOf w 13 6) (bitsOf w 4 3) (bitsOf w 0 4))
  | 4 => some (.vrsqrt (bitsOf w 19 6) (bitsOf w 13 6) (bitsOf w 4 3) (bitsOf w 0 4))
  | 5 => some (.vnot (bitsOf w 19 6) (bitsOf w 13 6) (bitsOf w 4 3) (bitsOf w 0 4))
  | 6 => some (.vclz (bitsOf w 19 6) (bitsOf w 13 6) (bitsOf w 4 3) (bitsOf w 0 4))
  | 7 => some (.vpopc (bitsOf w 19 6) (bitsOf w 13 6) (bitsOf w 4 3) (bitsOf w 0 4))
  | 8 => some (.vrint (bitsOf w 19 6) (bitsOf w 13 6) (bitsOf w 4 3) (bitsOf w 0 4))
  | 9 => some (.vclass (bitsOf w 19 6) (bitsOf w 13 6) (bitsOf w 4 3) (bitsOf w 0 4))
  | 10 => some (.vmov (bitsOf w 19 6) (bitsOf w 13 6) (bitsOf w 4 3) (bitsOf w 0 4))
  | _ => none

/-- Major 0x4E: the subfunction selects the row. -/
def decodeMajor4E (w : Word32) : Option Instr :=
  match bitsAt w 7 6 with
  | 0 => some (.vredSum (bitsOf w 19 6) (bitsOf w 13 6) (bitsOf w 4 3) (bitsOf w 0 4))
  | 1 => some (.vredMin (bitsOf w 19 6) (bitsOf w 13 6) (bitsOf w 4 3) (bitsOf w 0 4))
  | 2 => some (.vredMax (bitsOf w 19 6) (bitsOf w 13 6) (bitsOf w 4 3) (bitsOf w 0 4))
  | 3 => some (.vredAnd (bitsOf w 19 6) (bitsOf w 13 6) (bitsOf w 4 3) (bitsOf w 0 4))
  | 4 => some (.vredOr (bitsOf w 19 6) (bitsOf w 13 6) (bitsOf w 4 3) (bitsOf w 0 4))
  | 5 => some (.vredXor (bitsOf w 19 6) (bitsOf w 13 6) (bitsOf w 4 3) (bitsOf w 0 4))
  | 6 => some (.vredSumw (bitsOf w 19 6) (bitsOf w 13 6) (bitsOf w 4 3) (bitsOf w 0 4))
  | 8 => some (.vscanSum (bitsOf w 19 6) (bitsOf w 13 6) (bitsOf w 4 3) (bitsOf w 0 4))
  | 9 => some (.vscanMin (bitsOf w 19 6) (bitsOf w 13 6) (bitsOf w 4 3) (bitsOf w 0 4))
  | 10 => some (.vscanMax (bitsOf w 19 6) (bitsOf w 13 6) (bitsOf w 4 3) (bitsOf w 0 4))
  | _ => none

/-- Major 0x4F: the subfunction selects the row. -/
def decodeMajor4F (w : Word32) : Option Instr :=
  match bitsAt w 4 3 with
  | 0 => some (.mand (bitsOf w 19 6) (bitsOf w 13 6) (bitsOf w 7 6))
  | 1 => some (.mor (bitsOf w 19 6) (bitsOf w 13 6) (bitsOf w 7 6))
  | 2 => some (.mxor (bitsOf w 19 6) (bitsOf w 13 6) (bitsOf w 7 6))
  | 3 => some (.mandn (bitsOf w 19 6) (bitsOf w 13 6) (bitsOf w 7 6))
  | 4 => some (.mlen (bitsOf w 19 6) (bitsOf w 13 6))
  | 5 => some (.mpopc (bitsOf w 19 6) (bitsOf w 13 6))
  | 6 => some (.mfirst (bitsOf w 19 6) (bitsOf w 13 6))
  | 7 => some (.mtov (bitsOf w 19 6) (bitsOf w 13 6))
  | _ => none

/-- Major 0x51: the subfunction selects the row. -/
def decodeMajor51 (w : Word32) : Option Instr :=
  match bitsAt w 4 1 with
  | 0 => some (.vext (bitsOf w 19 6) (bitsOf w 13 6) (bitsOf w 7 6) (bitsOf w 0 4))
  | 1 => some (.vins (bitsOf w 19 6) (bitsOf w 13 6) (bitsOf w 7 6) (bitsOf w 0 4))
  | _ => none

/-- Major 0x54: the subfunction selects the row. -/
def decodeMajor54 (w : Word32) : Option Instr :=
  match bitsAt w 8 5 with
  | 0 => some (.mxnest (bitsOf w 13 6) (tkOf w))
  | 1 => some (.mxgo (tkOf w))
  | 2 => some (.mxwait (tkOf w))
  | 3 => some (.mxstat (bitsOf w 19 6) (tkOf w))
  | 8 | 9 | 10 | 11 | 12 | 13 | 14 | 15 => some (.mxdrain (bitsOf w 19 6) (bitsOf w 13 6) (bitsOf w 8 3) (tkOf w))
  | 16 => some (.mxzero (bitsOf w 19 6) (tkOf w))
  | 24 | 25 | 26 | 27 | 28 | 29 | 30 | 31 => some (.mxmma (bitsOf w 19 6) (bitsOf w 13 6) (bitsOf w 8 3) (tkOf w))
  | _ => none

/-- Major 0x55: the subfunction selects the row. -/
def decodeMajor55 (w : Word32) : Option Instr :=
  match bitsAt w 8 5 with
  | 0 => some (.tdef (bitsOf w 19 6) (bitsOf w 13 6) (tkOf w))
  | 1 => some (.tvalid (bitsOf w 13 6) (tkOf w))
  | 2 => some (.tinval (bitsOf w 13 6) (tkOf w))
  | 3 => some (.tstat (bitsOf w 19 6) (bitsOf w 13 6) (tkOf w))
  | 4 => some (.twait (bitsOf w 13 6) (tkOf w))
  | _ => none

/-- Major 0x56: the subfunction selects the row. -/
noncomputable def decodeMajor56 (w : Word32) : Option Instr :=
  match bitsAt w 8 5 with
  | 0 => some (.walkAdd (bitsOf w 19 6) (tkOf w))
  | 1 => some (.walkMin (bitsOf w 19 6) (tkOf w))
  | 2 => some (.walkMax (bitsOf w 19 6) (tkOf w))
  | 3 => some (.walkAnd (bitsOf w 19 6) (tkOf w))
  | 4 => some (.walkOr (bitsOf w 19 6) (tkOf w))
  | 5 => some (.walkXor (bitsOf w 19 6) (tkOf w))
  | 6 => some (.walkPopc (bitsOf w 19 6) (tkOf w))
  | 7 => some (.walkHist (bitsOf w 19 6) (tkOf w))
  | _ => none

/-- Major 0x57: the subfunction selects the row. -/
noncomputable def decodeMajor57 (w : Word32) : Option Instr :=
  match bitsAt w 8 5 with
  | 0 => some (.vview (bitsOf w 19 6) (tkOf w))
  | 1 => some (.aview (bitsOf w 19 6) (tkOf w))
  | _ => none

/-- Major 0x59: the subfunction selects the row. -/
noncomputable def decodeMajor59 (w : Word32) : Option Instr :=
  match bitsAt w 8 5 with
  | 0 => some (.amdef (bitsOf w 19 6) (bitsOf w 13 6) (tkOf w))
  | 1 => some (.aset (bitsOf w 19 6) (bitsOf w 13 6) (tkOf w))
  | 2 => some (.astage (bitsOf w 19 6) (bitsOf w 13 6) (tkOf w))
  | 3 => some (.aerr (bitsOf w 19 6) (tkOf w))
  | 4 => some (.adec (bitsOf w 19 6) (tkOf w))
  | 5 => some (.aget (bitsOf w 19 6) (bitsOf w 13 6) (tkOf w))
  | 6 => some (.aput (bitsOf w 19 6) (bitsOf w 13 6) (tkOf w))
  | 7 => some (.astat (bitsOf w 19 6) (bitsOf w 13 6) (tkOf w))
  | 8 => some (.aoff (bitsOf w 19 6) (tkOf w))
  | 9 => some (.await (tkOf w))
  | _ => none

/-- Major 0x5A: the subfunction selects the row. -/
noncomputable def decodeMajor5A (w : Word32) : Option Instr :=
  match bitsAt w 8 5 with
  | 0 => some (.shdecl (bitsOf w 19 6) (bitsOf w 13 6) (tkOf w))
  | 1 => some (.apxb (bitsOf w 19 6) (tkOf w))
  | 2 => some (.apxe (bitsOf w 19 6) (tkOf w))
  | 3 => some (.shinv (bitsOf w 19 6) (tkOf w))
  | 4 => some (.shwld (bitsOf w 19 6) (bitsOf w 13 6) (tkOf w))
  | 5 => some (.shwst (bitsOf w 19 6) (bitsOf w 13 6) (tkOf w))
  | 6 => some (.shstat (bitsOf w 19 6) (bitsOf w 13 6) (tkOf w))
  | 7 => some (.shmean (bitsOf w 19 6) (bitsOf w 13 6) (tkOf w))
  | _ => none

/-- Major 0x60: the subfunction selects the row. -/
noncomputable def decodeMajor60 (w : Word32) : Option Instr :=
  match bitsAt w 8 5 with
  | 0 | 1 | 2 | 3 | 8 | 9 | 10 | 11 => some (.stG (bitsOf w 19 6) (bitsOf w 13 6) (bitsOf w 11 1) (bitsOf w 8 2) (tkOf w))
  | _ => none

/-- Major 0x61: the subfunction selects the row. -/
noncomputable def decodeMajor61 (w : Word32) : Option Instr :=
  match bitsAt w 8 5 with
  | 0 | 1 | 2 | 3 | 8 | 9 | 10 | 11 => some (.stL (bitsOf w 19 6) (bitsOf w 13 6) (bitsOf w 11 1) (bitsOf w 8 2) (tkOf w))
  | _ => none

/-- Major 0x62: the subfunction selects the row. -/
noncomputable def decodeMajor62 (w : Word32) : Option Instr :=
  match bitsAt w 8 5 with
  | 0 | 1 | 2 | 3 | 4 | 5 | 6 | 7 | 8 | 9 | 10 | 11 | 12 | 13 | 14 | 15 => some (.vstG (bitsOf w 19 6) (bitsOf w 13 6) (bitsOf w 11 1) (bitsOf w 8 3) (tkOf w))
  | _ => none

/-- Major 0x63: the subfunction selects the row. -/
noncomputable def decodeMajor63 (w : Word32) : Option Instr :=
  match bitsAt w 8 5 with
  | 0 | 1 | 2 | 3 | 4 | 5 | 6 | 7 | 8 | 9 | 10 | 11 | 12 | 13 | 14 | 15 => some (.vstL (bitsOf w 19 6) (bitsOf w 13 6) (bitsOf w 11 1) (bitsOf w 8 3) (tkOf w))
  | _ => none

/-- Major 0x64: the subfunction selects the row. -/
noncomputable def decodeMajor64 (w : Word32) : Option Instr :=
  match bitsAt w 8 5 with
  | 0 | 1 | 2 | 3 | 4 | 5 | 6 | 7 | 8 | 9 | 10 | 11 | 12 | 13 | 14 | 15 | 16 | 17 | 18 | 19 | 20 | 21 | 22 | 23 | 24 | 25 | 26 | 27 | 28 | 29 | 30 | 31 => some (.scat (bitsOf w 19 6) (bitsOf w 13 6) (bitsOf w 12 1) (bitsOf w 11 1) (bitsOf w 8 3) (tkOf w))
  | _ => none

/-- Major 0x65: the subfunction selects the row. -/
noncomputable def decodeMajor65 (w : Word32) : Option Instr :=
  match bitsAt w 8 5 with
  | 0 => some (.sbaseS (bitsOf w 19 6) (bitsOf w 13 6) (tkOf w))
  | 1 => some (.sdim0S (bitsOf w 19 6) (bitsOf w 13 6) (tkOf w))
  | 2 => some (.sdim1S (bitsOf w 19 6) (bitsOf w 13 6) (tkOf w))
  | 3 => some (.sdim2S (bitsOf w 19 6) (bitsOf w 13 6) (tkOf w))
  | 4 => some (.smodeS (bitsOf w 19 6) (bitsOf w 13 6) (tkOf w))
  | 5 => some (.sbindS (bitsOf w 19 6) (tkOf w))
  | 6 => some (.sunbindS (bitsOf w 19 6) (tkOf w))
  | 7 => some (.sstartS (bitsOf w 19 6) (tkOf w))
  | 8 => some (.sstopS (bitsOf w 19 6) (tkOf w))
  | 9 => some (.sseekS (bitsOf w 19 6) (bitsOf w 13 6) (tkOf w))
  | 10 => some (.sposS (bitsOf w 19 6) (bitsOf w 13 6) (tkOf w))
  | _ => none

/-- Major 0x66: the subfunction selects the row. -/
noncomputable def decodeMajor66 (w : Word32) : Option Instr :=
  match bitsAt w 8 5 with
  | 0 => some (.markS (tkOf w))
  | _ => none

/-- Major 0x67: the subfunction selects the row. -/
noncomputable def decodeMajor67 (w : Word32) : Option Instr :=
  match bitsAt w 8 5 with
  | 0 => some (.cpout (bitsOf w 19 6) (bitsOf w 13 6) (tkOf w))
  | 1 => some (.cpout2d (bitsOf w 19 6) (bitsOf w 13 6) (tkOf w))
  | 2 => some (.cpoutT (bitsOf w 19 6) (bitsOf w 13 6) (tkOf w))
  | _ => none

/-- Major 0x68: the subfunction selects the row. -/
noncomputable def decodeMajor68 (w : Word32) : Option Instr :=
  match bitsAt w 8 5 with
  | 0 | 1 => some (.amoAdd (bitsOf w 19 6) (bitsOf w 13 6) (bitsOf w 12 1) (bitsOf w 8 1) (tkOf w))
  | 2 | 3 => some (.amoAnd (bitsOf w 19 6) (bitsOf w 13 6) (bitsOf w 12 1) (bitsOf w 8 1) (tkOf w))
  | 4 | 5 => some (.amoOr (bitsOf w 19 6) (bitsOf w 13 6) (bitsOf w 12 1) (bitsOf w 8 1) (tkOf w))
  | 6 | 7 => some (.amoXor (bitsOf w 19 6) (bitsOf w 13 6) (bitsOf w 12 1) (bitsOf w 8 1) (tkOf w))
  | 8 | 9 => some (.amoMax (bitsOf w 19 6) (bitsOf w 13 6) (bitsOf w 12 1) (bitsOf w 8 1) (tkOf w))
  | 10 | 11 => some (.amoMaxu (bitsOf w 19 6) (bitsOf w 13 6) (bitsOf w 12 1) (bitsOf w 8 1) (tkOf w))
  | 12 | 13 => some (.amoSwap (bitsOf w 19 6) (bitsOf w 13 6) (bitsOf w 12 1) (bitsOf w 8 1) (tkOf w))
  | 14 => some (.amoCasD (bitsOf w 19 6) (bitsOf w 13 6) (bitsOf w 12 1) (tkOf w))
  | 15 => some (.amoCasQ (bitsOf w 19 6) (bitsOf w 13 6) (bitsOf w 12 1) (tkOf w))
  | 16 | 17 => some (.amoAdd (bitsOf w 19 6) (bitsOf w 13 6) (bitsOf w 12 1) (bitsOf w 8 1) (tkOf w))
  | 18 | 19 => some (.amoAnd (bitsOf w 19 6) (bitsOf w 13 6) (bitsOf w 12 1) (bitsOf w 8 1) (tkOf w))
  | 20 | 21 => some (.amoOr (bitsOf w 19 6) (bitsOf w 13 6) (bitsOf w 12 1) (bitsOf w 8 1) (tkOf w))
  | 22 | 23 => some (.amoXor (bitsOf w 19 6) (bitsOf w 13 6) (bitsOf w 12 1) (bitsOf w 8 1) (tkOf w))
  | 24 | 25 => some (.amoMax (bitsOf w 19 6) (bitsOf w 13 6) (bitsOf w 12 1) (bitsOf w 8 1) (tkOf w))
  | 26 | 27 => some (.amoMaxu (bitsOf w 19 6) (bitsOf w 13 6) (bitsOf w 12 1) (bitsOf w 8 1) (tkOf w))
  | 28 | 29 => some (.amoSwap (bitsOf w 19 6) (bitsOf w 13 6) (bitsOf w 12 1) (bitsOf w 8 1) (tkOf w))
  | 30 => some (.amoCasD (bitsOf w 19 6) (bitsOf w 13 6) (bitsOf w 12 1) (tkOf w))
  | 31 => some (.amoCasQ (bitsOf w 19 6) (bitsOf w 13 6) (bitsOf w 12 1) (tkOf w))
  | _ => none

/-- Major 0x70: the subfunction selects the row. -/
noncomputable def decodeMajor70 (w : Word32) : Option Instr :=
  match bitsAt w 0 4 with
  | 0 => some (.tret (bitsOf w 4 3))
  | 1 => some (.tretN (bitsOf w 4 3))
  | 2 => some (.ucall (bitsOf w 4 3))
  | 3 => some (.svc (bitsOf w 19 6) (bitsOf w 13 6) (bitsOf w 4 3))
  | 4 => some (.tlbinv (bitsOf w 13 6) (bitsOf w 7 6) (bitsOf w 4 3))
  | _ => none

/-- Major 0x71: the subfunction selects the row. -/
noncomputable def decodeMajor71 (w : Word32) : Option Instr :=
  match bitsAt w 0 4 with
  | 0 => some (.scsrwr (bitsOf w 13 6) (bitsOf w 7 6) (bitsOf w 4 3))
  | _ => none

/-- Major 0x72: the subfunction selects the row. -/
noncomputable def decodeMajor72 (w : Word32) : Option Instr :=
  match bitsAt w 0 4 with
  | 0 => some (.segset (bitsOf w 13 6) (bitsOf w 7 6) (bitsOf w 4 3))
  | 1 => some (.segclr (bitsOf w 13 6) (bitsOf w 4 3))
  | _ => none

/-- Major 0x73: the subfunction selects the row. -/
noncomputable def decodeMajor73 (w : Word32) : Option Instr :=
  match bitsAt w 0 4 with
  | 0 => some (.ctxout (bitsOf w 13 6) (bitsOf w 7 6) (bitsOf w 4 3))
  | 1 => some (.ctxin (bitsOf w 13 6) (bitsOf w 7 6) (bitsOf w 4 3))
  | 2 => some (.asset (bitsOf w 13 6) (bitsOf w 7 6) (bitsOf w 4 3))
  | 3 => some (.pinfo (bitsOf w 19 6) (bitsOf w 13 6) (bitsOf w 4 3))
  | 4 => some (.pscrub (bitsOf w 13 6) (bitsOf w 4 3))
  | _ => none

/-- Major 0x74: the subfunction selects the row. -/
noncomputable def decodeMajor74 (w : Word32) : Option Instr :=
  match bitsAt w 0 4 with
  | 0 => some (.errrd (bitsOf w 19 6) (bitsOf w 13 6) (bitsOf w 4 3))
  | 1 => some (.hrmark (bitsOf w 13 6) (bitsOf w 4 3))
  | _ => none

/-- Major 0x10: XD[0] is the loop level, and a zero IMM13 is `lpclr` (R114). -/
def decodeMajor10 (w : Word32) : Option Instr :=
  if bitsAt w 0 13 = 0 then
    if bitsAt w 19 1 = 0 then some .lpclrO else some .lpclrI
  else if bitsAt w 19 1 = 0 then some (.loopO (bitsOf w 13 6) (bitsOf w 0 13))
  else some (.loopI (bitsOf w 13 6) (bitsOf w 0 13))

/-- Major 0x58: `vigil`, with the literal word that follows it (R70, R275). -/
noncomputable def decodeMajor58 (w lit : Word32) : Option Instr :=
  match bitsAt w 8 5 with
  | 0 => some (.vigilMx (bitsOf w 19 6) (bitsOf w 13 6) (tkOf w) lit)
  | 1 => some (.vigilVec (bitsOf w 19 6) (tkOf w) lit)
  | 2 => some (.vigilRd (bitsOf w 19 6) (tkOf w) lit)
  | _ => none

/-- The row that a word's major and subfunction select, or none for an unassigned subfunction (R49, R51). -/
noncomputable def rawDecode (w lit : Word32) : Option Instr :=
  match majorOf w with
  | 0x01 => decodeMajor01 w
  | 0x02 => some (.addi (bitsOf w 19 6) (bitsOf w 13 6) (bitsOf w 0 13))
  | 0x03 => some (.andi (bitsOf w 19 6) (bitsOf w 13 6) (bitsOf w 0 13))
  | 0x04 => some (.ori (bitsOf w 19 6) (bitsOf w 13 6) (bitsOf w 0 13))
  | 0x05 => some (.xori (bitsOf w 19 6) (bitsOf w 13 6) (bitsOf w 0 13))
  | 0x06 => decodeMajor06 w
  | 0x07 => some (.himm (bitsOf w 19 6) (bitsOf w 0 19))
  | 0x08 => some (.adpc (bitsOf w 19 6) (bitsOf w 0 19))
  | 0x09 => decodeMajor09 w
  | 0x0A => decodeMajor0A w
  | 0x0B => some (.br (bitsOf w 22 3) (bitsOf w 0 22))
  | 0x0C => some (.brn (bitsOf w 22 3) (bitsOf w 0 22))
  | 0x0D => some (.call (bitsOf w 22 3) (bitsOf w 0 22))
  | 0x0E => decodeMajor0E w
  | 0x0F => some (.rep (bitsOf w 17 8) (bitsOf w 13 4) (bitsOf w 9 4))
  | 0x10 => decodeMajor10 w
  | 0x11 => decodeMajor11 w
  | 0x12 => decodeMajor12 w
  | 0x13 => decodeMajor13 w
  | 0x14 => decodeMajor14 w
  | 0x15 => decodeMajor15 w
  | 0x16 => decodeMajor16 w
  | 0x17 => decodeMajor17 w
  | 0x18 => decodeMajor18 w
  | 0x19 => some (.join (bitsOf w 0 22))
  | 0x1A => decodeMajor1A w
  | 0x1B => decodeMajor1B w
  | 0x1C => decodeMajor1C w
  | 0x1D => some (.jeos (bitsOf w 22 3) (bitsOf w 0 22))
  | 0x1E => decodeMajor1E w
  | 0x1F => decodeMajor1F w
  | 0x20 => decodeMajor20 w
  | 0x21 => decodeMajor21 w
  | 0x22 => decodeMajor22 w
  | 0x23 => decodeMajor23 w
  | 0x24 => decodeMajor24 w
  | 0x25 => decodeMajor25 w
  | 0x26 => decodeMajor26 w
  | 0x27 => decodeMajor27 w
  | 0x28 => decodeMajor28 w
  | 0x30 => some (.vadd (bitsOf w 19 6) (bitsOf w 13 6) (bitsOf w 7 6) (bitsOf w 4 3) (bitsOf w 0 4))
  | 0x31 => some (.vsub (bitsOf w 19 6) (bitsOf w 13 6) (bitsOf w 7 6) (bitsOf w 4 3) (bitsOf w 0 4))
  | 0x32 => some (.vmul (bitsOf w 19 6) (bitsOf w 13 6) (bitsOf w 7 6) (bitsOf w 4 3) (bitsOf w 0 4))
  | 0x33 => some (.vfma (bitsOf w 19 6) (bitsOf w 13 6) (bitsOf w 7 6) (bitsOf w 4 3) (bitsOf w 0 4))
  | 0x34 => some (.vfms (bitsOf w 19 6) (bitsOf w 13 6) (bitsOf w 7 6) (bitsOf w 4 3) (bitsOf w 0 4))
  | 0x35 => some (.vfnma (bitsOf w 19 6) (bitsOf w 13 6) (bitsOf w 7 6) (bitsOf w 4 3) (bitsOf w 0 4))
  | 0x36 => some (.vmin (bitsOf w 19 6) (bitsOf w 13 6) (bitsOf w 7 6) (bitsOf w 4 3) (bitsOf w 0 4))
  | 0x37 => some (.vmax (bitsOf w 19 6) (bitsOf w 13 6) (bitsOf w 7 6) (bitsOf w 4 3) (bitsOf w 0 4))
  | 0x38 => some (.vdiv (bitsOf w 19 6) (bitsOf w 13 6) (bitsOf w 7 6) (bitsOf w 4 3) (bitsOf w 0 4))
  | 0x39 => some (.vand (bitsOf w 19 6) (bitsOf w 13 6) (bitsOf w 7 6) (bitsOf w 4 3) (bitsOf w 0 4))
  | 0x3A => some (.vor (bitsOf w 19 6) (bitsOf w 13 6) (bitsOf w 7 6) (bitsOf w 4 3) (bitsOf w 0 4))
  | 0x3B => some (.vxor (bitsOf w 19 6) (bitsOf w 13 6) (bitsOf w 7 6) (bitsOf w 4 3) (bitsOf w 0 4))
  | 0x3C => some (.vsll (bitsOf w 19 6) (bitsOf w 13 6) (bitsOf w 7 6) (bitsOf w 4 3) (bitsOf w 0 4))
  | 0x3D => some (.vsrl (bitsOf w 19 6) (bitsOf w 13 6) (bitsOf w 7 6) (bitsOf w 4 3) (bitsOf w 0 4))
  | 0x3E => some (.vsra (bitsOf w 19 6) (bitsOf w 13 6) (bitsOf w 7 6) (bitsOf w 4 3) (bitsOf w 0 4))
  | 0x3F => some (.vadds (bitsOf w 19 6) (bitsOf w 13 6) (bitsOf w 7 6) (bitsOf w 4 3) (bitsOf w 0 4))
  | 0x40 => some (.vsubs (bitsOf w 19 6) (bitsOf w 13 6) (bitsOf w 7 6) (bitsOf w 4 3) (bitsOf w 0 4))
  | 0x41 => some (.vmulh (bitsOf w 19 6) (bitsOf w 13 6) (bitsOf w 7 6) (bitsOf w 4 3) (bitsOf w 0 4))
  | 0x42 => some (.vabsd (bitsOf w 19 6) (bitsOf w 13 6) (bitsOf w 7 6) (bitsOf w 4 3) (bitsOf w 0 4))
  | 0x43 => some (.vavg (bitsOf w 19 6) (bitsOf w 13 6) (bitsOf w 7 6) (bitsOf w 4 3) (bitsOf w 0 4))
  | 0x44 => some (.vcmpeq (bitsOf w 19 6) (bitsOf w 13 6) (bitsOf w 7 6) (bitsOf w 4 3) (bitsOf w 0 4))
  | 0x45 => some (.vcmplt (bitsOf w 19 6) (bitsOf w 13 6) (bitsOf w 7 6) (bitsOf w 4 3) (bitsOf w 0 4))
  | 0x46 => some (.vcmple (bitsOf w 19 6) (bitsOf w 13 6) (bitsOf w 7 6) (bitsOf w 4 3) (bitsOf w 0 4))
  | 0x47 => some (.vcmpne (bitsOf w 19 6) (bitsOf w 13 6) (bitsOf w 7 6) (bitsOf w 4 3) (bitsOf w 0 4))
  | 0x48 => some (.vsel (bitsOf w 19 6) (bitsOf w 13 6) (bitsOf w 7 6) (bitsOf w 4 3) (bitsOf w 0 4))
  | 0x49 => some (.vperm (bitsOf w 19 6) (bitsOf w 13 6) (bitsOf w 7 6) (bitsOf w 4 3) (bitsOf w 0 4))
  | 0x4A => decodeMajor4A w
  | 0x4B => some (.vslide (bitsOf w 19 6) (bitsOf w 13 6) (bitsOf w 7 6) (bitsOf w 5 1) (bitsOf w 4 1) (bitsOf w 0 4))
  | 0x4C => decodeMajor4C w
  | 0x4D => some (.vcvt (bitsOf w 19 6) (bitsOf w 13 6) (bitsOf w 11 1) (bitsOf w 7 4) (bitsOf w 4 3) (bitsOf w 0 4))
  | 0x4E => decodeMajor4E w
  | 0x4F => decodeMajor4F w
  | 0x50 => some (.vsplat (bitsOf w 19 6) (bitsOf w 13 6) (bitsOf w 4 3) (bitsOf w 0 4))
  | 0x51 => decodeMajor51 w
  | 0x54 => decodeMajor54 w
  | 0x55 => decodeMajor55 w
  | 0x56 => decodeMajor56 w
  | 0x57 => decodeMajor57 w
  | 0x58 => decodeMajor58 w lit
  | 0x59 => decodeMajor59 w
  | 0x5A => decodeMajor5A w
  | 0x60 => decodeMajor60 w
  | 0x61 => decodeMajor61 w
  | 0x62 => decodeMajor62 w
  | 0x63 => decodeMajor63 w
  | 0x64 => decodeMajor64 w
  | 0x65 => decodeMajor65 w
  | 0x66 => decodeMajor66 w
  | 0x67 => decodeMajor67 w
  | 0x68 => decodeMajor68 w
  | 0x70 => decodeMajor70 w
  | 0x71 => decodeMajor71 w
  | 0x72 => decodeMajor72 w
  | 0x73 => decodeMajor73 w
  | 0x74 => decodeMajor74 w
  | 0x7C => some (.emulMajor7c (bitsOf w 0 25))
  | 0x7D => some (.emulMajor7d (bitsOf w 0 25))
  | 0x7E => some (.emulMajor7e (bitsOf w 0 25))
  | 0x78 | 0x79 | 0x7A | 0x7B => some (.hint (bitsOf w 0 27))
  | _ => some (.undefinedMajor w)

/-- HINT, TKIN and TKOUT at their places (R44). -/
def placeTk (tk : Tk) : Nat := tk.hint.toNat * 64 + tk.tkin.toNat * 4 + tk.tkout.toNat

/-- A word with d in bits 24:19, a in bits 18:13, b in bits 12:7, g in bits 6:4. -/
def encDABG (base : Nat) (d : BitVec 6) (a : BitVec 6) (b : BitVec 6) (g : BitVec 3) : Nat :=
  base + (d.toNat * 524288) + (a.toNat * 8192) + (b.toNat * 128) + (g.toNat * 16)

/-- A word with d in bits 24:19, a in bits 18:13, i in bits 12:0. -/
def encDAI (base : Nat) (d : BitVec 6) (a : BitVec 6) (i : BitVec 13) : Nat :=
  base + (d.toNat * 524288) + (a.toNat * 8192) + i.toNat

/-- A word with d in bits 24:19, a in bits 18:13, s in bits 5:0. -/
def encDAS (base : Nat) (d : BitVec 6) (a : BitVec 6) (s : BitVec 6) : Nat :=
  base + (d.toNat * 524288) + (a.toNat * 8192) + s.toNat

/-- A word with d in bits 24:19, i in bits 18:0. -/
def encDI (base : Nat) (d : BitVec 6) (i : BitVec 19) : Nat :=
  base + (d.toNat * 524288) + i.toNat

/-- A word with d in bits 24:19, g in bits 6:4. -/
def encDG (base : Nat) (d : BitVec 6) (g : BitVec 3) : Nat :=
  base + (d.toNat * 524288) + (g.toNat * 16)

/-- A word with a in bits 18:13, g in bits 6:4. -/
def encAG (base : Nat) (a : BitVec 6) (g : BitVec 3) : Nat :=
  base + (a.toNat * 8192) + (g.toNat * 16)

/-- A word with f in bits 21:19, a in bits 18:13, i in bits 12:0. -/
def encFAI (base : Nat) (f : BitVec 3) (a : BitVec 6) (i : BitVec 13) : Nat :=
  base + (f.toNat * 524288) + (a.toNat * 8192) + i.toNat

/-- A word with f in bits 24:22, o in bits 21:0. -/
def encFO (base : Nat) (f : BitVec 3) (o : BitVec 22) : Nat :=
  base + (f.toNat * 4194304) + o.toNat

/-- A word with d in bits 24:19, a in bits 18:13, g in bits 6:4. -/
def encDAG (base : Nat) (d : BitVec 6) (a : BitVec 6) (g : BitVec 3) : Nat :=
  base + (d.toNat * 524288) + (a.toNat * 8192) + (g.toNat * 16)

/-- A word with n in bits 24:17, f in bits 16:13, s in bits 12:9. -/
def encNFS (base : Nat) (n : BitVec 8) (f : BitVec 4) (s : BitVec 4) : Nat :=
  base + (n.toNat * 131072) + (f.toNat * 8192) + (s.toNat * 512)

/-- A word with a in bits 18:13, i in bits 12:0. -/
def encAI (base : Nat) (a : BitVec 6) (i : BitVec 13) : Nat :=
  base + (a.toNat * 8192) + i.toNat

/-- A word with i in bits 24:19, a in bits 18:13, b in bits 12:7, g in bits 6:4, s in bits 3:0. -/
def encIABGS (base : Nat) (i : BitVec 6) (a : BitVec 6) (b : BitVec 6) (g : BitVec 3) (s : BitVec 4) : Nat :=
  base + (i.toNat * 524288) + (a.toNat * 8192) + (b.toNat * 128) + (g.toNat * 16) + s.toNat

/-- A word with n in bits 18:13, g in bits 6:4. -/
def encNG (base : Nat) (n : BitVec 6) (g : BitVec 3) : Nat :=
  base + (n.toNat * 8192) + (g.toNat * 16)

/-- A word with d in bits 24:19, n in bits 18:13, g in bits 6:4. -/
def encDNG (base : Nat) (d : BitVec 6) (n : BitVec 6) (g : BitVec 3) : Nat :=
  base + (d.toNat * 524288) + (n.toNat * 8192) + (g.toNat * 16)

/-- A word with p in bits 18:13, g in bits 6:4. -/
def encPG (base : Nat) (p : BitVec 6) (g : BitVec 3) : Nat :=
  base + (p.toNat * 8192) + (g.toNat * 16)

/-- A word with d in bits 24:19, p in bits 18:13, g in bits 6:4. -/
def encDPG (base : Nat) (d : BitVec 6) (p : BitVec 6) (g : BitVec 3) : Nat :=
  base + (d.toNat * 524288) + (p.toNat * 8192) + (g.toNat * 16)

/-- A word with a in bits 18:13, b in bits 12:7, g in bits 6:4. -/
def encABG (base : Nat) (a : BitVec 6) (b : BitVec 6) (g : BitVec 3) : Nat :=
  base + (a.toNat * 8192) + (b.toNat * 128) + (g.toNat * 16)

/-- A word with d in bits 24:19, f in bits 18:13, g in bits 6:4. -/
def encDFG (base : Nat) (d : BitVec 6) (f : BitVec 6) (g : BitVec 3) : Nat :=
  base + (d.toNat * 524288) + (f.toNat * 8192) + (g.toNat * 16)

/-- A word with r in bits 18:13, g in bits 6:4. -/
def encRG (base : Nat) (r : BitVec 6) (g : BitVec 3) : Nat :=
  base + (r.toNat * 8192) + (g.toNat * 16)

/-- A word with d in bits 24:19, a in bits 18:13, m in bits 9:7, g in bits 6:4. -/
def encDAMG (base : Nat) (d : BitVec 6) (a : BitVec 6) (m : BitVec 3) (g : BitVec 3) : Nat :=
  base + (d.toNat * 524288) + (a.toNat * 8192) + (m.toNat * 128) + (g.toNat * 16)

/-- A word with d in bits 24:19, c in bits 9:0. -/
def encDC (base : Nat) (d : BitVec 6) (c : BitVec 10) : Nat :=
  base + (d.toNat * 524288) + c.toNat

/-- A word with d in bits 24:19, a in bits 18:13, c in bits 9:0. -/
def encDAC (base : Nat) (d : BitVec 6) (a : BitVec 6) (c : BitVec 10) : Nat :=
  base + (d.toNat * 524288) + (a.toNat * 8192) + c.toNat

/-- A word with o in bits 21:0. -/
def encO (base : Nat) (o : BitVec 22) : Nat :=
  base + o.toNat

/-- A word with a in bits 18:13, b in bits 12:7. -/
def encAB (base : Nat) (a : BitVec 6) (b : BitVec 6) : Nat :=
  base + (a.toNat * 8192) + (b.toNat * 128)

/-- A word with g in bits 6:4. -/
def encG (base : Nat) (g : BitVec 3) : Nat :=
  base + (g.toNat * 16)

/-- A word with x in bits 24:19, y in bits 18:13, HINT, TKIN and TKOUT. -/
def encXYTk (base : Nat) (x : BitVec 6) (y : BitVec 6) (tk : Tk) : Nat :=
  base + (x.toNat * 524288) + (y.toNat * 8192) + placeTk tk

/-- A word with x in bits 24:19, HINT, TKIN and TKOUT. -/
def encXTk (base : Nat) (x : BitVec 6) (tk : Tk) : Nat :=
  base + (x.toNat * 524288) + placeTk tk

/-- A word with n in bits 24:22, o in bits 21:0. -/
def encNO (base : Nat) (n : BitVec 3) (o : BitVec 22) : Nat :=
  base + (n.toNat * 4194304) + o.toNat

/-- A word with x in bits 24:19, y in bits 18:13, p in bit 11, u in bit 10, s in bits 9:8, HINT, TKIN and TKOUT. -/
def encXYPUSTk (base : Nat) (x : BitVec 6) (y : BitVec 6) (p : BitVec 1) (u : BitVec 1) (s : BitVec 2) (tk : Tk) : Nat :=
  base + (x.toNat * 524288) + (y.toNat * 8192) + (p.toNat * 2048) + (u.toNat * 1024) + (s.toNat * 256) + placeTk tk

/-- A word with x in bits 24:19, y in bits 18:13, p in bit 11, m in bits 10:8, HINT, TKIN and TKOUT. -/
def encXYPMTk (base : Nat) (x : BitVec 6) (y : BitVec 6) (p : BitVec 1) (m : BitVec 3) (tk : Tk) : Nat :=
  base + (x.toNat * 524288) + (y.toNat * 8192) + (p.toNat * 2048) + (m.toNat * 256) + placeTk tk

/-- A word with x in bits 24:19, y in bits 18:13, e in bit 12, c in bit 11, m in bits 10:8, HINT, TKIN and TKOUT. -/
def encXYECMTk (base : Nat) (x : BitVec 6) (y : BitVec 6) (e : BitVec 1) (c : BitVec 1) (m : BitVec 3) (tk : Tk) : Nat :=
  base + (x.toNat * 524288) + (y.toNat * 8192) + (e.toNat * 4096) + (c.toNat * 2048) + (m.toNat * 256) + placeTk tk

/-- A word with HINT, TKIN and TKOUT. -/
def encTk (base : Nat) (tk : Tk) : Nat :=
  base + placeTk tk

/-- A word with y in bits 18:13, HINT, TKIN and TKOUT. -/
def encYTk (base : Nat) (y : BitVec 6) (tk : Tk) : Nat :=
  base + (y.toNat * 8192) + placeTk tk

/-- A word with d in bits 24:19, a in bits 18:13, b in bits 12:7, m in bits 6:4, t in bits 3:0. -/
def encDABMT (base : Nat) (d : BitVec 6) (a : BitVec 6) (b : BitVec 6) (m : BitVec 3) (t : BitVec 4) : Nat :=
  base + (d.toNat * 524288) + (a.toNat * 8192) + (b.toNat * 128) + (m.toNat * 16) + t.toNat

/-- A word with d in bits 24:19, a in bits 18:13, b in bits 12:7, t in bits 3:0. -/
def encDABT (base : Nat) (d : BitVec 6) (a : BitVec 6) (b : BitVec 6) (t : BitVec 4) : Nat :=
  base + (d.toNat * 524288) + (a.toNat * 8192) + (b.toNat * 128) + t.toNat

/-- A word with d in bits 24:19, a in bits 18:13, b in bits 12:7, r in bit 5, n in bit 4, t in bits 3:0. -/
def encDABRNT (base : Nat) (d : BitVec 6) (a : BitVec 6) (b : BitVec 6) (r : BitVec 1) (n : BitVec 1) (t : BitVec 4) : Nat :=
  base + (d.toNat * 524288) + (a.toNat * 8192) + (b.toNat * 128) + (r.toNat * 32) + (n.toNat * 16) + t.toNat

/-- A word with d in bits 24:19, a in bits 18:13, m in bits 6:4, t in bits 3:0. -/
def encDAMT (base : Nat) (d : BitVec 6) (a : BitVec 6) (m : BitVec 3) (t : BitVec 4) : Nat :=
  base + (d.toNat * 524288) + (a.toNat * 8192) + (m.toNat * 16) + t.toNat

/-- A word with d in bits 24:19, a in bits 18:13, s in bit 11, u in bits 10:7, m in bits 6:4, t in bits 3:0. -/
def encDASUMT (base : Nat) (d : BitVec 6) (a : BitVec 6) (s : BitVec 1) (u : BitVec 4) (m : BitVec 3) (t : BitVec 4) : Nat :=
  base + (d.toNat * 524288) + (a.toNat * 8192) + (s.toNat * 2048) + (u.toNat * 128) + (m.toNat * 16) + t.toNat

/-- A word with d in bits 24:19, a in bits 18:13, b in bits 12:7. -/
def encDAB (base : Nat) (d : BitVec 6) (a : BitVec 6) (b : BitVec 6) : Nat :=
  base + (d.toNat * 524288) + (a.toNat * 8192) + (b.toNat * 128)

/-- A word with d in bits 24:19, a in bits 18:13. -/
def encDA (base : Nat) (d : BitVec 6) (a : BitVec 6) : Nat :=
  base + (d.toNat * 524288) + (a.toNat * 8192)

/-- A word with x in bits 24:19, y in bits 18:13, m in bits 10:8, HINT, TKIN and TKOUT. -/
def encXYMTk (base : Nat) (x : BitVec 6) (y : BitVec 6) (m : BitVec 3) (tk : Tk) : Nat :=
  base + (x.toNat * 524288) + (y.toNat * 8192) + (m.toNat * 256) + placeTk tk

/-- A word with x in bits 24:19, y in bits 18:13, n in bits 10:8, HINT, TKIN and TKOUT. -/
def encXYNTk (base : Nat) (x : BitVec 6) (y : BitVec 6) (n : BitVec 3) (tk : Tk) : Nat :=
  base + (x.toNat * 524288) + (y.toNat * 8192) + (n.toNat * 256) + placeTk tk

/-- A word with x in bits 24:19, y in bits 18:13, p in bit 11, s in bits 9:8, HINT, TKIN and TKOUT. -/
def encXYPSTk (base : Nat) (x : BitVec 6) (y : BitVec 6) (p : BitVec 1) (s : BitVec 2) (tk : Tk) : Nat :=
  base + (x.toNat * 524288) + (y.toNat * 8192) + (p.toNat * 2048) + (s.toNat * 256) + placeTk tk

/-- A word with x in bits 24:19, y in bits 18:13, c in bit 12, z in bit 8, HINT, TKIN and TKOUT. -/
def encXYCZTk (base : Nat) (x : BitVec 6) (y : BitVec 6) (c : BitVec 1) (z : BitVec 1) (tk : Tk) : Nat :=
  base + (x.toNat * 524288) + (y.toNat * 8192) + (c.toNat * 4096) + (z.toNat * 256) + placeTk tk

/-- A word with x in bits 24:19, y in bits 18:13, c in bit 12, HINT, TKIN and TKOUT. -/
def encXYCTk (base : Nat) (x : BitVec 6) (y : BitVec 6) (c : BitVec 1) (tk : Tk) : Nat :=
  base + (x.toNat * 524288) + (y.toNat * 8192) + (c.toNat * 4096) + placeTk tk

/-- A word with h in bits 26:0. -/
def encH (base : Nat) (h : BitVec 27) : Nat :=
  base + h.toNat

/-- A word with x in bits 24:0. -/
def encX (base : Nat) (x : BitVec 25) : Nat :=
  base + x.toNat

/-- The instruction word of an instruction as a number (R38 to R46): the row's fixed bits and the operand fields at their places. A step
with no word gives zero. -/
def encodeNat : Instr → Nat
  | .add d a b g => encDABG 0x02000000 d a b g
  | .sub d a b g => encDABG 0x02000001 d a b g
  | .and d a b g => encDABG 0x02000002 d a b g
  | .or d a b g => encDABG 0x02000003 d a b g
  | .xor d a b g => encDABG 0x02000004 d a b g
  | .sll d a b g => encDABG 0x02000005 d a b g
  | .srl d a b g => encDABG 0x02000006 d a b g
  | .sra d a b g => encDABG 0x02000007 d a b g
  | .mul d a b g => encDABG 0x02000008 d a b g
  | .mulhiS d a b g => encDABG 0x02000009 d a b g
  | .mulhiU d a b g => encDABG 0x0200000A d a b g
  | .quotS d a b g => encDABG 0x0200000B d a b g
  | .quotU d a b g => encDABG 0x0200000C d a b g
  | .rmdrS d a b g => encDABG 0x0200000D d a b g
  | .rmdrU d a b g => encDABG 0x0200000E d a b g
  | .addi d a i => encDAI 0x04000000 d a i
  | .andi d a i => encDAI 0x06000000 d a i
  | .ori d a i => encDAI 0x08000000 d a i
  | .xori d a i => encDAI 0x0A000000 d a i
  | .slli d a s => encDAS 0x0C000000 d a s
  | .srli d a s => encDAS 0x0C000800 d a s
  | .srai d a s => encDAS 0x0C001000 d a s
  | .himm d i => encDI 0x0E000000 d i
  | .adpc d i => encDI 0x10000000 d i
  | .cmpEq d a b g => encDABG 0x12000000 d a b g
  | .cmpNe d a b g => encDABG 0x12000001 d a b g
  | .cmpLt d a b g => encDABG 0x12000002 d a b g
  | .cmpGe d a b g => encDABG 0x12000003 d a b g
  | .cmpLtu d a b g => encDABG 0x12000004 d a b g
  | .cmpGeu d a b g => encDABG 0x12000005 d a b g
  | .flAnd d a b g => encDABG 0x12000008 d a b g
  | .flOr d a b g => encDABG 0x12000009 d a b g
  | .flXor d a b g => encDABG 0x1200000A d a b g
  | .flAndn d a b g => encDABG 0x1200000B d a b g
  | .flRd d g => encDG 0x1200000C d g
  | .flWr a g => encAG 0x1200000D a g
  | .cmpiEq f a i => encFAI 0x14000000 f a i
  | .cmpiNe f a i => encFAI 0x14400000 f a i
  | .cmpiLt f a i => encFAI 0x14800000 f a i
  | .cmpiGe f a i => encFAI 0x14C00000 f a i
  | .cmpiLtu f a i => encFAI 0x15000000 f a i
  | .cmpiGeu f a i => encFAI 0x15400000 f a i
  | .br f o => encFO 0x16000000 f o
  | .brn f o => encFO 0x18000000 f o
  | .call f o => encFO 0x1A000000 f o
  | .jmpr d a g => encDAG 0x1C000000 d a g
  | .rep n f s => encNFS 0x1E000000 n f s
  | .loopO a i => encAI 0x20000000 a i
  | .loopI a i => encAI 0x20080000 a i
  | .lpclrO => 0x20000000
  | .lpclrI => 0x20080000
  | .loopm i a b g s => encIABGS 0x22000000 i a b g s
  | .yset n g => encNG 0x24000000 n g
  | .yclr n g => encNG 0x24000001 n g
  | .ywait n g => encNG 0x24000002 n g
  | .ywaitc n g => encNG 0x24000003 n g
  | .ytas d n g => encDNG 0x24000004 d n g
  | .yrd d g => encDG 0x24000005 d g
  | .tkpush p g => encPG 0x26000000 p g
  | .tkwait p g => encPG 0x26000001 p g
  | .tkcnt d p g => encDPG 0x26000002 d p g
  | .rset a b g => encABG 0x28000000 a b g
  | .rnext d f g => encDFG 0x28000001 d f g
  | .rsteal r g => encRG 0x28000002 r g
  | .rstat d g => encDG 0x28000003 d g
  | .faddF64 d a b g => encDABG 0x2A000000 d a b g
  | .fsubF64 d a b g => encDABG 0x2A000001 d a b g
  | .fmulF64 d a b g => encDABG 0x2A000002 d a b g
  | .fdivF64 d a b g => encDABG 0x2A000003 d a b g
  | .fsqrtF64 d a g => encDAG 0x2A000004 d a g
  | .fminF64 d a b g => encDABG 0x2A000005 d a b g
  | .fmaxF64 d a b g => encDABG 0x2A000006 d a b g
  | .fmacF64 d a b g => encDABG 0x2A000007 d a b g
  | .fcmpEqF64 d a b g => encDABG 0x2A000008 d a b g
  | .fcmpLtF64 d a b g => encDABG 0x2A000009 d a b g
  | .fcmpLeF64 d a b g => encDABG 0x2A00000A d a b g
  | .scvtF64F32 d a m g => encDAMG 0x2A00000B d a m g
  | .scvtF64I64 d a m g => encDAMG 0x2A00040B d a m g
  | .scvtF64Ui64 d a m g => encDAMG 0x2A00080B d a m g
  | .scvtI64F64 d a m g => encDAMG 0x2A000C0B d a m g
  | .scvtUi64F64 d a m g => encDAMG 0x2A00100B d a m g
  | .scvtI32F64 d a m g => encDAMG 0x2A00140B d a m g
  | .fkindF64 d a g => encDAG 0x2A00000C d a g
  | .fabsF64 d a g => encDAG 0x2A00000D d a g
  | .fnegF64 d a g => encDAG 0x2A00000E d a g
  | .fmsgnF64 d a b g => encDABG 0x2A00000F d a b g
  | .faddF32 d a b g => encDABG 0x2C000000 d a b g
  | .fsubF32 d a b g => encDABG 0x2C000001 d a b g
  | .fmulF32 d a b g => encDABG 0x2C000002 d a b g
  | .fdivF32 d a b g => encDABG 0x2C000003 d a b g
  | .fsqrtF32 d a g => encDAG 0x2C000004 d a g
  | .fminF32 d a b g => encDABG 0x2C000005 d a b g
  | .fmaxF32 d a b g => encDABG 0x2C000006 d a b g
  | .fmacF32 d a b g => encDABG 0x2C000007 d a b g
  | .fcmpEqF32 d a b g => encDABG 0x2C000008 d a b g
  | .fcmpLtF32 d a b g => encDABG 0x2C000009 d a b g
  | .fcmpLeF32 d a b g => encDABG 0x2C00000A d a b g
  | .scvtF32F64 d a m g => encDAMG 0x2C00000B d a m g
  | .scvtF32I64 d a m g => encDAMG 0x2C00040B d a m g
  | .scvtF32Ui64 d a m g => encDAMG 0x2C00080B d a m g
  | .scvtI64F32 d a m g => encDAMG 0x2C000C0B d a m g
  | .scvtUi64F32 d a m g => encDAMG 0x2C00100B d a m g
  | .scvtI32F32 d a m g => encDAMG 0x2C00140B d a m g
  | .fkindF32 d a g => encDAG 0x2C00000C d a g
  | .fabsF32 d a g => encDAG 0x2C00000D d a g
  | .fnegF32 d a g => encDAG 0x2C00000E d a g
  | .fmsgnF32 d a b g => encDABG 0x2C00000F d a b g
  | .csrrd d c => encDC 0x2E000000 d c
  | .csrwr d a c => encDAC 0x2E000400 d a c
  | .csrset d a c => encDAC 0x2E000800 d a c
  | .csrclr d a c => encDAC 0x2E000C00 d a c
  | .fork d a b g => encDABG 0x30000000 d a b g
  | .join o => encO 0x32000000 o
  | .commit => 0x34000000
  | .commitD a b => encAB 0x34000001 a b
  | .replay g => encG 0x34000002 g
  | .pset d a g => encDAG 0x34000003 d a g
  | .pclr d a g => encDAG 0x34000004 d a g
  | .ptest d a g => encDAG 0x34000005 d a g
  | .hinit x y tk => encXYTk 0x36000000 x y tk
  | .harrive x y tk => encXYTk 0x36000100 x y tk
  | .hwait x y tk => encXYTk 0x36000200 x y tk
  | .hstat x y tk => encXYTk 0x36000300 x y tk
  | .chainKick x y tk => encXYTk 0x38000000 x y tk
  | .chainStop x tk => encXTk 0x38000100 x tk
  | .chainStat x y tk => encXYTk 0x38000200 x y tk
  | .qpost x y tk => encXYTk 0x38000300 x y tk
  | .sigadd x y tk => encXYTk 0x38000400 x y tk
  | .ringpost x y tk => encXYTk 0x38000500 x y tk
  | .ares x y tk => encXYTk 0x38000600 x y tk
  | .aresh x y tk => encXYTk 0x38000700 x y tk
  | .jeos n o => encNO 0x3A000000 n o
  | .fenceCore g => encG 0x3C000000 g
  | .fenceDie g => encG 0x3C000001 g
  | .fencePkg g => encG 0x3C000002 g
  | .fenceSys g => encG 0x3C000003 g
  | .endOp g => encG 0x3E000000 g
  | .ldG x y p u s tk => encXYPUSTk 0x40000000 x y p u s tk
  | .ldL x y p u s tk => encXYPUSTk 0x42000000 x y p u s tk
  | .vldG x y p m tk => encXYPMTk 0x44000000 x y p m tk
  | .vldL x y p m tk => encXYPMTk 0x46000000 x y p m tk
  | .gath x y e c m tk => encXYECMTk 0x48000000 x y e c m tk
  | .sbaseL x y tk => encXYTk 0x4A000000 x y tk
  | .sdim0L x y tk => encXYTk 0x4A000100 x y tk
  | .sdim1L x y tk => encXYTk 0x4A000200 x y tk
  | .sdim2L x y tk => encXYTk 0x4A000300 x y tk
  | .smodeL x y tk => encXYTk 0x4A000400 x y tk
  | .sbindL x tk => encXTk 0x4A000500 x tk
  | .sunbindL x tk => encXTk 0x4A000600 x tk
  | .sstartL x tk => encXTk 0x4A000700 x tk
  | .sstopL x tk => encXTk 0x4A000800 x tk
  | .sseekL x y tk => encXYTk 0x4A000900 x y tk
  | .sposL x y tk => encXYTk 0x4A000A00 x y tk
  | .markL tk => encTk 0x4C000000 tk
  | .cpin x y tk => encXYTk 0x4E000000 x y tk
  | .cpin2d x y tk => encXYTk 0x4E000100 x y tk
  | .cpinT x y tk => encXYTk 0x4E000200 x y tk
  | .prefG y tk => encYTk 0x50000000 y tk
  | .ssize y tk => encYTk 0x50000100 y tk
  | .smap x y tk => encXYTk 0x50000200 x y tk
  | .sunmap x tk => encXTk 0x50000300 x tk
  | .sflush x tk => encXTk 0x50000400 x tk
  | .sinval x tk => encXTk 0x50000500 x tk
  | .vadd d a b m t => encDABMT 0x60000000 d a b m t
  | .vsub d a b m t => encDABMT 0x62000000 d a b m t
  | .vmul d a b m t => encDABMT 0x64000000 d a b m t
  | .vfma d a b m t => encDABMT 0x66000000 d a b m t
  | .vfms d a b m t => encDABMT 0x68000000 d a b m t
  | .vfnma d a b m t => encDABMT 0x6A000000 d a b m t
  | .vmin d a b m t => encDABMT 0x6C000000 d a b m t
  | .vmax d a b m t => encDABMT 0x6E000000 d a b m t
  | .vdiv d a b m t => encDABMT 0x70000000 d a b m t
  | .vand d a b m t => encDABMT 0x72000000 d a b m t
  | .vor d a b m t => encDABMT 0x74000000 d a b m t
  | .vxor d a b m t => encDABMT 0x76000000 d a b m t
  | .vsll d a b m t => encDABMT 0x78000000 d a b m t
  | .vsrl d a b m t => encDABMT 0x7A000000 d a b m t
  | .vsra d a b m t => encDABMT 0x7C000000 d a b m t
  | .vadds d a b m t => encDABMT 0x7E000000 d a b m t
  | .vsubs d a b m t => encDABMT 0x80000000 d a b m t
  | .vmulh d a b m t => encDABMT 0x82000000 d a b m t
  | .vabsd d a b m t => encDABMT 0x84000000 d a b m t
  | .vavg d a b m t => encDABMT 0x86000000 d a b m t
  | .vcmpeq d a b m t => encDABMT 0x88000000 d a b m t
  | .vcmplt d a b m t => encDABMT 0x8A000000 d a b m t
  | .vcmple d a b m t => encDABMT 0x8C000000 d a b m t
  | .vcmpne d a b m t => encDABMT 0x8E000000 d a b m t
  | .vsel d a b m t => encDABMT 0x90000000 d a b m t
  | .vperm d a b m t => encDABMT 0x92000000 d a b m t
  | .vzipLo d a b t => encDABT 0x94000000 d a b t
  | .vzipHi d a b t => encDABT 0x94000010 d a b t
  | .vuzpEv d a b t => encDABT 0x94000020 d a b t
  | .vuzpOd d a b t => encDABT 0x94000030 d a b t
  | .vslide d a b r n t => encDABRNT 0x96000000 d a b r n t
  | .vabs d a m t => encDAMT 0x98000000 d a m t
  | .vneg d a m t => encDAMT 0x98000080 d a m t
  | .vsqrt d a m t => encDAMT 0x98000100 d a m t
  | .vrecip d a m t => encDAMT 0x98000180 d a m t
  | .vrsqrt d a m t => encDAMT 0x98000200 d a m t
  | .vnot d a m t => encDAMT 0x98000280 d a m t
  | .vclz d a m t => encDAMT 0x98000300 d a m t
  | .vpopc d a m t => encDAMT 0x98000380 d a m t
  | .vrint d a m t => encDAMT 0x98000400 d a m t
  | .vclass d a m t => encDAMT 0x98000480 d a m t
  | .vmov d a m t => encDAMT 0x98000500 d a m t
  | .vcvt d a s u m t => encDASUMT 0x9A000000 d a s u m t
  | .vredSum d a m t => encDAMT 0x9C000000 d a m t
  | .vredMin d a m t => encDAMT 0x9C000080 d a m t
  | .vredMax d a m t => encDAMT 0x9C000100 d a m t
  | .vredAnd d a m t => encDAMT 0x9C000180 d a m t
  | .vredOr d a m t => encDAMT 0x9C000200 d a m t
  | .vredXor d a m t => encDAMT 0x9C000280 d a m t
  | .vredSumw d a m t => encDAMT 0x9C000300 d a m t
  | .vscanSum d a m t => encDAMT 0x9C000400 d a m t
  | .vscanMin d a m t => encDAMT 0x9C000480 d a m t
  | .vscanMax d a m t => encDAMT 0x9C000500 d a m t
  | .mand d a b => encDAB 0x9E000000 d a b
  | .mor d a b => encDAB 0x9E000010 d a b
  | .mxor d a b => encDAB 0x9E000020 d a b
  | .mandn d a b => encDAB 0x9E000030 d a b
  | .mlen d a => encDA 0x9E000040 d a
  | .mpopc d a => encDA 0x9E000050 d a
  | .mfirst d a => encDA 0x9E000060 d a
  | .mtov d a => encDA 0x9E000070 d a
  | .vsplat d a m t => encDAMT 0xA0000000 d a m t
  | .vext d a b t => encDABT 0xA2000000 d a b t
  | .vins d a b t => encDABT 0xA2000010 d a b t
  | .mxnest y tk => encYTk 0xA8000000 y tk
  | .mxgo tk => encTk 0xA8000100 tk
  | .mxwait tk => encTk 0xA8000200 tk
  | .mxstat x tk => encXTk 0xA8000300 x tk
  | .mxdrain x y m tk => encXYMTk 0xA8000800 x y m tk
  | .mxzero x tk => encXTk 0xA8001000 x tk
  | .mxmma x y n tk => encXYNTk 0xA8001800 x y n tk
  | .tdef x y tk => encXYTk 0xAA000000 x y tk
  | .tvalid y tk => encYTk 0xAA000100 y tk
  | .tinval y tk => encYTk 0xAA000200 y tk
  | .tstat x y tk => encXYTk 0xAA000300 x y tk
  | .twait y tk => encYTk 0xAA000400 y tk
  | .walkAdd x tk => encXTk 0xAC000000 x tk
  | .walkMin x tk => encXTk 0xAC000100 x tk
  | .walkMax x tk => encXTk 0xAC000200 x tk
  | .walkAnd x tk => encXTk 0xAC000300 x tk
  | .walkOr x tk => encXTk 0xAC000400 x tk
  | .walkXor x tk => encXTk 0xAC000500 x tk
  | .walkPopc x tk => encXTk 0xAC000600 x tk
  | .walkHist x tk => encXTk 0xAC000700 x tk
  | .vview x tk => encXTk 0xAE000000 x tk
  | .aview x tk => encXTk 0xAE000100 x tk
  | .vigilMx x y tk _ => encXYTk 0xB0000000 x y tk
  | .vigilVec x tk _ => encXTk 0xB0000100 x tk
  | .vigilRd x tk _ => encXTk 0xB0000200 x tk
  | .amdef x y tk => encXYTk 0xB2000000 x y tk
  | .aset x y tk => encXYTk 0xB2000100 x y tk
  | .astage x y tk => encXYTk 0xB2000200 x y tk
  | .aerr x tk => encXTk 0xB2000300 x tk
  | .adec x tk => encXTk 0xB2000400 x tk
  | .aget x y tk => encXYTk 0xB2000500 x y tk
  | .aput x y tk => encXYTk 0xB2000600 x y tk
  | .astat x y tk => encXYTk 0xB2000700 x y tk
  | .aoff x tk => encXTk 0xB2000800 x tk
  | .await tk => encTk 0xB2000900 tk
  | .shdecl x y tk => encXYTk 0xB4000000 x y tk
  | .apxb x tk => encXTk 0xB4000100 x tk
  | .apxe x tk => encXTk 0xB4000200 x tk
  | .shinv x tk => encXTk 0xB4000300 x tk
  | .shwld x y tk => encXYTk 0xB4000400 x y tk
  | .shwst x y tk => encXYTk 0xB4000500 x y tk
  | .shstat x y tk => encXYTk 0xB4000600 x y tk
  | .shmean x y tk => encXYTk 0xB4000700 x y tk
  | .stG x y p s tk => encXYPSTk 0xC0000000 x y p s tk
  | .stL x y p s tk => encXYPSTk 0xC2000000 x y p s tk
  | .vstG x y p m tk => encXYPMTk 0xC4000000 x y p m tk
  | .vstL x y p m tk => encXYPMTk 0xC6000000 x y p m tk
  | .scat x y e c m tk => encXYECMTk 0xC8000000 x y e c m tk
  | .sbaseS x y tk => encXYTk 0xCA000000 x y tk
  | .sdim0S x y tk => encXYTk 0xCA000100 x y tk
  | .sdim1S x y tk => encXYTk 0xCA000200 x y tk
  | .sdim2S x y tk => encXYTk 0xCA000300 x y tk
  | .smodeS x y tk => encXYTk 0xCA000400 x y tk
  | .sbindS x tk => encXTk 0xCA000500 x tk
  | .sunbindS x tk => encXTk 0xCA000600 x tk
  | .sstartS x tk => encXTk 0xCA000700 x tk
  | .sstopS x tk => encXTk 0xCA000800 x tk
  | .sseekS x y tk => encXYTk 0xCA000900 x y tk
  | .sposS x y tk => encXYTk 0xCA000A00 x y tk
  | .markS tk => encTk 0xCC000000 tk
  | .cpout x y tk => encXYTk 0xCE000000 x y tk
  | .cpout2d x y tk => encXYTk 0xCE000100 x y tk
  | .cpoutT x y tk => encXYTk 0xCE000200 x y tk
  | .amoAdd x y c z tk => encXYCZTk 0xD0000000 x y c z tk
  | .amoAnd x y c z tk => encXYCZTk 0xD0000200 x y c z tk
  | .amoOr x y c z tk => encXYCZTk 0xD0000400 x y c z tk
  | .amoXor x y c z tk => encXYCZTk 0xD0000600 x y c z tk
  | .amoMax x y c z tk => encXYCZTk 0xD0000800 x y c z tk
  | .amoMaxu x y c z tk => encXYCZTk 0xD0000A00 x y c z tk
  | .amoSwap x y c z tk => encXYCZTk 0xD0000C00 x y c z tk
  | .amoCasD x y c tk => encXYCTk 0xD0000E00 x y c tk
  | .amoCasQ x y c tk => encXYCTk 0xD0000F00 x y c tk
  | .tret g => encG 0xE0000000 g
  | .tretN g => encG 0xE0000001 g
  | .ucall g => encG 0xE0000002 g
  | .svc d a g => encDAG 0xE0000003 d a g
  | .tlbinv a b g => encABG 0xE0000004 a b g
  | .scsrwr a b g => encABG 0xE2000000 a b g
  | .segset a b g => encABG 0xE4000000 a b g
  | .segclr a g => encAG 0xE4000001 a g
  | .ctxout a b g => encABG 0xE6000000 a b g
  | .ctxin a b g => encABG 0xE6000001 a b g
  | .asset a b g => encABG 0xE6000002 a b g
  | .pinfo d a g => encDAG 0xE6000003 d a g
  | .pscrub a g => encAG 0xE6000004 a g
  | .errrd d a g => encDAG 0xE8000000 d a g
  | .hrmark a g => encAG 0xE8000001 a g
  | .hint h => encH 0xF0000000 h
  | .emulMajor7c x => encX 0xF8000000 x
  | .emulMajor7d x => encX 0xFA000000 x
  | .emulMajor7e x => encX 0xFC000000 x
  | .undefinedMajor w => w.toNat
  | _ => 0

/-- The instruction word of an instruction. -/
def encodeWord (i : Instr) : Word32 := BitVec.ofNat 32 (encodeNat i)

/-- Whether an instruction is issued as a word: the steps of engines, Drove, firmware and host are not. -/
def Instr.hasWord : Instr → Bool
  | .streamFetch _ _ => false
  | .streamOutboundWrite _ _ => false
  | .translationWalk _ _ _ => false
  | .invalidationApply _ => false
  | .matrixOpRun _ => false
  | .fetcherCopy _ _ => false
  | .walkRun _ => false
  | .vigilCheck _ => false
  | .almanacStep _ => false
  | .shepherdOperation _ => false
  | .copyPieceLand _ => false
  | .outboundCopyExecute _ => false
  | .outboundCopyComplete _ => false
  | .copyFreeze _ => false
  | .freezeResume _ => false
  | .freezeUnresolvable _ => false
  | .faultServiceAnswer _ _ => false
  | .chainEnd _ _ => false
  | .chainCopy _ _ => false
  | .chainCopy2d _ _ => false
  | .chainWait _ _ => false
  | .chainPost _ _ => false
  | .chainLink _ _ => false
  | .chainFlag _ _ => false
  | .chainArrive _ _ => false
  | .pendingKickStart _ _ => false
  | .postDeparture _ => false
  | .qpostDelivery _ => false
  | .hostAtomicopCompletion _ _ => false
  | .peerWriteAck _ => false
  | .peerRefused _ => false
  | .remoteHurdleArrival _ => false
  | .stealRequestArrival _ => false
  | .stealGrant _ => false
  | .stealRefusal _ => false
  | .detectedErrorReplay _ _ => false
  | .unitAdoption _ _ => false
  | .outOfRegionError _ => false
  | .snapshotStoreError _ => false
  | .dieFailover _ => false
  | .thermalTrip _ => false
  | .thermalThrottle _ => false
  | .powerEstimate _ _ => false
  | .boostInterval => false
  | .dtimeSync _ => false
  | .patrolScrub _ => false
  | .glitchDetect => false
  | .packageReset _ => false
  | .firmwareRestart _ _ => false
  | .firmwareUpdate _ _ _ => false
  | .flrOwner _ => false
  | .flrQueueFunction _ => false
  | .portalDmwr _ _ _ => false
  | .portalPostedWrite _ _ _ => false
  | .portalWake _ _ => false
  | .queueActivate _ _ => false
  | .queueStop _ _ => false
  | .queueUnmap _ _ => false
  | .queueUnmapped _ _ => false
  | .headConditionSatisfied _ _ => false
  | .queueFetch _ _ => false
  | .nopPacket _ _ => false
  | .launchPacket _ _ => false
  | .nodePacket _ _ => false
  | .waitAllPacket _ _ => false
  | .waitAnyPacket _ _ => false
  | .signalPacket _ _ => false
  | .cancelPacket _ _ => false
  | .gangPacket _ _ => false
  | .gangMessageReceive _ _ _ _ => false
  | .gangGoDecision _ _ => false
  | .gangRelease _ _ => false
  | .dispatch _ => false
  | .candidateAged _ _ => false
  | .standingClaim _ _ => false
  | .unitCompletion _ => false
  | .msixMessage _ => false
  | .preemptionRequest _ => false
  | .contextSwitch _ => false
  | .flitCrcFailure _ _ => false
  | .linkTrainingTimeout _ _ => false
  | .hostMemoryAccess _ _ _ => false
  | .loaderDoorbell _ => false
  | .loadRequest => false
  | .fenWrite _ _ => false
  | .ringEnable _ _ => false
  | .mirroredSizeSet _ => false
  | .hostRegisterWrite _ _ => false
  | .tetherPeerAccess _ _ _ => false
  | .peerAtomicCompletion _ => false
  | .linkTrainingComplete _ _ => false
  | .thermalThrottleEnd _ => false
  | .ownerProvisioning _ _ => false
  | _ => true

/-- The field checks of R51 after the subfunction: must-be-zero bits and unused fields (every bit outside the row's fixed bits and its
operand fields is zero, so the word must be the encoding of what was read), then register ranges, then element types. -/
def checkFields (w : Word32) (i : Instr) : Except Reject Instr :=
  if encodeWord i ≠ w ∨ i.modeOk = false then .error .mustBeZero
  else if i.rangeOk = false then .error .range
  else if i.typeOk = false then .error .elementType
  else .ok i

/-- The instruction a word stands for, given the word after it (read only by `vigil`), or the reason there is none. -/
noncomputable def decodeWord (w lit : Word32) : Except Reject Instr :=
  match rawDecode w lit with
  | none => .error .unassigned
  | some i => checkFields w i

/-- The words of an instruction: one, or for `vigil` two; none for a step that has no word. -/
def encode (i : Instr) : List Word32 :=
  match i with
  | .vigilMx _ _ _ lit | .vigilVec _ _ lit | .vigilRd _ _ lit => [encodeWord i, lit]
  | _ => if i.hasWord then [encodeWord i] else []

/-- A word from its four bytes, lowest address first (R4, R35). -/
def wordOfBytes (b0 b1 b2 b3 : Byte) : Word32 :=
  BitVec.ofNat 32 (b0.toNat + b1.toNat * 2 ^ 8 + b2.toNat * 2 ^ 16 + b3.toNat * 2 ^ 24)

/-- The four bytes of a word, lowest address first. -/
def bytesOfWord (w : Word32) : List Byte :=
  [BitVec.ofNat 8 w.toNat, BitVec.ofNat 8 (w.toNat / 2 ^ 8), BitVec.ofNat 8 (w.toNat / 2 ^ 16),
    BitVec.ofNat 8 (w.toNat / 2 ^ 24)]

/-- The decoder on bytes: total, reading one word, and as the literal of a `vigil` the word after it (zero where it is not given). -/
noncomputable def decodeBytes : List Byte → Except Reject Instr
  | b0 :: b1 :: b2 :: b3 :: c0 :: c1 :: c2 :: c3 :: _ => decodeWord (wordOfBytes b0 b1 b2 b3) (wordOfBytes c0 c1 c2 c3)
  | b0 :: b1 :: b2 :: b3 :: _ => decodeWord (wordOfBytes b0 b1 b2 b3) 0
  | _ => .error .truncated

/-- The instruction the decoder reads from an instruction whose bits are `w`, numbered as the opcode table numbers them: the first word is
bits 31:0 and a literal word is bits 63:32. Every row of the table that has bits has 32. -/
noncomputable def decodeTableWord (nbits w : Nat) : Option Instr :=
  let v := w % 2 ^ nbits
  (decodeBytes (bytesOfWord (BitVec.ofNat 32 v) ++ bytesOfWord (BitVec.ofNat 32 (v / 2 ^ 32)))).toOption

end Sys2Proof
end

