-- ==== Sys2Proof/Machine/Port.lean ====
section
/-! DEFINITION. Translation checks over ranges (R149), and vector operands: the operand store, and the ports of the stream engines with
their pops and pushes (R65, R155 to R162). -/

namespace Sys2Proof.Machine

/-! ## Checks over several addresses (R149, R236) -/

/-- The address at which a row starts and the boundaries of 4,096 bytes within it. -/
def rowPoints (a : Word) (n : Nat) : List Word :=
  a :: (List.range ((a.toNat % 4096 + n - 1) / 4096)).map fun k => a + BitVec.ofNat 64 (4096 - a.toNat % 4096 + 4096 * k)

/-- Addresses in ascending order: those past the wrap at 2⁶⁴ come first. -/
def wrapOrder (a : Word) (l : List Word) : List Word :=
  l.filter (fun x => decide (x.toNat < a.toNat)) ++ l.filter fun x => decide (a.toNat ≤ x.toNat)

/-- The first translation fault of a list of addresses (R167). -/
def pageFault (s : State) (ci : Nat) (k : AccessKind) : List Word → Option Trap
  | [] => none
  | a :: r =>
    match transTarget s ci a k with
    | .error t => some t
    | .ok _ => pageFault s ci k r

/-- The first address of a list whose window lacks an attribute: HOST_WINDOW (R169). -/
def windowFault (s : State) (ci : Nat) (k : AccessKind) (attr : Nat) (l : List Word) : Option Trap :=
  (l.find? fun a =>
    match transTarget s ci a k with
    | .ok (tg, _) => !windowAllows s (partOf (getCore s ci)) tg attr
    | .error _ => false).map fun a => mkTrap 0x16 0 a

/-- CBUF_OVERFLOW with its detail (R274); its TVAL is open (log 4). -/
def overflow (s : State) (detail : Nat) : Res := raise 0x24 detail (openWord s 0)

/-! ## Stream engines (R155, R156) -/

/-- A stream engine of a core. -/
def streamOf (a : Arch) (q : Nat) : Stream := vget a.streams Stream.zero q

/-- A stream engine replaced. -/
def putStream (a : Arch) (q : Nat) (x : Stream) : Arch := { a with streams := vset a.streams q x }

/-- The FIFO of a stream engine. -/
def fifoOf (c : Core) (q : Nat) : Fifo := vget c.fifos Fifo.zero q

/-- The FIFO of a stream engine replaced. -/
def putFifo (c : Core) (q : Nat) (x : Fifo) : Core := { c with fifos := vset c.fifos q x }

/-- TOTAL (R156). -/
def totalOf (x : Stream) : Nat := x.c0.toNat * x.c1.toNat * x.c2.toNat

/-- Addr(p) before it is taken mod 2⁶⁴ (R156). -/
def streamAddr (x : Stream) (p : Nat) : Int :=
  x.base.toNat + (p % x.c0.toNat : Nat) * x.s0.toInt + (p / x.c0.toNat % x.c1.toNat : Nat) * x.s1.toInt
    + (p / (x.c0.toNat * x.c1.toNat) : Nat) * x.s2.toInt

/-- Whether POS is at TOTAL or the engine does not run: a pop gives zeros and a push is discarded (R159, R160). -/
def streamPast (x : Stream) : Bool := !x.running || decide (totalOf x ≤ x.pos.toNat)

/-- STREAM_FAULT at lane `lane` of the vector at position `p` (R162). -/
def streamTrap (q detail : Nat) (tval : Word) (p lane : Nat) : Trap :=
  { cause := 0x15, detail := detail, tval := tval, strm := some (q, 64 * p + lane) }

/-- STREAM_FAULT with detail 0 for a port that an instruction must not use so, or uses in the wrong direction: no byte fails, and TVAL and the
lane are open (log 4). -/
def streamMisused (s : State) (q p : Nat) : Trap := streamTrap q 0 (openWord s 3) p ((openWord s 11).toNat % 64)

/-- The first byte of a local vector that fails R134: its offset and lane. -/
def localVecFault (a : Arch) (x : Stream) (p : Nat) : Option (Word × Nat) :=
  let o := streamAddr x p
  let w := BitVec.ofInt 64 o
  if o < 0 ∨ 2 ^ 23 ≤ o then some (w, 0)
  else match localFault a w 256 with
    | none => none
    | some f => some (f, (f.toNat - w.toNat) / 4)

/-- The fault of the translation of a vector's 256 bytes for an access that needs a right and a window attribute, with its lane: that of the
lowest failing byte (R162). -/
def globalVecFault (s : State) (ci : Nat) (a : Word) (k : AccessKind) (attr : Nat) : Option (Trap × Nat) :=
  let pts := wrapOrder a (rowPoints a 256)
  (match pageFault s ci k pts with
   | some t => some t
   | none => windowFault s ci k attr pts).map fun t => (t, (t.tval - a).toNat / 4)

/-! ## Pops and pushes (R159, R160) -/

/-- What comes of a pop or a push. -/
inductive Ported where
  | ok (s : State) (v : List Lane)
  | wait
  | trap (t : Trap)
  /-- CBUF_OVERFLOW. -/
  | over

/-- 64 lanes of +0. -/
def zeroVec : List Lane := List.replicate 64 Lane.zero

/-- One vector popped from port `q` (R159). -/
def popPort (s : State) (ci q : Nat) : Ported :=
  let c := getCore s ci
  let x := streamOf c.a q
  let f := fifoOf c q
  if x.out then .trap (streamMisused s q x.pos.toNat)
  else if streamPast x then .ok (modArch s ci fun a => putStream a q { x with eos := true }) zeroVec
  else match f.vecs with
    | v :: r =>
        .ok (modCore s ci fun c =>
          putFifo { c with a := putStream c.a q { x with pos := x.pos + 1 } } q { f with vecs := r, first := f.first + 1 }) v
    | [] => match f.fault with
      | some t => .trap t
      | none => .wait

/-- A store's bytes at their physical address, found free of faults. -/
def storePiece (s : State) (ci : Nat) (a : Word) (b : List Byte) : List StorePiece :=
  match transTarget s ci a .write with
  | .ok (_, pa) => [(pa, a, b)]
  | .error _ => []

/-- The sectors of a vector's words with their bytes, each word at its own physical address. -/
def vecStores (s : State) (ci : Nat) (a : Word) (k : Nat) : List Lane → List StorePiece
  | [] => []
  | x :: r => storePiece s ci (a + BitVec.ofNat 64 (4 * k)) (wordBytes x.data) ++ vecStores s ci a (k + 1) r

/-- The position of the first poisoned lane. -/
def firstPsn (k : Nat) : List Lane → Option Nat
  | [] => none
  | x :: r => if x.psn then some k else firstPsn (k + 1) r

/-- A vector appended to the FIFO of an outbound engine that has been found free of faults. -/
def appendVec (c : Core) (q : Nat) (v : List Lane) : Core :=
  let x := streamOf c.a q
  let f := fifoOf c q
  putFifo { c with a := putStream c.a q { x with pos := x.pos + 1 } } q
    { f with vecs := f.vecs ++ [v], first := if f.vecs.isEmpty then x.pos.toNat else f.first }

/-- One vector pushed to port `q` (R160). A global vector's words enter the commit buffer at the push (log 6). -/
def pushPort (s : State) (ci q : Nat) (v : List Lane) : Ported :=
  let c := getCore s ci
  let x := streamOf c.a q
  let p := x.pos.toNat
  let a := BitVec.ofInt 64 (streamAddr x p)
  if !x.out then .trap (streamMisused s q p)
  else if streamPast x then .ok (modArch s ci fun a => putStream a q { x with eos := true }) v
  else if x.loc then
    match localVecFault c.a x p with
    | some (w, l) => .trap (streamTrap q 0x10 w p l)
    | none => if 8 ≤ (fifoOf c q).vecs.length then .wait else .ok (modCore s ci fun c => appendVec c q v) v
  else match globalVecFault s ci a .write 2 with
    | some (t, l) => .trap (if isRetry t then t else streamTrap q t.cause t.tval p l)
    | none => match firstPsn 0 v with
      | some l => .trap (streamTrap q 0x20 (a + BitVec.ofNat 64 (4 * l)) p l)
      | none => match enterStores c.cbuf (vecStores s ci a 0 v) with
        | none => .over
        | some b =>
          if 8 ≤ (fifoOf c q).vecs.length then .wait else .ok (modCore s ci fun c => appendVec { c with cbuf := b } q v) v

/-! ## Vector operands (R62, R65) -/

/-- The port that a vector register name stands for, while its engine is bound. -/
def portOf (c : Core) (n : Nat) : Option Nat :=
  if 56 ≤ n ∧ n < 64 ∧ (streamOf c.a (n - 56)).bound then some (n - 56) else none

/-- Each port that a list of vector names holds, once, in order. -/
def portsOf (c : Core) (ns : List Nat) : List Nat := (ns.filterMap (portOf c)).eraseDups

/-- Pops of several ports in order, with the vectors they gave. -/
def popAll (s : State) (ci : Nat) : List Nat → Except Res (State × List (Nat × List Lane))
  | [] => .ok (s, [])
  | q :: r =>
    match popPort s ci q with
    | .wait => .error .stall
    | .trap t => .error (.raise t)
    | .over => .error (overflow s 0)
    | .ok s' v => match popAll s' ci r with
      | .error x => .error x
      | .ok (s'', l) => .ok (s'', (q, v) :: l)

/-- A meaning on the vector operands of a word: a port pops once, however often it is named; other names are read from the operand store. -/
def withV (e : Env) (s : State) (ns : List Nat) (k : List (List Lane) → State → Res) : Res :=
  match popAll s e.ci (portsOf e.rd ns) with
  | .error r => r
  | .ok (s', got) =>
    k (ns.map fun n =>
        match portOf e.rd n with
        | some q => (match got.find? (fun x => x.1 == q) with | some x => x.2 | none => zeroVec)
        | none => readV e.rd n) s'

/-- Bit `i` of mask register `n`: m0 has every bit set (R61). -/
def maskBit (a : Arch) (n i : Nat) : Bool := n == 0 || bitOf (vget a.masks 0 n) i

/-- The core with the lanes of vector register `n`, as the view of `a` names it, written where `on` holds. -/
def writeLanes (a : Arch) (c : Core) (n : Nat) (v : List Lane) (on : Nat → Bool) : Core :=
  (List.range 64).foldl (fun c i => if on i then putOst c (vLane a n i) (nth Lane.zero v i) else c) c

/-- A result written to vector register `n`: a port takes the whole vector with inactive lanes +0, the operand store the active lanes, where the
view that the word issues under puts them (R62, R64). -/
def storeV (e : Env) (s : State) (n : Nat) (v : List Lane) (on : Nat → Bool) (k : State → Res) : Res :=
  match portOf e.rd n with
  | none => k (modCore s e.ci fun c => writeLanes e.rd.a c n v on)
  | some q =>
    match pushPort s e.ci q ((List.range 64).map fun i => if on i then nth Lane.zero v i else Lane.zero) with
    | .wait => .stall
    | .trap t => .raise t
    | .over => overflow s 0
    | .ok s' _ => k s'

end Sys2Proof.Machine
end

