-- ==== Sys2Proof/Machine/Memory.lean ====
section
/-! DEFINITION. Loads and stores (R144 to R149), `mark` (R143), prefetch and stash control (R151 to R153), fences (R154, R173), and the steps
that apply an invalidation and fill a TLB (R170, R177). -/

namespace Sys2Proof.Machine

/-! ## Accesses that several forms share -/

/-- The first fault of a list of addresses for a right and a window attribute: translation first, then HOST_WINDOW (R149). -/
def globalFault (s : State) (ci : Nat) (k : AccessKind) (attr : Nat) (l : List Word) : Option Trap :=
  match pageFault s ci k l with
  | some t => some t
  | none => windowFault s ci k attr l

/-- Whether an access of `n` bytes at one of some addresses meets a line that another core has pinned (R182), unless the open region's stores
serve it; an engine's access, with `n` zero, is served by none. -/
def pinBlocked (s : State) (ci : Nat) (n : Nat) (l : List Word) : Bool :=
  l.any fun a =>
    match transTarget s ci a .read with
    | .ok (.dev pa, _) => pinnedByOther s ci pa && (n == 0 || !allForwarded (getCore s ci).cbuf pa n)
    | _ => false

/-- A load of `n` bytes that lie in one line, found free of faults (R140). -/
def loadGlobal (s : State) (ci : Nat) (a : Word) (n : Nat) : State × List Byte × Bool :=
  match transTarget s ci a .read with
  | .ok (tg, pa) => readLoad s ci a tg pa n
  | .error _ => (s, [], false)

/-- Stores entered in the commit buffer, or CBUF_OVERFLOW (R139). -/
def enterAll (e : Env) (s : State) (l : List StorePiece) (k : State → Res) : Res :=
  match enterStores (getCore s e.ci).cbuf l with
  | none => overflow s 0
  | some b => k (modCore s e.ci fun c => { c with cbuf := b })

/-- The destinations that post-increment adds (R144). -/
def incDst (p : BitVec 1) (y : BitVec 6) : List (BitVec 6) := if p = 1 then [y] else []

/-! ## Scalar loads and stores (R145, R146) -/

/-- The end of a scalar load: the value extended, its mark, and the post-increment unless it names the same register. -/
def finishLoad (e : Env) (s : State) (d a : BitVec 6) (p u : BitVec 1) (n : Nat) (b : List Byte) (mark : Bool) : Res :=
  let v := leNat b
  let s1 := setX e s d (if u = 1 then BitVec.ofNat 64 v else sext64 (8 * n) v) mark
  .done (if p = 1 ∧ d ≠ a then setX e s1 a ((e.x a).val + BitVec.ofNat 64 n) false else s1)

/-- A scalar load (R145). -/
def loadScalar (e : Env) (s : State) (sp : Space) (d a : BitVec 6) (p u : BitVec 1) (sz : BitVec 2) : Res :=
  let v := (e.x a).val
  let n := 2 ^ sz.toNat
  consume e [(a, 0)]
    (if v.toNat % n ≠ 0 then raise 0x14 0 v
    else match sp with
      | .local =>
        match localFault e.rd.a v n with
        | some t => raise 0x10 0 t
        | none =>
          let c := getCore s e.ci
          finishLoad e s d a p u n (scrBytes c v.toNat n) (scrMarked c v.toNat n)
      | .global =>
        match globalFault s e.ci .read 1 [v] with
        | some t => .raise t
        | none =>
          if pinBlocked s e.ci n [v] then .retry
          else
            let r := loadGlobal s e.ci v n
            finishLoad e r.1 d a p u n r.2.1 r.2.2)

/-- The end of a store: the post-increment by `n`. -/
def finishStore (e : Env) (s : State) (a : BitVec 6) (p : BitVec 1) (n : Nat) : Res :=
  .done (if p = 1 then setX e s a ((e.x a).val + BitVec.ofNat 64 n) false else s)

/-- A scalar store (R146). -/
def storeScalar (e : Env) (s : State) (sp : Space) (d a : BitVec 6) (p : BitVec 1) (sz : BitVec 2) : Res :=
  let v := (e.x a).val
  let n := 2 ^ sz.toNat
  let b := natBytes n (e.x d).val.toNat
  consume e [(a, 0)]
    (if v.toNat % n ≠ 0 then raise 0x14 0 v
    else match sp with
      | .local =>
        match localFault e.rd.a v n with
        | some t => raise 0x10 0 t
        | none => finishStore e (modCore s e.ci fun c => scrStore c v.toNat b (e.x d).psn) a p n
      | .global =>
        match globalFault s e.ci .write 2 [v] with
        | some t => .raise t
        | none => consume e [(d, 2)] (enterAll e s (storePiece s e.ci v b) fun s => finishStore e s a p n))

/-- LD_G (R145). -/
def execLdG (x y : BitVec 6) (p u : BitVec 1) (sf : BitVec 2) (tk : Tk) (s : State) : Host.Outcome State Fault Refusal :=
  issueE (encXYPUSTk 0x40000000 x y p u sf tk) ([x] ++ incDst p y) tk s fun e s => loadScalar e s .global x y p u sf

/-- LD_L (R145). -/
def execLdL (x y : BitVec 6) (p u : BitVec 1) (sf : BitVec 2) (tk : Tk) (s : State) : Host.Outcome State Fault Refusal :=
  issueE (encXYPUSTk 0x42000000 x y p u sf tk) ([x] ++ incDst p y) tk s fun e s => loadScalar e s .local x y p u sf

/-- ST_G (R146). -/
def execStG (x y : BitVec 6) (p : BitVec 1) (sf : BitVec 2) (tk : Tk) (s : State) : Host.Outcome State Fault Refusal :=
  issueE (encXYPSTk 0xC0000000 x y p sf tk) (incDst p y) tk s fun e s => storeScalar e s .global x y p sf

/-- ST_L (R146). -/
def execStL (x y : BitVec 6) (p : BitVec 1) (sf : BitVec 2) (tk : Tk) (s : State) : Host.Outcome State Fault Refusal :=
  issueE (encXYPSTk 0xC2000000 x y p sf tk) (incDst p y) tk s fun e s => storeScalar e s .local x y p sf

/-! ## Vector loads and stores (R147) -/

/-- The active lanes of a mask, in ascending order. -/
def activeLanes (a : Arch) (m : BitVec 3) : List Nat := (List.range 64).filter (maskBit a m.toNat)

/-- The address of lane `i` of a vector at `a`. -/
def laneAddr (a : Word) (i : Nat) : Word := a + BitVec.ofNat 64 (4 * i)

/-- The addresses of some lanes of a vector at `a` in ascending order: those past the wrap at 2⁶⁴ come first. -/
def laneAddrs (a : Word) (l : List Nat) : List Word :=
  let w := l.map (laneAddr a)
  w.filter (fun x => decide (x.toNat < a.toNat)) ++ w.filter fun x => decide (a.toNat ≤ x.toNat)

/-- The first lane of a local vector that fails R134: its offset. -/
def laneFault (ar : Arch) (a : Word) (l : List Nat) : Option Word :=
  (l.find? fun i => decide (plain ar < a.toNat + 4 * i + 4)).map (laneAddr a)

/-- A 32-bit word of global memory loaded as a lane. -/
def loadLaneG (s : State) (ci : Nat) (a : Word) : State × Lane :=
  let r := loadGlobal s ci a 4
  (r.1, { data := BitVec.ofNat 32 (leNat r.2.1), psn := r.2.2 })

/-- The lanes of a vector with those of a list loaded from global memory. -/
def loadLanesG (s : State) (ci : Nat) (v : List Lane) : List (Nat × Word) → State × List Lane
  | [] => (s, v)
  | (i, a) :: r =>
    let x := loadLaneG s ci a
    loadLanesG x.1 ci (setNth x.2 v i) r

/-- The lanes of a vector with those of a list loaded from the scratchpad. -/
def loadLanesL (c : Core) (v : List Lane) : List (Nat × Nat) → List Lane
  | [] => v
  | (i, o) :: r => loadLanesL c (setNth (scrWord c (o / 4)) v i) r

/-- A vector load (R147). -/
def loadVector (e : Env) (s : State) (sp : Space) (d a : BitVec 6) (p : BitVec 1) (m : BitVec 3) : Res :=
  let v := (e.x a).val
  let act := activeLanes e.rd.a m
  let old := if (portOf e.rd d.toNat).isSome then zeroVec else readV e.rd d.toNat
  let put := fun (s : State) t => storeV e s d.toNat t (maskBit e.rd.a m.toNat) fun s => finishStore e s a p 256
  consume e [(a, 0)]
    (if v.toNat % 4 ≠ 0 then raise 0x14 0 v
    else match sp with
      | .local =>
        match laneFault e.rd.a v act with
        | some t => raise 0x10 0 t
        | none => put s (loadLanesL (getCore s e.ci) old (act.map fun i => (i, v.toNat + 4 * i)))
      | .global =>
        let l := laneAddrs v act
        match globalFault s e.ci .read 1 l with
        | some t => .raise t
        | none =>
          if pinBlocked s e.ci 4 l then .retry
          else
            let r := loadLanesG s e.ci old (act.map fun i => (i, laneAddr v i))
            put r.1 r.2)

/-- The first poisoned lane among those of a list. -/
def lanePsn (v : List Lane) (l : List Nat) : Option Nat := l.find? fun i => (nth Lane.zero v i).psn

/-- The core with lanes stored into the scratchpad, word and mark. -/
def storeLanesL (c : Core) (v : List Lane) : List (Nat × Nat) → Core
  | [] => c
  | (i, o) :: r => storeLanesL (putScr c (o / 4) (nth Lane.zero v i)) v r

/-- The words of some lanes at their physical addresses. -/
def lanePieces (s : State) (ci : Nat) (v : List Lane) (l : List (Nat × Word)) : List StorePiece :=
  l.flatMap fun x => storePiece s ci x.2 (wordBytes (nth Lane.zero v x.1).data)

/-- A vector store (R147). -/
def storeVector (e : Env) (s : State) (sp : Space) (d a : BitVec 6) (p : BitVec 1) (m : BitVec 3) : Res :=
  let v := (e.x a).val
  let act := activeLanes e.rd.a m
  consume e [(a, 0)]
    (if v.toNat % 4 ≠ 0 then raise 0x14 0 v
    else withV e s [d.toNat] fun vs s =>
      let t := nth [] vs 0
      match sp with
      | .local =>
        match laneFault e.rd.a v act with
        | some f => raise 0x10 0 f
        | none => finishStore e (modCore s e.ci fun c => storeLanesL c t (act.map fun i => (i, v.toNat + 4 * i))) a p 256
      | .global =>
        match globalFault s e.ci .write 2 (laneAddrs v act) with
        | some f => .raise f
        | none => match lanePsn t act with
          | some i => raise 0x20 2 (BitVec.ofNat 64 i)
          | none => enterAll e s (lanePieces s e.ci t (act.map fun i => (i, laneAddr v i))) fun s => finishStore e s a p 256)

/-- VLD_G (R147). -/
def execVldG (x y : BitVec 6) (p : BitVec 1) (m : BitVec 3) (tk : Tk) (s : State) : Host.Outcome State Fault Refusal :=
  issueE (encXYPMTk 0x44000000 x y p m tk) (incDst p y) tk s fun e s => loadVector e s .global x y p m

/-- VLD_L (R147). -/
def execVldL (x y : BitVec 6) (p : BitVec 1) (m : BitVec 3) (tk : Tk) (s : State) : Host.Outcome State Fault Refusal :=
  issueE (encXYPMTk 0x46000000 x y p m tk) (incDst p y) tk s fun e s => loadVector e s .local x y p m

/-- VST_G (R147). -/
def execVstG (x y : BitVec 6) (p : BitVec 1) (m : BitVec 3) (tk : Tk) (s : State) : Host.Outcome State Fault Refusal :=
  issueE (encXYPMTk 0xC4000000 x y p m tk) (incDst p y) tk s fun e s => storeVector e s .global x y p m

/-- VST_L (R147). -/
def execVstL (x y : BitVec 6) (p : BitVec 1) (m : BitVec 3) (tk : Tk) (s : State) : Host.Outcome State Fault Refusal :=
  issueE (encXYPMTk 0xC6000000 x y p m tk) (incDst p y) tk s fun e s => storeVector e s .local x y p m

/-! ## Gather and scatter (R148) -/

/-- The address of a lane as an exact integer. -/
def indexed (a : Word) (one : BitVec 1) (x : Lane) : Int := a.toNat + x.data.toInt * (if one = 1 then 1 else 4)

/-- The checks that `gath` and `scat` share (R149) on the lanes of an index vector at the base `a`: the trap of the first that fails. A local base
above bit 22 fails every lane (R134). -/
def indexTrap (e : Env) (s : State) (loc : Bool) (k : AccessKind) (attr : Nat) (a : Word) (idx : List Lane) (l : List (Nat × Int)) :
    Option Trap :=
  match lanePsn idx (l.map fun x => x.1) with
  | some i => some (mkTrap 0x20 0 (BitVec.ofNat 64 i))
  | none => match l.find? (fun x => x.2 % 4 != 0) with
    | some x => some (mkTrap 0x14 0 (BitVec.ofInt 64 x.2))
    | none =>
      if loc then
        (l.find? fun x => decide (2 ^ 23 ≤ a.toNat) || decide (x.2 < 0) || decide ((plain e.rd.a : Int) < x.2 + 4)).map fun x => mkTrap 0x10 0 (BitVec.ofInt 64 x.2)
      else globalFault s e.ci k attr (l.map fun x => BitVec.ofInt 64 x.2)

/-- STREAM_FAULT for a `gath` or `scat` that names a bound port. -/
def portNamed (e : Env) (s : State) (q : Nat) : Res := .raise (streamMisused s q (streamOf e.rd.a q).pos.toNat)

/-- GATH (R148): `loc` is the local space, `one` the scale 1. A poisoned base is reported before a poisoned index (log 53). -/
def gatherV (e : Env) (s : State) (d a : BitVec 6) (loc one : BitVec 1) (m : BitVec 3) : Res :=
  match portOf e.rd d.toNat with
  | some q => portNamed e s q
  | none =>
    let idx := readV e.rd d.toNat
    let l := (activeLanes e.rd.a m).map fun i => (i, indexed (e.x a).val one (nth Lane.zero idx i))
    let put := fun (s : State) t => Res.done (modCore s e.ci fun c => writeLanes e.rd.a c d.toNat t (maskBit e.rd.a m.toNat))
    consume e [(a, 0)]
      (match indexTrap e s (loc == 1) .read 1 (e.x a).val idx l with
      | some t => .raise t
      | none =>
        if loc = 1 then put s (loadLanesL (getCore s e.ci) idx (l.map fun x => (x.1, x.2.toNat)))
        else
          let g := l.map fun x => (x.1, BitVec.ofInt 64 x.2)
          if pinBlocked s e.ci 4 (g.map fun x => x.2) then .retry
          else
            let r := loadLanesG s e.ci idx g
            put r.1 r.2)

/-- SCAT (R148): the data are in v(d), the indices in v(d + 1). A poisoned base is reported before a poisoned index (log 53). -/
def scatterV (e : Env) (s : State) (d a : BitVec 6) (loc one : BitVec 1) (m : BitVec 3) : Res :=
  match portsOf e.rd [d.toNat, d.toNat + 1] with
  | q :: _ => portNamed e s q
  | [] =>
    let t := readV e.rd d.toNat
    let idx := readV e.rd (d.toNat + 1)
    let act := activeLanes e.rd.a m
    let l := act.map fun i => (i, indexed (e.x a).val one (nth Lane.zero idx i))
    consume e [(a, 0)]
      (match indexTrap e s (loc == 1) .write 2 (e.x a).val idx l with
      | some f => .raise f
      | none =>
        if loc = 1 then .done (modCore s e.ci fun c => storeLanesL c t (l.map fun x => (x.1, x.2.toNat)))
        else match lanePsn t act with
          | some i => raise 0x20 2 (BitVec.ofNat 64 i)
          | none => enterAll e s (lanePieces s e.ci t (l.map fun x => (x.1, BitVec.ofInt 64 x.2))) fun s => .done s)

/-- GATH (R148). -/
def execGath (x y : BitVec 6) (ef c : BitVec 1) (m : BitVec 3) (tk : Tk) (s : State) : Host.Outcome State Fault Refusal :=
  issueE (encXYECMTk 0x48000000 x y ef c m tk) [] tk s fun e s => gatherV e s x y ef c m

/-- SCAT (R148). -/
def execScat (x y : BitVec 6) (ef c : BitVec 1) (m : BitVec 3) (tk : Tk) (s : State) : Host.Outcome State Fault Refusal :=
  issueE (encXYECMTk 0xC8000000 x y ef c m tk) [] tk s fun e s => scatterV e s x y ef c m

/-! ## Marks (R143) -/

/-- A cluster that reaches its `mark` in split mode, with its tokens at hand: it is seen to have reached it, and issues the word again until
its partner has reached its own. A word that raises has not reached it. -/
def reachMark (s : State) (w : Nat) (tk : Tk) : State :=
  let e := envOf s
  let pop := popPair e.cl tk.tkin.toNat
  let push := pushPair e.cl tk.tkout.toNat
  if e.rd.a.mode = .split ∧ issueTrap w [] s e = none ∧ popReady e.rd.a pop ∧ pushReady e.rd.a push then
    modArch s e.ci fun a => { a with clst := vset a.clst (cnum e.cl) (.atMark pop push) }
  else s

/-- The partner of L or S at a `mark`. -/
def markPartner (cl : Cluster) : Cluster := if cl = .l then .s else .l

/-- The core once a cluster that waits at its `mark` has issued it with its partner's: its tokens move, and it goes on. -/
def passMark (c : Core) (cl : Cluster) (pop push : Push) : Core :=
  let a := deliverTok (holdTok (popTok c.a pop) push) push
  advance { c with a := { a with clst := vset a.clst (cnum cl) .run } } cl 0

/-- A `mark` of L or S: in joint mode the L and S slots of a bundle are one paired mark; in split mode the word waits until its partner has
reached its own, and the two issue together, so that the counts stay equal. -/
def markWord (e : Env) (s : State) : Res :=
  let a := (getCore s e.ci).a
  let both := fun (a : Arch) => { a with markL := a.markL + 1, markS := a.markS + 1 }
  match e.rd.a.mode with
  | .joint => if a.markL = e.rd.a.markL then .done (modArch s e.ci both) else .done s
  | .split =>
    match vget a.clst .run (cnum (markPartner e.cl)) with
    | .atMark pop push =>
      .done (modCore s e.ci fun c =>
        passMark { c with a := { both c.a with clst := vset c.a.clst (cnum e.cl) .run } } (markPartner e.cl) pop push)
    | _ => .stall

/-- MARK_L (R143). -/
def execMarkL (tk : Tk) (s : State) : Host.Outcome State Fault Refusal :=
  issueE (encTk 0x4C000000 tk) [] tk (reachMark s (encTk 0x4C000000 tk) tk) fun e s => markWord e s

/-- MARK_S (R143). -/
def execMarkS (tk : Tk) (s : State) : Host.Outcome State Fault Refusal :=
  issueE (encTk 0xCC000000 tk) [] tk (reachMark s (encTk 0xCC000000 tk) tk) fun e s => markWord e s

/-! ## Prefetch and stash control (R151, R152) -/

/-- A line of device memory brought into the stash or the L1 of a core, unless it is there (R151, R152). -/
def prefetch (s : State) (ci : Nat) (va : Word) (pa : Nat) : State :=
  let c := getCore s ci
  if (if inStash c.a va then (stashFind c (pa / 128)).isSome else (l1Find c (pa / 128)).isSome) then modCore s ci fun c => fillLine c va pa 0
  else
    let t := touchLine s (partOf c) ci (some ci) pa va
    modCore t.1 ci fun c => fillLine c va pa t.2

/-- PREF_G (R152): a fill that meets a pinned line is reissued (R182). -/
def execPrefG (y : BitVec 6) (tk : Tk) (s : State) : Host.Outcome State Fault Refusal :=
  issueE (encYTk 0x50000000 y tk) [] tk s fun e s =>
    let v := (e.x y).val
    if (e.x y).psn then .done s
    else match transTarget s e.ci v .read with
      | .ok (.dev pa, _) => if pinnedByOther s e.ci pa then .retry else .done (prefetch s e.ci v pa)
      | .ok _ => .done s
      | .error t => if isRetry t then .retry else .done s

/-- The scratchpad with the words from an offset on cleared. -/
def clearFrom (m : Sparse Lane) (o : Nat) : Sparse Lane := m.filter fun x => decide (4 * x.1 < o)

/-- SSZ set: every stash line goes, and the part of the scratchpad that changes sides reads as zero (R152). -/
def resizeStash (c : Core) (n : Nat) : Core :=
  let o := 8388608 - 262144 * max n c.a.ssz
  { c with stash := [], scratch := clearFrom c.scratch o, badScr := c.badScr.filter fun w => decide (4 * w < o), a := { c.a with ssz := n } }

/-- SSIZE (R152). TVAL of its ILLEGAL_ADDR is the size asked for (log 53). -/
def execSsize (y : BitVec 6) (tk : Tk) (s : State) : Host.Outcome State Fault Refusal :=
  issueE (encYTk 0x50000100 y tk) [] tk s fun e s =>
    let v := (e.x y).val
    consume e [(y, 4)] (if 32 < v.toNat then raise 0x10 0 v else .done (modCore s e.ci fun c => resizeStash c v.toNat))

/-- The addresses at which a window's parts in each page of 32 KiB start. -/
def windowPoints (b n : Word) : List Word :=
  b :: (List.range ((b.toNat % 32768 + n.toNat - 1) / 32768)).map fun k => b + BitVec.ofNat 64 (32768 - b.toNat % 32768 + 32768 * k)

/-- The translations of a window's pages as they are now. -/
def windowPages (s : State) (ci : Nat) (b n : Word) : List (Except Trap Nat) :=
  let c := getCore s ci
  (windowPoints b n).map fun a => translateAs s (some ci) c (dieOf ci) (partOf c) (asnOf c) a .read

/-- Whether a window translates to a host or peer window in some page (R152). -/
def inOutside (s : State) (ci : Nat) (b n : Word) : Bool :=
  (windowPages s ci b n).any fun x => match x with | .ok pa => paKind pa == 4 || decide (8 ≤ paKind pa) | .error _ => false

/-- Whether the walk of a window's page meets a pinned line (R182). -/
def windowRetry (s : State) (ci : Nat) (b n : Word) : Bool :=
  (windowPages s ci b n).any fun x => match x with | .ok _ => false | .error t => isRetry t

/-- Whether a stash line is one of a window's: it has been touched at an address of the window. -/
def lineIn (b n : Word) (x : StashLine) : Bool := x.vas.any fun v => decide (b.toNat ≤ v.toNat) && decide (v.toNat < b.toNat + n.toNat)

/-- The state with the stash lines of a window changed or dropped (R152), however its pages translate now. -/
def onWindow (s : State) (ci w : Nat) (f : StashLine → Option StashLine) : State :=
  match vget (getCore s ci).a.windows none w with
  | none => s
  | some (b, n) => modCore s ci fun c => { c with stash := c.stash.filterMap fun x => if lineIn b n x then f x else some x }

/-- A window unmapped: its lines are written back and dropped. -/
def unmapWindow (s : State) (ci w : Nat) : State :=
  modArch (onWindow s ci w fun _ => none) ci fun a => { a with windows := vset a.windows w none }

/-- Whether a range overlaps a mapped window other than `w`. -/
def overlaps (a : Arch) (w : Nat) (b n : Word) : Bool :=
  (List.range 16).any fun j => j != w &&
    match vget a.windows none j with
    | none => false
    | some (b', n') => decide (b.toNat < b'.toNat + n'.toNat) && decide (b'.toNat < b.toNat + n.toNat)

/-- SMAP (R152). -/
def execSmap (x y : BitVec 6) (tk : Tk) (s : State) : Host.Outcome State Fault Refusal :=
  issueE (encXYTk 0x50000200 x y tk) [] tk s fun e s =>
    let b := (e.x y).val
    let n := (e.xk y 1).val
    consumeN e [(y.toNat, 0), (y.toNat + 1, 4)]
      (if windowRetry s e.ci b n then .retry
      else if b.toNat % 128 ≠ 0 ∨ n.toNat % 128 ≠ 0 ∨ n = 0 ∨ overlaps e.rd.a x.toNat b n ∨ inOutside s e.ci b n then raise 0x10 0 b
      else .done (modArch (unmapWindow s e.ci x.toNat) e.ci fun a => { a with windows := vset a.windows x.toNat (some (b, n)) }))

/-- SUNMAP (R152). -/
def execSunmap (x : BitVec 6) (tk : Tk) (s : State) : Host.Outcome State Fault Refusal :=
  issueE (encXTk 0x50000300 x tk) [] tk s fun e s => .done (unmapWindow s e.ci x.toNat)

/-- SFLUSH (R152). -/
def execSflush (x : BitVec 6) (tk : Tk) (s : State) : Host.Outcome State Fault Refusal :=
  issueE (encXTk 0x50000400 x tk) [] tk s fun e s => .done (onWindow s e.ci x.toNat fun l => some { l with dirty := false })

/-- SINVAL (R152). -/
def execSinval (x : BitVec 6) (tk : Tk) (s : State) : Host.Outcome State Fault Refusal :=
  issueE (encXTk 0x50000500 x tk) [] tk s fun e s => .done (onWindow s e.ci x.toNat fun _ => none)

/-! ## Invalidations and fences (R154, R173, R177) -/

/-- Whether the core has no write to a peer window that is not acknowledged. -/
def peerWritesDone (c : Core) : Bool :=
  c.outst.all fun o => match o with | .peerWrite _ _ _ _ _ _ => false | _ => true

/-- A fence of a scope: 0 CORE, 1 DIE, 2 PKG, 3 SYS (R154, R173). -/
def fenceWord (e : Env) (s : State) (scope : Nat) : Res :=
  if scope = 3 ∧ !peerWritesDone (getCore s e.ci) then .stall
  else if scope = 0 then .done s
  else .done (modCore s e.ci fun c =>
    applyInvals { c with a := { c.a with pins := [] } } fun i => scope != 1 || i.die == dieOf e.ci)

/-- FENCE_CORE (R154). -/
def execFenceCore (g : BitVec 3) (s : State) : Host.Outcome State Fault Refusal :=
  issueA (encG 0x3C000000 g) [] g s fun e s => fenceWord e s 0

/-- FENCE_DIE (R154). -/
def execFenceDie (g : BitVec 3) (s : State) : Host.Outcome State Fault Refusal :=
  issueA (encG 0x3C000001 g) [] g s fun e s => fenceWord e s 1

/-- FENCE_PKG (R154). -/
def execFencePkg (g : BitVec 3) (s : State) : Host.Outcome State Fault Refusal :=
  issueA (encG 0x3C000002 g) [] g s fun e s => fenceWord e s 2

/-- FENCE_SYS (R173). -/
def execFenceSys (g : BitVec 3) (s : State) : Host.Outcome State Fault Refusal :=
  issueA (encG 0x3C000003 g) [] g s fun e s => fenceWord e s 3

/-- INVALIDATION_APPLY (R177). -/
def execInvalidationApply (core : Nat) (s : State) : Host.Outcome State Fault Refusal :=
    if 72 ≤ core then .fault .noSuchAgent
    else .next (modCore s core fun c =>
      match c.invq with
      | [] => c
      | i :: r => applyInval { c with invq := r } i)

/-! ## TLBs and the walker (R167, R170) -/

/-- A TLB with an entry at its front, at most `n` kept (log 8). -/
def tlbFill (l : List TlbEntry) (t : TlbEntry) (n : Nat) : List TlbEntry := (t :: l.filter (· != t)).take n

/-- The set of the L2 TLB that an entry goes to: its page number's low 8 bits (log 8). -/
def tlbSet (t : TlbEntry) : Nat := t.vbase / 2 ^ t.size % 256

/-- The L2 TLB of 256 sets of 8 ways with an entry at the front of its set (R19; log 8). -/
def tlb2Fill (l : List TlbEntry) (t : TlbEntry) : List TlbEntry :=
  let rest := l.filter (· != t)
  t :: ((rest.filter fun x => tlbSet x == tlbSet t).take 7 ++ rest.filter fun x => tlbSet x != tlbSet t)

/-- The walk cache of a die with the tables of a walk. -/
def cacheTables (d : Die) (part : Nat) (asn : BitVec 16) (va : Word) (ts : List (Nat × Nat)) : Die :=
  { d with walkCache := (ts.foldl (fun l x =>
      let w : WalkCached := { part := part, asn := asn, level := x.1, path := va.toNat / 2 ^ levelShift x.1, table := x.2 }
      w :: l.filter (· != w)) d.walkCache).take 256 }

/-- The table entries that a walk from the table at `t` of level `l` on reads, read at their homes (R365): `aux` is what the requester used for
an address. The fuel is the number of levels left. -/
def readTables (s : State) (part core : Nat) (va aux : Word) : Nat → Nat → Nat → State
  | 0, _, _ => s
  | fuel + 1, l, t =>
    let pa := t + 8 * levelIndex va l
    let e := BitVec.ofNat 64 (leNat (memBytes s.mem pa 8))
    let r := touchSector s part core none pa 8 aux
    let t' := fieldOf e 13 39 * 2 ^ 13
    if r.2 || !bitOf e 0 || bitOf e 1 || decide (2 < paKind t') then r.1 else readTables r.1 part core va aux fuel (l + 1) t'

/-- The reads of the walk of an address under an address space, from the walk cache of a die or the root on (R167, R170). -/
def readWalkAs (s : State) (die part core : Nat) (asn : BitVec 16) (va aux : Word) : State :=
  match walkCacheFind (getDie s die) part asn va with
  | some (l, t) => readTables s part core va aux (5 - l) l t
  | none =>
    let asd := Sparse.get 0 (getPart s part).asds asn.toNat
    if bitOf asd 0 then readTables s part core va aux 5 0 (fieldOf asd 12 40 * 2 ^ 12) else s

/-- The reads of the walk of an address for a core's unit. -/
def readWalk (s : State) (core : Nat) (va : Word) : State :=
  let c := getCore s core
  readWalkAs s (dieOf core) (partOf c) core (asnOf c) va va

/-- Whether a translation cause comes from a table entry with a mark (R167). -/
def markedWalk (cause detail : Nat) : Bool := (cause == 0x11 || cause == 0x12) && detail / 32 % 2 == 1

/-- The walk of an address for a core's unit: its table entries are read, a leaf that it reaches enters both TLBs, the tables of levels 0 to 2
the walk cache (R170, R365). A walk that fails enters nothing. -/
def walkFill (s : State) (core : Nat) (va : Word) (k : AccessKind) : State :=
  let c := getCore s core
  if c.unit.isNone ∨ (tlbFind c (partOf c) (asnOf c) va).isSome then s
  else match walkTable s (some core) (dieOf core) (partOf c) (asnOf c) va k with
    | .error t => if isRetry t then unpin s core else readWalk s core va
    | .ok (leaf, sz, ts) =>
      let t : TlbEntry := { part := partOf c, asn := asnOf c, vbase := va.toNat / 2 ^ sz * 2 ^ sz, size := sz, leaf := leaf }
      modDie (modCore (readWalk s core va) core fun c => { c with tlb1 := tlbFill c.tlb1 t 96, tlb2 := tlb2Fill c.tlb2 t }) (dieOf core)
        fun d => cacheTables d (partOf c) (asnOf c) va ts

/-- TRANSLATION_WALK (R167). -/
def execTranslationWalk (core : Nat) (va : BitVec 64) (k : AccessKind) (s : State) : Host.Outcome State Fault Refusal :=
  if 72 ≤ core then .fault .noSuchAgent else .next (walkFill s core va k)

/-- The instruction cache of a cluster with a line used last: 64 KiB of 512 lines (R19; log 51). -/
def icacheTouch (c : Core) (cl line : Nat) : Core :=
  { c with icache := vset c.icache cl ((line :: (vget c.icache [] cl).filter (· != line)).take 512) }

/-- Whether a cluster's instruction cache holds the line of a physical address. -/
def icacheHolds (c : Core) (cl : Cluster) (pa : Nat) : Bool := (vget c.icache [] (cnum cl)).contains (pa / 128)

/-- Whether the fetch of the word at an address of the unit's segment meets a line that another core has pinned: one that the instruction cache
holds does not (R182). -/
def fetchPinned (s : State) (ci : Nat) (cl : Cluster) (va : Word) : Bool :=
  let c := getCore s ci
  inSeg (curSeg s c) va &&
  match transTarget s ci va .fetch with
  | .ok (.dev pa, _) => !icacheHolds c cl pa && pinnedByOther s ci pa
  | .ok _ => false
  | .error t => isRetry t

/-- The state once a cluster has fetched the word at an address of its segment: its translation has been walked and its line read, unless the
instruction cache holds it (R19, R167, R365). -/
def noteFetch (s : State) (ci : Nat) (cl : Cluster) (va : Word) : State :=
  let s1 := walkFill s ci va .fetch
  if !inSeg (curSeg s (getCore s ci)) va then s
  else match transTarget s1 ci va .fetch with
  | .ok (.dev pa, _) =>
    let s2 := if icacheHolds (getCore s1 ci) cl pa then s1 else (touchLine s1 (partOf (getCore s1 ci)) ci (some ci) pa va).1
    modCore s2 ci fun c => icacheTouch c (cnum cl) (pa / 128)
  | _ => s1

end Sys2Proof.Machine
end

