-- ==== Sys2Proof/Machine/Drove.lean ====
section
/-! DEFINITION. The Drove's books: packets and their format (R345 to R348), signals and ring counters (R352), rings (R353, R354), and the
acceptance of a packet by a queue (R342 to R344, R351). -/

namespace Sys2Proof.Machine

/-! ## Packets (R345 to R347) -/

/-- A 64-byte packet. -/
abbrev Packet := BitVec 512

/-- Dword `i` of a packet. -/
def pDword (p : Packet) (i : Nat) : Nat := fieldOf p (64 * i) 64
/-- TYPE. -/
def pType (p : Packet) : Nat := fieldOf p 0 4
/-- BARRIER. -/
def pBarrier (p : Packet) : Bool := bitOf p 8
/-- SIGEN. -/
def pSigen (p : Packet) : Bool := bitOf p 9
/-- PRIO. -/
def pPrio (p : Packet) : Nat := fieldOf p 10 2
/-- NSIG. -/
def pNsig (p : Packet) : Nat := fieldOf p 12 4
/-- GRAPH. -/
def pGraph (p : Packet) : Nat := fieldOf p 16 16
/-- PHASE. -/
def pPhase (p : Packet) : Nat := fieldOf p 32 16
/-- JOB. -/
def pJob (p : Packet) : Nat := fieldOf p 48 16
/-- SEG. -/
def pSeg (p : Packet) : BitVec 6 := BitVec.ofNat 6 (fieldOf p 64 6)
/-- SPLIT. -/
def pSplit (p : Packet) : Bool := bitOf p 70
/-- COSCHED. -/
def pCosched (p : Packet) : Bool := bitOf p 71
/-- STANDING. -/
def pStanding (p : Packet) : Bool := bitOf p 72
/-- IRING. -/
def pIring (p : Packet) : Nat := fieldOf p 73 6
/-- OEN. -/
def pOen (p : Packet) : Bool := bitOf p 79
/-- ORING. -/
def pOring (p : Packet) : Nat := fieldOf p 80 6
/-- UNITSM1 + 1. -/
def pUnits (p : Packet) : Nat := fieldOf p 96 20 + 1
/-- ARG. -/
def pArg (p : Packet) : Word := BitVec.ofNat 64 (pDword p 6)
/-- The initial count of token queue `i`. -/
def pTok (p : Packet) (i : Nat) : Nat := fieldOf p (448 + 4 * i) 4
/-- CSIG. -/
def pCsig (p : Packet) : Nat := fieldOf p 496 12
/-- The entry of cluster `k`, which only a split launch has for L, K and S. -/
def pEntry (p : Packet) (k : Nat) : Word := BitVec.ofNat 64 (pDword p (2 + k))
/-- Signal index and compare value of entry `i` of a wait. -/
def pWait (p : Packet) (i : Nat) : Nat × Nat := (fieldOf p (64 + 36 * i) 12, fieldOf p (76 + 36 * i) 24)
/-- NPRED. -/
def pNpred (p : Packet) : Nat := fieldOf p 240 3
/-- Predecessor `i` of a NODE. -/
def pPred (p : Packet) (i : Nat) : Nat := fieldOf p (192 + 12 * i) 12
/-- NODEID. -/
def pNodeId (p : Packet) : Nat := fieldOf p 244 12
/-- The AFF tags of a NODE that name a tile. -/
def pAff (p : Packet) : List Word32 :=
  ((List.range 4).map fun i => BitVec.ofNat 32 (fieldOf p (256 + 32 * i) 32)).filter (· != 0)
/-- GANGID. -/
def pGangId (p : Packet) : Nat := fieldOf p 192 16
/-- MEMBERS. -/
def pMembers (p : Packet) : BitVec 8 := BitVec.ofNat 8 (fieldOf p 208 8)
/-- SELF. -/
def pSelf (p : Packet) : Nat := fieldOf p 216 3
/-- TICK. -/
def pTick (p : Packet) : Nat := pDword p 4

/-! ## Malformed packets (R348) -/

/-- The number of user cores of a partition on both dies. -/
def partCores (s : State) (part : Nat) : Nat :=
  ((List.range 72).filter fun i =>
    isUserCore s i && bitOf (if i < 36 then (getPart s part).mask0 else (getPart s part).mask1) (i % 36)).length

/-- Whether an entry of a LAUNCH has its upper bits zero and is a multiple of `n`. R346 gives the zero bits for LAUNCH alone: an entry of a NODE or
a GANG that has one of them set raises ILLEGAL_ADDR as its unit starts (R35). -/
def entryOk (d n : Nat) : Bool := decide (d < 2 ^ 56) && d % n == 0

/-- Whether dwords `i` to `j` of a packet are zero. -/
def dwordsZero (p : Packet) (i j : Nat) : Bool := (List.range (j + 1 - i)).all fun k => pDword p (i + k) == 0

/-- Whether the parts that LAUNCH, NODE and GANG share are well formed, and how many units they may have. -/
def unitsOk (s : State) (part : Nat) (p : Packet) (together : Bool) : Bool :=
  fieldOf p 86 10 == 0 && fieldOf p 116 12 == 0 && fieldOf p 508 4 == 0 && (!together || decide (pUnits p ≤ partCores s part))

/-- Whether a packet is malformed in a queue of a partition. -/
def packetBad (s : State) (part : Nat) (dataPlane : Bool) (p : Packet) : Bool :=
  let t := pType p
  let wait := t == 3 || t == 4
  let sig := t == 1 || t == 2 || t == 7
  fieldOf p 4 4 != 0 || decide (8 ≤ t) || (!sig && pSigen p) ||
  (if wait then pNsig p == 0 || decide (12 < pNsig p) else pNsig p != 0) ||
  !(match t with
    | 0 => dwordsZero p 1 7
    | 1 => unitsOk s part p (pCosched p) && (!pStanding p || (dataPlane && !pCosched p)) &&
        (if pSplit p then (List.range 4).all fun k => entryOk (pDword p (2 + k)) 4 else entryOk (pDword p 2) 16 && dwordsZero p 3 5)
    | 2 => unitsOk s part p false && pGraph p != 0 && fieldOf p 70 3 == 0 && pDword p 2 % 16 == 0 && !bitOf p 243 &&
        decide (pNpred p ≤ 4)
    | 5 => fieldOf p 77 51 == 0 && (!bitOf p 76 || fieldOf p 72 4 == 0) && dwordsZero p 3 7
    | 6 =>
        let lv := fieldOf p 64 3
        fieldOf p 67 61 == 0 && decide (1 ≤ lv) && decide (lv ≤ 4) && dwordsZero p 3 7 &&
        (if lv = 1 then fieldOf p 134 26 == 0 else fieldOf p 144 48 == 0)
    | 7 => unitsOk s part p true && fieldOf p 70 3 == 0 && pDword p 2 % 16 == 0 && fieldOf p 219 37 == 0 &&
        bitOf (pMembers p) (pSelf p) && dwordsZero p 5 5
    | _ => (List.range 12).all (fun i => decide (i < pNsig p) || pWait p i == (0, 0)) && fieldOf p 496 16 == 0)

/-! ## Signals and ring counters (R352, R358) -/

/-- Whether a counter value satisfies a compare value. -/
def satisfied (v : Word) (c : Nat) : Bool := decide ((v.toNat + 2 ^ 24 - c % 2 ^ 24) % 2 ^ 24 < 2 ^ 23)

/-- A signal of a partition. -/
def signalOf (p : Part) (i : Nat) : Word := Sparse.get 0 p.signals i

/-- A ring counter of a partition. -/
def counterOf (p : Part) (i : Nat) : Word := Sparse.get 0 p.ringCtrs i

/-- A queue of a partition. -/
def queueOf (p : Part) (q : Nat) : Queue := vget p.queues Queue.zero q

/-- The state with a queue changed. -/
def modQueue (s : State) (part q : Nat) (f : Queue → Queue) : State :=
  modPart s part fun p => { p with queues := vset p.queues q (f (queueOf p q)) }

/-- A ring of a partition. -/
def ringOf (p : Part) (r : Nat) : Ring := vget p.rings Ring.zero r

/-- The state with a ring changed. -/
def modRing (s : State) (part r : Nat) (f : Ring → Ring) : State :=
  modPart s part fun p => { p with rings := vset p.rings r (f (ringOf p r)) }

/-- Whether the head condition of a held packet names a signal. -/
def namesSignal (x : Packet) (i : Nat) : Bool :=
  (pType x == 3 || pType x == 4) && (List.range (pNsig x)).any fun k => (pWait x k).1 == i

/-- Whether the head condition of a held packet names a ring counter: the launch is standing, and the counter belongs to its rings. -/
def namesCounter (p : Part) (x : Packet) (i : Nat) : Bool :=
  pType x == 1 && pStanding x &&
  ((ringOf p (pIring x)).pubc.toNat == i || (pOen x && (ringOf p (pOring x)).relc.toNat == i))

/-- A wake of a queue: it sets PW while the queue is unmapping or unmapped, and firmware then tells the host driver (R358). -/
def wakeQueue (s : State) (part q : Nat) : State :=
  match (queueOf (getPart s part) q).st with
  | .unmapping => modQueue s part q fun x => { x with pw := true }
  | .unmapped => modQueue { s with outbox := s.outbox ++ [.wakeNotice part q] } part q fun x => { x with pw := true }
  | _ => s

/-- A wake of each queue whose head condition is named. -/
def wakeNamed (s : State) (part : Nat) (f : Packet → Bool) : State :=
  (List.range 64).foldl (fun s q =>
    match (queueOf (getPart s part) q).heldPkt with
    | some x => if f x then wakeQueue s part q else s
    | none => s) s

/-- An add to a signal. -/
def addSignal (s : State) (part i : Nat) (v : Word) : State :=
  wakeNamed (modPart s part fun p => { p with signals := Sparse.put 0 p.signals i (signalOf p i + v) }) part fun x => namesSignal x i

/-- An add to a ring counter. -/
def addCounter (s : State) (part i : Nat) (v : Word) : State :=
  wakeNamed (modPart s part fun p => { p with ringCtrs := Sparse.put 0 p.ringCtrs i (counterOf p i + v) }) part
    fun x => namesCounter (getPart s part) x i

/-! ## Rings (R353, R354) -/

/-- CAP of a ring. -/
def capOf (r : Ring) : Nat := r.capm1.toNat + 1

/-- The enabled ring whose REL counter is `i`. -/
def relRing (p : Part) (i : Nat) : Option Nat :=
  (List.range 64).find? fun r => (ringOf p r).en && (ringOf p r).relc.toNat == i

/-- The finished items released in item order: 1 is added to REL for each of the prefix. -/
def releaseItems (s : State) (part r : Nat) : Nat → State
  | 0 => s
  | n + 1 =>
    let x := ringOf (getPart s part) r
    let rel := (counterOf (getPart s part) x.relc.toNat).toNat
    if x.finished.contains rel then
      releaseItems (addCounter (modRing s part r fun x => { x with finished := x.finished.erase rel, dropped := x.dropped.erase rel })
        part x.relc.toNat 1) part r n
    else s

/-- An item of a ring finished: completed, or dropped. -/
def finishItem (s : State) (part r n : Nat) : State :=
  let s1 := modRing s part r fun x => { x with finished := natInsert n x.finished }
  releaseItems s1 part r (ringOf (getPart s1 part) r).finished.length

/-- The reserved items published in item order: 1 is added to PUB for each of the prefix. -/
def publishItems (s : State) (part r : Nat) : Nat → State
  | 0 => s
  | n + 1 =>
    let x := ringOf (getPart s part) r
    if x.outDone.contains x.outNext then
      publishItems (addCounter (modRing s part r fun x => { x with outDone := x.outDone.erase x.outNext, outNext := x.outNext + 1 })
        part x.pubc.toNat 1) part r n
    else s

/-- A reserved output item done, DROPPED or not. -/
def outputItem (s : State) (part r m : Nat) (dropped : Bool) : State :=
  let s1 := modRing s part r fun x =>
    { x with outDone := natInsert m x.outDone, dropped := if dropped then natInsert m x.dropped else x.dropped }
  publishItems s1 part r (ringOf (getPart s1 part) r).outDone.length

/-- An output item that DROP_NEW gives up: it is done as DROPPED, and counts in its ring's DROPS (R354). -/
def refuseOutput (s : State) (part r m : Nat) : State :=
  outputItem (modRing s part r fun x => { x with drops := (x.drops + 1) % 2 ^ 64 }) part r m true

/-- DROP_OLD with compare `c`: every published item from CLM to c − 1 is dropped, CLM moves up to `c`, and what can be released is. -/
def dropOld (s : State) (part r c : Nat) : State :=
  let p := getPart s part
  let x := ringOf p r
  let d := (c % 2 ^ 24 + 2 ^ 24 - x.clm % 2 ^ 24) % 2 ^ 24
  if d = 0 ∨ 2 ^ 23 ≤ d then s
  else
    let n := min d ((counterOf p x.pubc.toNat).toNat - x.clm)
    let items := (List.range n).map (x.clm + ·)
    let fresh := items.filter fun i => !x.dropped.contains i
    let s1 := modRing s part r fun x =>
      { x with clm := x.clm + d, drops := (x.drops + fresh.length) % 2 ^ 64, dropped := fresh.foldl (fun l i => natInsert i l) x.dropped,
               finished := items.foldl (fun l i => natInsert i l) x.finished }
    releaseItems s1 part r (ringOf (getPart s1 part) r).finished.length

/-- DROP_NEW gives up item `n`: it is marked DROPPED and published in its producer's place. -/
def dropNew (s : State) (part r n : Nat) : State :=
  let x := ringOf (getPart s part) r
  addCounter (modRing s part r fun x => { x with dropped := natInsert n x.dropped, drops := (x.drops + 1) % 2 ^ 64 }) part x.pubc.toNat 1

/-! ## Candidates (R355) -/

/-- Candidates removed from every list. -/
def dropCands (s : State) (f : Cand → Bool) : State :=
  { s with dies := vmap (fun (d : Die) => { d with cands := d.cands.filter fun u => !f u }) s.dies }

/-- The candidate by which a switched-out unit waits to resume removed. -/
def dropResume (s : State) (part launch index : Nat) : State :=
  dropCands s fun u => u.resume && u.part == part && u.launch == launch && u.index == index

/-! ## Queues (R341 to R344, R351) -/

/-- The number of entries of a queue's ring. -/
def queueLen (x : Queue) : Nat := 2 ^ x.log2n

/-- The die whose Drove serves a home die: the other one if that die is not brought up (R16, R271). -/
def homeOf (s : State) (d : Nat) : Nat := if (getDie s d).up && (getDie s d).bellwether.isSome then d else 1 - d

/-- A queue's access to its ring or completion area: the physical address under its ASN, or none where the access faults. -/
def queueAddr (s : State) (part : Nat) (x : Queue) (va : Word) (k : AccessKind) : Option Nat :=
  match translateAs s none Core.zero (homeOf s x.homedie) part x.asn va k with
  | .error _ => none
  | .ok pa => match resolve s part va pa with
    | .ok (.dev pa) => some pa
    | _ => none

/-- The state once the walk of that access has read its table entries at their homes (R365). -/
def queueWalk (s : State) (part : Nat) (x : Queue) (va : Word) : State :=
  let d := homeOf s x.homedie
  readWalkAs s d part (36 * d) x.asn va va

/-- Whether that access meets a line that a core pins, in its walk or at its end: it is tried again (R182). -/
def queuePinned (s : State) (part : Nat) (x : Queue) (va : Word) (k : AccessKind) : Bool :=
  match translateAs s none Core.zero (homeOf s x.homedie) part x.asn va k with
  | .error t => isRetry t
  | .ok pa => pinned s pa

/-- A translation fault of a queue writes an error record and puts the queue in FETCH_FAULT from ACTIVE or WAITING (R350, R351). -/
def queueFault (s : State) (part q : Nat) (va : Word) : State :=
  let x := queueOf (getPart s part) q
  let next := match x.st with | .active | .waiting => .fetchFault | st => st
  logErr (modQueue s part q fun x => { x with st := next }) part (36 * homeOf s x.homedie) 0x33 q (some va) (some (BitVec.ofNat 64 q)) 0

/-- Whether a queue of a partition is served: its PART names the partition (R341; log 59). -/
def queueServed (part : Nat) (x : Queue) : Bool := x.part == part

/-- The virtual address of the ring entry of a packet number. -/
def entryAddr (x : Queue) (n : Nat) : Word := x.ringbase + BitVec.ofNat 64 (64 * (n % queueLen x))

/-- What comes of a packet that is delivered to a queue (R342); `pinned` where the ring's line is pinned and the write is tried again (R182). -/
inductive Accept where
  | accepted | retry | abort | unsupported | pinned
deriving DecidableEq, Repr

/-- A packet delivered to a queue. -/
def deliver (s : State) (part q : Nat) (p : Packet) : State × Accept :=
  let x := queueOf (getPart s part) q
  if x.st = .reset ∨ !queueServed part x then (s, .unsupported)
  else if packetBad s part x.dataPlane p then (modPart s part fun y => { y with malformed := (y.malformed + 1) % 2 ^ 64 }, .abort)
  else if x.st = .fetchFault ∨ queueLen x ≤ x.tail - x.head then (s, .retry)
  else
    let va := entryAddr x x.tail
    if queuePinned s part x va .write then (s, .pinned)
    else match queueAddr s part x va .write with
      | none => (queueFault (queueWalk s part x va) part q va, .retry)
      | some pa =>
        let s1 := devWrite (queueWalk s part x va) none part pa va (natBytes 64 p.toNat) 0 false
        (wakeQueue (modQueue s1 part q fun x => { x with tail := x.tail + 1, open_ := x.open_ ++ [x.tail] }) part q, .accepted)

end Sys2Proof.Machine
end

