-- ==== Sys2Proof/Machine/Region.lean ====
section
/-! DEFINITION. Commit points and replay as instructions (R266 to R268, R273), hurdles (R246, R247), chain slots, posts and result slots
(R250, R251, R255). -/

namespace Sys2Proof.Machine

/-! ## Pages that a copy touches -/

/-- One address in each page that a copy touches, in ascending rows. -/
def touchPoints (x : Copy) : List Word :=
  (List.range x.rows).flatMap fun r => rowPoints (x.gaddr + BitVec.ofNat 64 (r * x.gpitch)) x.rowBytes

/-- An entry of the commit buffer, or CBUF_OVERFLOW with detail 0 (R250). -/
def enterOr (e : Env) (s : State) (x : CEntry) : Res :=
  match enterEntry (getCore s e.ci).cbuf x with
  | none => overflow s 0
  | some b => .done (modCore s e.ci fun c => { c with cbuf := b })

/-! ## Commit and replay (R267, R268, R273) -/

/-- COMMIT (R267). -/
def execCommit (s : State) : Host.Outcome State Fault Refusal :=
  issueI 0x34000000 [] s fun e s => notInHandler e 0x1A (holdAt e s .atCommit)

/-- The first fault of a page of a tile image that `commit.d` flushes: the walk's own, or TILE_FAULT with detail 7 (R273). -/
def imageFault (s : State) (ci h : Nat) : List Word → Option Trap
  | [] => none
  | a :: r =>
    let c := getCore s ci
    match translateAs s (some ci) c (dieOf ci) (partOf c) (asnOf c) a .read with
    | .error t => some t
    | .ok pa => if paKind pa = 2 && inDevice s pa then imageFault s ci h r else some (mkTrap 0x17 7 (BitVec.ofNat 64 h))

/-- The check of one tile of `commit.d` (R273). -/
def flushFault (e : Env) (s : State) (h : Nat) : Option Trap :=
  let t := tileOf e.rd.a h
  let bad := fun d => some (mkTrap 0x17 d (BitVec.ofNat 64 h))
  if !t.v then bad 2
  else if tOver e.rd.a t.desc then bad 1
  else if t.st ≠ .ready ∧ t.st ≠ .draining then bad 3
  else if !tFetch t.desc then bad 7
  else imageFault s e.ci h (touchPoints (imageCopy t.desc))

/-- The bytes of the images of `n` tiles from handle `h` on. -/
def imageBytes (a : Arch) (h n : Nat) : Nat :=
  ((List.range n).map fun k => let x := imageCopy (tileOf a (h + k)).desc; x.rows * x.rowBytes).sum

/-- COMMIT_D (R273). -/
def execCommitD (a b : BitVec 6) (s : State) : Host.Outcome State Fault Refusal :=
  let w := encAB 0x34000001 a b
  issueI w [] s fun e s =>
    let h := (e.x a).val.toNat
    let n := (e.x b).val.toNat
    notInHandler e 0x1A (consume e [(a, 4), (b, 4)]
      (if 512 ≤ h ∨ 16 < n ∨ 512 < h + n then raise 0x03 0 (BitVec.ofNat 64 w)
      else match (List.range n).findSome? (fun k => flushFault e s (h + k)) with
        | some t => .raise t
        | none => if 1048576 < imageBytes e.rd.a h n then overflow s 3 else holdAt e s (.atCommitD h n)))

/-- REPLAY (R268). -/
def execReplay (g : BitVec 3) (s : State) : Host.Outcome State Fault Refusal :=
  issueA (encG 0x34000002 g) [] g s fun _ _ => raise 0x21 6 0

/-! ## Hurdles (R246, R247) -/

/-- Whether a hurdle reference is malformed (R246). -/
def refMalformed (v : Word) : Bool :=
  fieldOf v 28 36 != 0 || fieldOf v 10 6 != 0 || (bitOf v 27 && bitOf v 23) || decide (35 < fieldOf v 16 6)

/-- Whether the issuing word may not use a reference: it is malformed, or it names a peer while FEN masks them (R245, R390). -/
def refBad (e : Env) (s : State) (v : Word) : Bool := refMalformed v || (bitOf v 27 && !fenBit s (partOf e.rd) 6)

/-- Whether a reference is local. -/
def refLocal (v : Word) : Bool := !bitOf v 27 && !bitOf v 23

/-- The hurdle that a reference names. -/
def refHurdle (v : Word) : Nat := fieldOf v 0 10

/-- A meaning that takes a local hurdle reference: SYNC_FAULT for a malformed or remote one (R245). -/
def localRef (e : Env) (s : State) (v : Word) (r : Res) : Res :=
  if refBad e s v then raise 0x32 0 v else if !refLocal v then raise 0x32 1 v else r

/-- The hurdle with its target set and settled. -/
def initHurdle (a : Arch) (h target : Nat) : Arch :=
  { a with hurdles := Sparse.put Hurdle.zero a.hurdles h (settle { hurdleOf a h with target := target }) }

/-- HINIT (R247). -/
def execHinit (x y : BitVec 6) (tk : Tk) (s : State) : Host.Outcome State Fault Refusal :=
  issueE (encXYTk 0x36000000 x y tk) [] tk s fun e s =>
    let v := (e.x x).val
    consume e [(x, 4), (y, 3)]
      (localRef e s v (.done (modArch s e.ci fun a => initHurdle a (refHurdle v) ((e.x y).val.toNat % 2 ^ 32))))

/-- A local arrival of the issuing word (R247): the arrivals of a bundle's slots are summed and settle once its last slot has executed, after its
`hinit` (R244). -/
def arriveHere (e : Env) (s : State) (h n : Nat) : State :=
  match s.bundle with
  | none => modArch s e.ci fun a => arrive a h n
  | some b => { s with bundle := some { b with arrivals := b.arrivals ++ [(h, n)] } }

/-- An arrival of `n` under a reference: at once at a local hurdle, at the commit at a remote one (R247). -/
def arriveRef (e : Env) (s : State) (v : Word) (n : Nat) : Res :=
  if refBad e s v then raise 0x32 0 v
  else if n = 0 then .done s
  else if refLocal v then .done (arriveHere e s (refHurdle v) n)
  else enterOr e s (.arrive v n)

/-- HARRIVE (R247). -/
def execHarrive (x y : BitVec 6) (tk : Tk) (s : State) : Host.Outcome State Fault Refusal :=
  issueE (encXYTk 0x36000100 x y tk) [] tk s fun e s =>
    if y = 0 then consume e [(x, 4)] (arriveRef e s (e.x x).val 1)
    else consume e [(x, 4), (y, 3)] (arriveRef e s (e.x x).val ((e.x y).val.toNat % 2 ^ 32))

/-- HWAIT (R247): once its condition holds it acquires (R173, R248). -/
def execHwait (x y : BitVec 6) (tk : Tk) (s : State) : Host.Outcome State Fault Refusal :=
  issueE (encXYTk 0x36000200 x y tk) [] tk s fun e s =>
    let v := (e.x x).val
    consume e [(x, 4), (y, 1)]
      (localRef e s v
        (if (hurdleOf e.rd.a (refHurdle v)).phcnt - (e.x y).val.setWidth 16 < 0x8000 then .done (modCore s e.ci acquire) else .stall))

/-- What `hstat` reads (R247). -/
def hurdleWord (x : Hurdle) : Word :=
  BitVec.ofNat 64 (b2n (x.target != 0) * 2 ^ 48 + x.phcnt.toNat * 2 ^ 32 + x.count % 2 ^ 32)

/-- HSTAT (R247). -/
def execHstat (x y : BitVec 6) (tk : Tk) (s : State) : Host.Outcome State Fault Refusal :=
  issueE (encXYTk 0x36000300 x y tk) [x] tk s fun e s =>
    let v := (e.x y).val
    consume e [(y, 4)] (localRef e s v (.done (setX e s x (hurdleWord (hurdleOf e.rd.a (refHurdle v))) false)))

/-! ## Chain slots (R250, R251) -/

/-- A chain slot of a core. -/
def chainOf (c : Core) (k : Nat) : Chain := vget c.chains Chain.zero k

/-- Whether an entry of the commit buffer is a kick of a slot. -/
def CEntry.isKickOf (k : Nat) : CEntry → Bool
  | .kick j _ => j == k
  | _ => false

/-- Whether a slot has a kick pending, from this region or an earlier one (R251). -/
def kickPending (c : Core) (k : Nat) : Bool :=
  (chainOf c k).kick.isSome || c.cbuf.any (CEntry.isKickOf k) || c.departing.any fun x => x.entry.isKickOf k

/-- CHAIN_KICK (R251). -/
def execChainKick (x y : BitVec 6) (tk : Tk) (s : State) : Host.Outcome State Fault Refusal :=
  issueE (encXYTk 0x38000000 x y tk) [] tk s fun e s =>
    let v := (e.x y).val
    consume e [(y, 0)]
      (if v.toNat % 32 ≠ 0 then raise 0x14 0 v
      else if kickPending (getCore s e.ci) x.toNat then raise 0x18 2 v
      else enterOr e s (.kick x.toNat v))

/-- A slot told to stop: at once, or once the entry that it holds for earlier copies has completed (R251; log 60). -/
def stopChain (x : Chain) : Chain :=
  if x.held then { x with kick := none, stopping := true } else { x with st := .stopped, kick := none, skip := none }

/-- A core with a slot told to stop, and the kicks that are pending for it dropped (R251). -/
def stopSlot (c : Core) (k : Nat) : Core :=
  { c with chains := vset c.chains k (stopChain (chainOf c k)), cbuf := c.cbuf.filter fun x => !x.isKickOf k,
           departing := c.departing.filter fun x => !x.entry.isKickOf k }

/-- CHAIN_STOP (R251). -/
def execChainStop (x : BitVec 6) (tk : Tk) (s : State) : Host.Outcome State Fault Refusal :=
  issueE (encXTk 0x38000100 x tk) [] tk s fun e s => .done (modCore s e.ci fun c => stopSlot c x.toNat)

/-- The code of a chain status (R251). -/
def chainCode : ChainSt → Nat
  | .idle => 0 | .run => 1 | .wait => 2 | .done => 3 | .stopped => 4 | .fault => 5

/-- What `chain.stat` reads of a slot (R251). -/
def chainWord (c : Core) (k : Nat) : Word :=
  let x := chainOf c k
  BitVec.ofNat 64 (fieldOf x.cpc 5 51 * 2 ^ 5 + b2n (kickPending c k) * 2 ^ 3 + chainCode x.st)

/-- CHAIN_STAT (R251). -/
def execChainStat (x y : BitVec 6) (tk : Tk) (s : State) : Host.Outcome State Fault Refusal :=
  issueE (encXYTk 0x38000200 x y tk) [x] tk s fun e s => .done (setX e s x (chainWord e.rd y.toNat) false)

/-! ## Posts (R249, R250) -/

/-- The 64 bytes of a packet at an offset of the scratchpad. -/
def packetAt (c : Core) (o : Nat) : BitVec 512 := BitVec.ofNat 512 (scrNat c o 64)

/-- QPOST (R250). -/
def execQpost (x y : BitVec 6) (tk : Tk) (s : State) : Host.Outcome State Fault Refusal :=
  issueE (encXYTk 0x38000300 x y tk) [] tk s fun e s =>
    let o := (e.x x).val
    let q := (e.x y).val.toNat % 2 ^ 16
    consume e [(x, 0), (y, 4)]
      (if o.toNat % 64 ≠ 0 then raise 0x14 0 o
      else match localFault e.rd.a o 64 with
        | some t => raise 0x10 0 t
        | none =>
          if 64 ≤ q then raise 0x32 2 (e.x y).val
          else match firstMarked e.rd (o.toNat / 4) 16 with
            | some m => raise 0x20 3 (BitVec.ofNat 64 m)
            | none => enterOr e s (.post q (packetAt e.rd o.toNat)))

/-- SIGADD (R250). -/
def execSigadd (x y : BitVec 6) (tk : Tk) (s : State) : Host.Outcome State Fault Refusal :=
  issueE (encXYTk 0x38000400 x y tk) [] tk s fun e s =>
    let v := (e.x x).val
    consume e [(x, 4), (y, 3)] (if 4096 ≤ v.toNat then raise 0x32 3 v else enterOr e s (.sigadd v.toNat (e.x y).val))

/-- RINGPOST (R250). -/
def execRingpost (x y : BitVec 6) (tk : Tk) (s : State) : Host.Outcome State Fault Refusal :=
  issueE (encXYTk 0x38000500 x y tk) [] tk s fun e s =>
    let v := (e.x x).val
    consume e [(x, 4), (y, 3)] (if 256 ≤ v.toNat then raise 0x32 3 v else enterOr e s (.ringadd v.toNat (e.x y).val))

/-! ## Result slots (R255) -/

/-- A half of a result slot read once it is not pending. -/
def readResult (e : Env) (s : State) (d k : BitVec 6) (lo : Nat) : Res :=
  let r := vget e.rd.a.res ResSlot.zero k.toNat
  if r.pend then .stall else .done (setX e s d (BitVec.ofNat 64 (fieldOf r.val lo 64)) r.psn)

/-- ARES (R255). -/
def execAres (x y : BitVec 6) (tk : Tk) (s : State) : Host.Outcome State Fault Refusal :=
  issueE (encXYTk 0x38000600 x y tk) [x] tk s fun e s => readResult e s x y 0

/-- ARESH (R255). -/
def execAresh (x y : BitVec 6) (tk : Tk) (s : State) : Host.Outcome State Fault Refusal :=
  issueE (encXYTk 0x38000700 x y tk) [x] tk s fun e s => readResult e s x y 64

end Sys2Proof.Machine
end

