-- ==== Sys2Proof/Machine/Stream.lean ====
section
/-! DEFINITION. The stream family (R157, R158), `jeos` (R161), and the steps of the engines: an inbound fetch and an outbound write (R158, R160,
R162, R163). -/

namespace Sys2Proof.Machine

/-! ## Stopping an engine (R158) -/

/-- A FIFO discarded: the push that an `sstart` still owes is made (log 15). -/
def dropFifo (c : Core) (q : Nat) (first : Nat) : Core :=
  let f := fifoOf c q
  completePush (putFifo c q { f with vecs := [], first := first, fault := none, push := none, pushOpen := false }) f.push (!f.pushOpen)

/-- A meaning that first acts as `sstop` on a running engine: an outbound FIFO is waited for, an inbound one discarded. -/
def stopped (e : Env) (s : State) (q : Nat) (k : State → Res) : Res :=
  let c := getCore s e.ci
  let x := streamOf c.a q
  if x.out ∧ !(fifoOf c q).vecs.isEmpty then .stall
  else k (modCore s e.ci fun c => dropFifo { c with a := putStream c.a q { x with running := false } } q x.pos.toNat)

/-- As `stopped` where the engine runs; otherwise nothing comes first. -/
def stoppedIfRunning (e : Env) (s : State) (q : Nat) (k : State → Res) : Res :=
  if (streamOf (getCore s e.ci).a q).running then stopped e s q k else k s

/-- The state with a stream engine changed. -/
def modStream (s : State) (ci q : Nat) (f : Stream → Stream) : State := modArch s ci fun a => putStream a q (f (streamOf a q))

/-- A configuration word: its operand consumed with a detail, the engine stopped if it runs, the fields written. -/
def configure (e : Env) (s : State) (q a : BitVec 6) (detail : Nat) (f : Word → Stream → Stream) : Res :=
  consume e [(a, detail)]
    (stoppedIfRunning e s q.toNat fun s => .done (modStream s e.ci q.toNat (f (e.x a).val)))

/-- `sbase`. -/
def streamBase (e : Env) (s : State) (q a : BitVec 6) : Res := configure e s q a 0 fun v x => { x with base := v }

/-- `sdim0` to `sdim2`: the count from bits 19:0, the stride from bits 63:32 (R155). -/
def streamDim (e : Env) (s : State) (q a : BitVec 6) (k : Nat) : Res :=
  configure e s q a 4 fun v x =>
    let c := BitVec.ofNat 20 (fieldOf v 0 20)
    let st := BitVec.ofNat 32 (fieldOf v 32 32)
    if k = 0 then { x with c0 := c, s0 := st } else if k = 1 then { x with c1 := c, s1 := st } else { x with c2 := c, s2 := st }

/-- `smode`. -/
def streamMode (e : Env) (s : State) (q a : BitVec 6) : Res :=
  configure e s q a 3 fun v x => { x with out := bitOf v 0, loc := bitOf v 1 }

/-- `sbind` and `sunbind`. -/
def streamBind (e : Env) (s : State) (q : BitVec 6) (b : Bool) : Res := .done (modStream s e.ci q.toNat fun x => { x with bound := b })

/-- The first of BASE, S0, S1 and S2 that is not a multiple of 4 (R158). -/
def misaligned (x : Stream) : Option Word :=
  [x.base, x.s0.signExtend 64, x.s1.signExtend 64, x.s2.signExtend 64].find? fun v => v.toNat % 4 != 0

/-- `sstart`: its push is due when vector 0 is in the FIFO, or at once for an empty stream or an outbound engine (R157). -/
def streamStart (e : Env) (s : State) (q : BitVec 6) : Res :=
  match misaligned (streamOf (getCore s e.ci).a q.toNat) with
  | some v => raise 0x14 0 v
  | none =>
    stopped e s q.toNat fun s =>
      let s1 := modStream s e.ci q.toNat fun x => { x with pos := 0, eos := false, running := true }
      let x := streamOf (getCore s1 e.ci).a q.toNat
      let set := fun p => modCore s1 e.ci fun c => putFifo c q.toNat { fifoOf c q.toNat with first := 0, push := p, pushOpen := p.isSome }
      if x.out ∨ totalOf x = 0 then .done (set none) else .later (set e.pout)

/-- `sstop`. -/
def streamStop (e : Env) (s : State) (q : BitVec 6) : Res := stopped e s q.toNat fun s => .done s

/-- `sseek`: RUN keeps the value it had. -/
def streamSeek (e : Env) (s : State) (q a : BitVec 6) : Res :=
  let run := (streamOf (getCore s e.ci).a q.toNat).running
  consume e [(a, 4)]
    (stopped e s q.toNat fun s =>
      let p := min (e.x a).val.toNat (totalOf (streamOf (getCore s e.ci).a q.toNat))
      .done (modCore s e.ci fun c =>
        let x := streamOf c.a q.toNat
        putFifo { c with a := putStream c.a q.toNat { x with pos := BitVec.ofNat 64 p, eos := false, running := run } } q.toNat
          { fifoOf c q.toNat with first := p }))

/-- `spos`: in a bundle it reads POS after the effects of the slots before it (R158). -/
def streamPos (e : Env) (s : State) (q d : BitVec 6) : Res := .done (setX e s d (streamOf (getCore s e.ci).a q.toNat).pos false)

/-! ## On L -/

/-- SBASE_L (R158). -/
def execSbaseL (x y : BitVec 6) (tk : Tk) (s : State) : Host.Outcome State Fault Refusal :=
  issueE (encXYTk 0x4A000000 x y tk) [] tk s fun e s => streamBase e s x y

/-- SDIM0_L (R158). -/
def execSdim0L (x y : BitVec 6) (tk : Tk) (s : State) : Host.Outcome State Fault Refusal :=
  issueE (encXYTk 0x4A000100 x y tk) [] tk s fun e s => streamDim e s x y 0

/-- SDIM1_L (R158). -/
def execSdim1L (x y : BitVec 6) (tk : Tk) (s : State) : Host.Outcome State Fault Refusal :=
  issueE (encXYTk 0x4A000200 x y tk) [] tk s fun e s => streamDim e s x y 1

/-- SDIM2_L (R158). -/
def execSdim2L (x y : BitVec 6) (tk : Tk) (s : State) : Host.Outcome State Fault Refusal :=
  issueE (encXYTk 0x4A000300 x y tk) [] tk s fun e s => streamDim e s x y 2

/-- SMODE_L (R158). -/
def execSmodeL (x y : BitVec 6) (tk : Tk) (s : State) : Host.Outcome State Fault Refusal :=
  issueE (encXYTk 0x4A000400 x y tk) [] tk s fun e s => streamMode e s x y

/-- SBIND_L (R158). -/
def execSbindL (x : BitVec 6) (tk : Tk) (s : State) : Host.Outcome State Fault Refusal :=
  issueE (encXTk 0x4A000500 x tk) [] tk s fun e s => streamBind e s x true

/-- SUNBIND_L (R158). -/
def execSunbindL (x : BitVec 6) (tk : Tk) (s : State) : Host.Outcome State Fault Refusal :=
  issueE (encXTk 0x4A000600 x tk) [] tk s fun e s => streamBind e s x false

/-- SSTART_L (R158). -/
def execSstartL (x : BitVec 6) (tk : Tk) (s : State) : Host.Outcome State Fault Refusal :=
  issueE (encXTk 0x4A000700 x tk) [] tk s fun e s => streamStart e s x

/-- SSTOP_L (R158). -/
def execSstopL (x : BitVec 6) (tk : Tk) (s : State) : Host.Outcome State Fault Refusal :=
  issueE (encXTk 0x4A000800 x tk) [] tk s fun e s => streamStop e s x

/-- SSEEK_L (R158). -/
def execSseekL (x y : BitVec 6) (tk : Tk) (s : State) : Host.Outcome State Fault Refusal :=
  issueE (encXYTk 0x4A000900 x y tk) [] tk s fun e s => streamSeek e s x y

/-- SPOS_L (R158). -/
def execSposL (x y : BitVec 6) (tk : Tk) (s : State) : Host.Outcome State Fault Refusal :=
  issueE (encXYTk 0x4A000A00 x y tk) [y] tk s fun e s => streamPos e s x y

/-! ## On S -/

/-- SBASE_S (R158). -/
def execSbaseS (x y : BitVec 6) (tk : Tk) (s : State) : Host.Outcome State Fault Refusal :=
  issueE (encXYTk 0xCA000000 x y tk) [] tk s fun e s => streamBase e s x y

/-- SDIM0_S (R158). -/
def execSdim0S (x y : BitVec 6) (tk : Tk) (s : State) : Host.Outcome State Fault Refusal :=
  issueE (encXYTk 0xCA000100 x y tk) [] tk s fun e s => streamDim e s x y 0

/-- SDIM1_S (R158). -/
def execSdim1S (x y : BitVec 6) (tk : Tk) (s : State) : Host.Outcome State Fault Refusal :=
  issueE (encXYTk 0xCA000200 x y tk) [] tk s fun e s => streamDim e s x y 1

/-- SDIM2_S (R158). -/
def execSdim2S (x y : BitVec 6) (tk : Tk) (s : State) : Host.Outcome State Fault Refusal :=
  issueE (encXYTk 0xCA000300 x y tk) [] tk s fun e s => streamDim e s x y 2

/-- SMODE_S (R158). -/
def execSmodeS (x y : BitVec 6) (tk : Tk) (s : State) : Host.Outcome State Fault Refusal :=
  issueE (encXYTk 0xCA000400 x y tk) [] tk s fun e s => streamMode e s x y

/-- SBIND_S (R158). -/
def execSbindS (x : BitVec 6) (tk : Tk) (s : State) : Host.Outcome State Fault Refusal :=
  issueE (encXTk 0xCA000500 x tk) [] tk s fun e s => streamBind e s x true

/-- SUNBIND_S (R158). -/
def execSunbindS (x : BitVec 6) (tk : Tk) (s : State) : Host.Outcome State Fault Refusal :=
  issueE (encXTk 0xCA000600 x tk) [] tk s fun e s => streamBind e s x false

/-- SSTART_S (R158). -/
def execSstartS (x : BitVec 6) (tk : Tk) (s : State) : Host.Outcome State Fault Refusal :=
  issueE (encXTk 0xCA000700 x tk) [] tk s fun e s => streamStart e s x

/-- SSTOP_S (R158). -/
def execSstopS (x : BitVec 6) (tk : Tk) (s : State) : Host.Outcome State Fault Refusal :=
  issueE (encXTk 0xCA000800 x tk) [] tk s fun e s => streamStop e s x

/-- SSEEK_S (R158). -/
def execSseekS (x y : BitVec 6) (tk : Tk) (s : State) : Host.Outcome State Fault Refusal :=
  issueE (encXYTk 0xCA000900 x y tk) [] tk s fun e s => streamSeek e s x y

/-- SPOS_S (R158). -/
def execSposS (x y : BitVec 6) (tk : Tk) (s : State) : Host.Outcome State Fault Refusal :=
  issueE (encXYTk 0xCA000A00 x y tk) [y] tk s fun e s => streamPos e s x y

/-! ## The branch on EOS (R161) -/

/-- JEOS (R161). -/
def execJeos (n : BitVec 3) (o : BitVec 22) (s : State) : Host.Outcome State Fault Refusal :=
  issueI (encNO 0x3A000000 n o) [] s fun e s => if (streamOf e.rd.a n.toNat).eos then transfer e s (branchTarget e o) else .done s

/-! ## Steps of the engines (R158, R160, R162, R163) -/

/-- Whether a core's engines may move: it holds a unit and is not frozen (R241). -/
def enginesRun (c : Core) : Bool :=
  c.freeze.isNone && match c.run with
  | .running | .svc _ | .ending _ _ => c.unit.isSome
  | _ => false

/-- Whether a unit has reached its end, which stops its streams (R164). -/
def atUnitEnd (c : Core) : Bool := match c.run with | .ending _ _ => true | _ => false

/-- The position of the next vector that an inbound engine fetches, if it fetches one. -/
def fetchPos (c : Core) (q : Nat) : Option Nat :=
  let x := streamOf c.a q
  let f := fifoOf c q
  let p := f.first + f.vecs.length
  if x.running ∧ !atUnitEnd c ∧ !x.out ∧ f.vecs.length < 8 ∧ f.fault.isNone ∧ p < totalOf x then some p else none

/-- The parts of `n` bytes at `a` in lines of 128 bytes. -/
def lineParts (a : Word) (n : Nat) : List (Word × Nat) :=
  (List.range ((a.toNat % 128 + n + 127) / 128)).map fun k =>
    if k = 0 then (a, min n (128 - a.toNat % 128))
    else
      let o := 128 * k - a.toNat % 128
      (a + BitVec.ofNat 64 o, min 128 (n - o))

/-- Committed words read part by part (R140, R163). -/
def readParts (s : State) (ci : Nat) : List (Word × Nat) → State × List Lane
  | [] => (s, [])
  | (a, n) :: r =>
    match transTarget s ci a .read with
    | .error _ => (s, [])
    | .ok (tg, _) =>
      let x := readCommitted s ci a tg n
      let y := readParts x.1 ci r
      (y.1, lanesOf x.2.1 x.2.2 (n / 4) ++ y.2)

/-- The core once vector `p` has reached its FIFO: vector 0 makes the push of its `sstart`. -/
def landVec (c : Core) (q p : Nat) (v : List Lane) : Core :=
  let f := fifoOf c q
  if p = 0 then
    completePush (putFifo c q { f with vecs := f.vecs ++ [v], push := none, pushOpen := false }) f.push (!f.pushOpen)
  else putFifo c q { f with vecs := f.vecs ++ [v] }

/-- A fetch that fails stops the engine there (R162). -/
def failFetch (s : State) (ci q : Nat) (t : Trap) : State := modCore s ci fun c => putFifo c q { fifoOf c q with fault := some t }

/-- One vector fetched by an inbound engine. -/
def streamFetch (s : State) (ci q : Nat) : State :=
  let c := getCore s ci
  let x := streamOf c.a q
  match (if enginesRun c then fetchPos c q else none) with
  | none => s
  | some p =>
    let a := BitVec.ofInt 64 (streamAddr x p)
    if x.loc then
      match localVecFault c.a x p with
      | some (w, l) => failFetch s ci q (streamTrap q 0x10 w p l)
      | none => modCore s ci fun c => landVec c q p ((List.range 64).map fun i => scrWord c (a.toNat / 4 + i))
    else match globalVecFault s ci a .read 1 with
      | some (t, l) => if isRetry t then unpin s ci else failFetch s ci q (streamTrap q t.cause t.tval p l)
      | none =>
        let parts := lineParts a 256
        if pinBlocked s ci 0 (parts.map fun y => y.1) then unpin s ci
        else
          let r := readParts s ci parts
          modCore r.1 ci fun c => landVec c q p r.2

/-- STREAM_FETCH (R158). -/
def execStreamFetch (core q : Nat) (s : State) : Host.Outcome State Fault Refusal :=
  if 72 ≤ core ∨ 8 ≤ q then .fault .noSuchAgent else .next (Sys2Proof.Machine.streamFetch s core q)

/-- The oldest vector of an outbound FIFO written: a local one to the scratchpad, a global one lies in its sectors already. -/
def streamWrite (s : State) (ci q : Nat) : State :=
  let c := getCore s ci
  let x := streamOf c.a q
  let f := fifoOf c q
  match f.vecs with
  | [] => s
  | v :: r =>
    if !enginesRun c || !x.out then s
    else
      let o := (BitVec.ofInt 64 (streamAddr x f.first)).toNat
      modCore s ci fun c =>
        let c1 := if x.loc then storeLanesL c v ((List.range 64).map fun i => (i, o + 4 * i)) else c
        putFifo c1 q { f with vecs := r, first := f.first + 1 }

/-- STREAM_OUTBOUND_WRITE (R160). -/
def execStreamOutboundWrite (core q : Nat) (s : State) : Host.Outcome State Fault Refusal :=
  if 72 ≤ core ∨ 8 ≤ q then .fault .noSuchAgent else .next (streamWrite s core q)

end Sys2Proof.Machine
end

