-- ==== Sys2Proof/Machine/Transfer.lean ====
section
/-! DEFINITION. Copies (R236 to R242), atomics (R254, R255), the chain sequencer (R251 to R253), and what leaves the core after a commit or
arrives from outside the region (R127, R178, R184, R248, R249, R256, R262, R263, R343). -/

namespace Sys2Proof.Machine

/-! ## Checks of a copy (R236) -/

/-- Operand registers in ascending order with the hurdle reference among them. -/
def insertRef (y : Nat) : List (Nat × Nat) → List (Nat × Nat)
  | [] => [(y, 4)]
  | (r, d) :: t => if y < r then (y, 4) :: (r, d) :: t else (r, d) :: insertRef y t

/-- A copy's operand registers and its hurdle reference checked: the hurdle it names, if any. -/
def copyOperands (e : Env) (s : State) (y : BitVec 6) (l : List (Nat × Nat)) (k : Option Nat → Res) : Res :=
  if y = 0 then consumeN e l (k none)
  else consumeN e (insertRef y.toNat l) (localRef e s (e.x y).val (k (some (refHurdle (e.x y).val))))

/-- The rows of a copy: number, bytes, scratchpad offset, global address, local and global pitch. -/
structure Rows where
  rows : Nat
  bytes : Nat
  off : Word
  gaddr : Word
  lpitch : Nat
  gpitch : Nat

/-- Whether a length is within its limits. -/
def lengthOk (n lim : Nat) : Bool := decide (4 ≤ n) && decide (n ≤ lim) && n % 4 == 0

/-- Whether a pitch is within its limits. -/
def pitchOk (p rb : Nat) : Bool := decide (rb ≤ p) && p % 4 == 0

/-- XFER_FAULT on a register value. -/
def xferFault (v : Word) : Option Trap := some (mkTrap 0x18 0 v)

/-- MISALIGN on the offset or the global address, then ILLEGAL_ADDR on the scratchpad range. -/
def rangeFault (a : Arch) (x : Rows) : Option Trap :=
  if x.off.toNat % 4 ≠ 0 then some (mkTrap 0x14 0 x.off)
  else if x.gaddr.toNat % 4 ≠ 0 then some (mkTrap 0x14 0 x.gaddr)
  else ((List.range x.rows).findSome? fun r => localFault a (x.off + BitVec.ofNat 64 (r * x.lpitch)) x.bytes).map fun o => mkTrap 0x10 0 o

/-- The rows of a linear copy, or its fault. -/
def linearRows (e : Env) (x : BitVec 6) : Except Trap Rows :=
  let n := (e.xk x 2).val
  let r : Rows := { rows := 1, bytes := n.toNat, off := (e.x x).val, gaddr := (e.xk x 1).val, lpitch := 0, gpitch := 0 }
  match (if lengthOk n.toNat 8388608 then rangeFault e.rd.a r else xferFault n) with
  | some t => .error t
  | none => .ok r

/-- The rows of a 2D copy, or its fault. -/
def planeRows (e : Env) (x : BitVec 6) : Except Trap Rows :=
  let n := (e.xk x 2).val
  let p := (e.xk x 3).val
  let r : Rows := { rows := fieldOf n 32 32, bytes := fieldOf n 0 32, off := (e.x x).val, gaddr := (e.xk x 1).val,
                    lpitch := fieldOf p 32 32, gpitch := fieldOf p 0 32 }
  match (if !(decide (1 ≤ r.rows) && decide (r.rows ≤ 4096) && lengthOk r.bytes 65536) then xferFault n
    else if !(pitchOk r.lpitch r.bytes && pitchOk r.gpitch r.bytes) then xferFault p
    else rangeFault e.rd.a r) with
  | some t => .error t
  | none => .ok r

/-- TILE_FAULT on a handle (R217). -/
def tileTrap (d : Nat) (h : Word) : Trap := mkTrap 0x17 d h

/-- The rows of a tile copy, or its fault: handle, descriptor, pitch, address. -/
def tileRows (e : Env) (x : BitVec 6) : Except Trap Rows :=
  let h := (e.x x).val
  let g := (e.xk x 1).val
  let p := (e.xk x 2).val
  let t := tileOf e.rd.a h.toNat
  let (rows, rb, lp, gp) := tImage t.desc (fieldOf p 0 32)
  if 512 ≤ h.toNat then .error (tileTrap 0 h)
  else if !t.v then .error (tileTrap 2 h)
  else if tMalformed e.rd.a t.desc then .error (tileTrap 1 h)
  else if !tQuant t.desc && !pitchOk gp rb then .error (mkTrap 0x18 0 p)
  else if g.toNat % 4 ≠ 0 then .error (mkTrap 0x14 0 g)
  else .ok { rows := rows, bytes := rb, off := BitVec.ofNat 64 (tBase t.desc), gaddr := g, lpitch := lp, gpitch := gp }

/-- A copy of the issuing word with its serial. -/
def newCopy (e : Env) (s : State) (outb : Bool) (r : Rows) (h : Option Nat) (tile : Option Nat) : Copy :=
  { id := (getCore s e.ci).nextCopy, outb := outb, rows := r.rows, rowBytes := r.bytes, off := r.off.toNat, gaddr := r.gaddr,
    lpitch := r.lpitch, gpitch := r.gpitch, hurdle := h, tile := tile, fetcher := false, slot := none, push := e.pout, homes := 0,
    done := 0, made := 0, entry := 0, open_ := true, fault := none }

/-- A copy queued in the transfer engine. -/
def queueCopy (c : Core) (x : Copy) : Core := { c with copies := c.copies ++ [x], nextCopy := c.nextCopy + 1 }

/-- An inbound copy starts, while fewer than 16 copies are queued (R237). -/
def startIn (e : Env) (s : State) (x : Copy) : Res :=
  if 16 ≤ (getCore s e.ci).copies.length then .stall else .later (modCore s e.ci fun c => queueCopy c x)

/-- The dies whose local memory some addresses lie in, as they translate now (R271). -/
def homesOf (s : State) (ci : Nat) (l : List Word) : BitVec 2 :=
  l.foldl (fun acc a =>
    match transTarget s ci a .write with
    | .ok (_, pa) => if paKind pa = 0 then acc ||| 1#2 else if paKind pa = 1 then acc ||| 2#2 else acc
    | .error _ => acc) 0

/-- Whether an entry of the commit buffer is a recorded copy. -/
def CEntry.isCopy : CEntry → Bool
  | .copy _ => true
  | _ => false

/-- An outbound copy is checked and recorded at its place in entry order (R238). -/
def recordOut (e : Env) (s : State) (x : Copy) (k : State → State) : Res :=
  let pts := wrapOrder x.gaddr (touchPoints x)
  match globalFault s e.ci .write 2 pts with
  | some t => .raise t
  | none =>
    if 32 ≤ ((getCore s e.ci).cbuf.filter CEntry.isCopy).length then overflow s 2
    else .later (k (modCore s e.ci fun c => { c with cbuf := c.cbuf ++ [.copy { x with homes := homesOf s e.ci pts }], nextCopy := c.nextCopy + 1 }))

/-- The last 16 distinct tags of tile images that the core has read (R355). -/
def noteTag (c : Core) (g : Word) : Core :=
  let t := BitVec.ofNat 32 (fieldOf g 16 32)
  { c with tags := (t :: c.tags.filter (· != t)).take 16 }

/-! ## Copies as instructions (R236 to R239) -/

/-- The operand registers of a copy with `n` of them beyond the two addresses; `d` is the detail of the first. -/
def copyRegs (x : BitVec 6) (d n : Nat) : List (Nat × Nat) :=
  [(x.toNat, d), (x.toNat + 1, 0)] ++ (List.range n).map fun k => (x.toNat + 2 + k, 4)

/-- An inbound copy of rows found without fault. -/
def copyIn (e : Env) (s : State) (y : BitVec 6) (l : List (Nat × Nat)) (r : Except Trap Rows) : Res :=
  copyOperands e s y l fun h =>
    match r with
    | .error t => .raise t
    | .ok r => startIn e s (newCopy e s false r h none)

/-- An outbound copy of rows found without fault. -/
def copyOut (e : Env) (s : State) (y : BitVec 6) (l : List (Nat × Nat)) (r : Except Trap Rows) : Res :=
  copyOperands e s y l fun h =>
    match r with
    | .error t => .raise t
    | .ok r => recordOut e s (newCopy e s true r h none) id

/-- `cpin.t`: the tile becomes FILLING (R215). -/
def copyTileIn (e : Env) (s : State) (x y : BitVec 6) : Res :=
  copyOperands e s y (copyRegs x 4 1) fun h =>
    match tileRows e x with
    | .error t => .raise t
    | .ok r =>
      let n := (e.x x).val.toNat
      let c := getCore s e.ci
      match (tileOf c.a n).st with
      | .filling => .stall
      | .draining => if ownCopy c n then .raise (tileTrap 3 (e.x x).val) else .stall
      | _ => startIn e (modCore s e.ci fun c => noteTag { c with a := setTileSt c.a n .filling } r.gaddr) (newCopy e s false r h (some n))

/-- `cpout.t`: the tile becomes DRAINING (R215). -/
def copyTileOut (e : Env) (s : State) (x y : BitVec 6) : Res :=
  copyOperands e s y (copyRegs x 4 1) fun h =>
    match tileRows e x with
    | .error t => .raise t
    | .ok r =>
      let n := (e.x x).val.toNat
      match (tileOf (getCore s e.ci).a n).st with
      | .empty => .raise (tileTrap 3 (e.x x).val)
      | .filling => .stall
      | _ => recordOut e s (newCopy e s true r h (some n)) fun s => modArch s e.ci fun a => setTileSt a n .draining

/-- CPIN (R237). -/
def execCpin (x y : BitVec 6) (tk : Tk) (s : State) : Host.Outcome State Fault Refusal :=
  issueE (encXYTk 0x4E000000 x y tk) [] tk s fun e s => copyIn e s y (copyRegs x 0 1) (linearRows e x)

/-- CPIN_2D (R237). -/
def execCpin2d (x y : BitVec 6) (tk : Tk) (s : State) : Host.Outcome State Fault Refusal :=
  issueE (encXYTk 0x4E000100 x y tk) [] tk s fun e s => copyIn e s y (copyRegs x 0 2) (planeRows e x)

/-- CPIN_T (R237). -/
def execCpinT (x y : BitVec 6) (tk : Tk) (s : State) : Host.Outcome State Fault Refusal :=
  issueE (encXYTk 0x4E000200 x y tk) [] tk s fun e s => copyTileIn e s x y

/-- CPOUT (R238). -/
def execCpout (x y : BitVec 6) (tk : Tk) (s : State) : Host.Outcome State Fault Refusal :=
  issueE (encXYTk 0xCE000000 x y tk) [] tk s fun e s => copyOut e s y (copyRegs x 0 1) (linearRows e x)

/-- CPOUT_2D (R238). -/
def execCpout2d (x y : BitVec 6) (tk : Tk) (s : State) : Host.Outcome State Fault Refusal :=
  issueE (encXYTk 0xCE000100 x y tk) [] tk s fun e s => copyOut e s y (copyRegs x 0 2) (planeRows e x)

/-- CPOUT_T (R238). -/
def execCpoutT (x y : BitVec 6) (tk : Tk) (s : State) : Host.Outcome State Fault Refusal :=
  issueE (encXYTk 0xCE000200 x y tk) [] tk s fun e s => copyTileOut e s x y

/-! ## Atomics (R182, R183, R254, R255) -/

/-- HOST_WINDOW with detail 1 for an operation that a window does not support, or for core scope (R184, R255). -/
def amoWindow (tg : Target) (op : AmoOp) (size : Nat) (core : Bool) (a : Word) : Option Trap :=
  let bad := some (mkTrap 0x16 1 a)
  match tg with
  | .dev _ => none
  | .peer _ _ => if core then bad else none
  | .host _ _ =>
    if core then bad
    else match op with
      | .add | .swap => if size ≤ 8 then none else bad
      | .cas => if 8 ≤ size then none else bad
      | _ => bad

/-- The lines that a core pins with one more: a ninth ends the oldest pin. -/
def pinLine (l : List Nat) (line : Nat) : List Nat :=
  if l.contains line then l else (if 8 ≤ l.length then l.drop 1 else l) ++ [line]

/-- A result slot written at issue, and NEXT moved on. -/
def takeSlot (a : Arch) (v : BitVec 128) (psn pend : Bool) : Arch :=
  { a with res := vset a.res a.nextRes { val := v, psn := psn, pend := pend }, nextRes := a.nextRes + 1 }

/-- The result slot of a commit-attached atomic: it waits for the result. -/
def awaitSlot (a : Arch) : Arch := takeSlot a (vget a.res ResSlot.zero a.nextRes).val (vget a.res ResSlot.zero a.nextRes).psn true

/-- A core-scope atomic on a line of device memory. -/
def amoCore (e : Env) (s : State) (tg : Target) (pa : Nat) (a : Word) (op : AmoOp) (size : Nat) (cmp val : BitVec 128) : Res :=
  if pinnedByOther s e.ci pa then .retry
  else
    let (s1, b, mark) := readLoad (modArch s e.ci fun ar => { ar with pins := pinLine ar.pins (pa / 128) }) e.ci a tg pa size
    if mark then
      .done (modArch (logErr s1 (partOf e.rd) e.ci 0x20 2 (some a) none 0) e.ci fun ar => takeSlot ar 0 true false)
    else
      let fin := fun (s : State) => Res.done (modArch s e.ci fun ar => takeSlot ar (BitVec.ofNat 128 (leNat b)) false false)
      match amoNew op size (leNat b) cmp.toNat val.toNat with
      | none => fin s1
      | some v => enterAll e s1 [(pa, a, natBytes size v)] fin

/-- An atomic on `size` bytes at x(b) with the data registers `regs`. -/
def amoWord (e : Env) (s : State) (b : BitVec 6) (regs : List Nat) (core : Bool) (op : AmoOp) (size : Nat) (cmp val : BitVec 128) : Res :=
  let a := (e.x b).val
  consume e [(b, 0)]
    (if a.toNat % size ≠ 0 then raise 0x14 0 a
    else consumeN e (regs.map fun r => (r, 2))
      (if 16 ≤ (getCore s e.ci).a.nextRes then overflow s 1
      else match transAccess s e.ci a .write 3 with
        | .error t => .raise t
        | .ok (tg, pa) =>
          match amoWindow tg op size core a with
          | some t => .raise t
          | none =>
            if core then amoCore e s tg pa a op size cmp val
            else match enterEntry (getCore s e.ci).cbuf (.atomic pa a op size cmp val (getCore s e.ci).a.nextRes) with
              | none => overflow s 0
              | some l => .done (modCore s e.ci fun c => { c with cbuf := l, a := awaitSlot c.a })))

/-- An atomic with one data register and the size that bit `z` gives. -/
def amoOne (e : Env) (s : State) (x y : BitVec 6) (c z : BitVec 1) (op : AmoOp) : Res :=
  amoWord e s y [x.toNat] (c == 1) op (if z = 1 then 8 else 4) 0 ((e.x x).val.setWidth 128)

/-- Two registers as one number of 128 bits. -/
def pairVal (e : Env) (x : BitVec 6) (k : Nat) : BitVec 128 := (e.xk x (k + 1)).val ++ (e.xk x k).val

/-- AMO_ADD (R255). -/
def execAmoAdd (x y : BitVec 6) (c z : BitVec 1) (tk : Tk) (s : State) : Host.Outcome State Fault Refusal :=
  issueE (encXYCZTk 0xD0000000 x y c z tk) [] tk s fun e s => amoOne e s x y c z .add

/-- AMO_AND (R255). -/
def execAmoAnd (x y : BitVec 6) (c z : BitVec 1) (tk : Tk) (s : State) : Host.Outcome State Fault Refusal :=
  issueE (encXYCZTk 0xD0000200 x y c z tk) [] tk s fun e s => amoOne e s x y c z .and

/-- AMO_OR (R255). -/
def execAmoOr (x y : BitVec 6) (c z : BitVec 1) (tk : Tk) (s : State) : Host.Outcome State Fault Refusal :=
  issueE (encXYCZTk 0xD0000400 x y c z tk) [] tk s fun e s => amoOne e s x y c z .or

/-- AMO_XOR (R255). -/
def execAmoXor (x y : BitVec 6) (c z : BitVec 1) (tk : Tk) (s : State) : Host.Outcome State Fault Refusal :=
  issueE (encXYCZTk 0xD0000600 x y c z tk) [] tk s fun e s => amoOne e s x y c z .xor

/-- AMO_MAX (R255). -/
def execAmoMax (x y : BitVec 6) (c z : BitVec 1) (tk : Tk) (s : State) : Host.Outcome State Fault Refusal :=
  issueE (encXYCZTk 0xD0000800 x y c z tk) [] tk s fun e s => amoOne e s x y c z .max

/-- AMO_MAXU (R255). -/
def execAmoMaxu (x y : BitVec 6) (c z : BitVec 1) (tk : Tk) (s : State) : Host.Outcome State Fault Refusal :=
  issueE (encXYCZTk 0xD0000A00 x y c z tk) [] tk s fun e s => amoOne e s x y c z .maxu

/-- AMO_SWAP (R255). -/
def execAmoSwap (x y : BitVec 6) (c z : BitVec 1) (tk : Tk) (s : State) : Host.Outcome State Fault Refusal :=
  issueE (encXYCZTk 0xD0000C00 x y c z tk) [] tk s fun e s => amoOne e s x y c z .swap

/-- AMO_CAS_D (R255). -/
def execAmoCasD (x y : BitVec 6) (c : BitVec 1) (tk : Tk) (s : State) : Host.Outcome State Fault Refusal :=
  issueE (encXYCTk 0xD0000E00 x y c tk) [] tk s fun e s =>
    amoWord e s y [x.toNat, x.toNat + 1] (c == 1) .cas 8 ((e.x x).val.setWidth 128) ((e.xk x 1).val.setWidth 128)

/-- AMO_CAS_Q (R255). -/
def execAmoCasQ (x y : BitVec 6) (c : BitVec 1) (tk : Tk) (s : State) : Host.Outcome State Fault Refusal :=
  issueE (encXYCTk 0xD0000F00 x y c tk) [] tk s fun e s =>
    amoWord e s y [x.toNat, x.toNat + 1, x.toNat + 2, x.toNat + 3] (c == 1) .cas 16 (pairVal e x 0) (pairVal e x 2)

/-! ## The freeze of a core (R241) -/

/-- Whether the firmware of a core's die serves it: while it restarts, requests to it are held and posts wait (R375). -/
def firmwareUp (s : State) (ci : Nat) : Bool := !(getDie s (dieOf ci)).restarting

/-- Whether a core's transfer engine moves copies of committed work: it holds a unit and is neither frozen nor retired. -/
def copiesRun (c : Core) : Bool :=
  c.freeze.isNone && c.unit.isSome && match c.run with
  | .running | .svc _ | .ending _ _ | .halted | .held => true
  | _ => false

/-- A fault of a running copy or of the read of a chain entry stops the core, and a record goes to the fault service. The walk that a marked table
entry has stopped has read its entries at their homes (R365). -/
def freezeCore (s0 : State) (ci : Nat) (t : Trap) (copy slot : Option Nat) : State :=
  let s := if markedWalk t.cause t.detail then readWalk s0 ci t.tval else s0
  let c := getCore s ci
  modPart (putCore s ci { c with freeze := some { cause := t.cause, detail := t.detail, addr := t.tval, copy := copy, slot := slot, err := none } }) (partOf c)
    fun p => { p with svcq := p.svcq ++ [{ core := ci, svc := false, arg := t.tval }] }

/-- The first request of a core that the fault service holds: `svc` or not. -/
def firstRequest (s : State) (ci : Nat) : Option SvcReq :=
  (getPart s (partOf (getCore s ci))).svcq.find? fun x => x.core == ci

/-- The first request of a core answered. -/
def dropRequest (s : State) (ci : Nat) : State :=
  match firstRequest s ci with
  | none => s
  | some x => modPart s (partOf (getCore s ci)) fun p => { p with svcq := p.svcq.erase x }

/-- Whether the fault service may answer a core's freeze now: it answers in the order of a core's requests (R332). -/
def freezeNext (s : State) (ci : Nat) : Bool :=
  (getCore s ci).freeze.isSome && match firstRequest s ci with
  | some x => !x.svc
  | none => false

/-- The freeze of a core ends. -/
def thaw (s : State) (ci : Nat) : State := modCore (dropRequest s ci) ci fun c => { c with freeze := none }

/-- Whether the faulting copy of a frozen core belongs to the open region. -/
def freezeOpen (c : Core) : Bool :=
  match c.freeze with
  | none => false
  | some f => c.copies.any fun x => x.open_ && f.copy == some x.id

/-- The record that a source leaves besides REPLAYED: MX_CHECK or VIGIL_MISMATCH (R261). -/
def sourceRecord (s : State) (ci src : Nat) : State :=
  let part := partOf (getCore s ci)
  if src = 4 then logErr s part ci 0x26 0 none none 0 else if src = 5 then logErr s part ci 0x23 0 none none 0 else s

/-- The replay of a reported error: requests of the core to the fault service are withdrawn, the source's record is logged, and the region is
discarded and run again, or the core retired (R263, R264, R270). -/
def replayError (s : State) (ci src : Nat) : State :=
  replayRegion (modCore (withdraw (sourceRecord s ci src) (partOf (getCore s ci)) ci) ci fun c => { c with run := .running }) ci src

/-- A freeze ends with the fault resolved: the core goes on, and a replay that waited for the end runs (R241, R264). -/
def freezeResumed (s : State) (ci : Nat) : State :=
  match (getCore s ci).freeze.bind fun f => f.err with
  | none => thaw s ci
  | some src => replayError (thaw s ci) ci src

/-- AUX of the record of a freeze: the global address of its copy, or the address of its chain entry (R331). -/
def freezeAux (c : Core) (f : Freeze) : Option Word :=
  match f.copy, f.slot with
  | some id, _ => (c.copies.find? fun x => x.id == id).map fun x => x.gaddr
  | none, some k => some (chainOf c k).cpc
  | none, none => none

/-- The unit of a frozen core ends with the cause of the fault; the copy that met it does not resume, and a chain that met it stops. -/
def freezeFailed (s : State) (ci : Nat) (f : Freeze) : State :=
  endUnitAux (modCore (thaw s ci) ci fun c =>
    refillCopies { c with copies := c.copies.filter (fun x => f.copy != some x.id),
                          chains := (match f.slot with | some k => vset c.chains k { chainOf c k with st := .fault } | none => c.chains) })
    ci f.cause f.detail (some f.addr) (freezeAux (getCore s ci) f)

/-- A freeze ends with the fault unresolvable: the unit ends, unless an error waits whose replay discards the faulting copy with the region: the
fault's record is withdrawn with it (R241, R264). -/
def freezeEnd (s : State) (ci : Nat) : State :=
  match (getCore s ci).freeze with
  | none => s
  | some f =>
    match (if freezeOpen (getCore s ci) then f.err else none) with
    | some src => replayError (thaw s ci) ci src
    | none => freezeFailed s ci f

/-! ## The work that a unit leaves behind when it is switched out (R334, R335) -/

/-- A core that serves a unit switched out of it: the unit's image with the caches and pins of the core as it stands. -/
def lendCore (live i : Core) : Core :=
  { i with run := (match i.run with | .ending a b => .ending a b | _ => .halted), l1 := live.l1, invq := live.invq, icache := live.icache,
           stash := live.stash, tlb1 := live.tlb1, tlb2 := live.tlb2, inbox := live.inbox, arrivals := live.arrivals, answers := live.answers,
           a := { i.a with pins := live.a.pins, windows := Vector.replicate 16 none } }

/-- The core once it has served: what the step has done to its caches and pins. -/
def returnCore (live t : Core) : Core :=
  { live with l1 := t.l1, invq := t.invq, icache := t.icache, stash := t.stash, inbox := t.inbox, arrivals := t.arrivals, answers := t.answers,
              a := { live.a with pins := t.a.pins } }

/-- Arrivals held for a switched-out unit, up to 4,096, and the number of those beyond (R335). -/
def holdEvents (x : Switched) (l : List ExtEv) : Switched × Nat :=
  let n := 4096 - x.held.length
  ({ x with held := x.held ++ l.take n }, (l.drop n).length)

/-- Arrivals discarded and counted (R248, R335). -/
def discardMany (s : State) (part n : Nat) : State := modPart s part fun p => { p with discard := (p.discard + n) % 2 ^ 64 }

/-- What a switched-out unit keeps of a step made for it: the work on its way, and its completions as held arrivals (R335). -/
def keepPast (x : Switched) (t : Core) : Switched × Nat :=
  holdEvents { x with image := { x.image with copies := t.copies, backlog := t.backlog, departing := t.departing, outst := t.outst, chains := t.chains,
                                              freeze := t.freeze, run := t.run, unit := t.unit, resends := t.resends } }
    (t.ext.drop x.image.ext.length)

/-- Whether a switched-out unit is the one of a launch and an index. -/
def Switched.isUnit (x : Switched) (launch index : Nat) : Bool := x.launch == launch && x.index == index

/-- A switched-out unit taken off its partition's list; its image slot is free. -/
def dropSwitched (s : State) (part : Nat) (x : Switched) : State :=
  let s1 := modPart s part fun p => { p with switched := p.switched.filter fun y => !y.isUnit x.launch x.index }
  match x.place with
  | none => s1
  | some (d, k) => modDie s1 d fun y => { y with images := Sparse.put none y.images k none }

/-- The state in which a core serves a unit switched out of it. -/
def lendState (s : State) (ci : Nat) (x : Switched) : State := putCore s ci (lendCore (getCore s ci) x.image)

/-- The first unit switched out of a core for which a step has work, with its partition. A retired core serves none: its units' work goes on
where they resume. -/
def pastUnit (s : State) (ci : Nat) (has : State → Bool) : Option (Nat × Switched) :=
  if (getCore s ci).run == .retired then none
  else (List.range 8).findSome? fun p =>
    ((getPart s p).switched.find? fun x => x.core == ci && has (lendState s ci x)).map fun x => (p, x)

/-- A step of a core's engines for work outside its open region: made for a unit switched out of the core while that has such work, and else for
the unit that it holds (R334). -/
def withPast (s : State) (ci : Nat) (has : State → Bool) (f : State → State) : State :=
  match pastUnit s ci has with
  | none => f s
  | some (p, x) =>
    let t := f (lendState s ci x)
    let c := getCore t ci
    let y := keepPast x c
    let t1 := discardMany (putCore t ci (returnCore (getCore s ci) c)) p y.2
    let others := fun (q : Part) => q.switched.filter fun z => !z.isUnit x.launch x.index
    match c.unit, c.run with
    | none, _ => dropSwitched t1 p x
    | some _, .ending _ _ =>
        dropResume (modPart t1 p fun q => { q with switched := others q ++ [y.1] }) p x.launch x.index
    | some _, _ => modPart t1 p fun q => { q with switched := q.switched.map fun z => if z.isUnit x.launch x.index then y.1 else z }

/-! ## Steps of the transfer engine (R237, R238, R241, R242) -/

/-- A copy of a core replaced, by its serial. -/
def putCopy (c : Core) (x : Copy) : Core := { c with copies := c.copies.map fun (y : Copy) => if y.id == x.id then x else y }

/-- A piece of work has gone through: it is no longer counted as sent again (R262). -/
def sentOn (c : Core) (key : Nat) : Core := { c with resends := Sparse.put 0 c.resends key 0 }

/-- The key of a copy's piece among the pieces of work that may be sent again. -/
def copyKey (x : Copy) : Nat := 8 + x.id

/-- The core once `n` bytes of a copy have moved: they arrive at its hurdle, unless an earlier run has counted them. -/
def copyMoved (c : Core) (x : Copy) (n : Nat) : Core :=
  let c1 := if x.made < x.done + n then arriveCopy c x n else c
  putCopy (sentOn c1 (copyKey x)) { x with done := x.done + n, made := max x.made (x.done + n) }

/-- Whether another outbound copy of a tile runs or is recorded. -/
def otherOut (c : Core) (x : Copy) (h : Nat) : Bool :=
  (c.copies ++ c.backlog).any (fun y => y.outb && y.id != x.id && y.tile == some h) || ownCopy c h

/-- A copy completes: it leaves the queue, which one that waits for a place takes up, its tile becomes READY, its push is made. -/
def finishCopy (c : Core) (x : Copy) : Core :=
  let c1 := refillCopies { c with copies := c.copies.filter fun y => y.id != x.id }
  let c2 := match x.tile with
    | none => c1
    | some h =>
      let c3 := if x.outb && otherOut c x h then c1 else { c1 with a := setTileSt c1.a h .ready }
      if x.open_ then c3 else { c3 with ext := c3.ext ++ [.tileDone h] }
  completePush c2 x.push (!x.open_)

/-- An inbound copy finished if every byte has landed. -/
def finishIfDone (c : Core) (id : Nat) : Core :=
  match c.copies.find? fun y => y.id == id with
  | some x => if copyDone x then finishCopy c x else c
  | none => c

/-- Whether a copy may move bytes: on a halted core a chain's COPY that has not started is dropped at the switch (R334). -/
def mayMove (c : Core) (x : Copy) : Bool := c.run != .halted || x.slot.isNone || decide (0 < x.done)

/-- The oldest inbound copy of the queue that is not the operand fetcher's. -/
def nextIn (c : Core) : Option Copy := c.copies.find? fun x => !x.outb && !x.fetcher && mayMove c x

/-- The oldest outbound copy with bytes to move. -/
def nextOut (c : Core) : Option Copy := c.copies.find? fun x => x.outb && !copyDone x && mayMove c x

/-- The next piece of the oldest inbound copy lands; a fault freezes the core. -/
def landPiece (s : State) (ci : Nat) : State :=
  match (if copiesRun (getCore s ci) then nextIn (getCore s ci) else none) with
  | none => s
  | some x =>
    match movePieceIn s ci x with
    | .fault t => freezeCore s ci t (some x.id) none
    | .retry => unpin s ci
    | .ok s' b => modCore s' ci fun c => finishIfDone (copyMoved c { x with ahead := b } (pieceOf x).2.2) x.id

/-- COPY_PIECE_LAND (R237). -/
def execCopyPieceLand (core : Nat) (s : State) : Host.Outcome State Fault Refusal :=
  if 72 ≤ core then .fault .noSuchAgent else .next (landPiece s core)

/-- The next piece of the oldest outbound copy is written; a fault freezes the core. -/
def writePiece (s : State) (ci : Nat) : State :=
  match (if copiesRun (getCore s ci) then nextOut (getCore s ci) else none) with
  | none => s
  | some x =>
    match movePieceOut s ci x .write 2 with
    | .fault t => freezeCore s ci t (some x.id) none
    | .retry => unpin s ci
    | .ok s' b => modCore s' ci fun c => copyMoved c { x with ahead := b } (pieceOf x).2.2

/-- Whether a core has an outbound piece to write. -/
def hasPiece (s : State) (ci : Nat) : Bool := copiesRun (getCore s ci) && (nextOut (getCore s ci)).isSome

/-- OUTBOUND_COPY_EXECUTE (R238). -/
def execOutboundCopyExecute (core : Nat) (s : State) : Host.Outcome State Fault Refusal :=
  if 72 ≤ core then .fault .noSuchAgent else .next (withPast s core (hasPiece · core) (writePiece · core))

/-- Whether a copy writes to a peer window, as it translates now; not known while a walk meets a pinned line (R182). -/
def copyToPeer (s : State) (ci : Nat) (x : Copy) : Bool :=
  (touchPoints x).any fun a => match transTarget s ci a .write with
    | .ok (.peer _ _, _) => true
    | .ok _ => false
    | .error t => isRetry t

/-- The oldest outbound copy whose bytes have all been accepted; one to a peer window waits for the acknowledgements (R238). -/
def doneOut (s : State) (ci : Nat) : Option Copy :=
  let c := getCore s ci
  if copiesRun c then c.copies.find? fun x => x.outb && copyDone x && (peerWritesDone c || !copyToPeer s ci x) else none

/-- That copy completes. -/
def completeOut (s : State) (ci : Nat) : State :=
  match doneOut s ci with
  | none => s
  | some x => putCore s ci (finishCopy (getCore s ci) x)

/-- OUTBOUND_COPY_COMPLETE (R239). -/
def execOutboundCopyComplete (core : Nat) (s : State) : Host.Outcome State Fault Refusal :=
  if 72 ≤ core then .fault .noSuchAgent else .next (withPast s core (fun t => (doneOut t core).isSome) (completeOut · core))

/-- The fault that the next piece of a copy would meet. -/
def pieceFault (s : State) (ci : Nat) (x : Copy) : Option Trap :=
  match (if x.outb then partsCheck s ci .write 2 (pieceWrites x) else partsCheck s ci .read 1 (pieceReads x)) with
  | .error t => some t
  | .ok _ => none

/-- The fault that a copy under way has met, with its serial. -/
def foundFault (s : State) (ci : Nat) : Option (Trap × Nat) :=
  let c := getCore s ci
  let l := if copiesRun c then (nextIn c).toList ++ (nextOut c).toList else []
  l.findSome? fun x => (pieceFault s ci x).map fun t => (t, x.id)

/-- The core freezes if a copy under way has met a fault (R241). -/
def findFault (s : State) (ci : Nat) : State :=
  match foundFault s ci with
  | none => s
  | some (t, id) => freezeCore s ci t (some id) none

/-- COPY_FREEZE (R241). -/
def execCopyFreeze (core : Nat) (s : State) : Host.Outcome State Fault Refusal :=
  if 72 ≤ core then .fault .noSuchAgent else .next (withPast s core (fun t => (foundFault t core).isSome) (findFault · core))

/-- FREEZE_RESUME (R241). -/
def execFreezeResume (core : Nat) (s : State) : Host.Outcome State Fault Refusal :=
  if 72 ≤ core then .fault .noSuchAgent
  else .next (withPast s core (fun t => (getCore t core).freeze.isSome) fun s =>
    if firmwareUp s core && freezeNext s core then freezeResumed s core else s)

/-- FREEZE_UNRESOLVABLE (R241). -/
def execFreezeUnresolvable (core : Nat) (s : State) : Host.Outcome State Fault Refusal :=
  if 72 ≤ core then .fault .noSuchAgent
  else .next (withPast s core (fun t => (getCore t core).freeze.isSome) fun s =>
    if firmwareUp s core && freezeNext s core then freezeEnd s core else s)

/-! ## Chains (R251 to R254) -/

/-- A chain slot of a core changed. -/
def modChain (s : State) (ci k : Nat) (f : Chain → Chain) : State :=
  modCore s ci fun c => { c with chains := vset c.chains k (f (chainOf c k)) }

/-- A chain slot runs or waits. -/
def chainLive (k : Chain) : Bool :=
  match k.st with
  | .run | .wait => true
  | _ => false

/-- The operands of a chain entry: its four dwords. -/
structure Entry where
  d0 : Nat
  d1 : Nat
  d2 : Nat
  d3 : Nat

/-- The four dwords of 32 bytes. -/
def entryOf (b : List Byte) : Entry :=
  let d := fun k => leNat ((b.drop (8 * k)).take 8)
  { d0 := d 0, d1 := d 1, d2 := d 2, d3 := d 3 }

/-- A field of a dword. -/
def bitsIn (v lo n : Nat) : Nat := v / 2 ^ lo % 2 ^ n

/-- OP. -/
def Entry.op (x : Entry) : Nat := bitsIn x.d0 0 4
/-- RING. -/
def Entry.ring (x : Entry) : Nat := bitsIn x.d0 8 8
/-- HURDLE. -/
def Entry.hurdle (x : Entry) : Nat := bitsIn x.d0 16 10
/-- HEN. -/
def Entry.hen (x : Entry) : Bool := bitsIn x.d0 28 1 == 1
/-- DIR. -/
def Entry.dir (x : Entry) : Bool := bitsIn x.d0 4 1 == 1
/-- LEN. -/
def Entry.len (x : Entry) : Nat := bitsIn x.d0 32 32

/-- The rows of a COPY or COPY2D entry. -/
def Entry.toRows (x : Entry) : Rows :=
  let off := BitVec.ofNat 64 (bitsIn x.d2 0 23)
  let g := BitVec.ofNat 64 x.d1
  if x.op = 1 then { rows := 1, bytes := x.len, off := off, gaddr := g, lpitch := 0, gpitch := 0 }
  else { rows := bitsIn x.d0 32 12 + 1, bytes := bitsIn x.d3 0 17, off := off, gaddr := g, lpitch := bitsIn x.d3 32 21,
         gpitch := bitsIn x.d2 32 32 }

/-- Whether an entry is malformed (R252). -/
def Entry.bad (x : Entry) (a : Arch) : Bool :=
  let o := x.op
  let copy := o == 1 || o == 2
  let none23 := x.d2 == 0 && x.d3 == 0
  bitsIn x.d0 5 3 != 0 || bitsIn x.d0 26 2 != 0 || bitsIn x.d0 29 3 != 0 || decide (8 ≤ o) ||
  (!copy && (x.hen || x.dir)) || (!(copy || o == 7) && x.hurdle != 0) || (!(o == 3 || o == 4) && x.ring != 0) ||
  (if o = 2 then bitsIn x.d0 44 20 != 0 else if o = 1 then false else x.len != 0) ||
  !(match o with
    | 0 => x.d1 == 0 && none23
    | 1 => bitsIn x.d2 23 41 == 0 && x.d3 == 0 && lengthOk x.len 8388608 && (rangeFault a x.toRows).isNone
    | 2 =>
        let r := x.toRows
        bitsIn x.d2 23 9 == 0 && bitsIn x.d3 17 15 == 0 && bitsIn x.d3 53 11 == 0 && lengthOk r.bytes 65536 && pitchOk r.lpitch r.bytes &&
        pitchOk r.gpitch r.bytes && (rangeFault a r).isNone
    | 5 => x.d1 % 32 == 0 && none23
    | 6 => x.d2 % 8 == 0 && decide (x.d2 + 8 ≤ plain a) && x.d3 == 0
    | _ => none23)

/-- A chain stops at an entry, and C takes a trap at its first instruction that has not completed. TVAL is the entry's address, `off` bytes on. -/
def chainFault (s : State) (ci k : Nat) (cause detail off : Nat) : State :=
  let a := (chainOf (getCore s ci) k).cpc + BitVec.ofNat 64 off
  modCore (modChain s ci k fun x => { x with st := .fault, held := false, stopping := false }) ci fun c =>
    { c with engTraps := c.engTraps ++ [{ cl := .c, trap := mkTrap cause detail a }] }

/-- Whether a COPY of a slot has not completed. -/
def slotCopies (c : Core) (k : Nat) : Bool := c.copies.any fun x => x.slot == some k

/-- A slot whose entry has completed has a status: STOPPED if `chain.stop` has come while it was held (R251). -/
def chainGo (x : Chain) (st : ChainSt) : Chain :=
  if x.stopping then { x with st := .stopped, held := false, stopping := false, skip := none } else { x with st := st, held := false }

/-- A slot goes on to its next entry. -/
def chainNext (x : Chain) : Chain := chainGo { x with cpc := x.cpc + 32 } .run

/-- An entry's effect once every earlier COPY of its slot has completed, and what its slot does then; the slot's status is WAIT until then
(R253). -/
def afterCopies (s : State) (ci k : Nat) (f : State → State) (next : Chain → Chain) : State :=
  if slotCopies (getCore s ci) k then modChain s ci k fun x => { x with st := .wait, held := true }
  else modChain (f s) ci k next

/-- A COPY or COPY2D entry is queued in the transfer engine, while it has room. -/
def chainCopyRun (s : State) (ci k : Nat) (x : Entry) : State :=
  let c := getCore s ci
  if 16 ≤ c.copies.length then s
  else
    let r := x.toRows
    let y : Copy := { id := c.nextCopy, outb := x.dir, rows := r.rows, rowBytes := r.bytes, off := r.off.toNat, gaddr := r.gaddr,
                      lpitch := r.lpitch, gpitch := r.gpitch, hurdle := if x.hen then some x.hurdle else none, tile := none, fetcher := false,
                      slot := some k, push := none, homes := 0, done := 0, made := 0, entry := (chainOf c k).cpc, open_ := false,
                      fault := none }
    modChain (modCore s ci fun c => queueCopy c y) ci k chainNext

/-- A WAIT entry: its counter satisfies the compare value, or the policy of the ring whose REL it is acts (R354). -/
def chainWaitRun (s : State) (ci k : Nat) (x : Entry) : State :=
  let part := partOf (getCore s ci)
  let ok := fun (s : State) => satisfied (counterOf (getPart s part) x.ring) x.d1
  let hold := fun (s : State) => modChain s ci k fun y => { y with st := .wait }
  if ok s then modChain s ci k chainNext
  else match relRing (getPart s part) x.ring with
    | none => hold s
    | some r =>
      let y := ringOf (getPart s part) r
      if y.policy = 1 then modChain s ci k fun z => { chainNext z with skip := some (r, x.d1 + capOf y - 1) }
      else if y.policy = 2 then
        let s1 := dropOld s part r x.d1
        if ok s1 then modChain s1 ci k chainNext else hold s1
      else hold s

/-- A FLAG entry writes its value with its mark clear. -/
def chainFlagRun (c : Core) (x : Entry) : Core := scrStore c x.d2 (natBytes 8 x.d1) false

/-- An entry that a slot skips under DROP_NEW: LINKs are followed, and the POST to PUB or END gives up the item (R354). -/
def chainSkip (s : State) (ci k r n : Nat) (x : Entry) : State :=
  let part := partOf (getCore s ci)
  if x.op = 0 then afterCopies s ci k (fun s => dropNew s part r n) fun y => { chainGo y .done with skip := none }
  else if x.op = 4 ∧ x.ring = (ringOf (getPart s part) r).pubc.toNat then
    modChain (dropNew s part r n) ci k fun y => { chainNext y with skip := none }
  else if x.op = 5 then modChain s ci k fun y => { y with cpc := BitVec.ofNat 64 x.d1, st := .run }
  else modChain s ci k chainNext

/-- The effect of an entry. -/
def chainEffect (s : State) (ci k : Nat) (x : Entry) : State :=
  let part := partOf (getCore s ci)
  match x.op with
  | 0 => afterCopies s ci k id fun y => chainGo y .done
  | 1 | 2 => chainCopyRun s ci k x
  | 3 => chainWaitRun s ci k x
  | 4 => afterCopies s ci k (fun s => addCounter s part x.ring (BitVec.ofNat 64 x.d1)) chainNext
  | 5 => modChain s ci k fun y => { y with cpc := BitVec.ofNat 64 x.d1, st := .run }
  | 6 => afterCopies s ci k (fun s => modCore s ci fun c => chainFlagRun c x) chainNext
  | _ => afterCopies s ci k (fun s => modCore s ci fun c => arriveExt c x.hurdle (if x.d1 = 0 then 1 else x.d1)) chainNext

/-- Whether a slot has completed the entry that it was at: it has gone on, or its chain is over (R262). -/
def entryDone (x y : Chain) (op : Nat) : Bool := op == 5 || x.cpc != y.cpc || !chainLive y

/-- The entry at a slot's address read and executed if its op is `op`: a fault of the read freezes the core, a malformed or marked entry
stops the slot. -/
def chainStep (s : State) (ci k op : Nat) : State :=
  let c := getCore s ci
  let x := chainOf c k
  if !(enginesRun c && chainLive x) then s
  else match transAccess s ci x.cpc .read 1 with
    | .error t => if isRetry t then unpin s ci else freezeCore s ci t none (some k)
    | .ok (tg, pa) =>
      if pinnedByOther s ci pa then unpin s ci
      else
        let (s1, b, marks) := readCommitted s ci x.cpc tg 32
        let y := entryOf b
        if marks.any id then chainFault s1 ci k 0x20 3 (marks.takeWhile (!·)).length
        else if y.bad c.a then chainFault s1 ci k 0x18 1 0
        else if y.op ≠ op then s
        else
          let t := match x.skip with
            | some (r, n) => chainSkip s1 ci k r n y
            | none => chainEffect s1 ci k y
          if entryDone x (chainOf (getCore t ci) k) op then modCore t ci fun c => sentOn c (2 + k) else t

/-- A step of the sequencer on a slot of a core. -/
def chainEvent (s : State) (core slot op : Nat) : Host.Outcome State Fault Refusal :=
  if 72 ≤ core ∨ 4 ≤ slot then .fault .noSuchAgent else .next (chainStep s core slot op)

/-- CHAIN_END (R253). -/
def execChainEnd (core slot : Nat) (s : State) : Host.Outcome State Fault Refusal :=
  chainEvent s core slot 0

/-- CHAIN_COPY (R252). -/
def execChainCopy (core slot : Nat) (s : State) : Host.Outcome State Fault Refusal :=
  chainEvent s core slot 1

/-- CHAIN_COPY2D (R252). -/
def execChainCopy2d (core slot : Nat) (s : State) : Host.Outcome State Fault Refusal :=
  chainEvent s core slot 2

/-- CHAIN_WAIT (R354). -/
def execChainWait (core slot : Nat) (s : State) : Host.Outcome State Fault Refusal :=
  chainEvent s core slot 3

/-- CHAIN_POST (R253). -/
def execChainPost (core slot : Nat) (s : State) : Host.Outcome State Fault Refusal :=
  chainEvent s core slot 4

/-- CHAIN_LINK (R252). -/
def execChainLink (core slot : Nat) (s : State) : Host.Outcome State Fault Refusal :=
  chainEvent s core slot 5

/-- CHAIN_FLAG (R253). -/
def execChainFlag (core slot : Nat) (s : State) : Host.Outcome State Fault Refusal :=
  chainEvent s core slot 6

/-- CHAIN_ARRIVE (R253). -/
def execChainArrive (core slot : Nat) (s : State) : Host.Outcome State Fault Refusal :=
  chainEvent s core slot 7

/-- A chain started at an address. -/
def startChain (a : Word) : Chain := { cpc := a, st := .run, kick := none, held := false, stopping := false, skip := none }

/-- A pending kick starts once its slot has left RUN and WAIT. -/
def startPending (s : State) (ci k : Nat) : State :=
  let c := getCore s ci
  let x := chainOf c k
  match (if enginesRun c && !chainLive x then x.kick else none) with
  | none => s
  | some a => modChain s ci k fun _ => startChain a

/-- PENDING_KICK_START (R251). -/
def execPendingKickStart (core slot : Nat) (s : State) : Host.Outcome State Fault Refusal :=
  if 72 ≤ core ∨ 4 ≤ slot then .fault .noSuchAgent else .next (startPending s core slot)

/-! ## Posts leave (R248, R249, R343) -/

/-- The identity that a remote arrival carries: that of the gang, or of the launch, with the partition in the low three bits (R248). -/
def identOf (u : UnitInfo) : Nat :=
  8 * (match u.gang with | some g => 2 * g + 1 | none => 2 * u.launch) + u.part

/-- The head of what has been released and not left, if every outbound copy that entered before it has completed. -/
def headPost (c : Core) : Option CEntry :=
  match c.departing with
  | [] => none
  | x :: _ => if copiesRun c && !((c.copies ++ c.backlog).any fun y => y.outb && y.slot.isNone && decide (y.id < x.after)) then some x.entry else none

/-- The head has left. -/
def popPost (c : Core) : Core := sentOn { c with departing := c.departing.drop 1 } 0

/-- A kick reaches its slot: it starts the chain, or is held pending (R251). -/
def kickChain (x : Chain) (a : Word) : Chain := if chainLive x then { x with kick := some a } else startChain a

/-- The Tether port on which an arrival leaves a die: its lowest port whose link is up (log 30). -/
def openPort (s : State) (die : Nat) : Option Nat :=
  (List.range 4).find? fun i => (vget (getDie s die).ports Port.zero i).up

/-- A remote arrival leaves: to another core, or over Tether once the peer writes released before it are acknowledged; with no link up it is
refused (R371). -/
def sendArrival (s : State) (ci : Nat) (v : Word) (n : Nat) : State :=
  let c := getCore s ci
  let id := match c.unit with | some u => identOf u | none => 0
  let target := 36 * fieldOf v 22 1 + fieldOf v 16 6
  let m := fieldOf v 24 3
  if bitOf v 27 then
    if !peerWritesDone c then s
    else match openPort s (dieOf ci) with
      | none => refusedBy (putCore s ci (popPost c)) ci m v
      | some q =>
        let s1 := putCore s ci (let c1 := popPost c; { c1 with outst := c1.outst ++ [.peerArrive m q] })
        { s1 with outbox := s1.outbox ++ [.tetherArrive m target (refHurdle v) n id] }
  else modCore (putCore s ci (popPost c)) target fun c => { c with arrivals := c.arrivals ++ [(refHurdle v, n, id)] }

/-- The head leaves, unless it is a packet. -/
def departPost (s : State) (ci : Nat) : State :=
  let c := getCore s ci
  let part := partOf c
  let s1 := putCore s ci (popPost c)
  match headPost c with
  | some (.sigadd i v) => addSignal s1 part i v
  | some (.ringadd i v) => addCounter s1 part i v
  | some (.kick k a) => modChain s1 ci k fun x => kickChain x a
  | some (.arrive v n) => sendArrival s ci v n
  | _ => s

/-- Whether a core has posts on their way: those of an earlier region leave first (R249). -/
def hasPosts (s : State) (ci : Nat) : Bool := !(getCore s ci).departing.isEmpty

/-- POST_DEPARTURE (R249). -/
def execPostDeparture (core : Nat) (s : State) : Host.Outcome State Fault Refusal :=
  if 72 ≤ core then .fault .noSuchAgent
  else .next (withPast s core (hasPosts · core) fun s => if firmwareUp s core then departPost s core else s)

/-- A committed `qpost` at the head is delivered to its queue: it waits where the producer would be told to retry (R343). -/
def deliverPost (s : State) (ci : Nat) : State :=
  let c := getCore s ci
  match headPost c with
  | some (.post q pkt) =>
    match deliver s (partOf c) q pkt with
    | (s1, .retry) => s1
    | (s1, .pinned) => s1
    | (s1, _) => modCore s1 ci popPost
  | _ => s

/-- QPOST_DELIVERY (R343). -/
def execQpostDelivery (core : Nat) (s : State) : Host.Outcome State Fault Refusal :=
  if 72 ≤ core then .fault .noSuchAgent
  else .next (withPast s core (hasPosts · core) fun s => if firmwareUp s core then deliverPost s core else s)

/-! ## Results, acknowledgements and refusals (R178, R184, R255, R256) -/

/-- A result reaches its slot: it is noted as a delta, and written unless an atomic of the open region has taken the slot. -/
def writeResult (c : Core) (k : Nat) (v : BitVec 128) (psn : Bool) : Core :=
  { c with a := if k < c.a.nextRes then c.a else { c.a with res := vset c.a.res k { val := v, psn := psn, pend := false } },
           ext := c.ext ++ [.result k v psn] }

/-- Whether an operation on its way is a host atomic. -/
def Outstanding.isHost : Outstanding → Bool
  | .hostAtomic _ _ => true
  | _ => false

/-- Whether an operation on its way is an atomic at home or at a peer. -/
def Outstanding.isAtomic : Outstanding → Bool
  | .homeAtomic _ _ _ | .peerAtomic _ _ _ _ _ => true
  | _ => false

/-- Whether an operation on its way is a write to a peer or an arrival there. -/
def Outstanding.isPeerWrite : Outstanding → Bool
  | .peerWrite _ _ _ _ _ _ | .peerArrive _ _ => true
  | _ => false

/-- Whether an operation on its way is one that a peer may still refuse: a write that it has not performed, or an arrival. -/
def Outstanding.refusable : Outstanding → Bool
  | .peerWrite _ _ _ _ _ done => !done
  | .peerArrive _ _ => true
  | _ => false

/-- The oldest operation on its way of a kind taken from the list, while the core is not frozen. -/
def takeOut (c : Core) (f : Outstanding → Bool) : Option (Outstanding × Core) :=
  match (if c.freeze.isSome then none else c.outst.find? f) with
  | none => none
  | some o => some (o, { c with outst := c.outst.erase o })

/-- Whether a core has an operation of a kind on its way. -/
def hasOut (f : Outstanding → Bool) (s : State) (ci : Nat) : Bool := (takeOut (getCore s ci) f).isSome

/-- The completion of the oldest host atomic: its result, or poison and an error record; the cause of the record is open (log 4). -/
def hostResult (s : State) (ci : Nat) (err : Bool) : State :=
  match takeOut (getCore s ci) Outstanding.isHost with
  | some (.hostAtomic k v, c) =>
    if err then logErr (putCore s ci (writeResult c k 0 true)) (partOf c) ci ((openWord s 5).toNat % 64) 0 none none 0
    else putCore s ci (writeResult c k v false)
  | _ => s

/-- HOST_ATOMICOP_COMPLETION (R184). -/
def execHostAtomicopCompletion (core : Nat) (err : Bool) (s : State) : Host.Outcome State Fault Refusal :=
  if 72 ≤ core then .fault .noSuchAgent else .next (withPast s core (hasOut Outstanding.isHost · core) (hostResult · core err))

/-- The completion of the oldest atomic performed at its home or at a peer. -/
def homeResult (s : State) (ci : Nat) : State :=
  match takeOut (getCore s ci) Outstanding.isAtomic with
  | some (.homeAtomic k v p, c) => putCore s ci (writeResult c k v p)
  | some (.peerAtomic _ _ k v p, c) => putCore s ci (writeResult c k v p)
  | _ => s

/-- PEER_ATOMIC_COMPLETION (R255). -/
def execPeerAtomicCompletion (core : Nat) (s : State) : Host.Outcome State Fault Refusal :=
  if 72 ≤ core then .fault .noSuchAgent else .next (withPast s core (hasOut Outstanding.isAtomic · core) (homeResult · core))

/-- The acknowledgement of the oldest write to a peer, which the peer has performed by then. -/
def ackWrite (s : State) (ci : Nat) : State :=
  match takeOut (getCore s ci) Outstanding.isPeerWrite with
  | some (o, c) => putCore (performPeer s o) ci c
  | none => s

/-- PEER_WRITE_ACK (R178). -/
def execPeerWriteAck (core : Nat) (s : State) : Host.Outcome State Fault Refusal :=
  if 72 ≤ core then .fault .noSuchAgent else .next (withPast s core (hasOut Outstanding.isPeerWrite · core) (ackWrite · core))

/-- An operation on its way to a peer is refused: a write is not performed there, an atomic's result is poison, and the unit's completion takes
an error status with a record (R256, R371). -/
def refuseOne (s : State) (ci : Nat) (o : Outstanding) : State :=
  match o with
  | .peerWrite m _ k _ _ _ => refusedBy s ci m (BitVec.ofNat 64 (k % 2 ^ 52))
  | .peerArrive m _ => refusedBy s ci m (openWord s 10)
  | .peerAtomic m _ k _ _ => refusedBy (modCore s ci fun c => writeResult c k 0 true) ci m (openWord s 10)
  | _ => s

/-- The oldest write or arrival on its way to a peer that the peer has not performed is refused. -/
def refuseWrite (s : State) (ci : Nat) : State :=
  match takeOut (getCore s ci) Outstanding.refusable with
  | some (o, c) => refuseOne (putCore s ci c) ci o
  | none => s

/-- PEER_REFUSED (R256). -/
def execPeerRefused (core : Nat) (s : State) : Host.Outcome State Fault Refusal :=
  if 72 ≤ core then .fault .noSuchAgent else .next (withPast s core (hasOut Outstanding.refusable · core) (refuseWrite · core))

/-! ## Arrivals from other cores (R127, R128, R248, R270, R335) -/

/-- An arrival discarded and counted (R248). -/
def discardArrival (s : State) (part : Nat) : State := discardMany s part 1

/-- Whether a switched-out unit of a core awaits an arrival with an identity. -/
def holdsArrival (ci id : Nat) (x : Switched) : Bool :=
  x.core == ci && match x.image.unit with | some u => identOf u == id | none => false

/-- An arrival for a unit switched out of a core, held in arrival order, up to 4,096 (R335). -/
def holdArrival (ci id : Nat) (x : ExtEv) (l : List Switched) : List Switched × Bool :=
  match l with
  | [] => ([], false)
  | y :: r =>
    if holdsArrival ci id y then
      if y.held.length < 4096 then ({ y with held := y.held ++ [x] } :: r, true) else (y :: r, false)
    else let z := holdArrival ci id x r; (y :: z.1, z.2)

/-- Whether a unit that has left a retired core for its launch record still waits to start again (R272). -/
def unitWaits (s : State) (u : UnitRef) : Bool :=
  (getPart s u.part).launches.any fun l => l.id == u.launch &&
    l.todo.any fun n => (if l.standing then n % pUnits l.pkt else n) == u.index

/-- Whether an arrival with an identity waits at a retired core for the unit that has left it for its launch record (R270, R272). -/
def arrivalWaits (s : State) (c : Core) (id : Nat) : Bool :=
  c.run == .retired && c.adopter.isNone && match c.moved with
  | some u => unitWaits s u && decide (id % 8 = u.part)
  | none => false

/-- A remote arrival reaches a core: its unit's launch or gang must be the sender's; a retired core passes it on to the adopter. -/
def remoteArrival (s : State) (ci : Nat) : State :=
  let c := getCore s ci
  match (if c.freeze.isSome then [] else c.arrivals) with
  | [] => s
  | (h, n, id) :: r =>
    let s1 := putCore s ci (sentOn { c with arrivals := r } 1)
    let part := id % 8
    let mine := match c.unit with | some u => identOf u == id | none => false
    match (if c.run == .retired then c.adopter else none) with
    | some j => modCore s1 j fun c => { c with arrivals := c.arrivals ++ [(h, n, id)] }
    | none =>
      if arrivalWaits s c id then s
      else if mine then (if c.run == .retired then s else modCore s1 ci fun c => arriveExt c h n)
      else
        let z := holdArrival ci id (.hurdle h n) (getPart s1 part).switched
        if z.2 then modPart s1 part fun p => { p with switched := z.1 } else discardArrival s1 part

/-- REMOTE_HURDLE_ARRIVAL (R248). -/
def execRemoteHurdleArrival (core : Nat) (s : State) : Host.Outcome State Fault Refusal :=
  if 72 ≤ core then .fault .noSuchAgent else .next (remoteArrival s core)

/-- Whether a core holds a unit of the launch of a unit that asks it. -/
def sameLaunch (c : Core) (u : UnitRef) : Bool := c.unit.any fun x => x.part == u.part && x.launch == u.launch

/-- Whether a core that holds a unit in a state takes steal requests: its unit has not ended. -/
def takesSteals (r : RunSt) : Bool :=
  match r with
  | .ending _ _ | .retired => false
  | _ => true

/-- A steal request reaches its target: it is refused at once, or taken (R127). -/
def stealArrives (s : State) (ci : Nat) : State :=
  let c := getCore s ci
  match (if c.freeze.isSome then [] else c.inbox) with
  | [] => s
  | (j, _) :: r =>
    let s1 := putCore s ci (sentOn { c with inbox := r } 6)
    if sameLaunch c j && c.a.req.isNone && takesSteals c.run then
      modCore s1 ci fun c => { c with a := { c.a with req := some j }, ext := c.ext ++ [.request j] }
    else sendAnswer s1 j none

/-- STEAL_REQUEST_ARRIVAL (R127). -/
def execStealRequestArrival (core : Nat) (s : State) : Host.Outcome State Fault Refusal :=
  if 72 ≤ core then .fault .noSuchAgent else .next (stealArrives s core)

/-- Whether a switched-out unit is the one that a reference names and still awaits the answer to its steal request. -/
def awaitsAnswer (u : UnitRef) (x : Switched) : Bool :=
  holdsUnit x.image u && x.image.a.pend && !(x.held.any fun e => match e with | .grantGot _ _ => true | .stealRefused => true | _ => false)

/-- An answer held for the unit of a list that awaits it, and the number discarded (R335). -/
def holdAnswer (u : UnitRef) (ev : ExtEv) : List Switched → List Switched × Nat
  | [] => ([], 0)
  | x :: r =>
    if awaitsAnswer u x then let y := holdEvents x [ev]; (y.1 :: r, y.2)
    else let z := holdAnswer u ev r; (x :: z.1, z.2)

/-- An answer as the arrival that it makes. -/
def answerEvent (x : Option (Word × Word)) : ExtEv := match x with | some (lo, hi) => .grantGot lo hi | none => .stealRefused

/-- An answer that has reached a core whose unit has asked: it is installed, or dropped where no request awaits it any more (log 56). -/
def installAnswer (c : Core) (ev : ExtEv) : Core :=
  if c.a.pend then (let c1 := applyExt c ev; { c1 with ext := c1.ext ++ [ev] }) else c

/-- The next answer that has come to a core, if it is a grant or a refusal as asked: it is installed if the unit that has asked is the core's, held
for one that is switched out, and else sent on to the core where that unit is now (R127, R335). At a retired core it waits until the unit has
been adopted. -/
def stealAnswer (s : State) (ci : Nat) (grant : Bool) : State :=
  let c := getCore s ci
  match (if c.freeze.isSome then [] else c.answers) with
  | [] => s
  | (u, x) :: r =>
    let s1 := putCore s ci (sentOn { c with answers := r } 7)
    if x.isSome != grant then s
    else if holdsUnit c u then (if c.run == .retired then s else modCore s1 ci fun c => installAnswer c (answerEvent x))
    else if (getPart s u.part).switched.any (awaitsAnswer u) then
      let z := holdAnswer u (answerEvent x) (getPart s u.part).switched
      discardMany (modPart s1 u.part fun p => { p with switched := z.1 }) u.part z.2
    else if (unitAt s u).any fun j => holdsUnit (getCore s j) u then sendAnswer s1 u x
    else s1

/-- STEAL_GRANT (R127). -/
def execStealGrant (core : Nat) (s : State) : Host.Outcome State Fault Refusal :=
  if 72 ≤ core then .fault .noSuchAgent else .next (stealAnswer s core true)

/-- STEAL_REFUSAL (R127). -/
def execStealRefusal (core : Nat) (s : State) : Host.Outcome State Fault Refusal :=
  if 72 ≤ core then .fault .noSuchAgent else .next (stealAnswer s core false)

/-! ## Detected errors (R261 to R264) -/

/-- An error that a source has found in the open region: the region is run again, or the core retired. While the core is frozen the error
waits, with the source of the first report (R264). -/
def detectError (s : State) (ci src : Nat) : State :=
  let c := getCore s ci
  let go := match c.run with | .running | .svc _ => c.unit.isSome | _ => false
  if !go ∨ 5 < src then s
  else match c.freeze with
    | none => replayError s ci src
    | some f => putCore s ci { c with freeze := some { f with err := some (f.err.getD src) } }

/-- DETECTED_ERROR_REPLAY (R263). -/
def execDetectedErrorReplay (core src : Nat) (s : State) : Host.Outcome State Fault Refusal :=
  if 72 ≤ core then .fault .noSuchAgent else .next (detectError s core src)

/-- Whether a piece of work outside any region is under way on a core: its oldest post (0), the oldest arrival on its way to it (1), the entry of
a chain slot (2 to 5), the oldest steal request (6) and the oldest answer (7) on their way to it, or the piece of a committed copy (8 and its
serial). -/
def outsideWork (c : Core) (piece : Nat) : Bool :=
  copiesRun c &&
  if piece = 0 then !c.departing.isEmpty
  else if piece = 1 then !c.arrivals.isEmpty
  else if piece = 6 then !c.inbox.isEmpty
  else if piece = 7 then !c.answers.isEmpty
  else if piece < 6 then chainLive (chainOf c (piece - 2))
  else c.copies.any fun x => !x.open_ && copyKey x == piece

/-- A fourth failure of a piece is an error on the last allowed replay: the core's open region is discarded and it retires, the source open (R262,
R263, R270). -/
def outsideFail (s : State) (ci piece : Nat) : State :=
  let c := getCore s ci
  let src := (openWord s 6).toNat % 4
  let s1 := withdraw (putCore s ci (discardRegion (sentOn c piece))) (partOf c) ci
  retireCore (logErr s1 (partOf c) ci 0x21 src none none 0) ci src

/-- An error in a piece of work outside any region: it is sent again, up to 3 times. -/
def outsideError (s : State) (ci piece : Nat) : State :=
  let c := getCore s ci
  let n := Sparse.get 0 c.resends piece
  if !outsideWork c piece then s
  else if n < 3 then putCore s ci { c with resends := Sparse.put 0 c.resends piece (n + 1) }
  else outsideFail s ci piece

/-- Whether a core's work on a piece may be sent again. -/
def maySendAgain (s : State) (ci piece : Nat) : Bool :=
  outsideWork (getCore s ci) piece && decide (Sparse.get 0 (getCore s ci).resends piece < 3)

/-- OUT_OF_REGION_ERROR (R262). -/
def execOutOfRegionError (w : OutWork) (s : State) : Host.Outcome State Fault Refusal :=
  if 72 ≤ w.core then .fault .noSuchAgent
  else .next (withPast s w.core (maySendAgain · w.core w.piece) fun s =>
    if (pastUnit s w.core fun t => outsideWork (getCore t w.core) w.piece).isSome then outsideFail s w.core w.piece
    else outsideError s w.core w.piece)

end Sys2Proof.Machine
end

