-- ==== Sys2Proof/Machine/Scalar.lean ====
section
/-! DEFINITION. The scalar instructions: integer arithmetic (R106 to R108), compares and flags (R109, R110), scalar floating point (R129 to
R131), the CSRs (R132), and the poison forms (R269). -/

namespace Sys2Proof.Machine

/-! ## Integer arithmetic (R106) -/

/-- The shift amount of a register operand: bits 5:0. -/
def shiftAmount (y : Word) : Nat := y.toNat % 64

/-- ADD (R106). -/
def execAdd (d a b : BitVec 6) (g : BitVec 3) (s : State) : Host.Outcome State Fault Refusal :=
  issueA (encDABG 0x02000000 d a b g) [d] g s fun e s => binaryX e s d a b fun x y => x + y

/-- SUB (R106). -/
def execSub (d a b : BitVec 6) (g : BitVec 3) (s : State) : Host.Outcome State Fault Refusal :=
  issueA (encDABG 0x02000001 d a b g) [d] g s fun e s => binaryX e s d a b fun x y => x - y

/-- AND (R106). -/
def execAnd (d a b : BitVec 6) (g : BitVec 3) (s : State) : Host.Outcome State Fault Refusal :=
  issueA (encDABG 0x02000002 d a b g) [d] g s fun e s => binaryX e s d a b fun x y => x &&& y

/-- OR (R106). -/
def execOr (d a b : BitVec 6) (g : BitVec 3) (s : State) : Host.Outcome State Fault Refusal :=
  issueA (encDABG 0x02000003 d a b g) [d] g s fun e s => binaryX e s d a b fun x y => x ||| y

/-- XOR (R106). -/
def execXor (d a b : BitVec 6) (g : BitVec 3) (s : State) : Host.Outcome State Fault Refusal :=
  issueA (encDABG 0x02000004 d a b g) [d] g s fun e s => binaryX e s d a b fun x y => x ^^^ y

/-- SLL (R106). -/
def execSll (d a b : BitVec 6) (g : BitVec 3) (s : State) : Host.Outcome State Fault Refusal :=
  issueA (encDABG 0x02000005 d a b g) [d] g s fun e s => binaryX e s d a b fun x y => x <<< shiftAmount y

/-- SRL (R106). -/
def execSrl (d a b : BitVec 6) (g : BitVec 3) (s : State) : Host.Outcome State Fault Refusal :=
  issueA (encDABG 0x02000006 d a b g) [d] g s fun e s => binaryX e s d a b fun x y => x >>> shiftAmount y

/-- SRA (R106). -/
def execSra (d a b : BitVec 6) (g : BitVec 3) (s : State) : Host.Outcome State Fault Refusal :=
  issueA (encDABG 0x02000007 d a b g) [d] g s fun e s => binaryX e s d a b fun x y => x.sshiftRight (shiftAmount y)

/-- MUL (R106). -/
def execMul (d a b : BitVec 6) (g : BitVec 3) (s : State) : Host.Outcome State Fault Refusal :=
  issueA (encDABG 0x02000008 d a b g) [d] g s fun e s => binaryX e s d a b fun x y => x * y

/-- MULHI_S (R106). -/
def execMulhiS (d a b : BitVec 6) (g : BitVec 3) (s : State) : Host.Outcome State Fault Refusal :=
  issueA (encDABG 0x02000009 d a b g) [d] g s fun e s => binaryX e s d a b fun x y => BitVec.ofInt 64 (x.toInt * y.toInt / 2 ^ 64)

/-- MULHI_U (R106). -/
def execMulhiU (d a b : BitVec 6) (g : BitVec 3) (s : State) : Host.Outcome State Fault Refusal :=
  issueA (encDABG 0x0200000A d a b g) [d] g s fun e s => binaryX e s d a b fun x y => BitVec.ofNat 64 (x.toNat * y.toNat / 2 ^ 64)

/-- QUOT_S (R106). -/
def execQuotS (d a b : BitVec 6) (g : BitVec 3) (s : State) : Host.Outcome State Fault Refusal :=
  issueA (encDABG 0x0200000B d a b g) [d] g s fun e s => divideX e s d a b fun x y => ((divS x y).1, (divS x y).2.2)

/-- QUOT_U (R106). -/
def execQuotU (d a b : BitVec 6) (g : BitVec 3) (s : State) : Host.Outcome State Fault Refusal :=
  issueA (encDABG 0x0200000C d a b g) [d] g s fun e s => divideX e s d a b fun x y => ((divU x y).1, (divU x y).2.2)

/-- RMDR_S (R106). -/
def execRmdrS (d a b : BitVec 6) (g : BitVec 3) (s : State) : Host.Outcome State Fault Refusal :=
  issueA (encDABG 0x0200000D d a b g) [d] g s fun e s => divideX e s d a b fun x y => ((divS x y).2.1, (divS x y).2.2)

/-- RMDR_U (R106). -/
def execRmdrU (d a b : BitVec 6) (g : BitVec 3) (s : State) : Host.Outcome State Fault Refusal :=
  issueA (encDABG 0x0200000E d a b g) [d] g s fun e s => divideX e s d a b fun x y => ((divU x y).2.1, (divU x y).2.2)

/-! ## Immediates (R107, R108) -/

/-- ADDI (R107). -/
def execAddi (d a : BitVec 6) (i : BitVec 13) (s : State) : Host.Outcome State Fault Refusal :=
  issueI (encDAI 0x04000000 d a i) [d] s fun e s => unaryX e s d a fun x => x + imm13 i

/-- ANDI (R107). -/
def execAndi (d a : BitVec 6) (i : BitVec 13) (s : State) : Host.Outcome State Fault Refusal :=
  issueI (encDAI 0x06000000 d a i) [d] s fun e s => unaryX e s d a fun x => x &&& imm13 i

/-- ORI (R107). -/
def execOri (d a : BitVec 6) (i : BitVec 13) (s : State) : Host.Outcome State Fault Refusal :=
  issueI (encDAI 0x08000000 d a i) [d] s fun e s => unaryX e s d a fun x => x ||| imm13 i

/-- XORI (R107). -/
def execXori (d a : BitVec 6) (i : BitVec 13) (s : State) : Host.Outcome State Fault Refusal :=
  issueI (encDAI 0x0A000000 d a i) [d] s fun e s => unaryX e s d a fun x => x ^^^ imm13 i

/-- SLLI (R107). -/
def execSlli (d a sf : BitVec 6) (s : State) : Host.Outcome State Fault Refusal :=
  issueI (encDAS 0x0C000000 d a sf) [d] s fun e s => unaryX e s d a fun x => x <<< sf.toNat

/-- SRLI (R107). -/
def execSrli (d a sf : BitVec 6) (s : State) : Host.Outcome State Fault Refusal :=
  issueI (encDAS 0x0C000800 d a sf) [d] s fun e s => unaryX e s d a fun x => x >>> sf.toNat

/-- SRAI (R107). -/
def execSrai (d a sf : BitVec 6) (s : State) : Host.Outcome State Fault Refusal :=
  issueI (encDAS 0x0C001000 d a sf) [d] s fun e s => unaryX e s d a fun x => x.sshiftRight sf.toNat

/-- HIMM (R108). -/
def execHimm (d : BitVec 6) (i : BitVec 19) (s : State) : Host.Outcome State Fault Refusal :=
  issueI (encDI 0x0E000000 d i) [d] s fun e s => .done (setX e s d (upperImm i) false)

/-- ADPC (R108). -/
def execAdpc (d : BitVec 6) (i : BitVec 19) (s : State) : Host.Outcome State Fault Refusal :=
  issueI (encDI 0x10000000 d i) [d] s fun e s => .done (setX e s d (e.addr + upperImm i) false)

/-! ## Compares and flags (R109, R110) -/

/-- CMP_EQ (R109). -/
def execCmpEq (d a b : BitVec 6) (g : BitVec 3) (s : State) : Host.Outcome State Fault Refusal :=
  issueA (encDABG 0x12000000 d a b g) [] g s fun e s => compareX e s 0 d a b

/-- CMP_NE (R109). -/
def execCmpNe (d a b : BitVec 6) (g : BitVec 3) (s : State) : Host.Outcome State Fault Refusal :=
  issueA (encDABG 0x12000001 d a b g) [] g s fun e s => compareX e s 1 d a b

/-- CMP_LT (R109). -/
def execCmpLt (d a b : BitVec 6) (g : BitVec 3) (s : State) : Host.Outcome State Fault Refusal :=
  issueA (encDABG 0x12000002 d a b g) [] g s fun e s => compareX e s 2 d a b

/-- CMP_GE (R109). -/
def execCmpGe (d a b : BitVec 6) (g : BitVec 3) (s : State) : Host.Outcome State Fault Refusal :=
  issueA (encDABG 0x12000003 d a b g) [] g s fun e s => compareX e s 3 d a b

/-- CMP_LTU (R109). -/
def execCmpLtu (d a b : BitVec 6) (g : BitVec 3) (s : State) : Host.Outcome State Fault Refusal :=
  issueA (encDABG 0x12000004 d a b g) [] g s fun e s => compareX e s 4 d a b

/-- CMP_GEU (R109). -/
def execCmpGeu (d a b : BitVec 6) (g : BitVec 3) (s : State) : Host.Outcome State Fault Refusal :=
  issueA (encDABG 0x12000005 d a b g) [] g s fun e s => compareX e s 5 d a b

/-- FL_AND (R109). -/
def execFlAnd (d a b : BitVec 6) (g : BitVec 3) (s : State) : Host.Outcome State Fault Refusal :=
  issueA (encDABG 0x12000008 d a b g) [] g s fun e s => flagLogic e s d a b fun x y => x && y

/-- FL_OR (R109). -/
def execFlOr (d a b : BitVec 6) (g : BitVec 3) (s : State) : Host.Outcome State Fault Refusal :=
  issueA (encDABG 0x12000009 d a b g) [] g s fun e s => flagLogic e s d a b fun x y => x || y

/-- FL_XOR (R109). -/
def execFlXor (d a b : BitVec 6) (g : BitVec 3) (s : State) : Host.Outcome State Fault Refusal :=
  issueA (encDABG 0x1200000A d a b g) [] g s fun e s => flagLogic e s d a b fun x y => x != y

/-- FL_ANDN (R109). -/
def execFlAndn (d a b : BitVec 6) (g : BitVec 3) (s : State) : Host.Outcome State Fault Refusal :=
  issueA (encDABG 0x1200000B d a b g) [] g s fun e s => flagLogic e s d a b fun x y => x && !y

/-- The flags f7 to f0 of a cluster as a byte; f0 reads as 1 (R61). -/
def flagByte (a : Arch) (cl : Cluster) : BitVec 8 := vget a.flags 0 (cnum cl) ||| 1

/-- FL_RD (R109). -/
def execFlRd (d : BitVec 6) (g : BitVec 3) (s : State) : Host.Outcome State Fault Refusal :=
  issueA (encDG 0x1200000C d g) [d] g s fun e s => .done (setX e s d ((flagByte e.rd.a e.cl).setWidth 64) false)

/-- FL_WR (R109). -/
def execFlWr (a : BitVec 6) (g : BitVec 3) (s : State) : Host.Outcome State Fault Refusal :=
  issueA (encAG 0x1200000D a g) [] g s fun e s =>
    consume e [(a, 3)]
      (.done (modArch s e.ci fun ar => { ar with flags := vset ar.flags (cnum e.cl) ((e.x a).val.setWidth 8 &&& 0xFE) }))

/-- CMPI_EQ (R110). -/
def execCmpiEq (f : BitVec 3) (a : BitVec 6) (i : BitVec 13) (s : State) : Host.Outcome State Fault Refusal :=
  issueI (encFAI 0x14000000 f a i) [] s fun e s => compareI e s 0 f a i

/-- CMPI_NE (R110). -/
def execCmpiNe (f : BitVec 3) (a : BitVec 6) (i : BitVec 13) (s : State) : Host.Outcome State Fault Refusal :=
  issueI (encFAI 0x14400000 f a i) [] s fun e s => compareI e s 1 f a i

/-- CMPI_LT (R110). -/
def execCmpiLt (f : BitVec 3) (a : BitVec 6) (i : BitVec 13) (s : State) : Host.Outcome State Fault Refusal :=
  issueI (encFAI 0x14800000 f a i) [] s fun e s => compareI e s 2 f a i

/-- CMPI_GE (R110). -/
def execCmpiGe (f : BitVec 3) (a : BitVec 6) (i : BitVec 13) (s : State) : Host.Outcome State Fault Refusal :=
  issueI (encFAI 0x14C00000 f a i) [] s fun e s => compareI e s 3 f a i

/-- CMPI_LTU (R110). -/
def execCmpiLtu (f : BitVec 3) (a : BitVec 6) (i : BitVec 13) (s : State) : Host.Outcome State Fault Refusal :=
  issueI (encFAI 0x15000000 f a i) [] s fun e s => compareI e s 4 f a i

/-- CMPI_GEU (R110). -/
def execCmpiGeu (f : BitVec 3) (a : BitVec 6) (i : BitVec 13) (s : State) : Host.Outcome State Fault Refusal :=
  issueI (encFAI 0x15400000 f a i) [] s fun e s => compareI e s 5 f a i

/-! ## Scalar floating point, FP64 (R129, R130) -/

/-- FADD_F64 (R129). -/
def execFaddF64 (d a b : BitVec 6) (g : BitVec 3) (s : State) : Host.Outcome State Fault Refusal :=
  issueA (encDABG 0x2A000000 d a b g) [d] g s fun e s => binaryF e s fF64 d a b (fAdd fF64 (frmMode e.rd.a))

/-- FSUB_F64 (R129). -/
def execFsubF64 (d a b : BitVec 6) (g : BitVec 3) (s : State) : Host.Outcome State Fault Refusal :=
  issueA (encDABG 0x2A000001 d a b g) [d] g s fun e s => binaryF e s fF64 d a b (fSub fF64 (frmMode e.rd.a))

/-- FMUL_F64 (R129). -/
def execFmulF64 (d a b : BitVec 6) (g : BitVec 3) (s : State) : Host.Outcome State Fault Refusal :=
  issueA (encDABG 0x2A000002 d a b g) [d] g s fun e s => binaryF e s fF64 d a b (fMul fF64 (frmMode e.rd.a))

/-- FDIV_F64 (R129). -/
def execFdivF64 (d a b : BitVec 6) (g : BitVec 3) (s : State) : Host.Outcome State Fault Refusal :=
  issueA (encDABG 0x2A000003 d a b g) [d] g s fun e s => binaryF e s fF64 d a b (fDiv fF64 (frmMode e.rd.a))

/-- FSQRT_F64 (R129). -/
def execFsqrtF64 (d a : BitVec 6) (g : BitVec 3) (s : State) : Host.Outcome State Fault Refusal :=
  issueA (encDAG 0x2A000004 d a g) [d] g s fun e s => unaryF e s fF64 d a (fSqrt fF64 (frmMode e.rd.a))

/-- FMIN_F64 (R129). -/
def execFminF64 (d a b : BitVec 6) (g : BitVec 3) (s : State) : Host.Outcome State Fault Refusal :=
  issueA (encDABG 0x2A000005 d a b g) [d] g s fun e s => binaryF e s fF64 d a b (fMinMax fF64 false)

/-- FMAX_F64 (R129). -/
def execFmaxF64 (d a b : BitVec 6) (g : BitVec 3) (s : State) : Host.Outcome State Fault Refusal :=
  issueA (encDABG 0x2A000006 d a b g) [d] g s fun e s => binaryF e s fF64 d a b (fMinMax fF64 true)

/-- A fused multiply-add of two operands and the destination (R129). -/
def fusedX (e : Env) (s : State) (f : Fmt) (d a b : BitVec 6) : Res :=
  setF e s f d (floatPsn f (e.x a) || floatPsn f (e.x b) || floatPsn f (e.x d))
    (fFma f (frmMode e.rd.a) (floatBits f (e.x a)) (floatBits f (e.x b)) (floatBits f (e.x d)))

/-- FMAC_F64 (R129). -/
def execFmacF64 (d a b : BitVec 6) (g : BitVec 3) (s : State) : Host.Outcome State Fault Refusal :=
  issueA (encDABG 0x2A000007 d a b g) [d] g s fun e s => fusedX e s fF64 d a b

/-- FCMP_EQ_F64 (R129). -/
def execFcmpEqF64 (d a b : BitVec 6) (g : BitVec 3) (s : State) : Host.Outcome State Fault Refusal :=
  issueA (encDABG 0x2A000008 d a b g) [] g s fun e s => compareF e s fF64 0 d a b

/-- FCMP_LT_F64 (R129). -/
def execFcmpLtF64 (d a b : BitVec 6) (g : BitVec 3) (s : State) : Host.Outcome State Fault Refusal :=
  issueA (encDABG 0x2A000009 d a b g) [] g s fun e s => compareF e s fF64 1 d a b

/-- FCMP_LE_F64 (R129). -/
def execFcmpLeF64 (d a b : BitVec 6) (g : BitVec 3) (s : State) : Host.Outcome State Fault Refusal :=
  issueA (encDABG 0x2A00000A d a b g) [] g s fun e s => compareF e s fF64 2 d a b

/-- SCVT_F64_F32 (R130). -/
def execScvtF64F32 (d a : BitVec 6) (m g : BitVec 3) (s : State) : Host.Outcome State Fault Refusal :=
  issueA (encDAMG 0x2A00000B d a m g) [d] g s fun e s =>
    setF e s fF64 d (floatPsn fF32 (e.x a)) (fCvt fF32 fF64 (modeOf e.rd.a m) (floatBits fF32 (e.x a)))

/-- SCVT_F64_I64 (R130). -/
def execScvtF64I64 (d a : BitVec 6) (m g : BitVec 3) (s : State) : Host.Outcome State Fault Refusal :=
  issueA (encDAMG 0x2A00040B d a m g) [d] g s fun e s => convertOfInt e s fF64 true d a m

/-- SCVT_F64_UI64 (R130). -/
def execScvtF64Ui64 (d a : BitVec 6) (m g : BitVec 3) (s : State) : Host.Outcome State Fault Refusal :=
  issueA (encDAMG 0x2A00080B d a m g) [d] g s fun e s => convertOfInt e s fF64 false d a m

/-- SCVT_I64_F64 (R130). -/
def execScvtI64F64 (d a : BitVec 6) (m g : BitVec 3) (s : State) : Host.Outcome State Fault Refusal :=
  issueA (encDAMG 0x2A000C0B d a m g) [d] g s fun e s => convertToInt e s fF64 true 64 d a m

/-- SCVT_UI64_F64 (R130). -/
def execScvtUi64F64 (d a : BitVec 6) (m g : BitVec 3) (s : State) : Host.Outcome State Fault Refusal :=
  issueA (encDAMG 0x2A00100B d a m g) [d] g s fun e s => convertToInt e s fF64 false 64 d a m

/-- SCVT_I32_F64 (R130). -/
def execScvtI32F64 (d a : BitVec 6) (m g : BitVec 3) (s : State) : Host.Outcome State Fault Refusal :=
  issueA (encDAMG 0x2A00140B d a m g) [d] g s fun e s => convertToInt e s fF64 true 32 d a m

/-- FKIND_F64 (R131). -/
def execFkindF64 (d a : BitVec 6) (g : BitVec 3) (s : State) : Host.Outcome State Fault Refusal :=
  issueA (encDAG 0x2A00000C d a g) [d] g s fun e s => kindF e s fF64 d a

/-- A number with bit `n` set to `b`. -/
def withBit (v n : Nat) (b : Bool) : Nat := v - v / 2 ^ n % 2 * 2 ^ n + b2n b * 2 ^ n

/-- The sign bit of an encoding. -/
def signBit (f : Fmt) (v : Nat) : Bool := v / 2 ^ (f.width - 1) % 2 == 1

/-- FABS_F64 (R129). -/
def execFabsF64 (d a : BitVec 6) (g : BitVec 3) (s : State) : Host.Outcome State Fault Refusal :=
  issueA (encDAG 0x2A00000D d a g) [d] g s fun e s => unaryF e s fF64 d a fun v => (withBit v 63 false, {})

/-- FNEG_F64 (R129). -/
def execFnegF64 (d a : BitVec 6) (g : BitVec 3) (s : State) : Host.Outcome State Fault Refusal :=
  issueA (encDAG 0x2A00000E d a g) [d] g s fun e s => unaryF e s fF64 d a fun v => (withBit v 63 (!signBit fF64 v), {})

/-- FMSGN_F64 (R129). -/
def execFmsgnF64 (d a b : BitVec 6) (g : BitVec 3) (s : State) : Host.Outcome State Fault Refusal :=
  issueA (encDABG 0x2A00000F d a b g) [d] g s fun e s =>
    binaryF e s fF64 d a b fun v w => (withBit v 63 (signBit fF64 v != signBit fF64 w), {})

/-! ## Scalar floating point, FP32 (R129, R130) -/

/-- FADD_F32 (R129). -/
def execFaddF32 (d a b : BitVec 6) (g : BitVec 3) (s : State) : Host.Outcome State Fault Refusal :=
  issueA (encDABG 0x2C000000 d a b g) [d] g s fun e s => binaryF e s fF32 d a b (fAdd fF32 (frmMode e.rd.a))

/-- FSUB_F32 (R129). -/
def execFsubF32 (d a b : BitVec 6) (g : BitVec 3) (s : State) : Host.Outcome State Fault Refusal :=
  issueA (encDABG 0x2C000001 d a b g) [d] g s fun e s => binaryF e s fF32 d a b (fSub fF32 (frmMode e.rd.a))

/-- FMUL_F32 (R129). -/
def execFmulF32 (d a b : BitVec 6) (g : BitVec 3) (s : State) : Host.Outcome State Fault Refusal :=
  issueA (encDABG 0x2C000002 d a b g) [d] g s fun e s => binaryF e s fF32 d a b (fMul fF32 (frmMode e.rd.a))

/-- FDIV_F32 (R129). -/
def execFdivF32 (d a b : BitVec 6) (g : BitVec 3) (s : State) : Host.Outcome State Fault Refusal :=
  issueA (encDABG 0x2C000003 d a b g) [d] g s fun e s => binaryF e s fF32 d a b (fDiv fF32 (frmMode e.rd.a))

/-- FSQRT_F32 (R129). -/
def execFsqrtF32 (d a : BitVec 6) (g : BitVec 3) (s : State) : Host.Outcome State Fault Refusal :=
  issueA (encDAG 0x2C000004 d a g) [d] g s fun e s => unaryF e s fF32 d a (fSqrt fF32 (frmMode e.rd.a))

/-- FMIN_F32 (R129). -/
def execFminF32 (d a b : BitVec 6) (g : BitVec 3) (s : State) : Host.Outcome State Fault Refusal :=
  issueA (encDABG 0x2C000005 d a b g) [d] g s fun e s => binaryF e s fF32 d a b (fMinMax fF32 false)

/-- FMAX_F32 (R129). -/
def execFmaxF32 (d a b : BitVec 6) (g : BitVec 3) (s : State) : Host.Outcome State Fault Refusal :=
  issueA (encDABG 0x2C000006 d a b g) [d] g s fun e s => binaryF e s fF32 d a b (fMinMax fF32 true)

/-- FMAC_F32 (R129). -/
def execFmacF32 (d a b : BitVec 6) (g : BitVec 3) (s : State) : Host.Outcome State Fault Refusal :=
  issueA (encDABG 0x2C000007 d a b g) [d] g s fun e s => fusedX e s fF32 d a b

/-- FCMP_EQ_F32 (R129). -/
def execFcmpEqF32 (d a b : BitVec 6) (g : BitVec 3) (s : State) : Host.Outcome State Fault Refusal :=
  issueA (encDABG 0x2C000008 d a b g) [] g s fun e s => compareF e s fF32 0 d a b

/-- FCMP_LT_F32 (R129). -/
def execFcmpLtF32 (d a b : BitVec 6) (g : BitVec 3) (s : State) : Host.Outcome State Fault Refusal :=
  issueA (encDABG 0x2C000009 d a b g) [] g s fun e s => compareF e s fF32 1 d a b

/-- FCMP_LE_F32 (R129). -/
def execFcmpLeF32 (d a b : BitVec 6) (g : BitVec 3) (s : State) : Host.Outcome State Fault Refusal :=
  issueA (encDABG 0x2C00000A d a b g) [] g s fun e s => compareF e s fF32 2 d a b

/-- SCVT_F32_F64 (R130). -/
def execScvtF32F64 (d a : BitVec 6) (m g : BitVec 3) (s : State) : Host.Outcome State Fault Refusal :=
  issueA (encDAMG 0x2C00000B d a m g) [d] g s fun e s =>
    setF e s fF32 d (floatPsn fF64 (e.x a)) (fCvt fF64 fF32 (modeOf e.rd.a m) (floatBits fF64 (e.x a)))

/-- SCVT_F32_I64 (R130). -/
def execScvtF32I64 (d a : BitVec 6) (m g : BitVec 3) (s : State) : Host.Outcome State Fault Refusal :=
  issueA (encDAMG 0x2C00040B d a m g) [d] g s fun e s => convertOfInt e s fF32 true d a m

/-- SCVT_F32_UI64 (R130). -/
def execScvtF32Ui64 (d a : BitVec 6) (m g : BitVec 3) (s : State) : Host.Outcome State Fault Refusal :=
  issueA (encDAMG 0x2C00080B d a m g) [d] g s fun e s => convertOfInt e s fF32 false d a m

/-- SCVT_I64_F32 (R130). -/
def execScvtI64F32 (d a : BitVec 6) (m g : BitVec 3) (s : State) : Host.Outcome State Fault Refusal :=
  issueA (encDAMG 0x2C000C0B d a m g) [d] g s fun e s => convertToInt e s fF32 true 64 d a m

/-- SCVT_UI64_F32 (R130). -/
def execScvtUi64F32 (d a : BitVec 6) (m g : BitVec 3) (s : State) : Host.Outcome State Fault Refusal :=
  issueA (encDAMG 0x2C00100B d a m g) [d] g s fun e s => convertToInt e s fF32 false 64 d a m

/-- SCVT_I32_F32 (R130). -/
def execScvtI32F32 (d a : BitVec 6) (m g : BitVec 3) (s : State) : Host.Outcome State Fault Refusal :=
  issueA (encDAMG 0x2C00140B d a m g) [d] g s fun e s => convertToInt e s fF32 true 32 d a m

/-- FKIND_F32 (R131). -/
def execFkindF32 (d a : BitVec 6) (g : BitVec 3) (s : State) : Host.Outcome State Fault Refusal :=
  issueA (encDAG 0x2C00000C d a g) [d] g s fun e s => kindF e s fF32 d a

/-- FABS_F32 (R129). -/
def execFabsF32 (d a : BitVec 6) (g : BitVec 3) (s : State) : Host.Outcome State Fault Refusal :=
  issueA (encDAG 0x2C00000D d a g) [d] g s fun e s => unaryF e s fF32 d a fun v => (withBit v 31 false, {})

/-- FNEG_F32 (R129). -/
def execFnegF32 (d a : BitVec 6) (g : BitVec 3) (s : State) : Host.Outcome State Fault Refusal :=
  issueA (encDAG 0x2C00000E d a g) [d] g s fun e s => unaryF e s fF32 d a fun v => (withBit v 31 (!signBit fF32 v), {})

/-- FMSGN_F32 (R129). -/
def execFmsgnF32 (d a b : BitVec 6) (g : BitVec 3) (s : State) : Host.Outcome State Fault Refusal :=
  issueA (encDABG 0x2C00000F d a b g) [d] g s fun e s =>
    binaryF e s fF32 d a b fun v w => (withBit v 31 (signBit fF32 v != signBit fF32 w), {})

/-! ## CSRs (R132) -/

/-- The frame that reads of the trap registers return: the held one while a user handler runs and no trap is active (R324). -/
def shownFrame (c : Core) : TrapRegs := if c.a.uh && !c.a.tl then c.heldTr else c.tr

/-- TCAUSE (R316). -/
def tcauseOf (c : Core) : Nat :=
  let r := shownFrame c
  b2n c.a.tl * 2 ^ 63 + b2n c.a.uh * 2 ^ 62 + b2n c.a.held * 2 ^ 61 + r.cl.toNat * 2 ^ 32 + r.detail.toNat * 2 ^ 8 + r.cause.toNat

/-- The boost domain of a core, 0 west and 1 east (R13, R384). -/
def domainOf (ci : Nat) : Nat := if ci % 36 < 18 then 0 else 1

/-- BSTAT for a core (R384). -/
def bstatOf (s : State) (ci : Nat) : Nat :=
  let d := getDie s (dieOf ci)
  let x := if domainOf ci = 0 then d.west else d.east
  b2n d.pwrgHeld * 2 ^ 23 + b2n d.thrtHeld * 2 ^ 22 + d.gateHeld % 16 * 2 ^ 18 + b2n x.claim * 2 ^ 17 + domainOf ci * 2 ^ 16 + x.halves % 256 * 2 ^ 8 + x.step % 4

/-- SEGH (R314). -/
def seghOf (s : State) (c : Core) : Nat :=
  let g := curSeg s c
  b2n g.fw * 2 ^ 17 + b2n g.sys * 2 ^ 16 + c.segL.toNat * 2 ^ 8 + c.a.segCur.toNat

/-- The value of a CSR as the issuing word reads it (R132). -/
def csrValue (s : State) (ci : Nat) (c : Core) (n : Nat) : Word :=
  let r := shownFrame c
  match n with
  | 0x000 => c.a.ustat.setWidth 64
  | 0x001 => c.a.frm.setWidth 64
  | 0x002 => BitVec.ofNat 64 (c.a.vrot.toNat * 2 ^ 24 + c.a.vbase.toNat * 2 ^ 8)
  | 0x003 => BitVec.ofNat 64 (c.a.abase.toNat * 2 ^ 12)
  | 0x010 => c.cyc
  | 0x011 => s.dtime
  | 0x012 => BitVec.ofNat 64 (bstatOf s ci)
  | 0x013 => BitVec.ofNat 64 (seghOf s c)
  | 0x020 => BitVec.ofNat 64 (tcauseOf c)
  | 0x021 => r.tval
  | 0x022 => BitVec.ofNat 64 (r.stream.toNat * 2 ^ 56 + r.elem.toNat)
  | 0x024 => vget r.epc 0 0
  | 0x025 => vget r.epc 0 1
  | 0x026 => vget r.epc 0 2
  | 0x027 => vget r.epc 0 3
  | 0x028 => BitVec.ofNat 64 (c.tvec.hseg.toNat * 2 ^ 58 + b2n c.tvec.v * 2 ^ 57 + c.tvec.off.toNat * 2 ^ 4)
  | 0x030 => c.rgnpc
  | 0x031 => BitVec.ofNat 64 (c.rtryTotal % 2 ^ 16 * 2 ^ 16 + c.rtryCount % 8)
  | 0x032 => BitVec.ofNat 64 (getPart s (partOf c)).rtrymax
  | 0x033 => c.mxrow
  | 0x040 => c.a.shmaxe.setWidth 64
  | 0x041 => c.a.shmean.setWidth 64
  | _ => 0

/-- VVIEW written (R62): reserved fields stay zero. -/
def putVview (a : Arch) (v : Word) : Arch := { a with vrot := BitVec.ofNat 6 (fieldOf v 24 6), vbase := BitVec.ofNat 11 (fieldOf v 8 11) }

/-- AVIEW written (R63): reserved fields stay zero. -/
def putAview (a : Arch) (v : Word) : Arch := { a with abase := BitVec.ofNat 7 (fieldOf v 12 7) }

/-- A write to a CSR through `csr`, field by field (R5, R94, R97): RO registers ignore it. A flag that the same bundle sets stays set
(R98). -/
def csrWrite (a : Arch) (flagged : BitVec 8) (n : Nat) (v : Word) : Arch :=
  match n with
  | 0x000 => { a with ustat := a.ustat &&& ~~~(v.setWidth 8) ||| flagged }
  | 0x001 => if fieldOf v 0 3 < 5 then { a with frm := BitVec.ofNat 3 (fieldOf v 0 3) } else a
  | 0x002 => putVview a v
  | 0x003 => putAview a v
  | 0x040 => { a with shmaxe := v.setWidth 32 }
  | 0x041 => { a with shmean := v.setWidth 32 }
  | _ => a

/-- A read and write of a CSR: the old value goes to xd (R132). -/
def csrUpdate (e : Env) (s : State) (d a : BitVec 6) (c : BitVec 10) (f : Word → Word → Word) : Res :=
  let old := csrValue s e.ci e.rd c.toNat
  consume e [(a, 3)] (.done (setX e (modArch s e.ci fun ar => csrWrite ar (flaggedNow s) c.toNat (f old (e.x a).val)) d old false))

/-- CSRRD (R132). -/
def execCsrrd (d : BitVec 6) (c : BitVec 10) (s : State) : Host.Outcome State Fault Refusal :=
  issueI (encDC 0x2E000000 d c) [d] s fun e s => .done (setX e s d (csrValue s e.ci e.rd c.toNat) false)

/-- CSRWR (R132). -/
def execCsrwr (d a : BitVec 6) (c : BitVec 10) (s : State) : Host.Outcome State Fault Refusal :=
  issueI (encDAC 0x2E000400 d a c) [d] s fun e s => csrUpdate e s d a c fun _ x => x

/-- CSRSET (R132). -/
def execCsrset (d a : BitVec 6) (c : BitVec 10) (s : State) : Host.Outcome State Fault Refusal :=
  issueI (encDAC 0x2E000800 d a c) [d] s fun e s => csrUpdate e s d a c fun old x => old ||| x

/-- CSRCLR (R132). -/
def execCsrclr (d a : BitVec 6) (c : BitVec 10) (s : State) : Host.Outcome State Fault Refusal :=
  issueI (encDAC 0x2E000C00 d a c) [d] s fun e s => csrUpdate e s d a c fun old x => old &&& ~~~x

/-! ## Poison forms (R269) -/

/-- PSET (R269). -/
def execPset (d a : BitVec 6) (g : BitVec 3) (s : State) : Host.Outcome State Fault Refusal :=
  issueA (encDAG 0x34000003 d a g) [d] g s fun e s => .done (setX e s d (e.x a).val true)

/-- PCLR (R269). -/
def execPclr (d a : BitVec 6) (g : BitVec 3) (s : State) : Host.Outcome State Fault Refusal :=
  issueA (encDAG 0x34000004 d a g) [d] g s fun e s => .done (setX e s d (e.x a).val false)

/-- PTEST (R269). -/
def execPtest (d a : BitVec 6) (g : BitVec 3) (s : State) : Host.Outcome State Fault Refusal :=
  issueA (encDAG 0x34000005 d a g) [] g s fun e s => .done (setFlag e s d.toNat (e.x a).psn)

/-! ## Hints, emulation words and undefined majors (R51, R53, R54) -/

/-- HINT (R53). -/
def execHint (h : BitVec 27) (s : State) : Host.Outcome State Fault Refusal :=
  issueI (encH 0xF0000000 h) [] s fun _ s => .done s

/-- An EMUL word (R54). -/
def emulWord (e : Env) (s : State) (w : Nat) : Res := .raise (emulTrap s e.rd (BitVec.ofNat 64 w))

/-- EMUL_MAJOR_7C (R54). -/
def execEmulMajor7c (x : BitVec 25) (s : State) : Host.Outcome State Fault Refusal :=
  issueI (encX 0xF8000000 x) [] s fun e s => emulWord e s (encX 0xF8000000 x)

/-- EMUL_MAJOR_7D (R54). -/
def execEmulMajor7d (x : BitVec 25) (s : State) : Host.Outcome State Fault Refusal :=
  issueI (encX 0xFA000000 x) [] s fun e s => emulWord e s (encX 0xFA000000 x)

/-- EMUL_MAJOR_7E (R54). -/
def execEmulMajor7e (x : BitVec 25) (s : State) : Host.Outcome State Fault Refusal :=
  issueI (encX 0xFC000000 x) [] s fun e s => emulWord e s (encX 0xFC000000 x)

/-- UNDEFINED_MAJOR (R51): UDF with detail 0. -/
def execUndefinedMajor (w : BitVec 32) (s : State) : Host.Outcome State Fault Refusal :=
  issueI w.toNat [] s fun _ _ => raise 0x01 0 (w.setWidth 64)

end Sys2Proof.Machine
end

