-- ==== Sys2Proof/Machine/Vector.lean ====
section
/-! DEFINITION. Vector instructions (R186 to R209): elements of a register, merging writes, the element-wise forms, conversions, reductions,
scans, masks, and scalars into and out of vectors; and `vview` and `aview` (R64). -/

namespace Sys2Proof.Machine

/-! ## Elements (R186, R188) -/

/-- Whether an element type is a signed integer. -/
def typeSigned (t : BitVec 4) : Bool := t == 0 || t == 2 || t == 4 || t == 6

/-- The format of a floating-point element type, none for an integer one (R47). -/
def typeFmt (t : BitVec 4) : Option Fmt :=
  match t.toNat with
  | 8 => some fF16 | 9 => some fBF16 | 10 => some fF32 | 11 => some fE4M3 | 12 => some fE5M2 | 13 => some fFP4 | 14 => some fFP6
  | _ => none

/-- An element: its bits and whether it is poison. -/
abbrev Elem := Nat × Bool

/-- The elements of a lane, for widths up to 32. -/
def laneElems (w : Nat) (x : Lane) : List Elem := (List.range (32 / w)).map fun j => (x.data.toNat / 2 ^ (w * j) % 2 ^ w, x.psn)

/-- Lanes taken two by two as 64-bit elements (R78). -/
def wideElems : List Lane → List Elem
  | x :: y :: r => (x.data.toNat + 2 ^ 32 * y.data.toNat, x.psn || y.psn) :: wideElems r
  | _ => []

/-- The 6-bit elements of an FP6 register, 256 of them in its first 192 bytes (R78, R202). -/
def sixElems (v : List Lane) : List Elem :=
  (List.range 256).map fun i =>
    let lo := nth Lane.zero v (6 * i / 32)
    let hi := nth Lane.zero v (6 * i / 32 + 1)
    ((lo.data.toNat + 2 ^ 32 * hi.data.toNat) / 2 ^ (6 * i % 32) % 64, lo.psn || (decide (26 < 6 * i % 32) && hi.psn))

/-- The elements of a register with their side bits: what moves, selects and permutations copy (R101). -/
def rawElems (t : BitVec 4) (v : List Lane) : List Elem :=
  if t = 14 then sixElems v else if typeWidth t = 64 then wideElems v else v.flatMap (laneElems (typeWidth t))

/-- The poison encoding of a type; integer types, FP4 and FP6 have none. -/
def typePoison (t : BitVec 4) : Option Nat :=
  match typeFmt t with
  | none => none
  | some f => if t = 13 ∨ t = 14 then none else some f.poison

/-- The elements of a register as operands: a poison encoding counts as poison (R188). -/
def elems (t : BitVec 4) (v : List Lane) : List Elem :=
  (rawElems t v).map fun x => (x.1, x.2 || typePoison t == some x.1)

/-- A poison result element: the poison encoding, or data zero (R188). -/
def poisonElem (t : BitVec 4) : Elem := (match typePoison t with | some p => p | none => 0, true)

/-- The number of elements of a type. -/
def elemCount (t : BitVec 4) : Nat := 2048 / typeWidth t

/-! ## Writing elements (R187) -/

/-- A lane with the elements of a list written into its places; none keeps what the place holds. -/
def mergeData (w : Nat) (j : Nat) (v : Nat) : List (Option Elem) → Nat
  | [] => v
  | none :: r => mergeData w (j + 1) v r
  | some x :: r => mergeData w (j + 1) (v - v / 2 ^ (w * j) % 2 ^ w * 2 ^ (w * j) + x.1 % 2 ^ w * 2 ^ (w * j)) r

/-- A lane written: its side bit is the OR of the poison written, with the old bit unless every place is written. -/
def mergeLane (w : Nat) (old : Lane) (l : List (Option Elem)) : Lane :=
  if l.all Option.isNone then old
  else
    let p := l.any fun x => match x with | some y => y.2 | none => false
    { data := BitVec.ofNat 32 (mergeData w 0 old.data.toNat l), psn := if l.all Option.isSome then p else old.psn || p }

/-- Lanes with 64-bit elements written two by two. -/
def mergeWide : List Lane → List (Option Elem) → List Lane
  | _ :: _ :: r, some z :: es =>
      { data := BitVec.ofNat 32 z.1, psn := z.2 } :: { data := BitVec.ofNat 32 (z.1 / 2 ^ 32), psn := z.2 } :: mergeWide r es
  | x :: y :: r, none :: es => x :: y :: mergeWide r es
  | l, _ => l

/-- Lanes with elements of up to 32 bits written. -/
def mergeNarrow (w : Nat) : List Lane → List (Option Elem) → List Lane
  | [], _ => []
  | x :: r, es => mergeLane w x (es.take (32 / w)) :: mergeNarrow w r (es.drop (32 / w))

/-- A register with elements written. -/
def mergeElems (w : Nat) (old : List Lane) (es : List (Option Elem)) : List Lane :=
  if w = 64 then mergeWide old es else mergeNarrow w old es

/-- The elements that a port takes: inactive ones are +0 (R187). -/
def portElems (es : List (Option Elem)) : List (Option Elem) := es.map fun x => some (match x with | some y => y | none => (0, false))

/-- Elements written to vector register `n`, where the view that the word issues under puts it (R64): a port takes the whole vector, with inactive
elements +0 (R187). -/
def storeE (e : Env) (s : State) (n : Nat) (w : Nat) (es : List (Option Elem)) (k : State → Res) : Res :=
  match portOf e.rd n with
  | none => k (modCore s e.ci fun c => writeV e.rd.a c n (mergeElems w (readVAs e.rd.a c n) es))
  | some q =>
    match pushPort s e.ci q (mergeElems w zeroVec (portElems es)) with
    | .wait => .stall
    | .trap t => .raise t
    | .over => overflow s 0
    | .ok s' _ => k s'

/-! ## The common effect (R189, R222) -/

/-- The accumulators that levels of a nest from number `l` on can name, from those named so far. -/
def nestAccs (t : List Word) (kl nl : Nat) : Nat → Nat → List Nat → List Nat
  | 0, _, l => l
  | fuel + 1, lv, l =>
    let d := if kl ≤ lv ∧ lv < nl then fieldOf (nth 0 t (3 + 2 * lv)) 0 3 else 0
    let cnt := fieldOf (nth 0 t (2 + 2 * lv)) 0 13
    nestAccs t kl nl fuel (lv + 1) ((l.flatMap fun n => (List.range (min cnt 8)).map fun i => (n + i * d) % 8) ++ l).eraseDups

/-- The accumulators that a queued operation can name. -/
def opAccs (x : MxOp) : List Nat :=
  match x.kind with
  | .zero n => [n]
  | .drain n _ _ => [n, (n + 1) % 8]
  | .mma n _ _ => [n, (n + 1) % 8]
  | .nest t _ =>
    let h := nth 0 t 0
    (nestAccs t (fieldOf h 33 3) (fieldOf h 30 3) 6 0 [fieldOf h 27 3]).flatMap fun n => [n, (n + 1) % 8]

/-- Whether a matrix operation queued at `c` names operand-store bytes of vector register `n` as `rd` names it (R62, R63, R222). -/
def mxHolds (rd c : Core) (n : Nat) : Bool :=
  (portOf rd n).isNone && c.mxq.any fun x =>
    (opAccs x).any fun k => decide ((rd.a.vbase.toNat + n + 2048 - (16 * x.abase.toNat + 128 * k) % 2048) % 2048 < 128)

/-- A meaning of K on vector registers: it waits while a queued matrix operation names the bytes of one (R222), and reads its sources. -/
def kVec (e : Env) (s : State) (names : List Nat) (srcs : List Nat) (k : List (List Lane) → State → Res) : Res :=
  if names.any (mxHolds e.rd (getCore s e.ci)) then .stall else withV e s srcs k

/-- STREAM_FAULT with detail 0 for a register that names a bound port and must not. -/
def portMisused (e : Env) (s : State) (q : Nat) : Res := .raise (streamMisused s q (streamOf e.rd.a q).pos.toNat)

/-- An operation on elements: the data of up to three, giving data and flags. -/
abbrev ElemOp := Nat → Nat → Nat → Nat × Flg

/-- The element-wise effect: inactive elements none, a poison source gives poison without flags. -/
def opElems (on : Nat → Bool) (p : Elem) (op : ElemOp) : Nat → List Elem → List Elem → List Elem → List (Option Elem) × Flg
  | i, a :: as, b :: bs, d :: ds =>
    let r := opElems on p op (i + 1) as bs ds
    if !on i then (none :: r.1, r.2)
    else if a.2 || b.2 || d.2 then (some p :: r.1, r.2)
    else
      let x := op a.1 b.1 d.1
      (some (x.1, false) :: r.1, x.2.or r.2)
  | _, _, _, _ => ([], {})

/-- Elements that an entry does not read. -/
def noElems (t : BitVec 4) : List Elem := List.replicate (elemCount t) (0, false)

/-- The end of an element-wise form: the result written and the flags set (R98). -/
def finishV (e : Env) (s : State) (d : BitVec 6) (t : BitVec 4) (r : List (Option Elem) × Flg) : Res :=
  storeE e s d.toNat (typeWidth t) r.1 fun s => .done (addFlags s e.ci r.2)

/-- A binary element-wise form (R189, R193). -/
def binaryV (e : Env) (s : State) (d a b : BitVec 6) (m : BitVec 3) (t : BitVec 4) (op : ElemOp) : Res :=
  kVec e s [d.toNat, a.toNat, b.toNat] [a.toNat, b.toNat] fun vs s =>
    finishV e s d t (opElems (maskBit e.rd.a m.toNat) (poisonElem t) op 0 (elems t (nth [] vs 0)) (elems t (nth [] vs 1)) (noElems t))

/-- A form that reads vd as its third operand (R194). -/
def fusedV (e : Env) (s : State) (d a b : BitVec 6) (m : BitVec 3) (t : BitVec 4) (op : ElemOp) : Res :=
  kVec e s [d.toNat, a.toNat, b.toNat] [a.toNat, b.toNat] fun vs s =>
    match portOf e.rd d.toNat with
    | some q => portMisused e s q
    | none =>
      finishV e s d t (opElems (maskBit e.rd.a m.toNat) (poisonElem t) op 0 (elems t (nth [] vs 0)) (elems t (nth [] vs 1))
        (elems t (readV e.rd d.toNat)))

/-- A unary element-wise form (R200). -/
def unaryV (e : Env) (s : State) (d a : BitVec 6) (m : BitVec 3) (t : BitVec 4) (op : Nat → Nat × Flg) : Res :=
  kVec e s [d.toNat, a.toNat] [a.toNat] fun vs s =>
    finishV e s d t (opElems (maskBit e.rd.a m.toNat) (poisonElem t) (fun x _ _ => op x) 0 (elems t (nth [] vs 0)) (noElems t) (noElems t))

/-! ## Operations on elements (R193, R200) -/

/-- An integer element as its type reads it. -/
def intElem (t : BitVec 4) (x : Nat) : Int := if typeSigned t then sintOf (typeWidth t) x else (x : Nat)

/-- The low bits of an integer for a type's width. -/
def lowBits (w : Nat) (i : Int) : Nat := (i % (2 ^ w : Nat)).toNat

/-- The least value of an integer type of width `w`. -/
def intMin (signed : Bool) (w : Nat) : Int := if signed then -(2 ^ (w - 1) : Nat) else 0

/-- The greatest value of an integer type of width `w`. -/
def intMax (signed : Bool) (w : Nat) : Int := if signed then (2 ^ (w - 1) : Nat) - 1 else (2 ^ w : Nat) - 1

/-- An integer clamped to a type's range, with SAT for a clamp (R79). -/
def clampTo (signed : Bool) (w : Nat) (i : Int) : Nat × Flg :=
  if i < intMin signed w then (lowBits w (intMin signed w), { sat := true })
  else if intMax signed w < i then (lowBits w (intMax signed w), { sat := true })
  else (lowBits w i, {})

/-- An operation that integer types take on exact integers and floating-point types in a format. -/
def typedOp (t : BitVec 4) (i : Int → Int → Int) (f : Fmt → Nat → Nat → Nat × Flg) : ElemOp :=
  match typeFmt t with
  | some g => fun a b _ => f g a b
  | none => fun a b _ => (lowBits (typeWidth t) (i (intElem t a) (intElem t b)), {})

/-- An operation of integer types on bits, with their width. -/
def bitOp (t : BitVec 4) (f : Nat → Nat → Nat → Nat) : ElemOp := fun a b _ => (f (typeWidth t) a b % 2 ^ typeWidth t, {})

/-- A fused operation in the format of a type: the product and the addend with signs changed as asked. -/
def fmaOp (r : RMode) (t : BitVec 4) (negP negC : Bool) : ElemOp := fun a b d =>
  match typeFmt t with
  | none => (0, {})
  | some f =>
    let x := decodeF f a
    let z := decodeF f d
    fmaV f r (if negP then negV x else x) (decodeF f b) (if negC then negV z else z)

/-- |a − b| rounded once (R193). -/
def fAbsDiff (r : RMode) (f : Fmt) (a b : Nat) : Nat × Flg :=
  let x := decodeF f a
  let y := decodeF f b
  finish1 f r [x, y] (match addV r x (negV y) with
    | some (.fin _ m e) => some (.fin false m e)
    | some (.inf _) => some (.inf false)
    | v => v)

/-- VADD (R193). -/
def execVadd (d a b : BitVec 6) (m : BitVec 3) (t : BitVec 4) (s : State) : Host.Outcome State Fault Refusal :=
  issueI (encDABMT 0x60000000 d a b m t) [] s fun e s =>
    binaryV e s d a b m t (typedOp t (fun x y => x + y) fun f => fAdd f (frmMode e.rd.a))

/-- VSUB (R193). -/
def execVsub (d a b : BitVec 6) (m : BitVec 3) (t : BitVec 4) (s : State) : Host.Outcome State Fault Refusal :=
  issueI (encDABMT 0x62000000 d a b m t) [] s fun e s =>
    binaryV e s d a b m t (typedOp t (fun x y => x - y) fun f => fSub f (frmMode e.rd.a))

/-- VMUL (R193). -/
def execVmul (d a b : BitVec 6) (m : BitVec 3) (t : BitVec 4) (s : State) : Host.Outcome State Fault Refusal :=
  issueI (encDABMT 0x64000000 d a b m t) [] s fun e s =>
    binaryV e s d a b m t (typedOp t (fun x y => x * y) fun f => fMul f (frmMode e.rd.a))

/-- VFMA (R193). -/
def execVfma (d a b : BitVec 6) (m : BitVec 3) (t : BitVec 4) (s : State) : Host.Outcome State Fault Refusal :=
  issueI (encDABMT 0x66000000 d a b m t) [] s fun e s => fusedV e s d a b m t (fmaOp (frmMode e.rd.a) t false false)

/-- VFMS (R193). -/
def execVfms (d a b : BitVec 6) (m : BitVec 3) (t : BitVec 4) (s : State) : Host.Outcome State Fault Refusal :=
  issueI (encDABMT 0x68000000 d a b m t) [] s fun e s => fusedV e s d a b m t (fmaOp (frmMode e.rd.a) t false true)

/-- VFNMA (R193). -/
def execVfnma (d a b : BitVec 6) (m : BitVec 3) (t : BitVec 4) (s : State) : Host.Outcome State Fault Refusal :=
  issueI (encDABMT 0x6A000000 d a b m t) [] s fun e s => fusedV e s d a b m t (fmaOp (frmMode e.rd.a) t true false)

/-- VMIN (R193). -/
def execVmin (d a b : BitVec 6) (m : BitVec 3) (t : BitVec 4) (s : State) : Host.Outcome State Fault Refusal :=
  issueI (encDABMT 0x6C000000 d a b m t) [] s fun e s => binaryV e s d a b m t (typedOp t (fun x y => min x y) fun f => fMinMax f false)

/-- VMAX (R193). -/
def execVmax (d a b : BitVec 6) (m : BitVec 3) (t : BitVec 4) (s : State) : Host.Outcome State Fault Refusal :=
  issueI (encDABMT 0x6E000000 d a b m t) [] s fun e s => binaryV e s d a b m t (typedOp t (fun x y => max x y) fun f => fMinMax f true)

/-- VDIV (R193). -/
def execVdiv (d a b : BitVec 6) (m : BitVec 3) (t : BitVec 4) (s : State) : Host.Outcome State Fault Refusal :=
  issueI (encDABMT 0x70000000 d a b m t) [] s fun e s => binaryV e s d a b m t (typedOp t (fun x _ => x) fun f => fDiv f (frmMode e.rd.a))

/-- VAND (R193). -/
def execVand (d a b : BitVec 6) (m : BitVec 3) (t : BitVec 4) (s : State) : Host.Outcome State Fault Refusal :=
  issueI (encDABMT 0x72000000 d a b m t) [] s fun e s => binaryV e s d a b m t (bitOp t fun _ x y => Nat.land x y)

/-- VOR (R193). -/
def execVor (d a b : BitVec 6) (m : BitVec 3) (t : BitVec 4) (s : State) : Host.Outcome State Fault Refusal :=
  issueI (encDABMT 0x74000000 d a b m t) [] s fun e s => binaryV e s d a b m t (bitOp t fun _ x y => Nat.lor x y)

/-- VXOR (R193). -/
def execVxor (d a b : BitVec 6) (m : BitVec 3) (t : BitVec 4) (s : State) : Host.Outcome State Fault Refusal :=
  issueI (encDABMT 0x76000000 d a b m t) [] s fun e s => binaryV e s d a b m t (bitOp t fun _ x y => Nat.xor x y)

/-- VSLL (R193). -/
def execVsll (d a b : BitVec 6) (m : BitVec 3) (t : BitVec 4) (s : State) : Host.Outcome State Fault Refusal :=
  issueI (encDABMT 0x78000000 d a b m t) [] s fun e s => binaryV e s d a b m t (bitOp t fun w x y => x * 2 ^ (y % w))

/-- VSRL (R193). -/
def execVsrl (d a b : BitVec 6) (m : BitVec 3) (t : BitVec 4) (s : State) : Host.Outcome State Fault Refusal :=
  issueI (encDABMT 0x7A000000 d a b m t) [] s fun e s => binaryV e s d a b m t (bitOp t fun w x y => x / 2 ^ (y % w))

/-- VSRA (R193). -/
def execVsra (d a b : BitVec 6) (m : BitVec 3) (t : BitVec 4) (s : State) : Host.Outcome State Fault Refusal :=
  issueI (encDABMT 0x7C000000 d a b m t) [] s fun e s =>
    binaryV e s d a b m t (bitOp t fun w x y => lowBits w (sintOf w x / (2 ^ (y % w) : Nat)))

/-- VADDS (R193). -/
def execVadds (d a b : BitVec 6) (m : BitVec 3) (t : BitVec 4) (s : State) : Host.Outcome State Fault Refusal :=
  issueI (encDABMT 0x7E000000 d a b m t) [] s fun e s =>
    binaryV e s d a b m t fun x y _ => clampTo (typeSigned t) (typeWidth t) (intElem t x + intElem t y)

/-- VSUBS (R193). -/
def execVsubs (d a b : BitVec 6) (m : BitVec 3) (t : BitVec 4) (s : State) : Host.Outcome State Fault Refusal :=
  issueI (encDABMT 0x80000000 d a b m t) [] s fun e s =>
    binaryV e s d a b m t fun x y _ => clampTo (typeSigned t) (typeWidth t) (intElem t x - intElem t y)

/-- VMULH (R193). -/
def execVmulh (d a b : BitVec 6) (m : BitVec 3) (t : BitVec 4) (s : State) : Host.Outcome State Fault Refusal :=
  issueI (encDABMT 0x82000000 d a b m t) [] s fun e s =>
    binaryV e s d a b m t (typedOp t (fun x y => x * y / (2 ^ typeWidth t : Nat)) fun _ _ _ => (0, {}))

/-- VABSD (R193). -/
def execVabsd (d a b : BitVec 6) (m : BitVec 3) (t : BitVec 4) (s : State) : Host.Outcome State Fault Refusal :=
  issueI (encDABMT 0x84000000 d a b m t) [] s fun e s =>
    binaryV e s d a b m t (typedOp t (fun x y => (x - y).natAbs) (fAbsDiff (frmMode e.rd.a)))

/-- VAVG (R193). -/
def execVavg (d a b : BitVec 6) (m : BitVec 3) (t : BitVec 4) (s : State) : Host.Outcome State Fault Refusal :=
  issueI (encDABMT 0x86000000 d a b m t) [] s fun e s =>
    binaryV e s d a b m t (typedOp t (fun x y => (x + y + 1) / 2) fun _ _ _ => (0, {}))

/-! ## Compares (R195) -/

/-- The state with mask register `n` written: a write to m0 is discarded (R61). -/
def setMask (s : State) (ci n : Nat) (v : BitVec 256) : State :=
  if n = 0 then s else modArch s ci fun a => { a with masks := vset a.masks n v }

/-- The lowest active element that is poison in either source. -/
def activePsn (on : Nat → Bool) : Nat → List Elem → List Elem → Option Nat
  | i, a :: as, b :: bs => if on i && (a.2 || b.2) then some i else activePsn on (i + 1) as bs
  | _, _, _ => none

/-- A relation on elements of a type: codes 0 eq, 1 lt, 2 le, 3 ne. -/
def relElem (t : BitVec 4) (code : Nat) (a b : Nat) : Bool × Flg :=
  match typeFmt t with
  | some f => if code = 3 then (!(fCmp f 0 a b).1, (fCmp f 0 a b).2) else fCmp f code a b
  | none =>
    let x := intElem t a
    let y := intElem t b
    ((match code with | 0 => decide (x = y) | 1 => decide (x < y) | 2 => decide (x ≤ y) | _ => decide (x ≠ y)), {})

/-- The mask that a compare gives, as a number, with its flags. -/
def cmpElems (on : Nat → Bool) (t : BitVec 4) (code : Nat) : Nat → List Elem → List Elem → Nat × Flg
  | i, a :: as, b :: bs =>
    let r := cmpElems on t code (i + 1) as bs
    if on i then
      let x := relElem t code a.1 b.1
      (b2n x.1 * 2 ^ i + r.1, x.2.or r.2)
    else r
  | _, _, _ => (0, {})

/-- A compare into a mask. -/
def compareV (e : Env) (s : State) (code : Nat) (d a b : BitVec 6) (m : BitVec 3) (t : BitVec 4) : Res :=
  let on := maskBit e.rd.a m.toNat
  kVec e s [a.toNat, b.toNat] [a.toNat, b.toNat] fun vs s =>
    let x := elems t (nth [] vs 0)
    let y := elems t (nth [] vs 1)
    match activePsn on 0 x y with
    | some i => raise 0x20 3 (BitVec.ofNat 64 i)
    | none =>
      let r := cmpElems on t code 0 x y
      .done (addFlags (setMask s e.ci d.toNat (BitVec.ofNat 256 r.1)) e.ci r.2)

/-- VCMPEQ (R195). -/
def execVcmpeq (d a b : BitVec 6) (m : BitVec 3) (t : BitVec 4) (s : State) : Host.Outcome State Fault Refusal :=
  issueI (encDABMT 0x88000000 d a b m t) [] s fun e s => compareV e s 0 d a b m t

/-- VCMPLT (R195). -/
def execVcmplt (d a b : BitVec 6) (m : BitVec 3) (t : BitVec 4) (s : State) : Host.Outcome State Fault Refusal :=
  issueI (encDABMT 0x8A000000 d a b m t) [] s fun e s => compareV e s 1 d a b m t

/-- VCMPLE (R195). -/
def execVcmple (d a b : BitVec 6) (m : BitVec 3) (t : BitVec 4) (s : State) : Host.Outcome State Fault Refusal :=
  issueI (encDABMT 0x8C000000 d a b m t) [] s fun e s => compareV e s 2 d a b m t

/-- VCMPNE (R195). -/
def execVcmpne (d a b : BitVec 6) (m : BitVec 3) (t : BitVec 4) (s : State) : Host.Outcome State Fault Refusal :=
  issueI (encDABMT 0x8E000000 d a b m t) [] s fun e s => compareV e s 3 d a b m t

/-! ## Selection and permutation (R196 to R199) -/

/-- A form that moves elements of two sources, writing every element that `f` gives. -/
def moveV (e : Env) (s : State) (d : BitVec 6) (srcs : List (BitVec 6)) (t : BitVec 4) (f : List Elem → List Elem → List (Option Elem)) : Res :=
  kVec e s (d.toNat :: srcs.map fun x => x.toNat) (srcs.map fun x => x.toNat) fun vs s =>
    finishV e s d t (f (rawElems t (nth [] vs 0)) (rawElems t (nth [] vs 1)), {})

/-- Elements chosen by a mask. -/
def selElems (on : Nat → Bool) : Nat → List Elem → List Elem → List (Option Elem)
  | i, a :: as, b :: bs => some (if on i then a else b) :: selElems on (i + 1) as bs
  | _, _, _ => []

/-- VSEL (R196). -/
def execVsel (d a b : BitVec 6) (m : BitVec 3) (t : BitVec 4) (s : State) : Host.Outcome State Fault Refusal :=
  issueI (encDABMT 0x90000000 d a b m t) [] s fun e s => moveV e s d [a, b] t (selElems (maskBit e.rd.a m.toNat) 0)

/-- Elements picked by index: past the end +0, a poison index gives poison. -/
def permElems (on : Nat → Bool) (p : Elem) (src : List Elem) : Nat → List Elem → List (Option Elem)
  | _, [] => []
  | i, j :: js =>
    (if !on i then none else if j.2 then some p else some (nth (0, false) src j.1)) :: permElems on p src (i + 1) js

/-- VPERM (R197). -/
def execVperm (d a b : BitVec 6) (m : BitVec 3) (t : BitVec 4) (s : State) : Host.Outcome State Fault Refusal :=
  issueI (encDABMT 0x92000000 d a b m t) [] s fun e s =>
    kVec e s [d.toNat, a.toNat, b.toNat] [a.toNat, b.toNat] fun vs s =>
      finishV e s d t
        (permElems (maskBit e.rd.a m.toNat) (poisonElem t) (rawElems t (nth [] vs 0)) 0 (elems t (nth [] vs 1)), {})

/-- The elements of two lists in turn. -/
def interleave : List Elem → List Elem → List (Option Elem)
  | a :: as, b :: bs => some a :: some b :: interleave as bs
  | _, _ => []

/-- Every second element, from the first on. -/
def evens : List Elem → List Elem
  | a :: _ :: r => a :: evens r
  | l => l

/-- VZIP_LO (R198). -/
def execVzipLo (d a b : BitVec 6) (t : BitVec 4) (s : State) : Host.Outcome State Fault Refusal :=
  issueI (encDABT 0x94000000 d a b t) [] s fun e s =>
    moveV e s d [a, b] t fun x y => interleave (x.take (elemCount t / 2)) (y.take (elemCount t / 2))

/-- VZIP_HI (R198). -/
def execVzipHi (d a b : BitVec 6) (t : BitVec 4) (s : State) : Host.Outcome State Fault Refusal :=
  issueI (encDABT 0x94000010 d a b t) [] s fun e s =>
    moveV e s d [a, b] t fun x y => interleave (x.drop (elemCount t / 2)) (y.drop (elemCount t / 2))

/-- VUZP_EV (R198). -/
def execVuzpEv (d a b : BitVec 6) (t : BitVec 4) (s : State) : Host.Outcome State Fault Refusal :=
  issueI (encDABT 0x94000020 d a b t) [] s fun e s => moveV e s d [a, b] t fun x y => (evens x ++ evens y).map some

/-- VUZP_OD (R198). -/
def execVuzpOd (d a b : BitVec 6) (t : BitVec 4) (s : State) : Host.Outcome State Fault Refusal :=
  issueI (encDABT 0x94000030 d a b t) [] s fun e s => moveV e s d [a, b] t fun x y => (evens (x.drop 1) ++ evens (y.drop 1)).map some

/-- Elements slid by `k` places: rotated, or filled with +0 (R199). -/
def slideElems (n k : Nat) (up rot : Bool) (src : List Elem) : List (Option Elem) :=
  (List.range n).map fun (i : Nat) =>
    let j : Int := if up then (i : Int) - k else (i : Int) + k
    some (if rot then nth (0, false) src (j % (n : Int)).toNat
          else if 0 ≤ j ∧ j < n then nth (0, false) src j.toNat else (0, false))

/-- The STREAM_FAULT of a push to the port that vector register `n` names, which stands before POISON_CONSUMED (R209). -/
def pushTrap (e : Env) (s : State) (n : Nat) : Option Trap :=
  match portOf e.rd n with
  | none => none
  | some q => match pushPort s e.ci q zeroVec with
    | .trap t => some t
    | _ => none

/-- VSLIDE (R199): `r` rotation, `n` direction. -/
def slideV (e : Env) (s : State) (d a b : BitVec 6) (rot up : BitVec 1) (t : BitVec 4) : Res :=
  kVec e s [d.toNat, a.toNat] [a.toNat] fun vs s =>
    match pushTrap e s d.toNat with
    | some t => .raise t
    | none => consume e [(b, 4)]
      (finishV e s d t (slideElems (elemCount t) (e.x b).val.toNat (up == 1) (rot == 1) (rawElems t (nth [] vs 0)), {}))

/-- VSLIDE (R199). -/
def execVslide (d a b : BitVec 6) (r n : BitVec 1) (t : BitVec 4) (s : State) : Host.Outcome State Fault Refusal :=
  issueI (encDABRNT 0x96000000 d a b r n t) [] s fun e s => slideV e s d a b r n t

/-! ## Unary forms (R200) -/

/-- A unary operation that integer types take on exact integers and floating-point types in a format. -/
def typedOp1 (t : BitVec 4) (i : Int → Int) (f : Fmt → Nat → Nat × Flg) : Nat → Nat × Flg :=
  match typeFmt t with
  | some g => f g
  | none => fun a => (lowBits (typeWidth t) (i (intElem t a)), {})

/-- 1 ÷ √x, correctly rounded (R200). -/
def rsqrtV (f : Fmt) (r : RMode) (x : Fv) : Nat × Flg :=
  match x with
  | .nan s => nanF f s
  | .inf n => if n then nanF f true else (zeroF f false, {})
  | .fin n m e =>
    if m = 0 then let (v, g) := infF f n; (v, { g with dz := true })
    else if n then nanF f true
    else
      let m' := if e % 2 = 0 then m else 2 * m
      let e' := if e % 2 = 0 then e else e - 1
      let k := f.fw + 6 + topBit m'
      let q := isqrt (2 ^ (2 * k) / m')
      roundF f r false q (q * q * m' != 2 ^ (2 * k)) (-(k : Int) - e' / 2)

/-- A change of an element's sign, which keeps a NaN as it is and sets no flag (R200). -/
def signOp (g : Nat → Nat → Nat) (f : Fmt) (x : Nat) : Nat × Flg :=
  (match decodeF f x with | .nan _ => x | _ => g (2 ^ (f.width - 1)) x, {})

/-- VABS (R200). -/
def execVabs (d a : BitVec 6) (m : BitVec 3) (t : BitVec 4) (s : State) : Host.Outcome State Fault Refusal :=
  issueI (encDAMT 0x98000000 d a m t) [] s fun e s =>
    unaryV e s d a m t (typedOp1 t (fun x => x.natAbs) (signOp fun h x => x % h))

/-- VNEG (R200). -/
def execVneg (d a : BitVec 6) (m : BitVec 3) (t : BitVec 4) (s : State) : Host.Outcome State Fault Refusal :=
  issueI (encDAMT 0x98000080 d a m t) [] s fun e s =>
    unaryV e s d a m t (typedOp1 t (fun x => -x) (signOp fun h x => (x + h) % (2 * h)))

/-- VSQRT (R200). -/
def execVsqrt (d a : BitVec 6) (m : BitVec 3) (t : BitVec 4) (s : State) : Host.Outcome State Fault Refusal :=
  issueI (encDAMT 0x98000100 d a m t) [] s fun e s => unaryV e s d a m t (typedOp1 t id fun f => fSqrt f (frmMode e.rd.a))

/-- VRECIP (R200). -/
def execVrecip (d a : BitVec 6) (m : BitVec 3) (t : BitVec 4) (s : State) : Host.Outcome State Fault Refusal :=
  issueI (encDAMT 0x98000180 d a m t) [] s fun e s =>
    unaryV e s d a m t (typedOp1 t id fun f x => divV f (frmMode e.rd.a) (.fin false 1 0) (decodeF f x))

/-- VRSQRT (R200). -/
def execVrsqrt (d a : BitVec 6) (m : BitVec 3) (t : BitVec 4) (s : State) : Host.Outcome State Fault Refusal :=
  issueI (encDAMT 0x98000200 d a m t) [] s fun e s => unaryV e s d a m t (typedOp1 t id fun f x => rsqrtV f (frmMode e.rd.a) (decodeF f x))

/-- VNOT (R200). -/
def execVnot (d a : BitVec 6) (m : BitVec 3) (t : BitVec 4) (s : State) : Host.Outcome State Fault Refusal :=
  issueI (encDAMT 0x98000280 d a m t) [] s fun e s => unaryV e s d a m t (typedOp1 t (fun x => -x - 1) fun _ x => (x, {}))

/-- VCLZ (R200). -/
def execVclz (d a : BitVec 6) (m : BitVec 3) (t : BitVec 4) (s : State) : Host.Outcome State Fault Refusal :=
  issueI (encDAMT 0x98000300 d a m t) [] s fun e s =>
    unaryV e s d a m t fun x => (if x = 0 then typeWidth t else typeWidth t - 1 - topBit x, {})

/-- The number of one bits among the low `n` bits. -/
def countOnes (v : Nat) : Nat → Nat
  | 0 => 0
  | n + 1 => v / 2 ^ n % 2 + countOnes v n

/-- VPOPC (R200). -/
def execVpopc (d a : BitVec 6) (m : BitVec 3) (t : BitVec 4) (s : State) : Host.Outcome State Fault Refusal :=
  issueI (encDAMT 0x98000380 d a m t) [] s fun e s => unaryV e s d a m t fun x => (countOnes x (typeWidth t), {})

/-- VRINT (R200). -/
def execVrint (d a : BitVec 6) (m : BitVec 3) (t : BitVec 4) (s : State) : Host.Outcome State Fault Refusal :=
  issueI (encDAMT 0x98000400 d a m t) [] s fun e s => unaryV e s d a m t (typedOp1 t id fun f => fRint f (frmMode e.rd.a))

/-- Class codes of active elements, never poison (R200). -/
def classElems (on : Nat → Bool) (f : Fmt) : Nat → List Elem → List (Option Elem)
  | _, [] => []
  | i, x :: r => (if on i then some (fClass f x.1 + 16 * b2n x.2, false) else none) :: classElems on f (i + 1) r

/-- The format of a floating-point type; the integer types have no form that asks for it. -/
def fmtOr (t : BitVec 4) : Fmt := match typeFmt t with | some f => f | none => fF32

/-- The side bits of a register's lanes once those with an active element have been set to 0 (R200). -/
def clearSides (w : Nat) : List Lane → List (Option Elem) → List Lane
  | [], _ => []
  | x :: r, es => (if (es.take (32 / w)).any Option.isSome then { x with psn := false } else x) :: clearSides w r (es.drop (32 / w))

/-- `vclass`: the lanes that it writes get side bits 0. -/
def classV (e : Env) (s : State) (d : BitVec 6) (t : BitVec 4) (es : List (Option Elem)) : Res :=
  let s1 := if (portOf e.rd d.toNat).isSome then s
    else modCore s e.ci fun c => writeV e.rd.a c d.toNat (clearSides (typeWidth t) (readVAs e.rd.a c d.toNat) es)
  finishV e s1 d t (es, {})

/-- VCLASS (R200). -/
def execVclass (d a : BitVec 6) (m : BitVec 3) (t : BitVec 4) (s : State) : Host.Outcome State Fault Refusal :=
  issueI (encDAMT 0x98000480 d a m t) [] s fun e s =>
    kVec e s [d.toNat, a.toNat] [a.toNat] fun vs s =>
      classV e s d t (classElems (maskBit e.rd.a m.toNat) (fmtOr t) 0 (elems t (nth [] vs 0)))

/-- Elements copied where they are active. -/
def copyElems (on : Nat → Bool) : Nat → List Elem → List (Option Elem)
  | _, [] => []
  | i, x :: r => (if on i then some x else none) :: copyElems on (i + 1) r

/-- VMOV (R200). -/
def execVmov (d a : BitVec 6) (m : BitVec 3) (t : BitVec 4) (s : State) : Host.Outcome State Fault Refusal :=
  issueI (encDAMT 0x98000500 d a m t) [] s fun e s => moveV e s d [a] t fun x _ => copyElems (maskBit e.rd.a m.toNat) 0 x

/-! ## Conversion (R201, R202) -/

/-- One element converted: from a type, to a type, in a mode, saturating or not (R96). -/
def convertElem (ts td : BitVec 4) (r : RMode) (sat : Bool) (x : Nat) : Nat × Flg :=
  let w := typeWidth td
  let v := if ts = 13 ∨ ts = 14 then widen (fmtOr ts) x else x
  match (if ts = 13 ∨ ts = 14 then some fE4M3 else typeFmt ts), typeFmt td with
  | some f, some g => fCvt f g r v
  | some f, none => let y := toIntV (typeSigned td) w r (decodeF f v); (lowBits w y.1, y.2)
  | none, some g => ofIntF g r (intElem ts v)
  | none, none => if sat then clampTo (typeSigned td) w (intElem ts v) else (lowBits w (intElem ts v), {})

/-- Elements converted, poison to poison. -/
def convertElems (ts td : BitVec 4) (r : RMode) (sat : Bool) : List Elem → List (Option Elem) × Flg
  | [] => ([], {})
  | x :: rest =>
    let y := convertElems ts td r sat rest
    if x.2 then (some (poisonElem td) :: y.1, y.2)
    else
      let z := convertElem ts td r sat x.1
      (some (z.1, false) :: y.1, z.2.or y.2)

/-- Elements written to consecutive registers, `n` to each. -/
def storeGroup (e : Env) (d w n : Nat) (k : State → Res) : Nat → State → List (Option Elem) → Res
  | 0, s, _ => k s
  | g + 1, s, es => storeE e s d w (es.take n) fun s => storeGroup e (d + 1) w n k g s (es.drop n)

/-- VCVT (R202). -/
def convertV (e : Env) (s : State) (d a : BitVec 6) (sat : BitVec 1) (td : BitVec 4) (m : BitVec 3) (ts : BitVec 4) : Res :=
  let g := cvtGroup ts td
  let srcs := (List.range (if typeWidth td < typeWidth ts then g else 1)).map fun i => a.toNat + i
  let dsts := (List.range (if typeWidth ts < typeWidth td then g else 1)).map fun i => d.toNat + i
  let group := if g = 1 then [] else if typeWidth td < typeWidth ts then srcs else dsts
  match portsOf e.rd group with
  | q :: _ => portMisused e s q
  | [] =>
    kVec e s (dsts ++ srcs) srcs fun vs s =>
      let r := convertElems ts td (modeOf e.rd.a m) (sat == 1) (vs.flatMap (elems ts))
      storeGroup e d.toNat (typeWidth td) (elemCount td)
        (fun s => .done (addFlags s e.ci (r.2.or { subst := ts == 13 || ts == 14 }))) dsts.length s r.1

/-- VCVT (R202). -/
def execVcvt (d a : BitVec 6) (sf : BitVec 1) (u : BitVec 4) (m : BitVec 3) (t : BitVec 4) (s : State) : Host.Outcome State Fault Refusal :=
  issueI (encDASUMT 0x9A000000 d a sf u m t) [] s fun e s => convertV e s d a sf u m t

/-! ## Reductions and scans (R203 to R205) -/

/-- The operations of `vred` and `vscan`: 0 sum, 1 min, 2 max, 3 and, 4 or, 5 xor. -/
def redOp (t : BitVec 4) (r : RMode) (code : Nat) (x y : Nat) : Nat × Flg :=
  match code with
  | 0 => typedOp t (fun a b => a + b) (fun f => fAdd f r) x y 0
  | 1 => typedOp t (fun a b => min a b) (fun f => fMinMax f false) x y 0
  | 2 => typedOp t (fun a b => max a b) (fun f => fMinMax f true) x y 0
  | 3 => (Nat.land x y, {})
  | 4 => (Nat.lor x y, {})
  | _ => (Nat.xor x y, {})

/-- The result of a reduction with no active element (R203). -/
def redIdentity (t : BitVec 4) (code : Nat) : Nat :=
  let w := typeWidth t
  match code with
  | 1 => match typeFmt t with | some f => (infF f false).1 | none => lowBits w (intMax (typeSigned t) w)
  | 2 => match typeFmt t with | some f => (infF f true).1 | none => lowBits w (intMin (typeSigned t) w)
  | 3 => 2 ^ w - 1
  | _ => 0

/-- One level of the tree: neighbours combined, an empty one passing the other on (R204). -/
def treeLevel (op : Nat → Nat → Nat × Flg) : List (Option Nat) → List (Option Nat) × Flg
  | some x :: some y :: r =>
    let z := op x y
    let t := treeLevel op r
    (some z.1 :: t.1, z.2.or t.2)
  | some x :: none :: r => let t := treeLevel op r; (some x :: t.1, t.2)
  | none :: y :: r => let t := treeLevel op r; (y :: t.1, t.2)
  | l => (l, {})

/-- The tree over a number of levels. -/
def treeRun (op : Nat → Nat → Nat × Flg) : Nat → List (Option Nat) → Flg → List (Option Nat) × Flg
  | 0, l, f => (l, f)
  | n + 1, l, f => let r := treeLevel op l; treeRun op n r.1 (r.2.or f)

/-- The active elements' data, none for an inactive one. -/
def activeData (on : Nat → Bool) : Nat → List Elem → List (Option Nat)
  | _, [] => []
  | i, x :: r => (if on i then some x.1 else none) :: activeData on (i + 1) r

/-- Element 0 followed by +0. -/
def firstOnly (n : Nat) (x : Elem) : List (Option Elem) := some x :: List.replicate (n - 1) (some (0, false))

/-- A reduction (R204). -/
def reduceV (e : Env) (s : State) (code : Nat) (d a : BitVec 6) (m : BitVec 3) (t : BitVec 4) : Res :=
  let on := maskBit e.rd.a m.toNat
  kVec e s [d.toNat, a.toNat] [a.toNat] fun vs s =>
    let x := elems t (nth [] vs 0)
    if (activePsn on 0 x x).isSome then finishV e s d t (firstOnly (elemCount t) (poisonElem t), {})
    else
      let r := treeRun (redOp t (frmMode e.rd.a) code) (topBit (elemCount t)) (activeData on 0 x) {}
      let v := match r.1 with | some y :: _ => y | _ => redIdentity t code
      finishV e s d t (firstOnly (elemCount t) (v, false), r.2)

/-- VRED_SUM (R204). -/
def execVredSum (d a : BitVec 6) (m : BitVec 3) (t : BitVec 4) (s : State) : Host.Outcome State Fault Refusal :=
  issueI (encDAMT 0x9C000000 d a m t) [] s fun e s => reduceV e s 0 d a m t

/-- VRED_MIN (R204). -/
def execVredMin (d a : BitVec 6) (m : BitVec 3) (t : BitVec 4) (s : State) : Host.Outcome State Fault Refusal :=
  issueI (encDAMT 0x9C000080 d a m t) [] s fun e s => reduceV e s 1 d a m t

/-- VRED_MAX (R204). -/
def execVredMax (d a : BitVec 6) (m : BitVec 3) (t : BitVec 4) (s : State) : Host.Outcome State Fault Refusal :=
  issueI (encDAMT 0x9C000100 d a m t) [] s fun e s => reduceV e s 2 d a m t

/-- VRED_AND (R204). -/
def execVredAnd (d a : BitVec 6) (m : BitVec 3) (t : BitVec 4) (s : State) : Host.Outcome State Fault Refusal :=
  issueI (encDAMT 0x9C000180 d a m t) [] s fun e s => reduceV e s 3 d a m t

/-- VRED_OR (R204). -/
def execVredOr (d a : BitVec 6) (m : BitVec 3) (t : BitVec 4) (s : State) : Host.Outcome State Fault Refusal :=
  issueI (encDAMT 0x9C000200 d a m t) [] s fun e s => reduceV e s 4 d a m t

/-- VRED_XOR (R204). -/
def execVredXor (d a : BitVec 6) (m : BitVec 3) (t : BitVec 4) (s : State) : Host.Outcome State Fault Refusal :=
  issueI (encDAMT 0x9C000280 d a m t) [] s fun e s => reduceV e s 5 d a m t

/-- The exact sum of the active elements. -/
def sumElems (t : BitVec 4) (l : List (Option Nat)) : Int := (l.map fun x => match x with | some v => intElem t v | none => 0).sum

/-- `vred.sumw` (R204): the low 64 bits of the exact sum in lanes 0 and 1. -/
def sumWide (e : Env) (s : State) (d a : BitVec 6) (m : BitVec 3) (t : BitVec 4) : Res :=
  let on := maskBit e.rd.a m.toNat
  kVec e s [d.toNat, a.toNat] [a.toNat] fun vs s =>
    let x := elems t (nth [] vs 0)
    let v : Elem := if (activePsn on 0 x x).isSome then (0, true) else (lowBits 64 (sumElems t (activeData on 0 x)), false)
    storeE e s d.toNat 64 (firstOnly 32 v) fun s => .done s

/-- VRED_SUMW (R204). -/
def execVredSumw (d a : BitVec 6) (m : BitVec 3) (t : BitVec 4) (s : State) : Host.Outcome State Fault Refusal :=
  issueI (encDAMT 0x9C000300 d a m t) [] s fun e s => sumWide e s d a m t

/-- A scan in ascending index (R205): the running value and whether poison has been seen. -/
def scanElems (on : Nat → Bool) (p : Elem) (op : Nat → Nat → Nat × Flg) :
    Nat → Option Nat → Bool → List Elem → List (Option Elem) × Flg
  | _, _, _, [] => ([], {})
  | i, acc, psn, x :: r =>
    if !on i then let t := scanElems on p op (i + 1) acc psn r; (none :: t.1, t.2)
    else
      let bad := psn || x.2
      let y := match acc with | none => (x.1, ({} : Flg)) | some v => op v x.1
      let t := scanElems on p op (i + 1) (some y.1) bad r
      (some (if bad then p else (y.1, false)) :: t.1, if bad then t.2 else y.2.or t.2)

/-- A scan. -/
def scanV (e : Env) (s : State) (code : Nat) (d a : BitVec 6) (m : BitVec 3) (t : BitVec 4) : Res :=
  kVec e s [d.toNat, a.toNat] [a.toNat] fun vs s =>
    finishV e s d t (scanElems (maskBit e.rd.a m.toNat) (poisonElem t) (redOp t (frmMode e.rd.a) code) 0 none false (elems t (nth [] vs 0)))

/-- VSCAN_SUM (R205). -/
def execVscanSum (d a : BitVec 6) (m : BitVec 3) (t : BitVec 4) (s : State) : Host.Outcome State Fault Refusal :=
  issueI (encDAMT 0x9C000400 d a m t) [] s fun e s => scanV e s 0 d a m t

/-- VSCAN_MIN (R205). -/
def execVscanMin (d a : BitVec 6) (m : BitVec 3) (t : BitVec 4) (s : State) : Host.Outcome State Fault Refusal :=
  issueI (encDAMT 0x9C000480 d a m t) [] s fun e s => scanV e s 1 d a m t

/-- VSCAN_MAX (R205). -/
def execVscanMax (d a : BitVec 6) (m : BitVec 3) (t : BitVec 4) (s : State) : Host.Outcome State Fault Refusal :=
  issueI (encDAMT 0x9C000500 d a m t) [] s fun e s => scanV e s 2 d a m t

/-! ## Masks (R206) -/

/-- A mask register as the word reads it. -/
def maskVal (a : Arch) (n : BitVec 6) : BitVec 256 := if n = 0 then BitVec.allOnes 256 else vget a.masks 0 n.toNat

/-- A logical operation on masks. -/
def maskLogic (e : Env) (s : State) (d a b : BitVec 6) (f : BitVec 256 → BitVec 256 → BitVec 256) : Res :=
  .done (setMask s e.ci d.toNat (f (maskVal e.rd.a a) (maskVal e.rd.a b)))

/-- MAND (R206). -/
def execMand (d a b : BitVec 6) (s : State) : Host.Outcome State Fault Refusal :=
  issueI (encDAB 0x9E000000 d a b) [] s fun e s => maskLogic e s d a b fun x y => x &&& y

/-- MOR (R206). -/
def execMor (d a b : BitVec 6) (s : State) : Host.Outcome State Fault Refusal :=
  issueI (encDAB 0x9E000010 d a b) [] s fun e s => maskLogic e s d a b fun x y => x ||| y

/-- MXOR (R206). -/
def execMxor (d a b : BitVec 6) (s : State) : Host.Outcome State Fault Refusal :=
  issueI (encDAB 0x9E000020 d a b) [] s fun e s => maskLogic e s d a b fun x y => x ^^^ y

/-- MANDN (R206). -/
def execMandn (d a b : BitVec 6) (s : State) : Host.Outcome State Fault Refusal :=
  issueI (encDAB 0x9E000030 d a b) [] s fun e s => maskLogic e s d a b fun x y => x &&& ~~~y

/-- MLEN (R206). -/
def execMlen (d a : BitVec 6) (s : State) : Host.Outcome State Fault Refusal :=
  issueI (encDA 0x9E000040 d a) [] s fun e s =>
    consume e [(a, 4)] (.done (setMask s e.ci d.toNat (BitVec.ofNat 256 (2 ^ min (e.x a).val.toNat 256 - 1))))

/-- MPOPC (R206). -/
def execMpopc (d a : BitVec 6) (s : State) : Host.Outcome State Fault Refusal :=
  issueI (encDA 0x9E000050 d a) [d] s fun e s => .done (setX e s d (BitVec.ofNat 64 (countOnes (maskVal e.rd.a a).toNat 256)) false)

/-- The index of the lowest set bit from bit `i` on, among `n` bits; 256 if none. -/
def lowestSet (v : BitVec 256) : Nat → Nat → Nat
  | _, 0 => 256
  | i, n + 1 => if bitOf v i then i else lowestSet v (i + 1) n

/-- MFIRST (R206). -/
def execMfirst (d a : BitVec 6) (s : State) : Host.Outcome State Fault Refusal :=
  issueI (encDA 0x9E000060 d a) [d] s fun e s => .done (setX e s d (BitVec.ofNat 64 (lowestSet (maskVal e.rd.a a) 0 256)) false)

/-- MTOV (R206). -/
def execMtov (d a : BitVec 6) (s : State) : Host.Outcome State Fault Refusal :=
  issueI (encDA 0x9E000070 d a) [] s fun e s =>
    let v := (maskVal e.rd.a a).toNat
    kVec e s [d.toNat] [] fun _ s =>
      storeE e s d.toNat 32 ((List.range 64).map fun j => some (if j < 8 then v / 2 ^ (32 * j) % 2 ^ 32 else 0, false)) fun s => .done s

/-! ## Scalars into and out of vectors (R207, R208) -/

/-- VSPLAT (R207). -/
def execVsplat (d a : BitVec 6) (m : BitVec 3) (t : BitVec 4) (s : State) : Host.Outcome State Fault Refusal :=
  issueI (encDAMT 0xA0000000 d a m t) [] s fun e s =>
    kVec e s [d.toNat] [] fun _ s =>
      finishV e s d t
        (copyElems (maskBit e.rd.a m.toNat) 0 (List.replicate (elemCount t) ((e.x a).val.toNat % 2 ^ typeWidth t, (e.x a).psn)), {})

/-- `vext`: one element to a scalar register. -/
def extractV (e : Env) (s : State) (d a b : BitVec 6) (t : BitVec 4) : Res :=
  kVec e s [a.toNat] [a.toNat] fun vs s =>
    consume e [(b, 4)]
      (let x := nth (0, false) (rawElems t (nth [] vs 0)) ((e.x b).val.toNat % elemCount t)
       .done (setX e s d (if typeSigned t then sext64 (typeWidth t) x.1 else BitVec.ofNat 64 x.1) x.2))

/-- VEXT (R208). -/
def execVext (d a b : BitVec 6) (t : BitVec 4) (s : State) : Host.Outcome State Fault Refusal :=
  issueI (encDABT 0xA2000000 d a b t) [d] s fun e s => extractV e s d a b t

/-- The list of `n` places with one element written. -/
def onePlace (n k : Nat) (x : Elem) : List (Option Elem) := (List.range n).map fun i => if i = k then some x else none

/-- `vins`: a scalar register into one element. -/
def insertV (e : Env) (s : State) (d a b : BitVec 6) (t : BitVec 4) : Res :=
  match portOf e.rd d.toNat with
  | some q => portMisused e s q
  | none =>
    kVec e s [d.toNat] [] fun _ s =>
      consume e [(b, 4)]
        (finishV e s d t
          (onePlace (elemCount t) ((e.x b).val.toNat % elemCount t) ((e.x a).val.toNat % 2 ^ typeWidth t, (e.x a).psn), {}))

/-- VINS (R208). -/
def execVins (d a b : BitVec 6) (t : BitVec 4) (s : State) : Host.Outcome State Fault Refusal :=
  issueI (encDABT 0xA2000010 d a b t) [] s fun e s => insertV e s d a b t

/-! ## Views (R64) -/

/-- VVIEW (R64). -/
def execVview (x : BitVec 6) (tk : Tk) (s : State) : Host.Outcome State Fault Refusal :=
  issueE (encXTk 0xAE000000 x tk) [] tk s fun e s => consume e [(x, 4)] (.done (modArch s e.ci fun a => putVview a (e.x x).val))

/-- AVIEW (R64). -/
def execAview (x : BitVec 6) (tk : Tk) (s : State) : Host.Outcome State Fault Refusal :=
  issueE (encXTk 0xAE000100 x tk) [] tk s fun e s => consume e [(x, 4)] (.done (modArch s e.ci fun a => putAview a (e.x x).val))

end Sys2Proof.Machine
end

