-- ==== Sys2Proof/Machine/Matrix.lean ====
section
/-! DEFINITION. Tiles (R214 to R218), the matrix engine with its fetcher, nests, drains and faults (R219 to R231), the tile walker (R232 to
R234) and the Vigil checks (R275, R276). -/

namespace Sys2Proof.Machine

/-! ## Tile elements (R84 to R88, R212) -/

/-- `w` bits from bit `i` of a line at offset `o`, and whether a word they lie in is marked. -/
def lineBits (c : Core) (o i w : Nat) : Nat × Bool :=
  let b := o + i / 8
  let n := (i % 8 + w + 7) / 8
  (scrNat c b n / 2 ^ (i % 8) % 2 ^ w, scrMarked c b n)

/-- An element of a tile that is stored by rows. -/
def tileBits (c : Core) (d : BitVec 256) (i j : Nat) : Nat × Bool :=
  let w := tWidth (tType d)
  lineBits c (tBase d + i * tPitch d) (j * w) w

/-- An integer as a value. -/
def intV (i : Int) : Fv := .fin (decide (i < 0)) i.natAbs 0

/-- A matrix operand of a type as a value, and whether its encoding is poison: FP4 and FP6 widen exactly. -/
def operandV (t v : Nat) : Fv × Bool :=
  if t = 0 then (intV (sintOf 8 v), false)
  else if t = 1 then (intV v, false)
  else match typeFmt (BitVec.ofNat 4 t) with
    | none => (.nan false, false)
    | some f => (decodeF f v, f.poison == v && t != 13 && t != 14)

/-- The QN4 codebook in BF16 (R86). -/
def qnCodes : List Nat :=
  [0xBF80, 0xBF80, 0xBF58, 0xBF32, 0xBF08, 0xBEC4, 0xBE78, 0xBDF0, 0x0000, 0x3DF0, 0x3E78, 0x3EC4, 0x3F08, 0x3F32, 0x3F58, 0x3F80]

/-- The expansion of a QN4 code under its scale code and super-scale (R87). -/
def qnValue (n c sc : Nat) : Nat :=
  match decodeF fF32 sc, decodeF fBF16 (nth 0 qnCodes n) with
  | .inf g, .fin h m _ => if m * c = 0 then fBF16.cnan else (infF fBF16 (g != h)).1
  | .fin g m x, .fin h k y =>
    let p := m * k * c * 2 ^ 24
    (roundF fBF16 .rne (g != h) (p / 255) (p % 255 != 0) (x + y - 24)).1
  | _, _ => fBF16.cnan

/-- The expansion of an INT4G code under its scale and zero point (R88). -/
def intgValue (q z sc : Nat) : Nat :=
  let k : Int := (q : Int) - z
  match decodeF fBF16 sc with
  | .nan _ => fBF16.cnan
  | .inf g => if q = z then fBF16.cnan else (infF fBF16 (g != decide (k < 0))).1
  | .fin g m x => (roundF fBF16 .rne (g != decide (k < 0)) (m * k.natAbs) false x).1

/-- An element of a QN4 or INT4G tile as its BF16 expansion. -/
def quantBits (c : Core) (d : BitVec 256) (i j : Nat) : Nat × Bool :=
  let g := (j * tRows d + i) / 64
  let n := lineBits c (tBase d + j * tPitch d) (4 * i) 4
  if tType d = 16 then
    let k := lineBits c (tAux1 d + g) 0 8
    let sc := lineBits c (tAux2 d + 4 * (g / 256)) 0 32
    if n.2 || k.2 || sc.2 || sc.1 == fF32.poison then (fBF16.poison, true) else (qnValue n.1 k.1 sc.1, false)
  else
    let sc := lineBits c (tAux1 d + 2 * g) 0 16
    let z := lineBits c (tAux2 d) (4 * g) 4
    if n.2 || sc.2 || z.2 || sc.1 == fBF16.poison then (fBF16.poison, true) else (intgValue n.1 z.1 sc.1, false)

/-- Element (i, j) of a tile as an operand of the matrix array, and whether it is poison. -/
def tileV (c : Core) (d : BitVec 256) (i j : Nat) : Fv × Bool :=
  if tQuant d then let x := quantBits c d i j; ((operandV 9 x.1).1, x.2)
  else
    let x := tileBits c d i j
    let v := operandV (tType d) x.1
    (v.1, v.2 || x.2)

/-! ## Accumulators (R89, R210) -/

/-- The accumulator and column of column `j` of a product into accumulator `n`. -/
def accCol (n j : Nat) : Nat × Nat := if j < 32 then (n, j) else ((n + 1) % 8, j - 32)

/-- The 128 bits of element (i, j) of the product in accumulator `n`. -/
def accRaw (c : Core) (ab : BitVec 7) (n i j : Nat) : Nat :=
  let x := accCol n j
  let l := aLane ab x.1 i x.2
  (ostLane c l).data.toNat + 2 ^ 32 * (ostLane c (l + 1)).data.toNat + 2 ^ 64 * (ostLane c (l + 2)).data.toNat +
    2 ^ 96 * (ostLane c (l + 3)).data.toNat

/-- The core with an element of the product written: the side bits of its four lanes are cleared, and `accRaw` reads none (log 55). -/
def putAcc (c : Core) (ab : BitVec 7) (n i j v : Nat) : Core :=
  let x := accCol n j
  putLanes c (aLane ab x.1 i x.2) ((List.range 4).map fun k => { data := BitVec.ofNat 32 (v / 2 ^ (32 * k)), psn := false })

/-- Every element of an accumulator set to +0 (R228). -/
def zeroAcc (c : Core) (ab : BitVec 7) (n : Nat) : Core :=
  (List.range 64).foldl (fun c i => (List.range 32).foldl (fun c j => putAcc c ab n i j 0) c) c

/-- Value `k` of a step accumulated into every element (R91). -/
def accumulate (c : Core) (ab : BitVec 7) (n : Nat) (da db : BitVec 256) (k : Nat) : Core :=
  (List.range (tRows da)).foldl (fun c i =>
    let a := tileV c da i k
    (List.range (tCols db)).foldl (fun c j =>
      let b := tileV c db k j
      putAcc c ab n i j (accBits (accStep (accOf (accRaw c ab n i j)) a.1 b.1 (a.2 || b.2)))) c) c

/-! ## Nest tables (R225, R226) -/

/-- A field of a dword of a nest table. -/
def nestField (t : List Word) (q lo n : Nat) : Nat := fieldOf (nth 0 t q) lo n

/-- CNT of a level. -/
def nestCnt (t : List Word) (l : Nat) : Nat := nestField t (2 + 2 * l) 0 13
/-- DA of a level. -/
def nestDa (t : List Word) (l : Nat) : Int := sintOf 10 (nestField t (2 + 2 * l) 32 10)
/-- DB of a level. -/
def nestDb (t : List Word) (l : Nat) : Int := sintOf 10 (nestField t (2 + 2 * l) 42 10)
/-- DC of a level. -/
def nestDc (t : List Word) (l : Nat) : Int := sintOf 10 (nestField t (2 + 2 * l) 52 10)
/-- DACC of a level. -/
def nestDacc (t : List Word) (l : Nat) : Nat := nestField t (3 + 2 * l) 0 3
/-- NL. -/
def nestNl (t : List Word) : Nat := nestField t 0 30 3
/-- KL. -/
def nestKl (t : List Word) : Nat := nestField t 0 33 3
/-- ZERO. -/
def nestZero (t : List Word) : Bool := nestField t 0 36 1 == 1
/-- DRAIN. -/
def nestDrain (t : List Word) : Bool := nestField t 0 37 1 == 1

/-- The number of steps of a nest. -/
def nestSteps (t : List Word) : Nat := (List.range (nestNl t)).foldl (fun p l => p * nestCnt t l) 1

/-- Whether a handle whose first value is `b` and whose level steps are `d` stays within 0 to 511. -/
def extremesOk (t : List Word) (b : Nat) (d : Nat → Int) : Bool :=
  let lo := (List.range (nestNl t)).foldl (fun s l => s + min 0 (((nestCnt t l : Int) - 1) * d l)) (b : Int)
  let hi := (List.range (nestNl t)).foldl (fun s l => s + max 0 (((nestCnt t l : Int) - 1) * d l)) (b : Int)
  decide (0 ≤ lo) && decide (hi ≤ 511)

/-- Whether a level of a nest table is malformed. -/
def levelBad (t : List Word) (l : Nat) : Bool :=
  let lo := nth 0 t (2 + 2 * l)
  let hi := nth 0 t (3 + 2 * l)
  if nestNl t ≤ l then lo != 0 || hi != 0
  else fieldOf hi 3 61 != 0 || fieldOf lo 62 2 != 0 || fieldOf lo 13 19 != 0 || nestCnt t l == 0 || decide (4096 < nestCnt t l) ||
    (decide (l < nestKl t) && (nestDc t l != 0 || nestDacc t l != 0))

/-- Whether a nest table is malformed. -/
def nestBad (t : List Word) : Bool :=
  let h := nth 0 t 0
  fieldOf h 42 22 != 0 || nth 0 t 1 != 0 || nth 0 t 14 != 0 || nth 0 t 15 != 0 || nestNl t == 0 || nestNl t == 7 ||
  decide (nestNl t < nestKl t) || fieldOf h 38 3 == 5 || fieldOf h 38 3 == 6 || (List.range 6).any (levelBad t) ||
  decide (2 ^ 32 < nestSteps t) || !extremesOk t (fieldOf h 0 9) (nestDa t) || !extremesOk t (fieldOf h 9 9) (nestDb t) ||
  !extremesOk t (fieldOf h 18 9) (nestDc t)

/-- One step of a nest: its handles, accumulator and drain handle, and whether it is the first or last of its group. -/
structure NestStep where
  ha : Nat
  hb : Nat
  acc : Nat
  hc : Nat
  first : Bool
  last : Bool

/-- The indices of step `s`, level 0 fastest, for `n` levels from level `l` on. -/
def nestIdx (t : List Word) : Nat → Nat → Nat → List Nat
  | 0, _, _ => []
  | n + 1, l, s => s % nestCnt t l :: nestIdx t n (l + 1) (s / nestCnt t l)

/-- Step `s` of a nest. -/
def nestStep (t : List Word) (s : Nat) : NestStep :=
  let h := nth 0 t 0
  let ix := (nestIdx t (nestNl t) 0 s).zipIdx
  let outer := ix.filter fun x => decide (nestKl t ≤ x.2)
  let inner := ix.filter fun x => decide (x.2 < nestKl t)
  let at_ := fun (b : Nat) (d : Nat → Int) (l : List (Nat × Nat)) => (l.foldl (fun v x => v + (x.1 : Int) * d x.2) (b : Int)).toNat
  { ha := at_ (fieldOf h 0 9) (nestDa t) ix, hb := at_ (fieldOf h 9 9) (nestDb t) ix,
    acc := outer.foldl (fun v x => v + x.1 * nestDacc t x.2) (fieldOf h 27 3) % 8, hc := at_ (fieldOf h 18 9) (nestDc t) outer,
    first := inner.all fun x => x.1 == 0, last := inner.all fun x => x.1 + 1 == nestCnt t x.2 }

/-- The handles that the levels of a nest can form from those of a list. -/
def reachLevels (t : List Word) (d : Nat → Int) : Nat → Nat → List Int → List Int
  | 0, _, l => l
  | n + 1, v, l =>
    reachLevels t d n (v + 1) (if d v = 0 then l else (l.flatMap fun x => (List.range (nestCnt t v)).map fun (i : Nat) => x + i * d v).eraseDups)

/-- Whether a queued matrix operation names a handle (R215). -/
def opNames (x : MxOp) (h : Nat) : Bool :=
  match x.kind with
  | .zero _ => false
  | .drain _ t _ => t == h
  | .mma _ a b => a == h || b == h
  | .nest t _ =>
    let f := fun (b : Nat) d => (reachLevels t d (nestNl t) 0 [(b : Int)]).contains (h : Int)
    f (nestField t 0 0 9) (nestDa t) || f (nestField t 0 9 9) (nestDb t) || (nestDrain t && f (nestField t 0 18 9) (nestDc t))

/-! ## Tile instructions (R215, R218) -/

/-- H and N of a walk's control word (R232). -/
def walkRange (v : Word) : Nat × Nat := (fieldOf v 0 9, fieldOf v 9 10)

/-- A field of the header of a method table (R279). -/
def methField (m : List Word) (lo n : Nat) : Nat := fieldOf (nth 0 m 0) lo n

/-- The handles of a slot that its method uses (R282): TX, TRB, TY and the derivatives. -/
def almHandles (m : List Word) (y : AlmSlot) : List Nat :=
  [y.tx, y.trb, y.ty] ++
    if methField m 3 1 = 1 then y.th.take (methField m 8 2) else y.tk.take (methField m 0 3)

/-- Whether a slot is live (R283). -/
def almLive (y : AlmSlot) : Bool :=
  match y.st with
  | .run | .accepted | .rejected => true
  | _ => false

/-- Whether a queued Almanac step names a handle: that of a live slot of its range (R284). -/
def almNames (c : Core) (x : AlmOp) (h : Nat) : Bool :=
  (List.range x.count).any fun k =>
    let y := Sparse.get AlmSlot.zero c.a.alm (x.first + k)
    almLive y && match vget c.a.methods none y.meth with
      | some m => (almHandles m y).contains h
      | none => false

/-- Whether an engine operation that waits or runs names a handle, so that it may not be redefined (R215, R284). -/
def handleBusy (c : Core) (h : Nat) : Bool :=
  c.mxq.any (fun x => opNames x h) ||
  (match c.walk with
   | none => false
   | some w => decide ((walkRange w.ctrl).1 ≤ h) && decide (h < (walkRange w.ctrl).1 + (walkRange w.ctrl).2)) ||
  c.almq.any fun x => almNames c x h

/-- The meaning of an instruction on the handle in x(y). -/
def onHandle (e : Env) (y : BitVec 6) (k : Nat → Res) : Res :=
  let v := (e.x y).val
  consume e [(y, 4)] (if 512 ≤ v.toNat then .raise (tileTrap 0 v) else k v.toNat)

/-- As `onHandle`, for a handle that must be defined. -/
def onTile (e : Env) (y : BitVec 6) (k : Nat → Tile → Res) : Res :=
  onHandle e y fun h => let t := tileOf e.rd.a h; if t.v then k h t else .raise (tileTrap 2 (e.x y).val)

/-- A change of a tile that waits for its state, and for the operations that name it (R215). -/
def redefine (e : Env) (s : State) (h : Nat) (f : Arch → Arch) : Res :=
  let c := getCore s e.ci
  match (tileOf e.rd.a h).st with
  | .filling => .stall
  | .draining => if ownCopy e.rd h then .raise (tileTrap 3 (BitVec.ofNat 64 h)) else .stall
  | _ => if handleBusy c h then .stall else .done (modArch s e.ci f)

/-- The offset of the lowest marked word among the `n` bytes at an offset. R235 puts POISON_CONSUMED before MISALIGN and ILLEGAL_ADDR. -/
def markedWord (c : Core) (o : Word) (n : Nat) : Option Nat := firstMarked c (o.toNat / 4) ((o.toNat + n + 3) / 4 - o.toNat / 4)

/-- TDEF (R218). -/
def execTdef (x y : BitVec 6) (tk : Tk) (s : State) : Host.Outcome State Fault Refusal :=
  issueE (encXYTk 0xAA000000 x y tk) [] tk s fun e s =>
    let o := (e.x x).val
    let v := (e.x y).val
    let c := getCore s e.ci
    consume e [(y, 4), (x, 0)]
      (match markedWord c o 32 with
      | some m => raise 0x20 3 (BitVec.ofNat 64 m)
      | none =>
        if o.toNat % 32 ≠ 0 then raise 0x14 0 o
        else match localFault e.rd.a o 32 with
          | some t => raise 0x10 0 t
          | none =>
            let d := scrDesc c o.toNat
            if 512 ≤ v.toNat then .raise (tileTrap 0 v)
            else if tMalformed e.rd.a d || (tQuant d && !fenBit s (partOf e.rd) 1) then .raise (tileTrap 1 v)
            else redefine e s v.toNat fun a => putTile a v.toNat { desc := d, v := true, st := .empty })

/-- TVALID (R218). -/
def execTvalid (y : BitVec 6) (tk : Tk) (s : State) : Host.Outcome State Fault Refusal :=
  issueE (encYTk 0xAA000100 y tk) [] tk s fun e s =>
    onTile e y fun h t =>
      match t.st with
      | .empty => .done (modArch s e.ci fun a => setTileSt a h .ready)
      | .ready => .done s
      | _ => .raise (tileTrap 3 (e.x y).val)

/-- TINVAL (R218). -/
def execTinval (y : BitVec 6) (tk : Tk) (s : State) : Host.Outcome State Fault Refusal :=
  issueE (encYTk 0xAA000200 y tk) [] tk s fun e s =>
    onTile e y fun h _ => redefine e s h fun a => setTileSt a h .empty

/-- The code of a tile state (R214). -/
def tileCode : TileSt → Nat
  | .empty => 0 | .filling => 1 | .ready => 2 | .draining => 3

/-- What `tstat` reads (R218). -/
def tileWord (t : Tile) : Word :=
  BitVec.ofNat 64 (tileCode t.st + 4 * b2n t.v + 8 * b2n (tFetch t.desc) + 2 ^ 4 * tType t.desc + 2 ^ 9 * fieldOf t.desc 32 12 +
    2 ^ 21 * fieldOf t.desc 44 12)

/-- TSTAT (R218). -/
def execTstat (x y : BitVec 6) (tk : Tk) (s : State) : Host.Outcome State Fault Refusal :=
  issueE (encXYTk 0xAA000300 x y tk) [x] tk s fun e s => onHandle e y fun h => .done (setX e s x (tileWord (tileOf e.rd.a h)) false)

/-- TWAIT (R218). -/
def execTwait (y : BitVec 6) (tk : Tk) (s : State) : Host.Outcome State Fault Refusal :=
  issueE (encYTk 0xAA000400 y tk) [] tk s fun e s =>
    onTile e y fun h t =>
      if t.st = .ready then .done s
      else if t.st = .draining ∧ ownCopy e.rd h then .raise (tileTrap 3 (e.x y).val) else .stall

/-! ## The matrix queue (R219 to R222, R226) -/

/-- The code of the rounding mode in force for an instruction field (R93): FRM is read at issue. -/
def modeCode (a : Arch) (m : BitVec 3) : BitVec 3 := if m = 7 then a.frm else m

/-- An operation entered in the matrix queue, while it has room (R220). -/
def enterMx (e : Env) (s : State) (k : MxKind) (m : BitVec 3) : State :=
  modCore s e.ci fun c => { c with mxq := c.mxq ++
    [{ kind := k, abase := e.rd.a.abase, mode := m, push := e.pout, step := 0, row := 0, group := none, begun := false, drains := false,
       flags := 0, cols := [], rows := [] }] }

/-- A queued operation's issue: it holds while the queue is full. -/
def withRoom (e : Env) (s : State) (r : Res) : Res := if 4 ≤ (getCore s e.ci).mxq.length then .stall else r

/-- The sixteen dwords of a nest table. -/
def nestTable (c : Core) (o : Nat) : List Word := (List.range 16).map fun q => BitVec.ofNat 64 (scrNat c (o + 8 * q) 8)

/-- MXNEST (R226). -/
def execMxnest (y : BitVec 6) (tk : Tk) (s : State) : Host.Outcome State Fault Refusal :=
  issueE (encYTk 0xA8000000 y tk) [] tk s fun e s =>
    let o := (e.x y).val
    let c := getCore s e.ci
    withRoom e s (consume e [(y, 0)]
      (match markedWord c o 128 with
      | some m => raise 0x20 3 (BitVec.ofNat 64 m)
      | none =>
        if o.toNat % 16 ≠ 0 then raise 0x14 0 o
        else match localFault e.rd.a o 128 with
          | some t => raise 0x10 0 t
          | none =>
            let t := nestTable c o.toNat
            if nestBad t then .raise (tileTrap 5 o)
            else .later (enterMx e s (.nest t o.toNat) (modeCode e.rd.a (BitVec.ofNat 3 (nestField t 0 38 3))))))

/-- GO set in the oldest armed nest (R221). -/
def setGo : List MxOp → List MxOp
  | [] => []
  | x :: r =>
    match x.kind with
    | .nest (h :: t) o => if isArmed x then { x with kind := .nest ((h ||| BitVec.ofNat 64 (2 ^ 41)) :: t) o } :: r else x :: setGo r
    | _ => x :: setGo r

/-- MXGO (R221). -/
def execMxgo (tk : Tk) (s : State) : Host.Outcome State Fault Refusal :=
  issueE (encTk 0xA8000100 tk) [] tk s fun e s => .done (modCore s e.ci fun c => { c with mxq := setGo c.mxq })

/-- MXWAIT (R221). -/
def execMxwait (tk : Tk) (s : State) : Host.Outcome State Fault Refusal :=
  issueE (encTk 0xA8000200 tk) [] tk s fun e s => if (getCore s e.ci).mxq.isEmpty then .done s else .stall

/-- What `mxstat` reads (R221). -/
def mxWord (c : Core) : Word :=
  BitVec.ofNat 64 (c.mxq.length + 8 * b2n (c.mxq.head?.any isArmed) + 16 * b2n (bitOf c.mxrow 63))

/-- MXSTAT (R221). -/
def execMxstat (x : BitVec 6) (tk : Tk) (s : State) : Host.Outcome State Fault Refusal :=
  issueE (encXTk 0xA8000300 x tk) [x] tk s fun e s => .done (setX e s x (mxWord (getCore s e.ci)) false)

/-- MXDRAIN (R228). -/
def execMxdrain (x y : BitVec 6) (m : BitVec 3) (tk : Tk) (s : State) : Host.Outcome State Fault Refusal :=
  issueE (encXYMTk 0xA8000800 x y m tk) [] tk s fun e s =>
    withRoom e s (onHandle e y fun h => .later (enterMx e s (.drain x.toNat h (modeCode e.rd.a m)) (modeCode e.rd.a m)))

/-- MXZERO (R228). -/
def execMxzero (x : BitVec 6) (tk : Tk) (s : State) : Host.Outcome State Fault Refusal :=
  issueE (encXTk 0xA8001000 x tk) [] tk s fun e s => withRoom e s (.later (enterMx e s (.zero x.toNat) 0))

/-- MXMMA (R223). -/
def execMxmma (x y : BitVec 6) (n : BitVec 3) (tk : Tk) (s : State) : Host.Outcome State Fault Refusal :=
  issueE (encXYNTk 0xA8001800 x y n tk) [] tk s fun e s =>
    let a := (e.x x).val
    let b := (e.x y).val
    withRoom e s (consume e [(x, 4), (y, 4)]
      (if 512 ≤ a.toNat then .raise (tileTrap 0 a)
      else if 512 ≤ b.toNat then .raise (tileTrap 0 b)
      else .later (enterMx e s (.mma n.toNat a.toNat b.toNat) 0)))

/-! ## The operand fetcher (R224) -/

/-- The copy of the operand fetcher that fills a tile. -/
def fetchCopy (c : Core) (h : Nat) : Copy :=
  let d := (tileOf c.a h).desc
  let (rows, rb, lp, gp) := tImage d (tGpitch d)
  { id := c.nextCopy, outb := false, rows := rows, rowBytes := rb, off := tBase d, gaddr := BitVec.ofNat 64 (tGaddr d), lpitch := lp,
    gpitch := gp, hurdle := none, tile := some h, fetcher := true, slot := none, push := none, homes := 0, done := 0, made := 0, entry := 0,
    open_ := true, fault := none }

/-- The fetcher raises its copy of an EMPTY tile with FETCH, while fewer than 16 copies are queued (R240): the tile turns FILLING. -/
def raiseFetch (c : Core) (h : Nat) : Core :=
  let t := tileOf c.a h
  if t.v && tFetch t.desc && t.st == .empty && !tOver c.a t.desc && decide (c.copies.length < 16) then
    noteTag (queueCopy { c with a := setTileSt c.a h .filling } (fetchCopy c h)) (BitVec.ofNat 64 (tGaddr t.desc))
  else c

/-- The inbound copy that fills a tile. -/
def filling (c : Core) (h : Nat) : Option Copy := c.copies.find? fun x => !x.outb && x.tile == some h

/-- What stopped the fetch of a tile. -/
def fetchFault (c : Core) (h : Nat) : Option Trap := match filling c h with | some x => x.fault | none => none

/-- Whether a tile's bytes may be read. -/
def tileReadable (t : Tile) : Bool := t.st == .ready || t.st == .draining

/-- A fault of an engine with DETAIL[6], as K takes it (R217, R230). -/
def engineTrap (t : Trap) : Trap := { t with detail := t.detail % 64 + 64 }

/-- The core with a trap for K at its first instruction that has not completed. -/
def addEngTrap (c : Core) (t : Trap) : Core := { c with engTraps := c.engTraps ++ [{ cl := .k, trap := engineTrap t }] }

/-- Whether an earlier copy of the fetcher still moves: copies are fetched in the order in which they were raised. -/
def fetchBlocked (c : Core) (x : Copy) : Bool := c.copies.any fun y => y.fetcher && y.fault.isNone && decide (y.id < x.id)

/-- The next piece of the fetcher's copy of a tile; a fault stops the copy until a step needs it. -/
def fetchPiece (s : State) (ci h : Nat) : State :=
  let c := getCore s ci
  match (if enginesRun c then filling c h else none) with
  | none => s
  | some x =>
    if !x.fetcher || x.fault.isSome || fetchBlocked c x then s
    else match movePieceIn s ci x with
      | .fault t => modCore s ci fun c => putCopy c { x with fault := some t }
      | .retry => unpin s ci
      | .ok s' b => modCore s' ci fun c => finishIfDone (copyMoved c { x with ahead := b } (pieceOf x).2.2) x.id

/-- FETCHER_COPY (R224). -/
def execFetcherCopy (core h : Nat) (s : State) : Host.Outcome State Fault Refusal :=
  if 72 ≤ core then .fault .noSuchAgent else .next (fetchPiece s core h)

/-- The bytes of a line of a copy of the fetcher: a row, or of a QN4 or INT4G image, whose lines follow each other, one of its lines (R212). -/
def copyLine (c : Core) (x : Copy) : Nat :=
  match x.tile with
  | some h => let d := (tileOf c.a h).desc; if tQuant d then tPitch d else x.rowBytes
  | none => x.rowBytes

/-- A copy that has stopped on a fault fetches from the line that failed (R230). -/
def refetch (c : Core) (x : Copy) : Copy :=
  match x.fault with
  | none => x
  | some _ =>
    let d := x.done / copyLine c x * copyLine c x
    { x with fault := none, done := d, ahead := if d = x.done then x.ahead else [] }

/-- The engines go on once a handler has returned (R230): VALID is cleared, the walk and the copies that stopped are tried again. -/
def resumeEngines (c : Core) : Core :=
  { c with mxrow := c.mxrow &&& (2 ^ 63 - 1 : BitVec 64), walk := c.walk.map fun w => { w with stopped := false },
           copies := c.copies.map (refetch c),
           almq := c.almq.map fun (x : AlmOp) => { x with stopped := false } }

/-! ## Classes and checks of a step (R210, R217, R223, R390) -/

/-- FP4, FP6 and the 8-bit float types. -/
def isFloat8 (t : Nat) : Bool := decide (11 ≤ t) && decide (t ≤ 14)

/-- FP16 and BF16. -/
def isFloat16 (t : Nat) : Bool := t == 8 || t == 9

/-- The 8-bit integer types. -/
def isInt8 (t : Nat) : Bool := decide (t ≤ 1)

/-- The greatest NB of the class of two operand types, none where they do not combine. -/
def classNb (a b : Nat) : Option Nat :=
  if (isInt8 a && isInt8 b) || (isFloat8 a && isFloat8 b) then some 64
  else if (isFloat16 a && (isFloat16 b || isFloat8 b || b == 16 || b == 17)) || (isFloat8 a && (isFloat16 b || b == 16 || b == 17)) then some 32
  else none

/-- The handle that a class or shape check of a step names, none if the step may run; `mx8` says that the 8-bit classes are enabled: where FEN masks
them, B is named (log 53). -/
def shapeFault (ha hb : Nat) (da db : BitVec 256) (group : Option (Nat × Nat)) (mx8 : Bool) : Option Nat :=
  if !(isFloat8 (tType da) || isFloat16 (tType da) || isInt8 (tType da)) ∨ 64 < tRows da then some ha
  else match classNb (tType da) (tType db) with
    | none => some hb
    | some nb =>
      let off := match group with | some g => g != (tRows da, tCols db) | none => false
      if (nb == 64 && !mx8) || decide (nb < tCols db) || tCols da != tRows db || off then some hb else none

/-- The fault of a tile that a step, a drain or a walk names: undefined, or past PLAIN. -/
def tileUse (a : Arch) (h : Nat) : Option Trap :=
  let t := tileOf a h
  if !t.v then some (tileTrap 2 (BitVec.ofNat 64 h)) else if tOver a t.desc then some (tileTrap 1 (BitVec.ofNat 64 h)) else none

/-! ## The matrix engine (R220, R223, R226 to R230) -/

/-- The head of the matrix queue replaced. -/
def putHead (c : Core) (x : MxOp) : Core := { c with mxq := x :: c.mxq.drop 1 }

/-- Whether an operation is a nest. -/
def MxOp.isNest (x : MxOp) : Bool := match x.kind with | .nest _ _ => true | _ => false

/-- The engine stops with MXROW set, and K takes the trap. SRC is 0 for a TILE_FAULT and for a fault of a drain, which fetch no operand (log 53). -/
def mxStop (c : Core) (x : MxOp) (srcB : Bool) (row : Nat) (t : Trap) : Core :=
  addEngTrap (putHead { c with mxrow := BitVec.ofNat 64 (2 ^ 63 + b2n x.isNest * 2 ^ 62 + b2n srcB * 2 ^ 61 + row * 2 ^ 32 + x.step) } x) t

/-- The head completes: its flags become observable, its push is made. -/
def mxFinish (c : Core) (x : MxOp) : Core :=
  completePush { c with mxq := c.mxq.drop 1, a := { c.a with ustat := c.a.ustat ||| x.flags } } x.push false

/-- The step that an operation is at. -/
def stepOf (x : MxOp) : NestStep :=
  match x.kind with
  | .nest t _ => nestStep t x.step
  | .mma n a b => { ha := a, hb := b, acc := n, hc := 0, first := true, last := true }
  | .drain n h _ => { ha := 0, hb := 0, acc := n, hc := h, first := true, last := true }
  | .zero n => { ha := 0, hb := 0, acc := n, hc := 0, first := true, last := true }

/-- The accumulators of a group set to +0 before its first step, as ZERO asks. -/
def zeroGroup (c : Core) (x : MxOp) (p : NestStep) : Core :=
  match x.kind with
  | .nest t _ =>
    if nestZero t && p.first then
      let b := tileOf c.a p.hb
      let c1 := zeroAcc c x.abase p.acc
      if b.v && decide (32 < tCols b.desc) then zeroAcc c1 x.abase ((p.acc + 1) % 8) else c1
    else c
  | _ => c

/-- The fetcher's copies for a step, and one step ahead. -/
def raiseStep (c : Core) (x : MxOp) (p : NestStep) : Core :=
  let c1 := raiseFetch (raiseFetch c p.ha) p.hb
  match x.kind with
  | .nest t _ =>
    if x.step + 1 < nestSteps t then let q := nestStep t (x.step + 1); raiseFetch (raiseFetch c1 q.ha) q.hb else c1
  | _ => c1

/-- A step that cannot go on yet raises the fetcher's copies that could not be raised before. -/
def mxAwait (s : State) (ci : Nat) (x : MxOp) : State := putCore s ci (raiseStep (getCore s ci) x (stepOf x))

/-! ## The checks of a group (R227) -/

/-- A value as an integer in units of 2^−`k`, none for a value that is no number. -/
def unitInt (k : Nat) (v : Fv) : Option Int :=
  match v with
  | .fin n m x => some ((if n then -1 else 1) * ((m * 2 ^ (x + k).toNat : Nat) : Int))
  | _ => none

/-- A sum with values added, and the magnitudes of them: one that is no number, or poison, keeps it from being compared. -/
def addTerms (x : CheckSum) (l : List (Option Int)) : CheckSum :=
  l.foldl (fun x v =>
    match v with
    | some i => { x with sum := x.sum + i, abs := x.abs + i.natAbs }
    | none => { x with skip := true }) x

/-- The value of an accumulator element in the units of the checks. -/
def accInt (c : Core) (ab : BitVec 7) (n i j : Nat) : Option Int :=
  let a := accOf (accRaw c ab n i j)
  if a.psn then none else unitInt 16512 a.val

/-- A product of two operands in units of 2⁻⁵¹² as one in the units of the checks. -/
def productInt (a b : Option Int) : Option Int :=
  match a, b with
  | some x, some y => some (x * y * (2 : Int) ^ 16000)
  | _, _ => none

/-- An operand in units of 2⁻²⁵⁶, none where it is no number or poison. -/
def operandInt (x : Fv × Bool) : Option Int := if x.2 then none else unitInt 256 x.1

/-- The sums of a group before its first step: those of the elements' start values. -/
def startSums (c : Core) (ab : BitVec 7) (n ra nb : Nat) : List CheckSum × List CheckSum :=
  let z : CheckSum := { sum := 0, abs := 0, skip := false }
  ((List.range nb).map fun j => addTerms z ((List.range ra).map fun i => accInt c ab n i j),
   (List.range ra).map fun i => addTerms z ((List.range nb).map fun j => accInt c ab n i j))

/-- The sums of a group with the products of value `k` of a step: a column's check is (Σᵢ A[i][k]) × B[k][j], a row's A[i][k] × (Σⱼ B[k][j]), as the
sums of their exact products. -/
def stepSums (c : Core) (x : MxOp) (da db : BitVec 256) (k : Nat) : MxOp :=
  let a := (List.range (tRows da)).map fun i => operandInt (tileV c da i k)
  let b := (List.range (tCols db)).map fun j => operandInt (tileV c db k j)
  { x with cols := (x.cols.zip b).map fun y => addTerms y.1 (a.map fun v => productInt v y.2),
           rows := (x.rows.zip a).map fun y => addTerms y.1 (b.map fun v => productInt y.2 v) }

/-- Whether a column or row with the sums `x` and the given end values fails: the end values differ from the sums by more than 2⁻⁴⁰ of the
magnitudes. -/
def sumFails (x : CheckSum) (ends : List (Option Int)) : Bool :=
  let z := addTerms { sum := 0, abs := 0, skip := false } ends
  !x.skip && !z.skip && decide (x.abs + z.abs < 2 ^ 40 * ((z.sum - x.sum).natAbs : Int))

/-- Whether a column or row of a complete group fails its check. -/
def groupFails (c : Core) (x : MxOp) (n : Nat) : Bool :=
  let end_ := fun i j => accInt c x.abase n i j
  (x.cols.zipIdx.any fun y => sumFails y.1 ((List.range x.rows.length).map fun i => end_ i y.2)) ||
  x.rows.zipIdx.any fun y => sumFails y.1 ((List.range x.cols.length).map fun j => end_ y.2 j)

/-- A step begins: its tiles are checked and fetched, A is waited for, and its class and shape are checked. -/
def mxBegin (s : State) (ci : Nat) (x : MxOp) : State :=
  let p := stepOf x
  let c := zeroGroup (getCore s ci) x p
  match tileUse c.a p.ha, tileUse c.a p.hb with
  | some t, _ => putCore s ci (mxStop c x false 0 t)
  | none, some t => putCore s ci (mxStop c x false 0 t)
  | none, none =>
    let c1 := raiseStep c x p
    if !tileReadable (tileOf c1.a p.ha) then
      putCore s ci (match fetchFault c1 p.ha with | some t => mxStop c1 x false 0 t | none => c1)
    else
      let da := (tileOf c1.a p.ha).desc
      let db := (tileOf c1.a p.hb).desc
      let g := if p.first then none else x.group
      match shapeFault p.ha p.hb da db g (fenBit s (partOf c1) 0) with
      | some h => putCore s ci (mxStop c1 x false 0 (tileTrap 4 (BitVec.ofNat 64 h)))
      | none =>
        let sub := [da, db].any fun d => tType d == 13 || tType d == 14
        let sums := if p.first then startSums c1 x.abase p.acc (tRows da) (tCols db) else (x.cols, x.rows)
        putCore s ci (putHead c1 { x with begun := true, row := 0, group := some (tRows da, tCols db), cols := sums.1, rows := sums.2,
                                          flags := if sub then x.flags ||| 64 else x.flags })

/-- The number of rows of B that may be used: all once the tile is readable, those landed while it is filled, none of a QN4 or INT4G tile
before its image is whole (R223). -/
def rowsReady (c : Core) (h kt : Nat) : Nat :=
  let t := tileOf c.a h
  if tileReadable t then kt
  else if tQuant t.desc then 0
  else match filling c h with
    | some x => min kt (x.done / x.rowBytes)
    | none => 0

/-- The operation after a step whose rows have all been accumulated: the next step, or the end. -/
def mxNextStep (c : Core) (x : MxOp) (steps : Nat) : Core :=
  if x.step + 1 < steps then putHead c { x with step := x.step + 1, row := 0, begun := false, drains := false } else mxFinish c x

/-- A step done. At the end of a group whose checks have passed (R227) a nest with DRAIN drains it. -/
def mxStepDone (c : Core) (x : MxOp) (p : NestStep) : Core :=
  match x.kind with
  | .nest t _ => if p.last && nestDrain t then putHead c { x with drains := true } else mxNextStep c x (nestSteps t)
  | _ => mxFinish c x

/-- The rows of a step that are ready are accumulated, and their products summed for the checks; a failed fetch of the next one stops the engine.
A group whose checks fail is a detected error of source 4, MX_CHECK (R227, R261). -/
def mxRows (s : State) (ci : Nat) (x : MxOp) : State :=
  let p := stepOf x
  let c := getCore s ci
  let da := (tileOf c.a p.ha).desc
  let db := (tileOf c.a p.hb).desc
  let kt := tCols da
  let n := rowsReady c p.hb kt
  if n ≤ x.row ∧ x.row < kt then
    match fetchFault c p.hb with
    | some t => putCore s ci (mxStop c x true x.row t)
    | none => mxAwait s ci x
  else
    let ks := (List.range (n - x.row)).map (x.row + ·)
    let c1 := ks.foldl (fun c k => accumulate c x.abase p.acc da db k) c
    let x1 := ks.foldl (fun y k => stepSums c y da db k) { x with row := n }
    if n < kt then putCore s ci (putHead c1 x1)
    else if p.last && groupFails c1 x1 p.acc then detectError (putCore s ci (putHead c1 x1)) ci 4
    else putCore s ci (mxStepDone (putHead c1 x1) x1 p)

/-! ## Drains (R92, R228) -/

/-- An element converted to the type of a drain target: its bits and flags. -/
def drainBits (t : Nat) (r : RMode) (raw : Nat) : Nat × Flg :=
  let a := accOf raw
  let float := fun (f : Fmt) => if a.psn then (f.poison, ({} : Flg)) else packF f r a.val
  if t = 10 then float fF32
  else if t = 9 then float fBF16
  else if t = 8 then float fF16
  else if t = 18 then (raw % 2 ^ 82, {})
  else if a.psn then (0, {})
  else match a.val with
    | .fin n m x =>
      let k := toIntV true 32 r (.fin n m x)
      let whole := !(roundInt r n m x).2
      ((BitVec.ofInt 32 k.1).toNat, if whole && k.2.nv then { sat := true } else k.2)
    | v => let k := toIntV true 32 r v; ((BitVec.ofInt 32 k.1).toNat, k.2)

/-- The types of a drain target. -/
def drainType (t : Nat) : Bool := t == 10 || t == 9 || t == 8 || t == 4 || t == 18

/-- The words from an offset on with the marks of a list. -/
def putMarks (c : Core) (w : Nat) : List Bool → Core
  | [] => c
  | b :: r => putMarks (putScr c w { scrWord c w with psn := b }) (w + 1) r

/-- One row of a drain: its elements into the target's line, and the marks of the words written. -/
def drainRow (c : Core) (ab : BitVec 7) (n : Nat) (d : BitVec 256) (r : RMode) (i : Nat) : Core × Flg :=
  let w := tWidth (tType d) / 8
  let raws := (List.range (tCols d)).map fun j => accRaw c ab n i j
  let outs := raws.map (drainBits (tType d) r)
  let o := tBase d + i * tPitch d
  let bytes := outs.flatMap fun x => natBytes w x.1
  let psn := raws.map fun v => (accOf v).psn
  let marks := (List.range ((w * tCols d + 3) / 4)).map fun k => (psn.zipIdx.any fun y => y.1 && decide (y.2 * w / 4 ≤ k) && decide (k ≤ (y.2 * w + w - 1) / 4))
  (putMarks (scrPutBytes c o bytes) (o / 4) marks, outs.foldl (fun f x => f.or x.2) {})

/-- All rows of a drain. -/
def drainRows (c : Core) (ab : BitVec 7) (n : Nat) (d : BitVec 256) (r : RMode) : Core × Flg :=
  (List.range (tRows d)).foldl (fun x i => let y := drainRow x.1 ab n d r i; (y.1, x.2.or y.2)) (c, {})

/-- What comes of a drain. -/
inductive Drained where
  | ok (c : Core) (f : Flg)
  | wait
  | fault (t : Trap)

/-- A drain of accumulator `n` into tile `h`: V and R213, the state, then type and shape are looked at (R228); `shape` is that of a nest's
group. -/
def drainTo (c : Core) (ab : BitVec 7) (n h : Nat) (m : BitVec 3) (shape : Option (Nat × Nat)) : Drained :=
  match tileUse c.a h with
  | some t => .fault t
  | none =>
    let t := tileOf c.a h
    let d := t.desc
    match t.st with
    | .filling => .wait
    | .draining => if ownCopy c h then .fault (tileTrap 3 (BitVec.ofNat 64 h)) else .wait
    | _ =>
      if !drainType (tType d) || decide (64 < tCols d) || decide (64 < tRows d) ||
          (match shape with | some g => g != (tRows d, tCols d) | none => false) then .fault (tileTrap 4 (BitVec.ofNat 64 h))
      else
        let r := match rmodeOf m.toNat with | some r => r | none => .rne
        let y := drainRows c ab n d r
        .ok { y.1 with a := setTileSt y.1.a h .ready } y.2

/-- A drain that the head of the queue asks for; `k` goes on from it. -/
def mxDrain (s : State) (ci : Nat) (x : MxOp) (n h : Nat) (m : BitVec 3) (shape : Option (Nat × Nat)) (k : Core → MxOp → Core) : State :=
  let c := getCore s ci
  match drainTo c x.abase n h m shape with
  | .wait => s
  | .fault t => putCore s ci (mxStop c x false x.row t)
  | .ok c1 f => putCore s ci (k c1 { x with flags := x.flags ||| f.bits })

/-- The head of the matrix queue runs: a step's beginning, the rows that are ready, a drain, or a zeroing (R220, R223, R226, R228). -/
def matrixRun (s : State) (ci : Nat) : State :=
  let c := getCore s ci
  match (if enginesRun c && !bitOf c.mxrow 63 then c.mxq else []) with
  | [] => s
  | x :: _ =>
    match x.kind with
    | .zero n => putCore s ci (mxFinish (zeroAcc c x.abase n) x)
    | .drain n h m => mxDrain s ci x n h m none mxFinish
    | .mma _ _ _ => if x.begun then mxRows s ci x else mxBegin s ci x
    | .nest t _ =>
      if isArmed x then s
      else if x.drains then
        let p := stepOf x
        mxDrain s ci x p.acc p.hc x.mode x.group fun c y => mxNextStep c y (nestSteps t)
      else if x.begun then mxRows s ci x
      else mxBegin s ci x

/-- MATRIX_OP_RUN (R220). -/
def execMatrixOpRun (core : Nat) (s : State) : Host.Outcome State Fault Refusal :=
  if 72 ≤ core then .fault .noSuchAgent else .next (matrixRun s core)

/-! ## The tile walker (R232 to R234) -/

/-- Whether a walk's control word is malformed. -/
def walkBad (v : Word) : Bool :=
  let (h, n) := walkRange v
  fieldOf v 23 1 != 0 || fieldOf v 30 34 != 0 || decide (7 < fieldOf v 19 4) || n == 0 || decide (512 < n) || decide (512 < h + n)

/-- The issue of a walk with operation `op`: its operands, its result area, its control word, and the walk that runs. -/
def walkWord (e : Env) (s : State) (x : BitVec 6) (op : Nat) : Res :=
  let v := (e.x x).val
  let o := (e.xk x 1).val
  if (getCore s e.ci).walk.isSome then .stall
  else consumeN e [(x.toNat, 4), (x.toNat + 1, 0)]
    (if o.toNat % (if op = 7 then 4 else 8) ≠ 0 then raise 0x14 0 o
    else match localFault e.rd.a o (if op = 7 then 1024 else 8) with
      | some t => raise 0x10 0 t
      | none =>
        if walkBad v then .raise (tileTrap 6 (BitVec.ofNat 64 (walkRange v).1))
        else .later (modCore s e.ci fun c =>
          { c with walk := some { op := op, ctrl := v, off := o.toNat, push := e.pout, stopped := false, counts := none } }))

/-- WALK_ADD (R233). -/
def execWalkAdd (x : BitVec 6) (tk : Tk) (s : State) : Host.Outcome State Fault Refusal :=
  issueE (encXTk 0xAC000000 x tk) [] tk s fun e s => walkWord e s x 0

/-- WALK_MIN (R233). -/
def execWalkMin (x : BitVec 6) (tk : Tk) (s : State) : Host.Outcome State Fault Refusal :=
  issueE (encXTk 0xAC000100 x tk) [] tk s fun e s => walkWord e s x 1

/-- WALK_MAX (R233). -/
def execWalkMax (x : BitVec 6) (tk : Tk) (s : State) : Host.Outcome State Fault Refusal :=
  issueE (encXTk 0xAC000200 x tk) [] tk s fun e s => walkWord e s x 2

/-- WALK_AND (R233). -/
def execWalkAnd (x : BitVec 6) (tk : Tk) (s : State) : Host.Outcome State Fault Refusal :=
  issueE (encXTk 0xAC000300 x tk) [] tk s fun e s => walkWord e s x 3

/-- WALK_OR (R233). -/
def execWalkOr (x : BitVec 6) (tk : Tk) (s : State) : Host.Outcome State Fault Refusal :=
  issueE (encXTk 0xAC000400 x tk) [] tk s fun e s => walkWord e s x 4

/-- WALK_XOR (R233). -/
def execWalkXor (x : BitVec 6) (tk : Tk) (s : State) : Host.Outcome State Fault Refusal :=
  issueE (encXTk 0xAC000500 x tk) [] tk s fun e s => walkWord e s x 5

/-- WALK_POPC (R233). -/
def execWalkPopc (x : BitVec 6) (tk : Tk) (s : State) : Host.Outcome State Fault Refusal :=
  issueE (encXTk 0xAC000600 x tk) [] tk s fun e s => walkWord e s x 6

/-- WALK_HIST (R233). -/
def execWalkHist (x : BitVec 6) (tk : Tk) (s : State) : Host.Outcome State Fault Refusal :=
  issueE (encXTk 0xAC000700 x tk) [] tk s fun e s => walkWord e s x 7

/-- The elements of a tile in rows, as bits with their marks. -/
def tileElems (c : Core) (d : BitVec 256) : List (Nat × Bool) :=
  (List.range (tRows d)).flatMap fun i => (List.range (tCols d)).map fun j => tileBits c d i j

/-- An element extended to 64 bits by its type: even codes are signed (R233). -/
def walkExtend (et v : Nat) : Word :=
  if et % 2 = 0 then sext64 (tWidth et) v else BitVec.ofNat 64 v

/-- The number of one bits of a number below 2⁶⁴. -/
def popcount (v : Nat) : Nat := ((List.range 64).filter fun i => v / 2 ^ i % 2 == 1).length

/-- The result of a reduction of the elements' bits. -/
def walkReduce (op et : Nat) (l : List Nat) : Word :=
  let x := l.map (walkExtend et)
  let less := fun (a b : Word) => if et % 2 = 0 then a.slt b else a.ult b
  let fold := fun (f : Word → Word → Word) => match x with | [] => 0 | y :: r => r.foldl f y
  match op with
  | 0 => fold (· + ·)
  | 1 => fold fun a b => if less b a then b else a
  | 2 => fold fun a b => if less a b then b else a
  | 3 => fold (· &&& ·)
  | 4 => fold (· ||| ·)
  | 5 => fold (· ^^^ ·)
  | _ => BitVec.ofNat 64 ((l.map popcount).foldl (· + ·) 0)

/-- The 256 counts that `hist` reads when it starts (R233). -/
def histCounts (c : Core) (w : Walk) : List Lane := (List.range 256).map fun k => scrWord c (w.off / 4 + k)

/-- A walk that has started: `hist` has read its counts. -/
def startWalk (c : Core) (w : Walk) : Walk := if w.op = 7 ∧ w.counts.isNone then { w with counts := some (histCounts c w) } else w

/-- The result of a walk written: a value of 8 bytes, or the 256 counts of `hist`; one marked element marks every result word. -/
def walkWrite (c : Core) (w : Walk) (l : List (Nat × Bool)) : Core :=
  let et := fieldOf w.ctrl 19 4
  let bits := l.map fun x => x.1
  let psn := l.any fun x => x.2
  if w.op = 7 then
    let sh := fieldOf w.ctrl 24 6
    let old := match w.counts with | some l => l | none => histCounts c w
    (List.range 256).foldl (fun c k =>
      let y := nth Lane.zero old k
      let n := (bits.filter fun v => v / 2 ^ sh % 256 == k).length
      putScr c (w.off / 4 + k) { data := y.data + BitVec.ofNat 32 n, psn := psn || y.psn }) c
  else scrStore c w.off (natBytes 8 (walkReduce w.op et bits).toNat) psn

/-- The first fault of the tiles of a walk: undefined, not of its type, past PLAIN, or not to be fetched. -/
def walkTileFault (c : Core) (et h : Nat) : Option Trap :=
  let t := tileOf c.a h
  if !t.v then some (tileTrap 2 (BitVec.ofNat 64 h))
  else if tType t.desc ≠ et then some (tileTrap 4 (BitVec.ofNat 64 h))
  else if tOver c.a t.desc then some (tileTrap 1 (BitVec.ofNat 64 h))
  else fetchFault c h

/-- A walk looked at: it stops on a fault, fetches and waits for its tiles, and completes once all of them are readable (R233). -/
def walkStep (s : State) (ci : Nat) : State :=
  let c := getCore s ci
  match (if enginesRun c then c.walk.map (startWalk c) else none) with
  | none => s
  | some w =>
    let (h, n) := walkRange w.ctrl
    let hs := (List.range n).map (h + ·)
    if w.stopped then s
    else match hs.findSome? (walkTileFault c (fieldOf w.ctrl 19 4)) with
      | some t => putCore s ci (addEngTrap { c with walk := some { w with stopped := true } } t)
      | none =>
        let c1 := hs.foldl raiseFetch { c with walk := some w }
        if hs.all fun k => tileReadable (tileOf c1.a k) then
          let l := hs.flatMap fun k => tileElems c1 (tileOf c1.a k).desc
          putCore s ci (completePush { walkWrite c1 w l with walk := none } w.push false)
        else putCore s ci c1

/-- WALK_RUN (R234). -/
def execWalkRun (core : Nat) (s : State) : Host.Outcome State Fault Refusal :=
  if 72 ≤ core then .fault .noSuchAgent else .next (walkStep s core)

/-! ## Vigil (R71, R275, R276) -/

/-- Whether a `vigil` of K is the last word of an active hardware loop, so that its literal lies outside the body (R71). -/
def literalOutside (e : Env) : Bool :=
  e.rd.a.mode == .split &&
  (List.range 2).any fun lv => let l := vget e.rd.a.loops LoopLv.zero (2 * cnum e.cl + lv); l.active && l.last == e.addr

/-- The tiles of a check found usable: 2 or 1 for the first that is not. -/
def vigilUse (a : Arch) (l : List Nat) : Option Trap := match l.find? (fun h => !(tileOf a h).v) with
  | some h => some (tileTrap 2 (BitVec.ofNat 64 h))
  | none => (l.find? fun h => tOver a (tileOf a h).desc).map fun h => tileTrap 1 (BitVec.ofNat 64 h)

/-- The handle that the type or shape check of a Vigil kind names. -/
def vigilShape (a : Arch) (kind ha hb : Nat) : Option Nat :=
  let da := (tileOf a ha).desc
  let db := (tileOf a hb).desc
  match kind with
  | 0 =>
    if tType da ≠ 9 ∨ tRows da ≠ 64 ∨ 256 < tCols da then some ha
    else if tType db ≠ 9 ∨ tCols db ≠ 32 ∨ tRows db ≠ tCols da then some hb else none
  | 1 => if tType da ≠ 10 ∨ tCols da ≠ 64 ∨ 64 < tRows da then some ha else none
  | _ => none

/-- The issue of a check on the handles in some registers. -/
def vigilWord (e : Env) (s : State) (w : Nat) (kind : Nat) (regs : List (BitVec 6)) (lit : Word32) : Res :=
  let vals := regs.map fun r => (e.x r).val
  let hs := vals.map fun v => v.toNat
  if literalOutside e then raise 0x02 5 (BitVec.ofNat 64 w)
  else consume e (regs.map fun r => (r, 4))
    (match vals.find? fun v => decide (512 ≤ v.toNat) with
     | some v => .raise (tileTrap 0 v)
     | none => match vigilUse e.rd.a hs with
       | some t => .raise t
       | none => match vigilShape e.rd.a kind (nth 0 hs 0) (nth 0 hs 1) with
         | some h => .raise (tileTrap 4 (BitVec.ofNat 64 h))
         | none => match hs.find? fun h => !tileReadable (tileOf e.rd.a h) with
           | some h => .raise (tileTrap 3 (BitVec.ofNat 64 h))
           | none => .lit (modCore s e.ci fun c => { c with vigils := c.vigils ++
               [{ kind := kind, ha := nth 0 hs 0, hb := nth 0 hs 1, crc := lit, push := e.pout }] }))

/-- VIGIL_MX (R276). -/
def execVigilMx (x y : BitVec 6) (tk : Tk) (lit : BitVec 32) (s : State) : Host.Outcome State Fault Refusal :=
  issueE (encXYTk 0xB0000000 x y tk) [] tk s fun e s => vigilWord e s (encXYTk 0xB0000000 x y tk) 0 [x, y] lit

/-- VIGIL_VEC (R276). -/
def execVigilVec (x : BitVec 6) (tk : Tk) (lit : BitVec 32) (s : State) : Host.Outcome State Fault Refusal :=
  issueE (encXTk 0xB0000100 x tk) [] tk s fun e s => vigilWord e s (encXTk 0xB0000100 x tk) 1 [x] lit

/-- VIGIL_RD (R276). -/
def execVigilRd (x : BitVec 6) (tk : Tk) (lit : BitVec 32) (s : State) : Host.Outcome State Fault Refusal :=
  issueE (encXTk 0xB0000200 x tk) [] tk s fun e s => vigilWord e s (encXTk 0xB0000200 x tk) 2 [x] lit

/-- One bit of the reflected CRC-32C (Castagnoli). -/
def crcBit (r : Word32) : Word32 := if bitOf r 0 then (r >>> 1) ^^^ 0x82F63B78 else r >>> 1

/-- One byte of the CRC. -/
def crcByte (r : Word32) (b : Byte) : Word32 :=
  crcBit (crcBit (crcBit (crcBit (crcBit (crcBit (crcBit (crcBit (r ^^^ b.setWidth 32))))))))

/-- The CRC-32C of bytes (R275). -/
def crc32c (l : List Byte) : Word32 := l.foldl crcByte 0xFFFFFFFF ^^^ 0xFFFFFFFF

/-- The bytes of the lines of a tile. -/
def tileBytes (c : Core) (d : BitVec 256) : List Byte :=
  (List.range (tLines d)).flatMap fun l => scrBytes c (tBase d + l * tPitch d) (tLB d)

/-- One element of the product of a check: accumulated from +0 and rounded to FP32. -/
def vigilDot (c : Core) (da db : BitVec 256) (i j : Nat) : Nat :=
  let z : Acc := { psn := false, inx := false, val := .fin false 0 (-16445) }
  let r := (List.range (tCols da)).foldl (fun acc k =>
    let a := tileV c da i k
    let b := tileV c db k j
    accStep acc a.1 b.1 (a.2 || b.2)) z
  (drainBits 10 .rne (accBits r)).1

/-- One element of a vector check: x × x + x with one rounding. -/
def vigilFma (v : Nat) : Nat := if v = fF32.poison then fF32.poison else (fFma fF32 .rne v v v).1

/-- The bytes that a check runs its checksum over. -/
def vigilBytes (c : Core) (x : Vigil) : List Byte :=
  let da := (tileOf c.a x.ha).desc
  let db := (tileOf c.a x.hb).desc
  match x.kind with
  | 0 => (List.range 64).flatMap fun i => (List.range 32).flatMap fun j => natBytes 4 (vigilDot c da db i j)
  | 1 => (tileElems c da).flatMap fun y => natBytes 4 (vigilFma y.1)
  | _ => tileBytes c da

/-- The lowest marked word of a tile's lines. -/
def tileMark (c : Core) (d : BitVec 256) : Option Nat :=
  (List.range (tLines d)).findSome? fun l => firstMarked c ((tBase d + l * tPitch d) / 4) ((tLB d + 3) / 4)

/-- The oldest Vigil check runs while its engine is idle: a marked word ends it with a trap for K, a wrong checksum is a detected error. -/
def vigilRun (s : State) (ci : Nat) : State :=
  let c := getCore s ci
  match (if enginesRun c then c.vigils else []) with
  | [] => s
  | x :: r =>
    if x.kind ≠ 1 ∧ mxRunnable c.mxq then s
    else
      let c1 := completePush { c with vigils := r } x.push false
      let ms := (if x.kind = 0 then [x.ha, x.hb] else [x.ha]).filterMap fun h => tileMark c (tileOf c.a h).desc
      match ms with
      | [] => if crc32c (vigilBytes c x) = x.crc then putCore s ci c1 else detectError s ci 5
      | m :: l => putCore s ci (addEngTrap c1 (mkTrap 0x20 3 (BitVec.ofNat 64 (l.foldl min m))))

/-- VIGIL_CHECK (R276). -/
def execVigilCheck (core : Nat) (s : State) : Host.Outcome State Fault Refusal :=
  if 72 ≤ core then .fault .noSuchAgent else .next (vigilRun s core)

end Sys2Proof.Machine
end

