-- ==== Sys2Proof/Machine/Almanac.lean ====
section
/-! DEFINITION. The Almanac (R279 to R296): method tables, sample slots, the stage, error and decision steps, and the forms that read and
write slots. -/

namespace Sys2Proof.Machine

/-! ## Arithmetic: every operation rounds to nearest even and sets no flag (R287) -/

/-- An FP64 encoding as a value. -/
def f64V (v : Nat) : Fv := decodeF fF64 v

/-- FP64 sum. -/
def dAdd (a b : Nat) : Nat := (fAdd fF64 .rne a b).1
/-- FP64 difference. -/
def dSub (a b : Nat) : Nat := (fSub fF64 .rne a b).1
/-- FP64 product. -/
def dMul (a b : Nat) : Nat := (fMul fF64 .rne a b).1
/-- FP64 quotient. -/
def dDiv (a b : Nat) : Nat := (fDiv fF64 .rne a b).1
/-- FP64 maximum and minimum (R129). -/
def dMax (a b : Nat) : Nat := (fMinMax fF64 true a b).1
/-- The smaller of two FP64 values. -/
def dMin (a b : Nat) : Nat := (fMinMax fF64 false a b).1
/-- FP64 `a ≤ b`, false for a NaN. -/
def dLe (a b : Nat) : Bool := (fCmp fF64 2 a b).1
/-- FP64 `a < b`, false for a NaN. -/
def dLt (a b : Nat) : Bool := (fCmp fF64 1 a b).1
/-- An FP64 value with its sign inverted. -/
def dNeg (a : Nat) : Nat := if a < 2 ^ 63 then a + 2 ^ 63 else a - 2 ^ 63
/-- The FP64 encoding of 1. -/
def dOne : Nat := 0x3FF0000000000000
/-- The FP64 encoding of +∞. -/
def dInf : Nat := 0x7FF0000000000000
/-- Whether an FP64 encoding is finite. -/
def dFinite (a : Nat) : Bool := match f64V a with | .fin .. => true | _ => false
/-- Whether an FP64 encoding is a zero. -/
def dZero (a : Nat) : Bool := a % 2 ^ 63 == 0

/-- The exact product of two FP64 values rounded once to FP32 (R288). -/
def toF32Product (a b : Nat) : Nat :=
  match mulV (f64V a) (f64V b) with
  | none => fF32.cnan
  | some p => (packF fF32 .rne p).1

/-- The largest `y` below 2^(b+1), added to `y`, with (y^k) · m ≤ n: one bit at a time. -/
def rootGo (k m n : Nat) : Nat → Nat → Nat
  | 0, y => if (y + 1) ^ k * m ≤ n then y + 1 else y
  | b + 1, y => rootGo k m n b (if (y + 2 ^ (b + 1)) ^ k * m ≤ n then y + 2 ^ (b + 1) else y)

/-- err^(−1/k) correctly rounded to FP64, k ≥ 1; +∞ for 0 (R291). The root is taken of 2^(58k + s) / m, whose root has 58 to 60 bits. -/
def rootPow (k err : Nat) : Nat :=
  match f64V err with
  | .fin _ m e =>
    if m = 0 then dInf
    else
      -- err = m · 2^e and err^(−1/k) = (2^(t·k) / m)^(1/k) · 2^(−(t·k + e)/k), t·k + e made a multiple of k
      let t := topBit m + 59 * k
      let r := ((t : Int) + e) % (k : Int)
      let u := t + (if r = 0 then 0 else ((k : Int) - r).toNat)
      let y := rootGo k m (2 ^ u) 61 0
      (roundF fF64 .rne false y (decide (y ^ k * m ≠ 2 ^ u)) (-(((u : Int) + e) / (k : Int)))).1
  | _ => 0

/-! ## Method tables (R279, R280) -/

/-- A dword of a method table as an FP64 encoding. -/
def methF (m : List Word) (q : Nat) : Nat := (nth 0 m q).toNat
/-- Whether a method is of Adams–Bashforth type. -/
def methAb (m : List Word) : Bool := methField m 3 1 == 1
/-- STAGES. -/
def methStages (m : List Word) : Nat := methField m 0 3
/-- ORDER. -/
def methOrder (m : List Word) : Nat := methField m 8 2
/-- Q. -/
def methQ (m : List Word) : Nat := methField m 4 3
/-- The coefficient in row i, column j. -/
def methA (m : List Word) (i j : Nat) : Nat := methF m (29 + 7 * i + j)

/-- Whether a coefficient of a table must be zero. -/
def coefZero (m : List Word) (q : Nat) : Bool :=
  methAb m ||
  if q < 29 then decide (methStages m ≤ (q - 8) % 7)
  else decide (methStages m ≤ (q - 29) / 7) || decide ((q - 29) / 7 ≤ (q - 29) % 7)

/-- Whether a method table is malformed. -/
def methodBad (m : List Word) : Bool :=
  methField m 10 54 != 0 || methField m 7 1 != 0 ||
  (if methAb m then methStages m != 1 || methQ m != 0 || methOrder m == 0
   else methStages m == 0 || methQ m == 0 || methOrder m != 0) ||
  !(dFinite (methF m 1) && dLe 0 (methF m 1)) || !(dFinite (methF m 2) && dLe 0 (methF m 2)) ||
  !(dLt 0 (methF m 3) && dLe (methF m 3) dOne) || !(dLt 0 (methF m 4) && dLe (methF m 4) dOne) ||
  !(dFinite (methF m 5) && dLe dOne (methF m 5)) || nth 0 m 6 != 0 || nth 0 m 7 != 0 ||
  (List.range 70).any fun k => !dFinite (methF m (8 + k)) || (coefZero m (8 + k) && !dZero (methF m (8 + k)))

/-! ## Sample slots (R281 to R283) -/

/-- A sample slot of a core. -/
def almOf (a : Arch) (k : Nat) : AlmSlot := Sparse.get AlmSlot.zero a.alm k

/-- A sample slot replaced. -/
def putAlm (a : Arch) (k : Nat) (y : AlmSlot) : Arch := { a with alm := Sparse.put AlmSlot.zero a.alm k y }

/-- STATUS as a number. -/
def almCode : AlmSt → Nat
  | .off => 0 | .run => 1 | .accepted => 2 | .rejected => 3 | .done => 4 | .failed => 5

/-- The status word of a slot. -/
def almWord (y : AlmSlot) : Word :=
  BitVec.ofNat 64 (almCode y.st + 8 * b2n y.psn + 16 * b2n y.clip + 32 * b2n y.errv + 2 ^ 6 * y.sidx + 2 ^ 9 * y.meth + 2 ^ 11 * y.peff +
    2 ^ 13 * y.hcnt + 2 ^ 16 * y.nacc + 2 ^ 32 * y.nrej)

/-- A field of a slot by its selector number (R292). -/
def almField (y : AlmSlot) (f : Nat) : Word :=
  match f with
  | 0 => y.t | 1 => y.h | 2 => y.hmin | 3 => y.tend | 4 => y.lasterr | 5 => y.hh1 | 6 => y.hh2 | 7 => almWord y
  | 8 => BitVec.ofNat 64 y.tx | 9 => BitVec.ofNat 64 y.trb | 10 => BitVec.ofNat 64 y.ty
  | _ => BitVec.ofNat 64 (if f < 18 then nth 0 y.tk (f - 11) else nth 0 y.th (f - 18))

/-- The limits of T, H, HMIN and TEND (R282). -/
def almLimits (t h hmin tend : Word) : Bool :=
  dFinite t.toNat && dFinite h.toNat && dFinite hmin.toNat && dFinite tend.toNat && dLt 0 h.toNat && dLe 0 hmin.toNat &&
  dLe hmin.toNat h.toNat && dLe t.toNat tend.toNat

/-- The clip rule (R288). -/
def clipRule (y : AlmSlot) : AlmSlot :=
  let rem := dSub y.tend.toNat y.t.toNat
  if dLe rem 0 then { y with t := y.tend, st := if almLive y then .done else y.st }
  else if dLe rem y.h.toNat then { y with h := BitVec.ofNat 64 rem, clip := true }
  else { y with clip := false }

/-- A handle field of a slot descriptor: dword `q`, place `k` of four. -/
def almHandle (d : List Word) (q k : Nat) : Nat := fieldOf (nth 0 d q) (16 * k) 9

/-- Whether the fields of a slot descriptor that do not depend on its method are malformed (R282). -/
def almDescBad (d : List Word) : Bool :=
  !almLimits (nth 0 d 0) (nth 0 d 1) (nth 0 d 2) (nth 0 d 3) || fieldOf (nth 0 d 4) 2 62 != 0 ||
  ([5, 6, 7].any fun q => (List.range 4).any fun k => fieldOf (nth 0 d q) (16 * k + 9) 7 != 0) || fieldOf (nth 0 d 8) 9 55 != 0 ||
  (List.range 7).any fun k => nth 0 d (9 + k) != 0

/-- The slot that a descriptor loads. -/
def almLoad (d : List Word) : AlmSlot :=
  { AlmSlot.zero with
    t := nth 0 d 0, h := nth 0 d 1, hmin := nth 0 d 2, tend := nth 0 d 3, meth := fieldOf (nth 0 d 4) 0 2, st := .run,
    tx := almHandle d 5 0, trb := almHandle d 5 1, ty := almHandle d 5 2,
    tk := [almHandle d 5 3, almHandle d 6 0, almHandle d 6 1, almHandle d 6 2, almHandle d 6 3, almHandle d 7 0, almHandle d 7 1],
    th := [almHandle d 7 2, almHandle d 7 3, almHandle d 8 0] }

/-- Whether the handles of a slot break the rules of its method: an unused one is nonzero, or two used ones are equal. -/
def almHandlesBad (m : List Word) (y : AlmSlot) : Bool :=
  let used := almHandles m y
  used.eraseDups.length != used.length ||
  (if methAb m then y.tk.any (· != 0) || (y.th.drop (methOrder m)).any (· != 0)
   else y.th.any (· != 0) || (y.tk.drop (methStages m)).any (· != 0))

/-! ## Operands (R287) -/

/-- An Almanac form that is not queued waits until the queue is empty (R287). -/
def almNow (e : Env) (s : State) (r : Res) : Res := if (getCore s e.ci).almq.isEmpty then r else .stall

/-- ALM_FAULT (R296). -/
def almFault (detail : Nat) (v : Word) : Res := raise 0x19 detail v

/-- A slot range that a register holds, if it is well formed. -/
def almRange (v : Word) : Option (Nat × Nat) :=
  let f := fieldOf v 0 8
  let n := fieldOf v 8 9
  if fieldOf v 17 47 ≠ 0 ∨ n = 0 ∨ 256 < n ∨ 256 < f + n then none else some (f, n)

/-- A meaning on the dwords of a table of `n` dwords at an offset of the plain scratchpad. R296 puts POISON_CONSUMED before MISALIGN and
ILLEGAL_ADDR. -/
def almTable (e : Env) (s : State) (o : Word) (n : Nat) (k : List Word → Res) : Res :=
  let c := getCore s e.ci
  match markedWord c o (8 * n) with
  | some m => raise 0x20 3 (BitVec.ofNat 64 m)
  | none =>
    if o.toNat % 8 ≠ 0 then raise 0x14 0 o
    else match localFault e.rd.a o (8 * n) with
      | some t => raise 0x10 0 t
      | none => k ((List.range n).map fun q => BitVec.ofNat 64 (scrNat c (o.toNat + 8 * q) 8))

/-- Whether a live slot of a method is in the middle of a step. -/
def methodBusy (a : Arch) (m : Nat) : Bool :=
  a.alm.any fun y => almLive y.2 && y.2.meth == m && (decide (0 < y.2.sidx) || y.2.errv)

/-- AMDEF (R292). -/
def execAmdef (x y : BitVec 6) (tk : Tk) (s : State) : Host.Outcome State Fault Refusal :=
  issueE (encXYTk 0xB2000000 x y tk) [] tk s fun e s =>
    let o := (e.x y).val
    almNow e s (consume e [(y, 0)] (almTable e s o 78 fun m =>
      if methodBad m then almFault 1 o
      else if methodBusy e.rd.a x.toNat then almFault 7 o
      else .done (modArch s e.ci fun a => { a with methods := vset a.methods x.toNat (some m) })))

/-- ASET (R282). -/
def execAset (x y : BitVec 6) (tk : Tk) (s : State) : Host.Outcome State Fault Refusal :=
  issueE (encXYTk 0xB2000100 x y tk) [] tk s fun e s =>
    let v := (e.x x).val
    let o := (e.x y).val
    almNow e s (consume e [(x, 4), (y, 0)] (almTable e s o 16 fun d =>
      if 256 ≤ v.toNat then almFault 0 v
      else if almDescBad d then almFault 2 o
      else
        let y := almLoad d
        match vget e.rd.a.methods none y.meth with
        | none => almFault 3 o
        | some m =>
          if almHandlesBad m y then almFault 2 o
          else .done (modArch s e.ci fun a => putAlm a v.toNat (clipRule y))))

/-- A queued form enters the queue of four operations (R287). -/
def almQueue (e : Env) (s : State) (x : BitVec 6) (kind : Nat) (off : Nat) : Res :=
  match almRange (e.x x).val with
  | none => almFault 0 (e.x x).val
  | some (f, n) =>
    .later (modCore s e.ci fun c =>
      { c with almq := c.almq ++ [{ kind := kind, first := f, count := n, off := off, at_ := 0, push := e.pout, stopped := false }] })

/-- The issue of a queued form: it holds while the queue is full. -/
def almRoom (e : Env) (s : State) (r : Res) : Res := if 4 ≤ (getCore s e.ci).almq.length then .stall else r

/-- ASTAGE (R288). -/
def execAstage (x y : BitVec 6) (tk : Tk) (s : State) : Host.Outcome State Fault Refusal :=
  issueE (encXYTk 0xB2000200 x y tk) [] tk s fun e s =>
    let o := (e.x y).val
    almRoom e s (consume e [(x, 4), (y, 0)]
      (if o.toNat % 8 ≠ 0 then raise 0x14 0 o
       else match localFault e.rd.a o (8 * fieldOf (e.x x).val 8 9) with
         | some t => raise 0x10 0 t
         | none => almQueue e s x 0 o.toNat))

/-- AERR (R290). -/
def execAerr (x : BitVec 6) (tk : Tk) (s : State) : Host.Outcome State Fault Refusal :=
  issueE (encXTk 0xB2000300 x tk) [] tk s fun e s => almRoom e s (consume e [(x, 4)] (almQueue e s x 1 0))

/-- ADEC (R291). -/
def execAdec (x : BitVec 6) (tk : Tk) (s : State) : Host.Outcome State Fault Refusal :=
  issueE (encXTk 0xB2000400 x tk) [] tk s fun e s => almRoom e s (consume e [(x, 4)] (almQueue e s x 2 0))

/-- A meaning on the slot and the field that a selector names: a field that the form takes, of a slot that is not OFF. The operand is checked
before the slot's state (R296). -/
def almSelect (e : Env) (v : Word) (takes : Nat → Bool) (k : Nat → Nat → AlmSlot → Res) : Res :=
  if 2 ^ 13 ≤ v.toNat then almFault 0 v
  else if !takes (fieldOf v 8 5) then almFault 5 v
  else
    let y := almOf e.rd.a (fieldOf v 0 8)
    if y.st = .off then almFault 3 v else k (fieldOf v 0 8) (fieldOf v 8 5) y

/-- AGET (R292). -/
def execAget (x y : BitVec 6) (tk : Tk) (s : State) : Host.Outcome State Fault Refusal :=
  issueE (encXYTk 0xB2000500 x y tk) [x] tk s fun e s =>
    let v := (e.x y).val
    almNow e s (consume e [(y, 4)] (almSelect e v (fun f => decide (f ≤ 20)) fun _ f z =>
      .done (setX e s x (almField z f) false)))

/-- APUT (R292). -/
def execAput (x y : BitVec 6) (tk : Tk) (s : State) : Host.Outcome State Fault Refusal :=
  issueE (encXYTk 0xB2000600 x y tk) [] tk s fun e s =>
    let v := (e.x x).val
    let n := (e.x y).val
    almNow e s (consume e [(x, 4), (y, 3)] (almSelect e v (fun f => decide (1 ≤ f) && decide (f ≤ 3)) fun k f z =>
      if !almLive z || z.sidx != 0 || z.errv then almFault 6 v
      else
        let z' := match f with | 1 => { z with h := n } | 2 => { z with hmin := n } | _ => { z with tend := n }
        if almLimits z'.t z'.h z'.hmin z'.tend then .done (modArch s e.ci fun a => putAlm a k (clipRule z')) else almFault 6 n))

/-- The counts that `astat` gives for the slots of a range. -/
def almCounts (l : List AlmSlot) : Word :=
  let n := fun (p : AlmSlot → Bool) => (l.filter p).length
  BitVec.ofNat 64 (n almLive + 2 ^ 9 * n (fun y => y.st == .done) + 2 ^ 18 * n (fun y => y.st == .failed) + 2 ^ 27 * n AlmSlot.errv +
    2 ^ 36 * n (fun y => y.st == .rejected) + 2 ^ 45 * n (fun y => y.st == .off))

/-- A meaning on a slot range. -/
def onRange (e : Env) (s : State) (r : BitVec 6) (k : List Nat → Res) : Res :=
  almNow e s (consume e [(r, 4)] (match almRange (e.x r).val with
    | none => almFault 0 (e.x r).val
    | some (f, n) => k ((List.range n).map (f + ·))))

/-- ASTAT (R292). -/
def execAstat (x y : BitVec 6) (tk : Tk) (s : State) : Host.Outcome State Fault Refusal :=
  issueE (encXYTk 0xB2000700 x y tk) [x] tk s fun e s => onRange e s y fun l => .done (setX e s x (almCounts (l.map (almOf e.rd.a))) false)

/-- AOFF (R292). -/
def execAoff (x : BitVec 6) (tk : Tk) (s : State) : Host.Outcome State Fault Refusal :=
  issueE (encXTk 0xB2000800 x tk) [] tk s fun e s =>
    onRange e s x fun l => .done (modArch s e.ci fun a => l.foldl (fun a k => putAlm a k AlmSlot.zero) a)

/-- AWAIT (R292). -/
def execAwait (tk : Tk) (s : State) : Host.Outcome State Fault Refusal :=
  issueE (encTk 0xB2000900 tk) [] tk s fun e s => almNow e s (.done s)

/-! ## Forming a stage (R284, R288) -/

/-- The fault of a tile that a step reads or writes, against the shape of the tile named TX. -/
def almTileFault (a : Arch) (tx h : Nat) (write : Bool) : Option Trap :=
  let t := tileOf a h
  let x := (tileOf a tx).desc
  let fault := fun d => some (tileTrap d (BitVec.ofNat 64 h))
  if !t.v then fault 2
  else if tOver a t.desc then fault 1
  else if tType t.desc ≠ 10 ∨ tRows t.desc ≠ tRows x ∨ tCols t.desc ≠ tCols x then fault 4
  else match t.st with
    | .ready => none
    | .draining => if write then fault 3 else none
    | _ => fault 3

/-- The scratchpad word of element `e`, in row-major order, of an f32 tile (R284). -/
def almPlace (d : BitVec 256) (e : Nat) : Nat := (tBase d + e / tCols d * tPitch d) / 4 + e % tCols d

/-- An element of an f32 tile, with its mark. -/
def almElem (c : Core) (h e : Nat) : Nat × Bool :=
  let x := scrWord c (almPlace (tileOf c.a h).desc e)
  (x.data.toNat, x.psn)

/-- An element of an f32 tile written, with its mark. -/
def almPut (c : Core) (h e : Nat) (v : Nat × Bool) : Core :=
  putScr c (almPlace (tileOf c.a h).desc e) { data := BitVec.ofNat 32 v.1, psn := v.2 }

/-- The number of elements of a tile. -/
def almCount (a : Arch) (h : Nat) : Nat := tRows (tileOf a h).desc * tCols (tileOf a h).desc

/-- The sum of an element and its derivatives, each a handle with its weight: one FP32 rounding a term, a marked word marking the sum. -/
def almSum (c : Core) (e : Nat) (x : Nat × Bool) (l : List (Nat × Nat)) : Nat × Bool :=
  l.foldl (fun y t => let k := almElem c t.1 e; ((fFma fF32 .rne t.2 k.1 y.1).1, y.2 || k.2)) x

/-- An element as it is written: FP32 poison where it is marked. -/
def almPoison (x : Nat × Bool) : Nat × Bool := if x.2 then (fF32.poison, true) else x

/-- The columns of a Runge–Kutta row that count: those with a nonzero coefficient. -/
def almCols (m : List Word) (i : Nat) : List Nat := (List.range i).filter fun j => !dZero (methA m i j)

/-- A stage formed: each element is written before the next one is read (R9). -/
def almStage (c : Core) (x : AlmOp) (k : Nat) (y : AlmSlot) (m : List Word) : Except Trap Core :=
  let js := if methAb m then [] else almCols m y.sidx
  let reads := y.tx :: js.map fun j => nth 0 y.tk j
  match (reads.findSome? fun h => almTileFault c.a y.tx h false), almTileFault c.a y.tx y.ty true with
  | some t, _ => .error t
  | none, some t => .error t
  | none, none =>
    let ws := js.map fun j => (nth 0 y.tk j, toF32Product y.h.toNat (methA m y.sidx j))
    let one := fun (c : Core) (e : Nat) =>
      let x := almElem c y.tx e
      almPut c y.ty e (if methAb m then x else almPoison (almSum c e x ws))
    let c1 := (List.range (almCount c.a y.tx)).foldl one c
    let tau := if methAb m then y.t.toNat else dAdd y.t.toNat (dMul (methF m (8 + y.sidx)) y.h.toNat)
    let c2 := scrStore c1 (x.off + 8 * (k - x.first)) (natBytes 8 tau) false
    .ok { c2 with a := putAlm c2.a k { y with sidx := y.sidx + 1, st := .run } }

/-! ## The error norm (R289, R290) -/

/-- The Adams–Bashforth coefficients of order p. -/
def abCoefs (h h1 h2 p : Nat) : List Nat :=
  let two := 0x4000000000000000
  match p with
  | 1 => [dOne]
  | 2 =>
    let r2 := dDiv (dDiv h h1) two
    [dAdd dOne r2, dNeg r2]
  | _ =>
    let s := dAdd h1 h2
    let a := dDiv (dMul h h) 0x4008000000000000
    let hs := dMul h1 s
    [dDiv (dAdd (dAdd a (dDiv (dMul (dAdd h1 s) h) two)) hs) hs, dNeg (dDiv (dAdd a (dDiv (dMul s h) two)) (dMul h1 h2)),
     dDiv (dAdd a (dDiv (dMul h1 h) two)) (dMul s h2)]

/-- The order of an Adams–Bashforth step; 0 for Runge–Kutta. -/
def abOrder (m : List Word) (y : AlmSlot) : Nat := if methAb m then min (methOrder m) (1 + y.hcnt) else 0

/-- The terms of an error step: derivative handle, coefficient and embedded coefficient. -/
def errTerms (m : List Word) (y : AlmSlot) : List (Nat × Nat × Nat) :=
  if methAb m then
    let p := abOrder m y
    let b := abCoefs y.h.toNat y.hh1.toNat y.hh2.toNat p
    let bh := if p = 1 then b else abCoefs y.h.toNat y.hh1.toNat y.hh2.toNat (p - 1)
    (List.range p).map fun j => (nth 0 y.th j, nth 0 b j, nth 0 bh j)
  else (List.range (methStages m)).map fun j => (nth 0 y.tk j, methF m (15 + j), methF m (22 + j))

/-- The derivatives of one of the two solutions of an error step with their weights: those whose coefficient is nonzero. -/
def errWeights (h : Nat) (l : List (Nat × Nat)) : List (Nat × Nat) :=
  (l.filter fun x => !dZero x.2).map fun x => (x.1, toF32Product h x.2)

/-- An FP32 encoding as FP64. -/
def widen64 (v : Nat) : Nat := (fCvt fF32 fF64 .rne v).1

/-- The exact difference of two FP32 encodings (R290). -/
def errDiff (a b : Nat) : Fv := (addV .rne (decodeF fF32 a) (negV (decodeF fF32 b))).getD (.nan false)

/-- Whether a value is a zero. -/
def isZeroV (v : Fv) : Bool := match v with | .fin _ m _ => m == 0 | _ => false

/-- The square of the scaled error of one element: the difference is exact, and its quotient by the scale is rounded once (R9, R290). -/
def errSquare (m : List Word) (x xn xe : Nat) : Nat :=
  let d := errDiff xn xe
  let sc := dAdd (methF m 1) (dMul (methF m 2) (dMax (widen64 x % 2 ^ 63) (widen64 xn % 2 ^ 63)))
  let q := if dZero sc then (if isZeroV d then 0 else dInf) else (divV fF64 .rne d (f64V sc)).1
  dMul q q

/-- An error step as its loop leaves it: the core, the sum of the squares, and whether an element was poison. -/
structure ErrRun where
  core : Core
  sum : Nat
  psn : Bool
deriving DecidableEq, Repr

/-- The loop of an error step at element `e`, for the weights of the two solutions: the element of TRB is written before the next element is
read (R9). An element is poison where a word of either solution is marked (log 22). -/
def errElem (m : List Word) (y : AlmSlot) (wb wh : List (Nat × Nat)) (r : ErrRun) (e : Nat) : ErrRun :=
  let x := almElem r.core y.tx e
  let xn := almSum r.core e x wb
  let xe := almSum r.core e x wh
  let bad := xn.2 || xe.2
  { core := almPut r.core y.trb e (almPoison (xn.1, bad)), sum := dAdd r.sum (errSquare m x.1 xn.1 xe.1), psn := r.psn || bad }

/-- The norm of an error step of `n` elements. -/
def errNorm (sum n : Nat) : Nat := (fSqrt fF64 .rne (dDiv sum (ofIntF fF64 .rne n).1)).1

/-- The error of a step measured: the new state written into the tile named TRB, whose role it exchanges with TX. -/
def almError (c : Core) (k : Nat) (y : AlmSlot) (m : List Word) : Except Trap Core :=
  let ts := (errTerms m y).filter fun t => !dZero t.2.1 || !dZero t.2.2
  match ((y.tx :: ts.map fun t => t.1).findSome? fun h => almTileFault c.a y.tx h false), almTileFault c.a y.tx y.trb true with
  | some t, _ => .error t
  | none, some t => .error t
  | none, none =>
    let n := almCount c.a y.tx
    let wb := errWeights y.h.toNat (ts.map fun t => (t.1, t.2.1))
    let wh := errWeights y.h.toNat (ts.map fun t => (t.1, t.2.2))
    let r := (List.range n).foldl (errElem m y wb wh) { core := c, sum := 0, psn := false }
    let lasterr := BitVec.ofNat 64 (if r.psn then fF64.cnan else errNorm r.sum n)
    let z := { y with lasterr := lasterr, psn := y.psn || r.psn, peff := abOrder m y, tx := y.trb, trb := y.tx, errv := true }
    .ok { r.core with a := putAlm r.core.a k z }

/-! ## The decision (R291) -/

/-- The factor by which a decision changes the step size. -/
def almFactor (m : List Word) (y : AlmSlot) : Nat :=
  let err := y.lasterr.toNat
  if methAb m && y.peff == 1 then dOne
  else match f64V err with
    | .fin .. =>
      let k := if methAb m then y.peff else methQ m + 1
      dMin (methF m 5) (dMax (methF m 4) (dMul (methF m 3) (rootPow k err)))
    | _ => methF m 4

/-- An accepted step. -/
def almAccept (m : List Word) (y : AlmSlot) (fac : Nat) : AlmSlot :=
  let p := methOrder m
  let y1 := if methAb m then
      { y with th := nth 0 y.th (p - 1) :: (y.th.take (p - 1) ++ y.th.drop p), hh2 := y.hh1, hh1 := y.h, hcnt := min (y.hcnt + 1) (p - 1) }
    else y
  let y2 := if y.clip then { y1 with t := y.tend, st := .done }
    else { y1 with t := BitVec.ofNat 64 (dAdd y.t.toNat y.h.toNat), st := .accepted }
  let y3 := { y2 with h := BitVec.ofNat 64 (dMul y.h.toNat fac), nacc := min (y.nacc + 1) 65535, sidx := 0, errv := false }
  if y3.st = .accepted then clipRule y3 else y3

/-- A rejected step. -/
def almReject (m : List Word) (y : AlmSlot) (fac : Nat) : AlmSlot :=
  let h := dMul y.h.toNat (dMin dOne fac)
  { y with tx := y.trb, trb := y.tx, h := BitVec.ofNat 64 h, clip := false, nrej := min (y.nrej + 1) 65535,
           sidx := if methAb m then 1 else 0, st := if dLt h y.hmin.toNat then .failed else .rejected, errv := false }

/-- A slot decided. -/
def almDecide (m : List Word) (y : AlmSlot) : AlmSlot :=
  if y.psn then { y with st := .failed, errv := false }
  else if dLe y.lasterr.toNat dOne then almAccept m y (almFactor m y)
  else almReject m y (almFactor m y)

/-! ## The queue (R285, R287, R294) -/

/-- Whether a step acts on a slot. -/
def almActs (x : AlmOp) (y : AlmSlot) (m : List Word) : Bool :=
  almLive y &&
  match x.kind with
  | 0 => !y.errv && decide (y.sidx < methStages m)
  | 1 => !y.errv && y.sidx == methStages m
  | _ => y.errv

/-- A step acts on one slot, or skips it. -/
def almSlotStep (c : Core) (x : AlmOp) (k : Nat) : Except Trap Core :=
  let y := almOf c.a k
  if !almLive y then .ok c
  else match vget c.a.methods none y.meth with
    | none => .error (mkTrap 0x19 3 (BitVec.ofNat 64 (x.first + 256 * x.count)))
    | some m =>
      if !almActs x y m then .ok c
      else match x.kind with
        | 0 => almStage c x k y m
        | 1 => almError c k y m
        | _ => .ok { c with a := putAlm c.a k (almDecide m y) }

/-- The head of the Almanac queue takes its next slot, and completes after the last; a fault stops it before the slot. -/
def almRun (s : State) (ci : Nat) : State :=
  let c := getCore s ci
  match (if enginesRun c then c.almq else []) with
  | [] => s
  | x :: r =>
    if x.stopped then s
    else match almSlotStep c x (x.first + x.at_) with
      | .error t => putCore s ci (addEngTrap { c with almq := { x with stopped := true } :: r } t)
      | .ok c1 =>
        if x.at_ + 1 < x.count then putCore s ci { c1 with almq := { x with at_ := x.at_ + 1 } :: r }
        else putCore s ci (completePush { c1 with almq := r } x.push false)

/-- ALMANAC_STEP (R294). -/
def execAlmanacStep (core : Nat) (s : State) : Host.Outcome State Fault Refusal :=
  if 72 ≤ core then .fault .noSuchAgent else .next (almRun s core)

end Sys2Proof.Machine
end

