-- ==== Sys2Proof/Machine/Control.lean ====
section
/-! DEFINITION. Control: branches and calls (R111 to R113), hardware loops and the modulo sequencer (R114 to R118), `rep` (R66 to R69),
`fork`, `join` and `end` (R119 to R121), sync bits and tokens (R122, R123), the range register (R126 to R128). -/

namespace Sys2Proof.Machine

/-! ## Branches (R111, R112) -/

/-- BR (R111). -/
def execBr (f : BitVec 3) (o : BitVec 22) (s : State) : Host.Outcome State Fault Refusal :=
  issueI (encFO 0x16000000 f o) [] s fun e s => if rdFlag e.rd.a e.cl f.toNat then transfer e s (branchTarget e o) else .done s

/-- BRN (R111). -/
def execBrn (f : BitVec 3) (o : BitVec 22) (s : State) : Host.Outcome State Fault Refusal :=
  issueI (encFO 0x18000000 f o) [] s fun e s => if rdFlag e.rd.a e.cl f.toNat then .done s else transfer e s (branchTarget e o)

/-- CALL (R111). -/
def execCall (f : BitVec 3) (o : BitVec 22) (s : State) : Host.Outcome State Fault Refusal :=
  issueI (encFO 0x1A000000 f o) [] s fun e s =>
    if rdFlag e.rd.a e.cl f.toNat then transfer e (setX e s (linkReg e.cl) (linkAddr e) false) (branchTarget e o) else .done s

/-- JMPR (R112). -/
def execJmpr (d a : BitVec 6) (g : BitVec 3) (s : State) : Host.Outcome State Fault Refusal :=
  issueA (encDAG 0x1C000000 d a g) [d] g s fun e s => consume e [(a, 0)] (transfer e (setX e s d (linkAddr e) false) (e.x a).val)

/-! ## The `rep` prefix (R66, R67) -/

/-- `rep` starts its repetitions: the checks of its target come with the first of them (R67, R69). -/
def startRep (e : Env) (s : State) (n : BitVec 8) : Res :=
  .set (modArch s e.ci fun a => { a with repK := vset a.repK (cnum e.cl) (some (0, n.toNat + 1)) })

/-- REP (R67). -/
def execRep (n : BitVec 8) (f sf : BitVec 4) (s : State) : Host.Outcome State Fault Refusal :=
  issueI (encNFS 0x1E000000 n f sf) [] s fun e s => startRep e s n

/-! ## Hardware loops (R114) -/

/-- Level `lv` of the issuing cluster started over `i` words, or skipped for a count of zero (R114). -/
def startLoop (e : Env) (s : State) (lv : Nat) (a : BitVec 6) (i : BitVec 13) : Res :=
  let k := 2 * cnum e.cl + lv
  let n := (e.x a).val.toNat % 2 ^ 32
  let put := fun l => modArch s e.ci fun ar => { ar with loops := vset ar.loops k l }
  consume e [(a, 1)]
    (if n = 0 then
      .set (modCore (put { vget e.rd.a.loops LoopLv.zero k with active := false }) e.ci
        fun c => setPc c (cnum e.cl) (e.addr + BitVec.ofNat 64 (4 + 4 * i.toNat)))
    else .done (put { start := e.addr + 4, last := e.addr + BitVec.ofNat 64 (4 * i.toNat), count := n, active := true }))

/-- Level `lv` of the issuing cluster made inactive (R114). -/
def clearLoop (e : Env) (s : State) (lv : Nat) : Res :=
  let k := 2 * cnum e.cl + lv
  .done (modArch s e.ci fun ar => { ar with loops := vset ar.loops k { vget ar.loops LoopLv.zero k with active := false } })

/-- LOOP_O (R114). -/
def execLoopO (a : BitVec 6) (i : BitVec 13) (s : State) : Host.Outcome State Fault Refusal :=
  issueI (encAI 0x20000000 a i) [] s fun e s => startLoop e s 0 a i

/-- LOOP_I (R114). -/
def execLoopI (a : BitVec 6) (i : BitVec 13) (s : State) : Host.Outcome State Fault Refusal :=
  issueI (encAI 0x20080000 a i) [] s fun e s => startLoop e s 1 a i

/-- LPCLR_O (R114). -/
def execLpclrO (s : State) : Host.Outcome State Fault Refusal :=
  issueI 0x20000000 [] s fun e s => clearLoop e s 0

/-- LPCLR_I (R114). -/
def execLpclrI (s : State) : Host.Outcome State Fault Refusal :=
  issueI 0x20080000 [] s fun e s => clearLoop e s 1

/-! ## The modulo sequencer (R117) -/

/-- The body of `ii` bundles from an address on, fetched into the loop buffer: none for a word that cannot be fetched (R117; log 51). -/
def fetchBody (s : State) (ci : Nat) (body : Word) (ii : Nat) : List (Option Word32) :=
  (List.range (4 * ii)).map fun j => match fetchWord s ci (body + BitVec.ofNat 64 (4 * j)) with | .ok w => some w | .error _ => none

/-- The program counters after `loopm`: the first row, or past the body where there is none to run. -/
def startSeq (e : Env) (s : State) (i a b : BitVec 6) (st : BitVec 4) : Res :=
  let n := (e.x a).val.toNat % 2 ^ 32
  let ii := i.toNat + 1
  let body := e.addr + 16
  if n = 0 then .set (modCore s e.ci fun c => setPcs c (body + BitVec.ofNat 64 (16 * ii)))
  else
    .set (modCore s e.ci fun c => setPcs { c with a := { c.a with
      seq := some { k := 0, b := 0, n := n, stages := st.toNat + 1, ii := ii, map := (e.x b).val, body := body,
                    buf := fetchBody s e.ci body ii } } } body)

/-- LOOPM (R117). A false guard skips the body, as a trip count of zero does. -/
def execLoopm (i a b : BitVec 6) (g : BitVec 3) (sf : BitVec 4) (s : State) : Host.Outcome State Fault Refusal :=
  issueI (encIABGS 0x22000000 i a b g sf) [] s fun e s =>
    if !rdFlag e.rd.a e.cl g.toNat then
      .set (modCore s e.ci fun c => setPcs c (e.addr + BitVec.ofNat 64 (16 + 16 * (i.toNat + 1))))
    else notInHandler e 0x11 (consume e [(a, 1), (b, 4)] (startSeq e s i a b sf))

/-! ## Fork, join and end (R119 to R121) -/

/-- The trap of a `fork` entry, in split mode in the current segment (R119, R312). MISALIGN comes before ILLEGAL_ADDR (log 53). -/
def entryTrap (e : Env) (s : State) (r : BitVec 6) : Option Trap :=
  if (e.x r).psn then some (mkTrap 0x20 0 (BitVec.ofNat 64 r.toNat))
  else
    let t := (e.x r).val
    if t.toNat % 4 ≠ 0 then some (mkTrap 0x14 0 t)
    else match checkTarget s e.rd .split t with
      | .error x => some x
      | .ok _ => none

/-- The core in split mode after `fork`: C at the next bundle, L, K and S at their entries, all loop levels inactive. -/
def enterSplit (c : Core) (p l k x : Word) : Core :=
  { c with a := { c.a with mode := .split, litAt := none, pc := #v[p, l, k, x], repK := Vector.replicate 4 none,
                           loops := Vector.replicate 8 LoopLv.zero, clst := Vector.replicate 4 .run } }

/-- FORK (R119). -/
def execFork (d a b : BitVec 6) (g : BitVec 3) (s : State) : Host.Outcome State Fault Refusal :=
  issueA (encDABG 0x30000000 d a b g) [] g s fun e s =>
    notInHandler e 0x18
      (match [d, a, b].findSome? (entryTrap e s) with
       | some t => .raise t
       | none => .set (modCore s e.ci fun c => enterSplit c (e.addr + 16) (e.x d).val (e.x a).val (e.x b).val))

/-- JOIN (R120). -/
def execJoin (o : BitVec 22) (s : State) : Host.Outcome State Fault Refusal :=
  issueI (encO 0x32000000 o) [] s fun e s =>
    notInHandler e 0x19
      (if e.cl ≠ .c then
        (if o ≠ 0 then raise 0x03 0 (BitVec.ofNat 64 (encO 0x32000000 o)) else holdAt e s (.atJoin 0))
       else
        let t := branchTarget e o
        if t.toNat < 2 ^ 56 ∧ t.toNat % 16 ≠ 0 then raise 0x14 0 t
        else match checkTarget s e.rd .split t with
          | .error x => .raise x
          | .ok _ => holdAt e s (.atJoin t))

/-- END (R121). -/
def execEndOp (g : BitVec 3) (s : State) : Host.Outcome State Fault Refusal :=
  issueA (encG 0x3E000000 g) [] g s fun e s => notInHandler e 0x1F (holdAt e s .atEnd)

/-! ## Sync bits (R122) -/

/-- A sync bit as the issuing word reads it. -/
def syncBit (e : Env) (n : BitVec 6) : Bool := bitOf e.rd.a.y n.toNat

/-- The state with a sync bit written. -/
def setSync (e : Env) (s : State) (n : BitVec 6) (b : Bool) : State := modArch s e.ci fun a => { a with y := putBit a.y n.toNat b }

/-- YSET (R122). -/
def execYset (n : BitVec 6) (g : BitVec 3) (s : State) : Host.Outcome State Fault Refusal :=
  issueA (encNG 0x24000000 n g) [] g s fun e s => .done (setSync e s n true)

/-- YCLR (R122). -/
def execYclr (n : BitVec 6) (g : BitVec 3) (s : State) : Host.Outcome State Fault Refusal :=
  issueA (encNG 0x24000001 n g) [] g s fun e s => .done (setSync e s n false)

/-- YWAIT (R122). -/
def execYwait (n : BitVec 6) (g : BitVec 3) (s : State) : Host.Outcome State Fault Refusal :=
  issueA (encNG 0x24000002 n g) [] g s fun e s => if syncBit e n then .done s else .stall

/-- YWAITC (R122). -/
def execYwaitc (n : BitVec 6) (g : BitVec 3) (s : State) : Host.Outcome State Fault Refusal :=
  issueA (encNG 0x24000003 n g) [] g s fun e s => if syncBit e n then .stall else .done s

/-- YTAS (R122). -/
def execYtas (d n : BitVec 6) (g : BitVec 3) (s : State) : Host.Outcome State Fault Refusal :=
  issueA (encDNG 0x24000004 d n g) [] g s fun e s => .done (setSync e (setFlag e s d.toNat (syncBit e n)) n true)

/-- YRD (R122). -/
def execYrd (d : BitVec 6) (g : BitVec 3) (s : State) : Host.Outcome State Fault Refusal :=
  issueA (encDG 0x24000005 d g) [d] g s fun e s => .done (setX e s d (e.rd.a.y.setWidth 64) false)

/-! ## Tokens (R123) -/

/-- TKPUSH (R123). -/
def execTkpush (p : BitVec 6) (g : BitVec 3) (s : State) : Host.Outcome State Fault Refusal :=
  issueA (encPG 0x26000000 p g) [] g s fun e s =>
    let q := pushPair e.cl p.toNat
    if pushReady e.rd.a q then .done (modArch s e.ci fun a => deliverTok (holdTok a q) q) else .stall

/-- TKWAIT (R123). -/
def execTkwait (p : BitVec 6) (g : BitVec 3) (s : State) : Host.Outcome State Fault Refusal :=
  issueA (encPG 0x26000001 p g) [] g s fun e s =>
    let q := popPair e.cl p.toNat
    if popReady e.rd.a q then .done (modArch s e.ci fun a => popTok a q) else .stall

/-- TKCNT (R123). -/
def execTkcnt (d p : BitVec 6) (g : BitVec 3) (s : State) : Host.Outcome State Fault Refusal :=
  issueA (encDPG 0x26000002 d p g) [d] g s fun e s =>
    .done (setX e s d (BitVec.ofNat 64 (match popPair e.cl p.toNat with | some q => vget e.rd.a.tokens 0 q | none => 0)) false)

/-! ## Range work (R126 to R128) -/

/-- A pending request answered with a refusal, which travels to its unit; it is noted as a delta (R128). -/
def refuseSteal (s : State) (owner : Nat) : State :=
  match (getCore s owner).a.req with
  | none => s
  | some j => sendAnswer (modCore s owner fun c => { c with a := { c.a with req := none }, ext := c.ext ++ [.refusalGiven j] }) j none

/-- RSET (R126). -/
def execRset (a b : BitVec 6) (g : BitVec 3) (s : State) : Host.Outcome State Fault Refusal :=
  issueA (encABG 0x28000000 a b g) [] g s fun e s =>
    consume e [(a, 4), (b, 4)]
      (.done (modArch (refuseSteal s e.ci) e.ci fun ar =>
        { ar with rcur := (e.x a).val, rend := (e.x b).val, grant := false, refused := false }))

/-- A pending request answered at `rnext`: half of two or more items left, otherwise a refusal. A grant given is noted as a delta. -/
def answerSteal (s : State) (owner : Nat) : State :=
  let a := (getCore s owner).a
  match a.req with
  | none => s
  | some j =>
    let m := a.rend.toNat - a.rcur.toNat
    if m < 2 then refuseSteal s owner
    else
      let low := a.rend - BitVec.ofNat 64 (m / 2)
      let s1 := modCore s owner fun c =>
        { c with a := { c.a with rend := low, req := none }, ext := c.ext ++ [.grantGiven low j] }
      sendAnswer s1 j (some (low, a.rend))

/-- RNEXT (R126). -/
def execRnext (d f : BitVec 6) (g : BitVec 3) (s : State) : Host.Outcome State Fault Refusal :=
  issueA (encDFG 0x28000001 d f g) [d] g s fun e s =>
    let s1 := answerSteal s e.ci
    let a := (getCore s1 e.ci).a
    if a.rcur.toNat < a.rend.toNat then
      .done (setFlag e (setX e (modArch s1 e.ci fun ar => { ar with rcur := a.rcur + 1 }) d a.rcur false) f.toNat true)
    else .done (setFlag e s1 f.toNat false)

/-- RSTEAL (R127). -/
def execRsteal (r : BitVec 6) (g : BitVec 3) (s : State) : Host.Outcome State Fault Refusal :=
  issueA (encRG 0x28000002 r g) [] g s fun e s => .done (modCore s e.ci fun c => { c with cbuf := c.cbuf ++ [.steal (r == 1)] })

/-- RSTAT (R126). -/
def execRstat (d : BitVec 6) (g : BitVec 3) (s : State) : Host.Outcome State Fault Refusal :=
  issueA (encDG 0x28000003 d g) [d] g s fun e s =>
    .done (setX e s d (BitVec.ofNat 64 (4 * b2n e.rd.a.refused + 2 * b2n e.rd.a.grant + b2n e.rd.a.pend)) false)

end Sys2Proof.Machine
end

