-- ==== Sys2Proof/Machine/Shepherd.lean ====
section
/-! DEFINITION. The Shepherd's instructions and its background operation (R304 to R310). -/

namespace Sys2Proof.Machine

/-- SHEP_FAULT (R310). -/
def shepFault (detail : Nat) (v : Word) : Res := raise 0x1A detail v

/-- Whether a declaration is malformed (R297). -/
def shDeclBad (a : Arch) (d : BitVec 256) : Bool :=
  fieldOf d 160 96 != 0 || fieldOf d 120 8 != 0 || fieldOf d 110 2 != 0 || fieldOf d 102 2 != 0 || fieldOf d 86 2 != 0 ||
  fieldOf d 78 2 != 0 || fieldOf d 70 2 != 0 || fieldOf d 46 2 != 0 || fieldOf d 23 9 != 0 || !rFinite (shLr d) || !rLt 0 (shLr d) ||
  shSamp d == 0 || decide (64 < shH2 d) || decide (55 < shVi d) || decide (55 < shVo d) || shObuf d % 4 != 0 ||
  decide (plain a < shObuf d + 256 * (shNi d + shNo d) * 4)

/-- Whether two spans of the store overlap. -/
def spansMeet (o n p m : Nat) : Bool := decide (o < p + m) && decide (p < o + n)

/-- Whether the span of a declaration passes the store's end, or overlaps that of another slot that is not OFF (R298). -/
def shSpanBad (a : Arch) (k : Nat) (d : BitVec 256) : Bool :=
  decide (16384 < shWoff d + shWords d) ||
  (List.range 16).any fun j =>
    let y := shOf a j
    j != k && y.st != .off && spansMeet (shWoff d) (shWords d) (shWoff y.decl) (shWords y.decl)

/-- A declaration without LR, EPOCHS and SAMP. -/
def shShape (d : BitVec 256) : BitVec 256 := d &&& ~~~(BitVec.ofNat 256 ((2 ^ 32 - 1) * 2 ^ 128 + 255 * 2 ^ 112 + 65535 * 2 ^ 48))

/-- SHDECL (R306). -/
def execShdecl (x y : BitVec 6) (tk : Tk) (s : State) : Host.Outcome State Fault Refusal :=
  issueE (encXYTk 0xB4000000 x y tk) [] tk s fun e s =>
    let o := (e.x y).val
    let c := getCore s e.ci
    let k := x.toNat
    consume e [(y, 0)]
      (if o.toNat % 8 ≠ 0 then raise 0x14 0 o
       else match localFault e.rd.a o 32 with
        | some t => raise 0x10 0 t
        | none => match firstMarked c (o.toNat / 4) 8 with
          | some m => raise 0x20 3 (BitVec.ofNat 64 m)
          | none =>
            let d := scrDesc c o.toNat
            let z := shOf e.rd.a k
            if shDeclBad e.rd.a d then shepFault 0 o
            else if z.st = .off ∨ z.st = .invalid then
              if shSpanBad e.rd.a k d then shepFault 1 o
              else .done (modArch s e.ci fun a => putSh a k
                { decl := d, st := .observe, ocnt := 0, scnt := 0, emean := 0, retr := 0, tstep := 0, seg := a.segCur, opened := false })
            else .done (modArch s e.ci fun a => putSh a k
              { z with decl := d, st := if shShape d = shShape z.decl then z.st else .invalid }))

/-- SHINV (R306). -/
def execShinv (x : BitVec 6) (tk : Tk) (s : State) : Host.Outcome State Fault Refusal :=
  issueE (encXTk 0xB4000300 x tk) [] tk s fun e s =>
    .done (modArch s e.ci fun a =>
      let z := shOf a x.toNat
      if z.st = .off then a else putSh a x.toNat { z with st := .invalid })

/-- Whether a word is the `apxe` of a slot by its bits (R307). -/
def isApxe (w : Word32) (k : Nat) : Bool := fieldOf w 25 7 == 0x5A && fieldOf w 8 5 == 2 && fieldOf w 19 6 == k

/-- The first matching `apxe` within 8,192 words of K's stream after an address. -/
def findApxe (s : State) (ci : Nat) (a : Word) (k : Nat) : Option Word :=
  ((List.range 8192).find? fun i =>
    match fetchWord s ci (a + BitVec.ofNat 64 (4 * (i + 1))) with
    | .ok w => isApxe w k
    | .error _ => false).map fun i => a + BitVec.ofNat 64 (4 * (i + 1))

/-- The first `n` lanes of a vector as FP32 values, none if one carries poison. -/
def laneValues (v : List Lane) (n : Nat) : Option (List Nat) :=
  let l := (elems 10 v).take n
  if l.any fun x => x.2 then none else some (l.map fun x => x.1)

/-- The state with a slot opened and no capture. -/
def shOpen (s : State) (ci k : Nat) : State :=
  modCore s ci fun c => { c with shcap := none, a := putSh c.a k { shOf c.a k with opened := true } }

/-- The region of a declared slot opened for a valid segment (R307): captured, sampled, replaced by the surrogate, or merely run. SCNT is a
counter of 16 bits (R308). -/
def shBegin (e : Env) (s : State) (k : Nat) (target : Option Word) : Res :=
  let z := shOf e.rd.a k
  let d := z.decl
  let names := if target.isSome then [shVi d, shVo d] else [shVi d]
  kVec e s names [shVi d] fun vs s =>
    let s1 := shOpen s e.ci k
    match laneValues (nth [] vs 0) (shNi d) with
    | none => .done s1
    | some x =>
      let cap := fun (smp : Bool) (ys : List Word32) =>
        modCore s1 e.ci fun c => { c with shcap := some { slot := k, cap := x.map (BitVec.ofNat 32), smp := smp, ys := ys } }
      match z.st with
      | .observe => .done (cap false [])
      | .fallback => .done (cap false [])
      | .active =>
        let y := (shForward (getCore s e.ci) d x).map (BitVec.ofNat 32)
        match target with
        | none => .done (modArch (cap true y) e.ci fun a => putSh a k { shOf a k with scnt := 0 })
        | some t => .done (modCore s1 e.ci fun c =>
            let v := y.map (fun b => ({ data := b, psn := false } : Lane)) ++ (readVAs e.rd.a c (shVo d)).drop (shNo d)
            let c1 := writeV e.rd.a c (shVo d) v
            setPc { c1 with a := putSh c1.a k { shOf c1.a k with scnt := (z.scnt + 1) % 2 ^ 16, opened := false } } (cnum e.cl) t)
      | _ => .done s1

/-- APXB (R307). -/
def execApxb (x : BitVec 6) (tk : Tk) (s : State) : Host.Outcome State Fault Refusal :=
  issueE (encXTk 0xB4000100 x tk) [] tk s fun e s =>
    let k := x.toNat
    let z := shOf e.rd.a k
    let replace := z.st == .active && z.scnt + 1 != shSamp z.decl
    let target := if replace then findApxe s e.ci e.addr k else none
    if (List.range 16).any fun j => (shOf e.rd.a j).opened then shepFault 2 (BitVec.ofNat 64 k)
    else if replace && target.isNone then shepFault 4 (BitVec.ofNat 64 k)
    else if z.st = .off then .done (shOpen s e.ci k)
    else if e.rd.a.segCur ≠ z.seg then
      .done (modArch (shOpen s e.ci k) e.ci fun a => putSh a k { shOf a k with st := .invalid })
    else shBegin e s k target

/-- A pair recorded in a slot's buffer while it has room (R303, R307). -/
def shRecord (c : Core) (k : Nat) (cap : List Word32) (t : List Nat) : Core :=
  let z := shOf c.a k
  let p := z.ocnt + vget c.pobs 0 k
  if 256 ≤ p then c
  else
    let o := shObuf z.decl + p * (shNi z.decl + shNo z.decl) * 4
    let c1 := (cap ++ t.map (BitVec.ofNat 32)).zipIdx.foldl (fun c x => putScr c (o / 4 + x.2) { data := x.1, psn := false }) c
    { c1 with pobs := vset c1.pobs k (vget c1.pobs 0 k + 1) }

/-- A sampled invocation compared with the surrogate (R303). -/
def shSample (c : Core) (k : Nat) (ys : List Word32) (t : List Nat) : Core :=
  let z := shOf c.a k
  let er := shErr (ys.map BitVec.toNat) t
  let m := shMean z.emean.toNat er
  let c1 := { c with a := putSh c.a k { z with emean := BitVec.ofNat 32 m } }
  if rLt c.a.shmaxe.toNat er || rLt c.a.shmean.toNat m then { c1 with sfail := putBit c1.sfail k true } else c1

/-- APXE (R307). -/
def execApxe (x : BitVec 6) (tk : Tk) (s : State) : Host.Outcome State Fault Refusal :=
  issueE (encXTk 0xB4000200 x tk) [] tk s fun e s =>
    let k := x.toNat
    let z := shOf e.rd.a k
    if !z.opened then shepFault 3 (BitVec.ofNat 64 k)
    else
      let s1 := modArch s e.ci fun a => putSh a k { z with opened := false }
      match (getCore s e.ci).shcap with
      | none => .done s1
      | some p =>
        kVec e s1 [shVo z.decl] [shVo z.decl] fun vs s2 =>
          match laneValues (nth [] vs 0) (shNo z.decl) with
          | none => .done s2
          | some t => .done (modCore s2 e.ci fun c => if p.smp then shSample c k p.ys t else shRecord c k p.cap t)

/-- A store range that a register holds, if it is well formed (R308). -/
def storeRange (v : Word) : Option (Nat × Nat) :=
  let o := fieldOf v 0 14
  let n := fieldOf v 16 15
  if fieldOf v 14 2 ≠ 0 ∨ fieldOf v 31 33 ≠ 0 ∨ n = 0 ∨ 16384 < o + n then none else some (o, n)

/-- Whether a training step runs. -/
def trainingRuns (c : Core) : Bool :=
  match c.shrun with
  | .running k => (shOf c.snap k).st == .train
  | _ => false

/-- A copy between the scratchpad and the store: its operands checked. -/
def storeCopy (e : Env) (s : State) (x y : BitVec 6) (k : Nat → Nat → Nat → Res) : Res :=
  let o := (e.x x).val
  let v := (e.x y).val
  consume e [(x, 0), (y, 4)]
    (if o.toNat % 4 ≠ 0 then raise 0x14 0 o
     else
      let n := match storeRange v with | some r => r.2 | none => 0
      match localFault e.rd.a o (4 * n) with
      | some t => raise 0x10 0 t
      | none => match storeRange v with
        | none => shepFault 5 v
        | some (w, n) => if trainingRuns (getCore s e.ci) then .stall else k o.toNat w n)

/-- SHWLD (R308). -/
def execShwld (x y : BitVec 6) (tk : Tk) (s : State) : Host.Outcome State Fault Refusal :=
  issueE (encXYTk 0xB4000400 x y tk) [] tk s fun e s =>
    storeCopy e s x y fun o w n =>
      let c := getCore s e.ci
      match firstMarked c (o / 4) n with
      | some m => raise 0x20 3 (BitVec.ofNat 64 m)
      | none =>
        if (List.range 16).any fun k =>
            let z := shOf e.rd.a k
            z.st != .off && z.st != .observe && z.st != .invalid && spansMeet w n (shWoff z.decl) (shWords z.decl)
        then shepFault 6 (e.x y).val
        else .done (modCore s e.ci fun c => putStore c w ((scrWords c o n).map (BitVec.ofNat 32)))

/-- SHWST (R308). -/
def execShwst (x y : BitVec 6) (tk : Tk) (s : State) : Host.Outcome State Fault Refusal :=
  issueE (encXYTk 0xB4000500 x y tk) [] tk s fun e s =>
    storeCopy e s x y fun o w n =>
      .done (modCore s e.ci fun c =>
        (List.range n).foldl (fun c i => putScr c (o / 4 + i) { data := BitVec.ofNat 32 (storeWord c (w + i)), psn := false }) c)

/-- A slot state as a number (R299). -/
def shCode : ShSt → Nat
  | .off => 0 | .observe => 1 | .train => 2 | .candidate => 3 | .active => 4 | .fallback => 5 | .invalid => 6

/-- Whether an operation of a slot runs or its result waits for commit. -/
def shBusy (c : Core) (k : Nat) : Bool :=
  match c.shrun with
  | .none => false
  | .running j => j == k
  | .trained j _ => j == k
  | .validated j _ _ => j == k

/-- What `shstat` reads (R308). -/
def shWord (c : Core) (k : Nat) : Word :=
  let z := shOf c.a k
  BitVec.ofNat 64 (shCode z.st + 8 * b2n z.opened + 16 * b2n (shBusy c k) + 32 * z.retr + 2 ^ 7 * z.ocnt + 2 ^ 16 * z.scnt + 2 ^ 32 * z.tstep)

/-- SHSTAT (R308). -/
def execShstat (x y : BitVec 6) (tk : Tk) (s : State) : Host.Outcome State Fault Refusal :=
  issueE (encXYTk 0xB4000600 x y tk) [x] tk s fun e s => .done (setX e s x (shWord (getCore s e.ci) y.toNat) false)

/-- SHMEAN (R308). -/
def execShmean (x y : BitVec 6) (tk : Tk) (s : State) : Host.Outcome State Fault Refusal :=
  issueE (encXYTk 0xB4000700 x y tk) [x] tk s fun e s => .done (setX e s x ((shOf e.rd.a y.toNat).emean.setWidth 64) false)

/-- The Shepherd starts the operation of the lowest committed slot that asks for one, or completes the one that runs (R304). -/
def shepherdRun (s : State) (ci : Nat) : State :=
  let c := getCore s ci
  if !enginesRun c then s
  else match c.shrun with
    | .none =>
      match (List.range 16).find? fun k => (shOf c.snap k).st == .train || (shOf c.snap k).st == .candidate with
      | some k => putCore s ci { c with shrun := .running k }
      | none => s
    | .running k =>
      let z := shOf c.snap k
      match z.st with
      | .train => putCore s ci { c with shrun := .trained k (shTrain c z) }
      | .candidate => let r := shValidate { c with a := c.snap } z; putCore s ci { c with shrun := .validated k r.1 r.2 }
      | _ => putCore s ci { c with shrun := .none }
    | _ => s

/-- SHEPHERD_OPERATION (R304). -/
def execShepherdOperation (core : Nat) (s : State) : Host.Outcome State Fault Refusal :=
  if 72 ≤ core then .fault .noSuchAgent else .next (shepherdRun s core)

end Sys2Proof.Machine
end

