-- ==== Sys2Proof/Machine/System.lean ====
section
/-! DEFINITION. System instructions (R323 to R330): the returns from handlers, the fault service (R327, R332), the system's writes to CSRs,
segments, address spaces and the health record, and context images (R333). -/

namespace Sys2Proof.Machine

/-! ## Returns from handlers (R323, R324) -/

/-- The core of a restored frame with its trapping cluster past its instruction: the target of a `rep` too when no repetition ran, the next
repetition after one that trapped, and in joint mode the slot read as `nop`. -/
def pastTrap (s : State) (ci : Nat) (c : Core) (r : TrapRegs) : Core :=
  let cl := r.cl.toNat
  match r.frame.mode with
  | .joint => { c with nopSlot := some (clusterOf cl) }
  | .split =>
    let p := vget c.a.pc 0 cl
    let k := fieldOf (vget r.epc 0 cl) 56 8
    let c1 := match fetchWord (putCore s ci c) ci p with
      | .error _ => advanceSplit c cl p
      | .ok w =>
        if fieldOf w 25 7 ≠ 0x0F then advanceSplit c cl p
        else if (1 ≤ r.cause.toNat ∧ r.cause.toNat ≤ 5) ∨ fieldOf w 17 8 + 1 ≤ k + 1 then advanceSplit c cl (p + 4)
        else { c with a := { c.a with repK := vset c.a.repK cl (some (k + 1, fieldOf w 17 8 + 1)) } }
    { c1 with tr := { c1.tr with epc := vset c1.tr.epc cl (epcOf c1.a cl) } }

/-- The engines that stopped for a trap of K run on once it has been taken and its handler returns (R230, R294). -/
def resumeAfter (c : Core) : Core := if c.engTraps.any fun t => t.cl == .k then c else resumeEngines c

/-- A return from a handler to the frame that it saved; `past` moves the trapping cluster on. -/
def returnWord (e : Env) (s : State) (w : Nat) (past : Bool) : Res :=
  let c := getCore s e.ci
  let go := fun (c : Core) (r : TrapRegs) =>
    let c1 := restoreFrame c r
    .set (putCore s e.ci (if past then pastTrap s e.ci c1 r else c1))
  if e.rd.a.tl then go (resumeAfter { c with a := { c.a with tl := false } }) c.tr
  else if e.rd.a.uh && e.rd.a.held then go { c with a := { c.a with uh := false, held := false }, tr := c.heldTr } c.heldTr
  else raise 0x39 4 (BitVec.ofNat 64 w)

/-- TRET (R323). -/
def execTret (g : BitVec 3) (s : State) : Host.Outcome State Fault Refusal :=
  issueA (encG 0xE0000000 g) [] g s fun e s => returnWord e s (encG 0xE0000000 g) false

/-- TRET_N (R323). -/
def execTretN (g : BitVec 3) (s : State) : Host.Outcome State Fault Refusal :=
  issueA (encG 0xE0000001 g) [] g s fun e s => returnWord e s (encG 0xE0000001 g) true

/-- UCALL (R324). -/
def execUcall (g : BitVec 3) (s : State) : Host.Outcome State Fault Refusal :=
  issueA (encG 0xE0000002 g) [] g s fun e s =>
    if !(e.rd.a.tl && e.rd.tr.cause == 5 && hasEmul s e.rd) then raise 0x39 4 (BitVec.ofNat 64 (encG 0xE0000002 g))
    else
      let h := segOf s (partOf e.rd) e.rd.tvec.hseg
      let l := segOf s (partOf e.rd) e.rd.segL
      .set (modCore s e.ci fun c =>
        setPcs { c with heldTr := c.tr, bank := vset c.bank 3 { val := h.base + h.gate.setWidth 64, psn := false },
                        a := { c.a with held := true, tl := false, uh := true, segCur := c.segL } } (l.base + l.eoff.setWidth 64))

/-! ## The fault service (R327, R332) -/

/-- SVC (R327). -/
def execSvc (d a : BitVec 6) (g : BitVec 3) (s : State) : Host.Outcome State Fault Refusal :=
  issueA (encDAG 0xE0000003 d a g) [d] g s fun e s =>
    if !e.rd.a.tl then raise 0x39 4 (BitVec.ofNat 64 (encDAG 0xE0000003 d a g))
    else consume e [(a, 3)]
      (.set (modPart (modCore s e.ci fun c => { c with run := .svc d }) (partOf e.rd) fun p =>
        { p with svcq := p.svcq ++ [{ core := e.ci, svc := true, arg := (e.x a).val }] }))

/-- The oldest request of a core, if it comes from `svc`, answered: the answer in xd, or the end of the unit with the frame's cause. -/
def answerSvc (s : State) (ci : Nat) (ans : Option Word) : State :=
  let c := getCore s ci
  match (match firstRequest s ci with | some x => if x.svc then c.run else .idle | none => .idle) with
  | .svc d =>
    let s1 := dropRequest s ci
    match ans with
    | none => endUnit s1 ci c.tr.cause.toNat c.tr.detail.toNat (some c.tr.tval)
    | some v => putCore s1 ci (advance (wrReg { c with run := .running } d.toNat { val := v, psn := false }) .c 0)
  | _ => s

/-- FAULT_SERVICE_ANSWER (R332). -/
def execFaultServiceAnswer (core : Nat) (ans : Option (BitVec 64)) (s : State) : Host.Outcome State Fault Refusal :=
  if 72 ≤ core then .fault .noSuchAgent else .next (if firmwareUp s core then answerSvc s core ans else s)

/-! ## Translations removed (R327) -/

/-- Whether `n` bytes from `a` on meet the pages named by a start and a count; a count of 0 names every page. -/
def pagesMeet (start count a n : Nat) : Bool := count == 0 || (decide (a < start + count * 2 ^ 15) && decide (start < a + n))

/-- A core without the translations of an address space for some pages. -/
def dropTlb (part : Nat) (asn : BitVec 16) (start count : Nat) (c : Core) : Core :=
  let keep := fun (x : TlbEntry) => !(x.part == part && x.asn == asn && pagesMeet start count x.vbase (2 ^ x.size))
  { c with tlb1 := c.tlb1.filter keep, tlb2 := c.tlb2.filter keep }

/-- A die without the cached table entries of an address space for some pages. -/
def dropWalks (part : Nat) (asn : BitVec 16) (start count : Nat) (d : Die) : Die :=
  { d with walkCache := d.walkCache.filter fun x =>
      !(x.part == part && x.asn == asn && pagesMeet start count (x.path * 2 ^ levelShift x.level) (2 ^ levelShift x.level)) }

/-- TLBINV (R327). -/
def execTlbinv (a b : BitVec 6) (g : BitVec 3) (s : State) : Host.Outcome State Fault Refusal :=
  issueA (encABG 0xE0000004 a b g) [] g s fun e s =>
    consume e [(a, 4), (b, 0)]
      (if fieldOf (e.x a).val 48 16 ≠ 0 then raise 0x03 0 (BitVec.ofNat 64 (encABG 0xE0000004 a b g))
       else
        let p := partOf e.rd
        let asn := BitVec.ofNat 16 (fieldOf (e.x a).val 0 16)
        let n := fieldOf (e.x a).val 16 32
        let v := fieldOf (e.x b).val 15 49 * 2 ^ 15
        .done { s with cores := vmap (dropTlb p asn v n) s.cores, dies := vmap (dropWalks p asn v n) s.dies })

/-! ## CSR writes of the system (R277, R328) -/

/-- A write to a register of the active frame, which only a running system handler may change. -/
def sysFrame (s : State) (ci : Nat) (f : TrapRegs → TrapRegs) : State :=
  modCore s ci fun c => if c.a.tl then { c with tr := f c.tr } else c

/-- A write to a CSR by `scsrwr`. -/
def sysCsr (s : State) (ci n : Nat) (v : Word) : State :=
  if n = 0x028 then
    modCore s ci fun c =>
      { c with tvec := { hseg := BitVec.ofNat 6 (fieldOf v 58 6), v := bitOf v 57, off := BitVec.ofNat 28 (fieldOf v 4 28) } }
  else if n = 0x032 then
    if fieldOf v 0 3 = 0 then s else modPart s (partOf (getCore s ci)) fun p => { p with rtrymax := fieldOf v 0 3 }
  else if n = 0x021 then sysFrame s ci fun r => { r with tval := v }
  else if 0x024 ≤ n ∧ n ≤ 0x027 then sysFrame s ci fun r => { r with epc := vset r.epc (n - 0x024) v }
  else s

/-- SCSRWR (R328). -/
def execScsrwr (a b : BitVec 6) (g : BitVec 3) (s : State) : Host.Outcome State Fault Refusal :=
  issueA (encABG 0xE2000000 a b g) [] g s fun e s =>
    let n := BitVec.ofNat 10 (fieldOf (e.x b).val 0 10)
    let v := (e.x a).val
    consume e [(a, 3), (b, 4)]
      (if !csrListed n then raise 0x01 1 (BitVec.ofNat 64 (encABG 0xE2000000 a b g))
       else if n = 0x028 ∧ bitOf v 57 = true ∧ !(segOf s (partOf e.rd) (BitVec.ofNat 6 (fieldOf v 58 6))).sys then raise 0x39 2 v
       else .done (sysCsr s e.ci n.toNat v))

/-! ## Segments (R311, R329) -/

/-- Whether a unit on a core holds a handle of a partition: as its current or launch segment, or as its trap segment. -/
def holdsSeg (c : Core) (part : Nat) (h : BitVec 6) : Bool :=
  c.unit.isSome && partOf c == part && (c.a.segCur == h || c.segL == h || (c.tvec.v && c.tvec.hseg == h))

/-- The segment that a descriptor describes. -/
def segOfDesc (d : BitVec 256) : Seg :=
  { base := BitVec.ofNat 64 (fieldOf d 192 64), len := BitVec.ofNat 32 (fieldOf d 160 32), gate := BitVec.ofNat 32 (fieldOf d 128 32),
    toff := BitVec.ofNat 32 (fieldOf d 96 32), eoff := BitVec.ofNat 32 (fieldOf d 64 32), fw := bitOf d 3, sys := bitOf d 2, ev := bitOf d 1,
    v := bitOf d 0 }

/-- Whether an offset of a segment breaks its limit. -/
def offsetBad (g : Seg) (o : Word32) : Bool := o.toNat % 16 != 0 || decide (g.len.toNat ≤ o.toNat)

/-- Whether two segments share an address. -/
def segsMeet (g h : Seg) : Bool :=
  decide (g.base.toNat < h.base.toNat + h.len.toNat) && decide (h.base.toNat < g.base.toNat + g.len.toNat)

/-- Whether a descriptor may not be installed at a handle of a partition. -/
def segBad (p : Part) (h : Nat) (d : BitVec 256) : Bool :=
  let g := segOfDesc d
  fieldOf d 4 60 != 0 || g.base.toNat % 16 != 0 || decide (2 ^ 56 ≤ g.base.toNat) || g.len.toNat % 16 != 0 || g.len == 0 ||
  offsetBad g g.gate || offsetBad g g.toff || offsetBad g g.eoff || (g.fw && !g.sys) ||
  (List.range 64).any fun j => j != h && (vget p.segs Seg.zero j).v && segsMeet g (vget p.segs Seg.zero j)

/-- A change of the handle that a register names: it waits until no unit holds it. -/
def changeSeg (s : State) (v : Word) (g : Seg) : Res :=
  let h := BitVec.ofNat 6 (fieldOf v 0 6)
  let p := fieldOf v 8 3
  if s.cores.toList.any fun c => holdsSeg c p h then .stall
  else .done (modPart s p fun x => { x with segs := vset x.segs h.toNat g })

/-- Whether a register that names a handle and a partition has another bit set. -/
def handleBad (v : Word) : Bool := fieldOf v 6 2 != 0 || fieldOf v 11 53 != 0

/-- SEGSET (R329). -/
def execSegset (a b : BitVec 6) (g : BitVec 3) (s : State) : Host.Outcome State Fault Refusal :=
  issueA (encABG 0xE4000000 a b g) [] g s fun e s =>
    let v := (e.x a).val
    let o := (e.x b).val
    let c := getCore s e.ci
    consume e [(b, 0), (a, 4)]
      (if o.toNat % 32 ≠ 0 then raise 0x14 0 o
       else match localFault e.rd.a o 32 with
        | some t => raise 0x10 0 t
        | none => match firstMarked c (o.toNat / 4) 8 with
          | some m => raise 0x20 3 (BitVec.ofNat 64 m)
          | none =>
            if handleBad v || segBad (getPart s (fieldOf v 8 3)) (fieldOf v 0 6) (scrDesc c o.toNat) then raise 0x39 2 v
            else changeSeg s v (segOfDesc (scrDesc c o.toNat)))

/-- SEGCLR (R329). -/
def execSegclr (a : BitVec 6) (g : BitVec 3) (s : State) : Host.Outcome State Fault Refusal :=
  issueA (encAG 0xE4000001 a g) [] g s fun e s =>
    consume e [(a, 4)] (if handleBad (e.x a).val then raise 0x39 2 (e.x a).val else changeSeg s (e.x a).val Seg.zero)

/-! ## Context images (R330, R333, R336) -/

/-- The core that a register names: bit 6 the die, bits 5:0 the core, none for a core that a die does not have. -/
def namedCore (v : Word) : Option Nat :=
  if fieldOf v 0 6 < 36 then some (36 * fieldOf v 6 1 + fieldOf v 0 6) else none

/-- The halted core that a register names. -/
def haltedCore (s : State) (v : Word) : Option Nat :=
  match namedCore v with
  | some j => if (getCore s j).run = .halted then some j else none
  | none => none

/-- A core whose words with an uncorrectable error have been read: they are marked (R261, R270). -/
def sweepBad (c : Core) : Core :=
  c.badScr.foldl (fun c w => putScr c w (scrWord c w)) (c.badOst.foldl (fun c i => putOst c i (ostLane c i)) c)

/-- The context image of a core. Of its FIFOs only a push that an `sstart` still owes goes with it (R164). -/
def contextImage (c0 : Core) : Core :=
  let c := sweepBad c0
  { Core.zero with a := c.a, snap := c.snap, ext := c.ext, ost := c.ost, fifos := vmap discardFifo c.fifos, chunkDirty := c.chunkDirty, nextCopy := c.nextCopy,
                   chains := c.chains, mxrow := c.mxrow, sstore := c.sstore, tr := c.tr, heldTr := c.heldTr, tvec := c.tvec, bank := c.bank,
                   segL := c.segL, rgnpc := c.rgnpc, rtryTotal := c.rtryTotal, rtryCount := c.rtryCount, rtryMax := c.rtryMax, cyc := c.cyc,
                   unit := c.unit }

/-- The words of a scratchpad that lie in dirty chunks: the others read as zero. -/
def dirtyWords (d : BitVec 128) (m : Sparse Lane) : Sparse Lane := m.filter fun x => bitOf d (x.1 / 16384)

/-- An image loaded into a core, with the scratchpad that the core holds: the unit goes on from its snapshot point. A pre-emption request that the
core holds applies to it if it is of the request's partition (R325). -/
def loadImage (c i : Core) : Core :=
  let mine := c.preempt == i.unit.map fun u => u.part
  rewindFifos { i with scratch := dirtyWords i.chunkDirty c.scratch, badScr := c.badScr, icache := c.icache, l1 := c.l1, invq := c.invq, tlb1 := c.tlb1, tlb2 := c.tlb2, tags := c.tags,
                       inbox := c.inbox, arrivals := c.arrivals, answers := c.answers, adopter := c.adopter, moved := c.moved, rtryCount := 0, run := .running,
                       preempt := if mine then c.preempt else none, asker := if mine then c.asker else none }

/-! ## Scratchpad images (R336) -/

/-- The first words of the blocks of 256 bytes of the chunks that are dirty, in order. -/
def dirtyBlocks (d : BitVec 128) : List Nat :=
  ((List.range 128).filter fun k => bitOf d k).flatMap fun k => (List.range 256).map fun j => 16384 * k + 64 * j

/-- A block of 64 words coded. -/
def codeBlock (l : List Lane) : List Byte :=
  let bytes := l.flatMap fun x => wordBytes x.data
  let w := (nth Lane.zero l 0).data
  if l.any fun x => x.psn then
    3 :: bytes ++ natBytes 8 ((l.zipIdx.map fun x => b2n x.1.psn * 2 ^ x.2).sum)
  else if l.any fun x => x.data != w then 2 :: bytes
  else if w == 0 then [0]
  else 1 :: wordBytes w

/-- The dirty chunks of a core's scratchpad coded. -/
def codeScratch (c : Core) : List Byte :=
  (dirtyBlocks c.chunkDirty).flatMap fun w => codeBlock ((List.range 64).map fun i => scrWord c (w + i))

/-- The words of the first block of a code, and the rest of the code. -/
def decodeBlock : List Byte → List Lane × List Byte
  | [] => ([], [])
  | h :: r =>
    if h = 0 then (List.replicate 64 Lane.zero, r)
    else if h = 1 then (List.replicate 64 { data := BitVec.ofNat 32 (leNat (r.take 4)), psn := false }, r.drop 4)
    else if h = 2 then (lanesOf r [] 64, r.drop 256)
    else
      let m := leNat ((r.drop 256).take 8)
      ((lanesOf r [] 64).zipIdx.map fun x => { x.1 with psn := m / 2 ^ x.2 % 2 == 1 }, r.drop 264)

/-- The scratchpad that a code of blocks at given words restores. -/
def decodeBlocks : List Nat → List Byte → Sparse Lane → Sparse Lane
  | [], _, m => m
  | w :: ws, b, m =>
    let x := decodeBlock b
    decodeBlocks ws x.2 ((x.1.zipIdx).foldl (fun m y => Sparse.put Lane.zero m (w + y.2) y.1) m)

/-- The scratchpad that the code of a core's dirty chunks restores. -/
def decodeScratch (d : BitVec 128) (b : List Byte) : Sparse Lane := decodeBlocks (dirtyBlocks d) b []

/-- CTXOUT (R330). -/
def execCtxout (a b : BitVec 6) (g : BitVec 3) (s : State) : Host.Outcome State Fault Refusal :=
  issueA (encABG 0xE6000000 a b g) [] g s fun e s =>
    consume e [(a, 4), (b, 4)]
      (match haltedCore s (e.x a).val with
       | none => raise 0x39 2 (e.x a).val
       | some j =>
        if 21 < fieldOf (e.x b).val 0 5 then raise 0x39 2 (e.x b).val
        else .done (modDie s (dieOf e.ci) fun d =>
          { d with images := Sparse.put none d.images (fieldOf (e.x b).val 0 5) (some (contextImage (getCore s j))) }))

/-- Whether a core belongs to a partition. -/
def inMask (p : Part) (ci : Nat) : Bool := bitOf (if ci < 36 then p.mask0 else p.mask1) (ci % 36)

/-! ## Boost claims (R382) -/

/-- Whether a core runs a unit of a partition whose BOOSTEN is 1 in the present boost interval (R338). -/
def claimsBoost (s : State) (k : Nat) : Bool :=
  let c := getCore s k
  c.unit.isSome && isUserCore s k && (getPart s (partOf c)).boostNow && match c.run with | .running | .svc _ | .held => true | _ => false

/-- Whether a domain of a die, 0 west and 1 east, claims boost. -/
def claimsNow (s : State) (d dom : Nat) : Bool := (List.range 18).any fun i => claimsBoost s (36 * d + 18 * dom + i)

/-- A domain of a die changed. -/
def modDomain (s : State) (d dom : Nat) (f : Domain → Domain) : State :=
  modDie s d fun x => if dom = 0 then { x with west := f x.west } else { x with east := f x.east }

/-- The state `t` after a core has taken up a unit in `s`: a claim that its domain did not have begins in the present interval. -/
def noteClaim (s t : State) (k : Nat) : State :=
  if !claimsNow s (dieOf k) (domainOf k) && claimsNow t (dieOf k) (domainOf k) then
    modDomain t (dieOf k) (domainOf k) fun x => { x with seen := true, claimSince := t.boostAt }
  else t

/-- CTXIN (R330). -/
def execCtxin (a b : BitVec 6) (g : BitVec 3) (s : State) : Host.Outcome State Fault Refusal :=
  issueA (encABG 0xE6000001 a b g) [] g s fun e s =>
    consume e [(a, 4), (b, 4)]
      (match haltedCore s (e.x a).val with
       | none => raise 0x39 2 (e.x a).val
       | some j =>
        match Sparse.get none (getDie s (dieOf e.ci)).images (fieldOf (e.x b).val 0 5) with
        | none => raise 0x39 2 (e.x b).val
        | some i =>
          if !inMask (getPart s (partOf i)) j then raise 0x39 2 (e.x a).val
          else .done (noteClaim s (modCore s j fun c => loadImage { c with preempt := none, asker := none } i) j))

/-- ASSET (R330). -/
def execAsset (a b : BitVec 6) (g : BitVec 3) (s : State) : Host.Outcome State Fault Refusal :=
  issueA (encABG 0xE6000002 a b g) [] g s fun e s =>
    consume e [(a, 4), (b, 3)]
      (.done (modPart s (fieldOf (e.x a).val 16 3) fun p =>
        { p with asds := Sparse.put 0 p.asds (fieldOf (e.x a).val 0 16) ((e.x b).val &&& (0xFFFFFFFFFF001 : BitVec 64)) }))

/-- The core mask of a partition for a die, as software reads it: user cores only, none on a die without a Bellwether pair (R16, R18). -/
def userMask (s : State) (part d : Nat) : Word :=
  BitVec.ofNat 64 (((List.range 36).filter fun i => inMask (getPart s part) (36 * d + i) && isUserCore s (36 * d + i)).map fun i => 2 ^ i).sum

/-- PINFO (R330). -/
def execPinfo (d a : BitVec 6) (g : BitVec 3) (s : State) : Host.Outcome State Fault Refusal :=
  issueA (encDAG 0xE6000003 d a g) [d] g s fun e s =>
    consume e [(a, 4)]
      (.done (setX e s d (userMask s (partOf e.rd) (fieldOf (e.x a).val 0 1)) false))

/-- A core that holds nothing but zero with marks clear, the registers that a package reset sets otherwise among it (R339). -/
def blankCore : Core :=
  { Core.zero with a := { Arch.zero with abase := 0 }, snap := { Arch.zero with abase := 0 }, rtryMax := 0 }

/-- A core scrubbed (R339): its registers, stores and scratchpad are zero with marks clear, and it has no translations. -/
def scrubCore (c : Core) : Core :=
  { blankCore with run := c.run, unit := c.unit, icache := c.icache, l1 := c.l1, invq := c.invq, inbox := c.inbox, arrivals := c.arrivals,
                   answers := c.answers, nextCopy := c.nextCopy, adopter := c.adopter, moved := c.moved }

/-- The image slots of a partition dropped. -/
def dropImages (part : Nat) (d : Die) : Die :=
  { d with images := d.images.filter fun x => match x.2 with | some i => partOf i != part | none => false }

/-- The halted cores of a partition scrubbed, with its images and translations. -/
def scrubPart (s : State) (part : Nat) : State :=
  let p := getPart s part
  let s1 := (List.range 72).foldl (fun s i =>
    if inMask p i && (getCore s i).run == .halted then modCore s i scrubCore else s) s
  let dropAll := fun (c : Core) => { c with tlb1 := c.tlb1.filter (fun x => x.part != part), tlb2 := c.tlb2.filter (fun x => x.part != part) }
  { s1 with cores := vmap dropAll s1.cores, dies := vmap (dropImages part) s1.dies }

/-- PSCRUB (R330). -/
def execPscrub (a : BitVec 6) (g : BitVec 3) (s : State) : Host.Outcome State Fault Refusal :=
  issueA (encAG 0xE6000004 a g) [] g s fun e s => consume e [(a, 4)] (.done (scrubPart s (fieldOf (e.x a).val 0 3)))

/-! ## The error log and the health record (R330, R331) -/

/-- A dword of an error record. -/
def errDword (r : ErrRec) (k : Nat) : Word :=
  match k with
  | 0 => BitVec.ofNat 64 (r.cause.toNat + 2 ^ 8 * r.eccst.toNat + 2 ^ 24 * r.detail.toNat + 2 ^ 48 * r.core.toNat + 2 ^ 55 * r.die.toNat +
      2 ^ 56 * r.part.toNat)
  | 1 => r.time
  | 2 => r.addr
  | _ => r.aux

/-- ERRRD (R330). -/
def execErrrd (d a : BitVec 6) (g : BitVec 3) (s : State) : Host.Outcome State Fault Refusal :=
  issueA (encDAG 0xE8000000 d a g) [d] g s fun e s =>
    consume e [(a, 4)]
      (let v := (e.x a).val
       let log := (getPart s (fieldOf v 12 3)).errlog
       .done (setX e s d (match log[fieldOf v 2 10]? with | some r => errDword r (fieldOf v 0 2) | none => openWord s 7) false))

/-- HRMARK (R330). -/
def execHrmark (a : BitVec 6) (g : BitVec 3) (s : State) : Host.Outcome State Fault Refusal :=
  issueA (encAG 0xE8000001 a g) [] g s fun e s =>
    consume e [(a, 4)]
      (match haltedCore s (e.x a).val with
       | none => raise 0x39 2 (e.x a).val
       | some j => .done (markRetired s j))

end Sys2Proof.Machine
end

