-- ==== Sys2Proof/Machine/Launch.lean ====
section
/-! DEFINITION. The Drove at work (R342 to R360): portals, queue states, the packets at a queue's head, dispatch, the start and the end of a
unit, cancels and gangs; pre-emption and context switches (R278, R334, R335); and the units of failed cores and dies (R270 to R272). -/

namespace Sys2Proof.Machine

/-! ## Launches and candidates (R355) -/

/-- A launch of a partition by its identity. -/
def launchOf (p : Part) (id : Nat) : Option Launch := p.launches.find? fun l => l.id == id

/-- A launch changed. -/
def modLaunch (s : State) (part id : Nat) (f : Launch → Launch) : State :=
  modPart s part fun p => { p with launches := p.launches.map fun l => if l.id == id then f l else l }

/-- The candidate for unit `i` of a launch that became one now. -/
def candOf (s : State) (part : Nat) (l : Launch) (i : Nat) : Cand :=
  { part := part, launch := l.id, index := i, prio := pPrio l.pkt, arrive := s.dtime.toNat, queue := l.queue, seq := l.seq,
    aff := if l.node then pAff l.pkt else [], homedie := homeOf s (queueOf (getPart s part) l.queue).homedie,
    cosched := (pType l.pkt == 1 && pCosched l.pkt) || l.gang.isSome, aged := false, resume := false }

/-- Candidates entered in their home die's list. -/
def pushCands (s : State) (l : List Cand) : State := l.foldl (fun s u => modDie s u.homedie fun d => { d with cands := d.cands ++ [u] }) s

/-- The key under which cores are held for a launch. -/
def resvKey (part id : Nat) : Nat := 8 * id + part

/-- The cores held for a launch given up. -/
def dropResv (s : State) (key : Nat) : State :=
  { s with dies := vmap (fun (d : Die) => { d with resvCores := d.resvCores.filter fun x => x.2 != key }) s.dies }

/-- What a core is held for. -/
def resvOf (s : State) (k : Nat) : Option Nat := ((getDie s (dieOf k)).resvCores.find? fun x => x.1 == k).map fun x => x.2

/-- The cores held for a launch, in the order in which they were held, die 0 first. -/
def resvCoresOf (s : State) (key : Nat) : List Nat :=
  (List.range 2).flatMap fun d => ((getDie s d).resvCores.filter fun x => x.2 == key).map fun x => x.1

/-- Whether a user core holds no unit. -/
def freeUser (s : State) (k : Nat) : Bool :=
  isUserCore s k && (getCore s k).run == .idle && (getCore s k).unit.isNone && (getDie s (dieOf k)).dispatchOn && s.alarm == .none

/-- The free cores of a partition on a die that nothing is held on. -/
def freeCores (s : State) (part d : Nat) : List Nat :=
  ((List.range 36).map (36 * d + ·)).filter fun k => freeUser s k && inMask (getPart s part) k && (resvOf s k).isNone

/-! ## Completion (R357) -/

/-- An interrupt of a function: one message of each vector waits at most (R370). -/
def raiseMsix (s : State) (func vector : Nat) : State :=
  if s.msixPending.contains (func, vector) then s else { s with msixPending := s.msixPending ++ [(func, vector)] }

/-- A packet of a queue has completed: a held barrier is woken (R358). -/
def finishPacket (s : State) (part q seq : Nat) : State :=
  let s1 := modQueue s part q fun x => { x with open_ := x.open_.erase seq }
  match (queueOf (getPart s1 part) q).heldPkt with
  | some x => if pBarrier x && !(queueOf (getPart s1 part) q).started then wakeQueue s1 part q else s1
  | none => s1

/-- Every predecessor of a node has completed: none is held in the table of its graph. -/
def predsDone (d : Die) (n : GNode) : Bool :=
  n.preds.all fun i => !(d.graph.any fun m => m.part == n.part && m.graph == n.graph && m.nodeid == i)

/-- The nodes of a die that have become ready enter as candidates (R349). -/
def readyNodes (s : State) (d : Nat) : State :=
  let x := getDie s d
  let new := x.graph.filter fun n => !n.ready && predsDone x n
  let s1 := modDie s d fun x => { x with graph := x.graph.map fun n => { n with ready := n.ready || predsDone x n } }
  pushCands s1 (new.flatMap fun n => match launchOf (getPart s1 n.part) n.launch with
    | some l => l.todo.map (candOf s1 n.part l)
    | none => [])

/-- The outstanding counters of a launch's levels changed by a step of one. -/
def countLevels (p : Part) (x : Packet) (up : Bool) : Part :=
  let f := fun n => if up then (n + 1) % 2 ^ 64 else n - 1
  { p with outLaunch := f p.outLaunch, outGraph := if pGraph x = 0 then p.outGraph else f p.outGraph,
           outPhase := if pPhase x = 0 then p.outPhase else f p.outPhase, outJob := f p.outJob }

/-- The completion record of a launch. -/
def recordOf (l : Launch) : Nat :=
  let (unit, core, cause, detail) := match l.fail with | some f => f | none => (0, 0, 0, 0)
  let (cause, detail) := match l.cancelled with | some lv => (0x31, lv) | none => (cause, detail)
  let failed := l.fail.isSome
  cause % 64 + 64 + 2 ^ 16 * (detail % 2 ^ 16) + 2 ^ 32 * (l.seq % 2 ^ 32) +
    (if failed then 2 ^ 64 * (unit % 2 ^ 20) + 2 ^ 84 * (core % 36) + 2 ^ 90 * dieOf core else 0)

/-- The address of a launch's completion record. -/
def recordAddr (s : State) (part : Nat) (l : Launch) : Word :=
  let q := queueOf (getPart s part) l.queue
  q.cplbase + BitVec.ofNat 64 (16 * (l.seq % queueLen q))

/-- A completion record written; a fault of the write is a fault of the queue (R351). -/
def writeRecord (s : State) (part : Nat) (l : Launch) : State :=
  match queueAddr s part (queueOf (getPart s part) l.queue) (recordAddr s part l) .write with
  | none => queueFault (queueWalk s part (queueOf (getPart s part) l.queue) (recordAddr s part l)) part l.queue (recordAddr s part l)
  | some pa =>
    devWrite (queueWalk s part (queueOf (getPart s part) l.queue) (recordAddr s part l)) none part pa (recordAddr s part l)
      (natBytes 16 (recordOf l)) 0 false

/-- Whether a core pins the line of a launch's completion record: the write is tried again (R182). -/
def recordPinned (s : State) (part : Nat) (l : Launch) : Bool :=
  queuePinned s part (queueOf (getPart s part) l.queue) (recordAddr s part l) .write

/-- A launch completes, in the order of R357. -/
def completeLaunch (s : State) (part : Nat) (l : Launch) : State :=
  let q := queueOf (getPart s part) l.queue
  let s1 := writeRecord s part l
  let s2 := if pSigen l.pkt && !(pType l.pkt == 1 && pStanding l.pkt) then addSignal s1 part (pCsig l.pkt) 1 else s1
  let s3 := modPart s2 part fun p => { countLevels p l.pkt false with launches := p.launches.filter fun x => x.id != l.id }
  let s4 := if q.ien then raiseMsix s3 q.func l.queue else s3
  let s5 := dropResv s4 (resvKey part l.id)
  let s6 := { s5 with dies := vmap (fun (d : Die) => { d with graph := d.graph.filter fun n => !(n.part == part && n.launch == l.id) }) s5.dies }
  finishPacket (readyNodes (readyNodes s6 0) 1) part l.queue l.seq

/-- Whether every unit of a launch has ended, and no more can come. -/
def launchDone (l : Launch) : Bool := l.todo.isEmpty && l.live.isEmpty && (!l.standing || l.cancelled.isSome)

/-- A launch completes if it is done, once no core pins the line of its record. -/
def checkLaunch (s : State) (part id : Nat) : State :=
  match launchOf (getPart s part) id with
  | none => s
  | some l => if launchDone l && !recordPinned s part l then completeLaunch s part l else s

/-- The launches of a queue whose completion a pin has held up looked at again (R182). -/
def retryLaunches (s : State) (part q : Nat) : State :=
  ((getPart s part).launches.filter fun l => l.queue == q).foldl (fun s l => checkLaunch s part l.id) s

/-- A failure of a launch: that of the lowest unit counts. -/
def addFail (l : Launch) (f : Nat × Nat × Nat × Nat) : Launch :=
  { l with fail := match l.fail with | none => some f | some g => some (if f.1 < g.1 then f else g) }

/-- The item of a unit of a standing launch released, and its output published (R354). -/
def endItem (s : State) (part : Nat) (l : Launch) (index cause : Nat) : State :=
  match l.items.find? fun x => x.1 % pUnits l.pkt == index with
  | none => s
  | some (n, m) =>
    let s1 := modLaunch s part l.id fun x => { x with items := x.items.erase (n, m) }
    let s2 := finishItem s1 part (pIring l.pkt) n
    let s3 := match m with | some m => outputItem s2 part (pOring l.pkt) m (cause != 0) | none => s2
    if pSigen l.pkt then addSignal s3 part (pCsig l.pkt) 1 else s3

/-- The items of a standing launch that wait to be started again given up (R356, R359). -/
def endRequeued (s : State) (part : Nat) (l : Launch) : State :=
  if l.items.isEmpty then s
  else l.todo.foldl (fun s n => match launchOf (getPart s part) l.id with
    | some l => endItem s part l (n % pUnits l.pkt) 0x31
    | none => s) s

/-- The rest of a launch given up with a cause: nothing more is dispatched (R348, R360). A later failure of a launch is recorded (R357). -/
def failLaunch (s : State) (part : Nat) (l : Launch) (f : Nat × Nat × Nat × Nat) : State :=
  let s0 := if l.fail.isSome then logErr s part f.2.1 f.2.2.1 f.2.2.2 none none 0 else s
  let s1 := endRequeued (dropResv (dropCands s0 fun u => u.part == part && u.launch == l.id && !u.resume) (resvKey part l.id)) part l
  checkLaunch (modLaunch s1 part l.id fun x => { addFail x f with todo := [], standing := false }) part l.id

/-! ## The start of a unit (R104, R258, R356) -/

/-- TVEC at unit start (R317). -/
def startTvec (p : Part) : Tvec :=
  match p.trapSeg with
  | none => { hseg := 0, v := false, off := 0 }
  | some h => { hseg := h, v := true, off := BitVec.ofNat 28 ((vget p.segs Seg.zero h.toNat).toff.toNat / 16) }

/-- The snapshot items at unit start. -/
def startArch (l : Launch) (x1 x2 : Word) : Arch :=
  let x := l.pkt
  let split := pType x == 1 && pSplit x
  let pc := fun k => if split then pEntry x k else pEntry x 0
  let reg := fun (v : Word) => ({ val := v, psn := false } : Reg)
  { Arch.zero with mode := if split then .split else .joint, pc := #v[pc 0, pc 1, pc 2, pc 3], segCur := pSeg x,
                   regs := vset (vset (vset Arch.zero.regs 1 (reg x1)) 2 (reg x2)) 3 (reg (BitVec.ofNat 64 (pUnits x))),
                   tokens := #v[pTok x 0, pTok x 1, pTok x 2, pTok x 3, pTok x 4, pTok x 5, pTok x 6, pTok x 7, pTok x 8, pTok x 9,
                                pTok x 10, pTok x 11] }

/-- A core that starts a unit: what no rule sets keeps its value. The start is an acquire (R356). -/
def startCore (s : State) (part : Nat) (l : Launch) (index : Nat) (arrive : Nat) (x1 x2 : Word) (c : Core) : Core :=
  let p := getPart s part
  let a := startArch l x1 x2
  { acquire c with
           a := a, snap := a, ext := [], scratch := [], badScr := [], chunkDirty := 0, stash := [], cbuf := [], departing := [], outst := [],
           fifos := Vector.replicate 8 Fifo.zero, copies := [], backlog := [], chains := Vector.replicate 4 Chain.zero, mxq := [],
           mxrow := c.mxrow &&& (2 ^ 63 - 1 : BitVec 64), walk := none, vigils := [], almq := [], sstore := [], shcap := none,
           pobs := Vector.replicate 16 0, sfail := 0, shrun := .none, engTraps := [], tvec := startTvec p, nopSlot := none,
           segL := pSeg l.pkt, rgnpc := rgnpcOf a, rtryTotal := 0, rtryCount := 0, rtryMax := p.rtrymax, cyc := 0,
           unit := some { part := part, asn := l.asn, launch := l.id, index := index, prio := pPrio l.pkt,
                          arrive := arrive, start := s.dtime.toNat, seg := pSeg l.pkt, committed := false, localw := 0, record := none,
                          err := none, gang := l.gang },
           run := .running, freeze := none, resends := [],
           preempt := if c.preempt = some part then c.preempt else none, asker := if c.preempt = some part then c.asker else none }

/-- The first line of each cluster's entry fetched ahead for a unit that has started: a line that is pinned is left out (R182, R356). -/
def prefetchEntries (s : State) (k : Nat) : State :=
  [Cluster.c, .l, .k, .s].foldl (fun s cl =>
    let a := pcOf (getCore s k) cl
    if fetchPinned s k cl a then s else noteFetch s k cl a) s

/-- The retired core that a unit has left for its launch record passes arrivals on to core `k`, where the unit starts again (R270, R272). -/
def followUnit (u : UnitRef) (k : Nat) (c : Core) : Core := if c.moved = some u then { c with moved := none, adopter := some k } else c

/-- Unit `index` of a launch started on core `k`. -/
def startUnit (s : State) (part : Nat) (l : Launch) (k index arrive : Nat) (x1 x2 : Word) : State :=
  let s0 := { s with cores := vmap (followUnit { part := part, launch := l.id, index := index, arrive := arrive } k) s.cores }
  let s1 := noteClaim s (modCore s0 k fun c => startCore s part l index arrive x1 x2 c) k
  modLaunch (prefetchEntries s1 k) part l.id fun x => { x with todo := x.todo.erase index, live := x.live ++ [index] }

/-! ## Standing launches (R354) -/

/-- The standing launch whose items a queue's head claims: its queue is not STOPPED, and it is not cancelled. -/
def standingOf (p : Part) (q : Nat) : Option Launch :=
  let x := queueOf p q
  if !x.started || x.st == .stopped || x.st == .reset then none
  else p.launches.find? fun l => l.standing && l.queue == q && l.seq == x.heldSeq && l.cancelled.isNone

/-- Whether item `n` of a ring has completed or been dropped. -/
def itemOver (p : Part) (r : Nat) (n : Nat) : Bool :=
  let x := ringOf p r
  decide (n < (counterOf p x.relc.toNat).toNat) || x.finished.contains n

/-- Whether a ring has room for item `m`. -/
def ringRoom (p : Part) (r m : Nat) : Bool :=
  let x := ringOf p r
  satisfied (counterOf p x.relc.toNat) ((m + 1 + 2 ^ 24 - capOf x % 2 ^ 24) % 2 ^ 24)

/-- The state once an output ring's policy has made what room it can: DROP_OLD drops items of it. -/
def makeRoom (s : State) (part r m : Nat) : State :=
  let x := ringOf (getPart s part) r
  if x.policy = 2 ∧ !ringRoom (getPart s part) r m then dropOld s part r ((m + 1 + 2 ^ 24 - capOf x % 2 ^ 24) % 2 ^ 24) else s

/-- Whether a standing launch has an item to dispatch: it is not dropped, and the item UNITS before it is over. -/
def itemOpen (p : Part) (l : Launch) : Bool :=
  let x := ringOf p (pIring l.pkt)
  decide (x.clm < (counterOf p x.pubc.toNat).toNat) && !x.dropped.contains x.clm &&
  (decide (x.clm < pUnits l.pkt) || itemOver p (pIring l.pkt) (x.clm - pUnits l.pkt))

/-- Whether the next item of a standing launch may be dispatched: it is open, and its output has room or goes without. -/
def itemReady (s : State) (part : Nat) (l : Launch) : Bool :=
  let p := getPart s part
  let o := ringOf p (pOring l.pkt)
  itemOpen p l && (!pOen l.pkt || o.policy == 1 || ringRoom p (pOring l.pkt) o.rsv)

/-- A dropped item claimed: it is over, and its output item is reserved as DROPPED. -/
def skipItem (s : State) (part : Nat) (l : Launch) : State :=
  let i := pIring l.pkt
  let n := (ringOf (getPart s part) i).clm
  let s1 := finishItem (modRing s part i fun x => { x with clm := x.clm + 1 }) part i n
  if pOen l.pkt then
    let m := (ringOf (getPart s1 part) (pOring l.pkt)).rsv
    outputItem (modRing s1 part (pOring l.pkt) fun x => { x with rsv := x.rsv + 1 }) part (pOring l.pkt) m true
  else s1

/-- Whether a candidate is a new item of a launch, and not a unit that resumes or starts again. -/
def Cand.isItem (u : Cand) (part : Nat) (l : Launch) : Bool := u.part == part && u.launch == l.id && !u.resume && !l.todo.contains u.index

/-- The next item of a standing launch looked at: a dropped one is skipped, one that may be dispatched becomes a candidate. The policy of its
output ring acts once the item UNITS before it is over (R354). -/
def claimItem (s : State) (part q : Nat) : State :=
  match standingOf (getPart s part) q with
  | none => s
  | some l =>
    let x := ringOf (getPart s part) (pIring l.pkt)
    if (counterOf (getPart s part) x.pubc.toNat).toNat ≤ x.clm then s
    else if x.dropped.contains x.clm then skipItem s part l
    else if !itemOpen (getPart s part) l then s
    else
      let s1 := if pOen l.pkt then makeRoom s part (pOring l.pkt) (ringOf (getPart s part) (pOring l.pkt)).rsv else s
      if itemReady s1 part l && !(s1.dies.toList.any fun d => d.cands.any fun u => u.isItem part l) then
        pushCands s1 [candOf s1 part l x.clm]
      else s1

/-- STANDING_CLAIM (R354). -/
def execStandingClaim (part q : Nat) (s : State) : Host.Outcome State Fault Refusal :=
  if 8 ≤ part ∨ 64 ≤ q then .fault .noSuchAgent else .next (claimItem s part q)

/-- The item record of R356. -/
def itemRecord (l : Launch) (i o : Ring) (n : Nat) (m : Option Nat) : List Byte :=
  let slot := fun (r : Ring) (k : Nat) => r.slotbase.toNat + r.slotsz.toNat * (k % capOf r)
  natBytes 8 n ++ natBytes 8 (slot i n) ++ natBytes 8 (match m with | some m => m | none => 2 ^ 64 - 1) ++
    natBytes 8 (match m with | some m => slot o m | none => 0) ++ natBytes 8 (pArg l.pkt).toNat ++ natBytes 24 0

/-- The books of a standing launch once item `n` is claimed with output item `out`: CLM and RSV move on, and an output that DROP_NEW gives up is
published as DROPPED. -/
def bookItem (s : State) (part : Nat) (l : Launch) (n : Nat) (out : Option Nat) : State :=
  let o := pOring l.pkt
  let m := (ringOf (getPart s part) o).rsv
  let s1 := modRing s part (pIring l.pkt) fun x => { x with clm := x.clm + 1 }
  let s2 := if pOen l.pkt then modRing s1 part o fun x => { x with rsv := x.rsv + 1 } else s1
  let s3 := if pOen l.pkt && out.isNone then refuseOutput s2 part o m else s2
  modLaunch s3 part l.id fun x => { x with items := x.items ++ [(n, out)] }

/-- Item `n` of a standing launch started on core `k` with output item `out`: its record is written, and `book` is done with it. A pinned
record is tried again (R182). -/
def runItem (s : State) (part : Nat) (l : Launch) (k : Nat) (u : Cand) (n : Nat) (out : Option Nat) (book : State → State) : State :=
  let p := getPart s part
  let r := ringOf p (pIring l.pkt)
  let va := r.recbase + BitVec.ofNat 64 (64 * (n % capOf r))
  let s0 := dropCands (queueWalk s part (queueOf p l.queue) va) fun v => v == u
  if queuePinned s part (queueOf p l.queue) va .write then s
  else match queueAddr s part (queueOf p l.queue) va .write with
    | none => queueFault s0 part l.queue va
    | some pa =>
      let s1 := book (devWrite s0 none part pa va (itemRecord l r (ringOf p (pOring l.pkt)) n out) 0 false)
      startUnit s1 part l k (n % pUnits l.pkt) u.arrive va (BitVec.ofNat 64 (n % pUnits l.pkt))

/-- An item of a standing launch dispatched on core `k`: one that waits to start again keeps its output (R356), a new one is claimed if it may
still be. -/
def startItem (s : State) (part : Nat) (l : Launch) (k : Nat) (u : Cand) : State :=
  let p := getPart s part
  let again := fun (s : State) => modLaunch s part l.id fun x => { x with todo := x.todo.erase u.index }
  match (if l.todo.contains u.index then l.items.find? fun x => x.1 == u.index else none) with
  | some (n, out) => runItem s part l k u n out again
  | none =>
    let n := (ringOf p (pIring l.pkt)).clm
    if u.index ≠ n ∨ !itemReady s part l ∨ (standingOf p l.queue).isNone then dropCands s fun v => v == u
    else
      let m := (ringOf p (pOring l.pkt)).rsv
      let out := if pOen l.pkt && ringRoom p (pOring l.pkt) m then some m else none
      runItem s part l k u n out fun s => bookItem s part l n out

/-! ## Units switched out (R333 to R335) -/

/-- The candidate of a unit that waits to resume. -/
def resumeCand (s : State) (u : UnitInfo) (l : Launch) : Cand := { candOf s u.part l u.index with arrive := u.arrive, cosched := false, resume := true }

/-- The lowest free slot of a die's shadow store (R333; log 52). -/
def imageSlot (s : State) (d : Nat) : Option Nat := (List.range 22).find? fun k => (Sparse.get none (getDie s d).images k).isNone

/-- The state with an image in a slot of a die's shadow store, if one is free: else it goes to the save area (R333; log 52). -/
def placeImage (s : State) (d : Nat) (i : Core) : State × Option (Nat × Nat) :=
  match imageSlot s d with
  | none => (s, none)
  | some k => (modDie s d fun x => { x with images := Sparse.put none x.images k (some (contextImage i)) }, some (d, k))

/-- What is put aside of a unit: its words with an error are marked, its clean chunks read as zero, and its scratchpad is coded (R333,
R336). -/
def asideOf (i0 : Core) (place : Option (Nat × Nat)) (ci : Nat) (u : UnitInfo) : Switched :=
  let i := sweepBad i0
  { image := { i with scratch := dirtyWords i.chunkDirty i.scratch, badScr := [], badOst := [] }, place := place, coded := codeScratch i,
    core := ci, launch := u.launch, index := u.index, held := [] }

/-- A unit's state put aside, and the unit a candidate again with its original ARRIVE (R334). -/
def putAside (s : State) (i : Core) (ci : Nat) : State :=
  match i.unit with
  | none => s
  | some u =>
    let (s1, place) := placeImage s (homeOf s (dieOf ci)) i
    let s2 := modPart s1 u.part fun p => { p with switched := p.switched ++ [asideOf i place ci u] }
    match launchOf (getPart s2 u.part) u.launch with
    | some l => pushCands s2 [resumeCand s2 u l]
    | none => s2

/-- Arrivals held for a unit applied in their order. -/
def applyHeld (c : Core) (l : List ExtEv) : Core := l.foldl (fun c x => let c1 := applyExt c x; { c1 with ext := c1.ext ++ [x] }) c

/-- A unit switched in on core `k`: its image, its scratchpad, and then the arrivals held for it. -/
def resumeUnit (s : State) (k : Nat) (u : Cand) : State :=
  let s0 := dropCands s fun v => v == u
  match (getPart s u.part).switched.find? fun x => x.isUnit u.launch u.index with
  | none => s0
  | some x =>
    let s1 := dropSwitched s0 u.part x
    let s2 := if (getCore s1 x.core).run == .retired then modCore s1 x.core fun c => { c with adopter := some k } else s1
    noteClaim s2 (modCore s2 k fun c =>
      let c1 := loadImage { c with scratch := decodeScratch x.image.chunkDirty x.coded, badScr := [] } x.image
      applyHeld { c1 with unit := c1.unit.map fun v => { v with start := s.dtime.toNat } } x.held) k

/-! ## Dispatch (R355) -/

/-- The order of candidates: PRIO descending, ARRIVE, queue, SEQ and unit index ascending. -/
def candBefore (a b : Cand) : Bool :=
  let k := fun (u : Cand) => [3 - u.prio, u.arrive, u.queue, u.seq, u.index]
  decide (k a < k b)

/-- The first candidate in order. -/
def firstCand : List Cand → Option Cand
  | [] => none
  | a :: r => match firstCand r with
    | none => some a
    | some b => some (if candBefore b a then b else a)

/-- The candidates of a partition that die `d` chooses from: those of the other die only while it has no free core of the partition. -/
def visibleCands (s : State) (part d : Nat) : List Cand :=
  let of_ := fun d => (getDie s d).cands.filter fun u => u.part == part
  of_ d ++ if (freeCores s part (1 - d)).isEmpty then of_ (1 - d) else []

/-- The number of cores of a die that run units of a partition. -/
def busyOf (s : State) (part d : Nat) : Nat :=
  ((List.range 36).filter fun i => let c := getCore s (36 * d + i); c.unit.isSome && partOf c == part).length

/-- The AFF tags of a candidate that a core's tag list holds. -/
def heldTags (c : Core) (u : Cand) : Nat := (u.aff.filter c.tags.contains).length

/-- Whether a candidate has aged: 50 µs have passed. -/
def isAged (s : State) (u : Cand) : Bool := u.aged || decide (u.arrive + 50000 ≤ s.dtime.toNat)

/-- Whether a candidate may go to core `k` of a partition: by its age, or because no user core holds more of its tags. -/
def fitsCore (s : State) (part k : Nat) (u : Cand) : Bool :=
  let best := ((List.range 36).map fun i =>
    let j := 36 * dieOf k + i
    if isUserCore s j && inMask (getPart s part) j then heldTags (getCore s j) u else 0).foldl max 0
  isAged s u || best == 0 || heldTags (getCore s k) u == best

/-- Whether a candidate may start: a unit that a fault of its committed copies has frozen resumes once the fault service has answered (R241;
log 52). -/
def mayStart (s : State) (u : Cand) : Bool :=
  !(u.resume && (getPart s u.part).switched.any fun x => x.isUnit u.launch u.index && x.image.freeze.isSome)

/-- The candidates that core `k` may start: those of the launch that holds it, or else any whose core is not yet found. -/
def openCands (s : State) (part k : Nat) : List Cand :=
  (visibleCands s part (dieOf k)).filter fun u =>
    mayStart s u && match resvOf s k with
    | some key => u.cosched && resvKey u.part u.launch == key
    | none => true

/-- The partition that core `k` serves next: the least Busy × 64 ÷ WEIGHT, the lower number on a tie. -/
def choosePart (s : State) (k : Nat) : Option Nat :=
  let d := dieOf k
  let l := (List.range 8).filter fun p => inMask (getPart s p) k && !(openCands s p k).isEmpty
  match l with
  | [] => none
  | p :: r => some (r.foldl (fun b p => if busyOf s p d * (getPart s b).weight < busyOf s b d * (getPart s p).weight then p else b) p)

/-- A gang message to every other member. -/
def sendGang (s : State) (g : Gang) (m : GangMsg) : State :=
  { s with outbox := s.outbox ++ ((List.range 8).filter fun i => bitOf g.members i && i != g.self).map fun i => .gang i g.gangid m }

/-- A gang of a partition changed. -/
def modGang (s : State) (part id : Nat) (f : Gang → Gang) : State :=
  modPart s part fun p => { p with gangs := p.gangs.map fun g => if g.gangid == id then f g else g }

/-- Core `k` found for a gang: once there is a core for every unit, its units are no candidates any more, and the member confirms (R355, R360). -/
def reserveGang (s : State) (part : Nat) (l : Launch) (g : Gang) : State :=
  let cores := resvCoresOf s (resvKey part l.id)
  let s0 := if cores.length = l.units then dropCands s fun v => v.part == part && v.launch == l.id && !v.resume else s
  let s1 := modGang s0 part g.gangid fun x => { x with reserved := cores }
  if cores.length = l.units ∧ !bitOf g.confirms g.self then
    sendGang (modGang s1 part g.gangid fun x => { x with confirms := putBit x.confirms x.self true }) g .confirm
  else s1

/-- Cores held for a launch. -/
def holdCores (s : State) (key : Nat) (l : List Nat) : State :=
  l.foldl (fun s k => modDie s (dieOf k) fun d => { d with resvCores := d.resvCores ++ [(k, key)] }) s

/-- The units of a launch that are not yet dispatched started together on a list of cores. -/
def startTogether (s : State) (part : Nat) (l : Launch) (arrive : Nat) (cores : List Nat) : State :=
  let s1 := dropResv (dropCands s fun v => v.part == part && v.launch == l.id && !v.resume) (resvKey part l.id)
  (l.todo.zip cores).foldl (fun s x => startUnit s part l x.2 x.1 arrive (pArg l.pkt) (BitVec.ofNat 64 x.1)) s1

/-- A candidate whose units start together, with core `k` free: they start, or the core is held. -/
def startCosched (s : State) (part : Nat) (l : Launch) (k : Nat) (u : Cand) : State :=
  let key := resvKey part l.id
  let held := resvCoresOf s key
  let all := held ++ (if held.contains k then [] else k :: (freeCores s part 0 ++ freeCores s part 1).filter fun j => j != k)
  match l.gang with
  | some id =>
    match (getPart s part).gangs.find? fun g => g.gangid == id with
    | none => s
    | some g =>
      let s1 := if held.contains k ∨ l.units ≤ held.length then s else holdCores s key [k]
      reserveGang s1 part l g
  | none =>
    if l.todo.length ≤ all.length then startTogether s part l u.arrive (all.take l.todo.length)
    else if held.contains k then s
    else holdCores s key [k]

/-- A chosen candidate started on core `k`. -/
def startCand (s : State) (k : Nat) (u : Cand) : State :=
  match launchOf (getPart s u.part) u.launch with
  | none => dropCands s fun v => v == u
  | some l =>
    if u.resume then resumeUnit s k u
    else if !(segOf s u.part (pSeg l.pkt)).v then failLaunch s u.part l (u.index % pUnits l.pkt, k, 0x39, 2)
    else if u.cosched then startCosched s u.part l k u
    else if l.standing then startItem s u.part l k u
    else startUnit (dropCands s fun v => v == u) u.part l k u.index u.arrive (pArg l.pkt) (BitVec.ofNat 64 u.index)

/-- The dispatch choice for core `k`. -/
def dispatchCore (s : State) (k : Nat) : State :=
  if !freeUser s k then s
  else match choosePart s k with
    | none => s
    | some p => match firstCand ((openCands s p k).filter (fitsCore s p k)) with
      | none => s
      | some u => startCand s k u

/-- DISPATCH (R355). -/
def execDispatch (core : Nat) (s : State) : Host.Outcome State Fault Refusal :=
  if 72 ≤ core then .fault .noSuchAgent else .next (dispatchCore s core)

/-- A candidate once its 50 us have passed (R355). -/
def agedCand (s : State) (part index : Nat) (u : Cand) : Cand :=
  if u.part == part && u.index == index && decide (u.arrive + 50000 ≤ s.dtime.toNat) then { u with aged := true } else u

/-- CANDIDATE_AGED (R355). -/
def execCandidateAged (part index : Nat) (s : State) : Host.Outcome State Fault Refusal :=
  if 8 ≤ part then .fault .noSuchAgent
  else .next { s with dies := vmap (fun (d : Die) => { d with cands := d.cands.map (agedCand s part index) }) s.dies }

/-! ## The end of a unit (R121, R357) -/

/-- Whether an operation on its way is an arrival at a peer, which a unit's end does not wait for (R256). -/
def Outstanding.isArrive : Outstanding → Bool
  | .peerArrive _ _ => true
  | _ => false

/-- Whether everything that a unit has issued has completed. -/
def unitQuiet (c : Core) : Bool :=
  c.copies.isEmpty && c.backlog.isEmpty && c.departing.isEmpty && c.outst.all Outstanding.isArrive && c.freeze.isNone &&
  (List.range 4).all fun k => !chainLive (chainOf c k) && (chainOf c k).kick.isNone

/-- A steal request that a core has taken is refused (R127). -/
def refuseTaken (s : State) (c : Core) : State :=
  match c.a.req with
  | some j => sendAnswer s j none
  | none => s

/-- A core that no longer holds a unit. -/
def freeCore (c : Core) : Core :=
  { c with unit := none, run := .idle, ext := [], resends := [], a := { c.a with req := none, pins := [] } }

/-- The end of unit `u` of core `ci` with a cause reaches the Drove. -/
def unitEnded (s : State) (u : UnitInfo) (ci cause detail : Nat) : State :=
  let s1 := modPart s u.part fun p => { p with records := p.records.filter fun (x : Durable) => !(x.launch == u.launch && x.index == u.index) }
  match launchOf (getPart s1 u.part) u.launch with
  | none => s1
  | some l =>
    let s2 := if l.items.isEmpty then s1 else endItem s1 u.part l u.index cause
    let s3 := modLaunch s2 u.part l.id fun x =>
      let y := { x with live := x.live.erase u.index }
      if cause = 0 then y else addFail y (u.index, ci, cause, detail)
    checkLaunch s3 u.part l.id

/-- An ended unit completes once it is quiet: its core is free. A refused peer write gives its status where nothing else does (R256). -/
def completeUnit (s : State) (ci : Nat) : State :=
  let c := getCore s ci
  match c.run, c.unit with
  | .ending cause detail, some u =>
    if !unitQuiet c then s
    else
      let st := if cause = 0 then (match u.err with | some x => x | none => (0, 0)) else (cause, detail)
      unitEnded (putCore (refuseTaken s c) ci (freeCore c)) u ci st.1 st.2
  | _, _ => s

/-- Whether a core holds an ended unit that is quiet. -/
def mayComplete (s : State) (ci : Nat) : Bool :=
  let c := getCore s ci
  unitQuiet c && c.unit.isSome && match c.run with | .ending _ _ => true | _ => false

/-- UNIT_COMPLETION (R121): that of a unit that has ended after it was switched out comes first. -/
def execUnitCompletion (core : Nat) (s : State) : Host.Outcome State Fault Refusal :=
  if 72 ≤ core then .fault .noSuchAgent else .next (withPast s core (mayComplete · core) (completeUnit · core))

/-! ## Cancels (R359) -/

/-- A running unit ended at once by a cancel: its open region is discarded, and no error record is written. -/
def cancelCore (s : State) (ci level : Nat) : State :=
  let c := getCore s ci
  match c.run, c.unit with
  | .retired, some u => unitEnded (putCore s ci { c with unit := none }) u ci 0x31 level
  | .ending _ _, _ => s
  | .idle, _ => s
  | _, none => s
  | _, some u => putCore (withdraw s u.part ci) ci { endChains (discardRegion c) with run := .ending 0x31 level, freeze := none }

/-- The fault record of a switched-out unit's copies withdrawn from the fault service. -/
def withdrawPast (p : Part) (x : Switched) : Part :=
  match x.image.freeze with
  | none => p
  | some f => { p with svcq := p.svcq.erase { core := x.core, svc := false, arg := f.addr } }

/-- A switched-out unit ended by a cancel: at once if it has left nothing behind, else once what it has has completed (R121, R359). -/
def cancelPast (s : State) (part level : Nat) (x : Switched) : State :=
  let i := { endChains x.image with run := .ending 0x31 level, freeze := none }
  let s1 := modPart s part fun p => withdrawPast p x
  if unitQuiet i then
    match x.image.unit with
    | some u => unitEnded (dropSwitched s1 part x) u x.core 0x31 level
    | none => dropSwitched s1 part x
  else modPart s1 part fun p => { p with switched := p.switched.map fun y => if y.isUnit x.launch x.index then { y with image := i } else y }

/-- The cores that hold units of a launch. -/
def coresOf (s : State) (part id : Nat) : List Nat :=
  (List.range 72).filter fun i => match (getCore s i).unit with | some u => u.part == part && u.launch == id | none => false

/-- A launch cancelled at a level. -/
def cancelLaunch (s : State) (part level : Nat) (l : Launch) : State :=
  let s1 := dropResv (dropCands s fun u => u.part == part && u.launch == l.id) (resvKey part l.id)
  let s2 := modPart (endRequeued s1 part l) part fun p => { p with gangs := p.gangs.filter fun g => g.launch != l.id }
  let s3 := modLaunch s2 part l.id fun x => { x with todo := [], cancelled := some level }
  let s4 := ((getPart s1 part).switched.filter fun x => x.launch == l.id).foldl (fun s x => cancelPast s part level x) s3
  let s5 := (coresOf s4 part l.id).foldl (fun s i => cancelCore s i level) s4
  checkLaunch s5 part l.id

/-- Whether a CANCEL packet names a launch. -/
def cancelNames (x : Packet) (l : Launch) : Bool :=
  let id := fieldOf x 128 16
  match fieldOf x 64 3 with
  | 1 => l.queue == fieldOf x 128 6 && l.seq % 2 ^ 32 == fieldOf x 160 32
  | 2 => id != 0 && pGraph l.pkt == id
  | 3 => id != 0 && pPhase l.pkt == id
  | _ => pJob l.pkt == id

/-- The launches that a CANCEL packet names, cancelled. -/
def cancelAll (s : State) (part : Nat) (x : Packet) : State :=
  ((getPart s part).launches.filter (cancelNames x)).foldl (fun s l =>
    match launchOf (getPart s part) l.id with
    | some l => cancelLaunch s part (fieldOf x 64 3) l
    | none => s) s

/-! ## Queue heads (R349, R350) -/

/-- Whether a wait packet is satisfied. -/
def waitOver (p : Part) (x : Packet) : Bool :=
  let l := (List.range (pNsig x)).map fun i => satisfied (signalOf p (pWait x i).1) (pWait x i).2
  if pType x = 3 then l.all id else l.any id

/-- Whether a held packet waits for earlier packets of its queue. -/
def barrierHeld (x : Queue) (pkt : Packet) : Bool := pBarrier pkt && x.open_.any fun n => decide (n < x.heldSeq)

/-- Whether what holds a queue's head still holds it. -/
def headHeld (s : State) (part q : Nat) : Bool :=
  let p := getPart s part
  let x := queueOf p q
  match x.heldPkt with
  | none => false
  | some pkt =>
    if !x.started then
      barrierHeld x pkt || ((pType pkt == 3 || pType pkt == 4) && !waitOver p pkt) ||
        (pType pkt == 2 && decide (2048 ≤ (getDie s (homeOf s x.homedie)).graph.length))
    else match p.launches.find? fun l => l.queue == q && l.seq == x.heldSeq with
      | none => false
      | some l => if l.gang.isSome then p.gangs.any fun g => g.launch == l.id else x.dataPlane || !l.todo.isEmpty

/-- The head of a queue evaluated: ACTIVE or WAITING, and a packet that no longer holds it moves on. -/
def evalHead (s : State) (part q : Nat) : State :=
  if headHeld s part q then modQueue s part q fun x => { x with st := .waiting }
  else modQueue s part q fun x =>
    { x with st := .active, heldPkt := if x.started then none else x.heldPkt, started := false }

/-- HEAD_CONDITION_SATISFIED (R350). -/
def execHeadConditionSatisfied (part q : Nat) (s : State) : Host.Outcome State Fault Refusal :=
  if 8 ≤ part ∨ 64 ≤ q then .fault .noSuchAgent
  else
    let s := retryLaunches s part q
    .next (if (queueOf (getPart s part) q).st = .waiting ∧ !headHeld s part q then evalHead s part q else s)

/-- The next packet of a queue fetched: a fault, or a marked sector, is a fault of the queue; one that has become malformed is counted and
skipped (R348, R351). -/
def fetchPacket (s : State) (part q : Nat) : State :=
  let x := queueOf (getPart s part) q
  if x.st ≠ .active ∨ x.heldPkt.isSome ∨ x.tail ≤ x.head then s
  else
    let va := entryAddr x x.head
    if queuePinned s part x va .read then s
    else match queueAddr s part x va .read with
    | none => queueFault (queueWalk s part x va) part q va
    | some pa =>
      let (s1, mark) := touchSector (queueWalk s part x va) part (36 * homeOf s x.homedie) none pa 64 va
      if mark then queueFault s1 part q va
      else
        let pkt := BitVec.ofNat 512 (leNat (memBytes s1.mem pa 64))
        let s2 := modQueue s1 part q fun x => { x with head := x.head + 1 }
        if packetBad s2 part x.dataPlane pkt then
          finishPacket (modPart s2 part fun p => { p with malformed := (p.malformed + 1) % 2 ^ 64 }) part q x.head
        else modQueue s2 part q fun x => { x with heldPkt := some pkt, heldSeq := x.head - 1, started := false }

/-- QUEUE_FETCH (R349). -/
def execQueueFetch (part q : Nat) (s : State) : Host.Outcome State Fault Refusal :=
  if 8 ≤ part ∨ 64 ≤ q then .fault .noSuchAgent else .next (fetchPacket (retryLaunches s part q) part q)

/-- A packet leaves the head of its queue, completed. -/
def passHead (s : State) (part q : Nat) : State :=
  let n := (queueOf (getPart s part) q).heldSeq
  finishPacket (modQueue s part q fun x => { x with heldPkt := none, started := false }) part q n

/-- A packet of a type acts at the head of an ACTIVE queue; one that its barrier holds makes the queue WAITING. -/
def headEvent (s : State) (part q type : Nat) (f : Packet → State) : Host.Outcome State Fault Refusal :=
  if 8 ≤ part ∨ 64 ≤ q then .fault .noSuchAgent
  else
    let x := queueOf (getPart s part) q
    match x.heldPkt with
    | none => .next s
    | some pkt =>
      if x.st ≠ .active ∨ x.started ∨ pType pkt ≠ type then .next s
      else if headHeld s part q then .next (evalHead s part q)
      else .next (f pkt)

/-- NOP_PACKET (R349). -/
def execNopPacket (part q : Nat) (s : State) : Host.Outcome State Fault Refusal :=
  headEvent s part q 0 fun _ => passHead s part q

/-- A launch record made for the packet at a queue's head; its level counters count it. -/
def newLaunch (s : State) (part q : Nat) (x : Packet) : Launch :=
  let y := queueOf (getPart s part) q
  { id := (getPart s part).nextLaunch, queue := q, seq := y.heldSeq, pkt := x, asn := y.asn, units := pUnits x,
    todo := if pType x == 1 && pStanding x then [] else List.range (pUnits x), live := [], fail := none, cancelled := none,
    standing := pType x == 1 && pStanding x, arrive := s.dtime.toNat, node := pType x == 2,
    gang := if pType x = 7 then some (pGangId x) else none, items := [] }

/-- A launch entered in its partition's books. -/
def addLaunch (s : State) (part : Nat) (l : Launch) : State :=
  modPart s part fun p => { countLevels p l.pkt true with launches := p.launches ++ [l], nextLaunch := p.nextLaunch + 1 }

/-- A packet that stays at the head, its launch begun. -/
def holdHead (s : State) (part q : Nat) : State := evalHead (modQueue s part q fun x => { x with started := true }) part q

/-- LAUNCH_PACKET (R349). -/
def execLaunchPacket (part q : Nat) (s : State) : Host.Outcome State Fault Refusal :=
  headEvent s part q 1 fun x =>
    let l := newLaunch s part q x
    let s1 := addLaunch s part l
    holdHead (pushCands s1 (l.todo.map (candOf s1 part l))) part q

/-- NODE_PACKET (R349). -/
def execNodePacket (part q : Nat) (s : State) : Host.Outcome State Fault Refusal :=
  headEvent s part q 2 fun x =>
    let l := newLaunch s part q x
    let d := homeOf s (queueOf (getPart s part) q).homedie
    let n : GNode := { part := part, graph := pGraph x, nodeid := pNodeId x, preds := (List.range (pNpred x)).map (pPred x), launch := l.id,
                       ready := false }
    let s1 := modDie (addLaunch s part l) d fun y => { y with graph := y.graph ++ [n] }
    modQueue (readyNodes s1 d) part q fun x => { x with heldPkt := none, started := false }

/-- WAIT_ALL_PACKET (R349). -/
def execWaitAllPacket (part q : Nat) (s : State) : Host.Outcome State Fault Refusal :=
  headEvent s part q 3 fun _ => passHead s part q

/-- WAIT_ANY_PACKET (R349). -/
def execWaitAnyPacket (part q : Nat) (s : State) : Host.Outcome State Fault Refusal :=
  headEvent s part q 4 fun _ => passHead s part q

/-- SIGNAL_PACKET (R349). -/
def execSignalPacket (part q : Nat) (s : State) : Host.Outcome State Fault Refusal :=
  headEvent s part q 5 fun x =>
    let v := BitVec.ofNat 64 (pDword x 2)
    let i := fieldOf x 64 12
    let s1 := passHead s part q
    if bitOf x 76 then addCounter s1 part (i % 256) v else addSignal s1 part i v

/-- CANCEL_PACKET (R359). -/
def execCancelPacket (part q : Nat) (s : State) : Host.Outcome State Fault Refusal :=
  headEvent s part q 6 fun x => cancelAll (passHead s part q) part x

/-! ## Portals and queue states (R342, R350, R358) -/

/-- Whether the endpoints answer more than the PF's configuration and status: one is in service, and no alarm stands (R368, R378). -/
def endpointsOpen (s : State) : Bool := s.alarm == .none && s.dies.toList.any fun d => d.endpointUp

/-- The partition whose queue `q` a function's portal serves (R337, R341). -/
def portalPart (s : State) (func q : Nat) : Option Nat :=
  if !endpointsOpen s then none else
  (List.range 8).find? fun p =>
    let x := getPart s p
    decide (q < 64) && (queueOf x q).func == func && (x.owner == func || x.queueFuncs.contains func) && queueServed p (queueOf x q) && !x.resetting

/-- PORTAL_DMWR (R342). -/
def execPortalDmwr (func q : Nat) (pkt : BitVec 512) (s : State) : Host.Outcome State Fault Refusal :=
  let out := fun (s : State) (m : OutMsg) => Host.Outcome.next { s with outbox := s.outbox ++ [m] }
  match portalPart s func q with
  | none => out s (.unsupported func q)
  | some p =>
    match deliver s p q pkt with
    | (s1, .accepted) => out s1 (.dmwrOk func q)
    | (s1, .retry) => out s1 (.dmwrRetry func q)
    | (s1, .abort) => out s1 (.dmwrAbort func q)
    | (s1, .unsupported) => out s1 (.unsupported func q)
    | (s1, .pinned) => .next s1

/-- PORTAL_POSTED_WRITE (R342). -/
def execPortalPostedWrite (func q : Nat) (pkt : BitVec 512) (s : State) : Host.Outcome State Fault Refusal :=
  match portalPart s func q with
  | none => .next { s with outbox := s.outbox ++ [.unsupported func q] }
  | some p =>
    let r := deliver s p q pkt
    .next (if r.2 = .pinned then r.1 else modQueue r.1 p q fun x => { x with lref := r.2 != .accepted })

/-- PORTAL_WAKE (R358). -/
def execPortalWake (func q : Nat) (s : State) : Host.Outcome State Fault Refusal :=
  match portalPart s func q with
  | none => .next { s with outbox := s.outbox ++ [.unsupported func q] }
  | some p => .next (wakeQueue s p q)

/-- A host write that requests a transition of a queue. -/
def stateEvent (s : State) (part q : Nat) (f : QState → State) : Host.Outcome State Fault Refusal :=
  if 8 ≤ part ∨ 64 ≤ q then .fault .noSuchAgent else .next (f (queueOf (getPart s part) q).st)

/-- The number of queues that a die's Drove maps: a queue that is STOPPED takes its place among them as it is activated (R358; log 59). -/
def mappedQueues (s : State) (d : Nat) : Nat :=
  ((List.range 8).map fun p => ((getPart s p).queues.toList.filter fun x =>
    homeOf s x.homedie == d && match x.st with | .active | .waiting | .fetchFault | .unmapping => true | _ => false).length).foldl (· + ·) 0

/-- QUEUE_ACTIVATE (R350). -/
def execQueueActivate (part q : Nat) (s : State) : Host.Outcome State Fault Refusal :=
  stateEvent s part q fun st =>
    match st with
    | .fetchFault => evalHead s part q
    | .stopped =>
      if 128 ≤ mappedQueues s (homeOf s (queueOf (getPart s part) q).homedie) then s else evalHead s part q
    | .unmapped =>
      if 128 ≤ mappedQueues s (homeOf s (queueOf (getPart s part) q).homedie) then s
      else evalHead (modQueue s part q fun x => { x with pw := false }) part q
    | _ => s

/-- QUEUE_STOP (R350). -/
def execQueueStop (part q : Nat) (s : State) : Host.Outcome State Fault Refusal :=
  stateEvent s part q fun st =>
    match st with
    | .active | .waiting => modQueue s part q fun x => { x with st := .stopped }
    | _ => s

/-- QUEUE_UNMAP (R358). -/
def execQueueUnmap (part q : Nat) (s : State) : Host.Outcome State Fault Refusal :=
  stateEvent s part q fun st =>
    match st with
    | .active | .waiting | .stopped => modQueue s part q fun x => { x with st := .unmapping }
    | _ => s

/-- QUEUE_UNMAPPED (R358). -/
def execQueueUnmapped (part q : Nat) (s : State) : Host.Outcome State Fault Refusal :=
  stateEvent s part q fun st =>
    match st with
    | .unmapping =>
      let s1 := modQueue s part q fun x => { x with st := .unmapped }
      if (queueOf (getPart s part) q).pw then { s1 with outbox := s1.outbox ++ [.wakeNotice part q] } else s1
    | _ => s

/-! ## Gangs (R360) -/

/-- A gang with a message of a member. -/
def Gang.hear (g : Gang) (member : Nat) (msg : GangMsg) : Gang :=
  match msg with
  | .confirm => { g with confirms := putBit g.confirms member true }
  | .go => { g with gos := putBit g.gos member true }
  | .nogo mask => { g with nogos := putBit g.nogos member true, missing := g.missing ||| mask }

/-- GANG_PACKET (R360): messages that came before it are heard now. -/
def execGangPacket (part q : Nat) (s : State) : Host.Outcome State Fault Refusal :=
  headEvent s part q 7 fun x =>
    let l := newLaunch s part q x
    let g : Gang := { gangid := pGangId x, members := pMembers x, self := pSelf x, tick := pTick x, launch := l.id, confirms := 0, gos := 0,
                      nogos := 0, missing := 0, sent := false, reserved := [] }
    let early := (getPart s part).gangEarly.filter fun m => m.1 == g.gangid
    let s1 := modPart (addLaunch s part l) part fun p =>
      { p with gangs := p.gangs ++ [early.foldl (fun g m => g.hear m.2.1 m.2.2) g], gangEarly := p.gangEarly.filter fun m => m.1 != g.gangid }
    let free := (freeCores s1 part 0 ++ freeCores s1 part 1).take l.units
    let s2 := if free.length = l.units then reserveGang (holdCores s1 (resvKey part l.id) free) part l g
              else pushCands s1 (l.todo.map (candOf s1 part l))
    holdHead s2 part q

/-- An event of a gang that a partition has. -/
def gangEvent (s : State) (part id : Nat) (f : Gang → State) : Host.Outcome State Fault Refusal :=
  if 8 ≤ part then .fault .noSuchAgent
  else match (getPart s part).gangs.find? fun g => g.gangid == id with
    | none => .next s
    | some g => .next (f g)

/-- GANG_MESSAGE_RECEIVE (R360): a message that comes before this member's own packet has acted is kept for it. -/
def execGangMessageReceive (part gang member : Nat) (msg : GangMsg) (s : State) : Host.Outcome State Fault Refusal :=
  if 8 ≤ part ∨ 8 ≤ member then .fault .noSuchAgent
  else if (getPart s part).gangs.any fun g => g.gangid == gang then .next (modGang s part gang fun g => g.hear member msg)
  else .next (modPart s part fun p => { p with gangEarly := p.gangEarly ++ [(gang, member, msg)] })

/-- The ports that lead from a partition to a member: those of its peer windows that name it, or any where none does (log 30). -/
def portsTo (s : State) (part m : Nat) : List Port :=
  let ws := (getPart s part).peerWin.toList.filter fun d => bitOf d 0 && fieldOf d 8 3 == m
  s.dies.toList.flatMap fun d => (d.ports.toList.zipIdx.filter fun x => ws.isEmpty || ws.any fun w => bitOf w (4 + x.2)).map fun x => x.1

/-- Whether the link to another member of a gang has failed, which stops this one from sending GO. -/
def linkFailed (s : State) (part : Nat) (g : Gang) : Bool :=
  (List.range 8).any fun m => bitOf g.members m && m != g.self &&
    ((portsTo s part m).any fun p => p.failed) && !(portsTo s part m).any fun p => p.up

/-- GANG_GO_DECISION (R360). -/
def execGangGoDecision (part gang : Nat) (s : State) : Host.Outcome State Fault Refusal :=
  gangEvent s part gang fun g =>
    if g.sent ∨ s.dtime.toNat + 2000 < g.tick then s
    else if g.members &&& ~~~g.confirms = 0 then
      if linkFailed s part g then modGang s part gang fun g => { g with sent := true }
      else sendGang (modGang s part gang fun g => { g with sent := true, gos := putBit g.gos g.self true }) g .go
    else
      let miss := g.members &&& ~~~g.confirms
      sendGang (modGang s part gang fun g => { g with sent := true, nogos := putBit g.nogos g.self true, missing := g.missing ||| miss }) g
        (.nogo miss)

/-- The lowest member in a mask. -/
def lowestMember (m : BitVec 8) : Nat := match (List.range 8).find? fun i => bitOf m i with | some i => i | none => 0

/-- GANG_RELEASE (R360). -/
def execGangRelease (part gang : Nat) (s : State) : Host.Outcome State Fault Refusal :=
  gangEvent s part gang fun g =>
    if s.dtime.toNat < g.tick then s
    else
      let s1 := modPart s part fun p => { p with gangs := p.gangs.filter fun x => x.gangid != gang }
      match launchOf (getPart s part) g.launch with
      | none => s1
      | some l =>
        let miss := g.members &&& ~~~g.gos
        if miss = 0 then
          if !(segOf s part (pSeg l.pkt)).v then failLaunch s1 part l (0, nth 0 g.reserved 0, 0x39, 2)
          else startTogether s1 part l l.arrive (resvCoresOf s1 (resvKey part l.id))
        else failLaunch s1 part l (0, 0, 0x34, if g.missing = 0 then lowestMember miss else lowestMember g.missing)

/-! ## Pre-emption (R278, R325, R334, R355) -/

/-- Whether a PRIO 3 candidate of a partition finds no free core, and core `ci` holds the unit to be pre-empted for it: the lowest PRIO
below 3, and on a tie the latest dispatch. -/
def isVictim (s : State) (part ci : Nat) : Bool :=
  let units := (List.range 72).filterMap fun i =>
    match (getCore s i).unit with
    | some u => if inMask (getPart s part) i && isUserCore s i && decide (u.prio < 3) && (getCore s i).preempt.isNone then some (i, u) else none
    | none => none
  let worse := fun (a b : UnitInfo) => decide (a.prio < b.prio) || (a.prio == b.prio && decide (b.start < a.start))
  (freeCores s part 0).isEmpty && (freeCores s part 1).isEmpty &&
  units.any fun x => x.1 == ci && units.all fun y => x.1 == y.1 || !worse y.2 x.2

/-- What names a candidate that has raised a request. -/
def Cand.asker (u : Cand) : Nat × Nat × Nat := (u.part, u.launch, u.index)

/-- The PRIO 3 candidate for which a pre-emption request may reach core `ci`, if any: each has one outstanding at most. -/
def mayPreempt (s : State) (ci : Nat) : Option Cand :=
  (s.dies.toList.flatMap fun d => d.cands).find? fun u =>
    u.prio == 3 && !(s.cores.toList.any fun c => c.asker == some u.asker) && isVictim s u.part ci

/-- A unit that has not committed is discarded, and its launch record re-queued; of a standing launch, with its item (R278, R354, R356). -/
def requeueUnit (s : State) (ci : Nat) (u : UnitInfo) : State :=
  match launchOf (getPart s u.part) u.launch with
  | none => s
  | some l =>
    match l.cancelled with
    | some lv => unitEnded s u ci 0x31 lv
    | none =>
      let n := match (if l.standing then l.items.find? fun x => x.1 % pUnits l.pkt == u.index else none) with | some x => x.1 | none => u.index
      let s1 := modLaunch s u.part l.id fun x => { x with todo := natInsert n x.todo, live := x.live.erase u.index }
      pushCands s1 [{ candOf s1 u.part l n with arrive := u.arrive, cosched := false }]

/-- A pre-emption request reaches a core. -/
def preemptCore (s : State) (ci : Nat) : State :=
  let c := getCore s ci
  match mayPreempt s ci, c.unit with
  | none, _ => s
  | _, none => s
  | some x, some u =>
    let now := match c.run with | .running => c.freeze.isNone && !u.committed && !(c.a.tl || c.a.uh) | _ => false
    if now then
      let s1 := logErr (putCore (refuseTaken s c) ci (freeCore (endChains (discardRegion c)))) u.part ci 0x30 1 none none 0
      requeueUnit s1 ci u
    else putCore s ci { c with preempt := some u.part, asker := some x.asker }

/-- PREEMPTION_REQUEST (R278). -/
def execPreemptionRequest (core : Nat) (s : State) : Host.Outcome State Fault Refusal :=
  if 72 ≤ core then .fault .noSuchAgent else .next (preemptCore s core)

/-- A chain's COPY that has not started dropped: its slot goes back to the entry (R334). -/
def dropUnstarted (c : Core) : Core :=
  let l := c.copies.filter fun x => x.slot.isSome && x.done == 0
  { c with copies := c.copies.filter (fun x => !(x.slot.isSome && x.done == 0)),
           chains := l.reverse.foldl (fun v x => match x.slot with
             | some k => vset v k { vget v Chain.zero k with cpc := x.entry, st := .run }
             | none => v) c.chains }

/-- What a unit that is switched out leaves with the Drove: its context and scratchpad, and its committed copies, posts and operations on their
way, which go on (R333, R334). A steal request that its core has taken is refused. -/
def leftBehind (c : Core) : Core :=
  let i := contextImage c
  let quiet := fun (a : Arch) => { a with req := none }
  { i with a := quiet i.a, snap := quiet i.snap, scratch := c.scratch, badScr := c.badScr, copies := c.copies, backlog := c.backlog,
           departing := c.departing, outst := c.outst, resends := c.resends,
           ext := i.ext.filter fun x => match x with | .request _ => false | _ => true }

/-- A core whose unit has been switched out: its stash has been written back and dropped (R336). -/
def leftCore (c : Core) : Core :=
  { freeCore c with stash := [], copies := [], backlog := [], departing := [], outst := [], chains := Vector.replicate 4 Chain.zero,
                    fifos := Vector.replicate 8 Fifo.zero, preempt := none, asker := none }

/-- A halted core switched: its context and scratchpad are put aside, and the core takes the next candidate. A chain stops at an entry's boundary:
its COPY under way ends first (R334). -/
def switchCore (s : State) (ci : Nat) : State :=
  let c := dropUnstarted (getCore s ci)
  match (if c.run == .halted && c.freeze.isNone && !c.copies.any (fun x => x.slot.isSome) then c.unit else none) with
  | none => s
  | some u =>
    let s1 := putCore (refuseTaken s c) ci (leftCore c)
    dispatchCore (putAside (logErr s1 u.part ci 0x30 0 none none 0) (leftBehind c) ci) ci

/-- CONTEXT_SWITCH (R334). -/
def execContextSwitch (core : Nat) (s : State) : Host.Outcome State Fault Refusal :=
  if 72 ≤ core then .fault .noSuchAgent else .next (switchCore s core)

/-! ## Failed cores and dies (R270 to R273) -/

/-- What a retired core hands on: the snapshot with the deltas applied, its stores, their words with an uncorrectable error marked, and the
committed copies to run again in full (R270). -/
def adoptImage (c : Core) : Core :=
  restoreSnap
    { sweepBad c with freeze := none, rtryCount := 0, resends := [], preempt := none, asker := none, adopter := none, nopSlot := none,
                      copies := (c.copies.filter fun x => !x.open_).map fun (x : Copy) => { x with done := 0, ahead := [] }, badOst := [] }

/-- The unit of a retired core taken over by a free core, or put aside if none of its partition is free. -/
def adoptUnit (s : State) (ci j : Nat) : State :=
  let c := getCore s ci
  match (if c.run == .retired then c.unit else none) with
  | none => s
  | some u =>
    let near := freeCores s u.part (dieOf ci)
    let far := freeCores s u.part (1 - dieOf ci)
    let old := { c with unit := none, copies := [], backlog := [], departing := [], outst := [] }
    if near.isEmpty && far.isEmpty then
      putAside (putCore s ci old) (adoptImage c) ci
    else if near.contains j || (near.isEmpty && far.contains j) then
      let s1 := modCore (putCore s ci { old with adopter := some j }) j fun d =>
        loadImage { d with scratch := (adoptImage c).scratch, badScr := [] } (adoptImage c)
      noteClaim s s1 j
    else s

/-- UNIT_ADOPTION (R270). -/
def execUnitAdoption (core adopter : Nat) (s : State) : Host.Outcome State Fault Refusal :=
  if 72 ≤ core ∨ 72 ≤ adopter then .fault .noSuchAgent else .next (adoptUnit s core adopter)

/-- The image of a unit that resumes from a durable record (R273, R309): its tiles are EMPTY, its stores zero, CYC 0. -/
def recordImage (s : State) (r : Durable) (u : UnitInfo) : Core :=
  let empty := r.snap.tiles.map fun x => (x.1, { x.2 with st := TileSt.empty })
  let shep := vmap (fun (x : ShSlot) => if x.st = .off then x else { x with st := .invalid }) r.snap.shep
  let a := { r.snap with tiles := empty, shep := shep }
  { Core.zero with a := a, snap := a, tvec := startTvec (getPart s u.part), segL := u.seg, rgnpc := rgnpcOf a,
                   rtryMax := (getPart s u.part).rtrymax, unit := some { u with committed := true, localw := 0 } }

/-- The durable record of a unit. -/
def durableOf (p : Part) (u : UnitInfo) : Option Durable := p.records.find? fun x => x.launch == u.launch && x.index == u.index

/-- The unit of a core that has failed: resumed from its record if `usable` allows, re-queued if it has not committed, or failed with a
cause (R271, R272), with a record unless one stands already. -/
def failUnit (s : State) (ci : Nat) (u : UnitInfo) (usable : Bool) (cause detail : Nat) (record : Bool) : State :=
  match (if usable then durableOf (getPart s u.part) u else none) with
  | some r => putAside s (recordImage s r u) ci
  | none =>
    if !u.committed then requeueUnit s ci u
    else unitEnded (if record then logErr s u.part ci cause detail none none 0 else s) u ci cause detail

/-- An error in a core's snapshot store: its unit is handled as on a lone core failure, and the core retires. -/
def snapshotLost (s : State) (ci : Nat) : State :=
  let c := getCore s ci
  match (if c.run == .retired then none else c.unit) with
  | none => s
  | some u =>
    let s1 := retireCore (withdraw s u.part ci) ci 0
    let s2 := modCore (refuseTaken s1 c) ci fun c => { leftCore c with run := .retired, freeze := none, moved := some (refOf u) }
    failUnit s2 ci u true 0x22 0 false

/-- SNAPSHOT_STORE_ERROR (R272). -/
def execSnapshotStoreError (core : Nat) (s : State) : Host.Outcome State Fault Refusal :=
  if 72 ≤ core then .fault .noSuchAgent else .next (snapshotLost s core)

/-- What a failed die's cache held of mirrored memory with a mark: its sectors are stored poisoned. -/
def spoilCache (s : State) (l : List DcLine) : State :=
  { s with poisoned := (l.filter fun x => paKind (128 * x.line) == 2 && x.marks != 0).foldl (fun p x => natInsert (x.line / 2) p) s.poisoned }

/-- Every complete durable record of a partition applied again (R185). -/
def applyRecords (s : State) (part : Nat) : State :=
  (getPart s part).records.foldl (fun s r => r.stores.foldl (fun s x => devWrite s none part x.1 0 x.2.1 x.2.2 false) s) s

/-- A partition without its cores of a die, which has no user cores any more (R16). -/
def maskDie (p : Part) (d : Nat) : Part := if d = 0 then { p with mask0 := 0 } else { p with mask1 := 0 }

/-- The surviving cores without their copies of the lines of a failed die's local memory, which read poisoned from then on (R185). -/
def dropLost (s : State) (d : Nat) : State :=
  { s with cores := vmap (fun (c : Core) => { c with
      l1 := c.l1.filter fun x => paKind (128 * x.line) != d, stash := c.stash.filter fun x => paKind (128 * x.line) != d }) s.cores }

/-- The units of a failed die handled under R271, those switched out of its cores with them. -/
def failDie (s : State) (d : Nat) : State :=
  let ok := fun (u : UnitInfo) => !bitOf u.localw d
  let live := (List.range 36).filterMap fun i => let c := getCore s (36 * d + i); c.unit.map fun u => (36 * d + i, u)
  let gone := (List.range 8).flatMap fun p => ((getPart s p).switched.filter fun x => dieOf x.core == d).filterMap fun x =>
    x.image.unit.map fun u => (x.core, u)
  let lost := getDie s d
  let s1 := (List.range 36).foldl (fun s i => putCore s (36 * d + i) Core.zero) s
  let s2 := (List.range 8).foldl (fun s p => modPart s p fun x =>
    { maskDie x d with switched := x.switched.filter fun y => dieOf y.core != d, svcq := x.svcq.filter fun y => dieOf y.core != d }) s1
  let s3 := modDie s2 d fun x => { x with up := false, endpointUp := false, dispatchOn := false, restarting := false, cands := [], graph := [], images := [], resvCores := [], walkCache := [], dcache := [] }
  let s4 := modDie s3 (1 - d) fun x => { x with
    graph := x.graph ++ lost.graph
    cands := x.cands ++ (lost.cands.filter fun u => !(u.resume && gone.any fun g => g.2.launch == u.launch && g.2.index == u.index)).map fun (u : Cand) => { u with homedie := 1 - d } }
  let s5 := dropCands s4 fun u => u.resume && gone.any fun g => g.2.part == u.part && g.2.launch == u.launch && g.2.index == u.index
  let s6 := (List.range 8).foldl applyRecords (spoilCache (dropLost s5 d) lost.dcache)
  (live ++ gone).foldl (fun s x => failUnit s x.1 x.2 (ok x.2) 0x25 d true) s6

/-- DIE_FAILOVER (R271). -/
def execDieFailover (die : Nat) (s : State) : Host.Outcome State Fault Refusal :=
  if 2 ≤ die then .fault .noSuchAgent else .next (if (getDie s die).up && (getDie s (1 - die)).up then failDie s die else s)

end Sys2Proof.Machine
end

