-- ==== Sys2Proof/Machine/Device.lean ====
section
/-! DEFINITION. The package around the cores (R361 to R384, R391): heat, power and boost, memory scrubbing, alarms, package reset, firmware
restart and update, function-level reset (R339), interrupts, Tether links, and the host's and the peers' accesses. -/

namespace Sys2Proof.Machine

/-! ## Records without a partition of their own -/

/-- The partition whose log takes a record that no rule gives to one: it is open (log 4). -/
def openPart (s : State) : Nat := (openWord s 8).toNat % 8

/-- The core that stands for a die's firmware in a record: the leader of its Bellwether pair (R15). -/
def firmwareCore (s : State) (d : Nat) : Nat := 36 * d + match (getDie s d).bellwether with | some i => i | none => 0

/-! ## Heat and power (R380, R381) -/

/-- A die in reset by its own power fault: its units are handled as on a failover. -/
def dieFault (s : State) (d : Nat) : State := if (getDie s d).up then failDie s d else s

/-- THERMAL_TRIP (R381). -/
def execThermalTrip (die : Nat) (s : State) : Host.Outcome State Fault Refusal :=
  if 2 ≤ die then .fault .noSuchAgent else .next (dieFault s die)

/-- THERMAL_THROTTLE (R381). -/
def execThermalThrottle (die : Nat) (s : State) : Host.Outcome State Fault Refusal :=
  if 2 ≤ die then .fault .noSuchAgent
  else .next (modDie s die fun d => { d with thrt := true, gate := max 1 d.gate })

/-- THERMAL_THROTTLE_END (R381). -/
def execThermalThrottleEnd (die : Nat) (s : State) : Host.Outcome State Fault Refusal :=
  if 2 ≤ die then .fault .noSuchAgent
  else .next (modDie s die fun d => { d with thrt := false, gate := if d.pwrg then d.gate else 0 })

/-- The power that the package may draw (R377, R380). -/
def powerLimit (s : State) : Nat := min s.powerCeiling s.workLimit

/-- A die's gating one interval on: up by 1 while its heat or its power asks for it. Which die is over its budget while the package is over
its ceiling, and how far gating falls once the estimate fits, are open (log 4). -/
def gateStep (s : State) (d : Die) (above alone : Bool) : Die :=
  let up := min 15 (d.gate + 1)
  let w := openWord s 9
  if above && !d.noBoost then { d with noBoost := true, gate := if d.thrt then up else d.gate }
  else if above && (alone || bitOf w 4) then { d with gate := up, pwrg := true }
  else if above then { d with gate := if d.thrt then up else d.gate }
  else
    let g := min d.gate (w.toNat % 16)
    { d with noBoost := d.pwrg && decide (0 < g), pwrg := d.pwrg && decide (0 < g), gate := if d.thrt then up else g }

/-- A die's estimate of its power, at most one in an interval of 4 µs; firmware may lower its working limit with it, and never raise it (R377,
R380; log 38). -/
def estimatePower (s : State) (die watts : Nat) (limit : Option Nat) : State :=
  if s.dtime.toNat / 4000 < (getDie s die).estimates then s
  else
    let s1 := modDie { s with workLimit := min s.workLimit (limit.getD s.workLimit) } die fun d =>
      { d with watts := watts, estimates := s.dtime.toNat / 4000 + 1 }
    let total := (getDie s1 0).watts + (getDie s1 1).watts
    modDie s1 die fun d => gateStep s d (decide (powerLimit s1 < total)) (decide (powerLimit s1 < watts))

/-- POWER_ESTIMATE (R380). -/
def execPowerEstimate (die : Nat) (p : PowerReport) (s : State) : Host.Outcome State Fault Refusal :=
  if 2 ≤ die then .fault .noSuchAgent else .next (estimatePower s die p.watts p.limit)

/-! ## Boost (R382, R383) -/

/-- A domain at the end of an interval, before the arbiter's grants: its permits, its fall, and its claim (R382). `old` is whether it claims at the
end, `now` whether it does at the start of interval `next`, where the BOOSTEN bits written meanwhile take effect (R338). -/
def endInterval (x : Domain) (old now : Bool) (next : Nat) : Domain :=
  let claimed := x.seen || old
  let idle := x.step == 0 && !claimed
  let run := if idle then x.idleRun + 1 else 0
  let halves :=
    if x.step = 2 then x.halves - 2
    else if x.step = 1 then x.halves - 1
    else if idle && run % 2 == 0 then min 128 (x.halves + 1) else x.halves
  let falls := x.step == 2 && halves == 0
  { step := x.step, halves := halves, claim := now, seen := now, claimSince := (if now && !old then next else x.claimSince), falling := falls,
    waitNoClaim := falls || (x.waitNoClaim && claimed), idleRun := run }

/-- Whether the arbiter considers a domain of a die. -/
def mayBoost (d : Die) (x : Domain) : Bool :=
  x.claim && decide (0 < x.halves) && !x.falling && !x.waitNoClaim && !d.noBoost && !d.thrt

/-- The step of a domain for the next interval: the older claim of the two gets 2.5 GHz, west on a tie; another gets 2.3 GHz, as does a
domain in the first interval of its fall (R382, R383). -/
def boostStep (d : Die) (x y : Domain) (west : Bool) : Nat :=
  if mayBoost d x then
    if !mayBoost d y || decide (x.claimSince < y.claimSince) || (west && x.claimSince == y.claimSince) then 2 else 1
  else if x.falling && !d.noBoost && !d.thrt then 1 else 0

/-- The state with the BOOSTEN bits in force that the host has written (R338). -/
def applyBoosten (s : State) : State := { s with parts := vmap (fun (p : Part) => { p with boostNow := p.boosten }) s.parts }

/-- A die at the start of an interval: its domains' steps, and the values that BSTAT reports (R384). -/
def startInterval (s : State) (i : Nat) (d : Die) : Die :=
  let w := endInterval d.west (claimsNow s i 0) (claimsNow (applyBoosten s) i 0) (s.boostAt + 1)
  let e := endInterval d.east (claimsNow s i 1) (claimsNow (applyBoosten s) i 1) (s.boostAt + 1)
  { d with west := { w with step := boostStep d w e true }, east := { e with step := boostStep d e w false },
           gateHeld := d.gate, pwrgHeld := d.pwrg, thrtHeld := d.thrt }

/-- The next interval begins, once DTIME has reached its multiple of 4,000. -/
def nextInterval (s : State) : State :=
  if s.dtime.toNat / 4000 ≤ s.boostAt then s
  else
    let s1 := modDie s 0 (startInterval s 0)
    { applyBoosten (modDie s1 1 (startInterval s 1)) with boostAt := s.boostAt + 1 }

/-- BOOST_INTERVAL (R382). -/
def execBoostInterval (s : State) : Host.Outcome State Fault Refusal :=
  .next (nextInterval s)

/-! ## Time (R373) -/

/-- DTIME_SYNC (R373): the time master keeps its DTIME. -/
def execDtimeSync (slew : Int) (s : State) : Host.Outcome State Fault Refusal :=
  .next (if slew.natAbs ≤ 100 ∧ s.timeMaster = false then { s with slew := slew } else s)

/-! ## Memory (R362, R365, R366) -/

/-- A scrub read of a sector: what it finds is recorded and corrections are written back; nothing is stored poisoned. -/
def scrubSector (s : State) (sector : Nat) : State :=
  let addr := BitVec.ofNat 64 (sector * 256)
  let part := openPart s
  let core := firmwareCore s (homeDie s (sector * 256))
  if lostMem s (sector * 256) || s.poisoned.contains sector then s
  else match Sparse.get none s.faulty sector with
    | none => s
    | some .uncorrectable => logErr s part core 0x3B 0 (some addr) (some 0) 2
    | some (.tagMismatch corr) => countMismatch (logErr s part core 0x3A 0 (some addr) (some 0) (b2n corr)) part core
    | some .corrected => { s with faulty := Sparse.put none s.faulty sector none, corrected := s.corrected + 1 }

/-- PATROL_SCRUB (R366). -/
def execPatrolScrub (sector : Nat) (s : State) : Host.Outcome State Fault Refusal :=
  if !inDevice s (sector * 256) then .fault .noSuchAgent else .next (scrubSector s sector)

/-- MIRRORED_SIZE_SET (R362). -/
def execMirroredSizeSet (gib : Nat) (s : State) : Host.Outcome State Fault Refusal :=
  .next (if 1 ≤ gib ∧ gib ≤ 56 then { s with mirroredNext := gib } else s)

/-! ## Alarms (R378) -/

/-- The alarm at ERASE: the machine halts, and the memory keys, the attestation key and the owner keys are gone (log 40). -/
def eraseAlarm (s : State) : State :=
  let s1 := logErr s (openPart s) (firmwareCore s 0) 0x3C 2 none none 0
  { s1 with alarm := .erase, keysValid := false, attKey := false, parts := vmap (fun (p : Part) => { p with ownerKeys := [] }) s1.parts }

/-- GLITCH_DETECT (R378). -/
def execGlitchDetect (s : State) : Host.Outcome State Fault Refusal :=
  .next (eraseAlarm s)

/-- OWNER_PROVISIONING (R378): after ERASE the package has its attestation key again. -/
def execOwnerProvisioning (part : Nat) (key : BitVec 64) (s : State) : Host.Outcome State Fault Refusal :=
  if 8 ≤ part then .fault .noSuchAgent
  else .next (modPart { s with attKey := true } part fun p => { p with ownerKeys := if p.ownerKeys.contains key then p.ownerKeys else p.ownerKeys ++ [key] })

/-! ## Package reset (R16, R374) -/

/-- The leader of a die's Bellwether pair: the higher core of the first candidate pair in which neither core fails its self-test or is
retired, none if there is none (R16). -/
def choosePair (retired fail : List Nat) (d : Nat) : Option Nat :=
  ((List.range 18).map fun k => 35 - 2 * k).find? fun i =>
    [36 * d + i, 36 * d + i - 1].all fun j => !retired.contains j && !fail.contains j

/-- A die after package reset: without a pair it is not brought up. -/
def bootDie (retired fail : List Nat) (d : Nat) : Die :=
  let pair := choosePair retired fail d
  { Die.zero with bellwether := pair, up := pair.isSome, endpointUp := pair.isSome, dispatchOn := pair.isSome }

/-- Whether the flash holds an image that the boot check accepts. -/
def imageGood (s : State) : Bool := s.flashValid && decide (s.minVersion ≤ s.flashVersion)

/-- The verified image that each die's SRAM holds after the flash has been read (R374). -/
def bootImage (s : State) : Option Nat := if imageGood s then some s.flashVersion else none

/-- The package after a reset: what flash holds, and the world outside, stay. -/
def resetPackage (s : State) (fail : List Nat) : State :=
  let b := State.reset
  let s1 := { b with
    dies := #v[bootDie s.retiredCores fail 0, bootDie s.retiredCores fail 1]
    parts := vmap (fun (p : Part) => { p with ownerKeys := (getPart s p.owner).ownerKeys }) b.parts
    hostMem := s.hostMem, hostPoison := s.hostPoison, peerMem := s.peerMem, peerPoison := s.peerPoison, outbox := s.outbox
    retiredCores := s.retiredCores, minVersion := s.minVersion, flashValid := s.flashValid, flashVersion := s.flashVersion
    fwImage := #v[bootImage s, bootImage s], attKey := s.attKey, mirroredGiB := s.mirroredNext
    mirroredNext := s.mirroredNext, keyEpoch := s.keyEpoch + 1, agenda := s.agenda, focusCore := s.focusCore, focusCl := s.focusCl
    tick := s.tick }
  if imageGood s then s1
  else eraseAlarm { s1 with dies := vmap (fun (d : Die) => { d with recovery := true, dispatchOn := false }) s1.dies }

/-- PACKAGE_RESET (R374). -/
def execPackageReset (fail : List Nat) (s : State) : Host.Outcome State Fault Refusal :=
  .next (resetPackage s fail)

/-! ## Firmware restart and update (R17, R375, R376) -/

/-- Whether a core of a restarting die has come to rest: it holds at its commit point, waits for the fault service, or runs no unit. -/
def atRest (c : Core) : Bool :=
  c.unit.isNone || c.freeze.isSome || match c.run with | .running => false | _ => true

/-- A core that has held for a restart goes on, unless a pre-emption is due; one that the new pair takes is switched out first. -/
def releaseHeld (s : State) (d : Nat) : State :=
  (List.range 36).foldl (fun s i =>
    let k := 36 * d + i
    let c := getCore s k
    let c1 := if c.unit.isSome && !isUserCore s k && c.preempt.isNone then { c with preempt := some (partOf c) } else c
    match c.run with
    | .held => putCore s k { c1 with run := if c1.preempt.isSome then .halted else .running }
    | _ => putCore s k c1) s

/-- The start of a restart: dispatch stops and the cores run to their commit points. A second one within 1 s is a failover (R271). -/
def beginRestart (s : State) (d : Nat) : State :=
  let again := match (getDie s d).lastRestart with | some t => decide (s.dtime.toNat ≤ t + 1000000000) | none => false
  if again && (getDie s (1 - d)).up then failDie s d
  else modDie s d fun x => { x with dispatchOn := false, restarting := true, lastRestart := some s.dtime.toNat }

/-- The Bellwether pair of a die after a restart's self-test: one of which no core fails stays, else the choice is made again (R17). -/
def nextPair (s : State) (d : Nat) (bad fail : List Nat) : Option Nat :=
  if bad.isEmpty then (getDie s d).bellwether else choosePair s.retiredCores fail d

/-- A die whose firmware image has failed its check: the alarm at ERASE, and recovery mode (R374). -/
def enterRecovery (s : State) (d : Nat) : State :=
  eraseAlarm { modDie s d fun x => { x with recovery := true, dispatchOn := false, restarting := false } with fwImage := vset s.fwImage d none }

/-- The end of a restart: the image is restored from flash and checked, the pair is tested, its failing cores retire and the choice is made
again, and dispatch and the held cores resume (R17, R375). -/
def endRestart (s : State) (d : Nat) (fail : List Nat) : State :=
  let bad := match (getDie s d).bellwether with
    | some i => [36 * d + i, 36 * d + i - 1].filter fail.contains
    | none => []
  let s1 := bad.foldl markRetired s
  if !imageGood s then enterRecovery s1 d
  else match nextPair s1 d bad fail with
    | none => dieFault s1 d
    | some i =>
      let s2 := leaveMasks (leaveMasks s1 (36 * d + i)) (36 * d + i - 1)
      let s3 := modDie { s2 with fwImage := vset s2.fwImage d (bootImage s2) } d fun x =>
        { x with bellwether := some i, dispatchOn := true, restarting := false }
      logErr (releaseHeld s3 d) (openPart s3) (36 * d + i) 0x3D d none none 0

/-- Whether a restart may end: every core of the die is at rest, or its 20 ms are over. -/
def restartReady (s : State) (d : Nat) : Bool :=
  ((List.range 36).all fun i => atRest (getCore s (36 * d + i))) ||
  match (getDie s d).lastRestart with | some t => decide (t + 20000000 ≤ s.dtime.toNat) | none => false

/-- FIRMWARE_RESTART (R375). -/
def execFirmwareRestart (die : Nat) (fail : List Nat) (s : State) : Host.Outcome State Fault Refusal :=
  if 2 ≤ die then .fault .noSuchAgent
  else if !(getDie s die).up then .next s
  else if (getDie s die).restarting then .next (if restartReady s die then endRestart s die fail else s)
  else .next (beginRestart s die)

/-- FIRMWARE_UPDATE (R376): a verified image of at least the minimum version is written over the flash copy, and may raise the minimum; power lost
during the write leaves no valid image there. -/
def execFirmwareUpdate (ver : Nat) (minVer : Option Nat) (end_ : UpdateEnd) (s : State) : Host.Outcome State Fault Refusal :=
  .next (if ver < s.minVersion then s
    else match end_ with
      | .refused => s
      | .lost => { s with flashValid := false }
      | .written => { s with flashValid := true, flashVersion := ver, minVersion := max s.minVersion (minVer.getD 0) })

/-! ## Function-level reset (R339, R340) -/

/-- The partition that a function owns. -/
def ownedPart (s : State) (func : Nat) : Option Nat := (List.range 8).find? fun p => (getPart s p).owner == func

/-- The cores that hold units of a partition. -/
def unitCores (s : State) (part : Nat) : List Nat :=
  (List.range 72).filter fun i => (getCore s i).unit.isSome && partOf (getCore s i) == part

/-- A running unit ended by the reset of its function, with FLR_RESET recorded and no completion. -/
def resetUnit (func part : Nat) (s : State) (i : Nat) : State :=
  let c := getCore s i
  let s1 := logErr (dropBundle s i) part i 0x35 func none none 0
  putCore s1 i { freeCore (discardRegion c) with
    run := (if c.run = .retired then .retired else .idle), freeze := none, preempt := none, asker := none, copies := [], backlog := [],
    departing := [], outst := [], chains := Vector.replicate 4 Chain.zero, fifos := Vector.replicate 8 Fifo.zero }

/-- A core without the steal requests, the answers and the arrivals of a partition's units that are on their way to it. -/
def dropRequests (part : Nat) (c : Core) : Core :=
  { c with inbox := c.inbox.filter (fun x => x.1.part != part), answers := c.answers.filter (fun x => x.1.part != part),
           arrivals := c.arrivals.filter fun x => x.2.2 % 8 != part }

/-- Step 1 of the reset: portals refuse, queues are in RESET, and the partition's units and launches end; its requests to other cores are
dropped (R339). -/
def beginReset (s : State) (func part : Nat) : State :=
  let s1 := dropCands ((unitCores s part).foldl (resetUnit func part) s) fun u => u.part == part
  modPart { s1 with cores := vmap (dropRequests part) s1.cores } part fun p =>
    { p with resetting := true, queues := vmap (fun (q : Queue) => { q with st := .reset }) p.queues,
             launches := [], gangs := [], gangEarly := [], switched := [], svcq := [] }

/-- A queue after its reset. -/
def freshQueue (q : Queue) : Queue :=
  { q with tail := 0, head := 0, pw := false, st := .stopped, lref := false, heldPkt := none, heldSeq := 0, started := false, open_ := [] }

/-- What the dies hold for a partition dropped: candidates, graph nodes, held cores, cached table entries and image slots. -/
def drainDie (part : Nat) (d : Die) : Die :=
  { dropImages part d with
    cands := d.cands.filter (fun u => u.part != part), graph := d.graph.filter (fun n => n.part != part)
    resvCores := d.resvCores.filter (fun x => x.2 % 8 != part), walkCache := d.walkCache.filter (fun w => w.part != part) }

/-- A core without what it holds for a partition; one of the partition's cores that holds no unit is scrubbed. Requests that other partitions have
on their way to it stay (R340). -/
def drainCore (s : State) (part i : Nat) : State :=
  let c := getCore s i
  let keep := fun (x : TlbEntry) => x.part != part
  let c1 := { c with tlb1 := c.tlb1.filter keep, tlb2 := c.tlb2.filter keep, preempt := (if c.preempt = some part then none else c.preempt),
                     asker := if c.preempt = some part then none else c.asker }
  putCore s i (if inMask (getPart s part) i && c.unit.isNone then
    { blankCore with run := c.run, nextCopy := c.nextCopy, adopter := c.adopter, tlb1 := c1.tlb1, tlb2 := c1.tlb2, preempt := c1.preempt,
                     asker := c1.asker, inbox := c.inbox, arrivals := c.arrivals, answers := c.answers, moved := c.moved }
  else c1)

/-- The lines that a die cache holds for a partition written back and dropped: no neighbour finds one afterwards (R339, R340). -/
def drainCache (part : Nat) (s : State) (d : Nat) : State :=
  ((getDie s d).dcache.filter fun l => l.part == part).foldl (fun s l => dcDrop s d (l.line / 2)) s

/-- Steps 2 to 4 of the reset: requests are drained, cores scrubbed, and the partition's own state reset. -/
def endReset (s : State) (part : Nat) : State :=
  let s1 := (List.range 72).foldl (fun s i => drainCore s part i) s
  let s2 := (List.range 2).foldl (drainCache part) { s1 with dies := vmap (drainDie part) s1.dies }
  modPart s2 part fun p =>
    { p with resetting := false, queues := vmap freshQueue p.queues, signals := [], ringCtrs := [], segs := Vector.replicate 64 Seg.zero,
             errlog := [], errNext := 0, errOver := 0, fen := 0xFF, boosten := true, weight := 8, records := [], outLaunch := 0, outGraph := 0, outPhase := 0, outJob := 0 }

/-- FLR_OWNER (R339). -/
def execFlrOwner (func : Nat) (s : State) : Host.Outcome State Fault Refusal :=
  .next (match ownedPart s func with
    | none => s
    | some p => if (getPart s p).resetting then endReset s p else beginReset s func p)

/-- The queues of a queue function reset, with the packets that they hold. -/
def resetQueues (s : State) (func part : Nat) : State :=
  let p := getPart s part
  let mine := (List.range 64).filter fun q => (queueOf p q).func == func
  let s1 := mine.foldl (fun s q => modQueue s part q freshQueue) s
  (p.launches.filter fun l => l.standing && mine.contains l.queue).foldl
    (fun s l => checkLaunch (modLaunch s part l.id fun x => { x with standing := false }) part l.id) s1

/-- FLR_QUEUE_FUNCTION (R339). -/
def execFlrQueueFunction (func : Nat) (s : State) : Host.Outcome State Fault Refusal :=
  .next (if (ownedPart s func).isSome then s
    else (List.range 8).foldl (fun s p => if (getPart s p).queueFuncs.contains func then resetQueues s func p else s) s)

/-! ## Interrupts (R370) -/

/-- The first pending message of a function. -/
def nextMsix (s : State) (func : Nat) : Option (Nat × Nat) := s.msixPending.find? fun m => m.1 == func

/-- The number of the present microsecond of device time, counted from 1. -/
def microsecond (s : State) : Nat := s.dtime.toNat / 1000 + 1

/-- MSIX_MESSAGE (R370). -/
def execMsixMessage (func : Nat) (s : State) : Host.Outcome State Fault Refusal :=
  if 17 ≤ func then .fault .noSuchAgent
  else
    .next (match nextMsix s func with
      | none => s
      | some m =>
        if microsecond s ≤ Sparse.get 0 s.msixLast func then s
        else { s with msixPending := s.msixPending.erase m, msixLast := Sparse.put 0 s.msixLast func (microsecond s),
                      outbox := s.outbox ++ [.msix m.1 m.2] })

/-! ## Tether links (R371, R372) -/

/-- A port of a die. -/
def tetherPort (d : Die) (i : Nat) : Port := vget d.ports Port.zero i

/-- A port of a die changed. -/
def modPort (s : State) (d i : Nat) (f : Port → Port) : State :=
  modDie s d fun x => { x with ports := vset x.ports i (f (tetherPort x i)) }

/-- The port that an operation on its way to a peer has left on. -/
def Outstanding.port : Outstanding → Option Nat
  | .peerWrite _ q _ _ _ _ => some q
  | .peerArrive _ q => some q
  | .peerAtomic _ q _ _ _ => some q
  | _ => none

/-- Whether a core has an operation on its way on a port. -/
def flightOn (i : Nat) (s : State) (ci : Nat) : Bool := (getCore s ci).outst.any fun o => o.port == some i

/-- What a core has in flight on a port refused: an error status for each (R256). -/
def refuseFlight (i : Nat) (s : State) (ci : Nat) : State :=
  ((getCore s ci).outst.filter fun o => o.port == some i).foldl
    (fun s o => refuseOne (modCore s ci fun c => { c with outst := c.outst.erase o }) ci o) s

/-- What a core, and the units switched out of it, have in flight on a port refused. -/
def refuseCore (i : Nat) (s : State) (ci : Nat) : State :=
  let n := ((getPart s 0).switched ++ (List.range 7).flatMap fun p => (getPart s (p + 1)).switched).length
  (List.range (n + 1)).foldl (fun s _ => withPast s ci (flightOn i · ci) (refuseFlight i · ci)) s

/-- A link reported failed: what is in flight on it is refused, and the error log has a record, whose cause the spec does not give (log 4). -/
def failLink (s : State) (d i : Nat) : State :=
  let s1 := (List.range 36).foldl (fun t k => refuseCore i t (36 * d + k)) s
  let s2 := modPort s1 d i fun _ => { up := false, failed := true, retries := [], since := s.dtime }
  logErr s2 (openPart s2) (firmwareCore s2 d) ((openWord s2 11).toNat % 64) 0 none none 0

/-- An event of a port. -/
def portEvent (s : State) (d i : Nat) (f : Port → State) : Host.Outcome State Fault Refusal :=
  if 2 ≤ d ∨ 4 ≤ i then .fault .noSuchAgent else .next (f (tetherPort (getDie s d) i))

/-- The failures of a flit on a port so far. -/
def flitFailures (p : Port) (flit : Nat) : Nat := Sparse.get 0 p.retries flit

/-- FLIT_CRC_FAILURE (R371): the flit is sent again up to 8 times, and a ninth failure of it reports the link failed. -/
def execFlitCrcFailure (die : Nat) (f : PortFlit) (s : State) : Host.Outcome State Fault Refusal :=
  portEvent s die f.port fun p =>
    if !p.up then s
    else if 8 ≤ flitFailures p f.flit then failLink s die f.port
    else modPort s die f.port fun p => { p with retries := Sparse.put 0 p.retries f.flit (flitFailures p f.flit + 1) }

/-- LINK_TRAINING_TIMEOUT (R371): 10 µs of device time have passed without training. -/
def execLinkTrainingTimeout (die port : Nat) (s : State) : Host.Outcome State Fault Refusal :=
  portEvent s die port fun p =>
    if p.up ∨ p.failed ∨ s.dtime.toNat < p.since.toNat + 10000 then s else failLink s die port

/-- LINK_TRAINING_COMPLETE (R372). -/
def execLinkTrainingComplete (die port : Nat) (s : State) : Host.Outcome State Fault Refusal :=
  portEvent s die port fun _ => modPort s die port fun p => { up := true, failed := false, retries := [], since := p.since }

/-! ## The host's accesses to memory and to its BARs (R175, R182, R331, R342, R368) -/

/-- Bytes of device memory read by an agent without a core, line by line: a marked word marks what is read (R365). -/
def readDevice (s : State) (part core : Nat) (va : Word) : Nat → Nat → Nat → State × List Byte × Bool
  | 0, _, _ => (s, [], false)
  | fuel + 1, pa, n =>
    let k := min n (128 - pa % 128)
    if n = 0 then (s, [], false)
    else
      let (s1, m) := touchSector s part core none pa k va
      let (s2, b, m') := readDevice s1 part core va fuel (pa + k) (n - k)
      (s2, memBytes s1.mem pa k ++ b, m || m')

/-- Whether bytes written from an address on cover the sector of one of their lines. -/
def coversSector (a n pa : Nat) : Bool := decide (a ≤ pa / 256 * 256) && decide (pa / 256 * 256 + 256 ≤ a + n)

/-- Bytes written to device memory by an agent without a core, line by line; `a` and `len` are the range of the whole write, `va` the virtual address
of its first byte where the agent uses one. -/
def writeLines (s : State) (part a len : Nat) (va : Option Word) : Nat → Nat → List Byte → State
  | 0, _, _ => s
  | fuel + 1, pa, b =>
    if b.isEmpty then s
    else
      let k := 128 - pa % 128
      let aux := match va with | some v => v + BitVec.ofNat 64 (pa - a) | none => 0
      writeLines (devWrite s none part pa aux (b.take k) 0 (coversSector a len pa)) part a len va fuel (pa + k) (b.drop k)

/-- Bytes written to device memory by an agent without a core. -/
def writeDevice (s : State) (part pa : Nat) (va : Option Word) (b : List Byte) : State := writeLines s part pa b.length va b.length pa b

/-- Whether a core pins a line of a range: the access meets a retry response and is tried again (R182). -/
def rangePinned (s : State) (pa n : Nat) : Bool := (List.range ((pa % 128 + n + 127) / 128)).any fun k => pinned s (pa + 128 * k)

/-- The device-memory address that a host access to a function's aperture reaches, none where it is not one. -/
def apertureAddr (s : State) (part func : Nat) (va : Word) (k : AccessKind) : Option Nat :=
  match translateAs s none Core.zero 0 part (vget s.apertures 0 func) va k with
  | .error _ => none
  | .ok pa => match resolve s part va pa with
    | .ok (.dev pa) => some pa
    | _ => none

/-- Whether its walk meets a line that a core pins: the access is tried again (R182). -/
def aperturePinned (s : State) (part func : Nat) (va : Word) (k : AccessKind) : Bool :=
  match translateAs s none Core.zero 0 part (vget s.apertures 0 func) va k with
  | .error t => isRetry t
  | .ok _ => false

/-- The state once its walk has read its table entries at their homes; AUX is zero for the host (R365). -/
def apertureWalk (s : State) (part func : Nat) (va : Word) : State := readWalkAs s 0 part 0 (vget s.apertures 0 func) va 0

/-- The partition of a host access of `n` bytes within one page of the aperture, which is not under reset (R339). -/
def hostPart (s : State) (func : Nat) (va : Word) (n : Nat) : Option Nat :=
  match ownedPart s func with
  | none => none
  | some p =>
    if !endpointsOpen s || (getPart s p).resetting || n == 0 || decide (4096 < n) || decide (4096 < va.toNat % 4096 + n) then none else some p

/-- A host access of `n` bytes to the aperture: it is refused, tried again where it meets a pinned line, or `go` is done with the partition and
the device-memory address once its walk has read its entries (R182, R365, R368). -/
def apertureAccess (s : State) (func : Nat) (va : Word) (n : Nat) (k : AccessKind) (go : State → Nat → Nat → State) : State :=
  let refuse := fun (s : State) => { s with outbox := s.outbox ++ [.hostRefused func] }
  match hostPart s func va n with
  | none => refuse s
  | some p =>
    if aperturePinned s p func va k then s
    else match apertureAddr s p func va k with
      | none => refuse (apertureWalk s p func va)
      | some pa => if rangePinned s pa n then s else go (apertureWalk s p func va) p pa

/-- The code of a queue state (R350). -/
def QState.code : QState → Nat
  | .active => 0 | .waiting => 1 | .stopped => 2 | .fetchFault => 3 | .unmapping => 4 | .unmapped => 5 | .reset => 6

/-- The status word of a portal (R342). -/
def statusWord (x : Queue) : Nat :=
  x.tail % 2 ^ 32 * 2 ^ 32 + min (queueLen x - (x.tail - x.head)) 65535 * 2 ^ 16 + b2n x.lref * 2 ^ 7 + x.st.code * 2 ^ 4

/-- An access to a portal page (R342): the status word is read, and any other access but those that have steps of their own, the packet writes
and the wake, is completed with Unsupported Request. -/
def portalAccess (s : State) (func q off n : Nat) (read : Bool) : State :=
  let out := fun (m : OutMsg) => { s with outbox := s.outbox ++ [m] }
  match portalPart s func q with
  | none => out (.unsupported func q)
  | some p =>
    if read then
      if off = 0x080 ∧ n = 8 then out (.hostRead func (natBytes 8 (statusWord (queueOf (getPart s p) q))) false) else out (.unsupported func q)
    else if ((off = 0x000 ∨ off = 0x040) ∧ n = 64) ∨ off = 0x0C0 then s
    else out (.unsupported func q)

/-- An error record read by the host through the PF (R331); one never written is open (log 4). -/
def errlogBytes (s : State) (part rec : Nat) : List Byte :=
  (List.range 4).flatMap fun k =>
    natBytes 8 (match (getPart s part).errlog[rec]? with | some r => errDword r k | none => openWord s 7).toNat

/-- A 64-bit register of the PF's status page (R353, R357, R379, R408), none where there is no such partition or ring. -/
def statusValue (s : State) (reg : StatusReg) : Option Nat :=
  let part := fun (p : Nat) (f : Part → Nat) => if p < 8 then some (f (getPart s p) % 2 ^ 64) else none
  let ring := fun (p i : Nat) (f : Ring → Nat) => if i < 64 then part p fun x => f (ringOf x i) else none
  match reg with
  | .malformed p => part p fun x => x.malformed
  | .discard p => part p fun x => x.discard
  | .outLaunch p => part p fun x => x.outLaunch
  | .outGraph p => part p fun x => x.outGraph
  | .outPhase p => part p fun x => x.outPhase
  | .outJob p => part p fun x => x.outJob
  | .ringClm p i => ring p i fun x => x.clm
  | .ringRsv p i => ring p i fun x => x.rsv
  | .ringDrops p i => ring p i fun x => x.drops
  | .almcfg => some s.intthr
  | .ldstat => some (s.ldLast.toNat * 2 ^ 32 + s.ldDone.toNat)

/-- A host access. One that meets a pinned line is tried again (R182). The PF's status is read under an alarm too (R378), and no rule gives
another function's status page a register (log 63). -/
def hostAccess (s : State) (func : Nat) (addr : BitVec 64) (acc : HostAccess) : State :=
  let refuse := { s with outbox := s.outbox ++ [.hostRefused func] }
  match acc with
  | .read n =>
    apertureAccess s func addr n .read fun s p pa =>
      let (s1, b, m) := readDevice s p (36 * homeDie s pa) 0 n pa n
      { s1 with outbox := s1.outbox ++ [.hostRead func b m] }
  | .write data => apertureAccess s func addr data.length .write fun s p pa => writeDevice s p pa none data
  | .portal q off n read => portalAccess s func q off n read
  | .errlog part rec =>
    if func ≠ 0 ∨ 8 ≤ part ∨ 1024 ≤ rec ∨ endpointsOpen s = false then refuse
    else { s with outbox := s.outbox ++ [.hostRead func (errlogBytes s part rec) false] }
  | .status reg =>
    match (if func = 0 && s.dies.toList.any (fun d => d.endpointUp) then statusValue s reg else none) with
    | none => refuse
    | some v => { s with outbox := s.outbox ++ [.hostRead func (natBytes 8 v) false] }

/-- HOST_MEMORY_ACCESS (R368). -/
def execHostMemoryAccess (func : Nat) (addr : BitVec 64) (acc : HostAccess) (s : State) : Host.Outcome State Fault Refusal :=
  if 17 ≤ func then .fault .noSuchAgent else .next (hostAccess s func addr acc)

/-! ## The host's writes to registers (R5, R338, R341, R353, R369, R372, R379, R380, R391) -/

/-- A queue descriptor's configuration written, which its state must allow; STATE has events of its own. -/
def writeQueueDesc (v : BitVec 256) (q : Queue) : Queue :=
  match q.st with
  | .stopped | .unmapped =>
    let n := fieldOf v 0 5
    { q with asn := BitVec.ofNat 16 (fieldOf v 139 16), func := fieldOf v 134 5, ien := bitOf v 133, homedie := fieldOf v 132 1,
             dataPlane := bitOf v 131, part := fieldOf v 128 3, cplbase := BitVec.ofNat 64 (fieldOf v 76 52 * 4096),
             ringbase := BitVec.ofNat 64 (fieldOf v 12 52 * 4096), log2n := if 4 ≤ n ∧ n ≤ 16 then n else q.log2n }
  | _ => q

/-- A ring descriptor written; EN = 1 has an event of its own. -/
def writeRingDesc (v : BitVec 256) (r : Ring) : Ring :=
  { r with recbase := BitVec.ofNat 64 (fieldOf v 192 64), slotsz := BitVec.ofNat 32 (fieldOf v 128 32),
           slotbase := BitVec.ofNat 64 (fieldOf v 64 64), capm1 := BitVec.ofNat 16 (fieldOf v 32 16), en := r.en && bitOf v 18,
           policy := if fieldOf v 16 2 = 3 then r.policy else BitVec.ofNat 2 (fieldOf v 16 2), relc := BitVec.ofNat 8 (fieldOf v 8 8),
           pubc := BitVec.ofNat 8 (fieldOf v 0 8) }

/-- A field written: a value out of its range leaves it unchanged. -/
def keepField (ok : Bool) (new old : Nat) : Nat := if ok then new else old

/-- An entry of the host window table as it is kept: its reserved bits are zero, LOG2SZ is 12 to 42 and FUNC 0 to 16 (R369). -/
def hostWinBits (v : BitVec 256) (old : BitVec 128) : BitVec 128 :=
  let size := keepField (decide (12 ≤ fieldOf v 32 6) && decide (fieldOf v 32 6 ≤ 42)) (fieldOf v 32 6) (fieldOf old 32 6)
  let func := keepField (decide (fieldOf v 4 5 ≤ 16)) (fieldOf v 4 5) (fieldOf old 4 5)
  BitVec.ofNat 128 (fieldOf v 76 52 * 2 ^ 76 + size * 2 ^ 32 + func * 2 ^ 4 + fieldOf v 0 4)

/-- An entry of the peer table as it is kept: LOG2SZ is 12 to 48, and REMOTE an address of device memory (R372). -/
def peerWinBits (v : BitVec 256) (old : BitVec 128) : BitVec 128 :=
  let size := keepField (decide (12 ≤ fieldOf v 32 6) && decide (fieldOf v 32 6 ≤ 48)) (fieldOf v 32 6) (fieldOf old 32 6)
  let remote := keepField (decide (fieldOf v 112 4 ≤ 2)) (fieldOf v 64 52) (fieldOf old 64 52)
  BitVec.ofNat 128 (remote * 2 ^ 64 + size * 2 ^ 32 + fieldOf v 0 11)

/-- A partition with its core mask for a die: it keeps user cores only (R18, R337). -/
def putCoreMask (s : State) (d : Nat) (v : BitVec 256) (p : Part) : Part :=
  let m := BitVec.ofNat 36 (((List.range 36).filter fun i => bitOf v i && isUserCore s (36 * d + i)).map fun i => 2 ^ i).sum
  if d = 0 then { p with mask0 := m } else { p with mask1 := m }

/-- Whether a function owns a partition other than one. -/
def ownsOther (s : State) (part func : Nat) : Bool := (List.range 8).any fun p => p != part && (getPart s p).owner == func

/-- Whether a function is a queue function of a partition that `f` names. -/
def queueFuncOf (s : State) (func : Nat) (f : Nat → Bool) : Bool := (List.range 8).any fun p => f p && (getPart s p).queueFuncs.contains func

/-- The owning function of a partition written: a function owns one partition at most, and is no queue function (R337). -/
def setOwner (s : State) (part func : Nat) : State :=
  if 16 < func ∨ ownsOther s part func ∨ queueFuncOf s func fun _ => true then s else modPart s part fun p => { p with owner := func }

/-- A VF bound as a queue function of a partition, or no longer: it owns no partition, and is bound to one at most (R337). -/
def bindFunc (s : State) (part func : Nat) (on : Bool) : State :=
  if !on then modPart s part fun p => { p with queueFuncs := p.queueFuncs.filter (· != func) }
  else if func = 0 ∨ (ownedPart s func).isSome ∨ queueFuncOf s func fun _ => true then s
  else modPart s part fun p => { p with queueFuncs := natInsert func p.queueFuncs }

/-- A register written by the host: values out of a field's range leave it unchanged. The forms of those that the spec gives no layout are the
model's (log 42). -/
def writeHostReg (s : State) (r : HostReg) (v : BitVec 256) : State :=
  match r with
  | .queueDesc p q => modQueue s p q (writeQueueDesc v)
  | .ringDesc p i => modRing s p i (writeRingDesc v)
  | .hostWindow p i => modPart s p fun x => { x with hostWin := vset x.hostWin i (hostWinBits v (vget x.hostWin 0 i)) }
  | .peerEntry p i => modPart s p fun x => { x with peerWin := vset x.peerWin i (peerWinBits v (vget x.peerWin 0 i)) }
  | .pctl p =>
    let w := fieldOf v 0 7
    modPart s p fun x => { x with boosten := bitOf v 8, weight := if 1 ≤ w ∧ w ≤ 64 then w else x.weight }
  | .almcfg => { s with intthr := if fieldOf v 0 8 = 0 then s.intthr else fieldOf v 0 8 }
  | .powerCeiling => { s with powerCeiling := if 300 ≤ v.toNat ∧ v.toNat ≤ 600 then v.toNat else s.powerCeiling }
  | .coreMask p d => modPart s p (putCoreMask s d v)
  | .trapSegment p => modPart s p fun x => { x with trapSeg := if bitOf v 6 then some (BitVec.ofNat 6 (fieldOf v 0 6)) else none }
  | .retryMax p => if fieldOf v 0 3 = 0 then s else modPart s p fun x => { x with rtrymax := fieldOf v 0 3 }
  | .saveArea p => modPart s p fun x => { x with saveArea := BitVec.ofNat 64 (fieldOf v 0 64) }
  | .partOwner p => setOwner s p v.toNat
  | .queueFunction p f => bindFunc s p f (bitOf v 0)
  | .apertureSpace f => { s with apertures := vset s.apertures f (BitVec.ofNat 16 (fieldOf v 0 16)) }
  | .timeMaster => { s with timeMaster := bitOf v 0, slew := if bitOf v 0 then 0 else s.slew }

/-- Whether the package has a register. -/
def hostRegOk : HostReg → Bool
  | .queueDesc p q => decide (p < 8) && decide (q < 64)
  | .ringDesc p i => decide (p < 8) && decide (i < 64)
  | .hostWindow p i => decide (p < 8) && decide (i < 64)
  | .peerEntry p i => decide (p < 8) && decide (i < 8)
  | .pctl p => decide (p < 8)
  | .almcfg => true
  | .powerCeiling => true
  | .coreMask p d => decide (p < 8) && decide (d < 2)
  | .trapSegment p => decide (p < 8)
  | .retryMax p => decide (p < 8)
  | .saveArea p => decide (p < 8)
  | .partOwner p => decide (p < 8)
  | .queueFunction p f => decide (p < 8) && decide (f < 17)
  | .apertureSpace f => decide (f < 17)
  | .timeMaster => true

/-- HOST_REGISTER_WRITE (R5). -/
def execHostRegisterWrite (reg : HostReg) (value : BitVec 256) (s : State) : Host.Outcome State Fault Refusal :=
  if hostRegOk reg then .next (writeHostReg s reg value) else .fault .noSuchAgent

/-- FEN_WRITE (R391). -/
def execFenWrite (part : Nat) (value : BitVec 64) (s : State) : Host.Outcome State Fault Refusal :=
  if 8 ≤ part then .fault .noSuchAgent
  else .next (if (unitCores s part).isEmpty && (getPart s part).switched.isEmpty then modPart s part fun p => { p with fen := value &&& 0xFF }
    else s)

/-- A ring enabled, if everything that it has published has been released. -/
def enableRing (s : State) (part r : Nat) : State :=
  let p := getPart s part
  let x := ringOf p r
  if counterOf p x.pubc.toNat = counterOf p x.relc.toNat then
    modRing s part r fun x => { x with en := true, clm := (counterOf p x.pubc.toNat).toNat, drops := 0, dropped := [], finished := [] }
  else s

/-- RING_ENABLE (R353). -/
def execRingEnable (part ring : Nat) (s : State) : Host.Outcome State Fault Refusal :=
  if 8 ≤ part ∨ 64 ≤ ring then .fault .noSuchAgent else .next (enableRing s part ring)

/-! ## Accesses from gang peers (R178, R184, R246, R256) -/

/-- Whether a partition's peer table lets a member use an attribute: 1 RD, 2 WR, 3 AT. -/
def memberMay (p : Part) (member attr : Nat) : Bool :=
  p.peerWin.toList.any fun w => bitOf w 0 && fieldOf w 8 3 == member && bitOf w attr

/-- Whether a range lies in device memory. -/
def deviceRange (s : State) (pa n : Nat) : Bool := n == 0 || (inDevice s pa && inDevice s (pa + n - 1) && paKind pa == paKind (pa + n - 1))

/-- A peer's atomic at its home here: a marked word stops it. -/
def peerAtomic (s : State) (member part pa : Nat) (op : AmoOp) (size : Nat) (cmp val : BitVec 128) : State :=
  let (s1, mark) := touchSector s part (36 * homeDie s pa) none pa size 0
  if mark then
    let s2 := logErr s1 part (36 * homeDie s pa) 0x20 2 (some (BitVec.ofNat 64 pa)) none 0
    { s2 with outbox := s2.outbox ++ [.tetherReply member (natBytes size 0) true] }
  else
    let old := leNat (memBytes s1.mem pa size)
    let s2 := match amoNew op size old cmp.toNat val.toNat with
      | some v => writeDevice s1 part pa none (natBytes size v)
      | none => s1
    { s2 with outbox := s2.outbox ++ [.tetherReply member (natBytes size old) false] }

/-- An access of a peer performed, or refused where its table, its address or a reset of the partition forbids it. One that meets a pinned line is
tried again (R182). -/
def peerAccess (s : State) (member part : Nat) (acc : PeerAccess) : State :=
  let p := getPart s part
  let refuse := { s with outbox := s.outbox ++ [.tetherRefused member] }
  let at_ := fun (attr a n : Nat) (go : State) =>
    if memberMay p member attr && deviceRange s a n then (if rangePinned s a n then s else go) else refuse
  if p.resetting then refuse
  else match acc with
    | .read a n =>
      let (s1, b, m) := readDevice s part (36 * homeDie s a.toNat) 0 n a.toNat n
      at_ 1 a.toNat n { s1 with outbox := s1.outbox ++ [.tetherReply member b m] }
    | .write a data =>
      let s1 := writeDevice s part a.toNat none data
      at_ 2 a.toNat data.length { s1 with outbox := s1.outbox ++ [.tetherReply member [] false] }
    | .atomic a op size cmp val => at_ 3 a.toNat size (peerAtomic s member part a.toNat op size cmp val)
    | .signal i v => addSignal s part i.toNat v
    | .arrive core h n id => modCore s core fun c => { c with arrivals := c.arrivals ++ [(h, n, id)] }

/-- TETHER_PEER_ACCESS (R184). -/
def execTetherPeerAccess (member part : Nat) (acc : PeerAccess) (s : State) : Host.Outcome State Fault Refusal :=
  if 8 ≤ member ∨ 8 ≤ part then .fault .noSuchAgent else .next (peerAccess s member part acc)

end Sys2Proof.Machine
end

