-- ==== Sys2Proof/Machine/Loader.lean ====
section
/-! DEFINITION. The loader of code objects (R385 to R395, R408): the doorbell, the request, the object's form, the choice of an image, its
placement, the verification of its signatures, and the result record. -/

namespace Sys2Proof.Machine

/-! ## Reading an object -/

/-- The number in `n` bytes of a byte string from an offset on; bytes past its end read as zero. -/
def natAt (b : List Byte) (o n : Nat) : Nat := leNat ((b.drop o).take n)

/-- What the loader works for: a partition and an address space, as the firmware of a core. -/
structure LoadEnv where
  part : Nat
  asn : BitVec 16
  core : Nat
deriving DecidableEq, Repr

/-- A failed step: its status and its detail (R395). -/
structure LoadFail where
  status : Nat
  detail : Nat
deriving DecidableEq, Repr

/-- FAULT or POISON at a virtual address. -/
def failAt (status : Nat) (va : Word) : LoadFail := { status := status, detail := va.toNat % 2 ^ 32 }

/-- The loader has met a line that a core pins: the request is tried again (R182). -/
def loadRetry : LoadFail := { status := 256, detail := 0 }

/-- The walk of a virtual address for the loader. -/
def loadWalk (s : State) (q : LoadEnv) (va : Word) : Except Trap (Word × Nat × List (Nat × Nat)) :=
  walkTable s none (dieOf q.core) q.part q.asn va .read

/-- The device-memory address of a virtual one for the loader, if `ok` accepts its leaf: a retry response, FAULT, or the address. -/
def loadAddr (s : State) (q : LoadEnv) (va : Word) (ok : Word → Bool) : Except LoadFail Nat :=
  match loadWalk s q va with
  | .error t => .error (if isRetry t then loadRetry else failAt 9 va)
  | .ok (leaf, sz, _) =>
    if !ok leaf then .error (failAt 9 va)
    else match resolve s q.part va (leafPa leaf sz va) with
      | .ok (.dev pa) => .ok pa
      | _ => .error (failAt 9 va)

/-- The state once the walk of an address that a marked table entry stops has read its entries at their homes (R365). -/
def loadSpoil (s : State) (q : LoadEnv) (va : Word) : State :=
  match loadWalk s q va with
  | .error t => if markedWalk t.cause t.detail then readWalkAs s (dieOf q.core) q.part q.core q.asn va va else s
  | .ok _ => s

/-- `n` bytes read at a virtual address under the address space of the request, line by line, through leaves that `ok` accepts. -/
def readVirt (s : State) (q : LoadEnv) (ok : Word → Bool) : Nat → Word → Nat → State × Except LoadFail (List Byte)
  | 0, _, _ => (s, .ok [])
  | fuel + 1, va, n =>
    if n = 0 then (s, .ok [])
    else
      let k := min n (128 - va.toNat % 128)
      match loadAddr s q va ok with
      | .error f => (loadSpoil s q va, .error f)
      | .ok pa =>
        let (s1, m) := touchLine s q.part q.core none pa va
        if pinned s pa then (s, .error loadRetry)
        else if m &&& wordBits pa k != 0 then (s1, .error (failAt 10 (markedAt m pa k va)))
        else match readVirt s1 q ok fuel (va + BitVec.ofNat 64 k) (n - k) with
          | (s2, .ok b) => (s2, .ok (memBytes s1.mem pa k ++ b))
          | (s2, .error f) => (s2, .error f)

/-- Bytes read for the host: each leaf permits reads. -/
def readHost (s : State) (q : LoadEnv) (va : Word) (n : Nat) : State × Except LoadFail (List Byte) :=
  readVirt s q (fun leaf => leafPermits leaf .read) n va n

/-- Bytes written at a virtual address as firmware: each leaf is valid, whatever its rights. -/
def writeVirt (s : State) (q : LoadEnv) : Nat → Word → List Byte → State × Except LoadFail Unit
  | 0, _, _ => (s, .ok ())
  | fuel + 1, va, b =>
    if b.isEmpty then (s, .ok ())
    else
      let k := 256 - va.toNat % 256
      match loadAddr s q va (fun _ => true) with
      | .error f => (loadSpoil s q va, .error f)
      | .ok pa =>
        if rangePinned s pa (min k b.length) then (s, .error loadRetry)
        else writeVirt (writeDevice s q.part pa (some va) (b.take k)) q fuel (va + BitVec.ofNat 64 k) (b.drop k)

/-! ## The form of an object (R385 to R388) -/

/-- LEN of an object's header. -/
def objLen (b : List Byte) : Nat := natAt b 12 4
/-- NIMG. -/
def objImages (b : List Byte) : Nat := natAt b 8 2
/-- ITOFF. -/
def objTable (b : List Byte) : Nat := natAt b 16 4
/-- STROFF. -/
def objStrings (b : List Byte) : Nat := natAt b 20 4

/-- The offset of the first bad field of a header (R385, R395 step 2). -/
def headerBad (b : List Byte) : Option Nat :=
  if natAt b 0 4 ≠ 0x485A4B53 then some 0
  else if natAt b 4 2 ≠ 1 then some 4
  else if natAt b 6 2 ≠ 0 then some 6
  else if objImages b = 0 ∨ 16 < objImages b then some 8
  else if natAt b 10 2 ≠ 0 then some 10
  else if objLen b < 32 then some 12
  else if objTable b % 32 ≠ 0 ∨ objLen b < objTable b + 32 * objImages b then some 16
  else if objLen b ≤ objStrings b then some 20
  else if natAt b 24 8 ≠ 0 then some 24
  else none

/-- The offset of an image's table entry. -/
def imageOff (b : List Byte) (i : Nat) : Nat := objTable b + 32 * i

/-- NEED of the image entry at an offset. -/
def imgNeed (b : List Byte) (o : Nat) : Nat := natAt b (o + 24) 8
/-- UNITOFF. -/
def imgUnits (b : List Byte) (o : Nat) : Nat := natAt b (o + 20) 4
/-- NUNIT. -/
def imgUnitCount (b : List Byte) (o : Nat) : Nat := natAt b (o + 18) 2
/-- SEGOFF. -/
def imgSegs (b : List Byte) (o : Nat) : Nat := natAt b (o + 12) 4
/-- NSEG. -/
def imgSegCount (b : List Byte) (o : Nat) : Nat := natAt b (o + 11) 1
/-- VMIN. -/
def imgMinor (b : List Byte) (o : Nat) : Nat := natAt b (o + 1) 1

/-- Whether an image entry is well formed and loadable by version (R386, R389, R390). -/
def imageOk (b : List Byte) (o : Nat) : Bool :=
  natAt b o 1 == 1 && imgMinor b o == 0 && natAt b (o + 2) 9 == 0 && natAt b (o + 16) 2 == 0 && decide (1 ≤ imgSegCount b o) &&
  decide (imgSegCount b o ≤ 64) && decide (1 ≤ imgUnitCount b o) && imgSegs b o % 32 == 0 && imgUnits b o % 32 == 0 &&
  decide (imgNeed b o < 256)

/-- The bits of NEED that a partition masks. -/
def masked (fen : Word) (need : Nat) : Nat := ((BitVec.ofNat 64 need) &&& ~~~fen).toNat

/-- The number of bits set below bit 64. -/
def bitCount (n : Nat) : Nat := ((List.range 64).filter fun i => n / 2 ^ i % 2 == 1).length

/-- The best image of a list: greatest VMIN, then most bits of NEED, then lowest index (R394). -/
def bestImage (b : List Byte) : List Nat → Option Nat
  | [] => none
  | i :: r => match bestImage b r with
    | none => some i
    | some j =>
      let k := fun (x : Nat) => (imgMinor b (imageOff b x), bitCount (imgNeed b (imageOff b x)))
      some (if (k i).1 < (k j).1 ∨ ((k i).1 = (k j).1 ∧ (k i).2 < (k j).2) then j else i)

/-- The choice of an image (R394). -/
def chooseImage (b : List Byte) (fen : Word) : Except LoadFail Nat :=
  let c := (List.range (objImages b)).filter fun i => imageOk b (imageOff b i)
  match c with
  | [] => .error { status := 2, detail := 0 }
  | i :: _ => match bestImage b (c.filter fun i => masked fen (imgNeed b (imageOff b i)) == 0) with
    | none => .error { status := 3, detail := masked fen (imgNeed b (imageOff b i)) % 2 ^ 32 }
    | some j => .ok j

/-- A segment record (R387). -/
structure SegRec where
  sig : Nat
  foff : Nat
  msize : Nat
  fsize : Nat
  eoff : Nat
  toff : Nat
  gate : Nat
  clen : Nat
  ev : Bool
  sys : Bool
deriving DecidableEq, Repr

/-- A field of 28 bits kept as bits 31:4 of a number, with the four bits below it. -/
def upper28 (v : Nat) : Nat := v / 16 % 2 ^ 28 * 16

/-- The segment record at an offset. -/
def segRec (b : List Byte) (o : Nat) : SegRec :=
  let f := fun k => upper28 (natAt b (o + k) 4)
  { sig := natAt b (o + 28) 4, foff := natAt b (o + 24) 4, msize := natAt b (o + 20) 4, fsize := natAt b (o + 16) 4, eoff := f 12, toff := f 8,
    gate := f 4, clen := f 0, ev := natAt b o 1 / 2 % 2 == 1, sys := natAt b o 1 % 2 == 1 }

/-- Whether an offset that a flag asks for breaks its limit, or one that is not used is not zero. -/
def useBad (r : SegRec) (used : Bool) (o : Nat) : Bool := if used then decide (r.clen ≤ o) else o != 0

/-- Whether the segment record at an offset is bad. -/
def segRecBad (b : List Byte) (o : Nat) : Bool :=
  let r := segRec b o
  let n := objLen b
  decide (n < o + 32) || natAt b o 1 / 4 % 4 != 0 || natAt b (o + 4) 1 % 16 != 0 || natAt b (o + 8) 1 % 16 != 0 ||
  natAt b (o + 12) 1 % 16 != 0 || r.clen == 0 || r.foff % 16 != 0 || decide (r.msize < r.fsize) || decide (r.msize < r.clen) ||
  decide (n < r.foff + r.fsize) || (r.sig != 0 && decide (n < r.sig + 144)) || useBad r r.sys r.gate || useBad r r.sys r.toff ||
  useBad r r.ev r.eoff

/-- The offsets of an image's segment records. -/
def segOffs (b : List Byte) (o : Nat) : List Nat := (List.range (imgSegCount b o)).map fun j => imgSegs b o + 32 * j

/-- Whether a unit record is bad other than in its entries: it, or its name, does not lie inside the object, or a field is out of range. -/
def unitRecBad (b : List Byte) (img o : Nat) : Bool :=
  let z := objStrings b + natAt b (o + 12) 4
  decide (objLen b < o + 32) || natAt b o 8 / 2 != 0 || natAt b (o + 9) 3 != 0 || decide (imgSegCount b img ≤ natAt b (o + 8) 1) ||
  !(((b.take (objLen b)).drop z).contains 0)

/-- Whether a unit record has a bad entry offset (R388). -/
def unitEntryBad (b : List Byte) (img o : Nat) : Bool :=
  let clen := (segRec b (imgSegs b img + 32 * natAt b (o + 8) 1)).clen
  let e := fun k => natAt b (o + 12 + 4 * k) 4
  if natAt b o 1 % 2 = 1 then [1, 2, 3, 4].any fun k => decide (clen ≤ e k) || e k % 4 != 0
  else decide (clen ≤ e 1) || e 1 % 16 != 0 || [2, 3, 4].any fun k => e k != 0

/-- Step 4: the segment and unit records of an image, in that order. -/
def checkRecords (b : List Byte) (img : Nat) : Option LoadFail :=
  match (segOffs b img).find? (segRecBad b) with
  | some o => some { status := 1, detail := o }
  | none =>
    let units := (List.range (imgUnitCount b img)).map fun j => imgUnits b img + 32 * j
    match units.find? fun o => unitRecBad b img o || unitEntryBad b img o with
    | none => none
    | some o => some { status := if unitRecBad b img o then 1 else 8, detail := o }

/-! ## Placement (R395 steps 5 to 7) -/

/-- The free handles of a partition, in order. -/
def freeHandles (p : Part) : List Nat := (List.range 64).filter fun h => !(vget p.segs Seg.zero h).v

/-- Whether a leaf is a code page: RD and X set, W clear. -/
def codeLeaf (leaf : Word) : Bool := leafPermits leaf .read && leafPermits leaf .fetch && !leafPermits leaf .write

/-- Whether the leaf of a virtual address is a code page, wherever it leads: an address outside device memory is a fault of step 7. -/
def codePage (s : State) (q : LoadEnv) (va : Word) : Bool :=
  match loadWalk s q va with
  | .error _ => false
  | .ok (leaf, _, _) => codeLeaf leaf

/-- The virtual addresses of the pages of a segment's code range at its base. -/
def codeVas (r : SegRec) (base : Nat) : List Word := (List.range ((r.clen + 32767) / 32768)).map fun i => BitVec.ofNat 64 (base + 32768 * i)

/-- Whether the walk of a page of a code range meets a pinned line (R182). -/
def codeRetry (s : State) (q : LoadEnv) (l : List (SegRec × Nat)) : Bool :=
  (l.flatMap fun x => codeVas x.1 x.2).any fun va => match loadWalk s q va with | .error t => isRetry t | .ok _ => false

/-- Whether two ranges share an address. -/
def rangesMeet (a n b m : Nat) : Bool := decide (a < b + m) && decide (b < a + n)

/-- Whether segment `j` may not stand at its base: alignment, overlap, pages (R395 step 6). A base of 2⁵⁶ or more, which no handle can have, has
no place either (log 12). -/
def placeBad (s : State) (q : LoadEnv) (segs : List SegRec) (bases : List Nat) (j : Nat) : Bool :=
  let p := getPart s q.part
  let b := nth 0 bases j
  let size := fun i => match segs[i]? with | some r => r.msize | none => 0
  let code := match segs[j]? with | some r => codeVas r b | none => []
  b % 32768 != 0 || decide (2 ^ 56 ≤ b) ||
  p.segs.toList.any (fun g => g.v && rangesMeet b (size j) g.base.toNat g.len.toNat) ||
  (List.range segs.length).any (fun i => i != j && rangesMeet b (size j) (nth 0 bases i) (size i)) ||
  !code.all (codePage s q)

/-- Step 7: the contents of each segment copied to its base, with zeros up to MSIZE. -/
def placeAll (s : State) (q : LoadEnv) (obj : List Byte) : List (SegRec × Nat) → State × Except LoadFail Unit
  | [] => (s, .ok ())
  | (r, base) :: rest =>
    let b := (obj.drop r.foff).take r.fsize ++ List.replicate (r.msize - r.fsize) 0
    match writeVirt s q r.msize (BitVec.ofNat 64 base) b with
    | (s1, .error f) => (s1, .error f)
    | (s1, .ok _) => placeAll s1 q obj rest

/-! ## Signatures (R392, R395 step 8) -/

/-- Step 8 for segment `j`: its key is provisioned, and its signature verifies over the placed bytes (log 12), which firmware reads back whatever
the rights of their leaves. -/
def verifySeg (s : State) (q : LoadEnv) (obj : List Byte) (img recOff : Nat) (r : SegRec) (base j : Nat) : State × Except LoadFail Unit :=
  if r.sig = 0 then (s, if r.sys then .error { status := 4, detail := j } else .ok ())
  else
    let key := BitVec.ofNat 64 (natAt obj r.sig 8)
    if !(getPart s q.part).ownerKeys.contains key then (s, .error { status := 5, detail := j })
    else match readVirt s q (fun _ => true) r.fsize (BitVec.ofNat 64 base) r.fsize with
      | (s1, .error f) => (s1, .error (if f = loadRetry then f else { status := 4, detail := j }))
      | (s1, .ok b) =>
        let msg := (obj.drop img).take 32 ++ (obj.drop recOff).take 28 ++ natBytes 4 0 ++ b
        (s1, if Config.sigValid key ((obj.drop (r.sig + 8)).take 132) msg then .ok () else .error { status := 4, detail := j })

/-- Step 8: the segments from `j` on, in order. -/
def verifyAll (s : State) (q : LoadEnv) (obj : List Byte) (img : Nat) : Nat → List (Nat × SegRec × Nat) → State × Except LoadFail Unit
  | _, [] => (s, .ok ())
  | j, (o, r, base) :: rest =>
    match verifySeg s q obj img o r base j with
    | (s1, .error f) => (s1, .error f)
    | (s1, .ok _) => verifyAll s1 q obj img (j + 1) rest

/-! ## A load (R395) -/

/-- The handle that a segment becomes (step 9). -/
def segOfRec (r : SegRec) (base : Nat) : Seg :=
  { base := BitVec.ofNat 64 base, len := BitVec.ofNat 32 r.clen, gate := BitVec.ofNat 32 r.gate, toff := BitVec.ofNat 32 r.toff,
    eoff := BitVec.ofNat 32 r.eoff, fw := false, sys := r.sys, ev := r.ev, v := true }

/-- What a load leaves for its record: the image chosen, and the handles or the failure. -/
structure LoadResult where
  image : Nat
  result : Except LoadFail (List Nat)

/-- Steps 4 to 9 for a chosen image. -/
def loadImageOf (s : State) (q : LoadEnv) (obj : List Byte) (array : Word) (img : Nat) : State × Except LoadFail (List Nat) :=
  match checkRecords obj img with
  | some f => (s, .error f)
  | none =>
    let offs := segOffs obj img
    let segs := offs.map (segRec obj)
    let handles := freeHandles (getPart s q.part)
    if handles.length < segs.length then (s, .error { status := 6, detail := handles.length })
    else match readHost s q array (8 * segs.length) with
      | (s1, .error f) => (s1, .error f)
      | (s1, .ok arr) =>
        let bases := (List.range segs.length).map fun j => natAt arr (8 * j) 8
        if codeRetry s1 q (segs.zip bases) then (s1, .error loadRetry)
        else match (List.range segs.length).find? (placeBad s1 q segs bases) with
        | some j =>
          let pages := match (segs.zip bases)[j]? with | some x => codeVas x.1 x.2 | none => []
          (pages.foldl (fun s va => loadSpoil s q va) s1, .error { status := 7, detail := j })
        | none => match placeAll s1 q obj (segs.zip bases) with
          | (s2, .error f) => (s2, .error f)
          | (s2, .ok _) => match verifyAll s2 q obj img 0 (offs.zip (segs.zip bases)) with
            | (s3, .error f) => (s3, .error f)
            | (s3, .ok _) =>
              let new := handles.zip ((segs.zip bases).map fun x => segOfRec x.1 x.2)
              (modPart s3 q.part fun p => { p with segs := new.foldl (fun v x => vset v x.1 x.2) p.segs }, .ok (handles.take segs.length))

/-- Steps 1 to 9 for a request: the object is read, as its header's LEN says (step 1), an image is chosen, and loaded. -/
def loadObject (s : State) (q : LoadEnv) (obj array : Word) : State × LoadResult :=
  let none_ := fun (s : State) (f : LoadFail) => (s, { image := 0xFF, result := .error f : LoadResult })
  match readHost s q obj 32 with
  | (s1, .error f) => none_ s1 f
  | (s1, .ok head) =>
    match readHost s1 q obj (objLen head) with
      | (s2, .error f) => none_ s2 f
      | (s2, .ok rest) =>
        let b := if objLen head < 32 then head else rest
        match headerBad b with
        | some o => none_ s2 { status := 1, detail := o }
        | none => match chooseImage b (getPart s2 q.part).fen with
          | .error f => none_ s2 f
          | .ok i =>
            let (s3, r) := loadImageOf s2 q b array (imageOff b i)
            (s3, { image := i, result := r })

/-! ## Requests (R393, R408) -/

/-- The result record. -/
def resultBytes (r : LoadResult) : List Byte :=
  let (status, detail, handles) := match r.result with | .ok l => (0, 0, l) | .error f => (f.status, f.detail, [])
  natBytes 1 status ++ natBytes 1 r.image ++ natBytes 2 0 ++ natBytes 4 detail ++ natBytes 8 0 ++
    handles.map (fun h => BitVec.ofNat 8 h) ++ List.replicate (64 - handles.length) 0xFF

/-- A request finished: LDSTAT takes its status, and then the message of vector 64 is raised. -/
def endRequest (s : State) (status : Nat) : State :=
  raiseMsix { s with ldLast := BitVec.ofNat 8 status, ldDone := s.ldDone + 1 } 0 64

/-- Whether a range is one of device memory. -/
def loadRange (s : State) (pa n align : Nat) : Bool := pa % align == 0 && deviceRange s pa n

/-- A request that fails before an image is chosen. -/
def loadFails (status detail : Nat) : LoadResult := { image := 0xFF, result := .error { status := status, detail := detail } }

/-- The first of dwords 0 to 2 of a request at an address that carries a mark (R393). -/
def markedDword (s : State) (part pa : Nat) : Option Nat := (List.range 3).find? fun k => homeMarked s part (pa + 8 * k) 8

/-- What comes of a request whose dwords are `d`: a mark on one of the first three, a bad dword 2, or the load. -/
def runRequest (s : State) (part core pa : Nat) (d : Nat → Nat) : State × LoadResult :=
  match markedDword s part pa with
  | some k => (s, loadFails 10 ((pa + 8 * k) % 2 ^ 32))
  | none =>
    if d 2 / 2 ^ 16 ≠ part then (s, loadFails 11 2)
    else loadObject s { part := part, asn := BitVec.ofNat 16 (d 2), core := core } (BitVec.ofNat 64 (d 0)) (BitVec.ofNat 64 (d 1))

/-- Whether a load waits: a unit holds a handle that it installs, as for `segset` (R329), or a line is pinned (R182). -/
def loadWaits (s : State) (part : Nat) (r : LoadResult) : Bool :=
  match r.result with
  | .ok l => l.any fun h => s.cores.toList.any fun c => holdsSeg c part (BitVec.ofNat 6 h)
  | .error f => f == loadRetry

/-- The request that a doorbell value names, handled (R393); none while it must wait: for a unit that holds one of its handles, or for a core that
pins a line of the request or of its record (R182, R329). -/
def handleRequest (s : State) (v : Word) : Option State :=
  let pa := fieldOf v 0 52
  let part := fieldOf v 56 3
  let core := firmwareCore s (homeOf s 0)
  if fieldOf v 52 4 ≠ 0 ∨ fieldOf v 59 5 ≠ 0 ∨ !loadRange s pa 32 32 then some (endRequest s 12)
  else
    let (s1, _) := touchSector s part core none pa 32 0
    let d := fun k => leNat (memBytes s1.mem (pa + 8 * k) 8)
    if homeMarked s1 part (pa + 24) 8 ∨ 2 ^ 52 ≤ d 3 ∨ !loadRange s1 (d 3) 80 16 then some (endRequest s1 12)
    else
      let (s2, r) := runRequest s1 part core pa d
      if loadWaits s part r ∨ rangePinned s pa 32 ∨ rangePinned s (d 3) 80 then none
      else some (endRequest (writeDevice s2 part (d 3) none (resultBytes r)) (match r.result with | .ok _ => 0 | .error f => f.status))

/-- LOADER_DOORBELL (R393). -/
def execLoaderDoorbell (value : BitVec 64) (s : State) : Host.Outcome State Fault Refusal :=
  .next { s with doorbells := s.doorbells ++ [value] }

/-- LOAD_REQUEST (R395). -/
def execLoadRequest (s : State) : Host.Outcome State Fault Refusal :=
  .next (match s.doorbells with
    | [] => s
    | v :: r => (handleRequest { s with doorbells := r } v).getD s)

end Sys2Proof.Machine
end

