-- ==== Sys2Proof/Machine/Dispatch.lean ====
section
/-! DEFINITION. The dispatch: one arm per row of the opcode table, each one call of its meaning. -/

namespace Sys2Proof.Machine

/-- The meaning of an instruction or step at a state. -/
def exec (i : Instr) (s : State) : Host.Outcome State Fault Refusal :=
  match i with
  | .add d a b g => Sys2Proof.Machine.execAdd d a b g s
  | .sub d a b g => Sys2Proof.Machine.execSub d a b g s
  | .and d a b g => Sys2Proof.Machine.execAnd d a b g s
  | .or d a b g => Sys2Proof.Machine.execOr d a b g s
  | .xor d a b g => Sys2Proof.Machine.execXor d a b g s
  | .sll d a b g => Sys2Proof.Machine.execSll d a b g s
  | .srl d a b g => Sys2Proof.Machine.execSrl d a b g s
  | .sra d a b g => Sys2Proof.Machine.execSra d a b g s
  | .mul d a b g => Sys2Proof.Machine.execMul d a b g s
  | .mulhiS d a b g => Sys2Proof.Machine.execMulhiS d a b g s
  | .mulhiU d a b g => Sys2Proof.Machine.execMulhiU d a b g s
  | .quotS d a b g => Sys2Proof.Machine.execQuotS d a b g s
  | .quotU d a b g => Sys2Proof.Machine.execQuotU d a b g s
  | .rmdrS d a b g => Sys2Proof.Machine.execRmdrS d a b g s
  | .rmdrU d a b g => Sys2Proof.Machine.execRmdrU d a b g s
  | .addi d a im => Sys2Proof.Machine.execAddi d a im s
  | .andi d a im => Sys2Proof.Machine.execAndi d a im s
  | .ori d a im => Sys2Proof.Machine.execOri d a im s
  | .xori d a im => Sys2Proof.Machine.execXori d a im s
  | .slli d a sf => Sys2Proof.Machine.execSlli d a sf s
  | .srli d a sf => Sys2Proof.Machine.execSrli d a sf s
  | .srai d a sf => Sys2Proof.Machine.execSrai d a sf s
  | .himm d im => Sys2Proof.Machine.execHimm d im s
  | .adpc d im => Sys2Proof.Machine.execAdpc d im s
  | .cmpEq d a b g => Sys2Proof.Machine.execCmpEq d a b g s
  | .cmpNe d a b g => Sys2Proof.Machine.execCmpNe d a b g s
  | .cmpLt d a b g => Sys2Proof.Machine.execCmpLt d a b g s
  | .cmpGe d a b g => Sys2Proof.Machine.execCmpGe d a b g s
  | .cmpLtu d a b g => Sys2Proof.Machine.execCmpLtu d a b g s
  | .cmpGeu d a b g => Sys2Proof.Machine.execCmpGeu d a b g s
  | .flAnd d a b g => Sys2Proof.Machine.execFlAnd d a b g s
  | .flOr d a b g => Sys2Proof.Machine.execFlOr d a b g s
  | .flXor d a b g => Sys2Proof.Machine.execFlXor d a b g s
  | .flAndn d a b g => Sys2Proof.Machine.execFlAndn d a b g s
  | .flRd d g => Sys2Proof.Machine.execFlRd d g s
  | .flWr a g => Sys2Proof.Machine.execFlWr a g s
  | .cmpiEq f a im => Sys2Proof.Machine.execCmpiEq f a im s
  | .cmpiNe f a im => Sys2Proof.Machine.execCmpiNe f a im s
  | .cmpiLt f a im => Sys2Proof.Machine.execCmpiLt f a im s
  | .cmpiGe f a im => Sys2Proof.Machine.execCmpiGe f a im s
  | .cmpiLtu f a im => Sys2Proof.Machine.execCmpiLtu f a im s
  | .cmpiGeu f a im => Sys2Proof.Machine.execCmpiGeu f a im s
  | .br f o => Sys2Proof.Machine.execBr f o s
  | .brn f o => Sys2Proof.Machine.execBrn f o s
  | .call f o => Sys2Proof.Machine.execCall f o s
  | .jmpr d a g => Sys2Proof.Machine.execJmpr d a g s
  | .rep n f sf => Sys2Proof.Machine.execRep n f sf s
  | .loopO a im => Sys2Proof.Machine.execLoopO a im s
  | .loopI a im => Sys2Proof.Machine.execLoopI a im s
  | .lpclrO => Sys2Proof.Machine.execLpclrO s
  | .lpclrI => Sys2Proof.Machine.execLpclrI s
  | .loopm im a b g sf => Sys2Proof.Machine.execLoopm im a b g sf s
  | .yset n g => Sys2Proof.Machine.execYset n g s
  | .yclr n g => Sys2Proof.Machine.execYclr n g s
  | .ywait n g => Sys2Proof.Machine.execYwait n g s
  | .ywaitc n g => Sys2Proof.Machine.execYwaitc n g s
  | .ytas d n g => Sys2Proof.Machine.execYtas d n g s
  | .yrd d g => Sys2Proof.Machine.execYrd d g s
  | .tkpush p g => Sys2Proof.Machine.execTkpush p g s
  | .tkwait p g => Sys2Proof.Machine.execTkwait p g s
  | .tkcnt d p g => Sys2Proof.Machine.execTkcnt d p g s
  | .rset a b g => Sys2Proof.Machine.execRset a b g s
  | .rnext d f g => Sys2Proof.Machine.execRnext d f g s
  | .rsteal r g => Sys2Proof.Machine.execRsteal r g s
  | .rstat d g => Sys2Proof.Machine.execRstat d g s
  | .faddF64 d a b g => Sys2Proof.Machine.execFaddF64 d a b g s
  | .fsubF64 d a b g => Sys2Proof.Machine.execFsubF64 d a b g s
  | .fmulF64 d a b g => Sys2Proof.Machine.execFmulF64 d a b g s
  | .fdivF64 d a b g => Sys2Proof.Machine.execFdivF64 d a b g s
  | .fsqrtF64 d a g => Sys2Proof.Machine.execFsqrtF64 d a g s
  | .fminF64 d a b g => Sys2Proof.Machine.execFminF64 d a b g s
  | .fmaxF64 d a b g => Sys2Proof.Machine.execFmaxF64 d a b g s
  | .fmacF64 d a b g => Sys2Proof.Machine.execFmacF64 d a b g s
  | .fcmpEqF64 d a b g => Sys2Proof.Machine.execFcmpEqF64 d a b g s
  | .fcmpLtF64 d a b g => Sys2Proof.Machine.execFcmpLtF64 d a b g s
  | .fcmpLeF64 d a b g => Sys2Proof.Machine.execFcmpLeF64 d a b g s
  | .scvtF64F32 d a m g => Sys2Proof.Machine.execScvtF64F32 d a m g s
  | .scvtF64I64 d a m g => Sys2Proof.Machine.execScvtF64I64 d a m g s
  | .scvtF64Ui64 d a m g => Sys2Proof.Machine.execScvtF64Ui64 d a m g s
  | .scvtI64F64 d a m g => Sys2Proof.Machine.execScvtI64F64 d a m g s
  | .scvtUi64F64 d a m g => Sys2Proof.Machine.execScvtUi64F64 d a m g s
  | .scvtI32F64 d a m g => Sys2Proof.Machine.execScvtI32F64 d a m g s
  | .fkindF64 d a g => Sys2Proof.Machine.execFkindF64 d a g s
  | .fabsF64 d a g => Sys2Proof.Machine.execFabsF64 d a g s
  | .fnegF64 d a g => Sys2Proof.Machine.execFnegF64 d a g s
  | .fmsgnF64 d a b g => Sys2Proof.Machine.execFmsgnF64 d a b g s
  | .faddF32 d a b g => Sys2Proof.Machine.execFaddF32 d a b g s
  | .fsubF32 d a b g => Sys2Proof.Machine.execFsubF32 d a b g s
  | .fmulF32 d a b g => Sys2Proof.Machine.execFmulF32 d a b g s
  | .fdivF32 d a b g => Sys2Proof.Machine.execFdivF32 d a b g s
  | .fsqrtF32 d a g => Sys2Proof.Machine.execFsqrtF32 d a g s
  | .fminF32 d a b g => Sys2Proof.Machine.execFminF32 d a b g s
  | .fmaxF32 d a b g => Sys2Proof.Machine.execFmaxF32 d a b g s
  | .fmacF32 d a b g => Sys2Proof.Machine.execFmacF32 d a b g s
  | .fcmpEqF32 d a b g => Sys2Proof.Machine.execFcmpEqF32 d a b g s
  | .fcmpLtF32 d a b g => Sys2Proof.Machine.execFcmpLtF32 d a b g s
  | .fcmpLeF32 d a b g => Sys2Proof.Machine.execFcmpLeF32 d a b g s
  | .scvtF32F64 d a m g => Sys2Proof.Machine.execScvtF32F64 d a m g s
  | .scvtF32I64 d a m g => Sys2Proof.Machine.execScvtF32I64 d a m g s
  | .scvtF32Ui64 d a m g => Sys2Proof.Machine.execScvtF32Ui64 d a m g s
  | .scvtI64F32 d a m g => Sys2Proof.Machine.execScvtI64F32 d a m g s
  | .scvtUi64F32 d a m g => Sys2Proof.Machine.execScvtUi64F32 d a m g s
  | .scvtI32F32 d a m g => Sys2Proof.Machine.execScvtI32F32 d a m g s
  | .fkindF32 d a g => Sys2Proof.Machine.execFkindF32 d a g s
  | .fabsF32 d a g => Sys2Proof.Machine.execFabsF32 d a g s
  | .fnegF32 d a g => Sys2Proof.Machine.execFnegF32 d a g s
  | .fmsgnF32 d a b g => Sys2Proof.Machine.execFmsgnF32 d a b g s
  | .csrrd d c => Sys2Proof.Machine.execCsrrd d c s
  | .csrwr d a c => Sys2Proof.Machine.execCsrwr d a c s
  | .csrset d a c => Sys2Proof.Machine.execCsrset d a c s
  | .csrclr d a c => Sys2Proof.Machine.execCsrclr d a c s
  | .fork d a b g => Sys2Proof.Machine.execFork d a b g s
  | .join o => Sys2Proof.Machine.execJoin o s
  | .commit => Sys2Proof.Machine.execCommit s
  | .commitD a b => Sys2Proof.Machine.execCommitD a b s
  | .replay g => Sys2Proof.Machine.execReplay g s
  | .pset d a g => Sys2Proof.Machine.execPset d a g s
  | .pclr d a g => Sys2Proof.Machine.execPclr d a g s
  | .ptest d a g => Sys2Proof.Machine.execPtest d a g s
  | .hinit x y tk => Sys2Proof.Machine.execHinit x y tk s
  | .harrive x y tk => Sys2Proof.Machine.execHarrive x y tk s
  | .hwait x y tk => Sys2Proof.Machine.execHwait x y tk s
  | .hstat x y tk => Sys2Proof.Machine.execHstat x y tk s
  | .chainKick x y tk => Sys2Proof.Machine.execChainKick x y tk s
  | .chainStop x tk => Sys2Proof.Machine.execChainStop x tk s
  | .chainStat x y tk => Sys2Proof.Machine.execChainStat x y tk s
  | .qpost x y tk => Sys2Proof.Machine.execQpost x y tk s
  | .sigadd x y tk => Sys2Proof.Machine.execSigadd x y tk s
  | .ringpost x y tk => Sys2Proof.Machine.execRingpost x y tk s
  | .ares x y tk => Sys2Proof.Machine.execAres x y tk s
  | .aresh x y tk => Sys2Proof.Machine.execAresh x y tk s
  | .jeos n o => Sys2Proof.Machine.execJeos n o s
  | .fenceCore g => Sys2Proof.Machine.execFenceCore g s
  | .fenceDie g => Sys2Proof.Machine.execFenceDie g s
  | .fencePkg g => Sys2Proof.Machine.execFencePkg g s
  | .fenceSys g => Sys2Proof.Machine.execFenceSys g s
  | .endOp g => Sys2Proof.Machine.execEndOp g s
  | .ldG x y p u sf tk => Sys2Proof.Machine.execLdG x y p u sf tk s
  | .ldL x y p u sf tk => Sys2Proof.Machine.execLdL x y p u sf tk s
  | .vldG x y p m tk => Sys2Proof.Machine.execVldG x y p m tk s
  | .vldL x y p m tk => Sys2Proof.Machine.execVldL x y p m tk s
  | .gath x y ef c m tk => Sys2Proof.Machine.execGath x y ef c m tk s
  | .sbaseL x y tk => Sys2Proof.Machine.execSbaseL x y tk s
  | .sdim0L x y tk => Sys2Proof.Machine.execSdim0L x y tk s
  | .sdim1L x y tk => Sys2Proof.Machine.execSdim1L x y tk s
  | .sdim2L x y tk => Sys2Proof.Machine.execSdim2L x y tk s
  | .smodeL x y tk => Sys2Proof.Machine.execSmodeL x y tk s
  | .sbindL x tk => Sys2Proof.Machine.execSbindL x tk s
  | .sunbindL x tk => Sys2Proof.Machine.execSunbindL x tk s
  | .sstartL x tk => Sys2Proof.Machine.execSstartL x tk s
  | .sstopL x tk => Sys2Proof.Machine.execSstopL x tk s
  | .sseekL x y tk => Sys2Proof.Machine.execSseekL x y tk s
  | .sposL x y tk => Sys2Proof.Machine.execSposL x y tk s
  | .markL tk => Sys2Proof.Machine.execMarkL tk s
  | .cpin x y tk => Sys2Proof.Machine.execCpin x y tk s
  | .cpin2d x y tk => Sys2Proof.Machine.execCpin2d x y tk s
  | .cpinT x y tk => Sys2Proof.Machine.execCpinT x y tk s
  | .prefG y tk => Sys2Proof.Machine.execPrefG y tk s
  | .ssize y tk => Sys2Proof.Machine.execSsize y tk s
  | .smap x y tk => Sys2Proof.Machine.execSmap x y tk s
  | .sunmap x tk => Sys2Proof.Machine.execSunmap x tk s
  | .sflush x tk => Sys2Proof.Machine.execSflush x tk s
  | .sinval x tk => Sys2Proof.Machine.execSinval x tk s
  | .vadd d a b m t => Sys2Proof.Machine.execVadd d a b m t s
  | .vsub d a b m t => Sys2Proof.Machine.execVsub d a b m t s
  | .vmul d a b m t => Sys2Proof.Machine.execVmul d a b m t s
  | .vfma d a b m t => Sys2Proof.Machine.execVfma d a b m t s
  | .vfms d a b m t => Sys2Proof.Machine.execVfms d a b m t s
  | .vfnma d a b m t => Sys2Proof.Machine.execVfnma d a b m t s
  | .vmin d a b m t => Sys2Proof.Machine.execVmin d a b m t s
  | .vmax d a b m t => Sys2Proof.Machine.execVmax d a b m t s
  | .vdiv d a b m t => Sys2Proof.Machine.execVdiv d a b m t s
  | .vand d a b m t => Sys2Proof.Machine.execVand d a b m t s
  | .vor d a b m t => Sys2Proof.Machine.execVor d a b m t s
  | .vxor d a b m t => Sys2Proof.Machine.execVxor d a b m t s
  | .vsll d a b m t => Sys2Proof.Machine.execVsll d a b m t s
  | .vsrl d a b m t => Sys2Proof.Machine.execVsrl d a b m t s
  | .vsra d a b m t => Sys2Proof.Machine.execVsra d a b m t s
  | .vadds d a b m t => Sys2Proof.Machine.execVadds d a b m t s
  | .vsubs d a b m t => Sys2Proof.Machine.execVsubs d a b m t s
  | .vmulh d a b m t => Sys2Proof.Machine.execVmulh d a b m t s
  | .vabsd d a b m t => Sys2Proof.Machine.execVabsd d a b m t s
  | .vavg d a b m t => Sys2Proof.Machine.execVavg d a b m t s
  | .vcmpeq d a b m t => Sys2Proof.Machine.execVcmpeq d a b m t s
  | .vcmplt d a b m t => Sys2Proof.Machine.execVcmplt d a b m t s
  | .vcmple d a b m t => Sys2Proof.Machine.execVcmple d a b m t s
  | .vcmpne d a b m t => Sys2Proof.Machine.execVcmpne d a b m t s
  | .vsel d a b m t => Sys2Proof.Machine.execVsel d a b m t s
  | .vperm d a b m t => Sys2Proof.Machine.execVperm d a b m t s
  | .vzipLo d a b t => Sys2Proof.Machine.execVzipLo d a b t s
  | .vzipHi d a b t => Sys2Proof.Machine.execVzipHi d a b t s
  | .vuzpEv d a b t => Sys2Proof.Machine.execVuzpEv d a b t s
  | .vuzpOd d a b t => Sys2Proof.Machine.execVuzpOd d a b t s
  | .vslide d a b r n t => Sys2Proof.Machine.execVslide d a b r n t s
  | .vabs d a m t => Sys2Proof.Machine.execVabs d a m t s
  | .vneg d a m t => Sys2Proof.Machine.execVneg d a m t s
  | .vsqrt d a m t => Sys2Proof.Machine.execVsqrt d a m t s
  | .vrecip d a m t => Sys2Proof.Machine.execVrecip d a m t s
  | .vrsqrt d a m t => Sys2Proof.Machine.execVrsqrt d a m t s
  | .vnot d a m t => Sys2Proof.Machine.execVnot d a m t s
  | .vclz d a m t => Sys2Proof.Machine.execVclz d a m t s
  | .vpopc d a m t => Sys2Proof.Machine.execVpopc d a m t s
  | .vrint d a m t => Sys2Proof.Machine.execVrint d a m t s
  | .vclass d a m t => Sys2Proof.Machine.execVclass d a m t s
  | .vmov d a m t => Sys2Proof.Machine.execVmov d a m t s
  | .vcvt d a sf u m t => Sys2Proof.Machine.execVcvt d a sf u m t s
  | .vredSum d a m t => Sys2Proof.Machine.execVredSum d a m t s
  | .vredMin d a m t => Sys2Proof.Machine.execVredMin d a m t s
  | .vredMax d a m t => Sys2Proof.Machine.execVredMax d a m t s
  | .vredAnd d a m t => Sys2Proof.Machine.execVredAnd d a m t s
  | .vredOr d a m t => Sys2Proof.Machine.execVredOr d a m t s
  | .vredXor d a m t => Sys2Proof.Machine.execVredXor d a m t s
  | .vredSumw d a m t => Sys2Proof.Machine.execVredSumw d a m t s
  | .vscanSum d a m t => Sys2Proof.Machine.execVscanSum d a m t s
  | .vscanMin d a m t => Sys2Proof.Machine.execVscanMin d a m t s
  | .vscanMax d a m t => Sys2Proof.Machine.execVscanMax d a m t s
  | .mand d a b => Sys2Proof.Machine.execMand d a b s
  | .mor d a b => Sys2Proof.Machine.execMor d a b s
  | .mxor d a b => Sys2Proof.Machine.execMxor d a b s
  | .mandn d a b => Sys2Proof.Machine.execMandn d a b s
  | .mlen d a => Sys2Proof.Machine.execMlen d a s
  | .mpopc d a => Sys2Proof.Machine.execMpopc d a s
  | .mfirst d a => Sys2Proof.Machine.execMfirst d a s
  | .mtov d a => Sys2Proof.Machine.execMtov d a s
  | .vsplat d a m t => Sys2Proof.Machine.execVsplat d a m t s
  | .vext d a b t => Sys2Proof.Machine.execVext d a b t s
  | .vins d a b t => Sys2Proof.Machine.execVins d a b t s
  | .mxnest y tk => Sys2Proof.Machine.execMxnest y tk s
  | .mxgo tk => Sys2Proof.Machine.execMxgo tk s
  | .mxwait tk => Sys2Proof.Machine.execMxwait tk s
  | .mxstat x tk => Sys2Proof.Machine.execMxstat x tk s
  | .mxdrain x y m tk => Sys2Proof.Machine.execMxdrain x y m tk s
  | .mxzero x tk => Sys2Proof.Machine.execMxzero x tk s
  | .mxmma x y n tk => Sys2Proof.Machine.execMxmma x y n tk s
  | .tdef x y tk => Sys2Proof.Machine.execTdef x y tk s
  | .tvalid y tk => Sys2Proof.Machine.execTvalid y tk s
  | .tinval y tk => Sys2Proof.Machine.execTinval y tk s
  | .tstat x y tk => Sys2Proof.Machine.execTstat x y tk s
  | .twait y tk => Sys2Proof.Machine.execTwait y tk s
  | .walkAdd x tk => Sys2Proof.Machine.execWalkAdd x tk s
  | .walkMin x tk => Sys2Proof.Machine.execWalkMin x tk s
  | .walkMax x tk => Sys2Proof.Machine.execWalkMax x tk s
  | .walkAnd x tk => Sys2Proof.Machine.execWalkAnd x tk s
  | .walkOr x tk => Sys2Proof.Machine.execWalkOr x tk s
  | .walkXor x tk => Sys2Proof.Machine.execWalkXor x tk s
  | .walkPopc x tk => Sys2Proof.Machine.execWalkPopc x tk s
  | .walkHist x tk => Sys2Proof.Machine.execWalkHist x tk s
  | .vview x tk => Sys2Proof.Machine.execVview x tk s
  | .aview x tk => Sys2Proof.Machine.execAview x tk s
  | .vigilMx x y tk lit => Sys2Proof.Machine.execVigilMx x y tk lit s
  | .vigilVec x tk lit => Sys2Proof.Machine.execVigilVec x tk lit s
  | .vigilRd x tk lit => Sys2Proof.Machine.execVigilRd x tk lit s
  | .amdef x y tk => Sys2Proof.Machine.execAmdef x y tk s
  | .aset x y tk => Sys2Proof.Machine.execAset x y tk s
  | .astage x y tk => Sys2Proof.Machine.execAstage x y tk s
  | .aerr x tk => Sys2Proof.Machine.execAerr x tk s
  | .adec x tk => Sys2Proof.Machine.execAdec x tk s
  | .aget x y tk => Sys2Proof.Machine.execAget x y tk s
  | .aput x y tk => Sys2Proof.Machine.execAput x y tk s
  | .astat x y tk => Sys2Proof.Machine.execAstat x y tk s
  | .aoff x tk => Sys2Proof.Machine.execAoff x tk s
  | .await tk => Sys2Proof.Machine.execAwait tk s
  | .shdecl x y tk => Sys2Proof.Machine.execShdecl x y tk s
  | .apxb x tk => Sys2Proof.Machine.execApxb x tk s
  | .apxe x tk => Sys2Proof.Machine.execApxe x tk s
  | .shinv x tk => Sys2Proof.Machine.execShinv x tk s
  | .shwld x y tk => Sys2Proof.Machine.execShwld x y tk s
  | .shwst x y tk => Sys2Proof.Machine.execShwst x y tk s
  | .shstat x y tk => Sys2Proof.Machine.execShstat x y tk s
  | .shmean x y tk => Sys2Proof.Machine.execShmean x y tk s
  | .stG x y p sf tk => Sys2Proof.Machine.execStG x y p sf tk s
  | .stL x y p sf tk => Sys2Proof.Machine.execStL x y p sf tk s
  | .vstG x y p m tk => Sys2Proof.Machine.execVstG x y p m tk s
  | .vstL x y p m tk => Sys2Proof.Machine.execVstL x y p m tk s
  | .scat x y ef c m tk => Sys2Proof.Machine.execScat x y ef c m tk s
  | .sbaseS x y tk => Sys2Proof.Machine.execSbaseS x y tk s
  | .sdim0S x y tk => Sys2Proof.Machine.execSdim0S x y tk s
  | .sdim1S x y tk => Sys2Proof.Machine.execSdim1S x y tk s
  | .sdim2S x y tk => Sys2Proof.Machine.execSdim2S x y tk s
  | .smodeS x y tk => Sys2Proof.Machine.execSmodeS x y tk s
  | .sbindS x tk => Sys2Proof.Machine.execSbindS x tk s
  | .sunbindS x tk => Sys2Proof.Machine.execSunbindS x tk s
  | .sstartS x tk => Sys2Proof.Machine.execSstartS x tk s
  | .sstopS x tk => Sys2Proof.Machine.execSstopS x tk s
  | .sseekS x y tk => Sys2Proof.Machine.execSseekS x y tk s
  | .sposS x y tk => Sys2Proof.Machine.execSposS x y tk s
  | .markS tk => Sys2Proof.Machine.execMarkS tk s
  | .cpout x y tk => Sys2Proof.Machine.execCpout x y tk s
  | .cpout2d x y tk => Sys2Proof.Machine.execCpout2d x y tk s
  | .cpoutT x y tk => Sys2Proof.Machine.execCpoutT x y tk s
  | .amoAdd x y c z tk => Sys2Proof.Machine.execAmoAdd x y c z tk s
  | .amoAnd x y c z tk => Sys2Proof.Machine.execAmoAnd x y c z tk s
  | .amoOr x y c z tk => Sys2Proof.Machine.execAmoOr x y c z tk s
  | .amoXor x y c z tk => Sys2Proof.Machine.execAmoXor x y c z tk s
  | .amoMax x y c z tk => Sys2Proof.Machine.execAmoMax x y c z tk s
  | .amoMaxu x y c z tk => Sys2Proof.Machine.execAmoMaxu x y c z tk s
  | .amoSwap x y c z tk => Sys2Proof.Machine.execAmoSwap x y c z tk s
  | .amoCasD x y c tk => Sys2Proof.Machine.execAmoCasD x y c tk s
  | .amoCasQ x y c tk => Sys2Proof.Machine.execAmoCasQ x y c tk s
  | .tret g => Sys2Proof.Machine.execTret g s
  | .tretN g => Sys2Proof.Machine.execTretN g s
  | .ucall g => Sys2Proof.Machine.execUcall g s
  | .svc d a g => Sys2Proof.Machine.execSvc d a g s
  | .tlbinv a b g => Sys2Proof.Machine.execTlbinv a b g s
  | .scsrwr a b g => Sys2Proof.Machine.execScsrwr a b g s
  | .segset a b g => Sys2Proof.Machine.execSegset a b g s
  | .segclr a g => Sys2Proof.Machine.execSegclr a g s
  | .ctxout a b g => Sys2Proof.Machine.execCtxout a b g s
  | .ctxin a b g => Sys2Proof.Machine.execCtxin a b g s
  | .asset a b g => Sys2Proof.Machine.execAsset a b g s
  | .pinfo d a g => Sys2Proof.Machine.execPinfo d a g s
  | .pscrub a g => Sys2Proof.Machine.execPscrub a g s
  | .errrd d a g => Sys2Proof.Machine.execErrrd d a g s
  | .hrmark a g => Sys2Proof.Machine.execHrmark a g s
  | .hint h => Sys2Proof.Machine.execHint h s
  | .emulMajor7c x => Sys2Proof.Machine.execEmulMajor7c x s
  | .emulMajor7d x => Sys2Proof.Machine.execEmulMajor7d x s
  | .emulMajor7e x => Sys2Proof.Machine.execEmulMajor7e x s
  | .undefinedMajor w => Sys2Proof.Machine.execUndefinedMajor w s
  | .streamFetch core q => Sys2Proof.Machine.execStreamFetch core q s
  | .streamOutboundWrite core q => Sys2Proof.Machine.execStreamOutboundWrite core q s
  | .translationWalk core va k => Sys2Proof.Machine.execTranslationWalk core va k s
  | .invalidationApply core => Sys2Proof.Machine.execInvalidationApply core s
  | .matrixOpRun core => Sys2Proof.Machine.execMatrixOpRun core s
  | .fetcherCopy core h => Sys2Proof.Machine.execFetcherCopy core h s
  | .walkRun core => Sys2Proof.Machine.execWalkRun core s
  | .vigilCheck core => Sys2Proof.Machine.execVigilCheck core s
  | .almanacStep core => Sys2Proof.Machine.execAlmanacStep core s
  | .shepherdOperation core => Sys2Proof.Machine.execShepherdOperation core s
  | .copyPieceLand core => Sys2Proof.Machine.execCopyPieceLand core s
  | .outboundCopyExecute core => Sys2Proof.Machine.execOutboundCopyExecute core s
  | .outboundCopyComplete core => Sys2Proof.Machine.execOutboundCopyComplete core s
  | .copyFreeze core => Sys2Proof.Machine.execCopyFreeze core s
  | .freezeResume core => Sys2Proof.Machine.execFreezeResume core s
  | .freezeUnresolvable core => Sys2Proof.Machine.execFreezeUnresolvable core s
  | .faultServiceAnswer core ans => Sys2Proof.Machine.execFaultServiceAnswer core ans s
  | .chainEnd core slot => Sys2Proof.Machine.execChainEnd core slot s
  | .chainCopy core slot => Sys2Proof.Machine.execChainCopy core slot s
  | .chainCopy2d core slot => Sys2Proof.Machine.execChainCopy2d core slot s
  | .chainWait core slot => Sys2Proof.Machine.execChainWait core slot s
  | .chainPost core slot => Sys2Proof.Machine.execChainPost core slot s
  | .chainLink core slot => Sys2Proof.Machine.execChainLink core slot s
  | .chainFlag core slot => Sys2Proof.Machine.execChainFlag core slot s
  | .chainArrive core slot => Sys2Proof.Machine.execChainArrive core slot s
  | .pendingKickStart core slot => Sys2Proof.Machine.execPendingKickStart core slot s
  | .postDeparture core => Sys2Proof.Machine.execPostDeparture core s
  | .qpostDelivery core => Sys2Proof.Machine.execQpostDelivery core s
  | .hostAtomicopCompletion core err => Sys2Proof.Machine.execHostAtomicopCompletion core err s
  | .peerWriteAck core => Sys2Proof.Machine.execPeerWriteAck core s
  | .peerRefused core => Sys2Proof.Machine.execPeerRefused core s
  | .remoteHurdleArrival core => Sys2Proof.Machine.execRemoteHurdleArrival core s
  | .stealRequestArrival core => Sys2Proof.Machine.execStealRequestArrival core s
  | .stealGrant core => Sys2Proof.Machine.execStealGrant core s
  | .stealRefusal core => Sys2Proof.Machine.execStealRefusal core s
  | .detectedErrorReplay core src => Sys2Proof.Machine.execDetectedErrorReplay core src s
  | .unitAdoption core adopter => Sys2Proof.Machine.execUnitAdoption core adopter s
  | .outOfRegionError work => Sys2Proof.Machine.execOutOfRegionError work s
  | .snapshotStoreError core => Sys2Proof.Machine.execSnapshotStoreError core s
  | .dieFailover die => Sys2Proof.Machine.execDieFailover die s
  | .thermalTrip die => Sys2Proof.Machine.execThermalTrip die s
  | .thermalThrottle die => Sys2Proof.Machine.execThermalThrottle die s
  | .powerEstimate die power => Sys2Proof.Machine.execPowerEstimate die power s
  | .boostInterval => Sys2Proof.Machine.execBoostInterval s
  | .dtimeSync slew => Sys2Proof.Machine.execDtimeSync slew s
  | .patrolScrub sector => Sys2Proof.Machine.execPatrolScrub sector s
  | .glitchDetect => Sys2Proof.Machine.execGlitchDetect s
  | .packageReset fail => Sys2Proof.Machine.execPackageReset fail s
  | .firmwareRestart die fail => Sys2Proof.Machine.execFirmwareRestart die fail s
  | .firmwareUpdate ver minVer end_ => Sys2Proof.Machine.execFirmwareUpdate ver minVer end_ s
  | .flrOwner func => Sys2Proof.Machine.execFlrOwner func s
  | .flrQueueFunction func => Sys2Proof.Machine.execFlrQueueFunction func s
  | .portalDmwr func q pkt => Sys2Proof.Machine.execPortalDmwr func q pkt s
  | .portalPostedWrite func q pkt => Sys2Proof.Machine.execPortalPostedWrite func q pkt s
  | .portalWake func q => Sys2Proof.Machine.execPortalWake func q s
  | .queueActivate part q => Sys2Proof.Machine.execQueueActivate part q s
  | .queueStop part q => Sys2Proof.Machine.execQueueStop part q s
  | .queueUnmap part q => Sys2Proof.Machine.execQueueUnmap part q s
  | .queueUnmapped part q => Sys2Proof.Machine.execQueueUnmapped part q s
  | .headConditionSatisfied part q => Sys2Proof.Machine.execHeadConditionSatisfied part q s
  | .queueFetch part q => Sys2Proof.Machine.execQueueFetch part q s
  | .nopPacket part q => Sys2Proof.Machine.execNopPacket part q s
  | .launchPacket part q => Sys2Proof.Machine.execLaunchPacket part q s
  | .nodePacket part q => Sys2Proof.Machine.execNodePacket part q s
  | .waitAllPacket part q => Sys2Proof.Machine.execWaitAllPacket part q s
  | .waitAnyPacket part q => Sys2Proof.Machine.execWaitAnyPacket part q s
  | .signalPacket part q => Sys2Proof.Machine.execSignalPacket part q s
  | .cancelPacket part q => Sys2Proof.Machine.execCancelPacket part q s
  | .gangPacket part q => Sys2Proof.Machine.execGangPacket part q s
  | .gangMessageReceive part gang member msg => Sys2Proof.Machine.execGangMessageReceive part gang member msg s
  | .gangGoDecision part gang => Sys2Proof.Machine.execGangGoDecision part gang s
  | .gangRelease part gang => Sys2Proof.Machine.execGangRelease part gang s
  | .dispatch core => Sys2Proof.Machine.execDispatch core s
  | .candidateAged part index => Sys2Proof.Machine.execCandidateAged part index s
  | .standingClaim part q => Sys2Proof.Machine.execStandingClaim part q s
  | .unitCompletion core => Sys2Proof.Machine.execUnitCompletion core s
  | .msixMessage func => Sys2Proof.Machine.execMsixMessage func s
  | .preemptionRequest core => Sys2Proof.Machine.execPreemptionRequest core s
  | .contextSwitch core => Sys2Proof.Machine.execContextSwitch core s
  | .flitCrcFailure die flit => Sys2Proof.Machine.execFlitCrcFailure die flit s
  | .linkTrainingTimeout die port => Sys2Proof.Machine.execLinkTrainingTimeout die port s
  | .hostMemoryAccess func addr acc => Sys2Proof.Machine.execHostMemoryAccess func addr acc s
  | .loaderDoorbell value => Sys2Proof.Machine.execLoaderDoorbell value s
  | .loadRequest => Sys2Proof.Machine.execLoadRequest s
  | .fenWrite part value => Sys2Proof.Machine.execFenWrite part value s
  | .ringEnable part ring => Sys2Proof.Machine.execRingEnable part ring s
  | .mirroredSizeSet gib => Sys2Proof.Machine.execMirroredSizeSet gib s
  | .hostRegisterWrite reg value => Sys2Proof.Machine.execHostRegisterWrite reg value s
  | .tetherPeerAccess member part acc => Sys2Proof.Machine.execTetherPeerAccess member part acc s
  | .peerAtomicCompletion core => Sys2Proof.Machine.execPeerAtomicCompletion core s
  | .linkTrainingComplete die port => Sys2Proof.Machine.execLinkTrainingComplete die port s
  | .thermalThrottleEnd die => Sys2Proof.Machine.execThermalThrottleEnd die s
  | .ownerProvisioning part key => Sys2Proof.Machine.execOwnerProvisioning part key s

end Sys2Proof.Machine
end

