-- ==== Sys2Proof/Machine/Rep.lean ====
section
/-! DEFINITION. What `rep` needs of its target's entry (R66 to R68): which of the four fields it may step, up to which value, and the
scalar destinations. -/

namespace Sys2Proof.Machine

/-- What an entry says of a field at 24:19, 18:13, 12:7 or 6:4: no register field, a scalar destination, or a register field with the
largest value it allows. -/
inductive StepField where
  | no
  | dst
  | reg (max : Nat)
deriving DecidableEq, Repr

/-- The four fields of an entry, in the order of FSEL's bits. -/
structure StepFields where
  d : StepField := .no
  a : StepField := .no
  b : StepField := .no
  m : StepField := .no
deriving DecidableEq, Repr

/-- A scalar or vector register field. -/
def fldX : StepField := .reg 63

/-- A flag, mask, accumulator or stream field. -/
def fld8 : StepField := .reg 7

/-- The address register of a load or store: a destination too with post-increment (R144). -/
def fldInc (p : BitVec 1) : StepField := if p = 1 then .dst else fldX

/-- A field of a conversion: the first register of its group stays within v63 (R202). -/
def fldGroup (wide : Bool) (u t : BitVec 4) : StepField := if wide then .reg (64 - cvtGroup t u) else fldX

/-- The register fields of an entry. Of an entry that is no legal target of `rep` only the scalar destination is named, which the
checks of the unstepped word need (R51, R67). A field that selects something by a part of its bits, or names a chain, method, window or result
slot, a peer or a CSR, counts as no register field (log 61). -/
def stepFields : Instr → StepFields
  | .add .. | .sub .. | .and .. | .or .. | .xor .. | .sll .. | .srl .. | .sra .. | .mul .. | .mulhiS .. | .mulhiU .. | .quotS ..
  | .quotU .. | .rmdrS .. | .rmdrU .. => { d := .dst, a := fldX, b := fldX, m := fld8 }
  | .addi .. | .andi .. | .ori .. | .xori .. | .slli .. | .srli .. | .srai .. => { d := .dst, a := fldX }
  | .himm .. | .adpc .. => { d := .dst }
  | .cmpEq .. | .cmpNe .. | .cmpLt .. | .cmpGe .. | .cmpLtu .. | .cmpGeu .. => { d := fld8, a := fldX, b := fldX, m := fld8 }
  | .flAnd .. | .flOr .. | .flXor .. | .flAndn .. => { d := fld8, a := fld8, b := fld8, m := fld8 }
  | .flRd .. => { d := .dst, m := fld8 }
  | .flWr .. => { a := fldX, m := fld8 }
  | .cmpiEq .. | .cmpiNe .. | .cmpiLt .. | .cmpiGe .. | .cmpiLtu .. | .cmpiGeu .. => { a := fldX }
  | .yset .. | .yclr .. | .ywait .. | .ywaitc .. => { a := .reg 15, m := fld8 }
  | .ytas .. => { d := fld8, a := .reg 15, m := fld8 }
  | .yrd .. => { d := .dst, m := fld8 }
  | .tkpush .. | .tkwait .. => { m := fld8 }
  | .tkcnt .. => { d := .dst, m := fld8 }
  | .rset .. => { a := fldX, b := fldX, m := fld8 }
  | .rnext .. => { d := .dst, a := fld8, m := fld8 }
  | .rsteal .. => { m := fld8 }
  | .rstat .. => { d := .dst, m := fld8 }
  | .faddF64 .. | .fsubF64 .. | .fmulF64 .. | .fdivF64 .. | .fminF64 .. | .fmaxF64 .. | .fmacF64 .. | .fmsgnF64 ..
  | .faddF32 .. | .fsubF32 .. | .fmulF32 .. | .fdivF32 .. | .fminF32 .. | .fmaxF32 .. | .fmacF32 .. | .fmsgnF32 .. =>
      { d := .dst, a := fldX, b := fldX, m := fld8 }
  | .fcmpEqF64 .. | .fcmpLtF64 .. | .fcmpLeF64 .. | .fcmpEqF32 .. | .fcmpLtF32 .. | .fcmpLeF32 .. =>
      { d := fld8, a := fldX, b := fldX, m := fld8 }
  | .fsqrtF64 .. | .fkindF64 .. | .fabsF64 .. | .fnegF64 .. | .fsqrtF32 .. | .fkindF32 .. | .fabsF32 .. | .fnegF32 ..
  | .scvtF64F32 .. | .scvtF64I64 .. | .scvtF64Ui64 .. | .scvtI64F64 .. | .scvtUi64F64 .. | .scvtI32F64 .. | .scvtF32F64 ..
  | .scvtF32I64 .. | .scvtF32Ui64 .. | .scvtI64F32 .. | .scvtUi64F32 .. | .scvtI32F32 .. => { d := .dst, a := fldX, m := fld8 }
  | .csrrd .. => { d := .dst }
  | .csrwr .. | .csrset .. | .csrclr .. => { d := .dst, a := fldX }
  | .fenceCore .. | .fenceDie .. | .fencePkg .. | .fenceSys .. => { m := fld8 }
  | .hinit .. | .harrive .. | .hwait .. => { d := fldX, a := fldX }
  | .hstat .. => { d := .dst, a := fldX }
  | .chainKick .. => { a := fldX }
  | .chainStat .. => { d := .dst }
  | .qpost .. | .sigadd .. | .ringpost .. => { d := fldX, a := fldX }
  | .ares .. | .aresh .. => { d := .dst }
  | .ldG _ _ p _ _ _ | .ldL _ _ p _ _ _ => { d := .dst, a := fldInc p }
  | .vldG _ _ p _ _ | .vldL _ _ p _ _ | .vstG _ _ p _ _ | .vstL _ _ p _ _ => { d := fldX, a := fldInc p }
  | .stG _ _ p _ _ | .stL _ _ p _ _ => { d := fldX, a := fldInc p }
  | .gath .. => { d := fldX, a := fldX }
  | .scat .. => { d := .reg 62, a := fldX }
  | .sbaseL .. | .sdim0L .. | .sdim1L .. | .sdim2L .. | .smodeL .. | .sseekL .. | .sbaseS .. | .sdim0S .. | .sdim1S ..
  | .sdim2S .. | .smodeS .. | .sseekS .. => { d := fld8, a := fldX }
  | .sbindL .. | .sunbindL .. | .sstartL .. | .sstopL .. | .sbindS .. | .sunbindS .. | .sstartS .. | .sstopS .. => { d := fld8 }
  | .sposL .. | .sposS .. => { d := fld8, a := .dst }
  | .cpin .. | .cpinT .. | .cpout .. | .cpoutT .. => { d := .reg 61, a := fldX }
  | .cpin2d .. | .cpout2d .. => { d := .reg 60, a := fldX }
  | .prefG .. | .ssize .. => { a := fldX }
  | .smap .. => { a := .reg 62 }
  | .vadd .. | .vsub .. | .vmul .. | .vfma .. | .vfms .. | .vfnma .. | .vmin .. | .vmax .. | .vdiv .. | .vand .. | .vor .. | .vxor ..
  | .vsll .. | .vsrl .. | .vsra .. | .vadds .. | .vsubs .. | .vmulh .. | .vabsd .. | .vavg .. | .vsel .. | .vperm .. =>
      { d := fldX, a := fldX, b := fldX, m := fld8 }
  | .vcmpeq .. | .vcmplt .. | .vcmple .. | .vcmpne .. => { d := fld8, a := fldX, b := fldX, m := fld8 }
  | .vzipLo .. | .vzipHi .. | .vuzpEv .. | .vuzpOd .. | .vslide .. => { d := fldX, a := fldX, b := fldX }
  | .vabs .. | .vneg .. | .vsqrt .. | .vrecip .. | .vrsqrt .. | .vnot .. | .vclz .. | .vpopc .. | .vrint .. | .vclass .. | .vmov ..
  | .vredSum .. | .vredMin .. | .vredMax .. | .vredAnd .. | .vredOr .. | .vredXor .. | .vredSumw .. | .vscanSum .. | .vscanMin ..
  | .vscanMax .. | .vsplat .. => { d := fldX, a := fldX, m := fld8 }
  | .vcvt _ _ _ u _ t =>
      { d := fldGroup (decide (typeWidth t < typeWidth u)) u t, a := fldGroup (decide (typeWidth u < typeWidth t)) u t }
  | .mand .. | .mor .. | .mxor .. | .mandn .. => { d := fld8, a := fld8, b := fld8 }
  | .mlen .. => { d := fld8, a := fldX }
  | .mpopc .. | .mfirst .. => { d := .dst, a := fld8 }
  | .mtov .. => { d := fldX, a := fld8 }
  | .vext .. => { d := .dst, a := fldX, b := fldX }
  | .vins .. => { d := fldX, a := fldX, b := fldX }
  | .mxnest .. => { a := fldX }
  | .mxstat .. => { d := .dst }
  | .mxdrain .. => { d := fld8, a := fldX }
  | .mxzero .. => { d := fld8 }
  | .mxmma .. => { d := fldX, a := fldX }
  | .tdef .. => { d := fldX, a := fldX }
  | .tvalid .. | .tinval .. | .twait .. => { a := fldX }
  | .tstat .. => { d := .dst, a := fldX }
  | .walkAdd .. | .walkMin .. | .walkMax .. | .walkAnd .. | .walkOr .. | .walkXor .. | .walkPopc .. | .walkHist .. =>
      { d := .reg 62 }
  | .vview .. | .aview .. => { d := fldX }
  | .amdef .. => { a := fldX }
  | .aset .. | .astage .. => { d := fldX, a := fldX }
  | .aerr .. | .adec .. | .aoff .. => { d := fldX }
  | .aget .. => { d := .dst, a := fldX }
  | .aput .. => { d := fldX, a := fldX }
  | .astat .. => { d := .dst, a := fldX }
  | .shdecl .. => { a := fldX }
  | .shwld .. | .shwst .. => { d := fldX, a := fldX }
  | .shstat .. | .shmean .. => { d := .dst }
  | .amoAdd .. | .amoAnd .. | .amoOr .. | .amoXor .. | .amoMax .. | .amoMaxu .. | .amoSwap .. => { d := fldX, a := fldX }
  | .amoCasD .. => { d := .reg 62, a := fldX }
  | .amoCasQ .. => { d := .reg 60, a := fldX }
  | .jmpr .. | .pset .. | .pclr .. | .svc .. | .pinfo .. | .errrd .. => { d := .dst }
  | _ => {}

/-- The scalar destinations that an entry's fields name in a word. -/
def scalarDsts (i : Instr) (w : Word32) : List (BitVec 6) :=
  let f := stepFields i
  (if f.d = .dst then [bitsOf w 19 6] else []) ++ (if f.a = .dst then [bitsOf w 13 6] else [])

/-- Whether a major is a legal target of `rep` (R68). -/
def repTarget (maj : Nat) : Bool :=
  !((0x0B ≤ maj && maj ≤ 0x11) || maj == 0x18 || maj == 0x19 || maj == 0x1A || maj == 0x1D || maj == 0x1F || maj == 0x58 ||
    (0x70 ≤ maj && maj ≤ 0x77) || (0x7C ≤ maj && maj ≤ 0x7E))

/-- The top of a cluster's write window (R59). -/
def windowTop (cl : Cluster) : Nat :=
  match cl with | .c => 31 | .l => 43 | .k => 51 | .s => 63

/-- Whether a selected field can be stepped `n - 1` times by `st` from its value in the word (R67). -/
def fieldSteps (f : StepField) (cl : Cluster) (v n st : Nat) : Bool :=
  match f with
  | .no => false
  | .dst => decide (v + (n - 1) * st ≤ windowTop cl)
  | .reg mx => decide (v + (n - 1) * st ≤ mx)

/-- Whether every field that FSEL selects can be stepped. -/
def allStep (i : Instr) (w : Word32) (cl : Cluster) (fsel n st : Nat) : Bool :=
  let f := stepFields i
  let ok := fun k fld lo wd => fsel / 2 ^ k % 2 == 0 || fieldSteps fld cl (bitsAt w lo wd) n st
  ok 0 f.d 19 6 && ok 1 f.a 13 6 && ok 2 f.b 7 6 && ok 3 f.m 4 3

/-- The word of repetition `k` (R67). -/
def stepWord (w : Word32) (fsel st k : Nat) : Word32 :=
  let add := fun j lo => if fsel / 2 ^ j % 2 = 1 then k * st * 2 ^ lo else 0
  w + BitVec.ofNat 32 (add 0 19 + add 1 13 + add 2 7 + add 3 4)

end Sys2Proof.Machine
end

