-- ==== Sys2Proof/Machine/Run.lean ====
section
/-! DEFINITION. The issue of a core: fetch and decode of a word (R35, R51), a word of a cluster in split mode with the repetitions of `rep`
(R67, R69), a bundle in joint mode with the rows of the modulo sequencer (R57, R58, R117), and the passing of time (log 7). -/

namespace Sys2Proof.Machine

/-- The instruction that a fetched word issues as, or the encoding trap of R51. -/
noncomputable def decodeAt (s : State) (e : Env) (w lit : Word32) : Except Trap Instr :=
  match slotTrap w.toNat s e with
  | some t => .error t
  | none =>
    let bad := fun cause d => Except.error (mkTrap cause d (w.setWidth 64))
    match decodeWord w lit with
    | .ok i => .ok i
    | .error .truncated => bad 0x01 1
    | .error .unassigned => bad 0x01 1
    | .error .mustBeZero => bad 0x03 0
    | .error .range => bad 0x03 1
    | .error .elementType => bad 0x03 2

/-- The instruction that a fetched word issues as; the literal of a `vigil`, which lies at `la`, is fetched once the word has passed its checks
(R51, R70), unless it lies outside the loop body (R71). -/
noncomputable def decodeLit (s : State) (e : Env) (w : Word32) (la : Word) : Except Trap Instr :=
  match decodeAt s e w 0 with
  | .error t => .error t
  | .ok i =>
    if majorOf w = 0x58 && !literalOutside e then
      match fetchWord s e.ci la with
      | .error t => .error t
      | .ok l => decodeAt s e w l
    else .ok i

/-- The word at an address fetched and decoded for the issue that the focus names; the literal of a `vigil` lies at `la`. -/
noncomputable def fetchInstr (s : State) (a la : Word) : Except Trap Instr :=
  match fetchWord s s.focusCore a with
  | .error t => .error t
  | .ok w => decodeLit s (envOf s) w la

/-! ## Split mode -/

/-- The trap of the checks of `rep` before its first repetition (R67): what is left of the target's decoding, which is an undefined major, an
EMUL word (log 54) and the scalar destinations; then the target's legality and its fields. -/
def repTrap (s : State) (c : Core) (cl : Cluster) (p w : Word32) (i : Instr) : Option Trap :=
  if majorUndefined (majorOf w) then some (mkTrap 0x01 0 (w.setWidth 64))
  else if 0x7C ≤ majorOf w ∧ majorOf w ≤ 0x7E then some (emulTrap s c (w.setWidth 64))
  else if (scalarDsts i w).any (fun d => !inWindow cl d) then some (mkTrap 0x02 1 (w.setWidth 64))
  else if !repTarget (majorOf w) then some (mkTrap 0x02 4 (p.setWidth 64))
  else if decide (0x78 ≤ majorOf w) then none
  else if !allStep i w cl (bitsAt p 13 4) (bitsAt p 17 8 + 1) (bitsAt p 9 4) then some (mkTrap 0x03 3 (p.setWidth 64))
  else none

/-- The core past a `rep` and its target. -/
def pastRep (c : Core) (cl : Cluster) : Core := advanceSplit c (cnum cl) (vget c.a.pc 0 (cnum cl) + 4)

/-- Repetition `k` of the `rep` word `p` (R67, R69). -/
noncomputable def repetition (s : State) (p : Word32) (k : Nat) : Host.Outcome State Fault Refusal :=
  let ci := s.focusCore
  let cl := s.focusCl
  let n := bitsAt p 17 8 + 1
  let trap := fun t => Host.Outcome.next (takeTrap s ci cl t)
  let a := pcOf (getCore s ci) cl + 4
  match fetchWord s ci a with
  | .error t => trap t
  | .ok w =>
    match decodeAt s (envOf s) w 0 with
    | .error t => trap t
    | .ok i => match (if k = 0 then repTrap s (getCore s ci) cl p w i else none) with
    | some t => trap t
    | none =>
      if decide (0x78 ≤ majorOf w) || decide (n ≤ k) then .next (modCore s ci fun c => pastRep c cl)
      else
        match decodeWord (stepWord w (bitsAt p 13 4) (bitsAt p 9 4) k) 0 with
        | .error _ => .next (modCore s ci fun c => pastRep c cl)
        | .ok j => exec j (modArch s ci fun ar => { ar with repK := vset ar.repK (cnum cl) (some (k, n)) })

/-- Whether a cluster issues words: it runs, or it waits at a `mark`, which it issues again. -/
def issues (x : ClSt) : Bool :=
  match x with
  | .run | .atMark _ _ => true
  | _ => false

/-- The next word of the focus cluster in split mode. -/
noncomputable def issueSplit (s : State) : Host.Outcome State Fault Refusal :=
  let ci := s.focusCore
  let cl := s.focusCl
  let c := getCore s ci
  let a := pcOf c cl
  if !issues (vget c.a.clst .run (cnum cl)) then .next (settleWaits s ci)
  else
    match vget c.a.repK none (cnum cl) with
    | none =>
      match fetchInstr s a (a + 4) with
      | .error t => .next (takeTrap s ci cl t)
      | .ok i => exec i s
    | some (k, _) =>
      match fetchWord s ci a with
      | .error t => .next (takeTrap s ci cl t)
      | .ok p =>
        if majorOf p = 0x0F then repetition s p k
        else .next (modArch s ci fun ar => { ar with repK := vset ar.repK (cnum cl) none })

/-! ## Joint mode -/

/-- Majors that a body of `loopm` may not hold (R117): the branch words, `jeos` among them (R41; log 58), and the others that it names. -/
def bodyForbidden (maj : Nat) : Bool :=
  (0x0B ≤ maj && maj ≤ 0x0E) || maj == 0x1D || maj == 0x18 || maj == 0x11 || maj == 0x1F || (0x70 ≤ maj && maj ≤ 0x77) || maj == 0x58

/-- Whether the sequencer squashes a slot in its current row (R117). -/
def squashed (q : Seqr) (cl : Cluster) : Bool :=
  let st := fieldOf q.map (2 * (4 * q.b + cnum cl)) 2
  decide (q.k < st) || decide (q.n ≤ q.k - st)

/-- Whether the sequencer of a core squashes a slot in its current row. -/
def slotSquashed (c : Core) (cl : Cluster) : Bool := match c.a.seq with | some q => squashed q cl | none => false

/-- The word of a slot in the loop buffer of a core's sequencer, if it is there (R117). -/
def bufferWord (c : Core) (cl : Cluster) : Option Word32 := c.a.seq.bind fun q => nth none q.buf (4 * q.b + cnum cl)

/-- The address of a slot's word in the bundle that is up. -/
def slotAddr (c : Core) (cl : Cluster) : Word := vget c.a.pc 0 0 + BitVec.ofNat 64 (4 * cnum cl)

/-- The word of a slot: from the loop buffer while the sequencer runs (R117), else from memory. -/
def slotWord (s : State) (ci : Nat) (cl : Cluster) : Except Trap Word32 :=
  match bufferWord (getCore s ci) cl with
  | some w => .ok w
  | none => fetchWord s ci (slotAddr (getCore s ci) cl)

/-- Whether a slot of the bundle that is up is not decoded: a `nop` after `tret.n` (R323), or the literal of a `vigil` (R70). -/
def slotSkipped (c : Core) (cl : Cluster) : Bool := c.nopSlot == some cl || (cl == .k && c.a.litAt == some (vget c.a.pc 0 0))

/-- One slot of the bundle in issue, with the core as it stood before the bundle. A slot that the sequencer squashes raises no trap of its
fetch (R117, R167). -/
noncomputable def issueSlot (pre : Core) (s : State) (cl : Cluster) : Host.Outcome State Fault Refusal :=
  let s1 := { s with focusCl := cl }
  let trap := fun t => conclude s1 (envOf s1) (.raise t)
  if slotSkipped pre cl then .next s1
  else
    let s0 := putCore s1 s.focusCore pre
    match slotWord s0 s.focusCore cl with
    | .error t => if slotSquashed pre cl then .next s1 else trap t
    | .ok w =>
      if pre.a.seq.isSome && bodyForbidden (majorOf w) then trap (mkTrap 0x02 0 (w.setWidth 64))
      else if slotSquashed pre cl then .next s1
      else match decodeLit s0 (envOf s1) w (vget pre.a.pc 0 0 + 24) with
        | .error t => trap t
        | .ok i => exec i s1

/-- The slots of a list, in order, each on what the one before it left. -/
noncomputable def issueSlots (pre : Core) (s : State) : List Cluster → Host.Outcome State Fault Refusal
  | [] => .next s
  | cl :: r =>
    match issueSlot pre s cl with
    | .next s' => issueSlots pre s' r
    | o => o

/-- Whether C waits at a commit point. -/
def waitsAtCommit (c : Core) : Bool :=
  match vget c.a.clst .run 0 with
  | .atCommit | .atCommitD _ _ | .atEnd => true
  | _ => false

/-- The state that keeps what a core was before the bundle in which its C waits at a commit point, and right after its slots (R58; log 57). -/
def keepBundle (s : State) (ci : Nat) (pre : Core) : State :=
  let s1 := dropBundle s ci
  if waitsAtCommit (getCore s ci) then { s1 with waiting := s1.waiting ++ [(ci, pre, getCore s ci)] } else s1

/-- The local arrivals of a bundle, one hurdle at a time: those at one hurdle are summed and settle once (R244). -/
def applyArrivals (a : Arch) (l : List (Nat × Nat)) : Arch :=
  (l.map fun x => x.1).eraseDups.foldl (fun a h => arrive a h ((l.filter fun x => x.1 == h).map fun x => x.2).sum) a

/-- Whether a bundle with a commit must wait for the matrix queue: its slots change the queue while an operation of it can run (log 57). -/
def mxHeld (pre post : Core) : Bool := waitsAtCommit post && post.mxq != pre.mxq && mxRunnable pre.mxq

/-- The end of a bundle whose slots have executed on `s`, from `s0`: a slot that waits holds it, a trap takes back every slot (R58),
otherwise the core goes on in sequence, to the target of its C slot, or where a slot has put it. -/
def finishBundle (s0 s : State) (b : Bundle) : State :=
  let ci := s0.focusCore
  let s1 := modArch { s with bundle := none, focusCl := s0.focusCl } ci fun a => applyArrivals a b.arrivals
  if b.stalled then (if b.unpin then modArch s0 ci fun a => { a with pins := [] } else s0)
  else match b.raised with
    | some (cl, t) => takeTrap s0 ci cl t
    | none =>
      if mxHeld b.pre (getCore s1 ci) then s0
      else match b.target with
        | some t => modCore s1 ci fun c => setPcs { c with a := { c.a with litAt := none } } t
        | none => if b.pcSet then settleWaits (keepBundle s1 ci b.pre) ci else modCore s1 ci advanceJoint

/-- A bundle none of whose slots has executed, on a core as it stands before it. -/
def freshBundle (c : Core) : Bundle :=
  { pre := c, flagged := 0, raised := none, stalled := false, target := none, pcSet := false, unpin := false, arrivals := [] }

/-- A bundle opened on a core: it no longer holds the slot that `tret.n` has made a `nop`, nor the place of a literal. -/
def openBundle (s : State) : State :=
  let c := getCore s s.focusCore
  { modCore s s.focusCore fun c => { c with nopSlot := none, a := { c.a with litAt := none } } with
    bundle := some (freshBundle c) }

/-- The next bundle of the focus core (R36, R57, R58). -/
noncomputable def issueJoint (s : State) : Host.Outcome State Fault Refusal :=
  let c := getCore s s.focusCore
  match vget c.a.clst .run 0 with
  | .run =>
    match issueSlots c (openBundle s) [.c, .l, .k, .s] with
    | .next s' => .next (match s'.bundle with | some b' => finishBundle s s' b' | none => s')
    | o => o
  | _ => .next (settleWaits s s.focusCore)

/-! ## An issue -/

/-- The cluster that takes a fault found by an engine, if the next issue of the focus is its first instruction that has not completed
(R230, R252). -/
def engineTrapNow (c : Core) (cl : Cluster) : Option EngTrap :=
  c.engTraps.find? fun t => c.a.mode == .joint || t.cl == cl

/-- The loop buffer of a core's sequencer with the words of the current row's slots that can be fetched by now (log 51). -/
def fillBuffer (s : State) (ci : Nat) : State :=
  let c := getCore s ci
  match c.a.seq with
  | none => s
  | some q =>
    let get := fun (b : List (Option Word32)) (cl : Cluster) =>
      match bufferWord c cl, fetchWord s ci (slotAddr c cl) with
      | none, .ok w => if slotSquashed c cl then b else setNth (some w) b (4 * q.b + cnum cl)
      | _, _ => b
    modArch s ci fun a => { a with seq := some { q with buf := [Cluster.c, .l, .k, .s].foldl get q.buf } }

/-- The words that the next issue of the focus fetches: cluster and address, none for those that the loop buffer holds. -/
def fetchList (s : State) : List (Cluster × Word) :=
  let c := getCore s s.focusCore
  match c.a.mode with
  | .split =>
    let p := pcOf c s.focusCl
    (s.focusCl, p) :: if (vget c.a.repK none (cnum s.focusCl)).isSome then [(s.focusCl, p + 4)] else []
  | .joint => ([Cluster.c, .l, .k, .s].filter fun cl => (bufferWord c cl).isNone && !slotSkipped c cl && !slotSquashed c cl).map fun cl =>
      (cl, slotAddr c cl)

/-- The literal of the `vigil` that the next issue of the focus holds, if it holds one. -/
def literalList (s : State) : List (Cluster × Word) :=
  let c := getCore s s.focusCore
  let k := match c.a.mode with | .split => s.focusCl | .joint => .k
  let a := match c.a.mode with | .split => pcOf c s.focusCl | .joint => slotAddr c .k
  match (if k = .k then fetchWord s s.focusCore a else .error (mkTrap 0 0 0)) with
  | .ok w => if majorOf w = 0x58 then [(.k, a + (match c.a.mode with | .split => 4 | .joint => 16))] else []
  | .error _ => []

/-- The state once the words of the next issue of the focus have been fetched: translations walked, lines read, the loop buffer filled (R19,
R117, R167). -/
def fetchAhead (s : State) : State :=
  let note := fun (s : State) (x : Cluster × Word) => noteFetch s s.focusCore x.1 x.2
  let s1 := (fetchList s).foldl note s
  fillBuffer ((literalList s1).foldl note s1) s.focusCore

/-- The state once the walk of a trap that a marked table entry has raised has read its entries at their homes (R365). -/
def noteWalk (s t : State) (ci : Nat) : State :=
  let c := getCore s ci
  let c' := getCore t ci
  let ended := match c.run, c'.run with | .running, .ending x d => markedWalk x d | _, _ => false
  if (c'.a.tl && !c.a.tl && markedWalk c'.tr.cause.toNat c'.tr.detail.toNat) || ended then readWalk t ci c'.tr.tval else t

/-- Whether a fetch of the next issue of the focus meets a pinned line (R182). -/
def fetchRetry (s : State) : Bool := (fetchList s ++ literalList s).any fun x => fetchPinned s s.focusCore x.1 x.2

/-- The next issue of the focus: a bundle or a word. A fetch that meets a pinned line is made again, and the core ends its own pins (R183). -/
noncomputable def issueNext (s : State) : Host.Outcome State Fault Refusal :=
  if fetchRetry s then .next (unpin s s.focusCore)
  else match (getCore s s.focusCore).a.mode with
  | .joint => issueJoint (fetchAhead s)
  | .split => issueSplit (fetchAhead s)

/-- A fault found by an engine taken by its cluster; in joint mode the bundle in which a commit waits has not issued (R58, R230). -/
def takeEngTrap (s : State) (ci : Nat) (t : EngTrap) : State :=
  let s1 := match (getCore s ci).a.mode with | .joint => undoBundle s ci | .split => s
  takeTrap (modCore s1 ci fun c => { c with engTraps := c.engTraps.erase t }) ci t.cl t.trap

/-- The issue of the focus cluster, or in joint mode of the focus core's bundle. A core that does not run, or that an alarm has halted
(R378), issues nothing. -/
noncomputable def issueFocus (s : State) : Host.Outcome State Fault Refusal :=
  let c := getCore s s.focusCore
  if c.run ≠ .running ∨ c.freeze.isSome ∨ s.alarm ≠ .none then .next s
  else match engineTrapNow c s.focusCl with
    | some t => .next (noteWalk s (takeEngTrap s s.focusCore t) s.focusCore)
    | none => match issueNext s with
      | .next t => .next (noteWalk s t s.focusCore)
      | o => o

/-- DTIME after `ns` nanoseconds of the local clock, with the correction in force: it never runs backwards (R373). -/
def passNs (s : State) (ns : Nat) : State :=
  let total := (ns : Int) * s.slew + s.slewAcc
  { s with dtime := s.dtime + BitVec.ofNat 64 ((ns : Int) + total / 1000000).toNat, slewAcc := (total % 1000000).toNat }

/-- The state once a move's time has passed: DTIME, and CYC of the acting core while it holds a unit and is not frozen or halted (R22, R104,
R241). -/
def passTime (s : State) (ns cc : Nat) : State :=
  let tick := fun (c : Core) =>
    if c.freeze.isSome || s.alarm != .none then c else match c.run with
    | .idle | .retired | .halted => c
    | _ => { c with cyc := c.cyc + BitVec.ofNat 64 cc }
  modCore { passNs s ns with tick := s.tick + 1 } s.focusCore tick

/-- Whether a step may still happen once an alarm has halted the machine: the host's configuration, the environment, and what ends the alarm
(R378). -/
def underAlarm (i : Instr) : Bool :=
  match i with
  | .packageReset _ | .hostRegisterWrite _ _ | .fenWrite _ _ | .ringEnable _ _ | .mirroredSizeSet _ | .firmwareUpdate _ _ _
  | .ownerProvisioning _ _ | .glitchDetect | .thermalTrip _ | .linkTrainingComplete _ _ | .portalDmwr _ _ _ | .portalPostedWrite _ _ _
  | .portalWake _ _ | .hostMemoryAccess _ _ _ => true
  | _ => false

/-! ## The load and store queues (R142) -/

/-- A load or store that may stay in its queue, without its token fields: the instruction, those fields, and the registers that it names (log 6). -/
noncomputable def queueForm (i : Instr) : Option (Instr × Tk × List Nat) :=
  match i with
  | .ldG x y p z g tk => some (.ldG x y p z g tkNone, tk, [x.toNat, y.toNat])
  | .ldL x y p z g tk => some (.ldL x y p z g tkNone, tk, [x.toNat, y.toNat])
  | .stG x y p z tk => some (.stG x y p z tkNone, tk, [x.toNat, y.toNat])
  | .stL x y p z tk => some (.stL x y p z tkNone, tk, [x.toNat, y.toNat])
  | .vldG x y p m tk => some (.vldG x y p m tkNone, tk, [x.toNat, y.toNat])
  | .vldL x y p m tk => some (.vldL x y p m tkNone, tk, [x.toNat, y.toNat])
  | .vstG x y p m tk => some (.vstG x y p m tkNone, tk, [x.toNat, y.toNat])
  | .vstL x y p m tk => some (.vstL x y p m tkNone, tk, [x.toNat, y.toNat])
  | .gath x y a b c tk => some (.gath x y a b c tkNone, tk, [x.toNat, y.toNat])
  | .scat x y a b c tk => some (.scat x y a b c tkNone, tk, [x.toNat, y.toNat, x.toNat + 1])
  | _ => none

/-- Whether words of a major pass the queues: the scalar and vector arithmetic, the branches, the loops and the views, and HINT words. Any other
word orders accesses, is one, or works on what they change, and waits until they have been performed (log 6). -/
def passesQueues (maj : Nat) : Bool :=
  (1 ≤ maj && maj ≤ 0x0E) || maj == 0x10 || maj == 0x15 || maj == 0x16 || (0x30 ≤ maj && maj ≤ 0x51) || maj == 0x57 || (0x78 ≤ maj && maj ≤ 0x7B)

/-- A queued access performed: it runs as a slot of a bundle with the operands that it took, and makes its push; none where it raises or
waits. -/
noncomputable def performed (s : State) (q : Queued) : Option State :=
  match exec q.instr { s with focusCore := q.core, focusCl := q.cl, bundle := some (freshBundle q.pre) } with
  | .next t => match t.bundle with
    | some b =>
      if b.raised.isNone && !b.stalled then
        some (modArch { t with focusCore := s.focusCore, focusCl := s.focusCl, bundle := s.bundle } q.core fun a => deliverTok a q.push)
      else none
    | none => none
  | _ => none

/-- The state once every queued access has been performed. -/
noncomputable def performAll (s : State) : State :=
  { s.accesses.foldl (fun s q => (performed s q).getD s) s with accesses := [] }

/-- The oldest access in the queue of a cluster performed. -/
noncomputable def performNext (s : State) (ci : Nat) (cl : Cluster) : State :=
  match s.accesses.find? fun q => q.core == ci && q.cl == cl with
  | some q => { (performed s q).getD s with accesses := s.accesses.erase q }
  | none => s

/-- What a slot of the focus core does in an issue that leaves the queues: none if it may not issue so, its access if it has one, with its token
fields, and else a word that passes. -/
noncomputable def lateSlot (s : State) (cl : Cluster) (a : Word) : Option (Option (Queued × Tk)) :=
  let c := getCore s s.focusCore
  match fetchWord s s.focusCore a with
  | .error _ => none
  | .ok w =>
    if passesQueues (majorOf w) then some none
    else match fetchInstr { s with focusCl := cl } a a with
      | .error _ => none
      | .ok i => match queueForm i with
        | none => none
        | some (j, tk, l) =>
          let pin := popPair cl tk.tkin.toNat
          let pout := pushPair cl tk.tkout.toNat
          if (portsOf c l).isEmpty && popReady c.a pin && pushReady c.a pout then
            some (some ({ core := s.focusCore, cl := cl, instr := j, pre := c, push := pout }, tk))
          else none

/-- What the slots of the next issue of the focus do, by their clusters, none where one may not issue so. -/
noncomputable def lateNext (s : State) : Option (List (Cluster × Option (Queued × Tk))) :=
  let c := getCore s s.focusCore
  match c.a.mode with
  | .split =>
    if vget c.a.clst .run (cnum s.focusCl) = .run ∧ (vget c.a.repK none (cnum s.focusCl)).isNone then
      (lateSlot s s.focusCl (pcOf c s.focusCl)).map fun x => [(s.focusCl, x)]
    else none
  | .joint =>
    if vget c.a.clst .run 0 = .run ∧ c.nopSlot.isNone ∧ c.a.litAt.isNone ∧ c.a.seq.isNone then
      [Cluster.c, .l, .k, .s].mapM fun cl => (lateSlot s cl (slotAddr c cl)).map fun x => (cl, x)
    else none

/-- The accesses among the slots of an issue. -/
def lateAccesses (l : List (Cluster × Option (Queued × Tk))) : List Queued := l.filterMap fun x => x.2.map fun y => y.1

/-- The tokens of the accesses among the slots of an issue popped, and their pushes held. -/
def lateTokens (s : State) (l : List (Cluster × Option (Queued × Tk))) : State :=
  l.foldl (fun s x => match x.2 with
    | some (q, tk) => modArch s q.core fun a => holdTok (popTok a (popPair q.cl tk.tkin.toNat)) q.push
    | none => s) s

/-- An issue that leaves the queues: the accesses of its slots enter them, and its other words issue. -/
noncomputable def lateIssue (s : State) (l : List (Cluster × Option (Queued × Tk))) : Option State :=
  let c := getCore s s.focusCore
  let words := (l.filter fun x => x.2.isNone).map fun x => x.1
  let issued : Host.Outcome State Fault Refusal := match c.a.mode, words with
    | .split, [] => .next (modCore s s.focusCore fun c => advance c s.focusCl 0)
    | .split, _ => issueSplit s
    | .joint, _ => match issueSlots c (openBundle s) words with
      | .next t => .next (match t.bundle with | some b => finishBundle s t b | none => t)
      | o => o
  match issued with
  | .next t => some (let u := lateTokens t l; { u with accesses := u.accesses ++ lateAccesses l })
  | _ => none

/-- A core without its caches, and memory: what two orders of the same accesses must leave alike. -/
def coreSeen (s : State) (ci : Nat) : Core × List Host.Cell :=
  ({ getCore s ci with l1 := [], stash := [], icache := Vector.replicate 4 [], tlb1 := [], tlb2 := [] }, s.mem)

/-- Whether an issue that has left the queues in `t`, with everything in them performed afterwards, leaves what the issue in order leaves: no
word of it depends on an access that waits, and none raises. -/
noncomputable def inOrder (s t : State) (ci : Nat) : Bool :=
  match issueFocus (performAll s) with
  | .next u => decide (coreSeen (performAll t) ci = coreSeen u ci)
  | _ => false

/-- An issue of the focus that leaves the queues, of 32 entries each: its loads and stores enter them, where a full queue holds it, and its other
words pass what they hold (R142). Where a word must wait for a queued access, or would raise, every access is performed first. -/
noncomputable def issueLate (s : State) : Host.Outcome State Fault Refusal :=
  let c := getCore s s.focusCore
  let t := fetchAhead s
  let room := fun (q : Queued) => decide ((t.accesses.filter fun y => y.core == q.core && y.cl == q.cl).length < 32)
  match (if c.run ≠ .running ∨ c.freeze.isSome ∨ s.alarm ≠ .none ∨ !c.engTraps.isEmpty ∨ fetchRetry s then none else lateNext t) with
  | none => issueFocus (performAll s)
  | some l =>
    if !(lateAccesses l).all room then .next s
    else match lateIssue t l with
      | none => issueFocus (performAll s)
      | some u => if inOrder s u s.focusCore then .next u else issueFocus (performAll s)

/-- A line's marks with a word of it marked, in the copies of a line. -/
def spoilWord (line word : Nat) (l : Nat) (m : BitVec 32) : BitVec 32 := if l = line then putBit m (word % 32) true else m

/-- A word of a line marked at its home, which a dirty stash line is written back to with its marks (R151, R261). -/
def spoilHome (s : State) (ci line word : Nat) : State :=
  let t := (touchLine s (partOf (getCore s ci)) ci (some ci) (128 * line) 0).1
  modDc t (homeDie s (128 * line)) fun x => x.map fun l =>
    if l.line == line then { l with dirty := true, marks := putBit l.marks (word % 32) true } else l

/-- An error in an SRAM (R261): one of a single bit is corrected and counted, a word with an uncorrectable one reads poison from then on. -/
def upset (s : State) (x : Upset) : State :=
  match x with
  | .bit => { s with corrected := s.corrected + 1 }
  | .scr i w => modCore s i fun c => { c with badScr := natInsert (w % 2097152) c.badScr }
  | .ost i n => modCore s i fun c => { c with badOst := natInsert (n % 131072) c.badOst }
  | .l1 i n w => modCore s i fun c => { c with l1 := c.l1.map fun (y : L1Line) => { y with marks := spoilWord n w y.line y.marks } }
  | .stash i n w =>
    let s1 := modCore s i fun c => { c with stash := c.stash.map fun (y : StashLine) => { y with marks := spoilWord n w y.line y.marks } }
    if (getCore s i).stash.any fun y => y.line == n && y.dirty then spoilHome s1 i n w else s1
  | .dcache d n w => modDie s d fun y => { y with dcache := y.dcache.map fun (z : DcLine) => { z with marks := spoilWord n w z.line z.marks } }

/-- A move of the agenda: the issue of a core, or a step of another agent, with every queued access performed before it; or the one or the
other side of a queued access. A step that no agent makes is a fault. -/
noncomputable def runMove (s : State) (m : Move) : Host.Outcome State Fault Refusal :=
  match m.act with
  | .issue core cl =>
    if core < 72 then issueFocus (performAll (passTime { s with focusCore := core, focusCl := cl } m.ns m.cc)) else .fault .noSuchAgent
  | .late core cl =>
    if core < 72 then issueLate (passTime { s with focusCore := core, focusCl := cl } m.ns m.cc) else .fault .noSuchAgent
  | .perform core cl =>
    if core < 72 then .next (performNext (passTime s m.ns m.cc) core cl) else .fault .noSuchAgent
  | .upset x => .next (upset (passTime s m.ns m.cc) x)
  | .event i =>
    if i.hasWord || !i.stepOk then .fault .noSuchAgent
    else if s.alarm ≠ .none ∧ !underAlarm i then .next (passTime s m.ns m.cc)
    else exec i (performAll (passTime s m.ns m.cc))

/-- The cluster after another in the default order. -/
def nextCluster (c : Core) (cl : Cluster) : Cluster :=
  match c.a.mode with
  | .joint => .c
  | .split => clusterOf (cnum cl + 1)

/-- A list if a condition holds. -/
def listIf {α : Type} (b : Bool) (l : List α) : List α := if b then l else []

/-- The steps of the copies, chains and posts of a core that have work, in the default order. -/
noncomputable def transferSteps (c : Core) (i : Nat) : List Instr :=
  let chains : List Instr := (List.range 4).flatMap fun k =>
    let x := vget c.chains Chain.zero k
    let live := x.st == .run || x.st == .wait
    listIf live [.chainEnd i k, .chainCopy i k, .chainCopy2d i k, .chainWait i k, .chainPost i k, .chainLink i k, .chainFlag i k, .chainArrive i k]
  let kicks : List Instr := (List.range 4).flatMap fun k => listIf (vget c.chains Chain.zero k).kick.isSome [.pendingKickStart i k]
  let parts : List (List Instr) :=
    [listIf (c.copies.any fun x => !x.outb) [.copyPieceLand i],
     listIf (c.copies.any fun x => x.outb) [.outboundCopyExecute i, .outboundCopyComplete i],
     chains, kicks,
     listIf (!c.departing.isEmpty) [.postDeparture i, .qpostDelivery i],
     listIf (!c.outst.isEmpty) [.peerAtomicCompletion i, .peerWriteAck i, .hostAtomicopCompletion i false],
     match c.run with | .ending _ _ => [.unitCompletion i] | _ => []]
  parts.flatten

/-- The steps of the compute engines of a core that have work, in the default order. -/
noncomputable def computeSteps (c : Core) (i : Nat) : List Instr :=
  let str := fun q => vget c.a.streams Stream.zero q
  let streams : List Instr := (List.range 8).flatMap fun q => listIf ((str q).running && !(str q).out) [.streamFetch i q]
  let writes : List Instr := (List.range 8).flatMap fun q =>
    listIf ((str q).out && !(vget c.fifos Fifo.zero q).vecs.isEmpty) [.streamOutboundWrite i q]
  let fetches : List Instr := c.copies.flatMap fun x => match x.tile with | some h => listIf x.fetcher [.fetcherCopy i h] | none => []
  let trains := c.shrun != .none || c.a.shep.toList.any fun x => x.st == .train || x.st == .candidate
  let parts : List (List Instr) :=
    [streams, writes, listIf (!c.mxq.isEmpty) [.matrixOpRun i], fetches, listIf c.walk.isSome [.walkRun i],
     listIf (!c.vigils.isEmpty) [.vigilCheck i], listIf (!c.almq.isEmpty) [.almanacStep i], listIf trains [.shepherdOperation i]]
  parts.flatten

/-- The arrivals on their way to a core, in the default order. -/
noncomputable def arrivalSteps (c : Core) (i : Nat) : List Instr :=
  let parts : List (List Instr) :=
    [listIf (!c.invq.isEmpty) [.invalidationApply i], listIf (!c.arrivals.isEmpty) [.remoteHurdleArrival i],
     listIf (!c.inbox.isEmpty) [.stealRequestArrival i], listIf (!c.answers.isEmpty) [.stealGrant i, .stealRefusal i]]
  parts.flatten

/-- The steps of core `i` that have work, in the default order, and those of the units switched out of it (R334). -/
noncomputable def engineSteps (s : State) (i : Nat) : List Instr :=
  let c := getCore s i
  let past := (s.parts.toList.flatMap fun p => p.switched.filter fun x => x.core == i).flatMap fun x => transferSteps x.image i
  (computeSteps c i).append ((transferSteps c i).append ((arrivalSteps c i).append past))

/-- The next act of the default order (log 5): the focus core's clusters in turn, and between two of them an engine of that core. -/
noncomputable def defaultAct (s : State) : Act :=
  let l := engineSteps s s.focusCore
  if s.tick % 2 = 0 then .issue s.focusCore s.focusCl
  else match l[s.tick / 2 % l.length]? with
    | some i => .event i
    | none => .issue s.focusCore s.focusCl

/-- The default order of an empty agenda: after an issue the next cluster is up. -/
noncomputable def defaultStep (s : State) : Host.Outcome State Fault Refusal :=
  match runMove s { act := defaultAct s, ns := Config.freeNs s.tick, cc := Config.freeCc s.tick } with
  | .next t => .next (match defaultAct s with
    | .issue _ _ => { t with focusCl := nextCluster (getCore t t.focusCore) s.focusCl }
    | _ => t)
  | o => o

/-- The next move of the agenda, or of the default order. -/
noncomputable def nextStep (s : State) : Host.Outcome State Fault Refusal :=
  match s.agenda with
  | m :: r => runMove { s with agenda := r } m
  | [] => defaultStep s

end Sys2Proof.Machine
end

