-- ==== Sys2Proof/Machine/Step.lean ====
section
/-! DEFINITION. One step of the package, and the placing of an instruction for the step to run. -/

namespace Sys2Proof.Machine

/-- One step: the next move of the agenda, or of the default order when the agenda is empty (log 5). -/
noncomputable def step (s : State) : Host.Outcome State Fault Refusal := nextStep s

/-- `s` with an instruction of the opcode table stored where the next step fetches it (log 14): `nbits` of it are given, those above are
zero. -/
def State.withFetchWord (s : State) (nbits w : Nat) : State := placeWord s (w % 2 ^ nbits)

end Sys2Proof.Machine
end

