-- ==== Sys2Proof/Laws/Decode.lean ====
section
/-! SUPPORT. What the fields of an encoded word read as, one lemma per encoder format; the row that each major and subfunction select;
and how a row's reading back gives the round trip. -/

namespace Sys2Proof.Laws

/-- A field whose bits are those of `x` is `x`. -/
theorem ofNat_bits {n : Nat} (x : BitVec n) {v : Nat} (h : v % 2 ^ n = x.toNat) : BitVec.ofNat n v = x := by
  apply BitVec.eq_of_toNat_eq
  simp [h]

/-- The token fields of a word whose low bits hold `tk`. -/
theorem tkOf_eq {w : Word32} (tk : Tk) (h : w.toNat / 2 ^ 6 % 2 ^ 2 = tk.hint.toNat) (h' : w.toNat / 2 ^ 2 % 2 ^ 2 = tk.tkin.toNat)
    (h'' : w.toNat / 2 ^ 0 % 2 ^ 2 = tk.tkout.toNat) : tkOf w = tk := by
  unfold tkOf bitsOf
  rw [ofNat_bits _ h, ofNat_bits _ h', ofNat_bits _ h'']

/-- An instruction that is read back from its word before the field checks is decoded from it. -/
theorem decodeWord_of_raw {i : Instr} {lit : Word32} (h : rawDecode (encodeWord i) lit = some i) (hw : i.wf = true) :
    decodeWord (encodeWord i) lit = .ok i := by
  simp only [Instr.wf, Bool.and_eq_true] at hw
  simp [decodeWord, h, checkFields, hw]

/-! ## The row of a major -/

theorem raw_01 {w lit : Word32} (h : majorOf w = 0x01) : rawDecode w lit = decodeMajor01 w := by
  unfold rawDecode
  rw [h]
  rfl

theorem raw_02 {w lit : Word32} (h : majorOf w = 0x02) : rawDecode w lit = some (.addi (bitsOf w 19 6) (bitsOf w 13 6) (bitsOf w 0 13)) := by
  unfold rawDecode
  rw [h]
  rfl

theorem raw_03 {w lit : Word32} (h : majorOf w = 0x03) : rawDecode w lit = some (.andi (bitsOf w 19 6) (bitsOf w 13 6) (bitsOf w 0 13)) := by
  unfold rawDecode
  rw [h]
  rfl

theorem raw_04 {w lit : Word32} (h : majorOf w = 0x04) : rawDecode w lit = some (.ori (bitsOf w 19 6) (bitsOf w 13 6) (bitsOf w 0 13)) := by
  unfold rawDecode
  rw [h]
  rfl

theorem raw_05 {w lit : Word32} (h : majorOf w = 0x05) : rawDecode w lit = some (.xori (bitsOf w 19 6) (bitsOf w 13 6) (bitsOf w 0 13)) := by
  unfold rawDecode
  rw [h]
  rfl

theorem raw_06 {w lit : Word32} (h : majorOf w = 0x06) : rawDecode w lit = decodeMajor06 w := by
  unfold rawDecode
  rw [h]
  rfl

theorem raw_07 {w lit : Word32} (h : majorOf w = 0x07) : rawDecode w lit = some (.himm (bitsOf w 19 6) (bitsOf w 0 19)) := by
  unfold rawDecode
  rw [h]
  rfl

theorem raw_08 {w lit : Word32} (h : majorOf w = 0x08) : rawDecode w lit = some (.adpc (bitsOf w 19 6) (bitsOf w 0 19)) := by
  unfold rawDecode
  rw [h]
  rfl

theorem raw_09 {w lit : Word32} (h : majorOf w = 0x09) : rawDecode w lit = decodeMajor09 w := by
  unfold rawDecode
  rw [h]
  rfl

theorem raw_0A {w lit : Word32} (h : majorOf w = 0x0A) : rawDecode w lit = decodeMajor0A w := by
  unfold rawDecode
  rw [h]
  rfl

theorem raw_0B {w lit : Word32} (h : majorOf w = 0x0B) : rawDecode w lit = some (.br (bitsOf w 22 3) (bitsOf w 0 22)) := by
  unfold rawDecode
  rw [h]
  rfl

theorem raw_0C {w lit : Word32} (h : majorOf w = 0x0C) : rawDecode w lit = some (.brn (bitsOf w 22 3) (bitsOf w 0 22)) := by
  unfold rawDecode
  rw [h]
  rfl

theorem raw_0D {w lit : Word32} (h : majorOf w = 0x0D) : rawDecode w lit = some (.call (bitsOf w 22 3) (bitsOf w 0 22)) := by
  unfold rawDecode
  rw [h]
  rfl

theorem raw_0E {w lit : Word32} (h : majorOf w = 0x0E) : rawDecode w lit = decodeMajor0E w := by
  unfold rawDecode
  rw [h]
  rfl

theorem raw_0F {w lit : Word32} (h : majorOf w = 0x0F) : rawDecode w lit = some (.rep (bitsOf w 17 8) (bitsOf w 13 4) (bitsOf w 9 4)) := by
  unfold rawDecode
  rw [h]
  rfl

theorem raw_10 {w lit : Word32} (h : majorOf w = 0x10) : rawDecode w lit = decodeMajor10 w := by
  unfold rawDecode
  rw [h]
  rfl

theorem raw_11 {w lit : Word32} (h : majorOf w = 0x11) : rawDecode w lit = decodeMajor11 w := by
  unfold rawDecode
  rw [h]
  rfl

theorem raw_12 {w lit : Word32} (h : majorOf w = 0x12) : rawDecode w lit = decodeMajor12 w := by
  unfold rawDecode
  rw [h]
  rfl

theorem raw_13 {w lit : Word32} (h : majorOf w = 0x13) : rawDecode w lit = decodeMajor13 w := by
  unfold rawDecode
  rw [h]
  rfl

theorem raw_14 {w lit : Word32} (h : majorOf w = 0x14) : rawDecode w lit = decodeMajor14 w := by
  unfold rawDecode
  rw [h]
  rfl

theorem raw_15 {w lit : Word32} (h : majorOf w = 0x15) : rawDecode w lit = decodeMajor15 w := by
  unfold rawDecode
  rw [h]
  rfl

theorem raw_16 {w lit : Word32} (h : majorOf w = 0x16) : rawDecode w lit = decodeMajor16 w := by
  unfold rawDecode
  rw [h]
  rfl

theorem raw_17 {w lit : Word32} (h : majorOf w = 0x17) : rawDecode w lit = decodeMajor17 w := by
  unfold rawDecode
  rw [h]
  rfl

theorem raw_18 {w lit : Word32} (h : majorOf w = 0x18) : rawDecode w lit = decodeMajor18 w := by
  unfold rawDecode
  rw [h]
  rfl

theorem raw_19 {w lit : Word32} (h : majorOf w = 0x19) : rawDecode w lit = some (.join (bitsOf w 0 22)) := by
  unfold rawDecode
  rw [h]
  rfl

theorem raw_1A {w lit : Word32} (h : majorOf w = 0x1A) : rawDecode w lit = decodeMajor1A w := by
  unfold rawDecode
  rw [h]
  rfl

theorem raw_1B {w lit : Word32} (h : majorOf w = 0x1B) : rawDecode w lit = decodeMajor1B w := by
  unfold rawDecode
  rw [h]
  rfl

theorem raw_1C {w lit : Word32} (h : majorOf w = 0x1C) : rawDecode w lit = decodeMajor1C w := by
  unfold rawDecode
  rw [h]
  rfl

theorem raw_1D {w lit : Word32} (h : majorOf w = 0x1D) : rawDecode w lit = some (.jeos (bitsOf w 22 3) (bitsOf w 0 22)) := by
  unfold rawDecode
  rw [h]
  rfl

theorem raw_1E {w lit : Word32} (h : majorOf w = 0x1E) : rawDecode w lit = decodeMajor1E w := by
  unfold rawDecode
  rw [h]
  rfl

theorem raw_1F {w lit : Word32} (h : majorOf w = 0x1F) : rawDecode w lit = decodeMajor1F w := by
  unfold rawDecode
  rw [h]
  rfl

theorem raw_20 {w lit : Word32} (h : majorOf w = 0x20) : rawDecode w lit = decodeMajor20 w := by
  unfold rawDecode
  rw [h]
  rfl

theorem raw_21 {w lit : Word32} (h : majorOf w = 0x21) : rawDecode w lit = decodeMajor21 w := by
  unfold rawDecode
  rw [h]
  rfl

theorem raw_22 {w lit : Word32} (h : majorOf w = 0x22) : rawDecode w lit = decodeMajor22 w := by
  unfold rawDecode
  rw [h]
  rfl

theorem raw_23 {w lit : Word32} (h : majorOf w = 0x23) : rawDecode w lit = decodeMajor23 w := by
  unfold rawDecode
  rw [h]
  rfl

theorem raw_24 {w lit : Word32} (h : majorOf w = 0x24) : rawDecode w lit = decodeMajor24 w := by
  unfold rawDecode
  rw [h]
  rfl

theorem raw_25 {w lit : Word32} (h : majorOf w = 0x25) : rawDecode w lit = decodeMajor25 w := by
  unfold rawDecode
  rw [h]
  rfl

theorem raw_26 {w lit : Word32} (h : majorOf w = 0x26) : rawDecode w lit = decodeMajor26 w := by
  unfold rawDecode
  rw [h]
  rfl

theorem raw_27 {w lit : Word32} (h : majorOf w = 0x27) : rawDecode w lit = decodeMajor27 w := by
  unfold rawDecode
  rw [h]
  rfl

theorem raw_28 {w lit : Word32} (h : majorOf w = 0x28) : rawDecode w lit = decodeMajor28 w := by
  unfold rawDecode
  rw [h]
  rfl

theorem raw_30 {w lit : Word32} (h : majorOf w = 0x30) : rawDecode w lit = some (.vadd (bitsOf w 19 6) (bitsOf w 13 6) (bitsOf w 7 6) (bitsOf w 4 3) (bitsOf w 0 4)) := by
  unfold rawDecode
  rw [h]
  rfl

theorem raw_31 {w lit : Word32} (h : majorOf w = 0x31) : rawDecode w lit = some (.vsub (bitsOf w 19 6) (bitsOf w 13 6) (bitsOf w 7 6) (bitsOf w 4 3) (bitsOf w 0 4)) := by
  unfold rawDecode
  rw [h]
  rfl

theorem raw_32 {w lit : Word32} (h : majorOf w = 0x32) : rawDecode w lit = some (.vmul (bitsOf w 19 6) (bitsOf w 13 6) (bitsOf w 7 6) (bitsOf w 4 3) (bitsOf w 0 4)) := by
  unfold rawDecode
  rw [h]
  rfl

theorem raw_33 {w lit : Word32} (h : majorOf w = 0x33) : rawDecode w lit = some (.vfma (bitsOf w 19 6) (bitsOf w 13 6) (bitsOf w 7 6) (bitsOf w 4 3) (bitsOf w 0 4)) := by
  unfold rawDecode
  rw [h]
  rfl

theorem raw_34 {w lit : Word32} (h : majorOf w = 0x34) : rawDecode w lit = some (.vfms (bitsOf w 19 6) (bitsOf w 13 6) (bitsOf w 7 6) (bitsOf w 4 3) (bitsOf w 0 4)) := by
  unfold rawDecode
  rw [h]
  rfl

theorem raw_35 {w lit : Word32} (h : majorOf w = 0x35) : rawDecode w lit = some (.vfnma (bitsOf w 19 6) (bitsOf w 13 6) (bitsOf w 7 6) (bitsOf w 4 3) (bitsOf w 0 4)) := by
  unfold rawDecode
  rw [h]
  rfl

theorem raw_36 {w lit : Word32} (h : majorOf w = 0x36) : rawDecode w lit = some (.vmin (bitsOf w 19 6) (bitsOf w 13 6) (bitsOf w 7 6) (bitsOf w 4 3) (bitsOf w 0 4)) := by
  unfold rawDecode
  rw [h]
  rfl

theorem raw_37 {w lit : Word32} (h : majorOf w = 0x37) : rawDecode w lit = some (.vmax (bitsOf w 19 6) (bitsOf w 13 6) (bitsOf w 7 6) (bitsOf w 4 3) (bitsOf w 0 4)) := by
  unfold rawDecode
  rw [h]
  rfl

theorem raw_38 {w lit : Word32} (h : majorOf w = 0x38) : rawDecode w lit = some (.vdiv (bitsOf w 19 6) (bitsOf w 13 6) (bitsOf w 7 6) (bitsOf w 4 3) (bitsOf w 0 4)) := by
  unfold rawDecode
  rw [h]
  rfl

theorem raw_39 {w lit : Word32} (h : majorOf w = 0x39) : rawDecode w lit = some (.vand (bitsOf w 19 6) (bitsOf w 13 6) (bitsOf w 7 6) (bitsOf w 4 3) (bitsOf w 0 4)) := by
  unfold rawDecode
  rw [h]
  rfl

theorem raw_3A {w lit : Word32} (h : majorOf w = 0x3A) : rawDecode w lit = some (.vor (bitsOf w 19 6) (bitsOf w 13 6) (bitsOf w 7 6) (bitsOf w 4 3) (bitsOf w 0 4)) := by
  unfold rawDecode
  rw [h]
  rfl

theorem raw_3B {w lit : Word32} (h : majorOf w = 0x3B) : rawDecode w lit = some (.vxor (bitsOf w 19 6) (bitsOf w 13 6) (bitsOf w 7 6) (bitsOf w 4 3) (bitsOf w 0 4)) := by
  unfold rawDecode
  rw [h]
  rfl

theorem raw_3C {w lit : Word32} (h : majorOf w = 0x3C) : rawDecode w lit = some (.vsll (bitsOf w 19 6) (bitsOf w 13 6) (bitsOf w 7 6) (bitsOf w 4 3) (bitsOf w 0 4)) := by
  unfold rawDecode
  rw [h]
  rfl

theorem raw_3D {w lit : Word32} (h : majorOf w = 0x3D) : rawDecode w lit = some (.vsrl (bitsOf w 19 6) (bitsOf w 13 6) (bitsOf w 7 6) (bitsOf w 4 3) (bitsOf w 0 4)) := by
  unfold rawDecode
  rw [h]
  rfl

theorem raw_3E {w lit : Word32} (h : majorOf w = 0x3E) : rawDecode w lit = some (.vsra (bitsOf w 19 6) (bitsOf w 13 6) (bitsOf w 7 6) (bitsOf w 4 3) (bitsOf w 0 4)) := by
  unfold rawDecode
  rw [h]
  rfl

theorem raw_3F {w lit : Word32} (h : majorOf w = 0x3F) : rawDecode w lit = some (.vadds (bitsOf w 19 6) (bitsOf w 13 6) (bitsOf w 7 6) (bitsOf w 4 3) (bitsOf w 0 4)) := by
  unfold rawDecode
  rw [h]
  rfl

theorem raw_40 {w lit : Word32} (h : majorOf w = 0x40) : rawDecode w lit = some (.vsubs (bitsOf w 19 6) (bitsOf w 13 6) (bitsOf w 7 6) (bitsOf w 4 3) (bitsOf w 0 4)) := by
  unfold rawDecode
  rw [h]
  rfl

theorem raw_41 {w lit : Word32} (h : majorOf w = 0x41) : rawDecode w lit = some (.vmulh (bitsOf w 19 6) (bitsOf w 13 6) (bitsOf w 7 6) (bitsOf w 4 3) (bitsOf w 0 4)) := by
  unfold rawDecode
  rw [h]
  rfl

theorem raw_42 {w lit : Word32} (h : majorOf w = 0x42) : rawDecode w lit = some (.vabsd (bitsOf w 19 6) (bitsOf w 13 6) (bitsOf w 7 6) (bitsOf w 4 3) (bitsOf w 0 4)) := by
  unfold rawDecode
  rw [h]
  rfl

theorem raw_43 {w lit : Word32} (h : majorOf w = 0x43) : rawDecode w lit = some (.vavg (bitsOf w 19 6) (bitsOf w 13 6) (bitsOf w 7 6) (bitsOf w 4 3) (bitsOf w 0 4)) := by
  unfold rawDecode
  rw [h]
  rfl

theorem raw_44 {w lit : Word32} (h : majorOf w = 0x44) : rawDecode w lit = some (.vcmpeq (bitsOf w 19 6) (bitsOf w 13 6) (bitsOf w 7 6) (bitsOf w 4 3) (bitsOf w 0 4)) := by
  unfold rawDecode
  rw [h]
  rfl

theorem raw_45 {w lit : Word32} (h : majorOf w = 0x45) : rawDecode w lit = some (.vcmplt (bitsOf w 19 6) (bitsOf w 13 6) (bitsOf w 7 6) (bitsOf w 4 3) (bitsOf w 0 4)) := by
  unfold rawDecode
  rw [h]
  rfl

theorem raw_46 {w lit : Word32} (h : majorOf w = 0x46) : rawDecode w lit = some (.vcmple (bitsOf w 19 6) (bitsOf w 13 6) (bitsOf w 7 6) (bitsOf w 4 3) (bitsOf w 0 4)) := by
  unfold rawDecode
  rw [h]
  rfl

theorem raw_47 {w lit : Word32} (h : majorOf w = 0x47) : rawDecode w lit = some (.vcmpne (bitsOf w 19 6) (bitsOf w 13 6) (bitsOf w 7 6) (bitsOf w 4 3) (bitsOf w 0 4)) := by
  unfold rawDecode
  rw [h]
  rfl

theorem raw_48 {w lit : Word32} (h : majorOf w = 0x48) : rawDecode w lit = some (.vsel (bitsOf w 19 6) (bitsOf w 13 6) (bitsOf w 7 6) (bitsOf w 4 3) (bitsOf w 0 4)) := by
  unfold rawDecode
  rw [h]
  rfl

theorem raw_49 {w lit : Word32} (h : majorOf w = 0x49) : rawDecode w lit = some (.vperm (bitsOf w 19 6) (bitsOf w 13 6) (bitsOf w 7 6) (bitsOf w 4 3) (bitsOf w 0 4)) := by
  unfold rawDecode
  rw [h]
  rfl

theorem raw_4A {w lit : Word32} (h : majorOf w = 0x4A) : rawDecode w lit = decodeMajor4A w := by
  unfold rawDecode
  rw [h]
  rfl

theorem raw_4B {w lit : Word32} (h : majorOf w = 0x4B) : rawDecode w lit = some (.vslide (bitsOf w 19 6) (bitsOf w 13 6) (bitsOf w 7 6) (bitsOf w 5 1) (bitsOf w 4 1) (bitsOf w 0 4)) := by
  unfold rawDecode
  rw [h]
  rfl

theorem raw_4C {w lit : Word32} (h : majorOf w = 0x4C) : rawDecode w lit = decodeMajor4C w := by
  unfold rawDecode
  rw [h]
  rfl

theorem raw_4D {w lit : Word32} (h : majorOf w = 0x4D) : rawDecode w lit = some (.vcvt (bitsOf w 19 6) (bitsOf w 13 6) (bitsOf w 11 1) (bitsOf w 7 4) (bitsOf w 4 3) (bitsOf w 0 4)) := by
  unfold rawDecode
  rw [h]
  rfl

theorem raw_4E {w lit : Word32} (h : majorOf w = 0x4E) : rawDecode w lit = decodeMajor4E w := by
  unfold rawDecode
  rw [h]
  rfl

theorem raw_4F {w lit : Word32} (h : majorOf w = 0x4F) : rawDecode w lit = decodeMajor4F w := by
  unfold rawDecode
  rw [h]
  rfl

theorem raw_50 {w lit : Word32} (h : majorOf w = 0x50) : rawDecode w lit = some (.vsplat (bitsOf w 19 6) (bitsOf w 13 6) (bitsOf w 4 3) (bitsOf w 0 4)) := by
  unfold rawDecode
  rw [h]
  rfl

theorem raw_51 {w lit : Word32} (h : majorOf w = 0x51) : rawDecode w lit = decodeMajor51 w := by
  unfold rawDecode
  rw [h]
  rfl

theorem raw_54 {w lit : Word32} (h : majorOf w = 0x54) : rawDecode w lit = decodeMajor54 w := by
  unfold rawDecode
  rw [h]
  rfl

theorem raw_55 {w lit : Word32} (h : majorOf w = 0x55) : rawDecode w lit = decodeMajor55 w := by
  unfold rawDecode
  rw [h]
  rfl

theorem raw_56 {w lit : Word32} (h : majorOf w = 0x56) : rawDecode w lit = decodeMajor56 w := by
  unfold rawDecode
  rw [h]
  rfl

theorem raw_57 {w lit : Word32} (h : majorOf w = 0x57) : rawDecode w lit = decodeMajor57 w := by
  unfold rawDecode
  rw [h]
  rfl

theorem raw_58 {w lit : Word32} (h : majorOf w = 0x58) : rawDecode w lit = decodeMajor58 w lit := by
  unfold rawDecode
  rw [h]
  rfl

theorem raw_59 {w lit : Word32} (h : majorOf w = 0x59) : rawDecode w lit = decodeMajor59 w := by
  unfold rawDecode
  rw [h]
  rfl

theorem raw_5A {w lit : Word32} (h : majorOf w = 0x5A) : rawDecode w lit = decodeMajor5A w := by
  unfold rawDecode
  rw [h]
  rfl

theorem raw_60 {w lit : Word32} (h : majorOf w = 0x60) : rawDecode w lit = decodeMajor60 w := by
  unfold rawDecode
  rw [h]
  rfl

theorem raw_61 {w lit : Word32} (h : majorOf w = 0x61) : rawDecode w lit = decodeMajor61 w := by
  unfold rawDecode
  rw [h]
  rfl

theorem raw_62 {w lit : Word32} (h : majorOf w = 0x62) : rawDecode w lit = decodeMajor62 w := by
  unfold rawDecode
  rw [h]
  rfl

theorem raw_63 {w lit : Word32} (h : majorOf w = 0x63) : rawDecode w lit = decodeMajor63 w := by
  unfold rawDecode
  rw [h]
  rfl

theorem raw_64 {w lit : Word32} (h : majorOf w = 0x64) : rawDecode w lit = decodeMajor64 w := by
  unfold rawDecode
  rw [h]
  rfl

theorem raw_65 {w lit : Word32} (h : majorOf w = 0x65) : rawDecode w lit = decodeMajor65 w := by
  unfold rawDecode
  rw [h]
  rfl

theorem raw_66 {w lit : Word32} (h : majorOf w = 0x66) : rawDecode w lit = decodeMajor66 w := by
  unfold rawDecode
  rw [h]
  rfl

theorem raw_67 {w lit : Word32} (h : majorOf w = 0x67) : rawDecode w lit = decodeMajor67 w := by
  unfold rawDecode
  rw [h]
  rfl

theorem raw_68 {w lit : Word32} (h : majorOf w = 0x68) : rawDecode w lit = decodeMajor68 w := by
  unfold rawDecode
  rw [h]
  rfl

theorem raw_70 {w lit : Word32} (h : majorOf w = 0x70) : rawDecode w lit = decodeMajor70 w := by
  unfold rawDecode
  rw [h]
  rfl

theorem raw_71 {w lit : Word32} (h : majorOf w = 0x71) : rawDecode w lit = decodeMajor71 w := by
  unfold rawDecode
  rw [h]
  rfl

theorem raw_72 {w lit : Word32} (h : majorOf w = 0x72) : rawDecode w lit = decodeMajor72 w := by
  unfold rawDecode
  rw [h]
  rfl

theorem raw_73 {w lit : Word32} (h : majorOf w = 0x73) : rawDecode w lit = decodeMajor73 w := by
  unfold rawDecode
  rw [h]
  rfl

theorem raw_74 {w lit : Word32} (h : majorOf w = 0x74) : rawDecode w lit = decodeMajor74 w := by
  unfold rawDecode
  rw [h]
  rfl

theorem raw_78 {w lit : Word32} (h : majorOf w = 0x78) : rawDecode w lit = some (.hint (bitsOf w 0 27)) := by
  unfold rawDecode
  rw [h]
  rfl

theorem raw_79 {w lit : Word32} (h : majorOf w = 0x79) : rawDecode w lit = some (.hint (bitsOf w 0 27)) := by
  unfold rawDecode
  rw [h]
  rfl

theorem raw_7A {w lit : Word32} (h : majorOf w = 0x7A) : rawDecode w lit = some (.hint (bitsOf w 0 27)) := by
  unfold rawDecode
  rw [h]
  rfl

theorem raw_7B {w lit : Word32} (h : majorOf w = 0x7B) : rawDecode w lit = some (.hint (bitsOf w 0 27)) := by
  unfold rawDecode
  rw [h]
  rfl

theorem raw_7C {w lit : Word32} (h : majorOf w = 0x7C) : rawDecode w lit = some (.emulMajor7c (bitsOf w 0 25)) := by
  unfold rawDecode
  rw [h]
  rfl

theorem raw_7D {w lit : Word32} (h : majorOf w = 0x7D) : rawDecode w lit = some (.emulMajor7d (bitsOf w 0 25)) := by
  unfold rawDecode
  rw [h]
  rfl

theorem raw_7E {w lit : Word32} (h : majorOf w = 0x7E) : rawDecode w lit = some (.emulMajor7e (bitsOf w 0 25)) := by
  unfold rawDecode
  rw [h]
  rfl

theorem decodeCvt15_row {w lit : Word32} (h : majorOf w = 0x15) (h' : bitsAt w 0 4 = 11) : rawDecode w lit = decodeCvt15 w := by
  rw [raw_15 h]
  unfold decodeMajor15
  generalize decodeCvt15 w = z
  rw [h']
  rfl

theorem decodeCvt16_row {w lit : Word32} (h : majorOf w = 0x16) (h' : bitsAt w 0 4 = 11) : rawDecode w lit = decodeCvt16 w := by
  rw [raw_16 h]
  unfold decodeMajor16
  generalize decodeCvt16 w = z
  rw [h']
  rfl

/-- An undefined major has no row of its own. -/
theorem raw_undefined {w lit : Word32} (h : majorUndefined (majorOf w) = true) : rawDecode w lit = some (.undefinedMajor w) := by
  unfold rawDecode
  have hb : majorOf w < 128 := by
    have := w.isLt
    unfold majorOf
    omega
  generalize majorOf w = m at *
  have hm : m = 0 ∨ (0x29 ≤ m ∧ m ≤ 0x2F) ∨ m = 0x52 ∨ m = 0x53 ∨ (0x5B ≤ m ∧ m ≤ 0x5F) ∨ (0x69 ≤ m ∧ m ≤ 0x6F) ∨
      (0x75 ≤ m ∧ m ≤ 0x77) ∨ m = 0x7F := by
    simpa [majorUndefined, or_assoc] using h
  clear h hb
  rcases hm with h | ⟨h, h'⟩ | h | h | ⟨h, h'⟩ | ⟨h, h'⟩ | ⟨h, h'⟩ | h <;> first | (subst h; rfl) | (interval_cases m <;> rfl)

/-! ## The fields of each encoder format -/

theorem fields_DABG_0 (base : Nat) (d : BitVec 6) (a : BitVec 6) (b : BitVec 6) (g : BitVec 3) (maj k0 : Nat)
    (hb : base = maj * 2 ^ 25 + k0 * 2 ^ 0) (hm : maj < 128) (hk0 : k0 < 2 ^ 4) :
    let w : Word32 := BitVec.ofNat 32 (encDABG base d a b g)
    majorOf w = maj ∧ bitsAt w 0 4 = k0 ∧ bitsOf w 19 6 = d ∧ bitsOf w 13 6 = a ∧ bitsOf w 7 6 = b ∧ bitsOf w 4 3 = g := by
  intro w
  have := d.isLt; have := a.isLt; have := b.isLt; have := g.isLt
  have hw : w.toNat = encDABG base d a b g := by
    simp only [w, encDABG, BitVec.toNat_ofNat]
    omega
  simp only [encDABG] at hw
  subst hb
  refine ⟨?_, ?_, ofNat_bits _ ?_, ofNat_bits _ ?_, ofNat_bits _ ?_, ofNat_bits _ ?_⟩ <;> simp only [majorOf, bitsAt, hw] <;> omega

theorem fields_DAI (base : Nat) (d : BitVec 6) (a : BitVec 6) (i : BitVec 13) (maj : Nat)
    (hb : base = maj * 2 ^ 25) (hm : maj < 128) :
    let w : Word32 := BitVec.ofNat 32 (encDAI base d a i)
    majorOf w = maj ∧ bitsOf w 19 6 = d ∧ bitsOf w 13 6 = a ∧ bitsOf w 0 13 = i := by
  intro w
  have := d.isLt; have := a.isLt; have := i.isLt
  have hw : w.toNat = encDAI base d a i := by
    simp only [w, encDAI, BitVec.toNat_ofNat]
    omega
  simp only [encDAI] at hw
  subst hb
  refine ⟨?_, ofNat_bits _ ?_, ofNat_bits _ ?_, ofNat_bits _ ?_⟩ <;> simp only [majorOf, hw] <;> omega

theorem fields_DAS_11 (base : Nat) (d : BitVec 6) (a : BitVec 6) (s : BitVec 6) (maj k0 : Nat)
    (hb : base = maj * 2 ^ 25 + k0 * 2 ^ 11) (hm : maj < 128) (hk0 : k0 < 2 ^ 2) :
    let w : Word32 := BitVec.ofNat 32 (encDAS base d a s)
    majorOf w = maj ∧ bitsAt w 11 2 = k0 ∧ bitsOf w 19 6 = d ∧ bitsOf w 13 6 = a ∧ bitsOf w 0 6 = s := by
  intro w
  have := d.isLt; have := a.isLt; have := s.isLt
  have hw : w.toNat = encDAS base d a s := by
    simp only [w, encDAS, BitVec.toNat_ofNat]
    omega
  simp only [encDAS] at hw
  subst hb
  refine ⟨?_, ?_, ofNat_bits _ ?_, ofNat_bits _ ?_, ofNat_bits _ ?_⟩ <;> simp only [majorOf, bitsAt, hw] <;> omega

theorem fields_DI (base : Nat) (d : BitVec 6) (i : BitVec 19) (maj : Nat)
    (hb : base = maj * 2 ^ 25) (hm : maj < 128) :
    let w : Word32 := BitVec.ofNat 32 (encDI base d i)
    majorOf w = maj ∧ bitsOf w 19 6 = d ∧ bitsOf w 0 19 = i := by
  intro w
  have := d.isLt; have := i.isLt
  have hw : w.toNat = encDI base d i := by
    simp only [w, encDI, BitVec.toNat_ofNat]
    omega
  simp only [encDI] at hw
  subst hb
  refine ⟨?_, ofNat_bits _ ?_, ofNat_bits _ ?_⟩ <;> simp only [majorOf, hw] <;> omega

theorem fields_DG_0 (base : Nat) (d : BitVec 6) (g : BitVec 3) (maj k0 : Nat)
    (hb : base = maj * 2 ^ 25 + k0 * 2 ^ 0) (hm : maj < 128) (hk0 : k0 < 2 ^ 4) :
    let w : Word32 := BitVec.ofNat 32 (encDG base d g)
    majorOf w = maj ∧ bitsAt w 0 4 = k0 ∧ bitsOf w 19 6 = d ∧ bitsOf w 4 3 = g := by
  intro w
  have := d.isLt; have := g.isLt
  have hw : w.toNat = encDG base d g := by
    simp only [w, encDG, BitVec.toNat_ofNat]
    omega
  simp only [encDG] at hw
  subst hb
  refine ⟨?_, ?_, ofNat_bits _ ?_, ofNat_bits _ ?_⟩ <;> simp only [majorOf, bitsAt, hw] <;> omega

theorem fields_AG_0 (base : Nat) (a : BitVec 6) (g : BitVec 3) (maj k0 : Nat)
    (hb : base = maj * 2 ^ 25 + k0 * 2 ^ 0) (hm : maj < 128) (hk0 : k0 < 2 ^ 4) :
    let w : Word32 := BitVec.ofNat 32 (encAG base a g)
    majorOf w = maj ∧ bitsAt w 0 4 = k0 ∧ bitsOf w 13 6 = a ∧ bitsOf w 4 3 = g := by
  intro w
  have := a.isLt; have := g.isLt
  have hw : w.toNat = encAG base a g := by
    simp only [w, encAG, BitVec.toNat_ofNat]
    omega
  simp only [encAG] at hw
  subst hb
  refine ⟨?_, ?_, ofNat_bits _ ?_, ofNat_bits _ ?_⟩ <;> simp only [majorOf, bitsAt, hw] <;> omega

theorem fields_FAI_22 (base : Nat) (f : BitVec 3) (a : BitVec 6) (i : BitVec 13) (maj k0 : Nat)
    (hb : base = maj * 2 ^ 25 + k0 * 2 ^ 22) (hm : maj < 128) (hk0 : k0 < 2 ^ 3) :
    let w : Word32 := BitVec.ofNat 32 (encFAI base f a i)
    majorOf w = maj ∧ bitsAt w 22 3 = k0 ∧ bitsOf w 19 3 = f ∧ bitsOf w 13 6 = a ∧ bitsOf w 0 13 = i := by
  intro w
  have := f.isLt; have := a.isLt; have := i.isLt
  have hw : w.toNat = encFAI base f a i := by
    simp only [w, encFAI, BitVec.toNat_ofNat]
    omega
  simp only [encFAI] at hw
  subst hb
  refine ⟨?_, ?_, ofNat_bits _ ?_, ofNat_bits _ ?_, ofNat_bits _ ?_⟩ <;> simp only [majorOf, bitsAt, hw] <;> omega

theorem fields_FO (base : Nat) (f : BitVec 3) (o : BitVec 22) (maj : Nat)
    (hb : base = maj * 2 ^ 25) (hm : maj < 128) :
    let w : Word32 := BitVec.ofNat 32 (encFO base f o)
    majorOf w = maj ∧ bitsOf w 22 3 = f ∧ bitsOf w 0 22 = o := by
  intro w
  have := f.isLt; have := o.isLt
  have hw : w.toNat = encFO base f o := by
    simp only [w, encFO, BitVec.toNat_ofNat]
    omega
  simp only [encFO] at hw
  subst hb
  refine ⟨?_, ofNat_bits _ ?_, ofNat_bits _ ?_⟩ <;> simp only [majorOf, hw] <;> omega

theorem fields_DAG_0 (base : Nat) (d : BitVec 6) (a : BitVec 6) (g : BitVec 3) (maj k0 : Nat)
    (hb : base = maj * 2 ^ 25 + k0 * 2 ^ 0) (hm : maj < 128) (hk0 : k0 < 2 ^ 4) :
    let w : Word32 := BitVec.ofNat 32 (encDAG base d a g)
    majorOf w = maj ∧ bitsAt w 0 4 = k0 ∧ bitsOf w 19 6 = d ∧ bitsOf w 13 6 = a ∧ bitsOf w 4 3 = g := by
  intro w
  have := d.isLt; have := a.isLt; have := g.isLt
  have hw : w.toNat = encDAG base d a g := by
    simp only [w, encDAG, BitVec.toNat_ofNat]
    omega
  simp only [encDAG] at hw
  subst hb
  refine ⟨?_, ?_, ofNat_bits _ ?_, ofNat_bits _ ?_, ofNat_bits _ ?_⟩ <;> simp only [majorOf, bitsAt, hw] <;> omega

theorem fields_NFS (base : Nat) (n : BitVec 8) (f : BitVec 4) (s : BitVec 4) (maj : Nat)
    (hb : base = maj * 2 ^ 25) (hm : maj < 128) :
    let w : Word32 := BitVec.ofNat 32 (encNFS base n f s)
    majorOf w = maj ∧ bitsOf w 17 8 = n ∧ bitsOf w 13 4 = f ∧ bitsOf w 9 4 = s := by
  intro w
  have := n.isLt; have := f.isLt; have := s.isLt
  have hw : w.toNat = encNFS base n f s := by
    simp only [w, encNFS, BitVec.toNat_ofNat]
    omega
  simp only [encNFS] at hw
  subst hb
  refine ⟨?_, ofNat_bits _ ?_, ofNat_bits _ ?_, ofNat_bits _ ?_⟩ <;> simp only [majorOf, hw] <;> omega

theorem fields_NG_0 (base : Nat) (n : BitVec 6) (g : BitVec 3) (maj k0 : Nat)
    (hb : base = maj * 2 ^ 25 + k0 * 2 ^ 0) (hm : maj < 128) (hk0 : k0 < 2 ^ 4) :
    let w : Word32 := BitVec.ofNat 32 (encNG base n g)
    majorOf w = maj ∧ bitsAt w 0 4 = k0 ∧ bitsOf w 13 6 = n ∧ bitsOf w 4 3 = g := by
  intro w
  have := n.isLt; have := g.isLt
  have hw : w.toNat = encNG base n g := by
    simp only [w, encNG, BitVec.toNat_ofNat]
    omega
  simp only [encNG] at hw
  subst hb
  refine ⟨?_, ?_, ofNat_bits _ ?_, ofNat_bits _ ?_⟩ <;> simp only [majorOf, bitsAt, hw] <;> omega

theorem fields_DNG_0 (base : Nat) (d : BitVec 6) (n : BitVec 6) (g : BitVec 3) (maj k0 : Nat)
    (hb : base = maj * 2 ^ 25 + k0 * 2 ^ 0) (hm : maj < 128) (hk0 : k0 < 2 ^ 4) :
    let w : Word32 := BitVec.ofNat 32 (encDNG base d n g)
    majorOf w = maj ∧ bitsAt w 0 4 = k0 ∧ bitsOf w 19 6 = d ∧ bitsOf w 13 6 = n ∧ bitsOf w 4 3 = g := by
  intro w
  have := d.isLt; have := n.isLt; have := g.isLt
  have hw : w.toNat = encDNG base d n g := by
    simp only [w, encDNG, BitVec.toNat_ofNat]
    omega
  simp only [encDNG] at hw
  subst hb
  refine ⟨?_, ?_, ofNat_bits _ ?_, ofNat_bits _ ?_, ofNat_bits _ ?_⟩ <;> simp only [majorOf, bitsAt, hw] <;> omega

theorem fields_PG_0 (base : Nat) (p : BitVec 6) (g : BitVec 3) (maj k0 : Nat)
    (hb : base = maj * 2 ^ 25 + k0 * 2 ^ 0) (hm : maj < 128) (hk0 : k0 < 2 ^ 4) :
    let w : Word32 := BitVec.ofNat 32 (encPG base p g)
    majorOf w = maj ∧ bitsAt w 0 4 = k0 ∧ bitsOf w 13 6 = p ∧ bitsOf w 4 3 = g := by
  intro w
  have := p.isLt; have := g.isLt
  have hw : w.toNat = encPG base p g := by
    simp only [w, encPG, BitVec.toNat_ofNat]
    omega
  simp only [encPG] at hw
  subst hb
  refine ⟨?_, ?_, ofNat_bits _ ?_, ofNat_bits _ ?_⟩ <;> simp only [majorOf, bitsAt, hw] <;> omega

theorem fields_DPG_0 (base : Nat) (d : BitVec 6) (p : BitVec 6) (g : BitVec 3) (maj k0 : Nat)
    (hb : base = maj * 2 ^ 25 + k0 * 2 ^ 0) (hm : maj < 128) (hk0 : k0 < 2 ^ 4) :
    let w : Word32 := BitVec.ofNat 32 (encDPG base d p g)
    majorOf w = maj ∧ bitsAt w 0 4 = k0 ∧ bitsOf w 19 6 = d ∧ bitsOf w 13 6 = p ∧ bitsOf w 4 3 = g := by
  intro w
  have := d.isLt; have := p.isLt; have := g.isLt
  have hw : w.toNat = encDPG base d p g := by
    simp only [w, encDPG, BitVec.toNat_ofNat]
    omega
  simp only [encDPG] at hw
  subst hb
  refine ⟨?_, ?_, ofNat_bits _ ?_, ofNat_bits _ ?_, ofNat_bits _ ?_⟩ <;> simp only [majorOf, bitsAt, hw] <;> omega

theorem fields_ABG_0 (base : Nat) (a : BitVec 6) (b : BitVec 6) (g : BitVec 3) (maj k0 : Nat)
    (hb : base = maj * 2 ^ 25 + k0 * 2 ^ 0) (hm : maj < 128) (hk0 : k0 < 2 ^ 4) :
    let w : Word32 := BitVec.ofNat 32 (encABG base a b g)
    majorOf w = maj ∧ bitsAt w 0 4 = k0 ∧ bitsOf w 13 6 = a ∧ bitsOf w 7 6 = b ∧ bitsOf w 4 3 = g := by
  intro w
  have := a.isLt; have := b.isLt; have := g.isLt
  have hw : w.toNat = encABG base a b g := by
    simp only [w, encABG, BitVec.toNat_ofNat]
    omega
  simp only [encABG] at hw
  subst hb
  refine ⟨?_, ?_, ofNat_bits _ ?_, ofNat_bits _ ?_, ofNat_bits _ ?_⟩ <;> simp only [majorOf, bitsAt, hw] <;> omega

theorem fields_DFG_0 (base : Nat) (d : BitVec 6) (f : BitVec 6) (g : BitVec 3) (maj k0 : Nat)
    (hb : base = maj * 2 ^ 25 + k0 * 2 ^ 0) (hm : maj < 128) (hk0 : k0 < 2 ^ 4) :
    let w : Word32 := BitVec.ofNat 32 (encDFG base d f g)
    majorOf w = maj ∧ bitsAt w 0 4 = k0 ∧ bitsOf w 19 6 = d ∧ bitsOf w 13 6 = f ∧ bitsOf w 4 3 = g := by
  intro w
  have := d.isLt; have := f.isLt; have := g.isLt
  have hw : w.toNat = encDFG base d f g := by
    simp only [w, encDFG, BitVec.toNat_ofNat]
    omega
  simp only [encDFG] at hw
  subst hb
  refine ⟨?_, ?_, ofNat_bits _ ?_, ofNat_bits _ ?_, ofNat_bits _ ?_⟩ <;> simp only [majorOf, bitsAt, hw] <;> omega

theorem fields_RG_0 (base : Nat) (r : BitVec 6) (g : BitVec 3) (maj k0 : Nat)
    (hb : base = maj * 2 ^ 25 + k0 * 2 ^ 0) (hm : maj < 128) (hk0 : k0 < 2 ^ 4) :
    let w : Word32 := BitVec.ofNat 32 (encRG base r g)
    majorOf w = maj ∧ bitsAt w 0 4 = k0 ∧ bitsOf w 13 6 = r ∧ bitsOf w 4 3 = g := by
  intro w
  have := r.isLt; have := g.isLt
  have hw : w.toNat = encRG base r g := by
    simp only [w, encRG, BitVec.toNat_ofNat]
    omega
  simp only [encRG] at hw
  subst hb
  refine ⟨?_, ?_, ofNat_bits _ ?_, ofNat_bits _ ?_⟩ <;> simp only [majorOf, bitsAt, hw] <;> omega

theorem fields_DAMG_0_10 (base : Nat) (d : BitVec 6) (a : BitVec 6) (m : BitVec 3) (g : BitVec 3) (maj k0 k1 : Nat)
    (hb : base = maj * 2 ^ 25 + k0 * 2 ^ 0 + k1 * 2 ^ 10) (hm : maj < 128) (hk0 : k0 < 2 ^ 4) (hk1 : k1 < 2 ^ 3) :
    let w : Word32 := BitVec.ofNat 32 (encDAMG base d a m g)
    majorOf w = maj ∧ bitsAt w 0 4 = k0 ∧ bitsAt w 10 3 = k1 ∧ bitsOf w 19 6 = d ∧ bitsOf w 13 6 = a ∧ bitsOf w 7 3 = m ∧ bitsOf w 4 3 = g := by
  intro w
  have := d.isLt; have := a.isLt; have := m.isLt; have := g.isLt
  have hw : w.toNat = encDAMG base d a m g := by
    simp only [w, encDAMG, BitVec.toNat_ofNat]
    omega
  simp only [encDAMG] at hw
  subst hb
  refine ⟨?_, ?_, ?_, ofNat_bits _ ?_, ofNat_bits _ ?_, ofNat_bits _ ?_, ofNat_bits _ ?_⟩ <;> simp only [majorOf, bitsAt, hw] <;> omega

theorem fields_O (base : Nat) (o : BitVec 22) (maj : Nat)
    (hb : base = maj * 2 ^ 25) (hm : maj < 128) :
    let w : Word32 := BitVec.ofNat 32 (encO base o)
    majorOf w = maj ∧ bitsOf w 0 22 = o := by
  intro w
  have := o.isLt
  have hw : w.toNat = encO base o := by
    simp only [w, encO, BitVec.toNat_ofNat]
    omega
  simp only [encO] at hw
  subst hb
  refine ⟨?_, ofNat_bits _ ?_⟩ <;> simp only [majorOf, hw] <;> omega

theorem fields_st_0 (base maj k0 : Nat) (hb : base = maj * 2 ^ 25 + k0 * 2 ^ 0) (hm : maj < 128) (hk0 : k0 < 2 ^ 4) :
    let w : Word32 := BitVec.ofNat 32 base
    majorOf w = maj ∧ bitsAt w 0 4 = k0 := by
  intro w
  have hw : w.toNat = base := by
    simp only [w, BitVec.toNat_ofNat]
    omega
  subst hb
  refine ⟨?_, ?_⟩ <;> simp only [majorOf, bitsAt, hw] <;> omega

theorem fields_AB_0 (base : Nat) (a : BitVec 6) (b : BitVec 6) (maj k0 : Nat)
    (hb : base = maj * 2 ^ 25 + k0 * 2 ^ 0) (hm : maj < 128) (hk0 : k0 < 2 ^ 4) :
    let w : Word32 := BitVec.ofNat 32 (encAB base a b)
    majorOf w = maj ∧ bitsAt w 0 4 = k0 ∧ bitsOf w 13 6 = a ∧ bitsOf w 7 6 = b := by
  intro w
  have := a.isLt; have := b.isLt
  have hw : w.toNat = encAB base a b := by
    simp only [w, encAB, BitVec.toNat_ofNat]
    omega
  simp only [encAB] at hw
  subst hb
  refine ⟨?_, ?_, ofNat_bits _ ?_, ofNat_bits _ ?_⟩ <;> simp only [majorOf, bitsAt, hw] <;> omega

theorem fields_G_0 (base : Nat) (g : BitVec 3) (maj k0 : Nat)
    (hb : base = maj * 2 ^ 25 + k0 * 2 ^ 0) (hm : maj < 128) (hk0 : k0 < 2 ^ 4) :
    let w : Word32 := BitVec.ofNat 32 (encG base g)
    majorOf w = maj ∧ bitsAt w 0 4 = k0 ∧ bitsOf w 4 3 = g := by
  intro w
  have := g.isLt
  have hw : w.toNat = encG base g := by
    simp only [w, encG, BitVec.toNat_ofNat]
    omega
  simp only [encG] at hw
  subst hb
  refine ⟨?_, ?_, ofNat_bits _ ?_⟩ <;> simp only [majorOf, bitsAt, hw] <;> omega

theorem fields_XYTk_8 (base : Nat) (x : BitVec 6) (y : BitVec 6) (tk : Tk) (maj k0 : Nat)
    (hb : base = maj * 2 ^ 25 + k0 * 2 ^ 8) (hm : maj < 128) (hk0 : k0 < 2 ^ 5) :
    let w : Word32 := BitVec.ofNat 32 (encXYTk base x y tk)
    majorOf w = maj ∧ bitsAt w 8 5 = k0 ∧ bitsOf w 19 6 = x ∧ bitsOf w 13 6 = y ∧ tkOf w = tk := by
  intro w
  have := x.isLt; have := y.isLt; have := tk.hint.isLt; have := tk.tkin.isLt; have := tk.tkout.isLt
  have hw : w.toNat = encXYTk base x y tk := by
    simp only [w, encXYTk, placeTk, BitVec.toNat_ofNat]
    omega
  simp only [encXYTk, placeTk] at hw
  subst hb
  refine ⟨?_, ?_, ofNat_bits _ ?_, ofNat_bits _ ?_, tkOf_eq _ ?_ ?_ ?_⟩ <;> simp only [majorOf, bitsAt, hw] <;> omega

theorem fields_XTk_8 (base : Nat) (x : BitVec 6) (tk : Tk) (maj k0 : Nat)
    (hb : base = maj * 2 ^ 25 + k0 * 2 ^ 8) (hm : maj < 128) (hk0 : k0 < 2 ^ 5) :
    let w : Word32 := BitVec.ofNat 32 (encXTk base x tk)
    majorOf w = maj ∧ bitsAt w 8 5 = k0 ∧ bitsOf w 19 6 = x ∧ tkOf w = tk := by
  intro w
  have := x.isLt; have := tk.hint.isLt; have := tk.tkin.isLt; have := tk.tkout.isLt
  have hw : w.toNat = encXTk base x tk := by
    simp only [w, encXTk, placeTk, BitVec.toNat_ofNat]
    omega
  simp only [encXTk, placeTk] at hw
  subst hb
  refine ⟨?_, ?_, ofNat_bits _ ?_, tkOf_eq _ ?_ ?_ ?_⟩ <;> simp only [majorOf, bitsAt, hw] <;> omega

theorem fields_NO (base : Nat) (n : BitVec 3) (o : BitVec 22) (maj : Nat)
    (hb : base = maj * 2 ^ 25) (hm : maj < 128) :
    let w : Word32 := BitVec.ofNat 32 (encNO base n o)
    majorOf w = maj ∧ bitsOf w 22 3 = n ∧ bitsOf w 0 22 = o := by
  intro w
  have := n.isLt; have := o.isLt
  have hw : w.toNat = encNO base n o := by
    simp only [w, encNO, BitVec.toNat_ofNat]
    omega
  simp only [encNO] at hw
  subst hb
  refine ⟨?_, ofNat_bits _ ?_, ofNat_bits _ ?_⟩ <;> simp only [majorOf, hw] <;> omega

theorem fields_XYPMTk_8 (base : Nat) (x : BitVec 6) (y : BitVec 6) (p : BitVec 1) (m : BitVec 3) (tk : Tk) (maj k0 : Nat)
    (hb : base = maj * 2 ^ 25 + k0 * 2 ^ 8) (hm : maj < 128) (hk0 : k0 + 1 * 8 + 7 * 1 < 2 ^ 5) (hz0p : k0 / 2 ^ 3 % 2 ^ 1 = 0) (hz0m : k0 / 2 ^ 0 % 2 ^ 3 = 0) :
    let w : Word32 := BitVec.ofNat 32 (encXYPMTk base x y p m tk)
    majorOf w = maj ∧ bitsAt w 8 5 = k0 + p.toNat * 8 + m.toNat ∧ bitsOf w 19 6 = x ∧ bitsOf w 13 6 = y ∧ bitsOf w 11 1 = p ∧ bitsOf w 8 3 = m ∧ tkOf w = tk := by
  intro w
  have := x.isLt; have := y.isLt; have := p.isLt; have := m.isLt; have := tk.hint.isLt; have := tk.tkin.isLt; have := tk.tkout.isLt
  have hw : w.toNat = encXYPMTk base x y p m tk := by
    simp only [w, encXYPMTk, placeTk, BitVec.toNat_ofNat]
    omega
  simp only [encXYPMTk, placeTk] at hw
  subst hb
  refine ⟨?_, ?_, ofNat_bits _ ?_, ofNat_bits _ ?_, ofNat_bits _ ?_, ofNat_bits _ ?_, tkOf_eq _ ?_ ?_ ?_⟩ <;> simp only [majorOf, bitsAt, hw] <;> omega

theorem fields_XYECMTk_8 (base : Nat) (x : BitVec 6) (y : BitVec 6) (e : BitVec 1) (c : BitVec 1) (m : BitVec 3) (tk : Tk) (maj k0 : Nat)
    (hb : base = maj * 2 ^ 25 + k0 * 2 ^ 8) (hm : maj < 128) (hk0 : k0 + 1 * 16 + 1 * 8 + 7 * 1 < 2 ^ 5) (hz0e : k0 / 2 ^ 4 % 2 ^ 1 = 0) (hz0c : k0 / 2 ^ 3 % 2 ^ 1 = 0) (hz0m : k0 / 2 ^ 0 % 2 ^ 3 = 0) :
    let w : Word32 := BitVec.ofNat 32 (encXYECMTk base x y e c m tk)
    majorOf w = maj ∧ bitsAt w 8 5 = k0 + e.toNat * 16 + c.toNat * 8 + m.toNat ∧ bitsOf w 19 6 = x ∧ bitsOf w 13 6 = y ∧ bitsOf w 12 1 = e ∧ bitsOf w 11 1 = c ∧ bitsOf w 8 3 = m ∧ tkOf w = tk := by
  intro w
  have := x.isLt; have := y.isLt; have := e.isLt; have := c.isLt; have := m.isLt; have := tk.hint.isLt; have := tk.tkin.isLt; have := tk.tkout.isLt
  have hw : w.toNat = encXYECMTk base x y e c m tk := by
    simp only [w, encXYECMTk, placeTk, BitVec.toNat_ofNat]
    omega
  simp only [encXYECMTk, placeTk] at hw
  subst hb
  refine ⟨?_, ?_, ofNat_bits _ ?_, ofNat_bits _ ?_, ofNat_bits _ ?_, ofNat_bits _ ?_, ofNat_bits _ ?_, tkOf_eq _ ?_ ?_ ?_⟩ <;> simp only [majorOf, bitsAt, hw] <;> omega

theorem fields_Tk_8 (base : Nat) (tk : Tk) (maj k0 : Nat)
    (hb : base = maj * 2 ^ 25 + k0 * 2 ^ 8) (hm : maj < 128) (hk0 : k0 < 2 ^ 5) :
    let w : Word32 := BitVec.ofNat 32 (encTk base tk)
    majorOf w = maj ∧ bitsAt w 8 5 = k0 ∧ tkOf w = tk := by
  intro w
  have := tk.hint.isLt; have := tk.tkin.isLt; have := tk.tkout.isLt
  have hw : w.toNat = encTk base tk := by
    simp only [w, encTk, placeTk, BitVec.toNat_ofNat]
    omega
  simp only [encTk, placeTk] at hw
  subst hb
  refine ⟨?_, ?_, tkOf_eq _ ?_ ?_ ?_⟩ <;> simp only [majorOf, bitsAt, hw] <;> omega

theorem fields_YTk_8 (base : Nat) (y : BitVec 6) (tk : Tk) (maj k0 : Nat)
    (hb : base = maj * 2 ^ 25 + k0 * 2 ^ 8) (hm : maj < 128) (hk0 : k0 < 2 ^ 5) :
    let w : Word32 := BitVec.ofNat 32 (encYTk base y tk)
    majorOf w = maj ∧ bitsAt w 8 5 = k0 ∧ bitsOf w 13 6 = y ∧ tkOf w = tk := by
  intro w
  have := y.isLt; have := tk.hint.isLt; have := tk.tkin.isLt; have := tk.tkout.isLt
  have hw : w.toNat = encYTk base y tk := by
    simp only [w, encYTk, placeTk, BitVec.toNat_ofNat]
    omega
  simp only [encYTk, placeTk] at hw
  subst hb
  refine ⟨?_, ?_, ofNat_bits _ ?_, tkOf_eq _ ?_ ?_ ?_⟩ <;> simp only [majorOf, bitsAt, hw] <;> omega

theorem fields_DABMT (base : Nat) (d : BitVec 6) (a : BitVec 6) (b : BitVec 6) (m : BitVec 3) (t : BitVec 4) (maj : Nat)
    (hb : base = maj * 2 ^ 25) (hm : maj < 128) :
    let w : Word32 := BitVec.ofNat 32 (encDABMT base d a b m t)
    majorOf w = maj ∧ bitsOf w 19 6 = d ∧ bitsOf w 13 6 = a ∧ bitsOf w 7 6 = b ∧ bitsOf w 4 3 = m ∧ bitsOf w 0 4 = t := by
  intro w
  have := d.isLt; have := a.isLt; have := b.isLt; have := m.isLt; have := t.isLt
  have hw : w.toNat = encDABMT base d a b m t := by
    simp only [w, encDABMT, BitVec.toNat_ofNat]
    omega
  simp only [encDABMT] at hw
  subst hb
  refine ⟨?_, ofNat_bits _ ?_, ofNat_bits _ ?_, ofNat_bits _ ?_, ofNat_bits _ ?_, ofNat_bits _ ?_⟩ <;> simp only [majorOf, hw] <;> omega

theorem fields_DABT_4 (base : Nat) (d : BitVec 6) (a : BitVec 6) (b : BitVec 6) (t : BitVec 4) (maj k0 : Nat)
    (hb : base = maj * 2 ^ 25 + k0 * 2 ^ 4) (hm : maj < 128) (hk0 : k0 < 2 ^ 3) :
    let w : Word32 := BitVec.ofNat 32 (encDABT base d a b t)
    majorOf w = maj ∧ bitsAt w 4 3 = k0 ∧ bitsOf w 19 6 = d ∧ bitsOf w 13 6 = a ∧ bitsOf w 7 6 = b ∧ bitsOf w 0 4 = t := by
  intro w
  have := d.isLt; have := a.isLt; have := b.isLt; have := t.isLt
  have hw : w.toNat = encDABT base d a b t := by
    simp only [w, encDABT, BitVec.toNat_ofNat]
    omega
  simp only [encDABT] at hw
  subst hb
  refine ⟨?_, ?_, ofNat_bits _ ?_, ofNat_bits _ ?_, ofNat_bits _ ?_, ofNat_bits _ ?_⟩ <;> simp only [majorOf, bitsAt, hw] <;> omega

theorem fields_DABRNT (base : Nat) (d : BitVec 6) (a : BitVec 6) (b : BitVec 6) (r : BitVec 1) (n : BitVec 1) (t : BitVec 4) (maj : Nat)
    (hb : base = maj * 2 ^ 25) (hm : maj < 128) :
    let w : Word32 := BitVec.ofNat 32 (encDABRNT base d a b r n t)
    majorOf w = maj ∧ bitsOf w 19 6 = d ∧ bitsOf w 13 6 = a ∧ bitsOf w 7 6 = b ∧ bitsOf w 5 1 = r ∧ bitsOf w 4 1 = n ∧ bitsOf w 0 4 = t := by
  intro w
  have := d.isLt; have := a.isLt; have := b.isLt; have := r.isLt; have := n.isLt; have := t.isLt
  have hw : w.toNat = encDABRNT base d a b r n t := by
    simp only [w, encDABRNT, BitVec.toNat_ofNat]
    omega
  simp only [encDABRNT] at hw
  subst hb
  refine ⟨?_, ofNat_bits _ ?_, ofNat_bits _ ?_, ofNat_bits _ ?_, ofNat_bits _ ?_, ofNat_bits _ ?_, ofNat_bits _ ?_⟩ <;> simp only [majorOf, hw] <;> omega

theorem fields_DAMT_7 (base : Nat) (d : BitVec 6) (a : BitVec 6) (m : BitVec 3) (t : BitVec 4) (maj k0 : Nat)
    (hb : base = maj * 2 ^ 25 + k0 * 2 ^ 7) (hm : maj < 128) (hk0 : k0 < 2 ^ 6) :
    let w : Word32 := BitVec.ofNat 32 (encDAMT base d a m t)
    majorOf w = maj ∧ bitsAt w 7 6 = k0 ∧ bitsOf w 19 6 = d ∧ bitsOf w 13 6 = a ∧ bitsOf w 4 3 = m ∧ bitsOf w 0 4 = t := by
  intro w
  have := d.isLt; have := a.isLt; have := m.isLt; have := t.isLt
  have hw : w.toNat = encDAMT base d a m t := by
    simp only [w, encDAMT, BitVec.toNat_ofNat]
    omega
  simp only [encDAMT] at hw
  subst hb
  refine ⟨?_, ?_, ofNat_bits _ ?_, ofNat_bits _ ?_, ofNat_bits _ ?_, ofNat_bits _ ?_⟩ <;> simp only [majorOf, bitsAt, hw] <;> omega

theorem fields_DASUMT (base : Nat) (d : BitVec 6) (a : BitVec 6) (s : BitVec 1) (u : BitVec 4) (m : BitVec 3) (t : BitVec 4) (maj : Nat)
    (hb : base = maj * 2 ^ 25) (hm : maj < 128) :
    let w : Word32 := BitVec.ofNat 32 (encDASUMT base d a s u m t)
    majorOf w = maj ∧ bitsOf w 19 6 = d ∧ bitsOf w 13 6 = a ∧ bitsOf w 11 1 = s ∧ bitsOf w 7 4 = u ∧ bitsOf w 4 3 = m ∧ bitsOf w 0 4 = t := by
  intro w
  have := d.isLt; have := a.isLt; have := s.isLt; have := u.isLt; have := m.isLt; have := t.isLt
  have hw : w.toNat = encDASUMT base d a s u m t := by
    simp only [w, encDASUMT, BitVec.toNat_ofNat]
    omega
  simp only [encDASUMT] at hw
  subst hb
  refine ⟨?_, ofNat_bits _ ?_, ofNat_bits _ ?_, ofNat_bits _ ?_, ofNat_bits _ ?_, ofNat_bits _ ?_, ofNat_bits _ ?_⟩ <;> simp only [majorOf, hw] <;> omega

theorem fields_DAB_4 (base : Nat) (d : BitVec 6) (a : BitVec 6) (b : BitVec 6) (maj k0 : Nat)
    (hb : base = maj * 2 ^ 25 + k0 * 2 ^ 4) (hm : maj < 128) (hk0 : k0 < 2 ^ 3) :
    let w : Word32 := BitVec.ofNat 32 (encDAB base d a b)
    majorOf w = maj ∧ bitsAt w 4 3 = k0 ∧ bitsOf w 19 6 = d ∧ bitsOf w 13 6 = a ∧ bitsOf w 7 6 = b := by
  intro w
  have := d.isLt; have := a.isLt; have := b.isLt
  have hw : w.toNat = encDAB base d a b := by
    simp only [w, encDAB, BitVec.toNat_ofNat]
    omega
  simp only [encDAB] at hw
  subst hb
  refine ⟨?_, ?_, ofNat_bits _ ?_, ofNat_bits _ ?_, ofNat_bits _ ?_⟩ <;> simp only [majorOf, bitsAt, hw] <;> omega

theorem fields_DA_4 (base : Nat) (d : BitVec 6) (a : BitVec 6) (maj k0 : Nat)
    (hb : base = maj * 2 ^ 25 + k0 * 2 ^ 4) (hm : maj < 128) (hk0 : k0 < 2 ^ 3) :
    let w : Word32 := BitVec.ofNat 32 (encDA base d a)
    majorOf w = maj ∧ bitsAt w 4 3 = k0 ∧ bitsOf w 19 6 = d ∧ bitsOf w 13 6 = a := by
  intro w
  have := d.isLt; have := a.isLt
  have hw : w.toNat = encDA base d a := by
    simp only [w, encDA, BitVec.toNat_ofNat]
    omega
  simp only [encDA] at hw
  subst hb
  refine ⟨?_, ?_, ofNat_bits _ ?_, ofNat_bits _ ?_⟩ <;> simp only [majorOf, bitsAt, hw] <;> omega

theorem fields_DAMT (base : Nat) (d : BitVec 6) (a : BitVec 6) (m : BitVec 3) (t : BitVec 4) (maj : Nat)
    (hb : base = maj * 2 ^ 25) (hm : maj < 128) :
    let w : Word32 := BitVec.ofNat 32 (encDAMT base d a m t)
    majorOf w = maj ∧ bitsOf w 19 6 = d ∧ bitsOf w 13 6 = a ∧ bitsOf w 4 3 = m ∧ bitsOf w 0 4 = t := by
  intro w
  have := d.isLt; have := a.isLt; have := m.isLt; have := t.isLt
  have hw : w.toNat = encDAMT base d a m t := by
    simp only [w, encDAMT, BitVec.toNat_ofNat]
    omega
  simp only [encDAMT] at hw
  subst hb
  refine ⟨?_, ofNat_bits _ ?_, ofNat_bits _ ?_, ofNat_bits _ ?_, ofNat_bits _ ?_⟩ <;> simp only [majorOf, hw] <;> omega

theorem fields_DABT_4_1 (base : Nat) (d : BitVec 6) (a : BitVec 6) (b : BitVec 6) (t : BitVec 4) (maj k0 : Nat)
    (hb : base = maj * 2 ^ 25 + k0 * 2 ^ 4) (hm : maj < 128) (hk0 : k0 < 2 ^ 1) :
    let w : Word32 := BitVec.ofNat 32 (encDABT base d a b t)
    majorOf w = maj ∧ bitsAt w 4 1 = k0 ∧ bitsOf w 19 6 = d ∧ bitsOf w 13 6 = a ∧ bitsOf w 7 6 = b ∧ bitsOf w 0 4 = t := by
  intro w
  have := d.isLt; have := a.isLt; have := b.isLt; have := t.isLt
  have hw : w.toNat = encDABT base d a b t := by
    simp only [w, encDABT, BitVec.toNat_ofNat]
    omega
  simp only [encDABT] at hw
  subst hb
  refine ⟨?_, ?_, ofNat_bits _ ?_, ofNat_bits _ ?_, ofNat_bits _ ?_, ofNat_bits _ ?_⟩ <;> simp only [majorOf, bitsAt, hw] <;> omega

theorem fields_XYMTk_8 (base : Nat) (x : BitVec 6) (y : BitVec 6) (m : BitVec 3) (tk : Tk) (maj k0 : Nat)
    (hb : base = maj * 2 ^ 25 + k0 * 2 ^ 8) (hm : maj < 128) (hk0 : k0 + 7 * 1 < 2 ^ 5) (hz0m : k0 / 2 ^ 0 % 2 ^ 3 = 0) :
    let w : Word32 := BitVec.ofNat 32 (encXYMTk base x y m tk)
    majorOf w = maj ∧ bitsAt w 8 5 = k0 + m.toNat ∧ bitsOf w 19 6 = x ∧ bitsOf w 13 6 = y ∧ bitsOf w 8 3 = m ∧ tkOf w = tk := by
  intro w
  have := x.isLt; have := y.isLt; have := m.isLt; have := tk.hint.isLt; have := tk.tkin.isLt; have := tk.tkout.isLt
  have hw : w.toNat = encXYMTk base x y m tk := by
    simp only [w, encXYMTk, placeTk, BitVec.toNat_ofNat]
    omega
  simp only [encXYMTk, placeTk] at hw
  subst hb
  refine ⟨?_, ?_, ofNat_bits _ ?_, ofNat_bits _ ?_, ofNat_bits _ ?_, tkOf_eq _ ?_ ?_ ?_⟩ <;> simp only [majorOf, bitsAt, hw] <;> omega

theorem fields_XYNTk_8 (base : Nat) (x : BitVec 6) (y : BitVec 6) (n : BitVec 3) (tk : Tk) (maj k0 : Nat)
    (hb : base = maj * 2 ^ 25 + k0 * 2 ^ 8) (hm : maj < 128) (hk0 : k0 + 7 * 1 < 2 ^ 5) (hz0n : k0 / 2 ^ 0 % 2 ^ 3 = 0) :
    let w : Word32 := BitVec.ofNat 32 (encXYNTk base x y n tk)
    majorOf w = maj ∧ bitsAt w 8 5 = k0 + n.toNat ∧ bitsOf w 19 6 = x ∧ bitsOf w 13 6 = y ∧ bitsOf w 8 3 = n ∧ tkOf w = tk := by
  intro w
  have := x.isLt; have := y.isLt; have := n.isLt; have := tk.hint.isLt; have := tk.tkin.isLt; have := tk.tkout.isLt
  have hw : w.toNat = encXYNTk base x y n tk := by
    simp only [w, encXYNTk, placeTk, BitVec.toNat_ofNat]
    omega
  simp only [encXYNTk, placeTk] at hw
  subst hb
  refine ⟨?_, ?_, ofNat_bits _ ?_, ofNat_bits _ ?_, ofNat_bits _ ?_, tkOf_eq _ ?_ ?_ ?_⟩ <;> simp only [majorOf, bitsAt, hw] <;> omega

theorem fields_XYPSTk_8 (base : Nat) (x : BitVec 6) (y : BitVec 6) (p : BitVec 1) (s : BitVec 2) (tk : Tk) (maj k0 : Nat)
    (hb : base = maj * 2 ^ 25 + k0 * 2 ^ 8) (hm : maj < 128) (hk0 : k0 + 1 * 8 + 3 * 1 < 2 ^ 5) (hz0p : k0 / 2 ^ 3 % 2 ^ 1 = 0) (hz0s : k0 / 2 ^ 0 % 2 ^ 2 = 0) :
    let w : Word32 := BitVec.ofNat 32 (encXYPSTk base x y p s tk)
    majorOf w = maj ∧ bitsAt w 8 5 = k0 + p.toNat * 8 + s.toNat ∧ bitsOf w 19 6 = x ∧ bitsOf w 13 6 = y ∧ bitsOf w 11 1 = p ∧ bitsOf w 8 2 = s ∧ tkOf w = tk := by
  intro w
  have := x.isLt; have := y.isLt; have := p.isLt; have := s.isLt; have := tk.hint.isLt; have := tk.tkin.isLt; have := tk.tkout.isLt
  have hw : w.toNat = encXYPSTk base x y p s tk := by
    simp only [w, encXYPSTk, placeTk, BitVec.toNat_ofNat]
    omega
  simp only [encXYPSTk, placeTk] at hw
  subst hb
  refine ⟨?_, ?_, ofNat_bits _ ?_, ofNat_bits _ ?_, ofNat_bits _ ?_, ofNat_bits _ ?_, tkOf_eq _ ?_ ?_ ?_⟩ <;> simp only [majorOf, bitsAt, hw] <;> omega

theorem fields_XYCZTk_8 (base : Nat) (x : BitVec 6) (y : BitVec 6) (c : BitVec 1) (z : BitVec 1) (tk : Tk) (maj k0 : Nat)
    (hb : base = maj * 2 ^ 25 + k0 * 2 ^ 8) (hm : maj < 128) (hk0 : k0 + 1 * 16 + 1 * 1 < 2 ^ 5) (hz0c : k0 / 2 ^ 4 % 2 ^ 1 = 0) (hz0z : k0 / 2 ^ 0 % 2 ^ 1 = 0) :
    let w : Word32 := BitVec.ofNat 32 (encXYCZTk base x y c z tk)
    majorOf w = maj ∧ bitsAt w 8 5 = k0 + c.toNat * 16 + z.toNat ∧ bitsOf w 19 6 = x ∧ bitsOf w 13 6 = y ∧ bitsOf w 12 1 = c ∧ bitsOf w 8 1 = z ∧ tkOf w = tk := by
  intro w
  have := x.isLt; have := y.isLt; have := c.isLt; have := z.isLt; have := tk.hint.isLt; have := tk.tkin.isLt; have := tk.tkout.isLt
  have hw : w.toNat = encXYCZTk base x y c z tk := by
    simp only [w, encXYCZTk, placeTk, BitVec.toNat_ofNat]
    omega
  simp only [encXYCZTk, placeTk] at hw
  subst hb
  refine ⟨?_, ?_, ofNat_bits _ ?_, ofNat_bits _ ?_, ofNat_bits _ ?_, ofNat_bits _ ?_, tkOf_eq _ ?_ ?_ ?_⟩ <;> simp only [majorOf, bitsAt, hw] <;> omega

theorem fields_XYCTk_8 (base : Nat) (x : BitVec 6) (y : BitVec 6) (c : BitVec 1) (tk : Tk) (maj k0 : Nat)
    (hb : base = maj * 2 ^ 25 + k0 * 2 ^ 8) (hm : maj < 128) (hk0 : k0 + 1 * 16 < 2 ^ 5) (hz0c : k0 / 2 ^ 4 % 2 ^ 1 = 0) :
    let w : Word32 := BitVec.ofNat 32 (encXYCTk base x y c tk)
    majorOf w = maj ∧ bitsAt w 8 5 = k0 + c.toNat * 16 ∧ bitsOf w 19 6 = x ∧ bitsOf w 13 6 = y ∧ bitsOf w 12 1 = c ∧ tkOf w = tk := by
  intro w
  have := x.isLt; have := y.isLt; have := c.isLt; have := tk.hint.isLt; have := tk.tkin.isLt; have := tk.tkout.isLt
  have hw : w.toNat = encXYCTk base x y c tk := by
    simp only [w, encXYCTk, placeTk, BitVec.toNat_ofNat]
    omega
  simp only [encXYCTk, placeTk] at hw
  subst hb
  refine ⟨?_, ?_, ofNat_bits _ ?_, ofNat_bits _ ?_, ofNat_bits _ ?_, tkOf_eq _ ?_ ?_ ?_⟩ <;> simp only [majorOf, bitsAt, hw] <;> omega

theorem fields_X (base : Nat) (x : BitVec 25) (maj : Nat)
    (hb : base = maj * 2 ^ 25) (hm : maj < 128) :
    let w : Word32 := BitVec.ofNat 32 (encX base x)
    majorOf w = maj ∧ bitsOf w 0 25 = x := by
  intro w
  have := x.isLt
  have hw : w.toNat = encX base x := by
    simp only [w, encX, BitVec.toNat_ofNat]
    omega
  simp only [encX] at hw
  subst hb
  refine ⟨?_, ofNat_bits _ ?_⟩ <;> simp only [majorOf, hw] <;> omega

theorem fields_IABGS_0 (base : Nat) (i : BitVec 6) (a : BitVec 6) (b : BitVec 6) (g : BitVec 3) (s : BitVec 4) (maj k0 : Nat)
    (hb : base = maj * 2 ^ 25 + k0 * 2 ^ 0) (hm : maj < 128) (hk0 : k0 + 15 * 1 < 2 ^ 4) (hz0s : k0 / 2 ^ 0 % 2 ^ 4 = 0) :
    let w : Word32 := BitVec.ofNat 32 (encIABGS base i a b g s)
    majorOf w = maj ∧ bitsAt w 0 4 = k0 + s.toNat ∧ bitsOf w 19 6 = i ∧ bitsOf w 13 6 = a ∧ bitsOf w 7 6 = b ∧ bitsOf w 4 3 = g ∧ bitsOf w 0 4 = s := by
  intro w
  have := i.isLt; have := a.isLt; have := b.isLt; have := g.isLt; have := s.isLt
  have hw : w.toNat = encIABGS base i a b g s := by
    simp only [w, encIABGS, BitVec.toNat_ofNat]
    omega
  simp only [encIABGS] at hw
  subst hb
  refine ⟨?_, ?_, ofNat_bits _ ?_, ofNat_bits _ ?_, ofNat_bits _ ?_, ofNat_bits _ ?_, ofNat_bits _ ?_⟩ <;> simp only [majorOf, bitsAt, hw] <;> omega

theorem fields_AI (base : Nat) (a : BitVec 6) (i : BitVec 13) (maj : Nat)
    (hb : base = maj * 2 ^ 25) (hm : maj < 128) :
    let w : Word32 := BitVec.ofNat 32 (encAI base a i)
    majorOf w = maj ∧ bitsOf w 13 6 = a ∧ bitsOf w 0 13 = i := by
  intro w
  have := a.isLt; have := i.isLt
  have hw : w.toNat = encAI base a i := by
    simp only [w, encAI, BitVec.toNat_ofNat]
    omega
  simp only [encAI] at hw
  subst hb
  refine ⟨?_, ofNat_bits _ ?_, ofNat_bits _ ?_⟩ <;> simp only [majorOf, hw] <;> omega

theorem fields_DC_10 (base : Nat) (d : BitVec 6) (c : BitVec 10) (maj k0 : Nat)
    (hb : base = maj * 2 ^ 25 + k0 * 2 ^ 10) (hm : maj < 128) (hk0 : k0 < 2 ^ 3) :
    let w : Word32 := BitVec.ofNat 32 (encDC base d c)
    majorOf w = maj ∧ bitsAt w 10 3 = k0 ∧ bitsOf w 19 6 = d ∧ bitsOf w 0 10 = c := by
  intro w
  have := d.isLt; have := c.isLt
  have hw : w.toNat = encDC base d c := by
    simp only [w, encDC, BitVec.toNat_ofNat]
    omega
  simp only [encDC] at hw
  subst hb
  refine ⟨?_, ?_, ofNat_bits _ ?_, ofNat_bits _ ?_⟩ <;> simp only [majorOf, bitsAt, hw] <;> omega

theorem fields_DAC_10 (base : Nat) (d : BitVec 6) (a : BitVec 6) (c : BitVec 10) (maj k0 : Nat)
    (hb : base = maj * 2 ^ 25 + k0 * 2 ^ 10) (hm : maj < 128) (hk0 : k0 < 2 ^ 3) :
    let w : Word32 := BitVec.ofNat 32 (encDAC base d a c)
    majorOf w = maj ∧ bitsAt w 10 3 = k0 ∧ bitsOf w 19 6 = d ∧ bitsOf w 13 6 = a ∧ bitsOf w 0 10 = c := by
  intro w
  have := d.isLt; have := a.isLt; have := c.isLt
  have hw : w.toNat = encDAC base d a c := by
    simp only [w, encDAC, BitVec.toNat_ofNat]
    omega
  simp only [encDAC] at hw
  subst hb
  refine ⟨?_, ?_, ofNat_bits _ ?_, ofNat_bits _ ?_, ofNat_bits _ ?_⟩ <;> simp only [majorOf, bitsAt, hw] <;> omega

theorem fields_XYPUSTk_8 (base : Nat) (x : BitVec 6) (y : BitVec 6) (p : BitVec 1) (u : BitVec 1) (s : BitVec 2) (tk : Tk) (maj k0 : Nat)
    (hb : base = maj * 2 ^ 25 + k0 * 2 ^ 8) (hm : maj < 128) (hk0 : k0 + 1 * 8 + 1 * 4 + 3 * 1 < 2 ^ 5) (hz0p : k0 / 2 ^ 3 % 2 ^ 1 = 0) (hz0u : k0 / 2 ^ 2 % 2 ^ 1 = 0) (hz0s : k0 / 2 ^ 0 % 2 ^ 2 = 0) :
    let w : Word32 := BitVec.ofNat 32 (encXYPUSTk base x y p u s tk)
    majorOf w = maj ∧ bitsAt w 8 5 = k0 + p.toNat * 8 + u.toNat * 4 + s.toNat ∧ bitsOf w 19 6 = x ∧ bitsOf w 13 6 = y ∧ bitsOf w 11 1 = p ∧ bitsOf w 10 1 = u ∧ bitsOf w 8 2 = s ∧ tkOf w = tk := by
  intro w
  have := x.isLt; have := y.isLt; have := p.isLt; have := u.isLt; have := s.isLt; have := tk.hint.isLt; have := tk.tkin.isLt; have := tk.tkout.isLt
  have hw : w.toNat = encXYPUSTk base x y p u s tk := by
    simp only [w, encXYPUSTk, placeTk, BitVec.toNat_ofNat]
    omega
  simp only [encXYPUSTk, placeTk] at hw
  subst hb
  refine ⟨?_, ?_, ofNat_bits _ ?_, ofNat_bits _ ?_, ofNat_bits _ ?_, ofNat_bits _ ?_, ofNat_bits _ ?_, tkOf_eq _ ?_ ?_ ?_⟩ <;> simp only [majorOf, bitsAt, hw] <;> omega

end Sys2Proof.Laws
end

