-- ==== Sys2Proof/Laws/PerInstr.lean ====
section
/-! SUPPORT. The round trip of the encoder and the decoder, one lemma per constructor of `Instr`. -/

namespace Sys2Proof.Laws.RoundTrip

/-- The word of a well-formed instruction, with the word that follows it (its literal, or any word), decodes to the instruction (R38 to
R46, R51, R70). Nothing is said of a step that has no word. -/
def Statement (i : Instr) : Prop :=
  i.hasWord = true → i.wf = true → ∀ nxt : Word32, decodeWord (encodeWord i) ((encode i ++ [nxt]).getD 1 0) = .ok i

/-- A row that is read back whatever follows its word. -/
theorem of_raw {i : Instr} (h : ∀ lit, rawDecode (encodeWord i) lit = some i) : Statement i :=
  fun _ hw _ => decodeWord_of_raw (h _) hw

/-- A row that is read back where its subfunction's limits hold. -/
theorem of_form {i : Instr} (h : i.formOk = true → ∀ lit, rawDecode (encodeWord i) lit = some i) : Statement i := by
  intro _ hw _
  have hf : i.formOk = true := by
    simp only [Instr.wf, Bool.and_eq_true] at hw
    exact hw.1.1.1.1
  exact decodeWord_of_raw (h hf _) hw

theorem add (d : BitVec 6) (a : BitVec 6) (b : BitVec 6) (g : BitVec 3) : Statement (.add d a b g) := by
  obtain ⟨h0, h1, h2, h3, h4, h5⟩ := fields_DABG_0 0x02000000 d a b g 0x01 0 (by decide) (by decide) (by decide)
  refine of_raw fun lit => ?_
  rw [show encodeWord (.add d a b g) = BitVec.ofNat 32 (encDABG 0x02000000 d a b g) from rfl]
  generalize BitVec.ofNat 32 (encDABG 0x02000000 d a b g) = w at *
  rw [raw_01 h0]
  unfold decodeMajor01
  rw [h1]
  rw [h2, h3, h4, h5]
  rfl

theorem sub (d : BitVec 6) (a : BitVec 6) (b : BitVec 6) (g : BitVec 3) : Statement (.sub d a b g) := by
  obtain ⟨h0, h1, h2, h3, h4, h5⟩ := fields_DABG_0 0x02000001 d a b g 0x01 1 (by decide) (by decide) (by decide)
  refine of_raw fun lit => ?_
  rw [show encodeWord (.sub d a b g) = BitVec.ofNat 32 (encDABG 0x02000001 d a b g) from rfl]
  generalize BitVec.ofNat 32 (encDABG 0x02000001 d a b g) = w at *
  rw [raw_01 h0]
  unfold decodeMajor01
  rw [h1]
  rw [h2, h3, h4, h5]
  rfl

theorem and (d : BitVec 6) (a : BitVec 6) (b : BitVec 6) (g : BitVec 3) : Statement (.and d a b g) := by
  obtain ⟨h0, h1, h2, h3, h4, h5⟩ := fields_DABG_0 0x02000002 d a b g 0x01 2 (by decide) (by decide) (by decide)
  refine of_raw fun lit => ?_
  rw [show encodeWord (.and d a b g) = BitVec.ofNat 32 (encDABG 0x02000002 d a b g) from rfl]
  generalize BitVec.ofNat 32 (encDABG 0x02000002 d a b g) = w at *
  rw [raw_01 h0]
  unfold decodeMajor01
  rw [h1]
  rw [h2, h3, h4, h5]
  rfl

theorem or (d : BitVec 6) (a : BitVec 6) (b : BitVec 6) (g : BitVec 3) : Statement (.or d a b g) := by
  obtain ⟨h0, h1, h2, h3, h4, h5⟩ := fields_DABG_0 0x02000003 d a b g 0x01 3 (by decide) (by decide) (by decide)
  refine of_raw fun lit => ?_
  rw [show encodeWord (.or d a b g) = BitVec.ofNat 32 (encDABG 0x02000003 d a b g) from rfl]
  generalize BitVec.ofNat 32 (encDABG 0x02000003 d a b g) = w at *
  rw [raw_01 h0]
  unfold decodeMajor01
  rw [h1]
  rw [h2, h3, h4, h5]
  rfl

theorem xor (d : BitVec 6) (a : BitVec 6) (b : BitVec 6) (g : BitVec 3) : Statement (.xor d a b g) := by
  obtain ⟨h0, h1, h2, h3, h4, h5⟩ := fields_DABG_0 0x02000004 d a b g 0x01 4 (by decide) (by decide) (by decide)
  refine of_raw fun lit => ?_
  rw [show encodeWord (.xor d a b g) = BitVec.ofNat 32 (encDABG 0x02000004 d a b g) from rfl]
  generalize BitVec.ofNat 32 (encDABG 0x02000004 d a b g) = w at *
  rw [raw_01 h0]
  unfold decodeMajor01
  rw [h1]
  rw [h2, h3, h4, h5]
  rfl

theorem sll (d : BitVec 6) (a : BitVec 6) (b : BitVec 6) (g : BitVec 3) : Statement (.sll d a b g) := by
  obtain ⟨h0, h1, h2, h3, h4, h5⟩ := fields_DABG_0 0x02000005 d a b g 0x01 5 (by decide) (by decide) (by decide)
  refine of_raw fun lit => ?_
  rw [show encodeWord (.sll d a b g) = BitVec.ofNat 32 (encDABG 0x02000005 d a b g) from rfl]
  generalize BitVec.ofNat 32 (encDABG 0x02000005 d a b g) = w at *
  rw [raw_01 h0]
  unfold decodeMajor01
  rw [h1]
  rw [h2, h3, h4, h5]
  rfl

theorem srl (d : BitVec 6) (a : BitVec 6) (b : BitVec 6) (g : BitVec 3) : Statement (.srl d a b g) := by
  obtain ⟨h0, h1, h2, h3, h4, h5⟩ := fields_DABG_0 0x02000006 d a b g 0x01 6 (by decide) (by decide) (by decide)
  refine of_raw fun lit => ?_
  rw [show encodeWord (.srl d a b g) = BitVec.ofNat 32 (encDABG 0x02000006 d a b g) from rfl]
  generalize BitVec.ofNat 32 (encDABG 0x02000006 d a b g) = w at *
  rw [raw_01 h0]
  unfold decodeMajor01
  rw [h1]
  rw [h2, h3, h4, h5]
  rfl

theorem sra (d : BitVec 6) (a : BitVec 6) (b : BitVec 6) (g : BitVec 3) : Statement (.sra d a b g) := by
  obtain ⟨h0, h1, h2, h3, h4, h5⟩ := fields_DABG_0 0x02000007 d a b g 0x01 7 (by decide) (by decide) (by decide)
  refine of_raw fun lit => ?_
  rw [show encodeWord (.sra d a b g) = BitVec.ofNat 32 (encDABG 0x02000007 d a b g) from rfl]
  generalize BitVec.ofNat 32 (encDABG 0x02000007 d a b g) = w at *
  rw [raw_01 h0]
  unfold decodeMajor01
  rw [h1]
  rw [h2, h3, h4, h5]
  rfl

theorem mul (d : BitVec 6) (a : BitVec 6) (b : BitVec 6) (g : BitVec 3) : Statement (.mul d a b g) := by
  obtain ⟨h0, h1, h2, h3, h4, h5⟩ := fields_DABG_0 0x02000008 d a b g 0x01 8 (by decide) (by decide) (by decide)
  refine of_raw fun lit => ?_
  rw [show encodeWord (.mul d a b g) = BitVec.ofNat 32 (encDABG 0x02000008 d a b g) from rfl]
  generalize BitVec.ofNat 32 (encDABG 0x02000008 d a b g) = w at *
  rw [raw_01 h0]
  unfold decodeMajor01
  rw [h1]
  rw [h2, h3, h4, h5]
  rfl

theorem mulhiS (d : BitVec 6) (a : BitVec 6) (b : BitVec 6) (g : BitVec 3) : Statement (.mulhiS d a b g) := by
  obtain ⟨h0, h1, h2, h3, h4, h5⟩ := fields_DABG_0 0x02000009 d a b g 0x01 9 (by decide) (by decide) (by decide)
  refine of_raw fun lit => ?_
  rw [show encodeWord (.mulhiS d a b g) = BitVec.ofNat 32 (encDABG 0x02000009 d a b g) from rfl]
  generalize BitVec.ofNat 32 (encDABG 0x02000009 d a b g) = w at *
  rw [raw_01 h0]
  unfold decodeMajor01
  rw [h1]
  rw [h2, h3, h4, h5]
  rfl

theorem mulhiU (d : BitVec 6) (a : BitVec 6) (b : BitVec 6) (g : BitVec 3) : Statement (.mulhiU d a b g) := by
  obtain ⟨h0, h1, h2, h3, h4, h5⟩ := fields_DABG_0 0x0200000A d a b g 0x01 10 (by decide) (by decide) (by decide)
  refine of_raw fun lit => ?_
  rw [show encodeWord (.mulhiU d a b g) = BitVec.ofNat 32 (encDABG 0x0200000A d a b g) from rfl]
  generalize BitVec.ofNat 32 (encDABG 0x0200000A d a b g) = w at *
  rw [raw_01 h0]
  unfold decodeMajor01
  rw [h1]
  rw [h2, h3, h4, h5]
  rfl

theorem quotS (d : BitVec 6) (a : BitVec 6) (b : BitVec 6) (g : BitVec 3) : Statement (.quotS d a b g) := by
  obtain ⟨h0, h1, h2, h3, h4, h5⟩ := fields_DABG_0 0x0200000B d a b g 0x01 11 (by decide) (by decide) (by decide)
  refine of_raw fun lit => ?_
  rw [show encodeWord (.quotS d a b g) = BitVec.ofNat 32 (encDABG 0x0200000B d a b g) from rfl]
  generalize BitVec.ofNat 32 (encDABG 0x0200000B d a b g) = w at *
  rw [raw_01 h0]
  unfold decodeMajor01
  rw [h1]
  rw [h2, h3, h4, h5]
  rfl

theorem quotU (d : BitVec 6) (a : BitVec 6) (b : BitVec 6) (g : BitVec 3) : Statement (.quotU d a b g) := by
  obtain ⟨h0, h1, h2, h3, h4, h5⟩ := fields_DABG_0 0x0200000C d a b g 0x01 12 (by decide) (by decide) (by decide)
  refine of_raw fun lit => ?_
  rw [show encodeWord (.quotU d a b g) = BitVec.ofNat 32 (encDABG 0x0200000C d a b g) from rfl]
  generalize BitVec.ofNat 32 (encDABG 0x0200000C d a b g) = w at *
  rw [raw_01 h0]
  unfold decodeMajor01
  rw [h1]
  rw [h2, h3, h4, h5]
  rfl

theorem rmdrS (d : BitVec 6) (a : BitVec 6) (b : BitVec 6) (g : BitVec 3) : Statement (.rmdrS d a b g) := by
  obtain ⟨h0, h1, h2, h3, h4, h5⟩ := fields_DABG_0 0x0200000D d a b g 0x01 13 (by decide) (by decide) (by decide)
  refine of_raw fun lit => ?_
  rw [show encodeWord (.rmdrS d a b g) = BitVec.ofNat 32 (encDABG 0x0200000D d a b g) from rfl]
  generalize BitVec.ofNat 32 (encDABG 0x0200000D d a b g) = w at *
  rw [raw_01 h0]
  unfold decodeMajor01
  rw [h1]
  rw [h2, h3, h4, h5]
  rfl

theorem rmdrU (d : BitVec 6) (a : BitVec 6) (b : BitVec 6) (g : BitVec 3) : Statement (.rmdrU d a b g) := by
  obtain ⟨h0, h1, h2, h3, h4, h5⟩ := fields_DABG_0 0x0200000E d a b g 0x01 14 (by decide) (by decide) (by decide)
  refine of_raw fun lit => ?_
  rw [show encodeWord (.rmdrU d a b g) = BitVec.ofNat 32 (encDABG 0x0200000E d a b g) from rfl]
  generalize BitVec.ofNat 32 (encDABG 0x0200000E d a b g) = w at *
  rw [raw_01 h0]
  unfold decodeMajor01
  rw [h1]
  rw [h2, h3, h4, h5]
  rfl

theorem addi (d : BitVec 6) (a : BitVec 6) (i : BitVec 13) : Statement (.addi d a i) := by
  obtain ⟨h0, h1, h2, h3⟩ := fields_DAI 0x04000000 d a i 0x02 (by decide) (by decide)
  refine of_raw fun lit => ?_
  rw [show encodeWord (.addi d a i) = BitVec.ofNat 32 (encDAI 0x04000000 d a i) from rfl]
  generalize BitVec.ofNat 32 (encDAI 0x04000000 d a i) = w at *
  rw [raw_02 h0, h1, h2, h3]

theorem andi (d : BitVec 6) (a : BitVec 6) (i : BitVec 13) : Statement (.andi d a i) := by
  obtain ⟨h0, h1, h2, h3⟩ := fields_DAI 0x06000000 d a i 0x03 (by decide) (by decide)
  refine of_raw fun lit => ?_
  rw [show encodeWord (.andi d a i) = BitVec.ofNat 32 (encDAI 0x06000000 d a i) from rfl]
  generalize BitVec.ofNat 32 (encDAI 0x06000000 d a i) = w at *
  rw [raw_03 h0, h1, h2, h3]

theorem ori (d : BitVec 6) (a : BitVec 6) (i : BitVec 13) : Statement (.ori d a i) := by
  obtain ⟨h0, h1, h2, h3⟩ := fields_DAI 0x08000000 d a i 0x04 (by decide) (by decide)
  refine of_raw fun lit => ?_
  rw [show encodeWord (.ori d a i) = BitVec.ofNat 32 (encDAI 0x08000000 d a i) from rfl]
  generalize BitVec.ofNat 32 (encDAI 0x08000000 d a i) = w at *
  rw [raw_04 h0, h1, h2, h3]

theorem xori (d : BitVec 6) (a : BitVec 6) (i : BitVec 13) : Statement (.xori d a i) := by
  obtain ⟨h0, h1, h2, h3⟩ := fields_DAI 0x0A000000 d a i 0x05 (by decide) (by decide)
  refine of_raw fun lit => ?_
  rw [show encodeWord (.xori d a i) = BitVec.ofNat 32 (encDAI 0x0A000000 d a i) from rfl]
  generalize BitVec.ofNat 32 (encDAI 0x0A000000 d a i) = w at *
  rw [raw_05 h0, h1, h2, h3]

theorem slli (d : BitVec 6) (a : BitVec 6) (s : BitVec 6) : Statement (.slli d a s) := by
  obtain ⟨h0, h1, h2, h3, h4⟩ := fields_DAS_11 0x0C000000 d a s 0x06 0 (by decide) (by decide) (by decide)
  refine of_raw fun lit => ?_
  rw [show encodeWord (.slli d a s) = BitVec.ofNat 32 (encDAS 0x0C000000 d a s) from rfl]
  generalize BitVec.ofNat 32 (encDAS 0x0C000000 d a s) = w at *
  rw [raw_06 h0]
  unfold decodeMajor06
  rw [h1]
  rw [h2, h3, h4]
  rfl

theorem srli (d : BitVec 6) (a : BitVec 6) (s : BitVec 6) : Statement (.srli d a s) := by
  obtain ⟨h0, h1, h2, h3, h4⟩ := fields_DAS_11 0x0C000800 d a s 0x06 1 (by decide) (by decide) (by decide)
  refine of_raw fun lit => ?_
  rw [show encodeWord (.srli d a s) = BitVec.ofNat 32 (encDAS 0x0C000800 d a s) from rfl]
  generalize BitVec.ofNat 32 (encDAS 0x0C000800 d a s) = w at *
  rw [raw_06 h0]
  unfold decodeMajor06
  rw [h1]
  rw [h2, h3, h4]
  rfl

theorem srai (d : BitVec 6) (a : BitVec 6) (s : BitVec 6) : Statement (.srai d a s) := by
  obtain ⟨h0, h1, h2, h3, h4⟩ := fields_DAS_11 0x0C001000 d a s 0x06 2 (by decide) (by decide) (by decide)
  refine of_raw fun lit => ?_
  rw [show encodeWord (.srai d a s) = BitVec.ofNat 32 (encDAS 0x0C001000 d a s) from rfl]
  generalize BitVec.ofNat 32 (encDAS 0x0C001000 d a s) = w at *
  rw [raw_06 h0]
  unfold decodeMajor06
  rw [h1]
  rw [h2, h3, h4]
  rfl

theorem himm (d : BitVec 6) (i : BitVec 19) : Statement (.himm d i) := by
  obtain ⟨h0, h1, h2⟩ := fields_DI 0x0E000000 d i 0x07 (by decide) (by decide)
  refine of_raw fun lit => ?_
  rw [show encodeWord (.himm d i) = BitVec.ofNat 32 (encDI 0x0E000000 d i) from rfl]
  generalize BitVec.ofNat 32 (encDI 0x0E000000 d i) = w at *
  rw [raw_07 h0, h1, h2]

theorem adpc (d : BitVec 6) (i : BitVec 19) : Statement (.adpc d i) := by
  obtain ⟨h0, h1, h2⟩ := fields_DI 0x10000000 d i 0x08 (by decide) (by decide)
  refine of_raw fun lit => ?_
  rw [show encodeWord (.adpc d i) = BitVec.ofNat 32 (encDI 0x10000000 d i) from rfl]
  generalize BitVec.ofNat 32 (encDI 0x10000000 d i) = w at *
  rw [raw_08 h0, h1, h2]

theorem cmpEq (d : BitVec 6) (a : BitVec 6) (b : BitVec 6) (g : BitVec 3) : Statement (.cmpEq d a b g) := by
  obtain ⟨h0, h1, h2, h3, h4, h5⟩ := fields_DABG_0 0x12000000 d a b g 0x09 0 (by decide) (by decide) (by decide)
  refine of_raw fun lit => ?_
  rw [show encodeWord (.cmpEq d a b g) = BitVec.ofNat 32 (encDABG 0x12000000 d a b g) from rfl]
  generalize BitVec.ofNat 32 (encDABG 0x12000000 d a b g) = w at *
  rw [raw_09 h0]
  unfold decodeMajor09
  rw [h1]
  rw [h2, h3, h4, h5]
  rfl

theorem cmpNe (d : BitVec 6) (a : BitVec 6) (b : BitVec 6) (g : BitVec 3) : Statement (.cmpNe d a b g) := by
  obtain ⟨h0, h1, h2, h3, h4, h5⟩ := fields_DABG_0 0x12000001 d a b g 0x09 1 (by decide) (by decide) (by decide)
  refine of_raw fun lit => ?_
  rw [show encodeWord (.cmpNe d a b g) = BitVec.ofNat 32 (encDABG 0x12000001 d a b g) from rfl]
  generalize BitVec.ofNat 32 (encDABG 0x12000001 d a b g) = w at *
  rw [raw_09 h0]
  unfold decodeMajor09
  rw [h1]
  rw [h2, h3, h4, h5]
  rfl

theorem cmpLt (d : BitVec 6) (a : BitVec 6) (b : BitVec 6) (g : BitVec 3) : Statement (.cmpLt d a b g) := by
  obtain ⟨h0, h1, h2, h3, h4, h5⟩ := fields_DABG_0 0x12000002 d a b g 0x09 2 (by decide) (by decide) (by decide)
  refine of_raw fun lit => ?_
  rw [show encodeWord (.cmpLt d a b g) = BitVec.ofNat 32 (encDABG 0x12000002 d a b g) from rfl]
  generalize BitVec.ofNat 32 (encDABG 0x12000002 d a b g) = w at *
  rw [raw_09 h0]
  unfold decodeMajor09
  rw [h1]
  rw [h2, h3, h4, h5]
  rfl

theorem cmpGe (d : BitVec 6) (a : BitVec 6) (b : BitVec 6) (g : BitVec 3) : Statement (.cmpGe d a b g) := by
  obtain ⟨h0, h1, h2, h3, h4, h5⟩ := fields_DABG_0 0x12000003 d a b g 0x09 3 (by decide) (by decide) (by decide)
  refine of_raw fun lit => ?_
  rw [show encodeWord (.cmpGe d a b g) = BitVec.ofNat 32 (encDABG 0x12000003 d a b g) from rfl]
  generalize BitVec.ofNat 32 (encDABG 0x12000003 d a b g) = w at *
  rw [raw_09 h0]
  unfold decodeMajor09
  rw [h1]
  rw [h2, h3, h4, h5]
  rfl

theorem cmpLtu (d : BitVec 6) (a : BitVec 6) (b : BitVec 6) (g : BitVec 3) : Statement (.cmpLtu d a b g) := by
  obtain ⟨h0, h1, h2, h3, h4, h5⟩ := fields_DABG_0 0x12000004 d a b g 0x09 4 (by decide) (by decide) (by decide)
  refine of_raw fun lit => ?_
  rw [show encodeWord (.cmpLtu d a b g) = BitVec.ofNat 32 (encDABG 0x12000004 d a b g) from rfl]
  generalize BitVec.ofNat 32 (encDABG 0x12000004 d a b g) = w at *
  rw [raw_09 h0]
  unfold decodeMajor09
  rw [h1]
  rw [h2, h3, h4, h5]
  rfl

theorem cmpGeu (d : BitVec 6) (a : BitVec 6) (b : BitVec 6) (g : BitVec 3) : Statement (.cmpGeu d a b g) := by
  obtain ⟨h0, h1, h2, h3, h4, h5⟩ := fields_DABG_0 0x12000005 d a b g 0x09 5 (by decide) (by decide) (by decide)
  refine of_raw fun lit => ?_
  rw [show encodeWord (.cmpGeu d a b g) = BitVec.ofNat 32 (encDABG 0x12000005 d a b g) from rfl]
  generalize BitVec.ofNat 32 (encDABG 0x12000005 d a b g) = w at *
  rw [raw_09 h0]
  unfold decodeMajor09
  rw [h1]
  rw [h2, h3, h4, h5]
  rfl

theorem flAnd (d : BitVec 6) (a : BitVec 6) (b : BitVec 6) (g : BitVec 3) : Statement (.flAnd d a b g) := by
  obtain ⟨h0, h1, h2, h3, h4, h5⟩ := fields_DABG_0 0x12000008 d a b g 0x09 8 (by decide) (by decide) (by decide)
  refine of_raw fun lit => ?_
  rw [show encodeWord (.flAnd d a b g) = BitVec.ofNat 32 (encDABG 0x12000008 d a b g) from rfl]
  generalize BitVec.ofNat 32 (encDABG 0x12000008 d a b g) = w at *
  rw [raw_09 h0]
  unfold decodeMajor09
  rw [h1]
  rw [h2, h3, h4, h5]
  rfl

theorem flOr (d : BitVec 6) (a : BitVec 6) (b : BitVec 6) (g : BitVec 3) : Statement (.flOr d a b g) := by
  obtain ⟨h0, h1, h2, h3, h4, h5⟩ := fields_DABG_0 0x12000009 d a b g 0x09 9 (by decide) (by decide) (by decide)
  refine of_raw fun lit => ?_
  rw [show encodeWord (.flOr d a b g) = BitVec.ofNat 32 (encDABG 0x12000009 d a b g) from rfl]
  generalize BitVec.ofNat 32 (encDABG 0x12000009 d a b g) = w at *
  rw [raw_09 h0]
  unfold decodeMajor09
  rw [h1]
  rw [h2, h3, h4, h5]
  rfl

theorem flXor (d : BitVec 6) (a : BitVec 6) (b : BitVec 6) (g : BitVec 3) : Statement (.flXor d a b g) := by
  obtain ⟨h0, h1, h2, h3, h4, h5⟩ := fields_DABG_0 0x1200000A d a b g 0x09 10 (by decide) (by decide) (by decide)
  refine of_raw fun lit => ?_
  rw [show encodeWord (.flXor d a b g) = BitVec.ofNat 32 (encDABG 0x1200000A d a b g) from rfl]
  generalize BitVec.ofNat 32 (encDABG 0x1200000A d a b g) = w at *
  rw [raw_09 h0]
  unfold decodeMajor09
  rw [h1]
  rw [h2, h3, h4, h5]
  rfl

theorem flAndn (d : BitVec 6) (a : BitVec 6) (b : BitVec 6) (g : BitVec 3) : Statement (.flAndn d a b g) := by
  obtain ⟨h0, h1, h2, h3, h4, h5⟩ := fields_DABG_0 0x1200000B d a b g 0x09 11 (by decide) (by decide) (by decide)
  refine of_raw fun lit => ?_
  rw [show encodeWord (.flAndn d a b g) = BitVec.ofNat 32 (encDABG 0x1200000B d a b g) from rfl]
  generalize BitVec.ofNat 32 (encDABG 0x1200000B d a b g) = w at *
  rw [raw_09 h0]
  unfold decodeMajor09
  rw [h1]
  rw [h2, h3, h4, h5]
  rfl

theorem flRd (d : BitVec 6) (g : BitVec 3) : Statement (.flRd d g) := by
  obtain ⟨h0, h1, h2, h3⟩ := fields_DG_0 0x1200000C d g 0x09 12 (by decide) (by decide) (by decide)
  refine of_raw fun lit => ?_
  rw [show encodeWord (.flRd d g) = BitVec.ofNat 32 (encDG 0x1200000C d g) from rfl]
  generalize BitVec.ofNat 32 (encDG 0x1200000C d g) = w at *
  rw [raw_09 h0]
  unfold decodeMajor09
  rw [h1]
  rw [h2, h3]
  rfl

theorem flWr (a : BitVec 6) (g : BitVec 3) : Statement (.flWr a g) := by
  obtain ⟨h0, h1, h2, h3⟩ := fields_AG_0 0x1200000D a g 0x09 13 (by decide) (by decide) (by decide)
  refine of_raw fun lit => ?_
  rw [show encodeWord (.flWr a g) = BitVec.ofNat 32 (encAG 0x1200000D a g) from rfl]
  generalize BitVec.ofNat 32 (encAG 0x1200000D a g) = w at *
  rw [raw_09 h0]
  unfold decodeMajor09
  rw [h1]
  rw [h2, h3]
  rfl

theorem cmpiEq (f : BitVec 3) (a : BitVec 6) (i : BitVec 13) : Statement (.cmpiEq f a i) := by
  obtain ⟨h0, h1, h2, h3, h4⟩ := fields_FAI_22 0x14000000 f a i 0x0A 0 (by decide) (by decide) (by decide)
  refine of_raw fun lit => ?_
  rw [show encodeWord (.cmpiEq f a i) = BitVec.ofNat 32 (encFAI 0x14000000 f a i) from rfl]
  generalize BitVec.ofNat 32 (encFAI 0x14000000 f a i) = w at *
  rw [raw_0A h0]
  unfold decodeMajor0A
  rw [h1]
  rw [h2, h3, h4]
  rfl

theorem cmpiNe (f : BitVec 3) (a : BitVec 6) (i : BitVec 13) : Statement (.cmpiNe f a i) := by
  obtain ⟨h0, h1, h2, h3, h4⟩ := fields_FAI_22 0x14400000 f a i 0x0A 1 (by decide) (by decide) (by decide)
  refine of_raw fun lit => ?_
  rw [show encodeWord (.cmpiNe f a i) = BitVec.ofNat 32 (encFAI 0x14400000 f a i) from rfl]
  generalize BitVec.ofNat 32 (encFAI 0x14400000 f a i) = w at *
  rw [raw_0A h0]
  unfold decodeMajor0A
  rw [h1]
  rw [h2, h3, h4]
  rfl

theorem cmpiLt (f : BitVec 3) (a : BitVec 6) (i : BitVec 13) : Statement (.cmpiLt f a i) := by
  obtain ⟨h0, h1, h2, h3, h4⟩ := fields_FAI_22 0x14800000 f a i 0x0A 2 (by decide) (by decide) (by decide)
  refine of_raw fun lit => ?_
  rw [show encodeWord (.cmpiLt f a i) = BitVec.ofNat 32 (encFAI 0x14800000 f a i) from rfl]
  generalize BitVec.ofNat 32 (encFAI 0x14800000 f a i) = w at *
  rw [raw_0A h0]
  unfold decodeMajor0A
  rw [h1]
  rw [h2, h3, h4]
  rfl

theorem cmpiGe (f : BitVec 3) (a : BitVec 6) (i : BitVec 13) : Statement (.cmpiGe f a i) := by
  obtain ⟨h0, h1, h2, h3, h4⟩ := fields_FAI_22 0x14C00000 f a i 0x0A 3 (by decide) (by decide) (by decide)
  refine of_raw fun lit => ?_
  rw [show encodeWord (.cmpiGe f a i) = BitVec.ofNat 32 (encFAI 0x14C00000 f a i) from rfl]
  generalize BitVec.ofNat 32 (encFAI 0x14C00000 f a i) = w at *
  rw [raw_0A h0]
  unfold decodeMajor0A
  rw [h1]
  rw [h2, h3, h4]
  rfl

theorem cmpiLtu (f : BitVec 3) (a : BitVec 6) (i : BitVec 13) : Statement (.cmpiLtu f a i) := by
  obtain ⟨h0, h1, h2, h3, h4⟩ := fields_FAI_22 0x15000000 f a i 0x0A 4 (by decide) (by decide) (by decide)
  refine of_raw fun lit => ?_
  rw [show encodeWord (.cmpiLtu f a i) = BitVec.ofNat 32 (encFAI 0x15000000 f a i) from rfl]
  generalize BitVec.ofNat 32 (encFAI 0x15000000 f a i) = w at *
  rw [raw_0A h0]
  unfold decodeMajor0A
  rw [h1]
  rw [h2, h3, h4]
  rfl

theorem cmpiGeu (f : BitVec 3) (a : BitVec 6) (i : BitVec 13) : Statement (.cmpiGeu f a i) := by
  obtain ⟨h0, h1, h2, h3, h4⟩ := fields_FAI_22 0x15400000 f a i 0x0A 5 (by decide) (by decide) (by decide)
  refine of_raw fun lit => ?_
  rw [show encodeWord (.cmpiGeu f a i) = BitVec.ofNat 32 (encFAI 0x15400000 f a i) from rfl]
  generalize BitVec.ofNat 32 (encFAI 0x15400000 f a i) = w at *
  rw [raw_0A h0]
  unfold decodeMajor0A
  rw [h1]
  rw [h2, h3, h4]
  rfl

theorem br (f : BitVec 3) (o : BitVec 22) : Statement (.br f o) := by
  obtain ⟨h0, h1, h2⟩ := fields_FO 0x16000000 f o 0x0B (by decide) (by decide)
  refine of_raw fun lit => ?_
  rw [show encodeWord (.br f o) = BitVec.ofNat 32 (encFO 0x16000000 f o) from rfl]
  generalize BitVec.ofNat 32 (encFO 0x16000000 f o) = w at *
  rw [raw_0B h0, h1, h2]

theorem brn (f : BitVec 3) (o : BitVec 22) : Statement (.brn f o) := by
  obtain ⟨h0, h1, h2⟩ := fields_FO 0x18000000 f o 0x0C (by decide) (by decide)
  refine of_raw fun lit => ?_
  rw [show encodeWord (.brn f o) = BitVec.ofNat 32 (encFO 0x18000000 f o) from rfl]
  generalize BitVec.ofNat 32 (encFO 0x18000000 f o) = w at *
  rw [raw_0C h0, h1, h2]

theorem call (f : BitVec 3) (o : BitVec 22) : Statement (.call f o) := by
  obtain ⟨h0, h1, h2⟩ := fields_FO 0x1A000000 f o 0x0D (by decide) (by decide)
  refine of_raw fun lit => ?_
  rw [show encodeWord (.call f o) = BitVec.ofNat 32 (encFO 0x1A000000 f o) from rfl]
  generalize BitVec.ofNat 32 (encFO 0x1A000000 f o) = w at *
  rw [raw_0D h0, h1, h2]

theorem jmpr (d : BitVec 6) (a : BitVec 6) (g : BitVec 3) : Statement (.jmpr d a g) := by
  obtain ⟨h0, h1, h2, h3, h4⟩ := fields_DAG_0 0x1C000000 d a g 0x0E 0 (by decide) (by decide) (by decide)
  refine of_raw fun lit => ?_
  rw [show encodeWord (.jmpr d a g) = BitVec.ofNat 32 (encDAG 0x1C000000 d a g) from rfl]
  generalize BitVec.ofNat 32 (encDAG 0x1C000000 d a g) = w at *
  rw [raw_0E h0]
  unfold decodeMajor0E
  rw [h1]
  rw [h2, h3, h4]
  rfl

theorem rep (n : BitVec 8) (f : BitVec 4) (s : BitVec 4) : Statement (.rep n f s) := by
  obtain ⟨h0, h1, h2, h3⟩ := fields_NFS 0x1E000000 n f s 0x0F (by decide) (by decide)
  refine of_raw fun lit => ?_
  rw [show encodeWord (.rep n f s) = BitVec.ofNat 32 (encNFS 0x1E000000 n f s) from rfl]
  generalize BitVec.ofNat 32 (encNFS 0x1E000000 n f s) = w at *
  rw [raw_0F h0, h1, h2, h3]

theorem loopO (a : BitVec 6) (i : BitVec 13) : Statement (.loopO a i) := by
  refine of_form fun hf lit => ?_
  have hi : i ≠ 0 := by simpa [Instr.formOk] using hf
  have hi' : i.toNat ≠ 0 := fun h => hi (BitVec.eq_of_toNat_eq h)
  obtain ⟨h0, h1, h2⟩ := fields_AI 0x20000000 a i 0x10 rfl (by decide)
  have hl : bitsAt (BitVec.ofNat 32 (encAI 0x20000000 a i)) 19 1 = 0 ∧ bitsAt (BitVec.ofNat 32 (encAI 0x20000000 a i)) 0 13 = i.toNat := by
    have := a.isLt; have := i.isLt
    simp only [bitsAt, encAI, BitVec.toNat_ofNat]
    omega
  rw [show encodeWord (.loopO a i) = BitVec.ofNat 32 (encAI 0x20000000 a i) from rfl]
  generalize BitVec.ofNat 32 (encAI 0x20000000 a i) = w at *
  rw [raw_10 h0]
  unfold decodeMajor10
  rw [if_neg (by rw [hl.2]; exact hi'), if_pos hl.1, h1, h2]

theorem loopI (a : BitVec 6) (i : BitVec 13) : Statement (.loopI a i) := by
  refine of_form fun hf lit => ?_
  have hi : i ≠ 0 := by simpa [Instr.formOk] using hf
  have hi' : i.toNat ≠ 0 := fun h => hi (BitVec.eq_of_toNat_eq h)
  have hl : majorOf (BitVec.ofNat 32 (encAI 0x20080000 a i)) = 0x10 ∧ bitsAt (BitVec.ofNat 32 (encAI 0x20080000 a i)) 19 1 = 1 ∧
      bitsAt (BitVec.ofNat 32 (encAI 0x20080000 a i)) 0 13 = i.toNat ∧
      (BitVec.ofNat 32 (encAI 0x20080000 a i)).toNat / 2 ^ 13 % 2 ^ 6 = a.toNat ∧
      (BitVec.ofNat 32 (encAI 0x20080000 a i)).toNat / 2 ^ 0 % 2 ^ 13 = i.toNat := by
    have := a.isLt; have := i.isLt
    simp only [majorOf, bitsAt, encAI, BitVec.toNat_ofNat]
    omega
  rw [show encodeWord (.loopI a i) = BitVec.ofNat 32 (encAI 0x20080000 a i) from rfl]
  generalize BitVec.ofNat 32 (encAI 0x20080000 a i) = w at *
  obtain ⟨h0, h1, h2, h3, h4⟩ := hl
  rw [raw_10 h0]
  unfold decodeMajor10
  rw [if_neg (by rw [h2]; exact hi'), if_neg (by rw [h1]; decide), show bitsOf w 13 6 = a from ofNat_bits _ h3,
    show bitsOf w 0 13 = i from ofNat_bits _ h4]

theorem lpclrO : Statement .lpclrO := by
  exact of_raw fun lit => by rw [raw_10 (by decide)]; rfl

theorem lpclrI : Statement .lpclrI := by
  exact of_raw fun lit => by rw [raw_10 (by decide)]; rfl

theorem loopm (i : BitVec 6) (a : BitVec 6) (b : BitVec 6) (g : BitVec 3) (s : BitVec 4) : Statement (.loopm i a b g s) := by
  refine of_form fun hf lit => ?_
  have hs : s.toNat < 4 := by simpa [Instr.formOk] using hf
  obtain ⟨h0, h1, h2, h3, h4, h5, h6⟩ := fields_IABGS_0 0x22000000 i a b g s 0x11 0 rfl (by decide) (by decide) (by decide)
  rw [show encodeWord (.loopm i a b g s) = BitVec.ofNat 32 (encIABGS 0x22000000 i a b g s) from rfl]
  generalize BitVec.ofNat 32 (encIABGS 0x22000000 i a b g s) = w at *
  rw [raw_11 h0]
  unfold decodeMajor11
  have hs : bitsAt w 0 4 = 0 ∨ bitsAt w 0 4 = 1 ∨ bitsAt w 0 4 = 2 ∨ bitsAt w 0 4 = 3 := by omega
  rcases hs with hs | hs | hs | hs <;> rw [hs, h2, h3, h4, h5, h6] <;> rfl

theorem yset (n : BitVec 6) (g : BitVec 3) : Statement (.yset n g) := by
  obtain ⟨h0, h1, h2, h3⟩ := fields_NG_0 0x24000000 n g 0x12 0 (by decide) (by decide) (by decide)
  refine of_raw fun lit => ?_
  rw [show encodeWord (.yset n g) = BitVec.ofNat 32 (encNG 0x24000000 n g) from rfl]
  generalize BitVec.ofNat 32 (encNG 0x24000000 n g) = w at *
  rw [raw_12 h0]
  unfold decodeMajor12
  rw [h1]
  rw [h2, h3]
  rfl

theorem yclr (n : BitVec 6) (g : BitVec 3) : Statement (.yclr n g) := by
  obtain ⟨h0, h1, h2, h3⟩ := fields_NG_0 0x24000001 n g 0x12 1 (by decide) (by decide) (by decide)
  refine of_raw fun lit => ?_
  rw [show encodeWord (.yclr n g) = BitVec.ofNat 32 (encNG 0x24000001 n g) from rfl]
  generalize BitVec.ofNat 32 (encNG 0x24000001 n g) = w at *
  rw [raw_12 h0]
  unfold decodeMajor12
  rw [h1]
  rw [h2, h3]
  rfl

theorem ywait (n : BitVec 6) (g : BitVec 3) : Statement (.ywait n g) := by
  obtain ⟨h0, h1, h2, h3⟩ := fields_NG_0 0x24000002 n g 0x12 2 (by decide) (by decide) (by decide)
  refine of_raw fun lit => ?_
  rw [show encodeWord (.ywait n g) = BitVec.ofNat 32 (encNG 0x24000002 n g) from rfl]
  generalize BitVec.ofNat 32 (encNG 0x24000002 n g) = w at *
  rw [raw_12 h0]
  unfold decodeMajor12
  rw [h1]
  rw [h2, h3]
  rfl

theorem ywaitc (n : BitVec 6) (g : BitVec 3) : Statement (.ywaitc n g) := by
  obtain ⟨h0, h1, h2, h3⟩ := fields_NG_0 0x24000003 n g 0x12 3 (by decide) (by decide) (by decide)
  refine of_raw fun lit => ?_
  rw [show encodeWord (.ywaitc n g) = BitVec.ofNat 32 (encNG 0x24000003 n g) from rfl]
  generalize BitVec.ofNat 32 (encNG 0x24000003 n g) = w at *
  rw [raw_12 h0]
  unfold decodeMajor12
  rw [h1]
  rw [h2, h3]
  rfl

theorem ytas (d : BitVec 6) (n : BitVec 6) (g : BitVec 3) : Statement (.ytas d n g) := by
  obtain ⟨h0, h1, h2, h3, h4⟩ := fields_DNG_0 0x24000004 d n g 0x12 4 (by decide) (by decide) (by decide)
  refine of_raw fun lit => ?_
  rw [show encodeWord (.ytas d n g) = BitVec.ofNat 32 (encDNG 0x24000004 d n g) from rfl]
  generalize BitVec.ofNat 32 (encDNG 0x24000004 d n g) = w at *
  rw [raw_12 h0]
  unfold decodeMajor12
  rw [h1]
  rw [h2, h3, h4]
  rfl

theorem yrd (d : BitVec 6) (g : BitVec 3) : Statement (.yrd d g) := by
  obtain ⟨h0, h1, h2, h3⟩ := fields_DG_0 0x24000005 d g 0x12 5 (by decide) (by decide) (by decide)
  refine of_raw fun lit => ?_
  rw [show encodeWord (.yrd d g) = BitVec.ofNat 32 (encDG 0x24000005 d g) from rfl]
  generalize BitVec.ofNat 32 (encDG 0x24000005 d g) = w at *
  rw [raw_12 h0]
  unfold decodeMajor12
  rw [h1]
  rw [h2, h3]
  rfl

theorem tkpush (p : BitVec 6) (g : BitVec 3) : Statement (.tkpush p g) := by
  obtain ⟨h0, h1, h2, h3⟩ := fields_PG_0 0x26000000 p g 0x13 0 (by decide) (by decide) (by decide)
  refine of_raw fun lit => ?_
  rw [show encodeWord (.tkpush p g) = BitVec.ofNat 32 (encPG 0x26000000 p g) from rfl]
  generalize BitVec.ofNat 32 (encPG 0x26000000 p g) = w at *
  rw [raw_13 h0]
  unfold decodeMajor13
  rw [h1]
  rw [h2, h3]
  rfl

theorem tkwait (p : BitVec 6) (g : BitVec 3) : Statement (.tkwait p g) := by
  obtain ⟨h0, h1, h2, h3⟩ := fields_PG_0 0x26000001 p g 0x13 1 (by decide) (by decide) (by decide)
  refine of_raw fun lit => ?_
  rw [show encodeWord (.tkwait p g) = BitVec.ofNat 32 (encPG 0x26000001 p g) from rfl]
  generalize BitVec.ofNat 32 (encPG 0x26000001 p g) = w at *
  rw [raw_13 h0]
  unfold decodeMajor13
  rw [h1]
  rw [h2, h3]
  rfl

theorem tkcnt (d : BitVec 6) (p : BitVec 6) (g : BitVec 3) : Statement (.tkcnt d p g) := by
  obtain ⟨h0, h1, h2, h3, h4⟩ := fields_DPG_0 0x26000002 d p g 0x13 2 (by decide) (by decide) (by decide)
  refine of_raw fun lit => ?_
  rw [show encodeWord (.tkcnt d p g) = BitVec.ofNat 32 (encDPG 0x26000002 d p g) from rfl]
  generalize BitVec.ofNat 32 (encDPG 0x26000002 d p g) = w at *
  rw [raw_13 h0]
  unfold decodeMajor13
  rw [h1]
  rw [h2, h3, h4]
  rfl

theorem rset (a : BitVec 6) (b : BitVec 6) (g : BitVec 3) : Statement (.rset a b g) := by
  obtain ⟨h0, h1, h2, h3, h4⟩ := fields_ABG_0 0x28000000 a b g 0x14 0 (by decide) (by decide) (by decide)
  refine of_raw fun lit => ?_
  rw [show encodeWord (.rset a b g) = BitVec.ofNat 32 (encABG 0x28000000 a b g) from rfl]
  generalize BitVec.ofNat 32 (encABG 0x28000000 a b g) = w at *
  rw [raw_14 h0]
  unfold decodeMajor14
  rw [h1]
  rw [h2, h3, h4]
  rfl

theorem rnext (d : BitVec 6) (f : BitVec 6) (g : BitVec 3) : Statement (.rnext d f g) := by
  obtain ⟨h0, h1, h2, h3, h4⟩ := fields_DFG_0 0x28000001 d f g 0x14 1 (by decide) (by decide) (by decide)
  refine of_raw fun lit => ?_
  rw [show encodeWord (.rnext d f g) = BitVec.ofNat 32 (encDFG 0x28000001 d f g) from rfl]
  generalize BitVec.ofNat 32 (encDFG 0x28000001 d f g) = w at *
  rw [raw_14 h0]
  unfold decodeMajor14
  rw [h1]
  rw [h2, h3, h4]
  rfl

theorem rsteal (r : BitVec 6) (g : BitVec 3) : Statement (.rsteal r g) := by
  obtain ⟨h0, h1, h2, h3⟩ := fields_RG_0 0x28000002 r g 0x14 2 (by decide) (by decide) (by decide)
  refine of_raw fun lit => ?_
  rw [show encodeWord (.rsteal r g) = BitVec.ofNat 32 (encRG 0x28000002 r g) from rfl]
  generalize BitVec.ofNat 32 (encRG 0x28000002 r g) = w at *
  rw [raw_14 h0]
  unfold decodeMajor14
  rw [h1]
  rw [h2, h3]
  rfl

theorem rstat (d : BitVec 6) (g : BitVec 3) : Statement (.rstat d g) := by
  obtain ⟨h0, h1, h2, h3⟩ := fields_DG_0 0x28000003 d g 0x14 3 (by decide) (by decide) (by decide)
  refine of_raw fun lit => ?_
  rw [show encodeWord (.rstat d g) = BitVec.ofNat 32 (encDG 0x28000003 d g) from rfl]
  generalize BitVec.ofNat 32 (encDG 0x28000003 d g) = w at *
  rw [raw_14 h0]
  unfold decodeMajor14
  rw [h1]
  rw [h2, h3]
  rfl

theorem faddF64 (d : BitVec 6) (a : BitVec 6) (b : BitVec 6) (g : BitVec 3) : Statement (.faddF64 d a b g) := by
  obtain ⟨h0, h1, h2, h3, h4, h5⟩ := fields_DABG_0 0x2A000000 d a b g 0x15 0 (by decide) (by decide) (by decide)
  refine of_raw fun lit => ?_
  rw [show encodeWord (.faddF64 d a b g) = BitVec.ofNat 32 (encDABG 0x2A000000 d a b g) from rfl]
  generalize BitVec.ofNat 32 (encDABG 0x2A000000 d a b g) = w at *
  rw [raw_15 h0]
  unfold decodeMajor15
  rw [h1]
  rw [h2, h3, h4, h5]
  rfl

theorem fsubF64 (d : BitVec 6) (a : BitVec 6) (b : BitVec 6) (g : BitVec 3) : Statement (.fsubF64 d a b g) := by
  obtain ⟨h0, h1, h2, h3, h4, h5⟩ := fields_DABG_0 0x2A000001 d a b g 0x15 1 (by decide) (by decide) (by decide)
  refine of_raw fun lit => ?_
  rw [show encodeWord (.fsubF64 d a b g) = BitVec.ofNat 32 (encDABG 0x2A000001 d a b g) from rfl]
  generalize BitVec.ofNat 32 (encDABG 0x2A000001 d a b g) = w at *
  rw [raw_15 h0]
  unfold decodeMajor15
  rw [h1]
  rw [h2, h3, h4, h5]
  rfl

theorem fmulF64 (d : BitVec 6) (a : BitVec 6) (b : BitVec 6) (g : BitVec 3) : Statement (.fmulF64 d a b g) := by
  obtain ⟨h0, h1, h2, h3, h4, h5⟩ := fields_DABG_0 0x2A000002 d a b g 0x15 2 (by decide) (by decide) (by decide)
  refine of_raw fun lit => ?_
  rw [show encodeWord (.fmulF64 d a b g) = BitVec.ofNat 32 (encDABG 0x2A000002 d a b g) from rfl]
  generalize BitVec.ofNat 32 (encDABG 0x2A000002 d a b g) = w at *
  rw [raw_15 h0]
  unfold decodeMajor15
  rw [h1]
  rw [h2, h3, h4, h5]
  rfl

theorem fdivF64 (d : BitVec 6) (a : BitVec 6) (b : BitVec 6) (g : BitVec 3) : Statement (.fdivF64 d a b g) := by
  obtain ⟨h0, h1, h2, h3, h4, h5⟩ := fields_DABG_0 0x2A000003 d a b g 0x15 3 (by decide) (by decide) (by decide)
  refine of_raw fun lit => ?_
  rw [show encodeWord (.fdivF64 d a b g) = BitVec.ofNat 32 (encDABG 0x2A000003 d a b g) from rfl]
  generalize BitVec.ofNat 32 (encDABG 0x2A000003 d a b g) = w at *
  rw [raw_15 h0]
  unfold decodeMajor15
  rw [h1]
  rw [h2, h3, h4, h5]
  rfl

theorem fsqrtF64 (d : BitVec 6) (a : BitVec 6) (g : BitVec 3) : Statement (.fsqrtF64 d a g) := by
  obtain ⟨h0, h1, h2, h3, h4⟩ := fields_DAG_0 0x2A000004 d a g 0x15 4 (by decide) (by decide) (by decide)
  refine of_raw fun lit => ?_
  rw [show encodeWord (.fsqrtF64 d a g) = BitVec.ofNat 32 (encDAG 0x2A000004 d a g) from rfl]
  generalize BitVec.ofNat 32 (encDAG 0x2A000004 d a g) = w at *
  rw [raw_15 h0]
  unfold decodeMajor15
  rw [h1]
  rw [h2, h3, h4]
  rfl

theorem fminF64 (d : BitVec 6) (a : BitVec 6) (b : BitVec 6) (g : BitVec 3) : Statement (.fminF64 d a b g) := by
  obtain ⟨h0, h1, h2, h3, h4, h5⟩ := fields_DABG_0 0x2A000005 d a b g 0x15 5 (by decide) (by decide) (by decide)
  refine of_raw fun lit => ?_
  rw [show encodeWord (.fminF64 d a b g) = BitVec.ofNat 32 (encDABG 0x2A000005 d a b g) from rfl]
  generalize BitVec.ofNat 32 (encDABG 0x2A000005 d a b g) = w at *
  rw [raw_15 h0]
  unfold decodeMajor15
  rw [h1]
  rw [h2, h3, h4, h5]
  rfl

theorem fmaxF64 (d : BitVec 6) (a : BitVec 6) (b : BitVec 6) (g : BitVec 3) : Statement (.fmaxF64 d a b g) := by
  obtain ⟨h0, h1, h2, h3, h4, h5⟩ := fields_DABG_0 0x2A000006 d a b g 0x15 6 (by decide) (by decide) (by decide)
  refine of_raw fun lit => ?_
  rw [show encodeWord (.fmaxF64 d a b g) = BitVec.ofNat 32 (encDABG 0x2A000006 d a b g) from rfl]
  generalize BitVec.ofNat 32 (encDABG 0x2A000006 d a b g) = w at *
  rw [raw_15 h0]
  unfold decodeMajor15
  rw [h1]
  rw [h2, h3, h4, h5]
  rfl

theorem fmacF64 (d : BitVec 6) (a : BitVec 6) (b : BitVec 6) (g : BitVec 3) : Statement (.fmacF64 d a b g) := by
  obtain ⟨h0, h1, h2, h3, h4, h5⟩ := fields_DABG_0 0x2A000007 d a b g 0x15 7 (by decide) (by decide) (by decide)
  refine of_raw fun lit => ?_
  rw [show encodeWord (.fmacF64 d a b g) = BitVec.ofNat 32 (encDABG 0x2A000007 d a b g) from rfl]
  generalize BitVec.ofNat 32 (encDABG 0x2A000007 d a b g) = w at *
  rw [raw_15 h0]
  unfold decodeMajor15
  rw [h1]
  rw [h2, h3, h4, h5]
  rfl

theorem fcmpEqF64 (d : BitVec 6) (a : BitVec 6) (b : BitVec 6) (g : BitVec 3) : Statement (.fcmpEqF64 d a b g) := by
  obtain ⟨h0, h1, h2, h3, h4, h5⟩ := fields_DABG_0 0x2A000008 d a b g 0x15 8 (by decide) (by decide) (by decide)
  refine of_raw fun lit => ?_
  rw [show encodeWord (.fcmpEqF64 d a b g) = BitVec.ofNat 32 (encDABG 0x2A000008 d a b g) from rfl]
  generalize BitVec.ofNat 32 (encDABG 0x2A000008 d a b g) = w at *
  rw [raw_15 h0]
  unfold decodeMajor15
  rw [h1]
  rw [h2, h3, h4, h5]
  rfl

theorem fcmpLtF64 (d : BitVec 6) (a : BitVec 6) (b : BitVec 6) (g : BitVec 3) : Statement (.fcmpLtF64 d a b g) := by
  obtain ⟨h0, h1, h2, h3, h4, h5⟩ := fields_DABG_0 0x2A000009 d a b g 0x15 9 (by decide) (by decide) (by decide)
  refine of_raw fun lit => ?_
  rw [show encodeWord (.fcmpLtF64 d a b g) = BitVec.ofNat 32 (encDABG 0x2A000009 d a b g) from rfl]
  generalize BitVec.ofNat 32 (encDABG 0x2A000009 d a b g) = w at *
  rw [raw_15 h0]
  unfold decodeMajor15
  rw [h1]
  rw [h2, h3, h4, h5]
  rfl

theorem fcmpLeF64 (d : BitVec 6) (a : BitVec 6) (b : BitVec 6) (g : BitVec 3) : Statement (.fcmpLeF64 d a b g) := by
  obtain ⟨h0, h1, h2, h3, h4, h5⟩ := fields_DABG_0 0x2A00000A d a b g 0x15 10 (by decide) (by decide) (by decide)
  refine of_raw fun lit => ?_
  rw [show encodeWord (.fcmpLeF64 d a b g) = BitVec.ofNat 32 (encDABG 0x2A00000A d a b g) from rfl]
  generalize BitVec.ofNat 32 (encDABG 0x2A00000A d a b g) = w at *
  rw [raw_15 h0]
  unfold decodeMajor15
  rw [h1]
  rw [h2, h3, h4, h5]
  rfl

theorem scvtF64F32 (d : BitVec 6) (a : BitVec 6) (m : BitVec 3) (g : BitVec 3) : Statement (.scvtF64F32 d a m g) := by
  obtain ⟨h0, h1, h2, h3, h4, h5, h6⟩ := fields_DAMG_0_10 0x2A00000B d a m g 0x15 11 0 (by decide) (by decide) (by decide) (by decide)
  refine of_raw fun lit => ?_
  rw [show encodeWord (.scvtF64F32 d a m g) = BitVec.ofNat 32 (encDAMG 0x2A00000B d a m g) from rfl]
  generalize BitVec.ofNat 32 (encDAMG 0x2A00000B d a m g) = w at *
  rw [decodeCvt15_row h0 h1]
  unfold decodeCvt15
  rw [h2]
  rw [h3, h4, h5, h6]
  rfl

theorem scvtF64I64 (d : BitVec 6) (a : BitVec 6) (m : BitVec 3) (g : BitVec 3) : Statement (.scvtF64I64 d a m g) := by
  obtain ⟨h0, h1, h2, h3, h4, h5, h6⟩ := fields_DAMG_0_10 0x2A00040B d a m g 0x15 11 1 (by decide) (by decide) (by decide) (by decide)
  refine of_raw fun lit => ?_
  rw [show encodeWord (.scvtF64I64 d a m g) = BitVec.ofNat 32 (encDAMG 0x2A00040B d a m g) from rfl]
  generalize BitVec.ofNat 32 (encDAMG 0x2A00040B d a m g) = w at *
  rw [decodeCvt15_row h0 h1]
  unfold decodeCvt15
  rw [h2]
  rw [h3, h4, h5, h6]
  rfl

theorem scvtF64Ui64 (d : BitVec 6) (a : BitVec 6) (m : BitVec 3) (g : BitVec 3) : Statement (.scvtF64Ui64 d a m g) := by
  obtain ⟨h0, h1, h2, h3, h4, h5, h6⟩ := fields_DAMG_0_10 0x2A00080B d a m g 0x15 11 2 (by decide) (by decide) (by decide) (by decide)
  refine of_raw fun lit => ?_
  rw [show encodeWord (.scvtF64Ui64 d a m g) = BitVec.ofNat 32 (encDAMG 0x2A00080B d a m g) from rfl]
  generalize BitVec.ofNat 32 (encDAMG 0x2A00080B d a m g) = w at *
  rw [decodeCvt15_row h0 h1]
  unfold decodeCvt15
  rw [h2]
  rw [h3, h4, h5, h6]
  rfl

theorem scvtI64F64 (d : BitVec 6) (a : BitVec 6) (m : BitVec 3) (g : BitVec 3) : Statement (.scvtI64F64 d a m g) := by
  obtain ⟨h0, h1, h2, h3, h4, h5, h6⟩ := fields_DAMG_0_10 0x2A000C0B d a m g 0x15 11 3 (by decide) (by decide) (by decide) (by decide)
  refine of_raw fun lit => ?_
  rw [show encodeWord (.scvtI64F64 d a m g) = BitVec.ofNat 32 (encDAMG 0x2A000C0B d a m g) from rfl]
  generalize BitVec.ofNat 32 (encDAMG 0x2A000C0B d a m g) = w at *
  rw [decodeCvt15_row h0 h1]
  unfold decodeCvt15
  rw [h2]
  rw [h3, h4, h5, h6]
  rfl

theorem scvtUi64F64 (d : BitVec 6) (a : BitVec 6) (m : BitVec 3) (g : BitVec 3) : Statement (.scvtUi64F64 d a m g) := by
  obtain ⟨h0, h1, h2, h3, h4, h5, h6⟩ := fields_DAMG_0_10 0x2A00100B d a m g 0x15 11 4 (by decide) (by decide) (by decide) (by decide)
  refine of_raw fun lit => ?_
  rw [show encodeWord (.scvtUi64F64 d a m g) = BitVec.ofNat 32 (encDAMG 0x2A00100B d a m g) from rfl]
  generalize BitVec.ofNat 32 (encDAMG 0x2A00100B d a m g) = w at *
  rw [decodeCvt15_row h0 h1]
  unfold decodeCvt15
  rw [h2]
  rw [h3, h4, h5, h6]
  rfl

theorem scvtI32F64 (d : BitVec 6) (a : BitVec 6) (m : BitVec 3) (g : BitVec 3) : Statement (.scvtI32F64 d a m g) := by
  obtain ⟨h0, h1, h2, h3, h4, h5, h6⟩ := fields_DAMG_0_10 0x2A00140B d a m g 0x15 11 5 (by decide) (by decide) (by decide) (by decide)
  refine of_raw fun lit => ?_
  rw [show encodeWord (.scvtI32F64 d a m g) = BitVec.ofNat 32 (encDAMG 0x2A00140B d a m g) from rfl]
  generalize BitVec.ofNat 32 (encDAMG 0x2A00140B d a m g) = w at *
  rw [decodeCvt15_row h0 h1]
  unfold decodeCvt15
  rw [h2]
  rw [h3, h4, h5, h6]
  rfl

theorem fkindF64 (d : BitVec 6) (a : BitVec 6) (g : BitVec 3) : Statement (.fkindF64 d a g) := by
  obtain ⟨h0, h1, h2, h3, h4⟩ := fields_DAG_0 0x2A00000C d a g 0x15 12 (by decide) (by decide) (by decide)
  refine of_raw fun lit => ?_
  rw [show encodeWord (.fkindF64 d a g) = BitVec.ofNat 32 (encDAG 0x2A00000C d a g) from rfl]
  generalize BitVec.ofNat 32 (encDAG 0x2A00000C d a g) = w at *
  rw [raw_15 h0]
  unfold decodeMajor15
  rw [h1]
  rw [h2, h3, h4]
  rfl

theorem fabsF64 (d : BitVec 6) (a : BitVec 6) (g : BitVec 3) : Statement (.fabsF64 d a g) := by
  obtain ⟨h0, h1, h2, h3, h4⟩ := fields_DAG_0 0x2A00000D d a g 0x15 13 (by decide) (by decide) (by decide)
  refine of_raw fun lit => ?_
  rw [show encodeWord (.fabsF64 d a g) = BitVec.ofNat 32 (encDAG 0x2A00000D d a g) from rfl]
  generalize BitVec.ofNat 32 (encDAG 0x2A00000D d a g) = w at *
  rw [raw_15 h0]
  unfold decodeMajor15
  rw [h1]
  rw [h2, h3, h4]
  rfl

theorem fnegF64 (d : BitVec 6) (a : BitVec 6) (g : BitVec 3) : Statement (.fnegF64 d a g) := by
  obtain ⟨h0, h1, h2, h3, h4⟩ := fields_DAG_0 0x2A00000E d a g 0x15 14 (by decide) (by decide) (by decide)
  refine of_raw fun lit => ?_
  rw [show encodeWord (.fnegF64 d a g) = BitVec.ofNat 32 (encDAG 0x2A00000E d a g) from rfl]
  generalize BitVec.ofNat 32 (encDAG 0x2A00000E d a g) = w at *
  rw [raw_15 h0]
  unfold decodeMajor15
  rw [h1]
  rw [h2, h3, h4]
  rfl

theorem fmsgnF64 (d : BitVec 6) (a : BitVec 6) (b : BitVec 6) (g : BitVec 3) : Statement (.fmsgnF64 d a b g) := by
  obtain ⟨h0, h1, h2, h3, h4, h5⟩ := fields_DABG_0 0x2A00000F d a b g 0x15 15 (by decide) (by decide) (by decide)
  refine of_raw fun lit => ?_
  rw [show encodeWord (.fmsgnF64 d a b g) = BitVec.ofNat 32 (encDABG 0x2A00000F d a b g) from rfl]
  generalize BitVec.ofNat 32 (encDABG 0x2A00000F d a b g) = w at *
  rw [raw_15 h0]
  unfold decodeMajor15
  rw [h1]
  rw [h2, h3, h4, h5]
  rfl

theorem faddF32 (d : BitVec 6) (a : BitVec 6) (b : BitVec 6) (g : BitVec 3) : Statement (.faddF32 d a b g) := by
  obtain ⟨h0, h1, h2, h3, h4, h5⟩ := fields_DABG_0 0x2C000000 d a b g 0x16 0 (by decide) (by decide) (by decide)
  refine of_raw fun lit => ?_
  rw [show encodeWord (.faddF32 d a b g) = BitVec.ofNat 32 (encDABG 0x2C000000 d a b g) from rfl]
  generalize BitVec.ofNat 32 (encDABG 0x2C000000 d a b g) = w at *
  rw [raw_16 h0]
  unfold decodeMajor16
  rw [h1]
  rw [h2, h3, h4, h5]
  rfl

theorem fsubF32 (d : BitVec 6) (a : BitVec 6) (b : BitVec 6) (g : BitVec 3) : Statement (.fsubF32 d a b g) := by
  obtain ⟨h0, h1, h2, h3, h4, h5⟩ := fields_DABG_0 0x2C000001 d a b g 0x16 1 (by decide) (by decide) (by decide)
  refine of_raw fun lit => ?_
  rw [show encodeWord (.fsubF32 d a b g) = BitVec.ofNat 32 (encDABG 0x2C000001 d a b g) from rfl]
  generalize BitVec.ofNat 32 (encDABG 0x2C000001 d a b g) = w at *
  rw [raw_16 h0]
  unfold decodeMajor16
  rw [h1]
  rw [h2, h3, h4, h5]
  rfl

theorem fmulF32 (d : BitVec 6) (a : BitVec 6) (b : BitVec 6) (g : BitVec 3) : Statement (.fmulF32 d a b g) := by
  obtain ⟨h0, h1, h2, h3, h4, h5⟩ := fields_DABG_0 0x2C000002 d a b g 0x16 2 (by decide) (by decide) (by decide)
  refine of_raw fun lit => ?_
  rw [show encodeWord (.fmulF32 d a b g) = BitVec.ofNat 32 (encDABG 0x2C000002 d a b g) from rfl]
  generalize BitVec.ofNat 32 (encDABG 0x2C000002 d a b g) = w at *
  rw [raw_16 h0]
  unfold decodeMajor16
  rw [h1]
  rw [h2, h3, h4, h5]
  rfl

theorem fdivF32 (d : BitVec 6) (a : BitVec 6) (b : BitVec 6) (g : BitVec 3) : Statement (.fdivF32 d a b g) := by
  obtain ⟨h0, h1, h2, h3, h4, h5⟩ := fields_DABG_0 0x2C000003 d a b g 0x16 3 (by decide) (by decide) (by decide)
  refine of_raw fun lit => ?_
  rw [show encodeWord (.fdivF32 d a b g) = BitVec.ofNat 32 (encDABG 0x2C000003 d a b g) from rfl]
  generalize BitVec.ofNat 32 (encDABG 0x2C000003 d a b g) = w at *
  rw [raw_16 h0]
  unfold decodeMajor16
  rw [h1]
  rw [h2, h3, h4, h5]
  rfl

theorem fsqrtF32 (d : BitVec 6) (a : BitVec 6) (g : BitVec 3) : Statement (.fsqrtF32 d a g) := by
  obtain ⟨h0, h1, h2, h3, h4⟩ := fields_DAG_0 0x2C000004 d a g 0x16 4 (by decide) (by decide) (by decide)
  refine of_raw fun lit => ?_
  rw [show encodeWord (.fsqrtF32 d a g) = BitVec.ofNat 32 (encDAG 0x2C000004 d a g) from rfl]
  generalize BitVec.ofNat 32 (encDAG 0x2C000004 d a g) = w at *
  rw [raw_16 h0]
  unfold decodeMajor16
  rw [h1]
  rw [h2, h3, h4]
  rfl

theorem fminF32 (d : BitVec 6) (a : BitVec 6) (b : BitVec 6) (g : BitVec 3) : Statement (.fminF32 d a b g) := by
  obtain ⟨h0, h1, h2, h3, h4, h5⟩ := fields_DABG_0 0x2C000005 d a b g 0x16 5 (by decide) (by decide) (by decide)
  refine of_raw fun lit => ?_
  rw [show encodeWord (.fminF32 d a b g) = BitVec.ofNat 32 (encDABG 0x2C000005 d a b g) from rfl]
  generalize BitVec.ofNat 32 (encDABG 0x2C000005 d a b g) = w at *
  rw [raw_16 h0]
  unfold decodeMajor16
  rw [h1]
  rw [h2, h3, h4, h5]
  rfl

theorem fmaxF32 (d : BitVec 6) (a : BitVec 6) (b : BitVec 6) (g : BitVec 3) : Statement (.fmaxF32 d a b g) := by
  obtain ⟨h0, h1, h2, h3, h4, h5⟩ := fields_DABG_0 0x2C000006 d a b g 0x16 6 (by decide) (by decide) (by decide)
  refine of_raw fun lit => ?_
  rw [show encodeWord (.fmaxF32 d a b g) = BitVec.ofNat 32 (encDABG 0x2C000006 d a b g) from rfl]
  generalize BitVec.ofNat 32 (encDABG 0x2C000006 d a b g) = w at *
  rw [raw_16 h0]
  unfold decodeMajor16
  rw [h1]
  rw [h2, h3, h4, h5]
  rfl

theorem fmacF32 (d : BitVec 6) (a : BitVec 6) (b : BitVec 6) (g : BitVec 3) : Statement (.fmacF32 d a b g) := by
  obtain ⟨h0, h1, h2, h3, h4, h5⟩ := fields_DABG_0 0x2C000007 d a b g 0x16 7 (by decide) (by decide) (by decide)
  refine of_raw fun lit => ?_
  rw [show encodeWord (.fmacF32 d a b g) = BitVec.ofNat 32 (encDABG 0x2C000007 d a b g) from rfl]
  generalize BitVec.ofNat 32 (encDABG 0x2C000007 d a b g) = w at *
  rw [raw_16 h0]
  unfold decodeMajor16
  rw [h1]
  rw [h2, h3, h4, h5]
  rfl

theorem fcmpEqF32 (d : BitVec 6) (a : BitVec 6) (b : BitVec 6) (g : BitVec 3) : Statement (.fcmpEqF32 d a b g) := by
  obtain ⟨h0, h1, h2, h3, h4, h5⟩ := fields_DABG_0 0x2C000008 d a b g 0x16 8 (by decide) (by decide) (by decide)
  refine of_raw fun lit => ?_
  rw [show encodeWord (.fcmpEqF32 d a b g) = BitVec.ofNat 32 (encDABG 0x2C000008 d a b g) from rfl]
  generalize BitVec.ofNat 32 (encDABG 0x2C000008 d a b g) = w at *
  rw [raw_16 h0]
  unfold decodeMajor16
  rw [h1]
  rw [h2, h3, h4, h5]
  rfl

theorem fcmpLtF32 (d : BitVec 6) (a : BitVec 6) (b : BitVec 6) (g : BitVec 3) : Statement (.fcmpLtF32 d a b g) := by
  obtain ⟨h0, h1, h2, h3, h4, h5⟩ := fields_DABG_0 0x2C000009 d a b g 0x16 9 (by decide) (by decide) (by decide)
  refine of_raw fun lit => ?_
  rw [show encodeWord (.fcmpLtF32 d a b g) = BitVec.ofNat 32 (encDABG 0x2C000009 d a b g) from rfl]
  generalize BitVec.ofNat 32 (encDABG 0x2C000009 d a b g) = w at *
  rw [raw_16 h0]
  unfold decodeMajor16
  rw [h1]
  rw [h2, h3, h4, h5]
  rfl

theorem fcmpLeF32 (d : BitVec 6) (a : BitVec 6) (b : BitVec 6) (g : BitVec 3) : Statement (.fcmpLeF32 d a b g) := by
  obtain ⟨h0, h1, h2, h3, h4, h5⟩ := fields_DABG_0 0x2C00000A d a b g 0x16 10 (by decide) (by decide) (by decide)
  refine of_raw fun lit => ?_
  rw [show encodeWord (.fcmpLeF32 d a b g) = BitVec.ofNat 32 (encDABG 0x2C00000A d a b g) from rfl]
  generalize BitVec.ofNat 32 (encDABG 0x2C00000A d a b g) = w at *
  rw [raw_16 h0]
  unfold decodeMajor16
  rw [h1]
  rw [h2, h3, h4, h5]
  rfl

theorem scvtF32F64 (d : BitVec 6) (a : BitVec 6) (m : BitVec 3) (g : BitVec 3) : Statement (.scvtF32F64 d a m g) := by
  obtain ⟨h0, h1, h2, h3, h4, h5, h6⟩ := fields_DAMG_0_10 0x2C00000B d a m g 0x16 11 0 (by decide) (by decide) (by decide) (by decide)
  refine of_raw fun lit => ?_
  rw [show encodeWord (.scvtF32F64 d a m g) = BitVec.ofNat 32 (encDAMG 0x2C00000B d a m g) from rfl]
  generalize BitVec.ofNat 32 (encDAMG 0x2C00000B d a m g) = w at *
  rw [decodeCvt16_row h0 h1]
  unfold decodeCvt16
  rw [h2]
  rw [h3, h4, h5, h6]
  rfl

theorem scvtF32I64 (d : BitVec 6) (a : BitVec 6) (m : BitVec 3) (g : BitVec 3) : Statement (.scvtF32I64 d a m g) := by
  obtain ⟨h0, h1, h2, h3, h4, h5, h6⟩ := fields_DAMG_0_10 0x2C00040B d a m g 0x16 11 1 (by decide) (by decide) (by decide) (by decide)
  refine of_raw fun lit => ?_
  rw [show encodeWord (.scvtF32I64 d a m g) = BitVec.ofNat 32 (encDAMG 0x2C00040B d a m g) from rfl]
  generalize BitVec.ofNat 32 (encDAMG 0x2C00040B d a m g) = w at *
  rw [decodeCvt16_row h0 h1]
  unfold decodeCvt16
  rw [h2]
  rw [h3, h4, h5, h6]
  rfl

theorem scvtF32Ui64 (d : BitVec 6) (a : BitVec 6) (m : BitVec 3) (g : BitVec 3) : Statement (.scvtF32Ui64 d a m g) := by
  obtain ⟨h0, h1, h2, h3, h4, h5, h6⟩ := fields_DAMG_0_10 0x2C00080B d a m g 0x16 11 2 (by decide) (by decide) (by decide) (by decide)
  refine of_raw fun lit => ?_
  rw [show encodeWord (.scvtF32Ui64 d a m g) = BitVec.ofNat 32 (encDAMG 0x2C00080B d a m g) from rfl]
  generalize BitVec.ofNat 32 (encDAMG 0x2C00080B d a m g) = w at *
  rw [decodeCvt16_row h0 h1]
  unfold decodeCvt16
  rw [h2]
  rw [h3, h4, h5, h6]
  rfl

theorem scvtI64F32 (d : BitVec 6) (a : BitVec 6) (m : BitVec 3) (g : BitVec 3) : Statement (.scvtI64F32 d a m g) := by
  obtain ⟨h0, h1, h2, h3, h4, h5, h6⟩ := fields_DAMG_0_10 0x2C000C0B d a m g 0x16 11 3 (by decide) (by decide) (by decide) (by decide)
  refine of_raw fun lit => ?_
  rw [show encodeWord (.scvtI64F32 d a m g) = BitVec.ofNat 32 (encDAMG 0x2C000C0B d a m g) from rfl]
  generalize BitVec.ofNat 32 (encDAMG 0x2C000C0B d a m g) = w at *
  rw [decodeCvt16_row h0 h1]
  unfold decodeCvt16
  rw [h2]
  rw [h3, h4, h5, h6]
  rfl

theorem scvtUi64F32 (d : BitVec 6) (a : BitVec 6) (m : BitVec 3) (g : BitVec 3) : Statement (.scvtUi64F32 d a m g) := by
  obtain ⟨h0, h1, h2, h3, h4, h5, h6⟩ := fields_DAMG_0_10 0x2C00100B d a m g 0x16 11 4 (by decide) (by decide) (by decide) (by decide)
  refine of_raw fun lit => ?_
  rw [show encodeWord (.scvtUi64F32 d a m g) = BitVec.ofNat 32 (encDAMG 0x2C00100B d a m g) from rfl]
  generalize BitVec.ofNat 32 (encDAMG 0x2C00100B d a m g) = w at *
  rw [decodeCvt16_row h0 h1]
  unfold decodeCvt16
  rw [h2]
  rw [h3, h4, h5, h6]
  rfl

theorem scvtI32F32 (d : BitVec 6) (a : BitVec 6) (m : BitVec 3) (g : BitVec 3) : Statement (.scvtI32F32 d a m g) := by
  obtain ⟨h0, h1, h2, h3, h4, h5, h6⟩ := fields_DAMG_0_10 0x2C00140B d a m g 0x16 11 5 (by decide) (by decide) (by decide) (by decide)
  refine of_raw fun lit => ?_
  rw [show encodeWord (.scvtI32F32 d a m g) = BitVec.ofNat 32 (encDAMG 0x2C00140B d a m g) from rfl]
  generalize BitVec.ofNat 32 (encDAMG 0x2C00140B d a m g) = w at *
  rw [decodeCvt16_row h0 h1]
  unfold decodeCvt16
  rw [h2]
  rw [h3, h4, h5, h6]
  rfl

theorem fkindF32 (d : BitVec 6) (a : BitVec 6) (g : BitVec 3) : Statement (.fkindF32 d a g) := by
  obtain ⟨h0, h1, h2, h3, h4⟩ := fields_DAG_0 0x2C00000C d a g 0x16 12 (by decide) (by decide) (by decide)
  refine of_raw fun lit => ?_
  rw [show encodeWord (.fkindF32 d a g) = BitVec.ofNat 32 (encDAG 0x2C00000C d a g) from rfl]
  generalize BitVec.ofNat 32 (encDAG 0x2C00000C d a g) = w at *
  rw [raw_16 h0]
  unfold decodeMajor16
  rw [h1]
  rw [h2, h3, h4]
  rfl

theorem fabsF32 (d : BitVec 6) (a : BitVec 6) (g : BitVec 3) : Statement (.fabsF32 d a g) := by
  obtain ⟨h0, h1, h2, h3, h4⟩ := fields_DAG_0 0x2C00000D d a g 0x16 13 (by decide) (by decide) (by decide)
  refine of_raw fun lit => ?_
  rw [show encodeWord (.fabsF32 d a g) = BitVec.ofNat 32 (encDAG 0x2C00000D d a g) from rfl]
  generalize BitVec.ofNat 32 (encDAG 0x2C00000D d a g) = w at *
  rw [raw_16 h0]
  unfold decodeMajor16
  rw [h1]
  rw [h2, h3, h4]
  rfl

theorem fnegF32 (d : BitVec 6) (a : BitVec 6) (g : BitVec 3) : Statement (.fnegF32 d a g) := by
  obtain ⟨h0, h1, h2, h3, h4⟩ := fields_DAG_0 0x2C00000E d a g 0x16 14 (by decide) (by decide) (by decide)
  refine of_raw fun lit => ?_
  rw [show encodeWord (.fnegF32 d a g) = BitVec.ofNat 32 (encDAG 0x2C00000E d a g) from rfl]
  generalize BitVec.ofNat 32 (encDAG 0x2C00000E d a g) = w at *
  rw [raw_16 h0]
  unfold decodeMajor16
  rw [h1]
  rw [h2, h3, h4]
  rfl

theorem fmsgnF32 (d : BitVec 6) (a : BitVec 6) (b : BitVec 6) (g : BitVec 3) : Statement (.fmsgnF32 d a b g) := by
  obtain ⟨h0, h1, h2, h3, h4, h5⟩ := fields_DABG_0 0x2C00000F d a b g 0x16 15 (by decide) (by decide) (by decide)
  refine of_raw fun lit => ?_
  rw [show encodeWord (.fmsgnF32 d a b g) = BitVec.ofNat 32 (encDABG 0x2C00000F d a b g) from rfl]
  generalize BitVec.ofNat 32 (encDABG 0x2C00000F d a b g) = w at *
  rw [raw_16 h0]
  unfold decodeMajor16
  rw [h1]
  rw [h2, h3, h4, h5]
  rfl

theorem csrrd (d : BitVec 6) (c : BitVec 10) : Statement (.csrrd d c) := by
  refine of_form fun hf lit => ?_
  have hc : csrListed c = true := hf
  obtain ⟨h0, h1, h2, h3⟩ := fields_DC_10 0x2E000000 d c 0x17 0 rfl (by decide) (by decide)
  rw [show encodeWord (.csrrd d c) = BitVec.ofNat 32 (encDC 0x2E000000 d c) from rfl]
  generalize BitVec.ofNat 32 (encDC 0x2E000000 d c) = w at *
  rw [raw_17 h0]
  unfold decodeMajor17
  rw [h1, h2, h3, hc]
  rfl

theorem csrwr (d : BitVec 6) (a : BitVec 6) (c : BitVec 10) : Statement (.csrwr d a c) := by
  refine of_form fun hf lit => ?_
  have hc : csrListed c = true := hf
  obtain ⟨h0, h1, h2, h3, h4⟩ := fields_DAC_10 0x2E000400 d a c 0x17 1 rfl (by decide) (by decide)
  rw [show encodeWord (.csrwr d a c) = BitVec.ofNat 32 (encDAC 0x2E000400 d a c) from rfl]
  generalize BitVec.ofNat 32 (encDAC 0x2E000400 d a c) = w at *
  rw [raw_17 h0]
  unfold decodeMajor17
  rw [h1, h2, h3, h4, hc]
  rfl

theorem csrset (d : BitVec 6) (a : BitVec 6) (c : BitVec 10) : Statement (.csrset d a c) := by
  refine of_form fun hf lit => ?_
  have hc : csrListed c = true := hf
  obtain ⟨h0, h1, h2, h3, h4⟩ := fields_DAC_10 0x2E000800 d a c 0x17 2 rfl (by decide) (by decide)
  rw [show encodeWord (.csrset d a c) = BitVec.ofNat 32 (encDAC 0x2E000800 d a c) from rfl]
  generalize BitVec.ofNat 32 (encDAC 0x2E000800 d a c) = w at *
  rw [raw_17 h0]
  unfold decodeMajor17
  rw [h1, h2, h3, h4, hc]
  rfl

theorem csrclr (d : BitVec 6) (a : BitVec 6) (c : BitVec 10) : Statement (.csrclr d a c) := by
  refine of_form fun hf lit => ?_
  have hc : csrListed c = true := hf
  obtain ⟨h0, h1, h2, h3, h4⟩ := fields_DAC_10 0x2E000C00 d a c 0x17 3 rfl (by decide) (by decide)
  rw [show encodeWord (.csrclr d a c) = BitVec.ofNat 32 (encDAC 0x2E000C00 d a c) from rfl]
  generalize BitVec.ofNat 32 (encDAC 0x2E000C00 d a c) = w at *
  rw [raw_17 h0]
  unfold decodeMajor17
  rw [h1, h2, h3, h4, hc]
  rfl

theorem fork (d : BitVec 6) (a : BitVec 6) (b : BitVec 6) (g : BitVec 3) : Statement (.fork d a b g) := by
  obtain ⟨h0, h1, h2, h3, h4, h5⟩ := fields_DABG_0 0x30000000 d a b g 0x18 0 (by decide) (by decide) (by decide)
  refine of_raw fun lit => ?_
  rw [show encodeWord (.fork d a b g) = BitVec.ofNat 32 (encDABG 0x30000000 d a b g) from rfl]
  generalize BitVec.ofNat 32 (encDABG 0x30000000 d a b g) = w at *
  rw [raw_18 h0]
  unfold decodeMajor18
  rw [h1]
  rw [h2, h3, h4, h5]
  rfl

theorem join (o : BitVec 22) : Statement (.join o) := by
  obtain ⟨h0, h1⟩ := fields_O 0x32000000 o 0x19 (by decide) (by decide)
  refine of_raw fun lit => ?_
  rw [show encodeWord (.join o) = BitVec.ofNat 32 (encO 0x32000000 o) from rfl]
  generalize BitVec.ofNat 32 (encO 0x32000000 o) = w at *
  rw [raw_19 h0, h1]

theorem commit : Statement .commit := by
  obtain ⟨h0, h1⟩ := fields_st_0 0x34000000 0x1A 0 (by decide) (by decide) (by decide)
  refine of_raw fun lit => ?_
  rw [show encodeWord .commit = BitVec.ofNat 32 0x34000000 from rfl]
  generalize BitVec.ofNat 32 0x34000000 = w at *
  rw [raw_1A h0]
  unfold decodeMajor1A
  rw [h1]
  rfl

theorem commitD (a : BitVec 6) (b : BitVec 6) : Statement (.commitD a b) := by
  obtain ⟨h0, h1, h2, h3⟩ := fields_AB_0 0x34000001 a b 0x1A 1 (by decide) (by decide) (by decide)
  refine of_raw fun lit => ?_
  rw [show encodeWord (.commitD a b) = BitVec.ofNat 32 (encAB 0x34000001 a b) from rfl]
  generalize BitVec.ofNat 32 (encAB 0x34000001 a b) = w at *
  rw [raw_1A h0]
  unfold decodeMajor1A
  rw [h1]
  rw [h2, h3]
  rfl

theorem replay (g : BitVec 3) : Statement (.replay g) := by
  obtain ⟨h0, h1, h2⟩ := fields_G_0 0x34000002 g 0x1A 2 (by decide) (by decide) (by decide)
  refine of_raw fun lit => ?_
  rw [show encodeWord (.replay g) = BitVec.ofNat 32 (encG 0x34000002 g) from rfl]
  generalize BitVec.ofNat 32 (encG 0x34000002 g) = w at *
  rw [raw_1A h0]
  unfold decodeMajor1A
  rw [h1]
  rw [h2]
  rfl

theorem pset (d : BitVec 6) (a : BitVec 6) (g : BitVec 3) : Statement (.pset d a g) := by
  obtain ⟨h0, h1, h2, h3, h4⟩ := fields_DAG_0 0x34000003 d a g 0x1A 3 (by decide) (by decide) (by decide)
  refine of_raw fun lit => ?_
  rw [show encodeWord (.pset d a g) = BitVec.ofNat 32 (encDAG 0x34000003 d a g) from rfl]
  generalize BitVec.ofNat 32 (encDAG 0x34000003 d a g) = w at *
  rw [raw_1A h0]
  unfold decodeMajor1A
  rw [h1]
  rw [h2, h3, h4]
  rfl

theorem pclr (d : BitVec 6) (a : BitVec 6) (g : BitVec 3) : Statement (.pclr d a g) := by
  obtain ⟨h0, h1, h2, h3, h4⟩ := fields_DAG_0 0x34000004 d a g 0x1A 4 (by decide) (by decide) (by decide)
  refine of_raw fun lit => ?_
  rw [show encodeWord (.pclr d a g) = BitVec.ofNat 32 (encDAG 0x34000004 d a g) from rfl]
  generalize BitVec.ofNat 32 (encDAG 0x34000004 d a g) = w at *
  rw [raw_1A h0]
  unfold decodeMajor1A
  rw [h1]
  rw [h2, h3, h4]
  rfl

theorem ptest (d : BitVec 6) (a : BitVec 6) (g : BitVec 3) : Statement (.ptest d a g) := by
  obtain ⟨h0, h1, h2, h3, h4⟩ := fields_DAG_0 0x34000005 d a g 0x1A 5 (by decide) (by decide) (by decide)
  refine of_raw fun lit => ?_
  rw [show encodeWord (.ptest d a g) = BitVec.ofNat 32 (encDAG 0x34000005 d a g) from rfl]
  generalize BitVec.ofNat 32 (encDAG 0x34000005 d a g) = w at *
  rw [raw_1A h0]
  unfold decodeMajor1A
  rw [h1]
  rw [h2, h3, h4]
  rfl

theorem hinit (x : BitVec 6) (y : BitVec 6) (tk : Tk) : Statement (.hinit x y tk) := by
  obtain ⟨h0, h1, h2, h3, h4⟩ := fields_XYTk_8 0x36000000 x y tk 0x1B 0 (by decide) (by decide) (by decide)
  refine of_raw fun lit => ?_
  rw [show encodeWord (.hinit x y tk) = BitVec.ofNat 32 (encXYTk 0x36000000 x y tk) from rfl]
  generalize BitVec.ofNat 32 (encXYTk 0x36000000 x y tk) = w at *
  rw [raw_1B h0]
  unfold decodeMajor1B
  rw [h1]
  rw [h2, h3, h4]
  rfl

theorem harrive (x : BitVec 6) (y : BitVec 6) (tk : Tk) : Statement (.harrive x y tk) := by
  obtain ⟨h0, h1, h2, h3, h4⟩ := fields_XYTk_8 0x36000100 x y tk 0x1B 1 (by decide) (by decide) (by decide)
  refine of_raw fun lit => ?_
  rw [show encodeWord (.harrive x y tk) = BitVec.ofNat 32 (encXYTk 0x36000100 x y tk) from rfl]
  generalize BitVec.ofNat 32 (encXYTk 0x36000100 x y tk) = w at *
  rw [raw_1B h0]
  unfold decodeMajor1B
  rw [h1]
  rw [h2, h3, h4]
  rfl

theorem hwait (x : BitVec 6) (y : BitVec 6) (tk : Tk) : Statement (.hwait x y tk) := by
  obtain ⟨h0, h1, h2, h3, h4⟩ := fields_XYTk_8 0x36000200 x y tk 0x1B 2 (by decide) (by decide) (by decide)
  refine of_raw fun lit => ?_
  rw [show encodeWord (.hwait x y tk) = BitVec.ofNat 32 (encXYTk 0x36000200 x y tk) from rfl]
  generalize BitVec.ofNat 32 (encXYTk 0x36000200 x y tk) = w at *
  rw [raw_1B h0]
  unfold decodeMajor1B
  rw [h1]
  rw [h2, h3, h4]
  rfl

theorem hstat (x : BitVec 6) (y : BitVec 6) (tk : Tk) : Statement (.hstat x y tk) := by
  obtain ⟨h0, h1, h2, h3, h4⟩ := fields_XYTk_8 0x36000300 x y tk 0x1B 3 (by decide) (by decide) (by decide)
  refine of_raw fun lit => ?_
  rw [show encodeWord (.hstat x y tk) = BitVec.ofNat 32 (encXYTk 0x36000300 x y tk) from rfl]
  generalize BitVec.ofNat 32 (encXYTk 0x36000300 x y tk) = w at *
  rw [raw_1B h0]
  unfold decodeMajor1B
  rw [h1]
  rw [h2, h3, h4]
  rfl

theorem chainKick (x : BitVec 6) (y : BitVec 6) (tk : Tk) : Statement (.chainKick x y tk) := by
  obtain ⟨h0, h1, h2, h3, h4⟩ := fields_XYTk_8 0x38000000 x y tk 0x1C 0 (by decide) (by decide) (by decide)
  refine of_raw fun lit => ?_
  rw [show encodeWord (.chainKick x y tk) = BitVec.ofNat 32 (encXYTk 0x38000000 x y tk) from rfl]
  generalize BitVec.ofNat 32 (encXYTk 0x38000000 x y tk) = w at *
  rw [raw_1C h0]
  unfold decodeMajor1C
  rw [h1]
  rw [h2, h3, h4]
  rfl

theorem chainStop (x : BitVec 6) (tk : Tk) : Statement (.chainStop x tk) := by
  obtain ⟨h0, h1, h2, h3⟩ := fields_XTk_8 0x38000100 x tk 0x1C 1 (by decide) (by decide) (by decide)
  refine of_raw fun lit => ?_
  rw [show encodeWord (.chainStop x tk) = BitVec.ofNat 32 (encXTk 0x38000100 x tk) from rfl]
  generalize BitVec.ofNat 32 (encXTk 0x38000100 x tk) = w at *
  rw [raw_1C h0]
  unfold decodeMajor1C
  rw [h1]
  rw [h2, h3]
  rfl

theorem chainStat (x : BitVec 6) (y : BitVec 6) (tk : Tk) : Statement (.chainStat x y tk) := by
  obtain ⟨h0, h1, h2, h3, h4⟩ := fields_XYTk_8 0x38000200 x y tk 0x1C 2 (by decide) (by decide) (by decide)
  refine of_raw fun lit => ?_
  rw [show encodeWord (.chainStat x y tk) = BitVec.ofNat 32 (encXYTk 0x38000200 x y tk) from rfl]
  generalize BitVec.ofNat 32 (encXYTk 0x38000200 x y tk) = w at *
  rw [raw_1C h0]
  unfold decodeMajor1C
  rw [h1]
  rw [h2, h3, h4]
  rfl

theorem qpost (x : BitVec 6) (y : BitVec 6) (tk : Tk) : Statement (.qpost x y tk) := by
  obtain ⟨h0, h1, h2, h3, h4⟩ := fields_XYTk_8 0x38000300 x y tk 0x1C 3 (by decide) (by decide) (by decide)
  refine of_raw fun lit => ?_
  rw [show encodeWord (.qpost x y tk) = BitVec.ofNat 32 (encXYTk 0x38000300 x y tk) from rfl]
  generalize BitVec.ofNat 32 (encXYTk 0x38000300 x y tk) = w at *
  rw [raw_1C h0]
  unfold decodeMajor1C
  rw [h1]
  rw [h2, h3, h4]
  rfl

theorem sigadd (x : BitVec 6) (y : BitVec 6) (tk : Tk) : Statement (.sigadd x y tk) := by
  obtain ⟨h0, h1, h2, h3, h4⟩ := fields_XYTk_8 0x38000400 x y tk 0x1C 4 (by decide) (by decide) (by decide)
  refine of_raw fun lit => ?_
  rw [show encodeWord (.sigadd x y tk) = BitVec.ofNat 32 (encXYTk 0x38000400 x y tk) from rfl]
  generalize BitVec.ofNat 32 (encXYTk 0x38000400 x y tk) = w at *
  rw [raw_1C h0]
  unfold decodeMajor1C
  rw [h1]
  rw [h2, h3, h4]
  rfl

theorem ringpost (x : BitVec 6) (y : BitVec 6) (tk : Tk) : Statement (.ringpost x y tk) := by
  obtain ⟨h0, h1, h2, h3, h4⟩ := fields_XYTk_8 0x38000500 x y tk 0x1C 5 (by decide) (by decide) (by decide)
  refine of_raw fun lit => ?_
  rw [show encodeWord (.ringpost x y tk) = BitVec.ofNat 32 (encXYTk 0x38000500 x y tk) from rfl]
  generalize BitVec.ofNat 32 (encXYTk 0x38000500 x y tk) = w at *
  rw [raw_1C h0]
  unfold decodeMajor1C
  rw [h1]
  rw [h2, h3, h4]
  rfl

theorem ares (x : BitVec 6) (y : BitVec 6) (tk : Tk) : Statement (.ares x y tk) := by
  obtain ⟨h0, h1, h2, h3, h4⟩ := fields_XYTk_8 0x38000600 x y tk 0x1C 6 (by decide) (by decide) (by decide)
  refine of_raw fun lit => ?_
  rw [show encodeWord (.ares x y tk) = BitVec.ofNat 32 (encXYTk 0x38000600 x y tk) from rfl]
  generalize BitVec.ofNat 32 (encXYTk 0x38000600 x y tk) = w at *
  rw [raw_1C h0]
  unfold decodeMajor1C
  rw [h1]
  rw [h2, h3, h4]
  rfl

theorem aresh (x : BitVec 6) (y : BitVec 6) (tk : Tk) : Statement (.aresh x y tk) := by
  obtain ⟨h0, h1, h2, h3, h4⟩ := fields_XYTk_8 0x38000700 x y tk 0x1C 7 (by decide) (by decide) (by decide)
  refine of_raw fun lit => ?_
  rw [show encodeWord (.aresh x y tk) = BitVec.ofNat 32 (encXYTk 0x38000700 x y tk) from rfl]
  generalize BitVec.ofNat 32 (encXYTk 0x38000700 x y tk) = w at *
  rw [raw_1C h0]
  unfold decodeMajor1C
  rw [h1]
  rw [h2, h3, h4]
  rfl

theorem jeos (n : BitVec 3) (o : BitVec 22) : Statement (.jeos n o) := by
  obtain ⟨h0, h1, h2⟩ := fields_NO 0x3A000000 n o 0x1D (by decide) (by decide)
  refine of_raw fun lit => ?_
  rw [show encodeWord (.jeos n o) = BitVec.ofNat 32 (encNO 0x3A000000 n o) from rfl]
  generalize BitVec.ofNat 32 (encNO 0x3A000000 n o) = w at *
  rw [raw_1D h0, h1, h2]

theorem fenceCore (g : BitVec 3) : Statement (.fenceCore g) := by
  obtain ⟨h0, h1, h2⟩ := fields_G_0 0x3C000000 g 0x1E 0 (by decide) (by decide) (by decide)
  refine of_raw fun lit => ?_
  rw [show encodeWord (.fenceCore g) = BitVec.ofNat 32 (encG 0x3C000000 g) from rfl]
  generalize BitVec.ofNat 32 (encG 0x3C000000 g) = w at *
  rw [raw_1E h0]
  unfold decodeMajor1E
  rw [h1]
  rw [h2]
  rfl

theorem fenceDie (g : BitVec 3) : Statement (.fenceDie g) := by
  obtain ⟨h0, h1, h2⟩ := fields_G_0 0x3C000001 g 0x1E 1 (by decide) (by decide) (by decide)
  refine of_raw fun lit => ?_
  rw [show encodeWord (.fenceDie g) = BitVec.ofNat 32 (encG 0x3C000001 g) from rfl]
  generalize BitVec.ofNat 32 (encG 0x3C000001 g) = w at *
  rw [raw_1E h0]
  unfold decodeMajor1E
  rw [h1]
  rw [h2]
  rfl

theorem fencePkg (g : BitVec 3) : Statement (.fencePkg g) := by
  obtain ⟨h0, h1, h2⟩ := fields_G_0 0x3C000002 g 0x1E 2 (by decide) (by decide) (by decide)
  refine of_raw fun lit => ?_
  rw [show encodeWord (.fencePkg g) = BitVec.ofNat 32 (encG 0x3C000002 g) from rfl]
  generalize BitVec.ofNat 32 (encG 0x3C000002 g) = w at *
  rw [raw_1E h0]
  unfold decodeMajor1E
  rw [h1]
  rw [h2]
  rfl

theorem fenceSys (g : BitVec 3) : Statement (.fenceSys g) := by
  obtain ⟨h0, h1, h2⟩ := fields_G_0 0x3C000003 g 0x1E 3 (by decide) (by decide) (by decide)
  refine of_raw fun lit => ?_
  rw [show encodeWord (.fenceSys g) = BitVec.ofNat 32 (encG 0x3C000003 g) from rfl]
  generalize BitVec.ofNat 32 (encG 0x3C000003 g) = w at *
  rw [raw_1E h0]
  unfold decodeMajor1E
  rw [h1]
  rw [h2]
  rfl

theorem endOp (g : BitVec 3) : Statement (.endOp g) := by
  obtain ⟨h0, h1, h2⟩ := fields_G_0 0x3E000000 g 0x1F 0 (by decide) (by decide) (by decide)
  refine of_raw fun lit => ?_
  rw [show encodeWord (.endOp g) = BitVec.ofNat 32 (encG 0x3E000000 g) from rfl]
  generalize BitVec.ofNat 32 (encG 0x3E000000 g) = w at *
  rw [raw_1F h0]
  unfold decodeMajor1F
  rw [h1]
  rw [h2]
  rfl

theorem ldG (x : BitVec 6) (y : BitVec 6) (p : BitVec 1) (u : BitVec 1) (s : BitVec 2) (tk : Tk) : Statement (.ldG x y p u s tk) := by
  refine of_form fun hf lit => ?_
  obtain ⟨h0, h1, h2, h3, h4, h5, h6, h7⟩ := fields_XYPUSTk_8 0x40000000 x y p u s tk 0x20 0 rfl (by decide) (by decide) (by decide) (by decide) (by decide)
  rw [show encodeWord (.ldG x y p u s tk) = BitVec.ofNat 32 (encXYPUSTk 0x40000000 x y p u s tk) from rfl]
  generalize BitVec.ofNat 32 (encXYPUSTk 0x40000000 x y p u s tk) = w at *
  rw [raw_20 h0]
  unfold decodeMajor20
  have hs : bitsAt w 8 5 = 0 ∨ bitsAt w 8 5 = 1 ∨ bitsAt w 8 5 = 2 ∨ bitsAt w 8 5 = 3 ∨ bitsAt w 8 5 = 4 ∨ bitsAt w 8 5 = 5 ∨
      bitsAt w 8 5 = 6 ∨ bitsAt w 8 5 = 8 ∨ bitsAt w 8 5 = 9 ∨ bitsAt w 8 5 = 10 ∨ bitsAt w 8 5 = 11 ∨ bitsAt w 8 5 = 12 ∨
      bitsAt w 8 5 = 13 ∨ bitsAt w 8 5 = 14 := by
    have hus : ¬(u.toNat = 1 ∧ s.toNat = 3) := fun h => by
      have e1 : u = 1 := BitVec.eq_of_toNat_eq h.1
      have e2 : s = 3 := BitVec.eq_of_toNat_eq h.2
      subst e1; subst e2; exact absurd (show false = true from hf) (by decide)
    have := p.isLt; have := u.isLt; have := s.isLt
    omega
  rcases hs with hs | hs | hs | hs | hs | hs | hs | hs | hs | hs | hs | hs | hs | hs <;> rw [hs, h2, h3, h4, h5, h6, h7] <;> rfl

theorem ldL (x : BitVec 6) (y : BitVec 6) (p : BitVec 1) (u : BitVec 1) (s : BitVec 2) (tk : Tk) : Statement (.ldL x y p u s tk) := by
  refine of_form fun hf lit => ?_
  obtain ⟨h0, h1, h2, h3, h4, h5, h6, h7⟩ := fields_XYPUSTk_8 0x42000000 x y p u s tk 0x21 0 rfl (by decide) (by decide) (by decide) (by decide) (by decide)
  rw [show encodeWord (.ldL x y p u s tk) = BitVec.ofNat 32 (encXYPUSTk 0x42000000 x y p u s tk) from rfl]
  generalize BitVec.ofNat 32 (encXYPUSTk 0x42000000 x y p u s tk) = w at *
  rw [raw_21 h0]
  unfold decodeMajor21
  have hs : bitsAt w 8 5 = 0 ∨ bitsAt w 8 5 = 1 ∨ bitsAt w 8 5 = 2 ∨ bitsAt w 8 5 = 3 ∨ bitsAt w 8 5 = 4 ∨ bitsAt w 8 5 = 5 ∨
      bitsAt w 8 5 = 6 ∨ bitsAt w 8 5 = 8 ∨ bitsAt w 8 5 = 9 ∨ bitsAt w 8 5 = 10 ∨ bitsAt w 8 5 = 11 ∨ bitsAt w 8 5 = 12 ∨
      bitsAt w 8 5 = 13 ∨ bitsAt w 8 5 = 14 := by
    have hus : ¬(u.toNat = 1 ∧ s.toNat = 3) := fun h => by
      have e1 : u = 1 := BitVec.eq_of_toNat_eq h.1
      have e2 : s = 3 := BitVec.eq_of_toNat_eq h.2
      subst e1; subst e2; exact absurd (show false = true from hf) (by decide)
    have := p.isLt; have := u.isLt; have := s.isLt
    omega
  rcases hs with hs | hs | hs | hs | hs | hs | hs | hs | hs | hs | hs | hs | hs | hs <;> rw [hs, h2, h3, h4, h5, h6, h7] <;> rfl

theorem vldG (x : BitVec 6) (y : BitVec 6) (p : BitVec 1) (m : BitVec 3) (tk : Tk) : Statement (.vldG x y p m tk) := by
  obtain ⟨h0, h1, h2, h3, h4, h5, h6⟩ := fields_XYPMTk_8 0x44000000 x y p m tk 0x22 0 (by decide) (by decide) (by decide) (by decide) (by decide)
  refine of_raw fun lit => ?_
  rw [show encodeWord (.vldG x y p m tk) = BitVec.ofNat 32 (encXYPMTk 0x44000000 x y p m tk) from rfl]
  generalize BitVec.ofNat 32 (encXYPMTk 0x44000000 x y p m tk) = w at *
  rw [raw_22 h0]
  unfold decodeMajor22
  have := p.isLt; have := m.isLt
  have hs : bitsAt w 8 5 = 0 ∨ bitsAt w 8 5 = 1 ∨ bitsAt w 8 5 = 2 ∨ bitsAt w 8 5 = 3 ∨ bitsAt w 8 5 = 4 ∨ bitsAt w 8 5 = 5 ∨ bitsAt w 8 5 = 6 ∨ bitsAt w 8 5 = 7 ∨ bitsAt w 8 5 = 8 ∨ bitsAt w 8 5 = 9 ∨ bitsAt w 8 5 = 10 ∨ bitsAt w 8 5 = 11 ∨ bitsAt w 8 5 = 12 ∨ bitsAt w 8 5 = 13 ∨ bitsAt w 8 5 = 14 ∨ bitsAt w 8 5 = 15 := by omega
  rcases hs with hs | hs | hs | hs | hs | hs | hs | hs | hs | hs | hs | hs | hs | hs | hs | hs <;> rw [hs, h2, h3, h4, h5, h6] <;> rfl

theorem vldL (x : BitVec 6) (y : BitVec 6) (p : BitVec 1) (m : BitVec 3) (tk : Tk) : Statement (.vldL x y p m tk) := by
  obtain ⟨h0, h1, h2, h3, h4, h5, h6⟩ := fields_XYPMTk_8 0x46000000 x y p m tk 0x23 0 (by decide) (by decide) (by decide) (by decide) (by decide)
  refine of_raw fun lit => ?_
  rw [show encodeWord (.vldL x y p m tk) = BitVec.ofNat 32 (encXYPMTk 0x46000000 x y p m tk) from rfl]
  generalize BitVec.ofNat 32 (encXYPMTk 0x46000000 x y p m tk) = w at *
  rw [raw_23 h0]
  unfold decodeMajor23
  have := p.isLt; have := m.isLt
  have hs : bitsAt w 8 5 = 0 ∨ bitsAt w 8 5 = 1 ∨ bitsAt w 8 5 = 2 ∨ bitsAt w 8 5 = 3 ∨ bitsAt w 8 5 = 4 ∨ bitsAt w 8 5 = 5 ∨ bitsAt w 8 5 = 6 ∨ bitsAt w 8 5 = 7 ∨ bitsAt w 8 5 = 8 ∨ bitsAt w 8 5 = 9 ∨ bitsAt w 8 5 = 10 ∨ bitsAt w 8 5 = 11 ∨ bitsAt w 8 5 = 12 ∨ bitsAt w 8 5 = 13 ∨ bitsAt w 8 5 = 14 ∨ bitsAt w 8 5 = 15 := by omega
  rcases hs with hs | hs | hs | hs | hs | hs | hs | hs | hs | hs | hs | hs | hs | hs | hs | hs <;> rw [hs, h2, h3, h4, h5, h6] <;> rfl

theorem gath (x : BitVec 6) (y : BitVec 6) (e : BitVec 1) (c : BitVec 1) (m : BitVec 3) (tk : Tk) : Statement (.gath x y e c m tk) := by
  obtain ⟨h0, h1, h2, h3, h4, h5, h6, h7⟩ := fields_XYECMTk_8 0x48000000 x y e c m tk 0x24 0 (by decide) (by decide) (by decide) (by decide) (by decide) (by decide)
  refine of_raw fun lit => ?_
  rw [show encodeWord (.gath x y e c m tk) = BitVec.ofNat 32 (encXYECMTk 0x48000000 x y e c m tk) from rfl]
  generalize BitVec.ofNat 32 (encXYECMTk 0x48000000 x y e c m tk) = w at *
  rw [raw_24 h0]
  unfold decodeMajor24
  have := e.isLt; have := c.isLt; have := m.isLt
  have hs : bitsAt w 8 5 = 0 ∨ bitsAt w 8 5 = 1 ∨ bitsAt w 8 5 = 2 ∨ bitsAt w 8 5 = 3 ∨ bitsAt w 8 5 = 4 ∨ bitsAt w 8 5 = 5 ∨ bitsAt w 8 5 = 6 ∨ bitsAt w 8 5 = 7 ∨ bitsAt w 8 5 = 8 ∨ bitsAt w 8 5 = 9 ∨ bitsAt w 8 5 = 10 ∨ bitsAt w 8 5 = 11 ∨ bitsAt w 8 5 = 12 ∨ bitsAt w 8 5 = 13 ∨ bitsAt w 8 5 = 14 ∨ bitsAt w 8 5 = 15 ∨ bitsAt w 8 5 = 16 ∨ bitsAt w 8 5 = 17 ∨ bitsAt w 8 5 = 18 ∨ bitsAt w 8 5 = 19 ∨ bitsAt w 8 5 = 20 ∨ bitsAt w 8 5 = 21 ∨ bitsAt w 8 5 = 22 ∨ bitsAt w 8 5 = 23 ∨ bitsAt w 8 5 = 24 ∨ bitsAt w 8 5 = 25 ∨ bitsAt w 8 5 = 26 ∨ bitsAt w 8 5 = 27 ∨ bitsAt w 8 5 = 28 ∨ bitsAt w 8 5 = 29 ∨ bitsAt w 8 5 = 30 ∨ bitsAt w 8 5 = 31 := by omega
  rcases hs with hs | hs | hs | hs | hs | hs | hs | hs | hs | hs | hs | hs | hs | hs | hs | hs | hs | hs | hs | hs | hs | hs | hs | hs | hs | hs | hs | hs | hs | hs | hs | hs <;> rw [hs, h2, h3, h4, h5, h6, h7] <;> rfl

theorem sbaseL (x : BitVec 6) (y : BitVec 6) (tk : Tk) : Statement (.sbaseL x y tk) := by
  obtain ⟨h0, h1, h2, h3, h4⟩ := fields_XYTk_8 0x4A000000 x y tk 0x25 0 (by decide) (by decide) (by decide)
  refine of_raw fun lit => ?_
  rw [show encodeWord (.sbaseL x y tk) = BitVec.ofNat 32 (encXYTk 0x4A000000 x y tk) from rfl]
  generalize BitVec.ofNat 32 (encXYTk 0x4A000000 x y tk) = w at *
  rw [raw_25 h0]
  unfold decodeMajor25
  rw [h1]
  rw [h2, h3, h4]
  rfl

theorem sdim0L (x : BitVec 6) (y : BitVec 6) (tk : Tk) : Statement (.sdim0L x y tk) := by
  obtain ⟨h0, h1, h2, h3, h4⟩ := fields_XYTk_8 0x4A000100 x y tk 0x25 1 (by decide) (by decide) (by decide)
  refine of_raw fun lit => ?_
  rw [show encodeWord (.sdim0L x y tk) = BitVec.ofNat 32 (encXYTk 0x4A000100 x y tk) from rfl]
  generalize BitVec.ofNat 32 (encXYTk 0x4A000100 x y tk) = w at *
  rw [raw_25 h0]
  unfold decodeMajor25
  rw [h1]
  rw [h2, h3, h4]
  rfl

theorem sdim1L (x : BitVec 6) (y : BitVec 6) (tk : Tk) : Statement (.sdim1L x y tk) := by
  obtain ⟨h0, h1, h2, h3, h4⟩ := fields_XYTk_8 0x4A000200 x y tk 0x25 2 (by decide) (by decide) (by decide)
  refine of_raw fun lit => ?_
  rw [show encodeWord (.sdim1L x y tk) = BitVec.ofNat 32 (encXYTk 0x4A000200 x y tk) from rfl]
  generalize BitVec.ofNat 32 (encXYTk 0x4A000200 x y tk) = w at *
  rw [raw_25 h0]
  unfold decodeMajor25
  rw [h1]
  rw [h2, h3, h4]
  rfl

theorem sdim2L (x : BitVec 6) (y : BitVec 6) (tk : Tk) : Statement (.sdim2L x y tk) := by
  obtain ⟨h0, h1, h2, h3, h4⟩ := fields_XYTk_8 0x4A000300 x y tk 0x25 3 (by decide) (by decide) (by decide)
  refine of_raw fun lit => ?_
  rw [show encodeWord (.sdim2L x y tk) = BitVec.ofNat 32 (encXYTk 0x4A000300 x y tk) from rfl]
  generalize BitVec.ofNat 32 (encXYTk 0x4A000300 x y tk) = w at *
  rw [raw_25 h0]
  unfold decodeMajor25
  rw [h1]
  rw [h2, h3, h4]
  rfl

theorem smodeL (x : BitVec 6) (y : BitVec 6) (tk : Tk) : Statement (.smodeL x y tk) := by
  obtain ⟨h0, h1, h2, h3, h4⟩ := fields_XYTk_8 0x4A000400 x y tk 0x25 4 (by decide) (by decide) (by decide)
  refine of_raw fun lit => ?_
  rw [show encodeWord (.smodeL x y tk) = BitVec.ofNat 32 (encXYTk 0x4A000400 x y tk) from rfl]
  generalize BitVec.ofNat 32 (encXYTk 0x4A000400 x y tk) = w at *
  rw [raw_25 h0]
  unfold decodeMajor25
  rw [h1]
  rw [h2, h3, h4]
  rfl

theorem sbindL (x : BitVec 6) (tk : Tk) : Statement (.sbindL x tk) := by
  obtain ⟨h0, h1, h2, h3⟩ := fields_XTk_8 0x4A000500 x tk 0x25 5 (by decide) (by decide) (by decide)
  refine of_raw fun lit => ?_
  rw [show encodeWord (.sbindL x tk) = BitVec.ofNat 32 (encXTk 0x4A000500 x tk) from rfl]
  generalize BitVec.ofNat 32 (encXTk 0x4A000500 x tk) = w at *
  rw [raw_25 h0]
  unfold decodeMajor25
  rw [h1]
  rw [h2, h3]
  rfl

theorem sunbindL (x : BitVec 6) (tk : Tk) : Statement (.sunbindL x tk) := by
  obtain ⟨h0, h1, h2, h3⟩ := fields_XTk_8 0x4A000600 x tk 0x25 6 (by decide) (by decide) (by decide)
  refine of_raw fun lit => ?_
  rw [show encodeWord (.sunbindL x tk) = BitVec.ofNat 32 (encXTk 0x4A000600 x tk) from rfl]
  generalize BitVec.ofNat 32 (encXTk 0x4A000600 x tk) = w at *
  rw [raw_25 h0]
  unfold decodeMajor25
  rw [h1]
  rw [h2, h3]
  rfl

theorem sstartL (x : BitVec 6) (tk : Tk) : Statement (.sstartL x tk) := by
  obtain ⟨h0, h1, h2, h3⟩ := fields_XTk_8 0x4A000700 x tk 0x25 7 (by decide) (by decide) (by decide)
  refine of_raw fun lit => ?_
  rw [show encodeWord (.sstartL x tk) = BitVec.ofNat 32 (encXTk 0x4A000700 x tk) from rfl]
  generalize BitVec.ofNat 32 (encXTk 0x4A000700 x tk) = w at *
  rw [raw_25 h0]
  unfold decodeMajor25
  rw [h1]
  rw [h2, h3]
  rfl

theorem sstopL (x : BitVec 6) (tk : Tk) : Statement (.sstopL x tk) := by
  obtain ⟨h0, h1, h2, h3⟩ := fields_XTk_8 0x4A000800 x tk 0x25 8 (by decide) (by decide) (by decide)
  refine of_raw fun lit => ?_
  rw [show encodeWord (.sstopL x tk) = BitVec.ofNat 32 (encXTk 0x4A000800 x tk) from rfl]
  generalize BitVec.ofNat 32 (encXTk 0x4A000800 x tk) = w at *
  rw [raw_25 h0]
  unfold decodeMajor25
  rw [h1]
  rw [h2, h3]
  rfl

theorem sseekL (x : BitVec 6) (y : BitVec 6) (tk : Tk) : Statement (.sseekL x y tk) := by
  obtain ⟨h0, h1, h2, h3, h4⟩ := fields_XYTk_8 0x4A000900 x y tk 0x25 9 (by decide) (by decide) (by decide)
  refine of_raw fun lit => ?_
  rw [show encodeWord (.sseekL x y tk) = BitVec.ofNat 32 (encXYTk 0x4A000900 x y tk) from rfl]
  generalize BitVec.ofNat 32 (encXYTk 0x4A000900 x y tk) = w at *
  rw [raw_25 h0]
  unfold decodeMajor25
  rw [h1]
  rw [h2, h3, h4]
  rfl

theorem sposL (x : BitVec 6) (y : BitVec 6) (tk : Tk) : Statement (.sposL x y tk) := by
  obtain ⟨h0, h1, h2, h3, h4⟩ := fields_XYTk_8 0x4A000A00 x y tk 0x25 10 (by decide) (by decide) (by decide)
  refine of_raw fun lit => ?_
  rw [show encodeWord (.sposL x y tk) = BitVec.ofNat 32 (encXYTk 0x4A000A00 x y tk) from rfl]
  generalize BitVec.ofNat 32 (encXYTk 0x4A000A00 x y tk) = w at *
  rw [raw_25 h0]
  unfold decodeMajor25
  rw [h1]
  rw [h2, h3, h4]
  rfl

theorem markL (tk : Tk) : Statement (.markL tk) := by
  obtain ⟨h0, h1, h2⟩ := fields_Tk_8 0x4C000000 tk 0x26 0 (by decide) (by decide) (by decide)
  refine of_raw fun lit => ?_
  rw [show encodeWord (.markL tk) = BitVec.ofNat 32 (encTk 0x4C000000 tk) from rfl]
  generalize BitVec.ofNat 32 (encTk 0x4C000000 tk) = w at *
  rw [raw_26 h0]
  unfold decodeMajor26
  rw [h1]
  rw [h2]
  rfl

theorem cpin (x : BitVec 6) (y : BitVec 6) (tk : Tk) : Statement (.cpin x y tk) := by
  obtain ⟨h0, h1, h2, h3, h4⟩ := fields_XYTk_8 0x4E000000 x y tk 0x27 0 (by decide) (by decide) (by decide)
  refine of_raw fun lit => ?_
  rw [show encodeWord (.cpin x y tk) = BitVec.ofNat 32 (encXYTk 0x4E000000 x y tk) from rfl]
  generalize BitVec.ofNat 32 (encXYTk 0x4E000000 x y tk) = w at *
  rw [raw_27 h0]
  unfold decodeMajor27
  rw [h1]
  rw [h2, h3, h4]
  rfl

theorem cpin2d (x : BitVec 6) (y : BitVec 6) (tk : Tk) : Statement (.cpin2d x y tk) := by
  obtain ⟨h0, h1, h2, h3, h4⟩ := fields_XYTk_8 0x4E000100 x y tk 0x27 1 (by decide) (by decide) (by decide)
  refine of_raw fun lit => ?_
  rw [show encodeWord (.cpin2d x y tk) = BitVec.ofNat 32 (encXYTk 0x4E000100 x y tk) from rfl]
  generalize BitVec.ofNat 32 (encXYTk 0x4E000100 x y tk) = w at *
  rw [raw_27 h0]
  unfold decodeMajor27
  rw [h1]
  rw [h2, h3, h4]
  rfl

theorem cpinT (x : BitVec 6) (y : BitVec 6) (tk : Tk) : Statement (.cpinT x y tk) := by
  obtain ⟨h0, h1, h2, h3, h4⟩ := fields_XYTk_8 0x4E000200 x y tk 0x27 2 (by decide) (by decide) (by decide)
  refine of_raw fun lit => ?_
  rw [show encodeWord (.cpinT x y tk) = BitVec.ofNat 32 (encXYTk 0x4E000200 x y tk) from rfl]
  generalize BitVec.ofNat 32 (encXYTk 0x4E000200 x y tk) = w at *
  rw [raw_27 h0]
  unfold decodeMajor27
  rw [h1]
  rw [h2, h3, h4]
  rfl

theorem prefG (y : BitVec 6) (tk : Tk) : Statement (.prefG y tk) := by
  obtain ⟨h0, h1, h2, h3⟩ := fields_YTk_8 0x50000000 y tk 0x28 0 (by decide) (by decide) (by decide)
  refine of_raw fun lit => ?_
  rw [show encodeWord (.prefG y tk) = BitVec.ofNat 32 (encYTk 0x50000000 y tk) from rfl]
  generalize BitVec.ofNat 32 (encYTk 0x50000000 y tk) = w at *
  rw [raw_28 h0]
  unfold decodeMajor28
  rw [h1]
  rw [h2, h3]
  rfl

theorem ssize (y : BitVec 6) (tk : Tk) : Statement (.ssize y tk) := by
  obtain ⟨h0, h1, h2, h3⟩ := fields_YTk_8 0x50000100 y tk 0x28 1 (by decide) (by decide) (by decide)
  refine of_raw fun lit => ?_
  rw [show encodeWord (.ssize y tk) = BitVec.ofNat 32 (encYTk 0x50000100 y tk) from rfl]
  generalize BitVec.ofNat 32 (encYTk 0x50000100 y tk) = w at *
  rw [raw_28 h0]
  unfold decodeMajor28
  rw [h1]
  rw [h2, h3]
  rfl

theorem smap (x : BitVec 6) (y : BitVec 6) (tk : Tk) : Statement (.smap x y tk) := by
  obtain ⟨h0, h1, h2, h3, h4⟩ := fields_XYTk_8 0x50000200 x y tk 0x28 2 (by decide) (by decide) (by decide)
  refine of_raw fun lit => ?_
  rw [show encodeWord (.smap x y tk) = BitVec.ofNat 32 (encXYTk 0x50000200 x y tk) from rfl]
  generalize BitVec.ofNat 32 (encXYTk 0x50000200 x y tk) = w at *
  rw [raw_28 h0]
  unfold decodeMajor28
  rw [h1]
  rw [h2, h3, h4]
  rfl

theorem sunmap (x : BitVec 6) (tk : Tk) : Statement (.sunmap x tk) := by
  obtain ⟨h0, h1, h2, h3⟩ := fields_XTk_8 0x50000300 x tk 0x28 3 (by decide) (by decide) (by decide)
  refine of_raw fun lit => ?_
  rw [show encodeWord (.sunmap x tk) = BitVec.ofNat 32 (encXTk 0x50000300 x tk) from rfl]
  generalize BitVec.ofNat 32 (encXTk 0x50000300 x tk) = w at *
  rw [raw_28 h0]
  unfold decodeMajor28
  rw [h1]
  rw [h2, h3]
  rfl

theorem sflush (x : BitVec 6) (tk : Tk) : Statement (.sflush x tk) := by
  obtain ⟨h0, h1, h2, h3⟩ := fields_XTk_8 0x50000400 x tk 0x28 4 (by decide) (by decide) (by decide)
  refine of_raw fun lit => ?_
  rw [show encodeWord (.sflush x tk) = BitVec.ofNat 32 (encXTk 0x50000400 x tk) from rfl]
  generalize BitVec.ofNat 32 (encXTk 0x50000400 x tk) = w at *
  rw [raw_28 h0]
  unfold decodeMajor28
  rw [h1]
  rw [h2, h3]
  rfl

theorem sinval (x : BitVec 6) (tk : Tk) : Statement (.sinval x tk) := by
  obtain ⟨h0, h1, h2, h3⟩ := fields_XTk_8 0x50000500 x tk 0x28 5 (by decide) (by decide) (by decide)
  refine of_raw fun lit => ?_
  rw [show encodeWord (.sinval x tk) = BitVec.ofNat 32 (encXTk 0x50000500 x tk) from rfl]
  generalize BitVec.ofNat 32 (encXTk 0x50000500 x tk) = w at *
  rw [raw_28 h0]
  unfold decodeMajor28
  rw [h1]
  rw [h2, h3]
  rfl

theorem vadd (d : BitVec 6) (a : BitVec 6) (b : BitVec 6) (m : BitVec 3) (t : BitVec 4) : Statement (.vadd d a b m t) := by
  obtain ⟨h0, h1, h2, h3, h4, h5⟩ := fields_DABMT 0x60000000 d a b m t 0x30 (by decide) (by decide)
  refine of_raw fun lit => ?_
  rw [show encodeWord (.vadd d a b m t) = BitVec.ofNat 32 (encDABMT 0x60000000 d a b m t) from rfl]
  generalize BitVec.ofNat 32 (encDABMT 0x60000000 d a b m t) = w at *
  rw [raw_30 h0, h1, h2, h3, h4, h5]

theorem vsub (d : BitVec 6) (a : BitVec 6) (b : BitVec 6) (m : BitVec 3) (t : BitVec 4) : Statement (.vsub d a b m t) := by
  obtain ⟨h0, h1, h2, h3, h4, h5⟩ := fields_DABMT 0x62000000 d a b m t 0x31 (by decide) (by decide)
  refine of_raw fun lit => ?_
  rw [show encodeWord (.vsub d a b m t) = BitVec.ofNat 32 (encDABMT 0x62000000 d a b m t) from rfl]
  generalize BitVec.ofNat 32 (encDABMT 0x62000000 d a b m t) = w at *
  rw [raw_31 h0, h1, h2, h3, h4, h5]

theorem vmul (d : BitVec 6) (a : BitVec 6) (b : BitVec 6) (m : BitVec 3) (t : BitVec 4) : Statement (.vmul d a b m t) := by
  obtain ⟨h0, h1, h2, h3, h4, h5⟩ := fields_DABMT 0x64000000 d a b m t 0x32 (by decide) (by decide)
  refine of_raw fun lit => ?_
  rw [show encodeWord (.vmul d a b m t) = BitVec.ofNat 32 (encDABMT 0x64000000 d a b m t) from rfl]
  generalize BitVec.ofNat 32 (encDABMT 0x64000000 d a b m t) = w at *
  rw [raw_32 h0, h1, h2, h3, h4, h5]

theorem vfma (d : BitVec 6) (a : BitVec 6) (b : BitVec 6) (m : BitVec 3) (t : BitVec 4) : Statement (.vfma d a b m t) := by
  obtain ⟨h0, h1, h2, h3, h4, h5⟩ := fields_DABMT 0x66000000 d a b m t 0x33 (by decide) (by decide)
  refine of_raw fun lit => ?_
  rw [show encodeWord (.vfma d a b m t) = BitVec.ofNat 32 (encDABMT 0x66000000 d a b m t) from rfl]
  generalize BitVec.ofNat 32 (encDABMT 0x66000000 d a b m t) = w at *
  rw [raw_33 h0, h1, h2, h3, h4, h5]

theorem vfms (d : BitVec 6) (a : BitVec 6) (b : BitVec 6) (m : BitVec 3) (t : BitVec 4) : Statement (.vfms d a b m t) := by
  obtain ⟨h0, h1, h2, h3, h4, h5⟩ := fields_DABMT 0x68000000 d a b m t 0x34 (by decide) (by decide)
  refine of_raw fun lit => ?_
  rw [show encodeWord (.vfms d a b m t) = BitVec.ofNat 32 (encDABMT 0x68000000 d a b m t) from rfl]
  generalize BitVec.ofNat 32 (encDABMT 0x68000000 d a b m t) = w at *
  rw [raw_34 h0, h1, h2, h3, h4, h5]

theorem vfnma (d : BitVec 6) (a : BitVec 6) (b : BitVec 6) (m : BitVec 3) (t : BitVec 4) : Statement (.vfnma d a b m t) := by
  obtain ⟨h0, h1, h2, h3, h4, h5⟩ := fields_DABMT 0x6A000000 d a b m t 0x35 (by decide) (by decide)
  refine of_raw fun lit => ?_
  rw [show encodeWord (.vfnma d a b m t) = BitVec.ofNat 32 (encDABMT 0x6A000000 d a b m t) from rfl]
  generalize BitVec.ofNat 32 (encDABMT 0x6A000000 d a b m t) = w at *
  rw [raw_35 h0, h1, h2, h3, h4, h5]

theorem vmin (d : BitVec 6) (a : BitVec 6) (b : BitVec 6) (m : BitVec 3) (t : BitVec 4) : Statement (.vmin d a b m t) := by
  obtain ⟨h0, h1, h2, h3, h4, h5⟩ := fields_DABMT 0x6C000000 d a b m t 0x36 (by decide) (by decide)
  refine of_raw fun lit => ?_
  rw [show encodeWord (.vmin d a b m t) = BitVec.ofNat 32 (encDABMT 0x6C000000 d a b m t) from rfl]
  generalize BitVec.ofNat 32 (encDABMT 0x6C000000 d a b m t) = w at *
  rw [raw_36 h0, h1, h2, h3, h4, h5]

theorem vmax (d : BitVec 6) (a : BitVec 6) (b : BitVec 6) (m : BitVec 3) (t : BitVec 4) : Statement (.vmax d a b m t) := by
  obtain ⟨h0, h1, h2, h3, h4, h5⟩ := fields_DABMT 0x6E000000 d a b m t 0x37 (by decide) (by decide)
  refine of_raw fun lit => ?_
  rw [show encodeWord (.vmax d a b m t) = BitVec.ofNat 32 (encDABMT 0x6E000000 d a b m t) from rfl]
  generalize BitVec.ofNat 32 (encDABMT 0x6E000000 d a b m t) = w at *
  rw [raw_37 h0, h1, h2, h3, h4, h5]

theorem vdiv (d : BitVec 6) (a : BitVec 6) (b : BitVec 6) (m : BitVec 3) (t : BitVec 4) : Statement (.vdiv d a b m t) := by
  obtain ⟨h0, h1, h2, h3, h4, h5⟩ := fields_DABMT 0x70000000 d a b m t 0x38 (by decide) (by decide)
  refine of_raw fun lit => ?_
  rw [show encodeWord (.vdiv d a b m t) = BitVec.ofNat 32 (encDABMT 0x70000000 d a b m t) from rfl]
  generalize BitVec.ofNat 32 (encDABMT 0x70000000 d a b m t) = w at *
  rw [raw_38 h0, h1, h2, h3, h4, h5]

theorem vand (d : BitVec 6) (a : BitVec 6) (b : BitVec 6) (m : BitVec 3) (t : BitVec 4) : Statement (.vand d a b m t) := by
  obtain ⟨h0, h1, h2, h3, h4, h5⟩ := fields_DABMT 0x72000000 d a b m t 0x39 (by decide) (by decide)
  refine of_raw fun lit => ?_
  rw [show encodeWord (.vand d a b m t) = BitVec.ofNat 32 (encDABMT 0x72000000 d a b m t) from rfl]
  generalize BitVec.ofNat 32 (encDABMT 0x72000000 d a b m t) = w at *
  rw [raw_39 h0, h1, h2, h3, h4, h5]

theorem vor (d : BitVec 6) (a : BitVec 6) (b : BitVec 6) (m : BitVec 3) (t : BitVec 4) : Statement (.vor d a b m t) := by
  obtain ⟨h0, h1, h2, h3, h4, h5⟩ := fields_DABMT 0x74000000 d a b m t 0x3A (by decide) (by decide)
  refine of_raw fun lit => ?_
  rw [show encodeWord (.vor d a b m t) = BitVec.ofNat 32 (encDABMT 0x74000000 d a b m t) from rfl]
  generalize BitVec.ofNat 32 (encDABMT 0x74000000 d a b m t) = w at *
  rw [raw_3A h0, h1, h2, h3, h4, h5]

theorem vxor (d : BitVec 6) (a : BitVec 6) (b : BitVec 6) (m : BitVec 3) (t : BitVec 4) : Statement (.vxor d a b m t) := by
  obtain ⟨h0, h1, h2, h3, h4, h5⟩ := fields_DABMT 0x76000000 d a b m t 0x3B (by decide) (by decide)
  refine of_raw fun lit => ?_
  rw [show encodeWord (.vxor d a b m t) = BitVec.ofNat 32 (encDABMT 0x76000000 d a b m t) from rfl]
  generalize BitVec.ofNat 32 (encDABMT 0x76000000 d a b m t) = w at *
  rw [raw_3B h0, h1, h2, h3, h4, h5]

theorem vsll (d : BitVec 6) (a : BitVec 6) (b : BitVec 6) (m : BitVec 3) (t : BitVec 4) : Statement (.vsll d a b m t) := by
  obtain ⟨h0, h1, h2, h3, h4, h5⟩ := fields_DABMT 0x78000000 d a b m t 0x3C (by decide) (by decide)
  refine of_raw fun lit => ?_
  rw [show encodeWord (.vsll d a b m t) = BitVec.ofNat 32 (encDABMT 0x78000000 d a b m t) from rfl]
  generalize BitVec.ofNat 32 (encDABMT 0x78000000 d a b m t) = w at *
  rw [raw_3C h0, h1, h2, h3, h4, h5]

theorem vsrl (d : BitVec 6) (a : BitVec 6) (b : BitVec 6) (m : BitVec 3) (t : BitVec 4) : Statement (.vsrl d a b m t) := by
  obtain ⟨h0, h1, h2, h3, h4, h5⟩ := fields_DABMT 0x7A000000 d a b m t 0x3D (by decide) (by decide)
  refine of_raw fun lit => ?_
  rw [show encodeWord (.vsrl d a b m t) = BitVec.ofNat 32 (encDABMT 0x7A000000 d a b m t) from rfl]
  generalize BitVec.ofNat 32 (encDABMT 0x7A000000 d a b m t) = w at *
  rw [raw_3D h0, h1, h2, h3, h4, h5]

theorem vsra (d : BitVec 6) (a : BitVec 6) (b : BitVec 6) (m : BitVec 3) (t : BitVec 4) : Statement (.vsra d a b m t) := by
  obtain ⟨h0, h1, h2, h3, h4, h5⟩ := fields_DABMT 0x7C000000 d a b m t 0x3E (by decide) (by decide)
  refine of_raw fun lit => ?_
  rw [show encodeWord (.vsra d a b m t) = BitVec.ofNat 32 (encDABMT 0x7C000000 d a b m t) from rfl]
  generalize BitVec.ofNat 32 (encDABMT 0x7C000000 d a b m t) = w at *
  rw [raw_3E h0, h1, h2, h3, h4, h5]

theorem vadds (d : BitVec 6) (a : BitVec 6) (b : BitVec 6) (m : BitVec 3) (t : BitVec 4) : Statement (.vadds d a b m t) := by
  obtain ⟨h0, h1, h2, h3, h4, h5⟩ := fields_DABMT 0x7E000000 d a b m t 0x3F (by decide) (by decide)
  refine of_raw fun lit => ?_
  rw [show encodeWord (.vadds d a b m t) = BitVec.ofNat 32 (encDABMT 0x7E000000 d a b m t) from rfl]
  generalize BitVec.ofNat 32 (encDABMT 0x7E000000 d a b m t) = w at *
  rw [raw_3F h0, h1, h2, h3, h4, h5]

theorem vsubs (d : BitVec 6) (a : BitVec 6) (b : BitVec 6) (m : BitVec 3) (t : BitVec 4) : Statement (.vsubs d a b m t) := by
  obtain ⟨h0, h1, h2, h3, h4, h5⟩ := fields_DABMT 0x80000000 d a b m t 0x40 (by decide) (by decide)
  refine of_raw fun lit => ?_
  rw [show encodeWord (.vsubs d a b m t) = BitVec.ofNat 32 (encDABMT 0x80000000 d a b m t) from rfl]
  generalize BitVec.ofNat 32 (encDABMT 0x80000000 d a b m t) = w at *
  rw [raw_40 h0, h1, h2, h3, h4, h5]

theorem vmulh (d : BitVec 6) (a : BitVec 6) (b : BitVec 6) (m : BitVec 3) (t : BitVec 4) : Statement (.vmulh d a b m t) := by
  obtain ⟨h0, h1, h2, h3, h4, h5⟩ := fields_DABMT 0x82000000 d a b m t 0x41 (by decide) (by decide)
  refine of_raw fun lit => ?_
  rw [show encodeWord (.vmulh d a b m t) = BitVec.ofNat 32 (encDABMT 0x82000000 d a b m t) from rfl]
  generalize BitVec.ofNat 32 (encDABMT 0x82000000 d a b m t) = w at *
  rw [raw_41 h0, h1, h2, h3, h4, h5]

theorem vabsd (d : BitVec 6) (a : BitVec 6) (b : BitVec 6) (m : BitVec 3) (t : BitVec 4) : Statement (.vabsd d a b m t) := by
  obtain ⟨h0, h1, h2, h3, h4, h5⟩ := fields_DABMT 0x84000000 d a b m t 0x42 (by decide) (by decide)
  refine of_raw fun lit => ?_
  rw [show encodeWord (.vabsd d a b m t) = BitVec.ofNat 32 (encDABMT 0x84000000 d a b m t) from rfl]
  generalize BitVec.ofNat 32 (encDABMT 0x84000000 d a b m t) = w at *
  rw [raw_42 h0, h1, h2, h3, h4, h5]

theorem vavg (d : BitVec 6) (a : BitVec 6) (b : BitVec 6) (m : BitVec 3) (t : BitVec 4) : Statement (.vavg d a b m t) := by
  obtain ⟨h0, h1, h2, h3, h4, h5⟩ := fields_DABMT 0x86000000 d a b m t 0x43 (by decide) (by decide)
  refine of_raw fun lit => ?_
  rw [show encodeWord (.vavg d a b m t) = BitVec.ofNat 32 (encDABMT 0x86000000 d a b m t) from rfl]
  generalize BitVec.ofNat 32 (encDABMT 0x86000000 d a b m t) = w at *
  rw [raw_43 h0, h1, h2, h3, h4, h5]

theorem vcmpeq (d : BitVec 6) (a : BitVec 6) (b : BitVec 6) (m : BitVec 3) (t : BitVec 4) : Statement (.vcmpeq d a b m t) := by
  obtain ⟨h0, h1, h2, h3, h4, h5⟩ := fields_DABMT 0x88000000 d a b m t 0x44 (by decide) (by decide)
  refine of_raw fun lit => ?_
  rw [show encodeWord (.vcmpeq d a b m t) = BitVec.ofNat 32 (encDABMT 0x88000000 d a b m t) from rfl]
  generalize BitVec.ofNat 32 (encDABMT 0x88000000 d a b m t) = w at *
  rw [raw_44 h0, h1, h2, h3, h4, h5]

theorem vcmplt (d : BitVec 6) (a : BitVec 6) (b : BitVec 6) (m : BitVec 3) (t : BitVec 4) : Statement (.vcmplt d a b m t) := by
  obtain ⟨h0, h1, h2, h3, h4, h5⟩ := fields_DABMT 0x8A000000 d a b m t 0x45 (by decide) (by decide)
  refine of_raw fun lit => ?_
  rw [show encodeWord (.vcmplt d a b m t) = BitVec.ofNat 32 (encDABMT 0x8A000000 d a b m t) from rfl]
  generalize BitVec.ofNat 32 (encDABMT 0x8A000000 d a b m t) = w at *
  rw [raw_45 h0, h1, h2, h3, h4, h5]

theorem vcmple (d : BitVec 6) (a : BitVec 6) (b : BitVec 6) (m : BitVec 3) (t : BitVec 4) : Statement (.vcmple d a b m t) := by
  obtain ⟨h0, h1, h2, h3, h4, h5⟩ := fields_DABMT 0x8C000000 d a b m t 0x46 (by decide) (by decide)
  refine of_raw fun lit => ?_
  rw [show encodeWord (.vcmple d a b m t) = BitVec.ofNat 32 (encDABMT 0x8C000000 d a b m t) from rfl]
  generalize BitVec.ofNat 32 (encDABMT 0x8C000000 d a b m t) = w at *
  rw [raw_46 h0, h1, h2, h3, h4, h5]

theorem vcmpne (d : BitVec 6) (a : BitVec 6) (b : BitVec 6) (m : BitVec 3) (t : BitVec 4) : Statement (.vcmpne d a b m t) := by
  obtain ⟨h0, h1, h2, h3, h4, h5⟩ := fields_DABMT 0x8E000000 d a b m t 0x47 (by decide) (by decide)
  refine of_raw fun lit => ?_
  rw [show encodeWord (.vcmpne d a b m t) = BitVec.ofNat 32 (encDABMT 0x8E000000 d a b m t) from rfl]
  generalize BitVec.ofNat 32 (encDABMT 0x8E000000 d a b m t) = w at *
  rw [raw_47 h0, h1, h2, h3, h4, h5]

theorem vsel (d : BitVec 6) (a : BitVec 6) (b : BitVec 6) (m : BitVec 3) (t : BitVec 4) : Statement (.vsel d a b m t) := by
  obtain ⟨h0, h1, h2, h3, h4, h5⟩ := fields_DABMT 0x90000000 d a b m t 0x48 (by decide) (by decide)
  refine of_raw fun lit => ?_
  rw [show encodeWord (.vsel d a b m t) = BitVec.ofNat 32 (encDABMT 0x90000000 d a b m t) from rfl]
  generalize BitVec.ofNat 32 (encDABMT 0x90000000 d a b m t) = w at *
  rw [raw_48 h0, h1, h2, h3, h4, h5]

theorem vperm (d : BitVec 6) (a : BitVec 6) (b : BitVec 6) (m : BitVec 3) (t : BitVec 4) : Statement (.vperm d a b m t) := by
  obtain ⟨h0, h1, h2, h3, h4, h5⟩ := fields_DABMT 0x92000000 d a b m t 0x49 (by decide) (by decide)
  refine of_raw fun lit => ?_
  rw [show encodeWord (.vperm d a b m t) = BitVec.ofNat 32 (encDABMT 0x92000000 d a b m t) from rfl]
  generalize BitVec.ofNat 32 (encDABMT 0x92000000 d a b m t) = w at *
  rw [raw_49 h0, h1, h2, h3, h4, h5]

theorem vzipLo (d : BitVec 6) (a : BitVec 6) (b : BitVec 6) (t : BitVec 4) : Statement (.vzipLo d a b t) := by
  obtain ⟨h0, h1, h2, h3, h4, h5⟩ := fields_DABT_4 0x94000000 d a b t 0x4A 0 (by decide) (by decide) (by decide)
  refine of_raw fun lit => ?_
  rw [show encodeWord (.vzipLo d a b t) = BitVec.ofNat 32 (encDABT 0x94000000 d a b t) from rfl]
  generalize BitVec.ofNat 32 (encDABT 0x94000000 d a b t) = w at *
  rw [raw_4A h0]
  unfold decodeMajor4A
  rw [h1]
  rw [h2, h3, h4, h5]
  rfl

theorem vzipHi (d : BitVec 6) (a : BitVec 6) (b : BitVec 6) (t : BitVec 4) : Statement (.vzipHi d a b t) := by
  obtain ⟨h0, h1, h2, h3, h4, h5⟩ := fields_DABT_4 0x94000010 d a b t 0x4A 1 (by decide) (by decide) (by decide)
  refine of_raw fun lit => ?_
  rw [show encodeWord (.vzipHi d a b t) = BitVec.ofNat 32 (encDABT 0x94000010 d a b t) from rfl]
  generalize BitVec.ofNat 32 (encDABT 0x94000010 d a b t) = w at *
  rw [raw_4A h0]
  unfold decodeMajor4A
  rw [h1]
  rw [h2, h3, h4, h5]
  rfl

theorem vuzpEv (d : BitVec 6) (a : BitVec 6) (b : BitVec 6) (t : BitVec 4) : Statement (.vuzpEv d a b t) := by
  obtain ⟨h0, h1, h2, h3, h4, h5⟩ := fields_DABT_4 0x94000020 d a b t 0x4A 2 (by decide) (by decide) (by decide)
  refine of_raw fun lit => ?_
  rw [show encodeWord (.vuzpEv d a b t) = BitVec.ofNat 32 (encDABT 0x94000020 d a b t) from rfl]
  generalize BitVec.ofNat 32 (encDABT 0x94000020 d a b t) = w at *
  rw [raw_4A h0]
  unfold decodeMajor4A
  rw [h1]
  rw [h2, h3, h4, h5]
  rfl

theorem vuzpOd (d : BitVec 6) (a : BitVec 6) (b : BitVec 6) (t : BitVec 4) : Statement (.vuzpOd d a b t) := by
  obtain ⟨h0, h1, h2, h3, h4, h5⟩ := fields_DABT_4 0x94000030 d a b t 0x4A 3 (by decide) (by decide) (by decide)
  refine of_raw fun lit => ?_
  rw [show encodeWord (.vuzpOd d a b t) = BitVec.ofNat 32 (encDABT 0x94000030 d a b t) from rfl]
  generalize BitVec.ofNat 32 (encDABT 0x94000030 d a b t) = w at *
  rw [raw_4A h0]
  unfold decodeMajor4A
  rw [h1]
  rw [h2, h3, h4, h5]
  rfl

theorem vslide (d : BitVec 6) (a : BitVec 6) (b : BitVec 6) (r : BitVec 1) (n : BitVec 1) (t : BitVec 4) : Statement (.vslide d a b r n t) := by
  obtain ⟨h0, h1, h2, h3, h4, h5, h6⟩ := fields_DABRNT 0x96000000 d a b r n t 0x4B (by decide) (by decide)
  refine of_raw fun lit => ?_
  rw [show encodeWord (.vslide d a b r n t) = BitVec.ofNat 32 (encDABRNT 0x96000000 d a b r n t) from rfl]
  generalize BitVec.ofNat 32 (encDABRNT 0x96000000 d a b r n t) = w at *
  rw [raw_4B h0, h1, h2, h3, h4, h5, h6]

theorem vabs (d : BitVec 6) (a : BitVec 6) (m : BitVec 3) (t : BitVec 4) : Statement (.vabs d a m t) := by
  obtain ⟨h0, h1, h2, h3, h4, h5⟩ := fields_DAMT_7 0x98000000 d a m t 0x4C 0 (by decide) (by decide) (by decide)
  refine of_raw fun lit => ?_
  rw [show encodeWord (.vabs d a m t) = BitVec.ofNat 32 (encDAMT 0x98000000 d a m t) from rfl]
  generalize BitVec.ofNat 32 (encDAMT 0x98000000 d a m t) = w at *
  rw [raw_4C h0]
  unfold decodeMajor4C
  rw [h1]
  rw [h2, h3, h4, h5]
  rfl

theorem vneg (d : BitVec 6) (a : BitVec 6) (m : BitVec 3) (t : BitVec 4) : Statement (.vneg d a m t) := by
  obtain ⟨h0, h1, h2, h3, h4, h5⟩ := fields_DAMT_7 0x98000080 d a m t 0x4C 1 (by decide) (by decide) (by decide)
  refine of_raw fun lit => ?_
  rw [show encodeWord (.vneg d a m t) = BitVec.ofNat 32 (encDAMT 0x98000080 d a m t) from rfl]
  generalize BitVec.ofNat 32 (encDAMT 0x98000080 d a m t) = w at *
  rw [raw_4C h0]
  unfold decodeMajor4C
  rw [h1]
  rw [h2, h3, h4, h5]
  rfl

theorem vsqrt (d : BitVec 6) (a : BitVec 6) (m : BitVec 3) (t : BitVec 4) : Statement (.vsqrt d a m t) := by
  obtain ⟨h0, h1, h2, h3, h4, h5⟩ := fields_DAMT_7 0x98000100 d a m t 0x4C 2 (by decide) (by decide) (by decide)
  refine of_raw fun lit => ?_
  rw [show encodeWord (.vsqrt d a m t) = BitVec.ofNat 32 (encDAMT 0x98000100 d a m t) from rfl]
  generalize BitVec.ofNat 32 (encDAMT 0x98000100 d a m t) = w at *
  rw [raw_4C h0]
  unfold decodeMajor4C
  rw [h1]
  rw [h2, h3, h4, h5]
  rfl

theorem vrecip (d : BitVec 6) (a : BitVec 6) (m : BitVec 3) (t : BitVec 4) : Statement (.vrecip d a m t) := by
  obtain ⟨h0, h1, h2, h3, h4, h5⟩ := fields_DAMT_7 0x98000180 d a m t 0x4C 3 (by decide) (by decide) (by decide)
  refine of_raw fun lit => ?_
  rw [show encodeWord (.vrecip d a m t) = BitVec.ofNat 32 (encDAMT 0x98000180 d a m t) from rfl]
  generalize BitVec.ofNat 32 (encDAMT 0x98000180 d a m t) = w at *
  rw [raw_4C h0]
  unfold decodeMajor4C
  rw [h1]
  rw [h2, h3, h4, h5]
  rfl

theorem vrsqrt (d : BitVec 6) (a : BitVec 6) (m : BitVec 3) (t : BitVec 4) : Statement (.vrsqrt d a m t) := by
  obtain ⟨h0, h1, h2, h3, h4, h5⟩ := fields_DAMT_7 0x98000200 d a m t 0x4C 4 (by decide) (by decide) (by decide)
  refine of_raw fun lit => ?_
  rw [show encodeWord (.vrsqrt d a m t) = BitVec.ofNat 32 (encDAMT 0x98000200 d a m t) from rfl]
  generalize BitVec.ofNat 32 (encDAMT 0x98000200 d a m t) = w at *
  rw [raw_4C h0]
  unfold decodeMajor4C
  rw [h1]
  rw [h2, h3, h4, h5]
  rfl

theorem vnot (d : BitVec 6) (a : BitVec 6) (m : BitVec 3) (t : BitVec 4) : Statement (.vnot d a m t) := by
  obtain ⟨h0, h1, h2, h3, h4, h5⟩ := fields_DAMT_7 0x98000280 d a m t 0x4C 5 (by decide) (by decide) (by decide)
  refine of_raw fun lit => ?_
  rw [show encodeWord (.vnot d a m t) = BitVec.ofNat 32 (encDAMT 0x98000280 d a m t) from rfl]
  generalize BitVec.ofNat 32 (encDAMT 0x98000280 d a m t) = w at *
  rw [raw_4C h0]
  unfold decodeMajor4C
  rw [h1]
  rw [h2, h3, h4, h5]
  rfl

theorem vclz (d : BitVec 6) (a : BitVec 6) (m : BitVec 3) (t : BitVec 4) : Statement (.vclz d a m t) := by
  obtain ⟨h0, h1, h2, h3, h4, h5⟩ := fields_DAMT_7 0x98000300 d a m t 0x4C 6 (by decide) (by decide) (by decide)
  refine of_raw fun lit => ?_
  rw [show encodeWord (.vclz d a m t) = BitVec.ofNat 32 (encDAMT 0x98000300 d a m t) from rfl]
  generalize BitVec.ofNat 32 (encDAMT 0x98000300 d a m t) = w at *
  rw [raw_4C h0]
  unfold decodeMajor4C
  rw [h1]
  rw [h2, h3, h4, h5]
  rfl

theorem vpopc (d : BitVec 6) (a : BitVec 6) (m : BitVec 3) (t : BitVec 4) : Statement (.vpopc d a m t) := by
  obtain ⟨h0, h1, h2, h3, h4, h5⟩ := fields_DAMT_7 0x98000380 d a m t 0x4C 7 (by decide) (by decide) (by decide)
  refine of_raw fun lit => ?_
  rw [show encodeWord (.vpopc d a m t) = BitVec.ofNat 32 (encDAMT 0x98000380 d a m t) from rfl]
  generalize BitVec.ofNat 32 (encDAMT 0x98000380 d a m t) = w at *
  rw [raw_4C h0]
  unfold decodeMajor4C
  rw [h1]
  rw [h2, h3, h4, h5]
  rfl

theorem vrint (d : BitVec 6) (a : BitVec 6) (m : BitVec 3) (t : BitVec 4) : Statement (.vrint d a m t) := by
  obtain ⟨h0, h1, h2, h3, h4, h5⟩ := fields_DAMT_7 0x98000400 d a m t 0x4C 8 (by decide) (by decide) (by decide)
  refine of_raw fun lit => ?_
  rw [show encodeWord (.vrint d a m t) = BitVec.ofNat 32 (encDAMT 0x98000400 d a m t) from rfl]
  generalize BitVec.ofNat 32 (encDAMT 0x98000400 d a m t) = w at *
  rw [raw_4C h0]
  unfold decodeMajor4C
  rw [h1]
  rw [h2, h3, h4, h5]
  rfl

theorem vclass (d : BitVec 6) (a : BitVec 6) (m : BitVec 3) (t : BitVec 4) : Statement (.vclass d a m t) := by
  obtain ⟨h0, h1, h2, h3, h4, h5⟩ := fields_DAMT_7 0x98000480 d a m t 0x4C 9 (by decide) (by decide) (by decide)
  refine of_raw fun lit => ?_
  rw [show encodeWord (.vclass d a m t) = BitVec.ofNat 32 (encDAMT 0x98000480 d a m t) from rfl]
  generalize BitVec.ofNat 32 (encDAMT 0x98000480 d a m t) = w at *
  rw [raw_4C h0]
  unfold decodeMajor4C
  rw [h1]
  rw [h2, h3, h4, h5]
  rfl

theorem vmov (d : BitVec 6) (a : BitVec 6) (m : BitVec 3) (t : BitVec 4) : Statement (.vmov d a m t) := by
  obtain ⟨h0, h1, h2, h3, h4, h5⟩ := fields_DAMT_7 0x98000500 d a m t 0x4C 10 (by decide) (by decide) (by decide)
  refine of_raw fun lit => ?_
  rw [show encodeWord (.vmov d a m t) = BitVec.ofNat 32 (encDAMT 0x98000500 d a m t) from rfl]
  generalize BitVec.ofNat 32 (encDAMT 0x98000500 d a m t) = w at *
  rw [raw_4C h0]
  unfold decodeMajor4C
  rw [h1]
  rw [h2, h3, h4, h5]
  rfl

theorem vcvt (d : BitVec 6) (a : BitVec 6) (s : BitVec 1) (u : BitVec 4) (m : BitVec 3) (t : BitVec 4) : Statement (.vcvt d a s u m t) := by
  obtain ⟨h0, h1, h2, h3, h4, h5, h6⟩ := fields_DASUMT 0x9A000000 d a s u m t 0x4D (by decide) (by decide)
  refine of_raw fun lit => ?_
  rw [show encodeWord (.vcvt d a s u m t) = BitVec.ofNat 32 (encDASUMT 0x9A000000 d a s u m t) from rfl]
  generalize BitVec.ofNat 32 (encDASUMT 0x9A000000 d a s u m t) = w at *
  rw [raw_4D h0, h1, h2, h3, h4, h5, h6]

theorem vredSum (d : BitVec 6) (a : BitVec 6) (m : BitVec 3) (t : BitVec 4) : Statement (.vredSum d a m t) := by
  obtain ⟨h0, h1, h2, h3, h4, h5⟩ := fields_DAMT_7 0x9C000000 d a m t 0x4E 0 (by decide) (by decide) (by decide)
  refine of_raw fun lit => ?_
  rw [show encodeWord (.vredSum d a m t) = BitVec.ofNat 32 (encDAMT 0x9C000000 d a m t) from rfl]
  generalize BitVec.ofNat 32 (encDAMT 0x9C000000 d a m t) = w at *
  rw [raw_4E h0]
  unfold decodeMajor4E
  rw [h1]
  rw [h2, h3, h4, h5]
  rfl

theorem vredMin (d : BitVec 6) (a : BitVec 6) (m : BitVec 3) (t : BitVec 4) : Statement (.vredMin d a m t) := by
  obtain ⟨h0, h1, h2, h3, h4, h5⟩ := fields_DAMT_7 0x9C000080 d a m t 0x4E 1 (by decide) (by decide) (by decide)
  refine of_raw fun lit => ?_
  rw [show encodeWord (.vredMin d a m t) = BitVec.ofNat 32 (encDAMT 0x9C000080 d a m t) from rfl]
  generalize BitVec.ofNat 32 (encDAMT 0x9C000080 d a m t) = w at *
  rw [raw_4E h0]
  unfold decodeMajor4E
  rw [h1]
  rw [h2, h3, h4, h5]
  rfl

theorem vredMax (d : BitVec 6) (a : BitVec 6) (m : BitVec 3) (t : BitVec 4) : Statement (.vredMax d a m t) := by
  obtain ⟨h0, h1, h2, h3, h4, h5⟩ := fields_DAMT_7 0x9C000100 d a m t 0x4E 2 (by decide) (by decide) (by decide)
  refine of_raw fun lit => ?_
  rw [show encodeWord (.vredMax d a m t) = BitVec.ofNat 32 (encDAMT 0x9C000100 d a m t) from rfl]
  generalize BitVec.ofNat 32 (encDAMT 0x9C000100 d a m t) = w at *
  rw [raw_4E h0]
  unfold decodeMajor4E
  rw [h1]
  rw [h2, h3, h4, h5]
  rfl

theorem vredAnd (d : BitVec 6) (a : BitVec 6) (m : BitVec 3) (t : BitVec 4) : Statement (.vredAnd d a m t) := by
  obtain ⟨h0, h1, h2, h3, h4, h5⟩ := fields_DAMT_7 0x9C000180 d a m t 0x4E 3 (by decide) (by decide) (by decide)
  refine of_raw fun lit => ?_
  rw [show encodeWord (.vredAnd d a m t) = BitVec.ofNat 32 (encDAMT 0x9C000180 d a m t) from rfl]
  generalize BitVec.ofNat 32 (encDAMT 0x9C000180 d a m t) = w at *
  rw [raw_4E h0]
  unfold decodeMajor4E
  rw [h1]
  rw [h2, h3, h4, h5]
  rfl

theorem vredOr (d : BitVec 6) (a : BitVec 6) (m : BitVec 3) (t : BitVec 4) : Statement (.vredOr d a m t) := by
  obtain ⟨h0, h1, h2, h3, h4, h5⟩ := fields_DAMT_7 0x9C000200 d a m t 0x4E 4 (by decide) (by decide) (by decide)
  refine of_raw fun lit => ?_
  rw [show encodeWord (.vredOr d a m t) = BitVec.ofNat 32 (encDAMT 0x9C000200 d a m t) from rfl]
  generalize BitVec.ofNat 32 (encDAMT 0x9C000200 d a m t) = w at *
  rw [raw_4E h0]
  unfold decodeMajor4E
  rw [h1]
  rw [h2, h3, h4, h5]
  rfl

theorem vredXor (d : BitVec 6) (a : BitVec 6) (m : BitVec 3) (t : BitVec 4) : Statement (.vredXor d a m t) := by
  obtain ⟨h0, h1, h2, h3, h4, h5⟩ := fields_DAMT_7 0x9C000280 d a m t 0x4E 5 (by decide) (by decide) (by decide)
  refine of_raw fun lit => ?_
  rw [show encodeWord (.vredXor d a m t) = BitVec.ofNat 32 (encDAMT 0x9C000280 d a m t) from rfl]
  generalize BitVec.ofNat 32 (encDAMT 0x9C000280 d a m t) = w at *
  rw [raw_4E h0]
  unfold decodeMajor4E
  rw [h1]
  rw [h2, h3, h4, h5]
  rfl

theorem vredSumw (d : BitVec 6) (a : BitVec 6) (m : BitVec 3) (t : BitVec 4) : Statement (.vredSumw d a m t) := by
  obtain ⟨h0, h1, h2, h3, h4, h5⟩ := fields_DAMT_7 0x9C000300 d a m t 0x4E 6 (by decide) (by decide) (by decide)
  refine of_raw fun lit => ?_
  rw [show encodeWord (.vredSumw d a m t) = BitVec.ofNat 32 (encDAMT 0x9C000300 d a m t) from rfl]
  generalize BitVec.ofNat 32 (encDAMT 0x9C000300 d a m t) = w at *
  rw [raw_4E h0]
  unfold decodeMajor4E
  rw [h1]
  rw [h2, h3, h4, h5]
  rfl

theorem vscanSum (d : BitVec 6) (a : BitVec 6) (m : BitVec 3) (t : BitVec 4) : Statement (.vscanSum d a m t) := by
  obtain ⟨h0, h1, h2, h3, h4, h5⟩ := fields_DAMT_7 0x9C000400 d a m t 0x4E 8 (by decide) (by decide) (by decide)
  refine of_raw fun lit => ?_
  rw [show encodeWord (.vscanSum d a m t) = BitVec.ofNat 32 (encDAMT 0x9C000400 d a m t) from rfl]
  generalize BitVec.ofNat 32 (encDAMT 0x9C000400 d a m t) = w at *
  rw [raw_4E h0]
  unfold decodeMajor4E
  rw [h1]
  rw [h2, h3, h4, h5]
  rfl

theorem vscanMin (d : BitVec 6) (a : BitVec 6) (m : BitVec 3) (t : BitVec 4) : Statement (.vscanMin d a m t) := by
  obtain ⟨h0, h1, h2, h3, h4, h5⟩ := fields_DAMT_7 0x9C000480 d a m t 0x4E 9 (by decide) (by decide) (by decide)
  refine of_raw fun lit => ?_
  rw [show encodeWord (.vscanMin d a m t) = BitVec.ofNat 32 (encDAMT 0x9C000480 d a m t) from rfl]
  generalize BitVec.ofNat 32 (encDAMT 0x9C000480 d a m t) = w at *
  rw [raw_4E h0]
  unfold decodeMajor4E
  rw [h1]
  rw [h2, h3, h4, h5]
  rfl

theorem vscanMax (d : BitVec 6) (a : BitVec 6) (m : BitVec 3) (t : BitVec 4) : Statement (.vscanMax d a m t) := by
  obtain ⟨h0, h1, h2, h3, h4, h5⟩ := fields_DAMT_7 0x9C000500 d a m t 0x4E 10 (by decide) (by decide) (by decide)
  refine of_raw fun lit => ?_
  rw [show encodeWord (.vscanMax d a m t) = BitVec.ofNat 32 (encDAMT 0x9C000500 d a m t) from rfl]
  generalize BitVec.ofNat 32 (encDAMT 0x9C000500 d a m t) = w at *
  rw [raw_4E h0]
  unfold decodeMajor4E
  rw [h1]
  rw [h2, h3, h4, h5]
  rfl

theorem mand (d : BitVec 6) (a : BitVec 6) (b : BitVec 6) : Statement (.mand d a b) := by
  obtain ⟨h0, h1, h2, h3, h4⟩ := fields_DAB_4 0x9E000000 d a b 0x4F 0 (by decide) (by decide) (by decide)
  refine of_raw fun lit => ?_
  rw [show encodeWord (.mand d a b) = BitVec.ofNat 32 (encDAB 0x9E000000 d a b) from rfl]
  generalize BitVec.ofNat 32 (encDAB 0x9E000000 d a b) = w at *
  rw [raw_4F h0]
  unfold decodeMajor4F
  rw [h1]
  rw [h2, h3, h4]
  rfl

theorem mor (d : BitVec 6) (a : BitVec 6) (b : BitVec 6) : Statement (.mor d a b) := by
  obtain ⟨h0, h1, h2, h3, h4⟩ := fields_DAB_4 0x9E000010 d a b 0x4F 1 (by decide) (by decide) (by decide)
  refine of_raw fun lit => ?_
  rw [show encodeWord (.mor d a b) = BitVec.ofNat 32 (encDAB 0x9E000010 d a b) from rfl]
  generalize BitVec.ofNat 32 (encDAB 0x9E000010 d a b) = w at *
  rw [raw_4F h0]
  unfold decodeMajor4F
  rw [h1]
  rw [h2, h3, h4]
  rfl

theorem mxor (d : BitVec 6) (a : BitVec 6) (b : BitVec 6) : Statement (.mxor d a b) := by
  obtain ⟨h0, h1, h2, h3, h4⟩ := fields_DAB_4 0x9E000020 d a b 0x4F 2 (by decide) (by decide) (by decide)
  refine of_raw fun lit => ?_
  rw [show encodeWord (.mxor d a b) = BitVec.ofNat 32 (encDAB 0x9E000020 d a b) from rfl]
  generalize BitVec.ofNat 32 (encDAB 0x9E000020 d a b) = w at *
  rw [raw_4F h0]
  unfold decodeMajor4F
  rw [h1]
  rw [h2, h3, h4]
  rfl

theorem mandn (d : BitVec 6) (a : BitVec 6) (b : BitVec 6) : Statement (.mandn d a b) := by
  obtain ⟨h0, h1, h2, h3, h4⟩ := fields_DAB_4 0x9E000030 d a b 0x4F 3 (by decide) (by decide) (by decide)
  refine of_raw fun lit => ?_
  rw [show encodeWord (.mandn d a b) = BitVec.ofNat 32 (encDAB 0x9E000030 d a b) from rfl]
  generalize BitVec.ofNat 32 (encDAB 0x9E000030 d a b) = w at *
  rw [raw_4F h0]
  unfold decodeMajor4F
  rw [h1]
  rw [h2, h3, h4]
  rfl

theorem mlen (d : BitVec 6) (a : BitVec 6) : Statement (.mlen d a) := by
  obtain ⟨h0, h1, h2, h3⟩ := fields_DA_4 0x9E000040 d a 0x4F 4 (by decide) (by decide) (by decide)
  refine of_raw fun lit => ?_
  rw [show encodeWord (.mlen d a) = BitVec.ofNat 32 (encDA 0x9E000040 d a) from rfl]
  generalize BitVec.ofNat 32 (encDA 0x9E000040 d a) = w at *
  rw [raw_4F h0]
  unfold decodeMajor4F
  rw [h1]
  rw [h2, h3]
  rfl

theorem mpopc (d : BitVec 6) (a : BitVec 6) : Statement (.mpopc d a) := by
  obtain ⟨h0, h1, h2, h3⟩ := fields_DA_4 0x9E000050 d a 0x4F 5 (by decide) (by decide) (by decide)
  refine of_raw fun lit => ?_
  rw [show encodeWord (.mpopc d a) = BitVec.ofNat 32 (encDA 0x9E000050 d a) from rfl]
  generalize BitVec.ofNat 32 (encDA 0x9E000050 d a) = w at *
  rw [raw_4F h0]
  unfold decodeMajor4F
  rw [h1]
  rw [h2, h3]
  rfl

theorem mfirst (d : BitVec 6) (a : BitVec 6) : Statement (.mfirst d a) := by
  obtain ⟨h0, h1, h2, h3⟩ := fields_DA_4 0x9E000060 d a 0x4F 6 (by decide) (by decide) (by decide)
  refine of_raw fun lit => ?_
  rw [show encodeWord (.mfirst d a) = BitVec.ofNat 32 (encDA 0x9E000060 d a) from rfl]
  generalize BitVec.ofNat 32 (encDA 0x9E000060 d a) = w at *
  rw [raw_4F h0]
  unfold decodeMajor4F
  rw [h1]
  rw [h2, h3]
  rfl

theorem mtov (d : BitVec 6) (a : BitVec 6) : Statement (.mtov d a) := by
  obtain ⟨h0, h1, h2, h3⟩ := fields_DA_4 0x9E000070 d a 0x4F 7 (by decide) (by decide) (by decide)
  refine of_raw fun lit => ?_
  rw [show encodeWord (.mtov d a) = BitVec.ofNat 32 (encDA 0x9E000070 d a) from rfl]
  generalize BitVec.ofNat 32 (encDA 0x9E000070 d a) = w at *
  rw [raw_4F h0]
  unfold decodeMajor4F
  rw [h1]
  rw [h2, h3]
  rfl

theorem vsplat (d : BitVec 6) (a : BitVec 6) (m : BitVec 3) (t : BitVec 4) : Statement (.vsplat d a m t) := by
  obtain ⟨h0, h1, h2, h3, h4⟩ := fields_DAMT 0xA0000000 d a m t 0x50 (by decide) (by decide)
  refine of_raw fun lit => ?_
  rw [show encodeWord (.vsplat d a m t) = BitVec.ofNat 32 (encDAMT 0xA0000000 d a m t) from rfl]
  generalize BitVec.ofNat 32 (encDAMT 0xA0000000 d a m t) = w at *
  rw [raw_50 h0, h1, h2, h3, h4]

theorem vext (d : BitVec 6) (a : BitVec 6) (b : BitVec 6) (t : BitVec 4) : Statement (.vext d a b t) := by
  obtain ⟨h0, h1, h2, h3, h4, h5⟩ := fields_DABT_4_1 0xA2000000 d a b t 0x51 0 (by decide) (by decide) (by decide)
  refine of_raw fun lit => ?_
  rw [show encodeWord (.vext d a b t) = BitVec.ofNat 32 (encDABT 0xA2000000 d a b t) from rfl]
  generalize BitVec.ofNat 32 (encDABT 0xA2000000 d a b t) = w at *
  rw [raw_51 h0]
  unfold decodeMajor51
  rw [h1]
  rw [h2, h3, h4, h5]
  rfl

theorem vins (d : BitVec 6) (a : BitVec 6) (b : BitVec 6) (t : BitVec 4) : Statement (.vins d a b t) := by
  obtain ⟨h0, h1, h2, h3, h4, h5⟩ := fields_DABT_4_1 0xA2000010 d a b t 0x51 1 (by decide) (by decide) (by decide)
  refine of_raw fun lit => ?_
  rw [show encodeWord (.vins d a b t) = BitVec.ofNat 32 (encDABT 0xA2000010 d a b t) from rfl]
  generalize BitVec.ofNat 32 (encDABT 0xA2000010 d a b t) = w at *
  rw [raw_51 h0]
  unfold decodeMajor51
  rw [h1]
  rw [h2, h3, h4, h5]
  rfl

theorem mxnest (y : BitVec 6) (tk : Tk) : Statement (.mxnest y tk) := by
  obtain ⟨h0, h1, h2, h3⟩ := fields_YTk_8 0xA8000000 y tk 0x54 0 (by decide) (by decide) (by decide)
  refine of_raw fun lit => ?_
  rw [show encodeWord (.mxnest y tk) = BitVec.ofNat 32 (encYTk 0xA8000000 y tk) from rfl]
  generalize BitVec.ofNat 32 (encYTk 0xA8000000 y tk) = w at *
  rw [raw_54 h0]
  unfold decodeMajor54
  rw [h1]
  rw [h2, h3]
  rfl

theorem mxgo (tk : Tk) : Statement (.mxgo tk) := by
  obtain ⟨h0, h1, h2⟩ := fields_Tk_8 0xA8000100 tk 0x54 1 (by decide) (by decide) (by decide)
  refine of_raw fun lit => ?_
  rw [show encodeWord (.mxgo tk) = BitVec.ofNat 32 (encTk 0xA8000100 tk) from rfl]
  generalize BitVec.ofNat 32 (encTk 0xA8000100 tk) = w at *
  rw [raw_54 h0]
  unfold decodeMajor54
  rw [h1]
  rw [h2]
  rfl

theorem mxwait (tk : Tk) : Statement (.mxwait tk) := by
  obtain ⟨h0, h1, h2⟩ := fields_Tk_8 0xA8000200 tk 0x54 2 (by decide) (by decide) (by decide)
  refine of_raw fun lit => ?_
  rw [show encodeWord (.mxwait tk) = BitVec.ofNat 32 (encTk 0xA8000200 tk) from rfl]
  generalize BitVec.ofNat 32 (encTk 0xA8000200 tk) = w at *
  rw [raw_54 h0]
  unfold decodeMajor54
  rw [h1]
  rw [h2]
  rfl

theorem mxstat (x : BitVec 6) (tk : Tk) : Statement (.mxstat x tk) := by
  obtain ⟨h0, h1, h2, h3⟩ := fields_XTk_8 0xA8000300 x tk 0x54 3 (by decide) (by decide) (by decide)
  refine of_raw fun lit => ?_
  rw [show encodeWord (.mxstat x tk) = BitVec.ofNat 32 (encXTk 0xA8000300 x tk) from rfl]
  generalize BitVec.ofNat 32 (encXTk 0xA8000300 x tk) = w at *
  rw [raw_54 h0]
  unfold decodeMajor54
  rw [h1]
  rw [h2, h3]
  rfl

theorem mxdrain (x : BitVec 6) (y : BitVec 6) (m : BitVec 3) (tk : Tk) : Statement (.mxdrain x y m tk) := by
  obtain ⟨h0, h1, h2, h3, h4, h5⟩ := fields_XYMTk_8 0xA8000800 x y m tk 0x54 8 (by decide) (by decide) (by decide) (by decide)
  refine of_raw fun lit => ?_
  rw [show encodeWord (.mxdrain x y m tk) = BitVec.ofNat 32 (encXYMTk 0xA8000800 x y m tk) from rfl]
  generalize BitVec.ofNat 32 (encXYMTk 0xA8000800 x y m tk) = w at *
  rw [raw_54 h0]
  unfold decodeMajor54
  have := m.isLt
  have hs : bitsAt w 8 5 = 8 ∨ bitsAt w 8 5 = 9 ∨ bitsAt w 8 5 = 10 ∨ bitsAt w 8 5 = 11 ∨ bitsAt w 8 5 = 12 ∨ bitsAt w 8 5 = 13 ∨ bitsAt w 8 5 = 14 ∨ bitsAt w 8 5 = 15 := by omega
  rcases hs with hs | hs | hs | hs | hs | hs | hs | hs <;> rw [hs, h2, h3, h4, h5] <;> rfl

theorem mxzero (x : BitVec 6) (tk : Tk) : Statement (.mxzero x tk) := by
  obtain ⟨h0, h1, h2, h3⟩ := fields_XTk_8 0xA8001000 x tk 0x54 16 (by decide) (by decide) (by decide)
  refine of_raw fun lit => ?_
  rw [show encodeWord (.mxzero x tk) = BitVec.ofNat 32 (encXTk 0xA8001000 x tk) from rfl]
  generalize BitVec.ofNat 32 (encXTk 0xA8001000 x tk) = w at *
  rw [raw_54 h0]
  unfold decodeMajor54
  rw [h1]
  rw [h2, h3]
  rfl

theorem mxmma (x : BitVec 6) (y : BitVec 6) (n : BitVec 3) (tk : Tk) : Statement (.mxmma x y n tk) := by
  obtain ⟨h0, h1, h2, h3, h4, h5⟩ := fields_XYNTk_8 0xA8001800 x y n tk 0x54 24 (by decide) (by decide) (by decide) (by decide)
  refine of_raw fun lit => ?_
  rw [show encodeWord (.mxmma x y n tk) = BitVec.ofNat 32 (encXYNTk 0xA8001800 x y n tk) from rfl]
  generalize BitVec.ofNat 32 (encXYNTk 0xA8001800 x y n tk) = w at *
  rw [raw_54 h0]
  unfold decodeMajor54
  have := n.isLt
  have hs : bitsAt w 8 5 = 24 ∨ bitsAt w 8 5 = 25 ∨ bitsAt w 8 5 = 26 ∨ bitsAt w 8 5 = 27 ∨ bitsAt w 8 5 = 28 ∨ bitsAt w 8 5 = 29 ∨ bitsAt w 8 5 = 30 ∨ bitsAt w 8 5 = 31 := by omega
  rcases hs with hs | hs | hs | hs | hs | hs | hs | hs <;> rw [hs, h2, h3, h4, h5] <;> rfl

theorem tdef (x : BitVec 6) (y : BitVec 6) (tk : Tk) : Statement (.tdef x y tk) := by
  obtain ⟨h0, h1, h2, h3, h4⟩ := fields_XYTk_8 0xAA000000 x y tk 0x55 0 (by decide) (by decide) (by decide)
  refine of_raw fun lit => ?_
  rw [show encodeWord (.tdef x y tk) = BitVec.ofNat 32 (encXYTk 0xAA000000 x y tk) from rfl]
  generalize BitVec.ofNat 32 (encXYTk 0xAA000000 x y tk) = w at *
  rw [raw_55 h0]
  unfold decodeMajor55
  rw [h1]
  rw [h2, h3, h4]
  rfl

theorem tvalid (y : BitVec 6) (tk : Tk) : Statement (.tvalid y tk) := by
  obtain ⟨h0, h1, h2, h3⟩ := fields_YTk_8 0xAA000100 y tk 0x55 1 (by decide) (by decide) (by decide)
  refine of_raw fun lit => ?_
  rw [show encodeWord (.tvalid y tk) = BitVec.ofNat 32 (encYTk 0xAA000100 y tk) from rfl]
  generalize BitVec.ofNat 32 (encYTk 0xAA000100 y tk) = w at *
  rw [raw_55 h0]
  unfold decodeMajor55
  rw [h1]
  rw [h2, h3]
  rfl

theorem tinval (y : BitVec 6) (tk : Tk) : Statement (.tinval y tk) := by
  obtain ⟨h0, h1, h2, h3⟩ := fields_YTk_8 0xAA000200 y tk 0x55 2 (by decide) (by decide) (by decide)
  refine of_raw fun lit => ?_
  rw [show encodeWord (.tinval y tk) = BitVec.ofNat 32 (encYTk 0xAA000200 y tk) from rfl]
  generalize BitVec.ofNat 32 (encYTk 0xAA000200 y tk) = w at *
  rw [raw_55 h0]
  unfold decodeMajor55
  rw [h1]
  rw [h2, h3]
  rfl

theorem tstat (x : BitVec 6) (y : BitVec 6) (tk : Tk) : Statement (.tstat x y tk) := by
  obtain ⟨h0, h1, h2, h3, h4⟩ := fields_XYTk_8 0xAA000300 x y tk 0x55 3 (by decide) (by decide) (by decide)
  refine of_raw fun lit => ?_
  rw [show encodeWord (.tstat x y tk) = BitVec.ofNat 32 (encXYTk 0xAA000300 x y tk) from rfl]
  generalize BitVec.ofNat 32 (encXYTk 0xAA000300 x y tk) = w at *
  rw [raw_55 h0]
  unfold decodeMajor55
  rw [h1]
  rw [h2, h3, h4]
  rfl

theorem twait (y : BitVec 6) (tk : Tk) : Statement (.twait y tk) := by
  obtain ⟨h0, h1, h2, h3⟩ := fields_YTk_8 0xAA000400 y tk 0x55 4 (by decide) (by decide) (by decide)
  refine of_raw fun lit => ?_
  rw [show encodeWord (.twait y tk) = BitVec.ofNat 32 (encYTk 0xAA000400 y tk) from rfl]
  generalize BitVec.ofNat 32 (encYTk 0xAA000400 y tk) = w at *
  rw [raw_55 h0]
  unfold decodeMajor55
  rw [h1]
  rw [h2, h3]
  rfl

theorem walkAdd (x : BitVec 6) (tk : Tk) : Statement (.walkAdd x tk) := by
  obtain ⟨h0, h1, h2, h3⟩ := fields_XTk_8 0xAC000000 x tk 0x56 0 (by decide) (by decide) (by decide)
  refine of_raw fun lit => ?_
  rw [show encodeWord (.walkAdd x tk) = BitVec.ofNat 32 (encXTk 0xAC000000 x tk) from rfl]
  generalize BitVec.ofNat 32 (encXTk 0xAC000000 x tk) = w at *
  rw [raw_56 h0]
  unfold decodeMajor56
  rw [h1]
  rw [h2, h3]
  rfl

theorem walkMin (x : BitVec 6) (tk : Tk) : Statement (.walkMin x tk) := by
  obtain ⟨h0, h1, h2, h3⟩ := fields_XTk_8 0xAC000100 x tk 0x56 1 (by decide) (by decide) (by decide)
  refine of_raw fun lit => ?_
  rw [show encodeWord (.walkMin x tk) = BitVec.ofNat 32 (encXTk 0xAC000100 x tk) from rfl]
  generalize BitVec.ofNat 32 (encXTk 0xAC000100 x tk) = w at *
  rw [raw_56 h0]
  unfold decodeMajor56
  rw [h1]
  rw [h2, h3]
  rfl

theorem walkMax (x : BitVec 6) (tk : Tk) : Statement (.walkMax x tk) := by
  obtain ⟨h0, h1, h2, h3⟩ := fields_XTk_8 0xAC000200 x tk 0x56 2 (by decide) (by decide) (by decide)
  refine of_raw fun lit => ?_
  rw [show encodeWord (.walkMax x tk) = BitVec.ofNat 32 (encXTk 0xAC000200 x tk) from rfl]
  generalize BitVec.ofNat 32 (encXTk 0xAC000200 x tk) = w at *
  rw [raw_56 h0]
  unfold decodeMajor56
  rw [h1]
  rw [h2, h3]
  rfl

theorem walkAnd (x : BitVec 6) (tk : Tk) : Statement (.walkAnd x tk) := by
  obtain ⟨h0, h1, h2, h3⟩ := fields_XTk_8 0xAC000300 x tk 0x56 3 (by decide) (by decide) (by decide)
  refine of_raw fun lit => ?_
  rw [show encodeWord (.walkAnd x tk) = BitVec.ofNat 32 (encXTk 0xAC000300 x tk) from rfl]
  generalize BitVec.ofNat 32 (encXTk 0xAC000300 x tk) = w at *
  rw [raw_56 h0]
  unfold decodeMajor56
  rw [h1]
  rw [h2, h3]
  rfl

theorem walkOr (x : BitVec 6) (tk : Tk) : Statement (.walkOr x tk) := by
  obtain ⟨h0, h1, h2, h3⟩ := fields_XTk_8 0xAC000400 x tk 0x56 4 (by decide) (by decide) (by decide)
  refine of_raw fun lit => ?_
  rw [show encodeWord (.walkOr x tk) = BitVec.ofNat 32 (encXTk 0xAC000400 x tk) from rfl]
  generalize BitVec.ofNat 32 (encXTk 0xAC000400 x tk) = w at *
  rw [raw_56 h0]
  unfold decodeMajor56
  rw [h1]
  rw [h2, h3]
  rfl

theorem walkXor (x : BitVec 6) (tk : Tk) : Statement (.walkXor x tk) := by
  obtain ⟨h0, h1, h2, h3⟩ := fields_XTk_8 0xAC000500 x tk 0x56 5 (by decide) (by decide) (by decide)
  refine of_raw fun lit => ?_
  rw [show encodeWord (.walkXor x tk) = BitVec.ofNat 32 (encXTk 0xAC000500 x tk) from rfl]
  generalize BitVec.ofNat 32 (encXTk 0xAC000500 x tk) = w at *
  rw [raw_56 h0]
  unfold decodeMajor56
  rw [h1]
  rw [h2, h3]
  rfl

theorem walkPopc (x : BitVec 6) (tk : Tk) : Statement (.walkPopc x tk) := by
  obtain ⟨h0, h1, h2, h3⟩ := fields_XTk_8 0xAC000600 x tk 0x56 6 (by decide) (by decide) (by decide)
  refine of_raw fun lit => ?_
  rw [show encodeWord (.walkPopc x tk) = BitVec.ofNat 32 (encXTk 0xAC000600 x tk) from rfl]
  generalize BitVec.ofNat 32 (encXTk 0xAC000600 x tk) = w at *
  rw [raw_56 h0]
  unfold decodeMajor56
  rw [h1]
  rw [h2, h3]
  rfl

theorem walkHist (x : BitVec 6) (tk : Tk) : Statement (.walkHist x tk) := by
  obtain ⟨h0, h1, h2, h3⟩ := fields_XTk_8 0xAC000700 x tk 0x56 7 (by decide) (by decide) (by decide)
  refine of_raw fun lit => ?_
  rw [show encodeWord (.walkHist x tk) = BitVec.ofNat 32 (encXTk 0xAC000700 x tk) from rfl]
  generalize BitVec.ofNat 32 (encXTk 0xAC000700 x tk) = w at *
  rw [raw_56 h0]
  unfold decodeMajor56
  rw [h1]
  rw [h2, h3]
  rfl

theorem vview (x : BitVec 6) (tk : Tk) : Statement (.vview x tk) := by
  obtain ⟨h0, h1, h2, h3⟩ := fields_XTk_8 0xAE000000 x tk 0x57 0 (by decide) (by decide) (by decide)
  refine of_raw fun lit => ?_
  rw [show encodeWord (.vview x tk) = BitVec.ofNat 32 (encXTk 0xAE000000 x tk) from rfl]
  generalize BitVec.ofNat 32 (encXTk 0xAE000000 x tk) = w at *
  rw [raw_57 h0]
  unfold decodeMajor57
  rw [h1]
  rw [h2, h3]
  rfl

theorem aview (x : BitVec 6) (tk : Tk) : Statement (.aview x tk) := by
  obtain ⟨h0, h1, h2, h3⟩ := fields_XTk_8 0xAE000100 x tk 0x57 1 (by decide) (by decide) (by decide)
  refine of_raw fun lit => ?_
  rw [show encodeWord (.aview x tk) = BitVec.ofNat 32 (encXTk 0xAE000100 x tk) from rfl]
  generalize BitVec.ofNat 32 (encXTk 0xAE000100 x tk) = w at *
  rw [raw_57 h0]
  unfold decodeMajor57
  rw [h1]
  rw [h2, h3]
  rfl

theorem vigilMx (x : BitVec 6) (y : BitVec 6) (tk : Tk) (lit : BitVec 32) : Statement (.vigilMx x y tk lit) := by
  intro _ hw nxt
  refine decodeWord_of_raw ?_ hw
  obtain ⟨h0, h1, h2, h3, h4⟩ := fields_XYTk_8 0xB0000000 x y tk 0x58 0 rfl (by decide) (by decide)
  change rawDecode (BitVec.ofNat 32 (encXYTk 0xB0000000 x y tk)) lit = _
  generalize BitVec.ofNat 32 (encXYTk 0xB0000000 x y tk) = w at *
  rw [raw_58 h0]
  unfold decodeMajor58
  rw [h1, h2, h3, h4]
  rfl

theorem vigilVec (x : BitVec 6) (tk : Tk) (lit : BitVec 32) : Statement (.vigilVec x tk lit) := by
  intro _ hw nxt
  refine decodeWord_of_raw ?_ hw
  obtain ⟨h0, h1, h2, h3⟩ := fields_XTk_8 0xB0000100 x tk 0x58 1 rfl (by decide) (by decide)
  change rawDecode (BitVec.ofNat 32 (encXTk 0xB0000100 x tk)) lit = _
  generalize BitVec.ofNat 32 (encXTk 0xB0000100 x tk) = w at *
  rw [raw_58 h0]
  unfold decodeMajor58
  rw [h1, h2, h3]
  rfl

theorem vigilRd (x : BitVec 6) (tk : Tk) (lit : BitVec 32) : Statement (.vigilRd x tk lit) := by
  intro _ hw nxt
  refine decodeWord_of_raw ?_ hw
  obtain ⟨h0, h1, h2, h3⟩ := fields_XTk_8 0xB0000200 x tk 0x58 2 rfl (by decide) (by decide)
  change rawDecode (BitVec.ofNat 32 (encXTk 0xB0000200 x tk)) lit = _
  generalize BitVec.ofNat 32 (encXTk 0xB0000200 x tk) = w at *
  rw [raw_58 h0]
  unfold decodeMajor58
  rw [h1, h2, h3]
  rfl

theorem amdef (x : BitVec 6) (y : BitVec 6) (tk : Tk) : Statement (.amdef x y tk) := by
  obtain ⟨h0, h1, h2, h3, h4⟩ := fields_XYTk_8 0xB2000000 x y tk 0x59 0 (by decide) (by decide) (by decide)
  refine of_raw fun lit => ?_
  rw [show encodeWord (.amdef x y tk) = BitVec.ofNat 32 (encXYTk 0xB2000000 x y tk) from rfl]
  generalize BitVec.ofNat 32 (encXYTk 0xB2000000 x y tk) = w at *
  rw [raw_59 h0]
  unfold decodeMajor59
  rw [h1]
  rw [h2, h3, h4]
  rfl

theorem aset (x : BitVec 6) (y : BitVec 6) (tk : Tk) : Statement (.aset x y tk) := by
  obtain ⟨h0, h1, h2, h3, h4⟩ := fields_XYTk_8 0xB2000100 x y tk 0x59 1 (by decide) (by decide) (by decide)
  refine of_raw fun lit => ?_
  rw [show encodeWord (.aset x y tk) = BitVec.ofNat 32 (encXYTk 0xB2000100 x y tk) from rfl]
  generalize BitVec.ofNat 32 (encXYTk 0xB2000100 x y tk) = w at *
  rw [raw_59 h0]
  unfold decodeMajor59
  rw [h1]
  rw [h2, h3, h4]
  rfl

theorem astage (x : BitVec 6) (y : BitVec 6) (tk : Tk) : Statement (.astage x y tk) := by
  obtain ⟨h0, h1, h2, h3, h4⟩ := fields_XYTk_8 0xB2000200 x y tk 0x59 2 (by decide) (by decide) (by decide)
  refine of_raw fun lit => ?_
  rw [show encodeWord (.astage x y tk) = BitVec.ofNat 32 (encXYTk 0xB2000200 x y tk) from rfl]
  generalize BitVec.ofNat 32 (encXYTk 0xB2000200 x y tk) = w at *
  rw [raw_59 h0]
  unfold decodeMajor59
  rw [h1]
  rw [h2, h3, h4]
  rfl

theorem aerr (x : BitVec 6) (tk : Tk) : Statement (.aerr x tk) := by
  obtain ⟨h0, h1, h2, h3⟩ := fields_XTk_8 0xB2000300 x tk 0x59 3 (by decide) (by decide) (by decide)
  refine of_raw fun lit => ?_
  rw [show encodeWord (.aerr x tk) = BitVec.ofNat 32 (encXTk 0xB2000300 x tk) from rfl]
  generalize BitVec.ofNat 32 (encXTk 0xB2000300 x tk) = w at *
  rw [raw_59 h0]
  unfold decodeMajor59
  rw [h1]
  rw [h2, h3]
  rfl

theorem adec (x : BitVec 6) (tk : Tk) : Statement (.adec x tk) := by
  obtain ⟨h0, h1, h2, h3⟩ := fields_XTk_8 0xB2000400 x tk 0x59 4 (by decide) (by decide) (by decide)
  refine of_raw fun lit => ?_
  rw [show encodeWord (.adec x tk) = BitVec.ofNat 32 (encXTk 0xB2000400 x tk) from rfl]
  generalize BitVec.ofNat 32 (encXTk 0xB2000400 x tk) = w at *
  rw [raw_59 h0]
  unfold decodeMajor59
  rw [h1]
  rw [h2, h3]
  rfl

theorem aget (x : BitVec 6) (y : BitVec 6) (tk : Tk) : Statement (.aget x y tk) := by
  obtain ⟨h0, h1, h2, h3, h4⟩ := fields_XYTk_8 0xB2000500 x y tk 0x59 5 (by decide) (by decide) (by decide)
  refine of_raw fun lit => ?_
  rw [show encodeWord (.aget x y tk) = BitVec.ofNat 32 (encXYTk 0xB2000500 x y tk) from rfl]
  generalize BitVec.ofNat 32 (encXYTk 0xB2000500 x y tk) = w at *
  rw [raw_59 h0]
  unfold decodeMajor59
  rw [h1]
  rw [h2, h3, h4]
  rfl

theorem aput (x : BitVec 6) (y : BitVec 6) (tk : Tk) : Statement (.aput x y tk) := by
  obtain ⟨h0, h1, h2, h3, h4⟩ := fields_XYTk_8 0xB2000600 x y tk 0x59 6 (by decide) (by decide) (by decide)
  refine of_raw fun lit => ?_
  rw [show encodeWord (.aput x y tk) = BitVec.ofNat 32 (encXYTk 0xB2000600 x y tk) from rfl]
  generalize BitVec.ofNat 32 (encXYTk 0xB2000600 x y tk) = w at *
  rw [raw_59 h0]
  unfold decodeMajor59
  rw [h1]
  rw [h2, h3, h4]
  rfl

theorem astat (x : BitVec 6) (y : BitVec 6) (tk : Tk) : Statement (.astat x y tk) := by
  obtain ⟨h0, h1, h2, h3, h4⟩ := fields_XYTk_8 0xB2000700 x y tk 0x59 7 (by decide) (by decide) (by decide)
  refine of_raw fun lit => ?_
  rw [show encodeWord (.astat x y tk) = BitVec.ofNat 32 (encXYTk 0xB2000700 x y tk) from rfl]
  generalize BitVec.ofNat 32 (encXYTk 0xB2000700 x y tk) = w at *
  rw [raw_59 h0]
  unfold decodeMajor59
  rw [h1]
  rw [h2, h3, h4]
  rfl

theorem aoff (x : BitVec 6) (tk : Tk) : Statement (.aoff x tk) := by
  obtain ⟨h0, h1, h2, h3⟩ := fields_XTk_8 0xB2000800 x tk 0x59 8 (by decide) (by decide) (by decide)
  refine of_raw fun lit => ?_
  rw [show encodeWord (.aoff x tk) = BitVec.ofNat 32 (encXTk 0xB2000800 x tk) from rfl]
  generalize BitVec.ofNat 32 (encXTk 0xB2000800 x tk) = w at *
  rw [raw_59 h0]
  unfold decodeMajor59
  rw [h1]
  rw [h2, h3]
  rfl

theorem await (tk : Tk) : Statement (.await tk) := by
  obtain ⟨h0, h1, h2⟩ := fields_Tk_8 0xB2000900 tk 0x59 9 (by decide) (by decide) (by decide)
  refine of_raw fun lit => ?_
  rw [show encodeWord (.await tk) = BitVec.ofNat 32 (encTk 0xB2000900 tk) from rfl]
  generalize BitVec.ofNat 32 (encTk 0xB2000900 tk) = w at *
  rw [raw_59 h0]
  unfold decodeMajor59
  rw [h1]
  rw [h2]
  rfl

theorem shdecl (x : BitVec 6) (y : BitVec 6) (tk : Tk) : Statement (.shdecl x y tk) := by
  obtain ⟨h0, h1, h2, h3, h4⟩ := fields_XYTk_8 0xB4000000 x y tk 0x5A 0 (by decide) (by decide) (by decide)
  refine of_raw fun lit => ?_
  rw [show encodeWord (.shdecl x y tk) = BitVec.ofNat 32 (encXYTk 0xB4000000 x y tk) from rfl]
  generalize BitVec.ofNat 32 (encXYTk 0xB4000000 x y tk) = w at *
  rw [raw_5A h0]
  unfold decodeMajor5A
  rw [h1]
  rw [h2, h3, h4]
  rfl

theorem apxb (x : BitVec 6) (tk : Tk) : Statement (.apxb x tk) := by
  obtain ⟨h0, h1, h2, h3⟩ := fields_XTk_8 0xB4000100 x tk 0x5A 1 (by decide) (by decide) (by decide)
  refine of_raw fun lit => ?_
  rw [show encodeWord (.apxb x tk) = BitVec.ofNat 32 (encXTk 0xB4000100 x tk) from rfl]
  generalize BitVec.ofNat 32 (encXTk 0xB4000100 x tk) = w at *
  rw [raw_5A h0]
  unfold decodeMajor5A
  rw [h1]
  rw [h2, h3]
  rfl

theorem apxe (x : BitVec 6) (tk : Tk) : Statement (.apxe x tk) := by
  obtain ⟨h0, h1, h2, h3⟩ := fields_XTk_8 0xB4000200 x tk 0x5A 2 (by decide) (by decide) (by decide)
  refine of_raw fun lit => ?_
  rw [show encodeWord (.apxe x tk) = BitVec.ofNat 32 (encXTk 0xB4000200 x tk) from rfl]
  generalize BitVec.ofNat 32 (encXTk 0xB4000200 x tk) = w at *
  rw [raw_5A h0]
  unfold decodeMajor5A
  rw [h1]
  rw [h2, h3]
  rfl

theorem shinv (x : BitVec 6) (tk : Tk) : Statement (.shinv x tk) := by
  obtain ⟨h0, h1, h2, h3⟩ := fields_XTk_8 0xB4000300 x tk 0x5A 3 (by decide) (by decide) (by decide)
  refine of_raw fun lit => ?_
  rw [show encodeWord (.shinv x tk) = BitVec.ofNat 32 (encXTk 0xB4000300 x tk) from rfl]
  generalize BitVec.ofNat 32 (encXTk 0xB4000300 x tk) = w at *
  rw [raw_5A h0]
  unfold decodeMajor5A
  rw [h1]
  rw [h2, h3]
  rfl

theorem shwld (x : BitVec 6) (y : BitVec 6) (tk : Tk) : Statement (.shwld x y tk) := by
  obtain ⟨h0, h1, h2, h3, h4⟩ := fields_XYTk_8 0xB4000400 x y tk 0x5A 4 (by decide) (by decide) (by decide)
  refine of_raw fun lit => ?_
  rw [show encodeWord (.shwld x y tk) = BitVec.ofNat 32 (encXYTk 0xB4000400 x y tk) from rfl]
  generalize BitVec.ofNat 32 (encXYTk 0xB4000400 x y tk) = w at *
  rw [raw_5A h0]
  unfold decodeMajor5A
  rw [h1]
  rw [h2, h3, h4]
  rfl

theorem shwst (x : BitVec 6) (y : BitVec 6) (tk : Tk) : Statement (.shwst x y tk) := by
  obtain ⟨h0, h1, h2, h3, h4⟩ := fields_XYTk_8 0xB4000500 x y tk 0x5A 5 (by decide) (by decide) (by decide)
  refine of_raw fun lit => ?_
  rw [show encodeWord (.shwst x y tk) = BitVec.ofNat 32 (encXYTk 0xB4000500 x y tk) from rfl]
  generalize BitVec.ofNat 32 (encXYTk 0xB4000500 x y tk) = w at *
  rw [raw_5A h0]
  unfold decodeMajor5A
  rw [h1]
  rw [h2, h3, h4]
  rfl

theorem shstat (x : BitVec 6) (y : BitVec 6) (tk : Tk) : Statement (.shstat x y tk) := by
  obtain ⟨h0, h1, h2, h3, h4⟩ := fields_XYTk_8 0xB4000600 x y tk 0x5A 6 (by decide) (by decide) (by decide)
  refine of_raw fun lit => ?_
  rw [show encodeWord (.shstat x y tk) = BitVec.ofNat 32 (encXYTk 0xB4000600 x y tk) from rfl]
  generalize BitVec.ofNat 32 (encXYTk 0xB4000600 x y tk) = w at *
  rw [raw_5A h0]
  unfold decodeMajor5A
  rw [h1]
  rw [h2, h3, h4]
  rfl

theorem shmean (x : BitVec 6) (y : BitVec 6) (tk : Tk) : Statement (.shmean x y tk) := by
  obtain ⟨h0, h1, h2, h3, h4⟩ := fields_XYTk_8 0xB4000700 x y tk 0x5A 7 (by decide) (by decide) (by decide)
  refine of_raw fun lit => ?_
  rw [show encodeWord (.shmean x y tk) = BitVec.ofNat 32 (encXYTk 0xB4000700 x y tk) from rfl]
  generalize BitVec.ofNat 32 (encXYTk 0xB4000700 x y tk) = w at *
  rw [raw_5A h0]
  unfold decodeMajor5A
  rw [h1]
  rw [h2, h3, h4]
  rfl

theorem stG (x : BitVec 6) (y : BitVec 6) (p : BitVec 1) (s : BitVec 2) (tk : Tk) : Statement (.stG x y p s tk) := by
  obtain ⟨h0, h1, h2, h3, h4, h5, h6⟩ := fields_XYPSTk_8 0xC0000000 x y p s tk 0x60 0 (by decide) (by decide) (by decide) (by decide) (by decide)
  refine of_raw fun lit => ?_
  rw [show encodeWord (.stG x y p s tk) = BitVec.ofNat 32 (encXYPSTk 0xC0000000 x y p s tk) from rfl]
  generalize BitVec.ofNat 32 (encXYPSTk 0xC0000000 x y p s tk) = w at *
  rw [raw_60 h0]
  unfold decodeMajor60
  have := p.isLt; have := s.isLt
  have hs : bitsAt w 8 5 = 0 ∨ bitsAt w 8 5 = 1 ∨ bitsAt w 8 5 = 2 ∨ bitsAt w 8 5 = 3 ∨ bitsAt w 8 5 = 8 ∨ bitsAt w 8 5 = 9 ∨ bitsAt w 8 5 = 10 ∨ bitsAt w 8 5 = 11 := by omega
  rcases hs with hs | hs | hs | hs | hs | hs | hs | hs <;> rw [hs, h2, h3, h4, h5, h6] <;> rfl

theorem stL (x : BitVec 6) (y : BitVec 6) (p : BitVec 1) (s : BitVec 2) (tk : Tk) : Statement (.stL x y p s tk) := by
  obtain ⟨h0, h1, h2, h3, h4, h5, h6⟩ := fields_XYPSTk_8 0xC2000000 x y p s tk 0x61 0 (by decide) (by decide) (by decide) (by decide) (by decide)
  refine of_raw fun lit => ?_
  rw [show encodeWord (.stL x y p s tk) = BitVec.ofNat 32 (encXYPSTk 0xC2000000 x y p s tk) from rfl]
  generalize BitVec.ofNat 32 (encXYPSTk 0xC2000000 x y p s tk) = w at *
  rw [raw_61 h0]
  unfold decodeMajor61
  have := p.isLt; have := s.isLt
  have hs : bitsAt w 8 5 = 0 ∨ bitsAt w 8 5 = 1 ∨ bitsAt w 8 5 = 2 ∨ bitsAt w 8 5 = 3 ∨ bitsAt w 8 5 = 8 ∨ bitsAt w 8 5 = 9 ∨ bitsAt w 8 5 = 10 ∨ bitsAt w 8 5 = 11 := by omega
  rcases hs with hs | hs | hs | hs | hs | hs | hs | hs <;> rw [hs, h2, h3, h4, h5, h6] <;> rfl

theorem vstG (x : BitVec 6) (y : BitVec 6) (p : BitVec 1) (m : BitVec 3) (tk : Tk) : Statement (.vstG x y p m tk) := by
  obtain ⟨h0, h1, h2, h3, h4, h5, h6⟩ := fields_XYPMTk_8 0xC4000000 x y p m tk 0x62 0 (by decide) (by decide) (by decide) (by decide) (by decide)
  refine of_raw fun lit => ?_
  rw [show encodeWord (.vstG x y p m tk) = BitVec.ofNat 32 (encXYPMTk 0xC4000000 x y p m tk) from rfl]
  generalize BitVec.ofNat 32 (encXYPMTk 0xC4000000 x y p m tk) = w at *
  rw [raw_62 h0]
  unfold decodeMajor62
  have := p.isLt; have := m.isLt
  have hs : bitsAt w 8 5 = 0 ∨ bitsAt w 8 5 = 1 ∨ bitsAt w 8 5 = 2 ∨ bitsAt w 8 5 = 3 ∨ bitsAt w 8 5 = 4 ∨ bitsAt w 8 5 = 5 ∨ bitsAt w 8 5 = 6 ∨ bitsAt w 8 5 = 7 ∨ bitsAt w 8 5 = 8 ∨ bitsAt w 8 5 = 9 ∨ bitsAt w 8 5 = 10 ∨ bitsAt w 8 5 = 11 ∨ bitsAt w 8 5 = 12 ∨ bitsAt w 8 5 = 13 ∨ bitsAt w 8 5 = 14 ∨ bitsAt w 8 5 = 15 := by omega
  rcases hs with hs | hs | hs | hs | hs | hs | hs | hs | hs | hs | hs | hs | hs | hs | hs | hs <;> rw [hs, h2, h3, h4, h5, h6] <;> rfl

theorem vstL (x : BitVec 6) (y : BitVec 6) (p : BitVec 1) (m : BitVec 3) (tk : Tk) : Statement (.vstL x y p m tk) := by
  obtain ⟨h0, h1, h2, h3, h4, h5, h6⟩ := fields_XYPMTk_8 0xC6000000 x y p m tk 0x63 0 (by decide) (by decide) (by decide) (by decide) (by decide)
  refine of_raw fun lit => ?_
  rw [show encodeWord (.vstL x y p m tk) = BitVec.ofNat 32 (encXYPMTk 0xC6000000 x y p m tk) from rfl]
  generalize BitVec.ofNat 32 (encXYPMTk 0xC6000000 x y p m tk) = w at *
  rw [raw_63 h0]
  unfold decodeMajor63
  have := p.isLt; have := m.isLt
  have hs : bitsAt w 8 5 = 0 ∨ bitsAt w 8 5 = 1 ∨ bitsAt w 8 5 = 2 ∨ bitsAt w 8 5 = 3 ∨ bitsAt w 8 5 = 4 ∨ bitsAt w 8 5 = 5 ∨ bitsAt w 8 5 = 6 ∨ bitsAt w 8 5 = 7 ∨ bitsAt w 8 5 = 8 ∨ bitsAt w 8 5 = 9 ∨ bitsAt w 8 5 = 10 ∨ bitsAt w 8 5 = 11 ∨ bitsAt w 8 5 = 12 ∨ bitsAt w 8 5 = 13 ∨ bitsAt w 8 5 = 14 ∨ bitsAt w 8 5 = 15 := by omega
  rcases hs with hs | hs | hs | hs | hs | hs | hs | hs | hs | hs | hs | hs | hs | hs | hs | hs <;> rw [hs, h2, h3, h4, h5, h6] <;> rfl

theorem scat (x : BitVec 6) (y : BitVec 6) (e : BitVec 1) (c : BitVec 1) (m : BitVec 3) (tk : Tk) : Statement (.scat x y e c m tk) := by
  obtain ⟨h0, h1, h2, h3, h4, h5, h6, h7⟩ := fields_XYECMTk_8 0xC8000000 x y e c m tk 0x64 0 (by decide) (by decide) (by decide) (by decide) (by decide) (by decide)
  refine of_raw fun lit => ?_
  rw [show encodeWord (.scat x y e c m tk) = BitVec.ofNat 32 (encXYECMTk 0xC8000000 x y e c m tk) from rfl]
  generalize BitVec.ofNat 32 (encXYECMTk 0xC8000000 x y e c m tk) = w at *
  rw [raw_64 h0]
  unfold decodeMajor64
  have := e.isLt; have := c.isLt; have := m.isLt
  have hs : bitsAt w 8 5 = 0 ∨ bitsAt w 8 5 = 1 ∨ bitsAt w 8 5 = 2 ∨ bitsAt w 8 5 = 3 ∨ bitsAt w 8 5 = 4 ∨ bitsAt w 8 5 = 5 ∨ bitsAt w 8 5 = 6 ∨ bitsAt w 8 5 = 7 ∨ bitsAt w 8 5 = 8 ∨ bitsAt w 8 5 = 9 ∨ bitsAt w 8 5 = 10 ∨ bitsAt w 8 5 = 11 ∨ bitsAt w 8 5 = 12 ∨ bitsAt w 8 5 = 13 ∨ bitsAt w 8 5 = 14 ∨ bitsAt w 8 5 = 15 ∨ bitsAt w 8 5 = 16 ∨ bitsAt w 8 5 = 17 ∨ bitsAt w 8 5 = 18 ∨ bitsAt w 8 5 = 19 ∨ bitsAt w 8 5 = 20 ∨ bitsAt w 8 5 = 21 ∨ bitsAt w 8 5 = 22 ∨ bitsAt w 8 5 = 23 ∨ bitsAt w 8 5 = 24 ∨ bitsAt w 8 5 = 25 ∨ bitsAt w 8 5 = 26 ∨ bitsAt w 8 5 = 27 ∨ bitsAt w 8 5 = 28 ∨ bitsAt w 8 5 = 29 ∨ bitsAt w 8 5 = 30 ∨ bitsAt w 8 5 = 31 := by omega
  rcases hs with hs | hs | hs | hs | hs | hs | hs | hs | hs | hs | hs | hs | hs | hs | hs | hs | hs | hs | hs | hs | hs | hs | hs | hs | hs | hs | hs | hs | hs | hs | hs | hs <;> rw [hs, h2, h3, h4, h5, h6, h7] <;> rfl

theorem sbaseS (x : BitVec 6) (y : BitVec 6) (tk : Tk) : Statement (.sbaseS x y tk) := by
  obtain ⟨h0, h1, h2, h3, h4⟩ := fields_XYTk_8 0xCA000000 x y tk 0x65 0 (by decide) (by decide) (by decide)
  refine of_raw fun lit => ?_
  rw [show encodeWord (.sbaseS x y tk) = BitVec.ofNat 32 (encXYTk 0xCA000000 x y tk) from rfl]
  generalize BitVec.ofNat 32 (encXYTk 0xCA000000 x y tk) = w at *
  rw [raw_65 h0]
  unfold decodeMajor65
  rw [h1]
  rw [h2, h3, h4]
  rfl

theorem sdim0S (x : BitVec 6) (y : BitVec 6) (tk : Tk) : Statement (.sdim0S x y tk) := by
  obtain ⟨h0, h1, h2, h3, h4⟩ := fields_XYTk_8 0xCA000100 x y tk 0x65 1 (by decide) (by decide) (by decide)
  refine of_raw fun lit => ?_
  rw [show encodeWord (.sdim0S x y tk) = BitVec.ofNat 32 (encXYTk 0xCA000100 x y tk) from rfl]
  generalize BitVec.ofNat 32 (encXYTk 0xCA000100 x y tk) = w at *
  rw [raw_65 h0]
  unfold decodeMajor65
  rw [h1]
  rw [h2, h3, h4]
  rfl

theorem sdim1S (x : BitVec 6) (y : BitVec 6) (tk : Tk) : Statement (.sdim1S x y tk) := by
  obtain ⟨h0, h1, h2, h3, h4⟩ := fields_XYTk_8 0xCA000200 x y tk 0x65 2 (by decide) (by decide) (by decide)
  refine of_raw fun lit => ?_
  rw [show encodeWord (.sdim1S x y tk) = BitVec.ofNat 32 (encXYTk 0xCA000200 x y tk) from rfl]
  generalize BitVec.ofNat 32 (encXYTk 0xCA000200 x y tk) = w at *
  rw [raw_65 h0]
  unfold decodeMajor65
  rw [h1]
  rw [h2, h3, h4]
  rfl

theorem sdim2S (x : BitVec 6) (y : BitVec 6) (tk : Tk) : Statement (.sdim2S x y tk) := by
  obtain ⟨h0, h1, h2, h3, h4⟩ := fields_XYTk_8 0xCA000300 x y tk 0x65 3 (by decide) (by decide) (by decide)
  refine of_raw fun lit => ?_
  rw [show encodeWord (.sdim2S x y tk) = BitVec.ofNat 32 (encXYTk 0xCA000300 x y tk) from rfl]
  generalize BitVec.ofNat 32 (encXYTk 0xCA000300 x y tk) = w at *
  rw [raw_65 h0]
  unfold decodeMajor65
  rw [h1]
  rw [h2, h3, h4]
  rfl

theorem smodeS (x : BitVec 6) (y : BitVec 6) (tk : Tk) : Statement (.smodeS x y tk) := by
  obtain ⟨h0, h1, h2, h3, h4⟩ := fields_XYTk_8 0xCA000400 x y tk 0x65 4 (by decide) (by decide) (by decide)
  refine of_raw fun lit => ?_
  rw [show encodeWord (.smodeS x y tk) = BitVec.ofNat 32 (encXYTk 0xCA000400 x y tk) from rfl]
  generalize BitVec.ofNat 32 (encXYTk 0xCA000400 x y tk) = w at *
  rw [raw_65 h0]
  unfold decodeMajor65
  rw [h1]
  rw [h2, h3, h4]
  rfl

theorem sbindS (x : BitVec 6) (tk : Tk) : Statement (.sbindS x tk) := by
  obtain ⟨h0, h1, h2, h3⟩ := fields_XTk_8 0xCA000500 x tk 0x65 5 (by decide) (by decide) (by decide)
  refine of_raw fun lit => ?_
  rw [show encodeWord (.sbindS x tk) = BitVec.ofNat 32 (encXTk 0xCA000500 x tk) from rfl]
  generalize BitVec.ofNat 32 (encXTk 0xCA000500 x tk) = w at *
  rw [raw_65 h0]
  unfold decodeMajor65
  rw [h1]
  rw [h2, h3]
  rfl

theorem sunbindS (x : BitVec 6) (tk : Tk) : Statement (.sunbindS x tk) := by
  obtain ⟨h0, h1, h2, h3⟩ := fields_XTk_8 0xCA000600 x tk 0x65 6 (by decide) (by decide) (by decide)
  refine of_raw fun lit => ?_
  rw [show encodeWord (.sunbindS x tk) = BitVec.ofNat 32 (encXTk 0xCA000600 x tk) from rfl]
  generalize BitVec.ofNat 32 (encXTk 0xCA000600 x tk) = w at *
  rw [raw_65 h0]
  unfold decodeMajor65
  rw [h1]
  rw [h2, h3]
  rfl

theorem sstartS (x : BitVec 6) (tk : Tk) : Statement (.sstartS x tk) := by
  obtain ⟨h0, h1, h2, h3⟩ := fields_XTk_8 0xCA000700 x tk 0x65 7 (by decide) (by decide) (by decide)
  refine of_raw fun lit => ?_
  rw [show encodeWord (.sstartS x tk) = BitVec.ofNat 32 (encXTk 0xCA000700 x tk) from rfl]
  generalize BitVec.ofNat 32 (encXTk 0xCA000700 x tk) = w at *
  rw [raw_65 h0]
  unfold decodeMajor65
  rw [h1]
  rw [h2, h3]
  rfl

theorem sstopS (x : BitVec 6) (tk : Tk) : Statement (.sstopS x tk) := by
  obtain ⟨h0, h1, h2, h3⟩ := fields_XTk_8 0xCA000800 x tk 0x65 8 (by decide) (by decide) (by decide)
  refine of_raw fun lit => ?_
  rw [show encodeWord (.sstopS x tk) = BitVec.ofNat 32 (encXTk 0xCA000800 x tk) from rfl]
  generalize BitVec.ofNat 32 (encXTk 0xCA000800 x tk) = w at *
  rw [raw_65 h0]
  unfold decodeMajor65
  rw [h1]
  rw [h2, h3]
  rfl

theorem sseekS (x : BitVec 6) (y : BitVec 6) (tk : Tk) : Statement (.sseekS x y tk) := by
  obtain ⟨h0, h1, h2, h3, h4⟩ := fields_XYTk_8 0xCA000900 x y tk 0x65 9 (by decide) (by decide) (by decide)
  refine of_raw fun lit => ?_
  rw [show encodeWord (.sseekS x y tk) = BitVec.ofNat 32 (encXYTk 0xCA000900 x y tk) from rfl]
  generalize BitVec.ofNat 32 (encXYTk 0xCA000900 x y tk) = w at *
  rw [raw_65 h0]
  unfold decodeMajor65
  rw [h1]
  rw [h2, h3, h4]
  rfl

theorem sposS (x : BitVec 6) (y : BitVec 6) (tk : Tk) : Statement (.sposS x y tk) := by
  obtain ⟨h0, h1, h2, h3, h4⟩ := fields_XYTk_8 0xCA000A00 x y tk 0x65 10 (by decide) (by decide) (by decide)
  refine of_raw fun lit => ?_
  rw [show encodeWord (.sposS x y tk) = BitVec.ofNat 32 (encXYTk 0xCA000A00 x y tk) from rfl]
  generalize BitVec.ofNat 32 (encXYTk 0xCA000A00 x y tk) = w at *
  rw [raw_65 h0]
  unfold decodeMajor65
  rw [h1]
  rw [h2, h3, h4]
  rfl

theorem markS (tk : Tk) : Statement (.markS tk) := by
  obtain ⟨h0, h1, h2⟩ := fields_Tk_8 0xCC000000 tk 0x66 0 (by decide) (by decide) (by decide)
  refine of_raw fun lit => ?_
  rw [show encodeWord (.markS tk) = BitVec.ofNat 32 (encTk 0xCC000000 tk) from rfl]
  generalize BitVec.ofNat 32 (encTk 0xCC000000 tk) = w at *
  rw [raw_66 h0]
  unfold decodeMajor66
  rw [h1]
  rw [h2]
  rfl

theorem cpout (x : BitVec 6) (y : BitVec 6) (tk : Tk) : Statement (.cpout x y tk) := by
  obtain ⟨h0, h1, h2, h3, h4⟩ := fields_XYTk_8 0xCE000000 x y tk 0x67 0 (by decide) (by decide) (by decide)
  refine of_raw fun lit => ?_
  rw [show encodeWord (.cpout x y tk) = BitVec.ofNat 32 (encXYTk 0xCE000000 x y tk) from rfl]
  generalize BitVec.ofNat 32 (encXYTk 0xCE000000 x y tk) = w at *
  rw [raw_67 h0]
  unfold decodeMajor67
  rw [h1]
  rw [h2, h3, h4]
  rfl

theorem cpout2d (x : BitVec 6) (y : BitVec 6) (tk : Tk) : Statement (.cpout2d x y tk) := by
  obtain ⟨h0, h1, h2, h3, h4⟩ := fields_XYTk_8 0xCE000100 x y tk 0x67 1 (by decide) (by decide) (by decide)
  refine of_raw fun lit => ?_
  rw [show encodeWord (.cpout2d x y tk) = BitVec.ofNat 32 (encXYTk 0xCE000100 x y tk) from rfl]
  generalize BitVec.ofNat 32 (encXYTk 0xCE000100 x y tk) = w at *
  rw [raw_67 h0]
  unfold decodeMajor67
  rw [h1]
  rw [h2, h3, h4]
  rfl

theorem cpoutT (x : BitVec 6) (y : BitVec 6) (tk : Tk) : Statement (.cpoutT x y tk) := by
  obtain ⟨h0, h1, h2, h3, h4⟩ := fields_XYTk_8 0xCE000200 x y tk 0x67 2 (by decide) (by decide) (by decide)
  refine of_raw fun lit => ?_
  rw [show encodeWord (.cpoutT x y tk) = BitVec.ofNat 32 (encXYTk 0xCE000200 x y tk) from rfl]
  generalize BitVec.ofNat 32 (encXYTk 0xCE000200 x y tk) = w at *
  rw [raw_67 h0]
  unfold decodeMajor67
  rw [h1]
  rw [h2, h3, h4]
  rfl

theorem amoAdd (x : BitVec 6) (y : BitVec 6) (c : BitVec 1) (z : BitVec 1) (tk : Tk) : Statement (.amoAdd x y c z tk) := by
  obtain ⟨h0, h1, h2, h3, h4, h5, h6⟩ := fields_XYCZTk_8 0xD0000000 x y c z tk 0x68 0 (by decide) (by decide) (by decide) (by decide) (by decide)
  refine of_raw fun lit => ?_
  rw [show encodeWord (.amoAdd x y c z tk) = BitVec.ofNat 32 (encXYCZTk 0xD0000000 x y c z tk) from rfl]
  generalize BitVec.ofNat 32 (encXYCZTk 0xD0000000 x y c z tk) = w at *
  rw [raw_68 h0]
  unfold decodeMajor68
  have := c.isLt; have := z.isLt
  have hs : bitsAt w 8 5 = 0 ∨ bitsAt w 8 5 = 1 ∨ bitsAt w 8 5 = 16 ∨ bitsAt w 8 5 = 17 := by omega
  rcases hs with hs | hs | hs | hs <;> rw [hs, h2, h3, h4, h5, h6] <;> rfl

theorem amoAnd (x : BitVec 6) (y : BitVec 6) (c : BitVec 1) (z : BitVec 1) (tk : Tk) : Statement (.amoAnd x y c z tk) := by
  obtain ⟨h0, h1, h2, h3, h4, h5, h6⟩ := fields_XYCZTk_8 0xD0000200 x y c z tk 0x68 2 (by decide) (by decide) (by decide) (by decide) (by decide)
  refine of_raw fun lit => ?_
  rw [show encodeWord (.amoAnd x y c z tk) = BitVec.ofNat 32 (encXYCZTk 0xD0000200 x y c z tk) from rfl]
  generalize BitVec.ofNat 32 (encXYCZTk 0xD0000200 x y c z tk) = w at *
  rw [raw_68 h0]
  unfold decodeMajor68
  have := c.isLt; have := z.isLt
  have hs : bitsAt w 8 5 = 2 ∨ bitsAt w 8 5 = 3 ∨ bitsAt w 8 5 = 18 ∨ bitsAt w 8 5 = 19 := by omega
  rcases hs with hs | hs | hs | hs <;> rw [hs, h2, h3, h4, h5, h6] <;> rfl

theorem amoOr (x : BitVec 6) (y : BitVec 6) (c : BitVec 1) (z : BitVec 1) (tk : Tk) : Statement (.amoOr x y c z tk) := by
  obtain ⟨h0, h1, h2, h3, h4, h5, h6⟩ := fields_XYCZTk_8 0xD0000400 x y c z tk 0x68 4 (by decide) (by decide) (by decide) (by decide) (by decide)
  refine of_raw fun lit => ?_
  rw [show encodeWord (.amoOr x y c z tk) = BitVec.ofNat 32 (encXYCZTk 0xD0000400 x y c z tk) from rfl]
  generalize BitVec.ofNat 32 (encXYCZTk 0xD0000400 x y c z tk) = w at *
  rw [raw_68 h0]
  unfold decodeMajor68
  have := c.isLt; have := z.isLt
  have hs : bitsAt w 8 5 = 4 ∨ bitsAt w 8 5 = 5 ∨ bitsAt w 8 5 = 20 ∨ bitsAt w 8 5 = 21 := by omega
  rcases hs with hs | hs | hs | hs <;> rw [hs, h2, h3, h4, h5, h6] <;> rfl

theorem amoXor (x : BitVec 6) (y : BitVec 6) (c : BitVec 1) (z : BitVec 1) (tk : Tk) : Statement (.amoXor x y c z tk) := by
  obtain ⟨h0, h1, h2, h3, h4, h5, h6⟩ := fields_XYCZTk_8 0xD0000600 x y c z tk 0x68 6 (by decide) (by decide) (by decide) (by decide) (by decide)
  refine of_raw fun lit => ?_
  rw [show encodeWord (.amoXor x y c z tk) = BitVec.ofNat 32 (encXYCZTk 0xD0000600 x y c z tk) from rfl]
  generalize BitVec.ofNat 32 (encXYCZTk 0xD0000600 x y c z tk) = w at *
  rw [raw_68 h0]
  unfold decodeMajor68
  have := c.isLt; have := z.isLt
  have hs : bitsAt w 8 5 = 6 ∨ bitsAt w 8 5 = 7 ∨ bitsAt w 8 5 = 22 ∨ bitsAt w 8 5 = 23 := by omega
  rcases hs with hs | hs | hs | hs <;> rw [hs, h2, h3, h4, h5, h6] <;> rfl

theorem amoMax (x : BitVec 6) (y : BitVec 6) (c : BitVec 1) (z : BitVec 1) (tk : Tk) : Statement (.amoMax x y c z tk) := by
  obtain ⟨h0, h1, h2, h3, h4, h5, h6⟩ := fields_XYCZTk_8 0xD0000800 x y c z tk 0x68 8 (by decide) (by decide) (by decide) (by decide) (by decide)
  refine of_raw fun lit => ?_
  rw [show encodeWord (.amoMax x y c z tk) = BitVec.ofNat 32 (encXYCZTk 0xD0000800 x y c z tk) from rfl]
  generalize BitVec.ofNat 32 (encXYCZTk 0xD0000800 x y c z tk) = w at *
  rw [raw_68 h0]
  unfold decodeMajor68
  have := c.isLt; have := z.isLt
  have hs : bitsAt w 8 5 = 8 ∨ bitsAt w 8 5 = 9 ∨ bitsAt w 8 5 = 24 ∨ bitsAt w 8 5 = 25 := by omega
  rcases hs with hs | hs | hs | hs <;> rw [hs, h2, h3, h4, h5, h6] <;> rfl

theorem amoMaxu (x : BitVec 6) (y : BitVec 6) (c : BitVec 1) (z : BitVec 1) (tk : Tk) : Statement (.amoMaxu x y c z tk) := by
  obtain ⟨h0, h1, h2, h3, h4, h5, h6⟩ := fields_XYCZTk_8 0xD0000A00 x y c z tk 0x68 10 (by decide) (by decide) (by decide) (by decide) (by decide)
  refine of_raw fun lit => ?_
  rw [show encodeWord (.amoMaxu x y c z tk) = BitVec.ofNat 32 (encXYCZTk 0xD0000A00 x y c z tk) from rfl]
  generalize BitVec.ofNat 32 (encXYCZTk 0xD0000A00 x y c z tk) = w at *
  rw [raw_68 h0]
  unfold decodeMajor68
  have := c.isLt; have := z.isLt
  have hs : bitsAt w 8 5 = 10 ∨ bitsAt w 8 5 = 11 ∨ bitsAt w 8 5 = 26 ∨ bitsAt w 8 5 = 27 := by omega
  rcases hs with hs | hs | hs | hs <;> rw [hs, h2, h3, h4, h5, h6] <;> rfl

theorem amoSwap (x : BitVec 6) (y : BitVec 6) (c : BitVec 1) (z : BitVec 1) (tk : Tk) : Statement (.amoSwap x y c z tk) := by
  obtain ⟨h0, h1, h2, h3, h4, h5, h6⟩ := fields_XYCZTk_8 0xD0000C00 x y c z tk 0x68 12 (by decide) (by decide) (by decide) (by decide) (by decide)
  refine of_raw fun lit => ?_
  rw [show encodeWord (.amoSwap x y c z tk) = BitVec.ofNat 32 (encXYCZTk 0xD0000C00 x y c z tk) from rfl]
  generalize BitVec.ofNat 32 (encXYCZTk 0xD0000C00 x y c z tk) = w at *
  rw [raw_68 h0]
  unfold decodeMajor68
  have := c.isLt; have := z.isLt
  have hs : bitsAt w 8 5 = 12 ∨ bitsAt w 8 5 = 13 ∨ bitsAt w 8 5 = 28 ∨ bitsAt w 8 5 = 29 := by omega
  rcases hs with hs | hs | hs | hs <;> rw [hs, h2, h3, h4, h5, h6] <;> rfl

theorem amoCasD (x : BitVec 6) (y : BitVec 6) (c : BitVec 1) (tk : Tk) : Statement (.amoCasD x y c tk) := by
  obtain ⟨h0, h1, h2, h3, h4, h5⟩ := fields_XYCTk_8 0xD0000E00 x y c tk 0x68 14 (by decide) (by decide) (by decide) (by decide)
  refine of_raw fun lit => ?_
  rw [show encodeWord (.amoCasD x y c tk) = BitVec.ofNat 32 (encXYCTk 0xD0000E00 x y c tk) from rfl]
  generalize BitVec.ofNat 32 (encXYCTk 0xD0000E00 x y c tk) = w at *
  rw [raw_68 h0]
  unfold decodeMajor68
  have := c.isLt
  have hs : bitsAt w 8 5 = 14 ∨ bitsAt w 8 5 = 30 := by omega
  rcases hs with hs | hs <;> rw [hs, h2, h3, h4, h5] <;> rfl

theorem amoCasQ (x : BitVec 6) (y : BitVec 6) (c : BitVec 1) (tk : Tk) : Statement (.amoCasQ x y c tk) := by
  obtain ⟨h0, h1, h2, h3, h4, h5⟩ := fields_XYCTk_8 0xD0000F00 x y c tk 0x68 15 (by decide) (by decide) (by decide) (by decide)
  refine of_raw fun lit => ?_
  rw [show encodeWord (.amoCasQ x y c tk) = BitVec.ofNat 32 (encXYCTk 0xD0000F00 x y c tk) from rfl]
  generalize BitVec.ofNat 32 (encXYCTk 0xD0000F00 x y c tk) = w at *
  rw [raw_68 h0]
  unfold decodeMajor68
  have := c.isLt
  have hs : bitsAt w 8 5 = 15 ∨ bitsAt w 8 5 = 31 := by omega
  rcases hs with hs | hs <;> rw [hs, h2, h3, h4, h5] <;> rfl

theorem tret (g : BitVec 3) : Statement (.tret g) := by
  obtain ⟨h0, h1, h2⟩ := fields_G_0 0xE0000000 g 0x70 0 (by decide) (by decide) (by decide)
  refine of_raw fun lit => ?_
  rw [show encodeWord (.tret g) = BitVec.ofNat 32 (encG 0xE0000000 g) from rfl]
  generalize BitVec.ofNat 32 (encG 0xE0000000 g) = w at *
  rw [raw_70 h0]
  unfold decodeMajor70
  rw [h1]
  rw [h2]
  rfl

theorem tretN (g : BitVec 3) : Statement (.tretN g) := by
  obtain ⟨h0, h1, h2⟩ := fields_G_0 0xE0000001 g 0x70 1 (by decide) (by decide) (by decide)
  refine of_raw fun lit => ?_
  rw [show encodeWord (.tretN g) = BitVec.ofNat 32 (encG 0xE0000001 g) from rfl]
  generalize BitVec.ofNat 32 (encG 0xE0000001 g) = w at *
  rw [raw_70 h0]
  unfold decodeMajor70
  rw [h1]
  rw [h2]
  rfl

theorem ucall (g : BitVec 3) : Statement (.ucall g) := by
  obtain ⟨h0, h1, h2⟩ := fields_G_0 0xE0000002 g 0x70 2 (by decide) (by decide) (by decide)
  refine of_raw fun lit => ?_
  rw [show encodeWord (.ucall g) = BitVec.ofNat 32 (encG 0xE0000002 g) from rfl]
  generalize BitVec.ofNat 32 (encG 0xE0000002 g) = w at *
  rw [raw_70 h0]
  unfold decodeMajor70
  rw [h1]
  rw [h2]
  rfl

theorem svc (d : BitVec 6) (a : BitVec 6) (g : BitVec 3) : Statement (.svc d a g) := by
  obtain ⟨h0, h1, h2, h3, h4⟩ := fields_DAG_0 0xE0000003 d a g 0x70 3 (by decide) (by decide) (by decide)
  refine of_raw fun lit => ?_
  rw [show encodeWord (.svc d a g) = BitVec.ofNat 32 (encDAG 0xE0000003 d a g) from rfl]
  generalize BitVec.ofNat 32 (encDAG 0xE0000003 d a g) = w at *
  rw [raw_70 h0]
  unfold decodeMajor70
  rw [h1]
  rw [h2, h3, h4]
  rfl

theorem tlbinv (a : BitVec 6) (b : BitVec 6) (g : BitVec 3) : Statement (.tlbinv a b g) := by
  obtain ⟨h0, h1, h2, h3, h4⟩ := fields_ABG_0 0xE0000004 a b g 0x70 4 (by decide) (by decide) (by decide)
  refine of_raw fun lit => ?_
  rw [show encodeWord (.tlbinv a b g) = BitVec.ofNat 32 (encABG 0xE0000004 a b g) from rfl]
  generalize BitVec.ofNat 32 (encABG 0xE0000004 a b g) = w at *
  rw [raw_70 h0]
  unfold decodeMajor70
  rw [h1]
  rw [h2, h3, h4]
  rfl

theorem scsrwr (a : BitVec 6) (b : BitVec 6) (g : BitVec 3) : Statement (.scsrwr a b g) := by
  obtain ⟨h0, h1, h2, h3, h4⟩ := fields_ABG_0 0xE2000000 a b g 0x71 0 (by decide) (by decide) (by decide)
  refine of_raw fun lit => ?_
  rw [show encodeWord (.scsrwr a b g) = BitVec.ofNat 32 (encABG 0xE2000000 a b g) from rfl]
  generalize BitVec.ofNat 32 (encABG 0xE2000000 a b g) = w at *
  rw [raw_71 h0]
  unfold decodeMajor71
  rw [h1]
  rw [h2, h3, h4]
  rfl

theorem segset (a : BitVec 6) (b : BitVec 6) (g : BitVec 3) : Statement (.segset a b g) := by
  obtain ⟨h0, h1, h2, h3, h4⟩ := fields_ABG_0 0xE4000000 a b g 0x72 0 (by decide) (by decide) (by decide)
  refine of_raw fun lit => ?_
  rw [show encodeWord (.segset a b g) = BitVec.ofNat 32 (encABG 0xE4000000 a b g) from rfl]
  generalize BitVec.ofNat 32 (encABG 0xE4000000 a b g) = w at *
  rw [raw_72 h0]
  unfold decodeMajor72
  rw [h1]
  rw [h2, h3, h4]
  rfl

theorem segclr (a : BitVec 6) (g : BitVec 3) : Statement (.segclr a g) := by
  obtain ⟨h0, h1, h2, h3⟩ := fields_AG_0 0xE4000001 a g 0x72 1 (by decide) (by decide) (by decide)
  refine of_raw fun lit => ?_
  rw [show encodeWord (.segclr a g) = BitVec.ofNat 32 (encAG 0xE4000001 a g) from rfl]
  generalize BitVec.ofNat 32 (encAG 0xE4000001 a g) = w at *
  rw [raw_72 h0]
  unfold decodeMajor72
  rw [h1]
  rw [h2, h3]
  rfl

theorem ctxout (a : BitVec 6) (b : BitVec 6) (g : BitVec 3) : Statement (.ctxout a b g) := by
  obtain ⟨h0, h1, h2, h3, h4⟩ := fields_ABG_0 0xE6000000 a b g 0x73 0 (by decide) (by decide) (by decide)
  refine of_raw fun lit => ?_
  rw [show encodeWord (.ctxout a b g) = BitVec.ofNat 32 (encABG 0xE6000000 a b g) from rfl]
  generalize BitVec.ofNat 32 (encABG 0xE6000000 a b g) = w at *
  rw [raw_73 h0]
  unfold decodeMajor73
  rw [h1]
  rw [h2, h3, h4]
  rfl

theorem ctxin (a : BitVec 6) (b : BitVec 6) (g : BitVec 3) : Statement (.ctxin a b g) := by
  obtain ⟨h0, h1, h2, h3, h4⟩ := fields_ABG_0 0xE6000001 a b g 0x73 1 (by decide) (by decide) (by decide)
  refine of_raw fun lit => ?_
  rw [show encodeWord (.ctxin a b g) = BitVec.ofNat 32 (encABG 0xE6000001 a b g) from rfl]
  generalize BitVec.ofNat 32 (encABG 0xE6000001 a b g) = w at *
  rw [raw_73 h0]
  unfold decodeMajor73
  rw [h1]
  rw [h2, h3, h4]
  rfl

theorem asset (a : BitVec 6) (b : BitVec 6) (g : BitVec 3) : Statement (.asset a b g) := by
  obtain ⟨h0, h1, h2, h3, h4⟩ := fields_ABG_0 0xE6000002 a b g 0x73 2 (by decide) (by decide) (by decide)
  refine of_raw fun lit => ?_
  rw [show encodeWord (.asset a b g) = BitVec.ofNat 32 (encABG 0xE6000002 a b g) from rfl]
  generalize BitVec.ofNat 32 (encABG 0xE6000002 a b g) = w at *
  rw [raw_73 h0]
  unfold decodeMajor73
  rw [h1]
  rw [h2, h3, h4]
  rfl

theorem pinfo (d : BitVec 6) (a : BitVec 6) (g : BitVec 3) : Statement (.pinfo d a g) := by
  obtain ⟨h0, h1, h2, h3, h4⟩ := fields_DAG_0 0xE6000003 d a g 0x73 3 (by decide) (by decide) (by decide)
  refine of_raw fun lit => ?_
  rw [show encodeWord (.pinfo d a g) = BitVec.ofNat 32 (encDAG 0xE6000003 d a g) from rfl]
  generalize BitVec.ofNat 32 (encDAG 0xE6000003 d a g) = w at *
  rw [raw_73 h0]
  unfold decodeMajor73
  rw [h1]
  rw [h2, h3, h4]
  rfl

theorem pscrub (a : BitVec 6) (g : BitVec 3) : Statement (.pscrub a g) := by
  obtain ⟨h0, h1, h2, h3⟩ := fields_AG_0 0xE6000004 a g 0x73 4 (by decide) (by decide) (by decide)
  refine of_raw fun lit => ?_
  rw [show encodeWord (.pscrub a g) = BitVec.ofNat 32 (encAG 0xE6000004 a g) from rfl]
  generalize BitVec.ofNat 32 (encAG 0xE6000004 a g) = w at *
  rw [raw_73 h0]
  unfold decodeMajor73
  rw [h1]
  rw [h2, h3]
  rfl

theorem errrd (d : BitVec 6) (a : BitVec 6) (g : BitVec 3) : Statement (.errrd d a g) := by
  obtain ⟨h0, h1, h2, h3, h4⟩ := fields_DAG_0 0xE8000000 d a g 0x74 0 (by decide) (by decide) (by decide)
  refine of_raw fun lit => ?_
  rw [show encodeWord (.errrd d a g) = BitVec.ofNat 32 (encDAG 0xE8000000 d a g) from rfl]
  generalize BitVec.ofNat 32 (encDAG 0xE8000000 d a g) = w at *
  rw [raw_74 h0]
  unfold decodeMajor74
  rw [h1]
  rw [h2, h3, h4]
  rfl

theorem hrmark (a : BitVec 6) (g : BitVec 3) : Statement (.hrmark a g) := by
  obtain ⟨h0, h1, h2, h3⟩ := fields_AG_0 0xE8000001 a g 0x74 1 (by decide) (by decide) (by decide)
  refine of_raw fun lit => ?_
  rw [show encodeWord (.hrmark a g) = BitVec.ofNat 32 (encAG 0xE8000001 a g) from rfl]
  generalize BitVec.ofNat 32 (encAG 0xE8000001 a g) = w at *
  rw [raw_74 h0]
  unfold decodeMajor74
  rw [h1]
  rw [h2, h3]
  rfl

theorem hint (h : BitVec 27) : Statement (.hint h) := by
  refine of_raw fun lit => ?_
  rw [show encodeWord (.hint h) = BitVec.ofNat 32 (encH 0xF0000000 h) from rfl]
  have hl : (BitVec.ofNat 32 (encH 0xF0000000 h)).toNat / 2 ^ 0 % 2 ^ 27 = h.toNat ∧
      (majorOf (BitVec.ofNat 32 (encH 0xF0000000 h)) = 0x78 ∨ majorOf (BitVec.ofNat 32 (encH 0xF0000000 h)) = 0x79 ∨
        majorOf (BitVec.ofNat 32 (encH 0xF0000000 h)) = 0x7A ∨ majorOf (BitVec.ofNat 32 (encH 0xF0000000 h)) = 0x7B) := by
    have := h.isLt
    simp only [majorOf, encH, BitVec.toNat_ofNat]
    omega
  generalize BitVec.ofNat 32 (encH 0xF0000000 h) = w at *
  have hh : bitsOf w 0 27 = h := ofNat_bits _ hl.1
  rcases hl.2 with hm | hm | hm | hm
  · rw [raw_78 hm, hh]
  · rw [raw_79 hm, hh]
  · rw [raw_7A hm, hh]
  · rw [raw_7B hm, hh]

theorem emulMajor7c (x : BitVec 25) : Statement (.emulMajor7c x) := by
  obtain ⟨h0, h1⟩ := fields_X 0xF8000000 x 0x7C (by decide) (by decide)
  refine of_raw fun lit => ?_
  rw [show encodeWord (.emulMajor7c x) = BitVec.ofNat 32 (encX 0xF8000000 x) from rfl]
  generalize BitVec.ofNat 32 (encX 0xF8000000 x) = w at *
  rw [raw_7C h0, h1]

theorem emulMajor7d (x : BitVec 25) : Statement (.emulMajor7d x) := by
  obtain ⟨h0, h1⟩ := fields_X 0xFA000000 x 0x7D (by decide) (by decide)
  refine of_raw fun lit => ?_
  rw [show encodeWord (.emulMajor7d x) = BitVec.ofNat 32 (encX 0xFA000000 x) from rfl]
  generalize BitVec.ofNat 32 (encX 0xFA000000 x) = w at *
  rw [raw_7D h0, h1]

theorem emulMajor7e (x : BitVec 25) : Statement (.emulMajor7e x) := by
  obtain ⟨h0, h1⟩ := fields_X 0xFC000000 x 0x7E (by decide) (by decide)
  refine of_raw fun lit => ?_
  rw [show encodeWord (.emulMajor7e x) = BitVec.ofNat 32 (encX 0xFC000000 x) from rfl]
  generalize BitVec.ofNat 32 (encX 0xFC000000 x) = w at *
  rw [raw_7E h0, h1]

theorem undefinedMajor (w : BitVec 32) : Statement (.undefinedMajor w) := by
  refine of_form fun hf lit => ?_
  have hu : majorUndefined (majorOf w) = true := hf
  rw [show encodeWord (.undefinedMajor w) = BitVec.ofNat 32 w.toNat from rfl, show BitVec.ofNat 32 w.toNat = w by simp]
  exact raw_undefined hu

theorem streamFetch (core : Nat) (q : Nat) : Statement (.streamFetch core q) :=
  fun h => (Bool.false_ne_true h).elim

theorem streamOutboundWrite (core : Nat) (q : Nat) : Statement (.streamOutboundWrite core q) :=
  fun h => (Bool.false_ne_true h).elim

theorem translationWalk (core : Nat) (va : BitVec 64) (k : AccessKind) : Statement (.translationWalk core va k) :=
  fun h => (Bool.false_ne_true h).elim

theorem invalidationApply (core : Nat) : Statement (.invalidationApply core) :=
  fun h => (Bool.false_ne_true h).elim

theorem matrixOpRun (core : Nat) : Statement (.matrixOpRun core) :=
  fun h => (Bool.false_ne_true h).elim

theorem fetcherCopy (core : Nat) (h : Nat) : Statement (.fetcherCopy core h) :=
  fun h => (Bool.false_ne_true h).elim

theorem walkRun (core : Nat) : Statement (.walkRun core) :=
  fun h => (Bool.false_ne_true h).elim

theorem vigilCheck (core : Nat) : Statement (.vigilCheck core) :=
  fun h => (Bool.false_ne_true h).elim

theorem almanacStep (core : Nat) : Statement (.almanacStep core) :=
  fun h => (Bool.false_ne_true h).elim

theorem shepherdOperation (core : Nat) : Statement (.shepherdOperation core) :=
  fun h => (Bool.false_ne_true h).elim

theorem copyPieceLand (core : Nat) : Statement (.copyPieceLand core) :=
  fun h => (Bool.false_ne_true h).elim

theorem outboundCopyExecute (core : Nat) : Statement (.outboundCopyExecute core) :=
  fun h => (Bool.false_ne_true h).elim

theorem outboundCopyComplete (core : Nat) : Statement (.outboundCopyComplete core) :=
  fun h => (Bool.false_ne_true h).elim

theorem copyFreeze (core : Nat) : Statement (.copyFreeze core) :=
  fun h => (Bool.false_ne_true h).elim

theorem freezeResume (core : Nat) : Statement (.freezeResume core) :=
  fun h => (Bool.false_ne_true h).elim

theorem freezeUnresolvable (core : Nat) : Statement (.freezeUnresolvable core) :=
  fun h => (Bool.false_ne_true h).elim

theorem faultServiceAnswer (core : Nat) (ans : Option (BitVec 64)) : Statement (.faultServiceAnswer core ans) :=
  fun h => (Bool.false_ne_true h).elim

theorem chainEnd (core : Nat) (slot : Nat) : Statement (.chainEnd core slot) :=
  fun h => (Bool.false_ne_true h).elim

theorem chainCopy (core : Nat) (slot : Nat) : Statement (.chainCopy core slot) :=
  fun h => (Bool.false_ne_true h).elim

theorem chainCopy2d (core : Nat) (slot : Nat) : Statement (.chainCopy2d core slot) :=
  fun h => (Bool.false_ne_true h).elim

theorem chainWait (core : Nat) (slot : Nat) : Statement (.chainWait core slot) :=
  fun h => (Bool.false_ne_true h).elim

theorem chainPost (core : Nat) (slot : Nat) : Statement (.chainPost core slot) :=
  fun h => (Bool.false_ne_true h).elim

theorem chainLink (core : Nat) (slot : Nat) : Statement (.chainLink core slot) :=
  fun h => (Bool.false_ne_true h).elim

theorem chainFlag (core : Nat) (slot : Nat) : Statement (.chainFlag core slot) :=
  fun h => (Bool.false_ne_true h).elim

theorem chainArrive (core : Nat) (slot : Nat) : Statement (.chainArrive core slot) :=
  fun h => (Bool.false_ne_true h).elim

theorem pendingKickStart (core : Nat) (slot : Nat) : Statement (.pendingKickStart core slot) :=
  fun h => (Bool.false_ne_true h).elim

theorem postDeparture (core : Nat) : Statement (.postDeparture core) :=
  fun h => (Bool.false_ne_true h).elim

theorem qpostDelivery (core : Nat) : Statement (.qpostDelivery core) :=
  fun h => (Bool.false_ne_true h).elim

theorem hostAtomicopCompletion (core : Nat) (err : Bool) : Statement (.hostAtomicopCompletion core err) :=
  fun h => (Bool.false_ne_true h).elim

theorem peerWriteAck (core : Nat) : Statement (.peerWriteAck core) :=
  fun h => (Bool.false_ne_true h).elim

theorem peerRefused (core : Nat) : Statement (.peerRefused core) :=
  fun h => (Bool.false_ne_true h).elim

theorem remoteHurdleArrival (core : Nat) : Statement (.remoteHurdleArrival core) :=
  fun h => (Bool.false_ne_true h).elim

theorem stealRequestArrival (core : Nat) : Statement (.stealRequestArrival core) :=
  fun h => (Bool.false_ne_true h).elim

theorem stealGrant (core : Nat) : Statement (.stealGrant core) :=
  fun h => (Bool.false_ne_true h).elim

theorem stealRefusal (core : Nat) : Statement (.stealRefusal core) :=
  fun h => (Bool.false_ne_true h).elim

theorem detectedErrorReplay (core : Nat) (src : Nat) : Statement (.detectedErrorReplay core src) :=
  fun h => (Bool.false_ne_true h).elim

theorem unitAdoption (core : Nat) (adopter : Nat) : Statement (.unitAdoption core adopter) :=
  fun h => (Bool.false_ne_true h).elim

theorem outOfRegionError (work : OutWork) : Statement (.outOfRegionError work) :=
  fun h => (Bool.false_ne_true h).elim

theorem snapshotStoreError (core : Nat) : Statement (.snapshotStoreError core) :=
  fun h => (Bool.false_ne_true h).elim

theorem dieFailover (die : Nat) : Statement (.dieFailover die) :=
  fun h => (Bool.false_ne_true h).elim

theorem thermalTrip (die : Nat) : Statement (.thermalTrip die) :=
  fun h => (Bool.false_ne_true h).elim

theorem thermalThrottle (die : Nat) : Statement (.thermalThrottle die) :=
  fun h => (Bool.false_ne_true h).elim

theorem powerEstimate (die : Nat) (power : PowerReport) : Statement (.powerEstimate die power) :=
  fun h => (Bool.false_ne_true h).elim

theorem boostInterval : Statement .boostInterval :=
  fun h => (Bool.false_ne_true h).elim

theorem dtimeSync (slew : Int) : Statement (.dtimeSync slew) :=
  fun h => (Bool.false_ne_true h).elim

theorem patrolScrub (sector : Nat) : Statement (.patrolScrub sector) :=
  fun h => (Bool.false_ne_true h).elim

theorem glitchDetect : Statement .glitchDetect :=
  fun h => (Bool.false_ne_true h).elim

theorem packageReset (fail : List Nat) : Statement (.packageReset fail) :=
  fun h => (Bool.false_ne_true h).elim

theorem firmwareRestart (die : Nat) (fail : List Nat) : Statement (.firmwareRestart die fail) :=
  fun h => (Bool.false_ne_true h).elim

theorem firmwareUpdate (ver : Nat) (minVer : Option Nat) (end_ : UpdateEnd) : Statement (.firmwareUpdate ver minVer end_) :=
  fun h => (Bool.false_ne_true h).elim

theorem flrOwner (func : Nat) : Statement (.flrOwner func) :=
  fun h => (Bool.false_ne_true h).elim

theorem flrQueueFunction (func : Nat) : Statement (.flrQueueFunction func) :=
  fun h => (Bool.false_ne_true h).elim

theorem portalDmwr (func : Nat) (q : Nat) (pkt : BitVec 512) : Statement (.portalDmwr func q pkt) :=
  fun h => (Bool.false_ne_true h).elim

theorem portalPostedWrite (func : Nat) (q : Nat) (pkt : BitVec 512) : Statement (.portalPostedWrite func q pkt) :=
  fun h => (Bool.false_ne_true h).elim

theorem portalWake (func : Nat) (q : Nat) : Statement (.portalWake func q) :=
  fun h => (Bool.false_ne_true h).elim

theorem queueActivate (part : Nat) (q : Nat) : Statement (.queueActivate part q) :=
  fun h => (Bool.false_ne_true h).elim

theorem queueStop (part : Nat) (q : Nat) : Statement (.queueStop part q) :=
  fun h => (Bool.false_ne_true h).elim

theorem queueUnmap (part : Nat) (q : Nat) : Statement (.queueUnmap part q) :=
  fun h => (Bool.false_ne_true h).elim

theorem queueUnmapped (part : Nat) (q : Nat) : Statement (.queueUnmapped part q) :=
  fun h => (Bool.false_ne_true h).elim

theorem headConditionSatisfied (part : Nat) (q : Nat) : Statement (.headConditionSatisfied part q) :=
  fun h => (Bool.false_ne_true h).elim

theorem queueFetch (part : Nat) (q : Nat) : Statement (.queueFetch part q) :=
  fun h => (Bool.false_ne_true h).elim

theorem nopPacket (part : Nat) (q : Nat) : Statement (.nopPacket part q) :=
  fun h => (Bool.false_ne_true h).elim

theorem launchPacket (part : Nat) (q : Nat) : Statement (.launchPacket part q) :=
  fun h => (Bool.false_ne_true h).elim

theorem nodePacket (part : Nat) (q : Nat) : Statement (.nodePacket part q) :=
  fun h => (Bool.false_ne_true h).elim

theorem waitAllPacket (part : Nat) (q : Nat) : Statement (.waitAllPacket part q) :=
  fun h => (Bool.false_ne_true h).elim

theorem waitAnyPacket (part : Nat) (q : Nat) : Statement (.waitAnyPacket part q) :=
  fun h => (Bool.false_ne_true h).elim

theorem signalPacket (part : Nat) (q : Nat) : Statement (.signalPacket part q) :=
  fun h => (Bool.false_ne_true h).elim

theorem cancelPacket (part : Nat) (q : Nat) : Statement (.cancelPacket part q) :=
  fun h => (Bool.false_ne_true h).elim

theorem gangPacket (part : Nat) (q : Nat) : Statement (.gangPacket part q) :=
  fun h => (Bool.false_ne_true h).elim

theorem gangMessageReceive (part : Nat) (gang : Nat) (member : Nat) (msg : GangMsg) : Statement (.gangMessageReceive part gang member msg) :=
  fun h => (Bool.false_ne_true h).elim

theorem gangGoDecision (part : Nat) (gang : Nat) : Statement (.gangGoDecision part gang) :=
  fun h => (Bool.false_ne_true h).elim

theorem gangRelease (part : Nat) (gang : Nat) : Statement (.gangRelease part gang) :=
  fun h => (Bool.false_ne_true h).elim

theorem dispatch (core : Nat) : Statement (.dispatch core) :=
  fun h => (Bool.false_ne_true h).elim

theorem candidateAged (part : Nat) (index : Nat) : Statement (.candidateAged part index) :=
  fun h => (Bool.false_ne_true h).elim

theorem standingClaim (part : Nat) (q : Nat) : Statement (.standingClaim part q) :=
  fun h => (Bool.false_ne_true h).elim

theorem unitCompletion (core : Nat) : Statement (.unitCompletion core) :=
  fun h => (Bool.false_ne_true h).elim

theorem msixMessage (func : Nat) : Statement (.msixMessage func) :=
  fun h => (Bool.false_ne_true h).elim

theorem preemptionRequest (core : Nat) : Statement (.preemptionRequest core) :=
  fun h => (Bool.false_ne_true h).elim

theorem contextSwitch (core : Nat) : Statement (.contextSwitch core) :=
  fun h => (Bool.false_ne_true h).elim

theorem flitCrcFailure (die : Nat) (flit : PortFlit) : Statement (.flitCrcFailure die flit) :=
  fun h => (Bool.false_ne_true h).elim

theorem linkTrainingTimeout (die : Nat) (port : Nat) : Statement (.linkTrainingTimeout die port) :=
  fun h => (Bool.false_ne_true h).elim

theorem hostMemoryAccess (func : Nat) (addr : BitVec 64) (acc : HostAccess) : Statement (.hostMemoryAccess func addr acc) :=
  fun h => (Bool.false_ne_true h).elim

theorem loaderDoorbell (value : BitVec 64) : Statement (.loaderDoorbell value) :=
  fun h => (Bool.false_ne_true h).elim

theorem loadRequest : Statement .loadRequest :=
  fun h => (Bool.false_ne_true h).elim

theorem fenWrite (part : Nat) (value : BitVec 64) : Statement (.fenWrite part value) :=
  fun h => (Bool.false_ne_true h).elim

theorem ringEnable (part : Nat) (ring : Nat) : Statement (.ringEnable part ring) :=
  fun h => (Bool.false_ne_true h).elim

theorem mirroredSizeSet (gib : Nat) : Statement (.mirroredSizeSet gib) :=
  fun h => (Bool.false_ne_true h).elim

theorem hostRegisterWrite (reg : HostReg) (value : BitVec 256) : Statement (.hostRegisterWrite reg value) :=
  fun h => (Bool.false_ne_true h).elim

theorem tetherPeerAccess (member : Nat) (part : Nat) (acc : PeerAccess) : Statement (.tetherPeerAccess member part acc) :=
  fun h => (Bool.false_ne_true h).elim

theorem peerAtomicCompletion (core : Nat) : Statement (.peerAtomicCompletion core) :=
  fun h => (Bool.false_ne_true h).elim

theorem linkTrainingComplete (die : Nat) (port : Nat) : Statement (.linkTrainingComplete die port) :=
  fun h => (Bool.false_ne_true h).elim

theorem thermalThrottleEnd (die : Nat) : Statement (.thermalThrottleEnd die) :=
  fun h => (Bool.false_ne_true h).elim

theorem ownerProvisioning (part : Nat) (key : BitVec 64) : Statement (.ownerProvisioning part key) :=
  fun h => (Bool.false_ne_true h).elim

end Sys2Proof.Laws.RoundTrip
end

