-- ==== Sys2Proof/Safety.lean ====
section
/-! DEFINITION. The terms in which the statements speak: the canonical form of the memories, when a word may issue, and where the machine
goes on from it. -/

namespace Sys2Proof.Machine

/-! ## Memory -/

/-- A memory in its canonical form: addresses strictly rising, no entry equal to the byte 0 that an unlisted address reads as (log 2). -/
def Memory.wf (m : List Host.Cell) : Bool := Sparse.wf 0 m

/-- The three memories of a state are in canonical form. -/
def State.memWf (s : State) : Bool := Memory.wf s.mem && Memory.wf s.hostMem && Memory.wf s.peerMem

/-- The byte that a memory holds at an address. -/
def byteAt (m : List Host.Cell) (a : Nat) : Byte := Sparse.get 0 m a

/-- The byte that a core's next load of a device-memory address finds where no copy of the line is stale: what its open region has stored
there, or what memory holds (R140). -/
def coreByte (s : State) (ci pa : Nat) : Byte :=
  match bufByte (getCore s ci).cbuf pa with
  | some b => b
  | none => byteAt s.mem pa

/-! ## The issue of a word -/

/-- The issue that the focus names, of a word with token fields `tk`. -/
def issueEnv (tk : Tk) (s : State) : Env := { envOf s with pout := pushPair s.focusCl tk.tkout.toNat }

/-- The state as the meaning of a word finds it: the token of TKIN taken, the push of TKOUT held (R45). Without token fields nothing has
changed. -/
def issued (tk : Tk) (s : State) : State :=
  modArch s s.focusCore fun a => holdTok (popTok a (popPair s.focusCl tk.tkin.toNat)) (pushPair s.focusCl tk.tkout.toNat)

/-- A word may issue at the focus: the checks of R51 pass, its tokens are ready (R45), its guard flag reads 1 (R39). -/
abbrev MayIssue (w : Nat) (dsts : List (BitVec 6)) (g : BitVec 3) (tk : Tk) (s : State) : Prop :=
  issueTrap w dsts s (envOf s) = none ∧ popReady (envOf s).rd.a (popPair s.focusCl tk.tkin.toNat) = true ∧
    pushReady (envOf s).rd.a (pushPair s.focusCl tk.tkout.toNat) = true ∧ rdFlag (envOf s).rd.a s.focusCl g.toNat = true

/-- The end of a word whose effect has left `t`: alone, the program counter of its cluster moves on; in a bundle the bundle's end does it
(R36, R58). -/
def goLater (s t : State) : State :=
  match s.bundle with
  | none => modCore t s.focusCore fun c => advance c s.focusCl 0
  | some _ => t

/-- The end of a word that has completed: its push is delivered (R45), and the program counter moves on. -/
def goOn (tk : Tk) (s t : State) : State :=
  goLater s (modArch t s.focusCore fun a => deliverTok a (pushPair s.focusCl tk.tkout.toNat))

/-- The end of a `vigil`: the program counter steps over the literal word too (R70). -/
def goPastLiteral (s t : State) : State :=
  match s.bundle with
  | none => modCore t s.focusCore fun c => advance c s.focusCl 4
  | some _ => noteLiteral t (envOf s)

/-- A taken transfer to `a` (R36): alone, the program counter of the cluster, or in joint mode of the core, is the target; in a bundle the
bundle goes there once its slots have executed. -/
def goTo (s t : State) (a : Word) : State :=
  match s.bundle with
  | none => modCore t s.focusCore fun c =>
      match (envOf s).rd.a.mode with | .joint => setPcs c a | .split => setPc c (cnum s.focusCl) a
  | some _ => { t with bundle := t.bundle.map fun b => { b with target := some a } }

/-- The end of a word that has placed the program counters itself. -/
def goSet (s t : State) : State :=
  match s.bundle with
  | none => t
  | some _ => { t with bundle := t.bundle.map fun b => { b with pcSet := true } }

/-- A cause raised by the word at the focus: alone, the trap is taken on the state as it was; in a bundle the first cause in slot order is
noted, and taken at the bundle's end (R58). -/
def goTrap (s : State) (t : Trap) : State :=
  match s.bundle with
  | none => takeTrap s s.focusCore s.focusCl t
  | some b => { s with bundle := some { b with raised := (match b.raised with | none => some (s.focusCl, t) | some x => some x) } }

/-- The state after a word in `s` whose access has met a line that another core pins: it issues again, alone or with its bundle, and the core ends
its own pins (R182, R183). -/
def goRetry (s : State) : State :=
  match s.bundle with
  | some b => { s with bundle := some { b with stalled := true, unpin := true } }
  | none => modArch s s.focusCore fun a => { a with pins := [] }

/-- A word that waits: alone, nothing has changed; in a bundle the bundle waits. -/
def goWait (s : State) : State :=
  match s.bundle with
  | none => s
  | some b => { s with bundle := some { b with stalled := true } }

/-! ## What a word names -/

/-- What the issue of a word depends on beside its own effect: its scalar destinations (R59), its guard (R39; flag 0 where it has none) and its
token fields (R45). -/
structure IssueFields where
  dsts : List (BitVec 6)
  guard : BitVec 3
  tk : Tk
deriving DecidableEq, Repr

/-- The destinations, guard and token fields of every instruction that is issued as a word; none for the step of an engine, the Drove, the
firmware or the host. -/
def issueFields : Instr → Option IssueFields
  | .add d _ _ g => some { dsts := [d], guard := g, tk := tkNone }
  | .sub d _ _ g => some { dsts := [d], guard := g, tk := tkNone }
  | .and d _ _ g => some { dsts := [d], guard := g, tk := tkNone }
  | .or d _ _ g => some { dsts := [d], guard := g, tk := tkNone }
  | .xor d _ _ g => some { dsts := [d], guard := g, tk := tkNone }
  | .sll d _ _ g => some { dsts := [d], guard := g, tk := tkNone }
  | .srl d _ _ g => some { dsts := [d], guard := g, tk := tkNone }
  | .sra d _ _ g => some { dsts := [d], guard := g, tk := tkNone }
  | .mul d _ _ g => some { dsts := [d], guard := g, tk := tkNone }
  | .mulhiS d _ _ g => some { dsts := [d], guard := g, tk := tkNone }
  | .mulhiU d _ _ g => some { dsts := [d], guard := g, tk := tkNone }
  | .quotS d _ _ g => some { dsts := [d], guard := g, tk := tkNone }
  | .quotU d _ _ g => some { dsts := [d], guard := g, tk := tkNone }
  | .rmdrS d _ _ g => some { dsts := [d], guard := g, tk := tkNone }
  | .rmdrU d _ _ g => some { dsts := [d], guard := g, tk := tkNone }
  | .addi d _ _ => some { dsts := [d], guard := 0, tk := tkNone }
  | .andi d _ _ => some { dsts := [d], guard := 0, tk := tkNone }
  | .ori d _ _ => some { dsts := [d], guard := 0, tk := tkNone }
  | .xori d _ _ => some { dsts := [d], guard := 0, tk := tkNone }
  | .slli d _ _ => some { dsts := [d], guard := 0, tk := tkNone }
  | .srli d _ _ => some { dsts := [d], guard := 0, tk := tkNone }
  | .srai d _ _ => some { dsts := [d], guard := 0, tk := tkNone }
  | .himm d _ => some { dsts := [d], guard := 0, tk := tkNone }
  | .adpc d _ => some { dsts := [d], guard := 0, tk := tkNone }
  | .cmpEq _ _ _ g => some { dsts := [], guard := g, tk := tkNone }
  | .cmpNe _ _ _ g => some { dsts := [], guard := g, tk := tkNone }
  | .cmpLt _ _ _ g => some { dsts := [], guard := g, tk := tkNone }
  | .cmpGe _ _ _ g => some { dsts := [], guard := g, tk := tkNone }
  | .cmpLtu _ _ _ g => some { dsts := [], guard := g, tk := tkNone }
  | .cmpGeu _ _ _ g => some { dsts := [], guard := g, tk := tkNone }
  | .flAnd _ _ _ g => some { dsts := [], guard := g, tk := tkNone }
  | .flOr _ _ _ g => some { dsts := [], guard := g, tk := tkNone }
  | .flXor _ _ _ g => some { dsts := [], guard := g, tk := tkNone }
  | .flAndn _ _ _ g => some { dsts := [], guard := g, tk := tkNone }
  | .flRd d g => some { dsts := [d], guard := g, tk := tkNone }
  | .flWr _ g => some { dsts := [], guard := g, tk := tkNone }
  | .cmpiEq _ _ _ => some { dsts := [], guard := 0, tk := tkNone }
  | .cmpiNe _ _ _ => some { dsts := [], guard := 0, tk := tkNone }
  | .cmpiLt _ _ _ => some { dsts := [], guard := 0, tk := tkNone }
  | .cmpiGe _ _ _ => some { dsts := [], guard := 0, tk := tkNone }
  | .cmpiLtu _ _ _ => some { dsts := [], guard := 0, tk := tkNone }
  | .cmpiGeu _ _ _ => some { dsts := [], guard := 0, tk := tkNone }
  | .br _ _ => some { dsts := [], guard := 0, tk := tkNone }
  | .brn _ _ => some { dsts := [], guard := 0, tk := tkNone }
  | .call _ _ => some { dsts := [], guard := 0, tk := tkNone }
  | .jmpr d _ g => some { dsts := [d], guard := g, tk := tkNone }
  | .rep _ _ _ => some { dsts := [], guard := 0, tk := tkNone }
  | .loopO _ _ => some { dsts := [], guard := 0, tk := tkNone }
  | .loopI _ _ => some { dsts := [], guard := 0, tk := tkNone }
  | .lpclrO => some { dsts := [], guard := 0, tk := tkNone }
  | .lpclrI => some { dsts := [], guard := 0, tk := tkNone }
  | .loopm _ _ _ _ _ => some { dsts := [], guard := 0, tk := tkNone }
  | .yset _ g => some { dsts := [], guard := g, tk := tkNone }
  | .yclr _ g => some { dsts := [], guard := g, tk := tkNone }
  | .ywait _ g => some { dsts := [], guard := g, tk := tkNone }
  | .ywaitc _ g => some { dsts := [], guard := g, tk := tkNone }
  | .ytas _ _ g => some { dsts := [], guard := g, tk := tkNone }
  | .yrd d g => some { dsts := [d], guard := g, tk := tkNone }
  | .tkpush _ g => some { dsts := [], guard := g, tk := tkNone }
  | .tkwait _ g => some { dsts := [], guard := g, tk := tkNone }
  | .tkcnt d _ g => some { dsts := [d], guard := g, tk := tkNone }
  | .rset _ _ g => some { dsts := [], guard := g, tk := tkNone }
  | .rnext d _ g => some { dsts := [d], guard := g, tk := tkNone }
  | .rsteal _ g => some { dsts := [], guard := g, tk := tkNone }
  | .rstat d g => some { dsts := [d], guard := g, tk := tkNone }
  | .faddF64 d _ _ g => some { dsts := [d], guard := g, tk := tkNone }
  | .fsubF64 d _ _ g => some { dsts := [d], guard := g, tk := tkNone }
  | .fmulF64 d _ _ g => some { dsts := [d], guard := g, tk := tkNone }
  | .fdivF64 d _ _ g => some { dsts := [d], guard := g, tk := tkNone }
  | .fsqrtF64 d _ g => some { dsts := [d], guard := g, tk := tkNone }
  | .fminF64 d _ _ g => some { dsts := [d], guard := g, tk := tkNone }
  | .fmaxF64 d _ _ g => some { dsts := [d], guard := g, tk := tkNone }
  | .fmacF64 d _ _ g => some { dsts := [d], guard := g, tk := tkNone }
  | .fcmpEqF64 _ _ _ g => some { dsts := [], guard := g, tk := tkNone }
  | .fcmpLtF64 _ _ _ g => some { dsts := [], guard := g, tk := tkNone }
  | .fcmpLeF64 _ _ _ g => some { dsts := [], guard := g, tk := tkNone }
  | .scvtF64F32 d _ _ g => some { dsts := [d], guard := g, tk := tkNone }
  | .scvtF64I64 d _ _ g => some { dsts := [d], guard := g, tk := tkNone }
  | .scvtF64Ui64 d _ _ g => some { dsts := [d], guard := g, tk := tkNone }
  | .scvtI64F64 d _ _ g => some { dsts := [d], guard := g, tk := tkNone }
  | .scvtUi64F64 d _ _ g => some { dsts := [d], guard := g, tk := tkNone }
  | .scvtI32F64 d _ _ g => some { dsts := [d], guard := g, tk := tkNone }
  | .fkindF64 d _ g => some { dsts := [d], guard := g, tk := tkNone }
  | .fabsF64 d _ g => some { dsts := [d], guard := g, tk := tkNone }
  | .fnegF64 d _ g => some { dsts := [d], guard := g, tk := tkNone }
  | .fmsgnF64 d _ _ g => some { dsts := [d], guard := g, tk := tkNone }
  | .faddF32 d _ _ g => some { dsts := [d], guard := g, tk := tkNone }
  | .fsubF32 d _ _ g => some { dsts := [d], guard := g, tk := tkNone }
  | .fmulF32 d _ _ g => some { dsts := [d], guard := g, tk := tkNone }
  | .fdivF32 d _ _ g => some { dsts := [d], guard := g, tk := tkNone }
  | .fsqrtF32 d _ g => some { dsts := [d], guard := g, tk := tkNone }
  | .fminF32 d _ _ g => some { dsts := [d], guard := g, tk := tkNone }
  | .fmaxF32 d _ _ g => some { dsts := [d], guard := g, tk := tkNone }
  | .fmacF32 d _ _ g => some { dsts := [d], guard := g, tk := tkNone }
  | .fcmpEqF32 _ _ _ g => some { dsts := [], guard := g, tk := tkNone }
  | .fcmpLtF32 _ _ _ g => some { dsts := [], guard := g, tk := tkNone }
  | .fcmpLeF32 _ _ _ g => some { dsts := [], guard := g, tk := tkNone }
  | .scvtF32F64 d _ _ g => some { dsts := [d], guard := g, tk := tkNone }
  | .scvtF32I64 d _ _ g => some { dsts := [d], guard := g, tk := tkNone }
  | .scvtF32Ui64 d _ _ g => some { dsts := [d], guard := g, tk := tkNone }
  | .scvtI64F32 d _ _ g => some { dsts := [d], guard := g, tk := tkNone }
  | .scvtUi64F32 d _ _ g => some { dsts := [d], guard := g, tk := tkNone }
  | .scvtI32F32 d _ _ g => some { dsts := [d], guard := g, tk := tkNone }
  | .fkindF32 d _ g => some { dsts := [d], guard := g, tk := tkNone }
  | .fabsF32 d _ g => some { dsts := [d], guard := g, tk := tkNone }
  | .fnegF32 d _ g => some { dsts := [d], guard := g, tk := tkNone }
  | .fmsgnF32 d _ _ g => some { dsts := [d], guard := g, tk := tkNone }
  | .csrrd d _ => some { dsts := [d], guard := 0, tk := tkNone }
  | .csrwr d _ _ => some { dsts := [d], guard := 0, tk := tkNone }
  | .csrset d _ _ => some { dsts := [d], guard := 0, tk := tkNone }
  | .csrclr d _ _ => some { dsts := [d], guard := 0, tk := tkNone }
  | .fork _ _ _ g => some { dsts := [], guard := g, tk := tkNone }
  | .join _ => some { dsts := [], guard := 0, tk := tkNone }
  | .commit => some { dsts := [], guard := 0, tk := tkNone }
  | .commitD _ _ => some { dsts := [], guard := 0, tk := tkNone }
  | .replay g => some { dsts := [], guard := g, tk := tkNone }
  | .pset d _ g => some { dsts := [d], guard := g, tk := tkNone }
  | .pclr d _ g => some { dsts := [d], guard := g, tk := tkNone }
  | .ptest _ _ g => some { dsts := [], guard := g, tk := tkNone }
  | .hinit _ _ tk => some { dsts := [], guard := 0, tk := tk }
  | .harrive _ _ tk => some { dsts := [], guard := 0, tk := tk }
  | .hwait _ _ tk => some { dsts := [], guard := 0, tk := tk }
  | .hstat x _ tk => some { dsts := [x], guard := 0, tk := tk }
  | .chainKick _ _ tk => some { dsts := [], guard := 0, tk := tk }
  | .chainStop _ tk => some { dsts := [], guard := 0, tk := tk }
  | .chainStat x _ tk => some { dsts := [x], guard := 0, tk := tk }
  | .qpost _ _ tk => some { dsts := [], guard := 0, tk := tk }
  | .sigadd _ _ tk => some { dsts := [], guard := 0, tk := tk }
  | .ringpost _ _ tk => some { dsts := [], guard := 0, tk := tk }
  | .ares x _ tk => some { dsts := [x], guard := 0, tk := tk }
  | .aresh x _ tk => some { dsts := [x], guard := 0, tk := tk }
  | .jeos _ _ => some { dsts := [], guard := 0, tk := tkNone }
  | .fenceCore g => some { dsts := [], guard := g, tk := tkNone }
  | .fenceDie g => some { dsts := [], guard := g, tk := tkNone }
  | .fencePkg g => some { dsts := [], guard := g, tk := tkNone }
  | .fenceSys g => some { dsts := [], guard := g, tk := tkNone }
  | .endOp g => some { dsts := [], guard := g, tk := tkNone }
  | .ldG x y p _ _ tk => some { dsts := [x] ++ incDst p y, guard := 0, tk := tk }
  | .ldL x y p _ _ tk => some { dsts := [x] ++ incDst p y, guard := 0, tk := tk }
  | .vldG _ y p _ tk => some { dsts := incDst p y, guard := 0, tk := tk }
  | .vldL _ y p _ tk => some { dsts := incDst p y, guard := 0, tk := tk }
  | .gath _ _ _ _ _ tk => some { dsts := [], guard := 0, tk := tk }
  | .sbaseL _ _ tk => some { dsts := [], guard := 0, tk := tk }
  | .sdim0L _ _ tk => some { dsts := [], guard := 0, tk := tk }
  | .sdim1L _ _ tk => some { dsts := [], guard := 0, tk := tk }
  | .sdim2L _ _ tk => some { dsts := [], guard := 0, tk := tk }
  | .smodeL _ _ tk => some { dsts := [], guard := 0, tk := tk }
  | .sbindL _ tk => some { dsts := [], guard := 0, tk := tk }
  | .sunbindL _ tk => some { dsts := [], guard := 0, tk := tk }
  | .sstartL _ tk => some { dsts := [], guard := 0, tk := tk }
  | .sstopL _ tk => some { dsts := [], guard := 0, tk := tk }
  | .sseekL _ _ tk => some { dsts := [], guard := 0, tk := tk }
  | .sposL _ y tk => some { dsts := [y], guard := 0, tk := tk }
  | .markL tk => some { dsts := [], guard := 0, tk := tk }
  | .cpin _ _ tk => some { dsts := [], guard := 0, tk := tk }
  | .cpin2d _ _ tk => some { dsts := [], guard := 0, tk := tk }
  | .cpinT _ _ tk => some { dsts := [], guard := 0, tk := tk }
  | .prefG _ tk => some { dsts := [], guard := 0, tk := tk }
  | .ssize _ tk => some { dsts := [], guard := 0, tk := tk }
  | .smap _ _ tk => some { dsts := [], guard := 0, tk := tk }
  | .sunmap _ tk => some { dsts := [], guard := 0, tk := tk }
  | .sflush _ tk => some { dsts := [], guard := 0, tk := tk }
  | .sinval _ tk => some { dsts := [], guard := 0, tk := tk }
  | .vadd _ _ _ _ _ => some { dsts := [], guard := 0, tk := tkNone }
  | .vsub _ _ _ _ _ => some { dsts := [], guard := 0, tk := tkNone }
  | .vmul _ _ _ _ _ => some { dsts := [], guard := 0, tk := tkNone }
  | .vfma _ _ _ _ _ => some { dsts := [], guard := 0, tk := tkNone }
  | .vfms _ _ _ _ _ => some { dsts := [], guard := 0, tk := tkNone }
  | .vfnma _ _ _ _ _ => some { dsts := [], guard := 0, tk := tkNone }
  | .vmin _ _ _ _ _ => some { dsts := [], guard := 0, tk := tkNone }
  | .vmax _ _ _ _ _ => some { dsts := [], guard := 0, tk := tkNone }
  | .vdiv _ _ _ _ _ => some { dsts := [], guard := 0, tk := tkNone }
  | .vand _ _ _ _ _ => some { dsts := [], guard := 0, tk := tkNone }
  | .vor _ _ _ _ _ => some { dsts := [], guard := 0, tk := tkNone }
  | .vxor _ _ _ _ _ => some { dsts := [], guard := 0, tk := tkNone }
  | .vsll _ _ _ _ _ => some { dsts := [], guard := 0, tk := tkNone }
  | .vsrl _ _ _ _ _ => some { dsts := [], guard := 0, tk := tkNone }
  | .vsra _ _ _ _ _ => some { dsts := [], guard := 0, tk := tkNone }
  | .vadds _ _ _ _ _ => some { dsts := [], guard := 0, tk := tkNone }
  | .vsubs _ _ _ _ _ => some { dsts := [], guard := 0, tk := tkNone }
  | .vmulh _ _ _ _ _ => some { dsts := [], guard := 0, tk := tkNone }
  | .vabsd _ _ _ _ _ => some { dsts := [], guard := 0, tk := tkNone }
  | .vavg _ _ _ _ _ => some { dsts := [], guard := 0, tk := tkNone }
  | .vcmpeq _ _ _ _ _ => some { dsts := [], guard := 0, tk := tkNone }
  | .vcmplt _ _ _ _ _ => some { dsts := [], guard := 0, tk := tkNone }
  | .vcmple _ _ _ _ _ => some { dsts := [], guard := 0, tk := tkNone }
  | .vcmpne _ _ _ _ _ => some { dsts := [], guard := 0, tk := tkNone }
  | .vsel _ _ _ _ _ => some { dsts := [], guard := 0, tk := tkNone }
  | .vperm _ _ _ _ _ => some { dsts := [], guard := 0, tk := tkNone }
  | .vzipLo _ _ _ _ => some { dsts := [], guard := 0, tk := tkNone }
  | .vzipHi _ _ _ _ => some { dsts := [], guard := 0, tk := tkNone }
  | .vuzpEv _ _ _ _ => some { dsts := [], guard := 0, tk := tkNone }
  | .vuzpOd _ _ _ _ => some { dsts := [], guard := 0, tk := tkNone }
  | .vslide _ _ _ _ _ _ => some { dsts := [], guard := 0, tk := tkNone }
  | .vabs _ _ _ _ => some { dsts := [], guard := 0, tk := tkNone }
  | .vneg _ _ _ _ => some { dsts := [], guard := 0, tk := tkNone }
  | .vsqrt _ _ _ _ => some { dsts := [], guard := 0, tk := tkNone }
  | .vrecip _ _ _ _ => some { dsts := [], guard := 0, tk := tkNone }
  | .vrsqrt _ _ _ _ => some { dsts := [], guard := 0, tk := tkNone }
  | .vnot _ _ _ _ => some { dsts := [], guard := 0, tk := tkNone }
  | .vclz _ _ _ _ => some { dsts := [], guard := 0, tk := tkNone }
  | .vpopc _ _ _ _ => some { dsts := [], guard := 0, tk := tkNone }
  | .vrint _ _ _ _ => some { dsts := [], guard := 0, tk := tkNone }
  | .vclass _ _ _ _ => some { dsts := [], guard := 0, tk := tkNone }
  | .vmov _ _ _ _ => some { dsts := [], guard := 0, tk := tkNone }
  | .vcvt _ _ _ _ _ _ => some { dsts := [], guard := 0, tk := tkNone }
  | .vredSum _ _ _ _ => some { dsts := [], guard := 0, tk := tkNone }
  | .vredMin _ _ _ _ => some { dsts := [], guard := 0, tk := tkNone }
  | .vredMax _ _ _ _ => some { dsts := [], guard := 0, tk := tkNone }
  | .vredAnd _ _ _ _ => some { dsts := [], guard := 0, tk := tkNone }
  | .vredOr _ _ _ _ => some { dsts := [], guard := 0, tk := tkNone }
  | .vredXor _ _ _ _ => some { dsts := [], guard := 0, tk := tkNone }
  | .vredSumw _ _ _ _ => some { dsts := [], guard := 0, tk := tkNone }
  | .vscanSum _ _ _ _ => some { dsts := [], guard := 0, tk := tkNone }
  | .vscanMin _ _ _ _ => some { dsts := [], guard := 0, tk := tkNone }
  | .vscanMax _ _ _ _ => some { dsts := [], guard := 0, tk := tkNone }
  | .mand _ _ _ => some { dsts := [], guard := 0, tk := tkNone }
  | .mor _ _ _ => some { dsts := [], guard := 0, tk := tkNone }
  | .mxor _ _ _ => some { dsts := [], guard := 0, tk := tkNone }
  | .mandn _ _ _ => some { dsts := [], guard := 0, tk := tkNone }
  | .mlen _ _ => some { dsts := [], guard := 0, tk := tkNone }
  | .mpopc d _ => some { dsts := [d], guard := 0, tk := tkNone }
  | .mfirst d _ => some { dsts := [d], guard := 0, tk := tkNone }
  | .mtov _ _ => some { dsts := [], guard := 0, tk := tkNone }
  | .vsplat _ _ _ _ => some { dsts := [], guard := 0, tk := tkNone }
  | .vext d _ _ _ => some { dsts := [d], guard := 0, tk := tkNone }
  | .vins _ _ _ _ => some { dsts := [], guard := 0, tk := tkNone }
  | .mxnest _ tk => some { dsts := [], guard := 0, tk := tk }
  | .mxgo tk => some { dsts := [], guard := 0, tk := tk }
  | .mxwait tk => some { dsts := [], guard := 0, tk := tk }
  | .mxstat x tk => some { dsts := [x], guard := 0, tk := tk }
  | .mxdrain _ _ _ tk => some { dsts := [], guard := 0, tk := tk }
  | .mxzero _ tk => some { dsts := [], guard := 0, tk := tk }
  | .mxmma _ _ _ tk => some { dsts := [], guard := 0, tk := tk }
  | .tdef _ _ tk => some { dsts := [], guard := 0, tk := tk }
  | .tvalid _ tk => some { dsts := [], guard := 0, tk := tk }
  | .tinval _ tk => some { dsts := [], guard := 0, tk := tk }
  | .tstat x _ tk => some { dsts := [x], guard := 0, tk := tk }
  | .twait _ tk => some { dsts := [], guard := 0, tk := tk }
  | .walkAdd _ tk => some { dsts := [], guard := 0, tk := tk }
  | .walkMin _ tk => some { dsts := [], guard := 0, tk := tk }
  | .walkMax _ tk => some { dsts := [], guard := 0, tk := tk }
  | .walkAnd _ tk => some { dsts := [], guard := 0, tk := tk }
  | .walkOr _ tk => some { dsts := [], guard := 0, tk := tk }
  | .walkXor _ tk => some { dsts := [], guard := 0, tk := tk }
  | .walkPopc _ tk => some { dsts := [], guard := 0, tk := tk }
  | .walkHist _ tk => some { dsts := [], guard := 0, tk := tk }
  | .vview _ tk => some { dsts := [], guard := 0, tk := tk }
  | .aview _ tk => some { dsts := [], guard := 0, tk := tk }
  | .vigilMx _ _ tk _ => some { dsts := [], guard := 0, tk := tk }
  | .vigilVec _ tk _ => some { dsts := [], guard := 0, tk := tk }
  | .vigilRd _ tk _ => some { dsts := [], guard := 0, tk := tk }
  | .amdef _ _ tk => some { dsts := [], guard := 0, tk := tk }
  | .aset _ _ tk => some { dsts := [], guard := 0, tk := tk }
  | .astage _ _ tk => some { dsts := [], guard := 0, tk := tk }
  | .aerr _ tk => some { dsts := [], guard := 0, tk := tk }
  | .adec _ tk => some { dsts := [], guard := 0, tk := tk }
  | .aget x _ tk => some { dsts := [x], guard := 0, tk := tk }
  | .aput _ _ tk => some { dsts := [], guard := 0, tk := tk }
  | .astat x _ tk => some { dsts := [x], guard := 0, tk := tk }
  | .aoff _ tk => some { dsts := [], guard := 0, tk := tk }
  | .await tk => some { dsts := [], guard := 0, tk := tk }
  | .shdecl _ _ tk => some { dsts := [], guard := 0, tk := tk }
  | .apxb _ tk => some { dsts := [], guard := 0, tk := tk }
  | .apxe _ tk => some { dsts := [], guard := 0, tk := tk }
  | .shinv _ tk => some { dsts := [], guard := 0, tk := tk }
  | .shwld _ _ tk => some { dsts := [], guard := 0, tk := tk }
  | .shwst _ _ tk => some { dsts := [], guard := 0, tk := tk }
  | .shstat x _ tk => some { dsts := [x], guard := 0, tk := tk }
  | .shmean x _ tk => some { dsts := [x], guard := 0, tk := tk }
  | .stG _ y p _ tk => some { dsts := incDst p y, guard := 0, tk := tk }
  | .stL _ y p _ tk => some { dsts := incDst p y, guard := 0, tk := tk }
  | .vstG _ y p _ tk => some { dsts := incDst p y, guard := 0, tk := tk }
  | .vstL _ y p _ tk => some { dsts := incDst p y, guard := 0, tk := tk }
  | .scat _ _ _ _ _ tk => some { dsts := [], guard := 0, tk := tk }
  | .sbaseS _ _ tk => some { dsts := [], guard := 0, tk := tk }
  | .sdim0S _ _ tk => some { dsts := [], guard := 0, tk := tk }
  | .sdim1S _ _ tk => some { dsts := [], guard := 0, tk := tk }
  | .sdim2S _ _ tk => some { dsts := [], guard := 0, tk := tk }
  | .smodeS _ _ tk => some { dsts := [], guard := 0, tk := tk }
  | .sbindS _ tk => some { dsts := [], guard := 0, tk := tk }
  | .sunbindS _ tk => some { dsts := [], guard := 0, tk := tk }
  | .sstartS _ tk => some { dsts := [], guard := 0, tk := tk }
  | .sstopS _ tk => some { dsts := [], guard := 0, tk := tk }
  | .sseekS _ _ tk => some { dsts := [], guard := 0, tk := tk }
  | .sposS _ y tk => some { dsts := [y], guard := 0, tk := tk }
  | .markS tk => some { dsts := [], guard := 0, tk := tk }
  | .cpout _ _ tk => some { dsts := [], guard := 0, tk := tk }
  | .cpout2d _ _ tk => some { dsts := [], guard := 0, tk := tk }
  | .cpoutT _ _ tk => some { dsts := [], guard := 0, tk := tk }
  | .amoAdd _ _ _ _ tk => some { dsts := [], guard := 0, tk := tk }
  | .amoAnd _ _ _ _ tk => some { dsts := [], guard := 0, tk := tk }
  | .amoOr _ _ _ _ tk => some { dsts := [], guard := 0, tk := tk }
  | .amoXor _ _ _ _ tk => some { dsts := [], guard := 0, tk := tk }
  | .amoMax _ _ _ _ tk => some { dsts := [], guard := 0, tk := tk }
  | .amoMaxu _ _ _ _ tk => some { dsts := [], guard := 0, tk := tk }
  | .amoSwap _ _ _ _ tk => some { dsts := [], guard := 0, tk := tk }
  | .amoCasD _ _ _ tk => some { dsts := [], guard := 0, tk := tk }
  | .amoCasQ _ _ _ tk => some { dsts := [], guard := 0, tk := tk }
  | .tret g => some { dsts := [], guard := g, tk := tkNone }
  | .tretN g => some { dsts := [], guard := g, tk := tkNone }
  | .ucall g => some { dsts := [], guard := g, tk := tkNone }
  | .svc d _ g => some { dsts := [d], guard := g, tk := tkNone }
  | .tlbinv _ _ g => some { dsts := [], guard := g, tk := tkNone }
  | .scsrwr _ _ g => some { dsts := [], guard := g, tk := tkNone }
  | .segset _ _ g => some { dsts := [], guard := g, tk := tkNone }
  | .segclr _ g => some { dsts := [], guard := g, tk := tkNone }
  | .ctxout _ _ g => some { dsts := [], guard := g, tk := tkNone }
  | .ctxin _ _ g => some { dsts := [], guard := g, tk := tkNone }
  | .asset _ _ g => some { dsts := [], guard := g, tk := tkNone }
  | .pinfo d _ g => some { dsts := [d], guard := g, tk := tkNone }
  | .pscrub _ g => some { dsts := [], guard := g, tk := tkNone }
  | .errrd d _ g => some { dsts := [d], guard := g, tk := tkNone }
  | .hrmark _ g => some { dsts := [], guard := g, tk := tkNone }
  | .hint _ => some { dsts := [], guard := 0, tk := tkNone }
  | .emulMajor7c _ => some { dsts := [], guard := 0, tk := tkNone }
  | .emulMajor7d _ => some { dsts := [], guard := 0, tk := tkNone }
  | .emulMajor7e _ => some { dsts := [], guard := 0, tk := tkNone }
  | .undefinedMajor _ => some { dsts := [], guard := 0, tk := tkNone }
  | .streamFetch _ _ => none
  | .streamOutboundWrite _ _ => none
  | .translationWalk _ _ _ => none
  | .invalidationApply _ => none
  | .matrixOpRun _ => none
  | .fetcherCopy _ _ => none
  | .walkRun _ => none
  | .vigilCheck _ => none
  | .almanacStep _ => none
  | .shepherdOperation _ => none
  | .copyPieceLand _ => none
  | .outboundCopyExecute _ => none
  | .outboundCopyComplete _ => none
  | .copyFreeze _ => none
  | .freezeResume _ => none
  | .freezeUnresolvable _ => none
  | .faultServiceAnswer _ _ => none
  | .chainEnd _ _ => none
  | .chainCopy _ _ => none
  | .chainCopy2d _ _ => none
  | .chainWait _ _ => none
  | .chainPost _ _ => none
  | .chainLink _ _ => none
  | .chainFlag _ _ => none
  | .chainArrive _ _ => none
  | .pendingKickStart _ _ => none
  | .postDeparture _ => none
  | .qpostDelivery _ => none
  | .hostAtomicopCompletion _ _ => none
  | .peerWriteAck _ => none
  | .peerRefused _ => none
  | .remoteHurdleArrival _ => none
  | .stealRequestArrival _ => none
  | .stealGrant _ => none
  | .stealRefusal _ => none
  | .detectedErrorReplay _ _ => none
  | .unitAdoption _ _ => none
  | .outOfRegionError _ => none
  | .snapshotStoreError _ => none
  | .dieFailover _ => none
  | .thermalTrip _ => none
  | .thermalThrottle _ => none
  | .powerEstimate _ _ => none
  | .boostInterval => none
  | .dtimeSync _ => none
  | .patrolScrub _ => none
  | .glitchDetect => none
  | .packageReset _ => none
  | .firmwareRestart _ _ => none
  | .firmwareUpdate _ _ _ => none
  | .flrOwner _ => none
  | .flrQueueFunction _ => none
  | .portalDmwr _ _ _ => none
  | .portalPostedWrite _ _ _ => none
  | .portalWake _ _ => none
  | .queueActivate _ _ => none
  | .queueStop _ _ => none
  | .queueUnmap _ _ => none
  | .queueUnmapped _ _ => none
  | .headConditionSatisfied _ _ => none
  | .queueFetch _ _ => none
  | .nopPacket _ _ => none
  | .launchPacket _ _ => none
  | .nodePacket _ _ => none
  | .waitAllPacket _ _ => none
  | .waitAnyPacket _ _ => none
  | .signalPacket _ _ => none
  | .cancelPacket _ _ => none
  | .gangPacket _ _ => none
  | .gangMessageReceive _ _ _ _ => none
  | .gangGoDecision _ _ => none
  | .gangRelease _ _ => none
  | .dispatch _ => none
  | .candidateAged _ _ => none
  | .standingClaim _ _ => none
  | .unitCompletion _ => none
  | .msixMessage _ => none
  | .preemptionRequest _ => none
  | .contextSwitch _ => none
  | .flitCrcFailure _ _ => none
  | .linkTrainingTimeout _ _ => none
  | .hostMemoryAccess _ _ _ => none
  | .loaderDoorbell _ => none
  | .loadRequest => none
  | .fenWrite _ _ => none
  | .ringEnable _ _ => none
  | .mirroredSizeSet _ => none
  | .hostRegisterWrite _ _ => none
  | .tetherPeerAccess _ _ _ => none
  | .peerAtomicCompletion _ => none
  | .linkTrainingComplete _ _ => none
  | .thermalThrottleEnd _ => none
  | .ownerProvisioning _ _ => none

/-! ## Vector operands -/

/-- The vectors that source names give, and the state once each port among them has popped (R65, R159); none where one has to wait or
faults. -/
def vecSources (e : Env) (s : State) (ns : List Nat) : Option (List (List Lane) × State) :=
  match popAll s e.ci (portsOf e.rd ns) with
  | .error _ => none
  | .ok (t, got) => some (ns.map fun n =>
      match portOf e.rd n with
      | some q => (match got.find? (fun x => x.1 == q) with | some x => x.2 | none => zeroVec)
      | none => readV e.rd n, t)

/-- The state once elements of width `w` have been written to vector register `n`, or pushed to the port that it names (R187, R160); none
where the push has to wait or faults. -/
def vecWrite (e : Env) (s : State) (n w : Nat) (es : List (Option Elem)) : Option State :=
  match portOf e.rd n with
  | none => some (modCore s e.ci fun c => writeV e.rd.a c n (mergeElems w (readVAs e.rd.a c n) es))
  | some q =>
    match pushPort s e.ci q (mergeElems w zeroVec (portElems es)) with
    | .ok t _ => some t
    | _ => none

/-- The state once elements have been written to `g` registers from `d` on, `n` to each (R202). -/
def vecWrites (e : Env) (d w n : Nat) : Nat → State → List (Option Elem) → Option State
  | 0, s, _ => some s
  | g + 1, s, es =>
    match vecWrite e s d w (es.take n) with
    | none => none
    | some t => vecWrites e (d + 1) w n g t (es.drop n)

/-- The state once the lanes of vector register `n` have been written where `on` holds, or pushed to its port (R147). -/
def laneWrite (e : Env) (s : State) (n : Nat) (v : List Lane) (on : Nat → Bool) : Option State :=
  match portOf e.rd n with
  | none => some (modCore s e.ci fun c => writeLanes e.rd.a c n v on)
  | some q =>
    match pushPort s e.ci q ((List.range 64).map fun i => if on i then nth Lane.zero v i else Lane.zero) with
    | .ok t _ => some t
    | _ => none

end Sys2Proof.Machine
end

