-- ==== Sys2Proof/Certificates/Slice0/Obligations.lean ====
section
/-! DEFINITION. The statements about the model that are to be proved. Most have the form: where the conditions of the spec hold, `exec` answers
the next state that is written out, which differs from the state before only where the record update says so. `MayIssue` stands for the
conditions of an issue that all words share; `goOn` and `goSet` for the end of a word. -/

open Sys2Proof Sys2Proof.Machine

/-! ## Scalar arithmetic -/

/-- R106, R101, R61: the eleven forms that set no flag. A poisoned operand gives data zero with the side bit; a write to x0 is discarded
(`setX`). -/
def Obligations.IntegerResults : Prop :=
  ∀ (s : State) (d a b : BitVec 6) (g : BitVec 3),
    ∀ r ∈ ([(.add d a b g, fun x y => x + y), (.sub d a b g, fun x y => x - y), (.and d a b g, fun x y => x &&& y),
        (.or d a b g, fun x y => x ||| y), (.xor d a b g, fun x y => x ^^^ y), (.sll d a b g, fun x y => x <<< (y.toNat % 64)),
        (.srl d a b g, fun x y => x >>> (y.toNat % 64)), (.sra d a b g, fun x y => x.sshiftRight (y.toNat % 64)),
        (.mul d a b g, fun x y => x * y), (.mulhiS d a b g, fun x y => BitVec.ofInt 64 (x.toInt * y.toInt / 2 ^ 64)),
        (.mulhiU d a b g, fun x y => BitVec.ofNat 64 (x.toNat * y.toNat / 2 ^ 64))] : List (Instr × (Word → Word → Word))),
      MayIssue (encodeNat r.1) [d] g tkNone s →
        let e := issueEnv tkNone s
        exec r.1 s = .next (goOn tkNone s
          (if (e.x a).psn || (e.x b).psn then setX e s d 0 true else setX e s d (r.2 (e.x a).val (e.x b).val) false))

/-- R79 and R106: quotient and remainder, with the clamped cases (division by zero, and the most negative value by −1), which set SAT. -/
def Obligations.DivisionResults : Prop :=
  ∀ (s : State) (d a b : BitVec 6) (g : BitVec 3),
    ∀ r ∈ ([(.quotS d a b g, fun x y =>
          if y = 0 then ((if x = 0 then 0 else if x.msb then BitVec.ofNat 64 (2 ^ 63) else BitVec.ofNat 64 (2 ^ 63 - 1)), true)
          else if x = BitVec.ofNat 64 (2 ^ 63) ∧ y = BitVec.ofNat 64 (2 ^ 64 - 1) then (BitVec.ofNat 64 (2 ^ 63 - 1), true)
          else (BitVec.ofInt 64 (x.toInt.tdiv y.toInt), false)),
        (.quotU d a b g, fun x y =>
          if y = 0 then ((if x = 0 then 0 else BitVec.ofNat 64 (2 ^ 64 - 1)), true) else (BitVec.ofNat 64 (x.toNat / y.toNat), false)),
        (.rmdrS d a b g, fun x y =>
          if y = 0 then (x, true)
          else if x = BitVec.ofNat 64 (2 ^ 63) ∧ y = BitVec.ofNat 64 (2 ^ 64 - 1) then (0, true)
          else (BitVec.ofInt 64 (x.toInt - y.toInt * x.toInt.tdiv y.toInt), false)),
        (.rmdrU d a b g, fun x y =>
          if y = 0 then (x, true) else (BitVec.ofNat 64 (x.toNat - y.toNat * (x.toNat / y.toNat)), false))]
        : List (Instr × (Word → Word → Word × Bool))),
      MayIssue (encodeNat r.1) [d] g tkNone s →
        let e := issueEnv tkNone s
        let v := r.2 (e.x a).val (e.x b).val
        exec r.1 s = .next (goOn tkNone s
          (if (e.x a).psn || (e.x b).psn then setX e s d 0 true
           else addFlags (setX e s d v.1 false) s.focusCore { sat := v.2 }))

/-- R107: the immediate forms. A poisoned operand gives data zero with the side bit, as in R106. For major 0x06, the kind 0b11 raises UDF
with detail 1, and IMM13[10:6] must be zero. -/
def Obligations.ImmediateResults : Prop :=
  ∀ (s : State) (d a sh : BitVec 6) (i : BitVec 13) (w lit : BitVec 32),
    (w.toNat / 2 ^ 25 = 0x06 →
      (w.toNat / 2 ^ 11 % 4 = 3 → slotTrap w.toNat s (envOf s) = none →
        decodeAt s (envOf s) w lit = .error (mkTrap 0x01 1 (w.setWidth 64))) ∧
      (w.toNat / 2 ^ 11 % 4 ≠ 3 → w.toNat / 2 ^ 6 % 32 ≠ 0 → slotTrap w.toNat s (envOf s) = none →
        decodeAt s (envOf s) w lit = .error (mkTrap 0x03 0 (w.setWidth 64)))) ∧
    ∀ r ∈ ([(.addi d a i, fun x => x + i.signExtend 64), (.andi d a i, fun x => x &&& i.signExtend 64),
        (.ori d a i, fun x => x ||| i.signExtend 64), (.xori d a i, fun x => x ^^^ i.signExtend 64),
        (.slli d a sh, fun x => x <<< sh.toNat), (.srli d a sh, fun x => x >>> sh.toNat),
        (.srai d a sh, fun x => x.sshiftRight sh.toNat)] : List (Instr × (Word → Word))),
      MayIssue (encodeNat r.1) [d] 0 tkNone s →
        let e := issueEnv tkNone s
        exec r.1 s = .next (goOn tkNone s (if (e.x a).psn then setX e s d 0 true else setX e s d (r.2 (e.x a).val) false))

/-- R108: `himm` writes U, and `adpc` writes A + U, A the address of R41: the word's in split mode (past the `rep` prefix while one runs),
the bundle's in joint mode. The result never carries poison. Choices of the model that it rests on: log 48. -/
def Obligations.UpperImmediateResults : Prop :=
  ∀ (s : State) (d : BitVec 6) (i : BitVec 19),
    let e := issueEnv tkNone s
    let u : Word := (i ++ (0 : BitVec 13)).signExtend 64
    (MayIssue (encodeNat (.himm d i)) [d] 0 tkNone s → exec (.himm d i) s = .next (goOn tkNone s (setX e s d u false))) ∧
    (MayIssue (encodeNat (.adpc d i)) [d] 0 tkNone s →
      exec (.adpc d i) s = .next (goOn tkNone s (setX e s d
        ((if (vget e.rd.a.repK none (cnum s.focusCl)).isSome then vget e.rd.a.pc 0 (cnum s.focusCl) + 4
          else vget e.rd.a.pc 0 (cnum s.focusCl)) + u) false)))

/-! ## Compares and flags -/

/-- R109, R110, R102: a relation into a flag of the issuing cluster; a write to f0 is discarded (`setFlag`). A poisoned operand of a
compare, or of `fl.wr`, is consumed: POISON_CONSUMED with detail 3 and the register number as TVAL. Of two poisoned operands the first is named,
which is the model's choice (log 53). Choices of the model that it rests on: log 53. -/
def Obligations.CompareResults : Prop :=
  ∀ (s : State) (d a b : BitVec 6) (g f : BitVec 3) (i : BitVec 13),
    (∀ r ∈ ([(.cmpEq d a b g, fun x y => decide (x = y)), (.cmpNe d a b g, fun x y => decide (x ≠ y)),
        (.cmpLt d a b g, fun x y => decide (x.toInt < y.toInt)), (.cmpGe d a b g, fun x y => decide (y.toInt ≤ x.toInt)),
        (.cmpLtu d a b g, fun x y => decide (x.toNat < y.toNat)), (.cmpGeu d a b g, fun x y => decide (y.toNat ≤ x.toNat))]
        : List (Instr × (Word → Word → Bool))),
      MayIssue (encodeNat r.1) [] g tkNone s →
        let e := issueEnv tkNone s
        (e.x a).psn = false → (e.x b).psn = false →
          exec r.1 s = .next (goOn tkNone s (setFlag e s d.toNat (r.2 (e.x a).val (e.x b).val)))) ∧
    (∀ r ∈ ([(.cmpiEq f a i, fun x y => decide (x = y)), (.cmpiNe f a i, fun x y => decide (x ≠ y)),
        (.cmpiLt f a i, fun x y => decide (x.toInt < y.toInt)), (.cmpiGe f a i, fun x y => decide (y.toInt ≤ x.toInt)),
        (.cmpiLtu f a i, fun x y => decide (x.toNat < y.toNat)), (.cmpiGeu f a i, fun x y => decide (y.toNat ≤ x.toNat))]
        : List (Instr × (Word → Word → Bool))),
      MayIssue (encodeNat r.1) [] 0 tkNone s →
        let e := issueEnv tkNone s
        (e.x a).psn = false →
          exec r.1 s = .next (goOn tkNone s (setFlag e s f.toNat (r.2 (e.x a).val (i.signExtend 64))))) ∧
    (∀ r ∈ [.cmpEq d a b g, .cmpNe d a b g, .cmpLt d a b g, .cmpGe d a b g, .cmpLtu d a b g, .cmpGeu d a b g],
      MayIssue (encodeNat r) [] g tkNone s →
        ((issueEnv tkNone s).x a).psn = true ∨ ((issueEnv tkNone s).x b).psn = true →
          exec r s = .next (goTrap s (mkTrap 0x20 3 (BitVec.ofNat 64 (if ((issueEnv tkNone s).x a).psn then a.toNat else b.toNat))))) ∧
    (∀ r ∈ [.cmpiEq f a i, .cmpiNe f a i, .cmpiLt f a i, .cmpiGe f a i, .cmpiLtu f a i, .cmpiGeu f a i],
      MayIssue (encodeNat r) [] 0 tkNone s → ((issueEnv tkNone s).x a).psn = true →
        exec r s = .next (goTrap s (mkTrap 0x20 3 (BitVec.ofNat 64 a.toNat)))) ∧
    (MayIssue (encodeNat (.flWr a g)) [] g tkNone s → ((issueEnv tkNone s).x a).psn = true →
        exec (.flWr a g) s = .next (goTrap s (mkTrap 0x20 3 (BitVec.ofNat 64 a.toNat))))

/-- R109, R269: flag logic, flags to and from a register, and the three poison forms. -/
def Obligations.FlagAndPoisonForms : Prop :=
  ∀ (s : State) (d a b : BitVec 6) (g : BitVec 3),
    let e := issueEnv tkNone s
    let fl := fun (i : BitVec 6) => rdFlag e.rd.a s.focusCl i.toNat
    (∀ r ∈ ([(.flAnd d a b g, fun x y => x && y), (.flOr d a b g, fun x y => x || y), (.flXor d a b g, fun x y => xor x y),
        (.flAndn d a b g, fun x y => x && !y)] : List (Instr × (Bool → Bool → Bool))),
      MayIssue (encodeNat r.1) [] g tkNone s → exec r.1 s = .next (goOn tkNone s (setFlag e s d.toNat (r.2 (fl a) (fl b))))) ∧
    (MayIssue (encodeNat (.flRd d g)) [d] g tkNone s →
      exec (.flRd d g) s = .next (goOn tkNone s (setX e s d ((vget e.rd.a.flags 0 (cnum s.focusCl) ||| 1).setWidth 64) false))) ∧
    (MayIssue (encodeNat (.flWr a g)) [] g tkNone s → (e.x a).psn = false →
      exec (.flWr a g) s = .next (goOn tkNone s (modArch s s.focusCore fun ar =>
        { ar with flags := vset ar.flags (cnum s.focusCl) ((e.x a).val.setWidth 8 &&& 0xFE) }))) ∧
    (MayIssue (encodeNat (.pset d a g)) [d] g tkNone s →
      exec (.pset d a g) s = .next (goOn tkNone s (setX e s d (e.x a).val true))) ∧
    (MayIssue (encodeNat (.pclr d a g)) [d] g tkNone s →
      exec (.pclr d a g) s = .next (goOn tkNone s (setX e s d (e.x a).val false))) ∧
    (MayIssue (encodeNat (.ptest d a g)) [] g tkNone s →
      exec (.ptest d a g) s = .next (goOn tkNone s (setFlag e s d.toNat (e.x a).psn)))

/-! ## Scalar floating point -/

/-- R129: the scalar float forms with a float result. A poisoned operand gives the poison encoding of the format with the side bit and sets
no flag (`setF`); otherwise the operation's result is written and its flags are set in USTAT. -/
def Obligations.FloatResults : Prop :=
  ∀ (s : State) (d a b : BitVec 6) (g : BitVec 3),
    let e := issueEnv tkNone s
    let m := frmMode e.rd.a
    (∀ r ∈ ([(.faddF64 d a b g, fF64, fAdd fF64 m), (.fsubF64 d a b g, fF64, fSub fF64 m), (.fmulF64 d a b g, fF64, fMul fF64 m),
        (.fdivF64 d a b g, fF64, fDiv fF64 m), (.fminF64 d a b g, fF64, fMinMax fF64 false), (.fmaxF64 d a b g, fF64, fMinMax fF64 true),
        (.fmsgnF64 d a b g, fF64, fun v w => (withBit v 63 (signBit fF64 v != signBit fF64 w), {})),
        (.faddF32 d a b g, fF32, fAdd fF32 m), (.fsubF32 d a b g, fF32, fSub fF32 m), (.fmulF32 d a b g, fF32, fMul fF32 m),
        (.fdivF32 d a b g, fF32, fDiv fF32 m), (.fminF32 d a b g, fF32, fMinMax fF32 false), (.fmaxF32 d a b g, fF32, fMinMax fF32 true),
        (.fmsgnF32 d a b g, fF32, fun v w => (withBit v 31 (signBit fF32 v != signBit fF32 w), {}))]
        : List (Instr × Fmt × (Nat → Nat → Nat × Flg))),
      MayIssue (encodeNat r.1) [d] g tkNone s →
        exec r.1 s = .next (goOn tkNone s
          (if floatPsn r.2.1 (e.x a) || floatPsn r.2.1 (e.x b) then setX e s d (BitVec.ofNat 64 r.2.1.poison) true
           else
            let v := r.2.2 (floatBits r.2.1 (e.x a)) (floatBits r.2.1 (e.x b))
            addFlags (setX e s d (BitVec.ofNat 64 v.1) false) s.focusCore v.2))) ∧
    (∀ r ∈ ([(.fmacF64 d a b g, fF64), (.fmacF32 d a b g, fF32)] : List (Instr × Fmt)),
      MayIssue (encodeNat r.1) [d] g tkNone s →
        exec r.1 s = .next (goOn tkNone s
          (if floatPsn r.2 (e.x a) || floatPsn r.2 (e.x b) || floatPsn r.2 (e.x d) then setX e s d (BitVec.ofNat 64 r.2.poison) true
           else
            let v := fFma r.2 m (floatBits r.2 (e.x a)) (floatBits r.2 (e.x b)) (floatBits r.2 (e.x d))
            addFlags (setX e s d (BitVec.ofNat 64 v.1) false) s.focusCore v.2))) ∧
    (∀ r ∈ ([(.fsqrtF64 d a g, fF64, fSqrt fF64 m), (.fabsF64 d a g, fF64, fun v => (withBit v 63 false, {})),
        (.fnegF64 d a g, fF64, fun v => (withBit v 63 (!signBit fF64 v), {})), (.fsqrtF32 d a g, fF32, fSqrt fF32 m),
        (.fabsF32 d a g, fF32, fun v => (withBit v 31 false, {})), (.fnegF32 d a g, fF32, fun v => (withBit v 31 (!signBit fF32 v), {}))]
        : List (Instr × Fmt × (Nat → Nat × Flg))),
      MayIssue (encodeNat r.1) [d] g tkNone s →
        exec r.1 s = .next (goOn tkNone s
          (if floatPsn r.2.1 (e.x a) then setX e s d (BitVec.ofNat 64 r.2.1.poison) true
           else
            let v := r.2.2 (floatBits r.2.1 (e.x a))
            addFlags (setX e s d (BitVec.ofNat 64 v.1) false) s.focusCore v.2)))

/-- R129 to R131: float compares into a flag, classes, and conversions between formats and to and from integers. -/
def Obligations.FloatConversions : Prop :=
  ∀ (s : State) (d a b : BitVec 6) (m g : BitVec 3),
    let e := issueEnv tkNone s
    let md := modeOf e.rd.a m
    (∀ r ∈ ([(.fcmpEqF64 d a b g, fF64, 0), (.fcmpLtF64 d a b g, fF64, 1), (.fcmpLeF64 d a b g, fF64, 2), (.fcmpEqF32 d a b g, fF32, 0),
        (.fcmpLtF32 d a b g, fF32, 1), (.fcmpLeF32 d a b g, fF32, 2)] : List (Instr × Fmt × Nat)),
      MayIssue (encodeNat r.1) [] g tkNone s → floatPsn r.2.1 (e.x a) = false → floatPsn r.2.1 (e.x b) = false →
        let v := fCmp r.2.1 r.2.2 (floatBits r.2.1 (e.x a)) (floatBits r.2.1 (e.x b))
        exec r.1 s = .next (goOn tkNone s (addFlags (setFlag e s d.toNat v.1) s.focusCore v.2))) ∧
    (∀ r ∈ ([(.fkindF64 d a g, fF64), (.fkindF32 d a g, fF32)] : List (Instr × Fmt)),
      MayIssue (encodeNat r.1) [d] g tkNone s →
        exec r.1 s = .next (goOn tkNone s (setX e s d
          (BitVec.ofNat 64 (fClass r.2 (floatBits r.2 (e.x a)) + (if floatPsn r.2 (e.x a) then 16 else 0))) false))) ∧
    (∀ r ∈ ([(.scvtF64F32 d a m g, fF32, fF64), (.scvtF32F64 d a m g, fF64, fF32)] : List (Instr × Fmt × Fmt)),
      MayIssue (encodeNat r.1) [d] g tkNone s →
        exec r.1 s = .next (goOn tkNone s
          (if floatPsn r.2.1 (e.x a) then setX e s d (BitVec.ofNat 64 r.2.2.poison) true
           else
            let v := fCvt r.2.1 r.2.2 md (floatBits r.2.1 (e.x a))
            addFlags (setX e s d (BitVec.ofNat 64 v.1) false) s.focusCore v.2))) ∧
    (∀ r ∈ ([(.scvtF64I64 d a m g, fF64, fun x => x.toInt), (.scvtF64Ui64 d a m g, fF64, fun x => x.toNat),
        (.scvtF32I64 d a m g, fF32, fun x => x.toInt), (.scvtF32Ui64 d a m g, fF32, fun x => x.toNat)] : List (Instr × Fmt × (Word → Int))),
      MayIssue (encodeNat r.1) [d] g tkNone s →
        exec r.1 s = .next (goOn tkNone s
          (if (e.x a).psn then setX e s d (BitVec.ofNat 64 r.2.1.poison) true
           else
            let v := ofIntF r.2.1 md (r.2.2 (e.x a).val)
            addFlags (setX e s d (BitVec.ofNat 64 v.1) false) s.focusCore v.2))) ∧
    (∀ r ∈ ([(.scvtI64F64 d a m g, fF64, true, 64), (.scvtUi64F64 d a m g, fF64, false, 64), (.scvtI32F64 d a m g, fF64, true, 32),
        (.scvtI64F32 d a m g, fF32, true, 64), (.scvtUi64F32 d a m g, fF32, false, 64), (.scvtI32F32 d a m g, fF32, true, 32)]
        : List (Instr × Fmt × Bool × Nat)),
      MayIssue (encodeNat r.1) [d] g tkNone s →
        exec r.1 s = .next (goOn tkNone s
          (if floatPsn r.2.1 (e.x a) then setX e s d 0 true
           else
            let v := toIntV r.2.2.1 r.2.2.2 md (decodeF r.2.1 (floatBits r.2.1 (e.x a)))
            addFlags (setX e s d (BitVec.ofInt 64 v.1) false) s.focusCore v.2)))

/-! ## CSRs -/

/-- R132, R97, R94, R62, R63, R22, R384, R314, R316, R317, R277, R231, R98, R5: every CSR field by field. A read gives the fields at their
places, the others zero, never poison; a write gives the old value to xd and then writes the fields that the register has: ones clear USTAT,
but a flag that the same bundle sets stays; FRM takes 0 to 4 and keeps its value for 5 to 7; VVIEW, AVIEW, SHMAXE and SHMEAN take their
fields; every other register ignores the write. A poisoned xa is consumed. Choices of the model that it rests on: log 7 (CYC and DTIME). -/
def Obligations.CsrResults : Prop :=
  ∀ (s : State) (d a : BitVec 6) (c : BitVec 10) (o : Word),
    let e := issueEnv tkNone s
    let ar := e.rd.a
    let die := getDie s (dieOf s.focusCore)
    let west := decide (s.focusCore % 36 < 18)
    let dom := if west then die.west else die.east
    let g := curSeg s e.rd
    let r := if ar.uh && !ar.tl then e.rd.heldTr else e.rd.tr
    let v := e.rd.tvec
    let flag := fun (b : Bool) => BitVec.ofBool b
    let reads : List (Nat × Word) :=
      [(0x000, 0#56 ++ ar.ustat), (0x001, 0#61 ++ ar.frm), (0x002, 0#34 ++ ar.vrot ++ 0#5 ++ ar.vbase ++ 0#8), (0x003, 0#45 ++ ar.abase ++ 0#12),
       (0x010, e.rd.cyc), (0x011, s.dtime),
       (0x012, 0#40 ++ flag die.pwrgHeld ++ flag die.thrtHeld ++ BitVec.ofNat 4 die.gateHeld ++ flag dom.claim ++ flag (!west) ++
         BitVec.ofNat 8 dom.halves ++ 0#6 ++ BitVec.ofNat 2 dom.step),
       (0x013, 0#46 ++ flag g.fw ++ flag g.sys ++ 0#2 ++ e.rd.segL ++ 0#2 ++ ar.segCur),
       (0x020, flag ar.tl ++ flag ar.uh ++ flag ar.held ++ 0#27 ++ r.cl ++ 0#8 ++ r.detail ++ 0#2 ++ r.cause), (0x021, r.tval),
       (0x022, 0#5 ++ r.stream ++ r.elem), (0x024, r.epc[0]), (0x025, r.epc[1]), (0x026, r.epc[2]), (0x027, r.epc[3]),
       (0x028, v.hseg ++ flag v.v ++ 0#25 ++ v.off ++ 0#4), (0x030, e.rd.rgnpc),
       (0x031, 0#32 ++ BitVec.ofNat 16 e.rd.rtryTotal ++ 0#13 ++ BitVec.ofNat 3 e.rd.rtryCount),
       (0x032, BitVec.ofNat 64 (getPart s (partOf e.rd)).rtrymax), (0x033, e.rd.mxrow), (0x040, 0#32 ++ ar.shmaxe), (0x041, 0#32 ++ ar.shmean)]
    let writes : List (Nat × (Word → Arch → Arch)) :=
      [(0x000, fun v a => { a with ustat := (a.ustat &&& ~~~v.extractLsb' 0 8) ||| flaggedNow s }),
       (0x001, fun v a => if v.toNat % 8 < 5 then { a with frm := v.extractLsb' 0 3 } else a),
       (0x002, fun v a => { a with vrot := v.extractLsb' 24 6, vbase := v.extractLsb' 8 11 }), (0x003, fun v a => { a with abase := v.extractLsb' 12 7 }),
       (0x040, fun v a => { a with shmaxe := v.extractLsb' 0 32 }), (0x041, fun v a => { a with shmean := v.extractLsb' 0 32 })]
    (c.toNat, o) ∈ reads →
    (MayIssue (encodeNat (.csrrd d c)) [d] 0 tkNone s → exec (.csrrd d c) s = .next (goOn tkNone s (setX e s d o false))) ∧
    (∀ r ∈ ([(.csrwr d a c, (e.x a).val), (.csrset d a c, o ||| (e.x a).val), (.csrclr d a c, o &&& ~~~(e.x a).val)] : List (Instr × Word)),
      MayIssue (encodeNat r.1) [d] 0 tkNone s →
        ((e.x a).psn = true → exec r.1 s = .next (goTrap s (mkTrap 0x20 3 (BitVec.ofNat 64 a.toNat)))) ∧
        ((e.x a).psn = false →
          (∀ f, (c.toNat, f) ∈ writes → exec r.1 s = .next (goOn tkNone s (setX e (modArch s s.focusCore (f r.2)) d o false))) ∧
          (0x010 ≤ c.toNat → c.toNat < 0x040 → exec r.1 s = .next (goOn tkNone s (setX e s d o false)))))

/-! ## Control -/

/-- R111, R112, R161: branches, calls and the branch on EOS. A transfer taken goes to its target once `checkTarget` finds it legal and makes
its segment current (R312); otherwise it raises what that finds; not taken, the program counter moves on. -/
def Obligations.BranchResults : Prop :=
  ∀ (s : State) (f n g : BitVec 3) (o : BitVec 22) (d a h : BitVec 6),
    let e := issueEnv tkNone s
    let t := e.addr + (o ++ (0 : BitVec 2)).signExtend 64
    let link : Word := e.addr + (match e.rd.a.mode with | .joint => 16 | .split => 4)
    let lr : BitVec 6 := match s.focusCl with | .c => 31 | .l => 43 | .k => 51 | .s => 63
    let enter := fun (u : State) => modArch u s.focusCore fun ar => { ar with segCur := h }
    let fl := rdFlag e.rd.a s.focusCl f.toNat
    (∀ r ∈ ([(.br f o, fl, s), (.brn f o, !fl, s), (.call f o, fl, setX e s lr link false),
        (.jeos n o, (vget e.rd.a.streams Stream.zero n.toNat).eos, s)] : List (Instr × Bool × State)),
      MayIssue (encodeNat r.1) [] 0 tkNone s →
        (r.2.1 = false → exec r.1 s = .next (goOn tkNone s s)) ∧
        (r.2.1 = true → checkTarget s e.rd e.rd.a.mode t = .ok h → exec r.1 s = .next (goTo s (enter r.2.2) t)) ∧
        (∀ x, r.2.1 = true → checkTarget s e.rd e.rd.a.mode t = .error x → exec r.1 s = .next (goTrap s x))) ∧
    (MayIssue (encodeNat (.jmpr d a g)) [d] g tkNone s → (e.x a).psn = false → checkTarget s e.rd e.rd.a.mode (e.x a).val = .ok h →
      exec (.jmpr d a g) s = .next (goTo s (enter (setX e s d link false)) (e.x a).val))

/-- R35, R37, R312: what a taken transfer checks: bits above 55, the alignment of the mode (TVAL the target), then the segments. That the bits
above 55 come before the alignment for a target with both is the model's choice (log 53). A target in the current segment leaves it current; in
joint mode a target in another segment that is not of the system makes that one current; from outside the system a system segment is entered at
its gate alone. Choices of the model that it rests on: log 53. -/
def Obligations.TransferChecks : Prop :=
  ∀ (s : State) (c : Core) (m : Mode) (t : Word),
    (2 ^ 56 ≤ t.toNat → checkTarget s c m t = .error (mkTrap 0x10 0 t)) ∧
    (t.toNat < 2 ^ 56 → t.toNat % (match m with | .joint => 16 | .split => 4) ≠ 0 → checkTarget s c m t = .error (mkTrap 0x14 0 t)) ∧
    (t.toNat < 2 ^ 56 → t.toNat % (match m with | .joint => 16 | .split => 4) = 0 →
      (inSeg (curSeg s c) t = true → checkTarget s c m t = .ok c.a.segCur) ∧
      (inSeg (curSeg s c) t = false → (∀ h : BitVec 6, inSeg (segOf s (partOf c) h) t = false) → checkTarget s c m t = .error (mkTrap 0x39 0 t)) ∧
      (∀ h : BitVec 6, inSeg (curSeg s c) t = false → inSeg (segOf s (partOf c) h) t = true →
        (∀ k : BitVec 6, k.toNat < h.toNat → inSeg (segOf s (partOf c) k) t = false) →
        let g := segOf s (partOf c) h
        let sys := (curSeg s c).v && (curSeg s c).sys
        checkTarget s c m t =
          if m = .split then .error (mkTrap 0x39 3 t)
          else if (!sys && g.sys && t != g.base + g.gate.setWidth 64) = true then .error (mkTrap 0x39 1 t) else .ok h))

/-- R67, R114, R117: `rep` arms its repetitions; a loop starts at the next word, or is skipped for a count of zero; `lpclr` makes a level
inactive; `loopm` fetches its body and starts the sequencer at the bundle after it, or skips its body for a count of zero or a false guard.
Choices of the model that it rests on: logs 36, 51. -/
def Obligations.LoopResults : Prop :=
  ∀ (s : State) (a b i6 : BitVec 6) (i : BitVec 13) (n : BitVec 8) (f sf : BitVec 4) (g : BitVec 3),
    let e := issueEnv tkNone s
    let cl := cnum s.focusCl
    let cnt := (e.x a).val.toNat % 2 ^ 32
    let put := fun (k : Nat) (l : LoopLv) => modArch s s.focusCore fun ar => { ar with loops := vset ar.loops k l }
    let old := fun (k : Nat) => vget e.rd.a.loops LoopLv.zero k
    (MayIssue (encodeNat (.rep n f sf)) [] 0 tkNone s →
      exec (.rep n f sf) s = .next (goSet s (modArch s s.focusCore fun ar => { ar with repK := vset ar.repK cl (some (0, n.toNat + 1)) }))) ∧
    (∀ r ∈ ([(.loopO a i, 2 * cl), (.loopI a i, 2 * cl + 1)] : List (Instr × Nat)),
      MayIssue (encodeNat r.1) [] 0 tkNone s → (e.x a).psn = false →
        (cnt ≠ 0 → exec r.1 s = .next (goOn tkNone s (put r.2
          { start := e.addr + 4, last := e.addr + BitVec.ofNat 64 (4 * i.toNat), count := cnt, active := true }))) ∧
        (cnt = 0 → exec r.1 s = .next (goSet s (modCore (put r.2 { old r.2 with active := false }) s.focusCore
          fun c => setPc c cl (e.addr + BitVec.ofNat 64 (4 + 4 * i.toNat)))))) ∧
    (∀ r ∈ ([(.lpclrO, 2 * cl), (.lpclrI, 2 * cl + 1)] : List (Instr × Nat)),
      MayIssue (encodeNat r.1) [] 0 tkNone s → exec r.1 s = .next (goOn tkNone s (modArch s s.focusCore fun ar =>
        { ar with loops := vset ar.loops r.2 { vget ar.loops LoopLv.zero r.2 with active := false } }))) ∧
    (MayIssue (encodeNat (.loopm i6 a b g sf)) [] 0 tkNone s →
      let past := Host.Outcome.next (goSet s (modCore s s.focusCore fun c => setPcs c (e.addr + BitVec.ofNat 64 (16 + 16 * (i6.toNat + 1)))))
      (rdFlag e.rd.a s.focusCl g.toNat = false → exec (.loopm i6 a b g sf) s = past) ∧
      (e.rd.a.tl = false → e.rd.a.uh = false → rdFlag e.rd.a s.focusCl g.toNat = true → (e.x a).psn = false → (e.x b).psn = false →
        (cnt ≠ 0 → ∃ buf, exec (.loopm i6 a b g sf) s = .next (goSet s (modCore s s.focusCore fun c => setPcs { c with a := { c.a with
            seq := some { k := 0, b := 0, n := cnt, stages := sf.toNat + 1, ii := i6.toNat + 1, map := (e.x b).val, body := e.addr + 16,
                          buf := buf } } } (e.addr + 16))) ∧
          ∀ j < 4 * (i6.toNat + 1), ∀ w, fetchWord s s.focusCore (e.addr + 16 + BitVec.ofNat 64 (4 * j)) = .ok w → buf[j]? = some (some w)) ∧
        (cnt = 0 → exec (.loopm i6 a b g sf) s = past)))

/-- R115: after a word in sequence at `p`, a level of which it is the last word takes a pass back to its start, the inner level first; a
level on its last pass becomes inactive, and the outer level is looked at next; otherwise the next word follows. In split mode a word that
has issued in sequence moves its cluster so, a `rep` word after its last repetition, and so does every word guarded off. A taken transfer
(`br`, `brn`, `call`, `jeos`, `jmpr`) changes no level, and a trap keeps every level in its frame. -/
def Obligations.LoopSteps : Prop :=
  ∀ (l : Vector LoopLv 8) (cl : Nat) (p : Word), cl < 4 →
    let inn := vget l LoopLv.zero (2 * cl + 1)
    let outl := vget l LoopLv.zero (2 * cl)
    (inn.active = true → p = inn.last → 1 < inn.count →
      nextPc l cl p = (vset l (2 * cl + 1) { inn with count := inn.count - 1 }, inn.start)) ∧
    (inn.active = true → p = inn.last → inn.count ≤ 1 →
      nextPc l cl p = nextPc (vset l (2 * cl + 1) { inn with count := 0, active := false }) cl p) ∧
    ((inn.active = false ∨ p ≠ inn.last) → outl.active = true → p = outl.last → 1 < outl.count →
      nextPc l cl p = (vset l (2 * cl) { outl with count := outl.count - 1 }, outl.start)) ∧
    ((inn.active = false ∨ p ≠ inn.last) → outl.active = true → p = outl.last → outl.count ≤ 1 →
      nextPc l cl p = (vset l (2 * cl) { outl with count := 0, active := false }, p + 4)) ∧
    ((inn.active = false ∨ p ≠ inn.last) → (outl.active = false ∨ p ≠ outl.last) → nextPc l cl p = (l, p + 4)) ∧
    (∀ (c : Core) (k : Cluster), c.a.mode = .split →
      let q := vget c.a.pc 0 (cnum k)
      let moved := fun (w : Word) => { c with a := { c.a with
        loops := (nextPc c.a.loops (cnum k) w).1, pc := vset c.a.pc (cnum k) (nextPc c.a.loops (cnum k) w).2,
        repK := vset c.a.repK (cnum k) none } }
      (vget c.a.repK none (cnum k) = none → advance c k 0 = moved q) ∧
      (∀ i n, vget c.a.repK none (cnum k) = some (i, n) → i + 1 < n →
        advance c k 0 = { c with a := { c.a with repK := vset c.a.repK (cnum k) (some (i + 1, n)) } }) ∧
      (∀ i n, vget c.a.repK none (cnum k) = some (i, n) → n ≤ i + 1 → advance c k 0 = moved (q + 4))) ∧
    (∀ (s : State) (d a h : BitVec 6) (g f : BitVec 3) (o : BitVec 22) (t : Trap), s.bundle = none →
      let e := issueEnv tkNone s
      let c := getCore s s.focusCore
      let w := e.addr + (o ++ (0 : BitVec 2)).signExtend 64
      let lr : BitVec 6 := match s.focusCl with | .c => 31 | .l => 43 | .k => 51 | .s => 63
      let fl := rdFlag e.rd.a s.focusCl f.toNat
      let hd := segOf s (partOf c) c.tvec.hseg
      (∀ i z, issueFields i = some z → issueTrap (encodeNat i) z.dsts s (envOf s) = none →
        popReady e.rd.a (popPair s.focusCl z.tk.tkin.toNat) = true → pushReady e.rd.a (pushPair s.focusCl z.tk.tkout.toNat) = true →
        rdFlag e.rd.a s.focusCl z.guard.toNat = false → exec i s = .next (modCore s s.focusCore fun c => advance c s.focusCl 0)) ∧
      (∀ r ∈ ([(.br f o, [], 0, fl, w, s), (.brn f o, [], 0, !fl, w, s), (.call f o, [], 0, fl, w, setX e s lr (e.addr + 4) false),
          (.jeos f o, [], 0, (vget e.rd.a.streams Stream.zero f.toNat).eos, w, s),
          (.jmpr d a g, [d], g, !(e.x a).psn, (e.x a).val, setX e s d (e.addr + 4) false)]
          : List (Instr × List (BitVec 6) × BitVec 3 × Bool × Word × State)),
        MayIssue (encodeNat r.1) r.2.1 r.2.2.1 tkNone s → e.rd.a.mode = .split → r.2.2.2.1 = true → checkTarget s e.rd .split r.2.2.2.2.1 = .ok h →
        exec r.1 s = .next (modCore r.2.2.2.2.2 s.focusCore fun c => { c with a := { c.a with
          segCur := h, pc := vset c.a.pc (cnum s.focusCl) r.2.2.2.2.1, repK := vset c.a.repK (cnum s.focusCl) none } })) ∧
      (s.focusCore < 72 → t.cause ≠ 0 → t.cause ≠ 0x21 → t.cause ≠ 0x07 → c.a.tl = false → (c.a.uh && (t.cause == 1 || t.cause == 5)) = false →
        (c.tvec.v && hd.v && hd.sys) = true → (getCore (takeTrap s s.focusCore s.focusCl t) s.focusCore).tr.frame.loops = c.a.loops))

/-- R119 to R121, R267, R268, R322: `fork` enters split mode with C at the next bundle and L, K and S at their entries; `join`, `commit`,
`commit.d` and `end` hold their cluster at the meeting, which is looked at once (alone) or at the bundle's end; `replay` discards the open
region and runs it again from its snapshot. Choices of the model that it rests on: logs 16, 46. -/
def Obligations.RegionControl : Prop :=
  ∀ (s : State) (d a b : BitVec 6) (g : BitVec 3) (o : BitVec 22) (hh : BitVec 6),
    let e := issueEnv tkNone s
    let held := fun (st : ClSt) => modArch s s.focusCore fun ar => { ar with clst := vset ar.clst (cnum s.focusCl) st }
    let meet := fun (st : ClSt) => goSet s (if s.bundle = none
      then settleWaits { held st with waiting := s.waiting.filter fun x => x.1 != s.focusCore } s.focusCore else held st)
    let t := e.addr + (o ++ (0 : BitVec 2)).signExtend 64
    (MayIssue (encodeNat (.fork d a b g)) [] g tkNone s → e.rd.a.tl = false → e.rd.a.uh = false →
        (∀ r ∈ [d, a, b], (e.x r).psn = false ∧ (e.x r).val.toNat % 4 = 0 ∧ ∃ h, checkTarget s e.rd .split (e.x r).val = .ok h) →
      exec (.fork d a b g) s = .next (goSet s (modCore s s.focusCore fun c => { c with a := { c.a with
        mode := .split, litAt := none, pc := #v[e.addr + 16, (e.x d).val, (e.x a).val, (e.x b).val], repK := Vector.replicate 4 none,
        loops := Vector.replicate 8 LoopLv.zero, clst := Vector.replicate 4 .run } }))) ∧
    (MayIssue (encodeNat (.join o)) [] 0 tkNone s → e.rd.a.tl = false → e.rd.a.uh = false →
      (s.focusCl ≠ .c → o = 0 → exec (.join o) s = .next (meet (.atJoin 0))) ∧
      (s.focusCl = .c → t.toNat % 16 = 0 → checkTarget s e.rd .split t = .ok hh → exec (.join o) s = .next (meet (.atJoin t)))) ∧
    (MayIssue (encodeNat (.endOp g)) [] g tkNone s → e.rd.a.tl = false → e.rd.a.uh = false → exec (.endOp g) s = .next (meet .atEnd)) ∧
    (MayIssue (encodeNat .commit) [] 0 tkNone s → e.rd.a.tl = false → e.rd.a.uh = false → exec .commit s = .next (meet .atCommit)) ∧
    (MayIssue (encodeNat (.commitD a b)) [] 0 tkNone s → e.rd.a.tl = false → e.rd.a.uh = false → (e.x a).psn = false → (e.x b).psn = false →
        (e.x a).val.toNat < 512 → (e.x b).val.toNat ≤ 16 → (e.x a).val.toNat + (e.x b).val.toNat ≤ 512 →
        (∀ k < (e.x b).val.toNat, flushFault e s ((e.x a).val.toNat + k) = none) →
        imageBytes e.rd.a (e.x a).val.toNat (e.x b).val.toNat ≤ 1048576 →
      exec (.commitD a b) s = .next (meet (.atCommitD (e.x a).val.toNat (e.x b).val.toNat))) ∧
    (MayIssue (encodeNat (.replay g)) [] g tkNone s → s.bundle = none → exec (.replay g) s = .next (replayRegion s s.focusCore 6))

/-- R120, R121, R164, R183, R221, R267: where the meeting of clusters held leads. All four at `join`: joint mode at C's target with the loop
levels inactive. All at `commit`, or C at `end` and the others at `join`, with no armed nest: the core waits for the region's work; where a
line that it writes is pinned by another core it ends its own pins and tries again; otherwise the region commits, at `end` with every stream
stopped. An armed nest is TILE_FAULT with detail 5 on K. A commit with an empty buffer makes the state that continues the snapshot, and
clears the retry count. Choices of the model that it rests on: logs 46, 57. -/
def Obligations.MeetingResults : Prop :=
  ∀ (s : State) (ci : Nat) (t : Word), ci < 72 →
    let c := getCore s ci
    let joined := ∀ k < 3, ∃ u, vget c.a.clst .run (k + 1) = .atJoin u
    (c.a.mode = .split → joined → vget c.a.clst .run 0 = .atJoin t →
      let c' := getCore (settleWaits s ci) ci
      c'.a.mode = .joint ∧ c'.a.pc = Vector.replicate 4 t ∧ c'.a.loops = Vector.replicate 8 LoopLv.zero ∧ c'.a.litAt = none ∧
        c'.a.clst = Vector.replicate 4 .run ∧ c'.a.regs = c.a.regs ∧ c'.a.flags = c.a.flags ∧ c'.a.tokens = c.a.tokens) ∧
    (∀ r ∈ ([(c.a.mode = .split → ∀ k < 3, vget c.a.clst .run (k + 1) = .atCommit, .atCommit, commitRegion s ci true false),
        (c.a.mode = .split → joined, .atEnd, modCore (commitRegion (modArch s ci fun a =>
          { a with streams := vmap (fun (x : Stream) => { x with running := false }) a.streams }) ci false false) ci
          fun c => { c with run := .ending 0 0 })] : List (Prop × ClSt × State)),
      r.1 → vget c.a.clst .run 0 = r.2.1 →
        (∀ off, armedNest c = some off → settleWaits s ci = takeTrap (undoBundle s ci) ci .k (mkTrap 0x17 5 (BitVec.ofNat 64 off))) ∧
        (armedNest c = none → regionDone c = false → settleWaits s ci = s) ∧
        (armedNest c = none → regionDone c = true → releaseFree s ci = false → settleWaits s ci = modArch s ci fun a => { a with pins := [] }) ∧
        (armedNest c = none → regionDone c = true → releaseFree s ci = true → settleWaits s ci = r.2.2)) ∧
    (c.cbuf = [] →
      let c' := getCore (commitRegion s ci true false) ci
      c'.snap = c'.a ∧ c'.ext = [] ∧ c'.cbuf = [] ∧ c'.rtryCount = 0 ∧ c'.a.nextRes = 0 ∧ c'.a.pins = [])

/-! ## Sync bits, tokens, ranges -/

/-- R122, R123: the words on sync bits and on token queues, where they complete. -/
def Obligations.SyncAndTokens : Prop :=
  ∀ (s : State) (n d p : BitVec 6) (g : BitVec 3),
    let e := issueEnv tkNone s
    let y := bitOf e.rd.a.y n.toNat
    let put := fun (u : State) (b : Bool) => modArch u s.focusCore fun ar => { ar with y := putBit ar.y n.toNat b }
    (∀ r ∈ ([(.yset n g, true, put s true), (.yclr n g, true, put s false), (.ywait n g, y, s), (.ywaitc n g, !y, s),
        (.ytas d n g, true, put (setFlag e s d.toNat y) true)] : List (Instr × Bool × State)),
      MayIssue (encodeNat r.1) [] g tkNone s →
        (r.2.1 = true → exec r.1 s = .next (goOn tkNone s r.2.2)) ∧ (r.2.1 = false → exec r.1 s = .next (goWait s))) ∧
    (MayIssue (encodeNat (.yrd d g)) [d] g tkNone s →
      exec (.yrd d g) s = .next (goOn tkNone s (setX e s d (e.rd.a.y.setWidth 64) false))) ∧
    (∀ r ∈ ([(.tkpush p g, pushReady e.rd.a (pushPair s.focusCl p.toNat),
          fun ar => deliverTok (holdTok ar (pushPair s.focusCl p.toNat)) (pushPair s.focusCl p.toNat)),
        (.tkwait p g, popReady e.rd.a (popPair s.focusCl p.toNat), fun ar => popTok ar (popPair s.focusCl p.toNat))]
        : List (Instr × Bool × (Arch → Arch))),
      MayIssue (encodeNat r.1) [] g tkNone s →
        (r.2.1 = true → exec r.1 s = .next (goOn tkNone s (modArch s s.focusCore r.2.2))) ∧
        (r.2.1 = false → exec r.1 s = .next (goWait s))) ∧
    (MayIssue (encodeNat (.tkcnt d p g)) [d] g tkNone s →
      exec (.tkcnt d p g) s = .next (goOn tkNone s (setX e s d
        (BitVec.ofNat 64 (match popPair s.focusCl p.toNat with | some q => vget e.rd.a.tokens 0 q | none => 0)) false)))

/-- R126, R127, R128: the range words. `rset` refuses a request that waits and sets the range; `rnext` answers one, with the upper half of two or
more items left (the half rounded down) or a refusal, then takes the next item or clears its flag; an answer given is noted as an arrival, and
goes to the core where the unit that asked is; `rsteal` is entered in the commit buffer;
`rstat` reads the three bits. -/
def Obligations.RangeResults : Prop :=
  ∀ (s : State) (d a b f r6 : BitVec 6) (g : BitVec 3),
    let e := issueEnv tkNone s
    let ar := (getCore s s.focusCore).a
    let left := ar.rend.toNat - ar.rcur.toNat
    let low := ar.rend - BitVec.ofNat 64 (left / 2)
    let answered := fun (t : State) (u : UnitRef) (x : Option (Word × Word)) => match unitAt t u with
      | some i => modCore t i fun c => { c with answers := c.answers ++ [(u, x)] }
      | none => t
    let refused := match ar.req with
      | none => s
      | some j => answered (modCore s s.focusCore fun c =>
          { c with a := { c.a with req := none }, ext := c.ext ++ [.refusalGiven j] }) j none
    let s1 := match ar.req with
      | some j =>
        if 2 ≤ left then answered (modCore s s.focusCore fun c =>
          { c with a := { c.a with rend := low, req := none }, ext := c.ext ++ [.grantGiven low j] }) j (some (low, ar.rend))
        else refused
      | none => s
    let cur := (getCore s1 s.focusCore).a
    (MayIssue (encodeNat (.rset a b g)) [] g tkNone s → (e.x a).psn = false → (e.x b).psn = false →
      exec (.rset a b g) s = .next (goOn tkNone s (modArch refused s.focusCore fun ar =>
        { ar with rcur := (e.x a).val, rend := (e.x b).val, grant := false, refused := false }))) ∧
    (MayIssue (encodeNat (.rnext d f g)) [d] g tkNone s →
      (cur.rcur.toNat < cur.rend.toNat → exec (.rnext d f g) s = .next (goOn tkNone s (setFlag e
        (setX e (modArch s1 s.focusCore fun ar => { ar with rcur := cur.rcur + 1 }) d cur.rcur false) f.toNat true))) ∧
      (cur.rend.toNat ≤ cur.rcur.toNat → exec (.rnext d f g) s = .next (goOn tkNone s (setFlag e s1 f.toNat false)))) ∧
    (MayIssue (encodeNat (.rsteal r6 g)) [] g tkNone s →
      exec (.rsteal r6 g) s = .next (goOn tkNone s (modCore s s.focusCore fun c => { c with cbuf := c.cbuf ++ [.steal (r6 == 1)] }))) ∧
    (MayIssue (encodeNat (.rstat d g)) [d] g tkNone s →
      exec (.rstat d g) s = .next (goOn tkNone s (setX e s d
        (BitVec.ofNat 64 ((if e.rd.a.refused then 4 else 0) + (if e.rd.a.grant then 2 else 0) + (if e.rd.a.pend then 1 else 0))) false)))

/-! ## Hurdles, chains, posts, result slots -/

/-- R246, R247, R244, R248, R269: the hurdle words on a local reference; a word of a bundle leaves its arrival to the bundle's end, where the
arrivals settle together; an arrival of zero does nothing; an arrival at a remote hurdle is recorded; a wait that is over acquires: every
invalidation that is queued is applied. One poisoned register in both roles of a word is consumed with the lower detail of the two. Choices
of the model that it rests on: log 8. -/
def Obligations.HurdleResults : Prop :=
  ∀ (s : State) (x y : BitVec 6) (tk : Tk),
    let e := issueEnv tk s
    let u := issued tk s
    let v := (e.x x).val
    let w := (e.x y).val
    let loc := fun (r : Word) => refMalformed r = false ∧ bitOf r 27 = false ∧ bitOf r 23 = false
    let aim := fun (h : Hurdle) => settle { h with target := w.toNat % 2 ^ 32 }
    let hur := fun (r : Word) => Sparse.get Hurdle.zero e.rd.a.hurdles (r.toNat % 1024)
    (MayIssue (encodeNat (.hinit x y tk)) [] 0 tk s → (e.x x).psn = false → (e.x y).psn = false → loc v →
      exec (.hinit x y tk) s = .next (goOn tk s (modArch u s.focusCore fun a =>
        { a with hurdles := Sparse.put Hurdle.zero a.hurdles (v.toNat % 1024) (aim (Sparse.get Hurdle.zero a.hurdles (v.toNat % 1024))) }))) ∧
    (MayIssue (encodeNat (.harrive x y tk)) [] 0 tk s → (e.x x).psn = false → (y ≠ 0 → (e.x y).psn = false) →
      let n := if y = 0 then 1 else w.toNat % 2 ^ 32
      (loc v → n ≠ 0 → exec (.harrive x y tk) s = .next (goOn tk s (match s.bundle with
        | none => modArch u s.focusCore fun a => arrive a (v.toNat % 1024) n
        | some b => { u with bundle := some { b with arrivals := b.arrivals ++ [(v.toNat % 1024, n)] } }))) ∧
      (refBad e s v = false → n = 0 → exec (.harrive x y tk) s = .next (goOn tk s u)) ∧
      (refBad e s v = false → (bitOf v 27 || bitOf v 23) = true → n ≠ 0 → sectorsUsed (getCore u s.focusCore).cbuf < 2048 →
        exec (.harrive x y tk) s = .next (goOn tk s (modCore u s.focusCore fun c =>
          { c with cbuf := (getCore u s.focusCore).cbuf ++ [.arrive v n] })))) ∧
    (MayIssue (encodeNat (.hwait x y tk)) [] 0 tk s → (e.x x).psn = false → (e.x y).psn = false → loc v →
      let waited := decide (((hur v).phcnt.toNat + 65536 - w.toNat % 65536) % 65536 < 32768)
      (waited = true → exec (.hwait x y tk) s = .next (goOn tk s (modCore u s.focusCore fun c =>
        { c with invq := [], l1 := c.l1.filter fun l => !c.invq.any fun i => i.line == l.line }))) ∧
      (waited = false → exec (.hwait x y tk) s = .next (goWait s))) ∧
    (∀ r ∈ ([(.hinit x x tk, 3), (.harrive x x tk, 3), (.hwait x x tk, 1), (.sigadd x x tk, 3), (.ringpost x x tk, 3)] : List (Instr × Nat)),
      MayIssue (encodeNat r.1) [] 0 tk s → (e.x x).psn = true → exec r.1 s = .next (goTrap s (mkTrap 0x20 r.2 (BitVec.ofNat 64 x.toNat)))) ∧
    (MayIssue (encodeNat (.hstat x y tk)) [x] 0 tk s → (e.x y).psn = false → loc w →
      exec (.hstat x y tk) s = .next (goOn tk s (setX e u x (BitVec.ofNat 64
        ((if (hur w).target = 0 then 0 else 2 ^ 48) + (hur w).phcnt.toNat * 2 ^ 32 + (hur w).count % 2 ^ 32)) false)))

/-- R250, R251, R255: kicks, posts, signal and ring adds are recorded in the commit buffer; a stop and a status act at once, a stop on a slot
whose entry waits for earlier copies once that entry has completed, and it drops every pending kick of its slot; a result slot that is
pending makes its reader wait. Choices of the model that it rests on: log 60. -/
def Obligations.ChainAndPostResults : Prop :=
  ∀ (s : State) (x y : BitVec 6) (tk : Tk),
    let e := issueEnv tk s
    let u := issued tk s
    let c := getCore u s.focusCore
    let v := (e.x x).val
    let w := (e.x y).val
    let enter := fun (z : CEntry) => Host.Outcome.next (goOn tk s (modCore u s.focusCore fun k => { k with cbuf := c.cbuf ++ [z] }))
    (MayIssue (encodeNat (.chainKick x y tk)) [] 0 tk s → (e.x y).psn = false → w.toNat % 32 = 0 → kickPending c x.toNat = false →
      sectorsUsed c.cbuf < 2048 → exec (.chainKick x y tk) s = enter (.kick x.toNat w)) ∧
    (MayIssue (encodeNat (.chainStop x tk)) [] 0 tk s →
      exec (.chainStop x tk) s = .next (goOn tk s (modCore u s.focusCore fun k =>
        let z := vget k.chains Chain.zero x.toNat
        { k with
          chains := vset k.chains x.toNat (if z.held then { z with kick := none, stopping := true } else { z with st := .stopped, kick := none, skip := none })
          cbuf := k.cbuf.filter fun z => match z with | .kick j _ => j != x.toNat | _ => true
          departing := k.departing.filter fun z => match z.entry with | .kick j _ => j != x.toNat | _ => true }))) ∧
    (MayIssue (encodeNat (.chainStat x y tk)) [x] 0 tk s →
      let k := vget e.rd.chains Chain.zero y.toNat
      exec (.chainStat x y tk) s = .next (goOn tk s (setX e u x (BitVec.ofNat 64 (k.cpc.toNat / 32 % 2 ^ 51 * 32 +
        (if kickPending e.rd y.toNat then 8 else 0) +
        (match k.st with | .idle => 0 | .run => 1 | .wait => 2 | .done => 3 | .stopped => 4 | .fault => 5))) false))) ∧
    (MayIssue (encodeNat (.qpost x y tk)) [] 0 tk s → (e.x x).psn = false → (e.x y).psn = false → v.toNat % 64 = 0 →
      v.toNat + 64 ≤ plain e.rd.a → w.toNat % 65536 < 64 → firstMarked e.rd (v.toNat / 4) 16 = none → sectorsUsed c.cbuf + 2 ≤ 2048 →
      exec (.qpost x y tk) s = enter (.post (w.toNat % 65536) (BitVec.ofNat 512 (leNat (scrBytes e.rd v.toNat 64))))) ∧
    (MayIssue (encodeNat (.sigadd x y tk)) [] 0 tk s → (e.x x).psn = false → (e.x y).psn = false → v.toNat < 4096 →
      sectorsUsed c.cbuf < 2048 → exec (.sigadd x y tk) s = enter (.sigadd v.toNat w)) ∧
    (MayIssue (encodeNat (.ringpost x y tk)) [] 0 tk s → (e.x x).psn = false → (e.x y).psn = false → v.toNat < 256 →
      sectorsUsed c.cbuf < 2048 → exec (.ringpost x y tk) s = enter (.ringadd v.toNat w)) ∧
    (∀ r ∈ ([(.ares x y tk, 0), (.aresh x y tk, 64)] : List (Instr × Nat)),
      MayIssue (encodeNat r.1) [x] 0 tk s →
        let k := vget e.rd.a.res ResSlot.zero y.toNat
        (k.pend = false → exec r.1 s = .next (goOn tk s (setX e u x (BitVec.ofNat 64 (k.val.toNat / 2 ^ r.2 % 2 ^ 64)) k.psn))) ∧
        (k.pend = true → exec r.1 s = .next (goWait s)))

/-! ## Streams -/

/-- R155, R157, R158: the stream words, on L and on S alike. A configuration word, `sstart`, `sstop` and `sseek` wait for an outbound FIFO
that holds vectors; otherwise they first act as `sstop` (a configuration word only where the engine runs). Choices of the model that it
rests on: logs 15, 37. -/
def Obligations.StreamResults : Prop :=
  ∀ (s : State) (q a : BitVec 6) (tk : Tk),
    let e := issueEnv tk s
    let u := issued tk s
    let c := getCore u s.focusCore
    let x := vget c.a.streams Stream.zero q.toNat
    let v := (e.x a).val
    let stopped := modCore u s.focusCore fun c =>
      dropFifo { c with a := putStream c.a q.toNat { x with running := false } } q.toNat x.pos.toNat
    let idle := x.out = false ∨ (vget c.fifos Fifo.zero q.toNat).vecs = []
    let count := BitVec.ofNat 20 (v.toNat % 2 ^ 20)
    let stride := BitVec.ofNat 32 (v.toNat / 2 ^ 32 % 2 ^ 32)
    (∀ r ∈ ([(.sbaseL q a tk, fun z => { z with base := v }), (.sdim0L q a tk, fun z => { z with c0 := count, s0 := stride }),
        (.sdim1L q a tk, fun z => { z with c1 := count, s1 := stride }), (.sdim2L q a tk, fun z => { z with c2 := count, s2 := stride }),
        (.smodeL q a tk, fun z => { z with out := bitOf v 0, loc := bitOf v 1 }),
        (.sbaseS q a tk, fun z => { z with base := v }), (.sdim0S q a tk, fun z => { z with c0 := count, s0 := stride }),
        (.sdim1S q a tk, fun z => { z with c1 := count, s1 := stride }), (.sdim2S q a tk, fun z => { z with c2 := count, s2 := stride }),
        (.smodeS q a tk, fun z => { z with out := bitOf v 0, loc := bitOf v 1 })] : List (Instr × (Stream → Stream))),
      MayIssue (encodeNat r.1) [] 0 tk s → (e.x a).psn = false → idle →
        exec r.1 s = .next (goOn tk s (modStream (if x.running then stopped else u) s.focusCore q.toNat r.2))) ∧
    (∀ r ∈ ([(.sbindL q tk, true), (.sunbindL q tk, false), (.sbindS q tk, true), (.sunbindS q tk, false)] : List (Instr × Bool)),
      MayIssue (encodeNat r.1) [] 0 tk s →
        exec r.1 s = .next (goOn tk s (modStream u s.focusCore q.toNat fun z => { z with bound := r.2 }))) ∧
    (∀ r ∈ [.sstartL q tk, .sstartS q tk], MayIssue (encodeNat r) [] 0 tk s → idle →
        x.base.toNat % 4 = 0 → x.s0.toNat % 4 = 0 → x.s1.toNat % 4 = 0 → x.s2.toNat % 4 = 0 →
      let t := modStream stopped s.focusCore q.toNat fun z => { z with pos := 0, eos := false, running := true }
      let z := vget (getCore t s.focusCore).a.streams Stream.zero q.toNat
      let set := fun (p : Push) => modCore t s.focusCore fun c =>
        putFifo c q.toNat { vget c.fifos Fifo.zero q.toNat with first := 0, push := p, pushOpen := p.isSome }
      (z.out = true ∨ z.c0.toNat * z.c1.toNat * z.c2.toNat = 0 → exec r s = .next (goOn tk s (set none))) ∧
      (z.out = false → z.c0.toNat * z.c1.toNat * z.c2.toNat ≠ 0 →
        exec r s = .next (goLater s (set (pushPair s.focusCl tk.tkout.toNat))))) ∧
    (∀ r ∈ [.sstopL q tk, .sstopS q tk], MayIssue (encodeNat r) [] 0 tk s →
      (idle → exec r s = .next (goOn tk s stopped)) ∧ (¬ idle → exec r s = .next (goWait s))) ∧
    (∀ r ∈ [.sseekL q a tk, .sseekS q a tk], MayIssue (encodeNat r) [] 0 tk s → (e.x a).psn = false → idle →
      let p := min v.toNat (totalOf (vget (getCore stopped s.focusCore).a.streams Stream.zero q.toNat))
      exec r s = .next (goOn tk s (modCore stopped s.focusCore fun c =>
        putFifo { c with a := putStream c.a q.toNat { vget c.a.streams Stream.zero q.toNat with
            pos := BitVec.ofNat 64 p, eos := false, running := x.running } } q.toNat
          { vget c.fifos Fifo.zero q.toNat with first := p }))) ∧
    (∀ r ∈ [.sposL q a tk, .sposS q a tk], MayIssue (encodeNat r) [a] 0 tk s →
      exec r s = .next (goOn tk s (setX e u a x.pos false)))

/-! ## Loads and stores -/

/-- R144, R145, R146: scalar loads and stores of `n` bytes where they complete. A load writes its value, sign- or zero-extended, with the
mark of its words; with P the address register then holds the address plus n, unless the load names it. A local store writes the scratchpad;
a global one is entered in the commit buffer at its physical address. Choices of the model that it rests on: log 6. -/
def Obligations.ScalarAccess : Prop :=
  ∀ (s : State) (x y : BitVec 6) (p z : BitVec 1) (sf : BitVec 2) (tk : Tk),
    let e := issueEnv tk s
    let u := issued tk s
    let c := getCore u s.focusCore
    let v := (e.x y).val
    let n := 2 ^ sf.toNat
    let inc := fun (t : State) => setX e t y (v + BitVec.ofNat 64 n) false
    let loaded := fun (t : State) (b : List Byte) (mark : Bool) =>
      let t1 := setX e t x (if z = 1 then BitVec.ofNat 64 (leNat b) else sext64 (8 * n) (leNat b)) mark
      Host.Outcome.next (goOn tk s (if p = 1 ∧ x ≠ y then inc t1 else t1))
    let stored := fun (t : State) => Host.Outcome.next (goOn tk s (if p = 1 then inc t else t))
    let b := natBytes n (e.x x).val.toNat
    let addr := (e.x y).psn = false ∧ v.toNat % n = 0
    (MayIssue (encodeNat (.ldL x y p z sf tk)) ([x] ++ if p = 1 then [y] else []) 0 tk s → addr → v.toNat + n ≤ plain e.rd.a →
      exec (.ldL x y p z sf tk) s = loaded u (scrBytes c v.toNat n) (scrMarked c v.toNat n)) ∧
    (MayIssue (encodeNat (.ldG x y p z sf tk)) ([x] ++ if p = 1 then [y] else []) 0 tk s → addr →
        globalFault u s.focusCore .read 1 [v] = none → pinBlocked u s.focusCore n [v] = false →
      let r := loadGlobal u s.focusCore v n
      exec (.ldG x y p z sf tk) s = loaded r.1 r.2.1 r.2.2) ∧
    (MayIssue (encodeNat (.stL x y p sf tk)) (if p = 1 then [y] else []) 0 tk s → addr → v.toNat + n ≤ plain e.rd.a →
      exec (.stL x y p sf tk) s = stored (modCore u s.focusCore fun c => scrStore c v.toNat b (e.x x).psn)) ∧
    (∀ pa tg b', MayIssue (encodeNat (.stG x y p sf tk)) (if p = 1 then [y] else []) 0 tk s → addr →
        globalFault u s.focusCore .write 2 [v] = none → (e.x x).psn = false → transTarget u s.focusCore v .write = .ok (tg, pa) →
        enterStores c.cbuf [(pa, v, b)] = some b' →
      exec (.stG x y p sf tk) s = stored (modCore u s.focusCore fun c => { c with cbuf := b' }))

/-- R147: vector loads and stores of the active lanes, 256 bytes a vector; a bound port takes the place of the vector register. Choices of
the model that it rests on: log 6. -/
def Obligations.VectorAccess : Prop :=
  ∀ (s t : State) (x y : BitVec 6) (p : BitVec 1) (m : BitVec 3) (tk : Tk) (vs : List (List Lane)) (b' : List CEntry),
    let e := issueEnv tk s
    let u := issued tk s
    let c := getCore u s.focusCore
    let v := (e.x y).val
    let on := maskBit e.rd.a m.toNat
    let act := (List.range 64).filter on
    let old := if (portOf e.rd x.toNat).isSome then List.replicate 64 Lane.zero else readV e.rd x.toNat
    let fin := fun (t : State) => Host.Outcome.next (goOn tk s (if p = 1 then setX e t y (v + 256) false else t))
    let dsts := if p = 1 then [y] else []
    let addr := (e.x y).psn = false ∧ v.toNat % 4 = 0
    let low := ∀ i ∈ act, v.toNat + 4 * i + 4 ≤ plain e.rd.a
    (MayIssue (encodeNat (.vldL x y p m tk)) dsts 0 tk s → addr → low →
        laneWrite e u x.toNat (loadLanesL c old (act.map fun i => (i, v.toNat + 4 * i))) on = some t →
      exec (.vldL x y p m tk) s = fin t) ∧
    (MayIssue (encodeNat (.vldG x y p m tk)) dsts 0 tk s → addr → globalFault u s.focusCore .read 1 (laneAddrs v act) = none →
        pinBlocked u s.focusCore 4 (laneAddrs v act) = false →
      let r := loadLanesG u s.focusCore old (act.map fun i => (i, v + BitVec.ofNat 64 (4 * i)))
      laneWrite e r.1 x.toNat r.2 on = some t → exec (.vldG x y p m tk) s = fin t) ∧
    (MayIssue (encodeNat (.vstL x y p m tk)) dsts 0 tk s → addr → low → vecSources e u [x.toNat] = some (vs, t) →
      exec (.vstL x y p m tk) s = fin (modCore t s.focusCore fun c =>
        storeLanesL c (nth [] vs 0) (act.map fun i => (i, v.toNat + 4 * i)))) ∧
    (MayIssue (encodeNat (.vstG x y p m tk)) dsts 0 tk s → addr → vecSources e u [x.toNat] = some (vs, t) →
        globalFault t s.focusCore .write 2 (laneAddrs v act) = none → (∀ i ∈ act, (nth Lane.zero (nth [] vs 0) i).psn = false) →
        enterStores (getCore t s.focusCore).cbuf (lanePieces t s.focusCore (nth [] vs 0) (act.map fun i => (i, v + BitVec.ofNat 64 (4 * i))))
          = some b' →
      exec (.vstG x y p m tk) s = fin (modCore t s.focusCore fun c => { c with cbuf := b' }))

/-- R148, R149, R134: gather and scatter of the active lanes at x(y) + index × scale, computed exactly; the indices of `scat` are in the vector
after the data. No active index carries poison, every address is a multiple of 4; a local one lies below PLAIN with its base below 2²³, a
global one translates with its right. Choices of the model that it rests on: log 6. -/
def Obligations.IndexedAccess : Prop :=
  ∀ (s : State) (x y : BitVec 6) (one : BitVec 1) (m : BitVec 3) (tk : Tk) (b' : List CEntry),
    let e := issueEnv tk s
    let u := issued tk s
    let v := (e.x y).val
    let on := maskBit e.rd.a m.toNat
    let act := (List.range 64).filter on
    let at_ := fun (idx : List Lane) => act.map fun i => (i, (v.toNat : Int) + (nth Lane.zero idx i).data.toInt * (if one = 1 then 1 else 4))
    let words := fun (idx : List Lane) => (at_ idx).map fun l => (l.1, BitVec.ofInt 64 l.2)
    let sound := fun (idx : List Lane) => (e.x y).psn = false ∧ (∀ i ∈ act, (nth Lane.zero idx i).psn = false) ∧ ∀ l ∈ at_ idx, l.2 % 4 = 0
    let low := fun (idx : List Lane) => ∀ l ∈ at_ idx, v.toNat < 2 ^ 23 ∧ 0 ≤ l.2 ∧ l.2 + 4 ≤ plain e.rd.a
    let idx := readV e.rd x.toNat
    let jdx := readV e.rd (x.toNat + 1)
    let data := readV e.rd x.toNat
    (MayIssue (encodeNat (.gath x y 1 one m tk)) [] 0 tk s → portOf e.rd x.toNat = none → sound idx → low idx →
      exec (.gath x y 1 one m tk) s = .next (goOn tk s (modCore u s.focusCore fun c => writeLanes e.rd.a c x.toNat
        (loadLanesL (getCore u s.focusCore) idx ((at_ idx).map fun l => (l.1, l.2.toNat))) on))) ∧
    (MayIssue (encodeNat (.gath x y 0 one m tk)) [] 0 tk s → portOf e.rd x.toNat = none → sound idx →
        globalFault u s.focusCore .read 1 ((words idx).map fun l => l.2) = none →
        pinBlocked u s.focusCore 4 ((words idx).map fun l => l.2) = false →
      let r := loadLanesG u s.focusCore idx (words idx)
      exec (.gath x y 0 one m tk) s = .next (goOn tk s (modCore r.1 s.focusCore fun c => writeLanes e.rd.a c x.toNat r.2 on))) ∧
    (MayIssue (encodeNat (.scat x y 1 one m tk)) [] 0 tk s → portsOf e.rd [x.toNat, x.toNat + 1] = [] → sound jdx → low jdx →
      exec (.scat x y 1 one m tk) s = .next (goOn tk s (modCore u s.focusCore fun c =>
        storeLanesL c data ((at_ jdx).map fun l => (l.1, l.2.toNat))))) ∧
    (MayIssue (encodeNat (.scat x y 0 one m tk)) [] 0 tk s → portsOf e.rd [x.toNat, x.toNat + 1] = [] → sound jdx →
        globalFault u s.focusCore .write 2 ((words jdx).map fun l => l.2) = none → (∀ i ∈ act, (nth Lane.zero data i).psn = false) →
        enterStores (getCore u s.focusCore).cbuf (lanePieces u s.focusCore data (words jdx)) = some b' →
      exec (.scat x y 0 one m tk) s = .next (goOn tk s (modCore u s.focusCore fun c => { c with cbuf := b' })))

/-- R143, R152, R154, R173: `mark`, fences, prefetch and stash control. A fence above CORE applies the invalidations of its dies and ends
the core's pins; SYS waits for the peer writes; a joint pair of marks counts once; in split mode a mark is held until its partner is at its
own, and then both go on with their tokens. A prefetch of a poisoned address, or of one that is no device memory, does nothing; one of a line
that another core pins is made again. Choices of the model that it rests on: logs 8, 37, 62. -/
def Obligations.FencesAndStash : Prop :=
  ∀ (s : State) (x y : BitVec 6) (g : BitVec 3) (tk : Tk),
    let e := issueEnv tk s
    let u := issued tk s
    let v := (e.x y).val
    let fence := fun (p : Inval → Bool) => Host.Outcome.next (goOn tkNone s (modCore s s.focusCore fun c =>
      { c with a := { c.a with pins := [] }, invq := c.invq.filter fun i => !p i, l1 := c.l1.filter fun l => !c.invq.any fun i => p i && i.line == l.line }))
    let now := (getCore u s.focusCore).a
    (MayIssue (encodeNat (.fenceCore g)) [] g tkNone s → exec (.fenceCore g) s = .next (goOn tkNone s s)) ∧
    (MayIssue (encodeNat (.fenceDie g)) [] g tkNone s → exec (.fenceDie g) s = fence fun i => i.die == dieOf s.focusCore) ∧
    (MayIssue (encodeNat (.fencePkg g)) [] g tkNone s → exec (.fencePkg g) s = fence fun _ => true) ∧
    (MayIssue (encodeNat (.fenceSys g)) [] g tkNone s → peerWritesDone (getCore s s.focusCore) = true → exec (.fenceSys g) s = fence fun _ => true) ∧
    (MayIssue (encodeNat (.fenceSys g)) [] g tkNone s → peerWritesDone (getCore s s.focusCore) = false →
      exec (.fenceSys g) s = .next (goWait s)) ∧
    (∀ r ∈ [.markL tk, .markS tk], MayIssue (encodeNat r) [] 0 tk s → e.rd.a.mode = .joint →
      exec r s = .next (goOn tk s (if now.markL = e.rd.a.markL
        then modArch u s.focusCore fun a => { a with markL := a.markL + 1, markS := a.markS + 1 } else u))) ∧
    (∀ r ∈ ([(.markL tk, .l, .s), (.markS tk, .s, .l)] : List (Instr × Cluster × Cluster)),
      MayIssue (encodeNat r.1) [] 0 tk s → e.rd.a.mode = .split → s.focusCl = r.2.1 →
      let s1 := modArch s s.focusCore fun a =>
        { a with clst := vset a.clst (cnum r.2.1) (.atMark (popPair s.focusCl tk.tkin.toNat) (pushPair s.focusCl tk.tkout.toNat)) }
      let st := vget (getCore (issued tk s1) s.focusCore).a.clst .run (cnum r.2.2)
      (∀ pop push, st = .atMark pop push → exec r.1 s = .next (goOn tk s1 (modCore (issued tk s1) s.focusCore fun c =>
        let a := { c.a with markL := c.a.markL + 1, markS := c.a.markS + 1, clst := vset c.a.clst (cnum r.2.1) .run }
        let a' := deliverTok (holdTok (popTok a pop) push) push
        advance { c with a := { a' with clst := vset a'.clst (cnum r.2.2) .run } } r.2.2 0))) ∧
      ((∀ pop push, st ≠ .atMark pop push) → exec r.1 s = .next (goWait s1))) ∧
    (MayIssue (encodeNat (.prefG y tk)) [] 0 tk s →
      ((e.x y).psn = true ∨ ((∀ pa k, transTarget u s.focusCore v .read ≠ .ok (.dev pa, k)) ∧
          ∀ t, transTarget u s.focusCore v .read = .error t → isRetry t = false) → exec (.prefG y tk) s = .next (goOn tk s u)) ∧
      (∀ t, (e.x y).psn = false → transTarget u s.focusCore v .read = .error t → isRetry t = true → exec (.prefG y tk) s = .next (goRetry s)) ∧
      (∀ pa k, (e.x y).psn = false → transTarget u s.focusCore v .read = .ok (.dev pa, k) →
        let c := getCore u s.focusCore
        let held := if inStash c.a v then (stashFind c (pa / 128)).isSome else (l1Find c (pa / 128)).isSome
        let t := touchLine u (partOf c) s.focusCore (some s.focusCore) pa v
        exec (.prefG y tk) s = .next (if pinnedByOther u s.focusCore pa then goRetry s
          else goOn tk s (if held then modCore u s.focusCore fun c => fillLine c v pa 0 else modCore t.1 s.focusCore fun c => fillLine c v pa t.2)))) ∧
    (MayIssue (encodeNat (.ssize y tk)) [] 0 tk s → (e.x y).psn = false → v.toNat ≤ 32 →
      exec (.ssize y tk) s = .next (goOn tk s (modCore u s.focusCore fun c => { c with
        stash := [], scratch := c.scratch.filter (fun w => decide (4 * w.1 < 8388608 - 262144 * max v.toNat c.a.ssz))
        badScr := c.badScr.filter (fun w => decide (4 * w < 8388608 - 262144 * max v.toNat c.a.ssz))
        a := { c.a with ssz := v.toNat } }))) ∧
    (MayIssue (encodeNat (.smap x y tk)) [] 0 tk s → (e.x y).psn = false → (e.xk y 1).psn = false → v.toNat % 128 = 0 →
        (e.xk y 1).val.toNat % 128 = 0 → (e.xk y 1).val ≠ 0 → overlaps e.rd.a x.toNat v (e.xk y 1).val = false →
        windowRetry u s.focusCore v (e.xk y 1).val = false → inOutside u s.focusCore v (e.xk y 1).val = false →
      exec (.smap x y tk) s = .next (goOn tk s (modArch (unmapWindow u s.focusCore x.toNat) s.focusCore fun a =>
        { a with windows := vset a.windows x.toNat (some (v, (e.xk y 1).val)) }))) ∧
    (MayIssue (encodeNat (.sunmap x tk)) [] 0 tk s → exec (.sunmap x tk) s = .next (goOn tk s (unmapWindow u s.focusCore x.toNat))) ∧
    (MayIssue (encodeNat (.sflush x tk)) [] 0 tk s →
      exec (.sflush x tk) s = .next (goOn tk s (onWindow u s.focusCore x.toNat fun l => some { l with dirty := false }))) ∧
    (MayIssue (encodeNat (.sinval x tk)) [] 0 tk s →
      exec (.sinval x tk) s = .next (goOn tk s (onWindow u s.focusCore x.toNat fun _ => none)))

/-! ## Vectors -/

/-- R187, R188, R189: the element-wise effect by element: an inactive element gives none, a poison source the poison element without flags,
and any other the operation's result; each flag is the OR of that flag over the elements computed, so that no active element gives none. -/
def Obligations.ElementWise : Prop :=
  ∀ (on : Nat → Bool) (p : Elem) (op : ElemOp) (i : Nat) (a b d : List Elem),
    a.length = b.length → b.length = d.length →
      (opElems on p op i a b d).1.length = a.length ∧
      (∀ k, (h : k < a.length) → (h' : k < b.length) → (h'' : k < d.length) →
        (opElems on p op i a b d).1[k]? = some (if on (i + k) = false then none
          else if a[k].2 || b[k].2 || d[k].2 then some p else some ((op a[k].1 b[k].1 d[k].1).1, false))) ∧
      (∀ f ∈ [Flg.sat, Flg.subst, Flg.nv, Flg.dz, Flg.of, Flg.uf, Flg.nx],
        f (opElems on p op i a b d).2 = true ↔ ∃ k x y z, a[k]? = some x ∧ b[k]? = some y ∧ d[k]? = some z ∧ on (i + k) = true ∧
          (x.2 || y.2 || z.2) = false ∧ f (op x.1 y.1 z.1).2 = true) ∧
      ((∀ k, on (i + k) = false) → (opElems on p op i a b d).2 = {})

/-- R193, R194, R200: the element-wise forms; `vabs` and `vneg` keep a NaN as it is. With no queued matrix operation on their registers
(R222), the sources read or popped, and the result written or pushed, the elements are the operation's, and its flags are set (R98). -/
def Obligations.VectorArithmetic : Prop :=
  ∀ (s u w : State) (d a b : BitVec 6) (m : BitVec 3) (t : BitVec 4) (vs : List (List Lane)) (es : List (Option Elem)) (fl : Flg),
    let e := issueEnv tkNone s
    let md := frmMode e.rd.a
    let on := maskBit e.rd.a m.toNat
    let free := fun (l : List (BitVec 6)) => ∀ x ∈ l, mxHolds e.rd (getCore s s.focusCore) x.toNat = false
    let wd := typeWidth t
    let two := 2 ^ wd
    let int := intElem t
    let kept := fun (f : Fmt) (x y : Nat) => match decodeF f x with | .nan _ => x | _ => y
    (∀ r ∈ ([(.vadd d a b m t, typedOp t (fun x y => x + y) fun f => fAdd f md), (.vsub d a b m t, typedOp t (fun x y => x - y) fun f => fSub f md),
        (.vmul d a b m t, typedOp t (fun x y => x * y) fun f => fMul f md), (.vmin d a b m t, typedOp t (fun x y => min x y) fun f => fMinMax f false),
        (.vmax d a b m t, typedOp t (fun x y => max x y) fun f => fMinMax f true),
        (.vdiv d a b m t, typedOp t (fun x _ => x) fun f => fDiv f md), (.vand d a b m t, fun x y _ => (Nat.land x y % two, {})),
        (.vor d a b m t, fun x y _ => (Nat.lor x y % two, {})), (.vxor d a b m t, fun x y _ => (Nat.xor x y % two, {})),
        (.vsll d a b m t, fun x y _ => (x * 2 ^ (y % wd) % two, {})), (.vsrl d a b m t, fun x y _ => (x / 2 ^ (y % wd) % two, {})),
        (.vsra d a b m t, fun x y _ => (lowBits wd (sintOf wd x / (2 ^ (y % wd) : Nat)) % two, {})),
        (.vadds d a b m t, fun x y _ => clampTo (typeSigned t) wd (int x + int y)), (.vsubs d a b m t, fun x y _ => clampTo (typeSigned t) wd (int x - int y)),
        (.vmulh d a b m t, typedOp t (fun x y => x * y / (two : Nat)) fun _ _ _ => (0, {})),
        (.vabsd d a b m t, typedOp t (fun x y => (x - y).natAbs) (fAbsDiff md)),
        (.vavg d a b m t, typedOp t (fun x y => (x + y + 1) / 2) fun _ _ _ => (0, {}))] : List (Instr × ElemOp)),
      MayIssue (encodeNat r.1) [] 0 tkNone s → free [d, a, b] → vecSources e s [a.toNat, b.toNat] = some (vs, u) →
        opElems on (poisonElem t) r.2 0 (elems t (nth [] vs 0)) (elems t (nth [] vs 1)) (noElems t) = (es, fl) →
        vecWrite e u d.toNat wd es = some w → exec r.1 s = .next (goOn tkNone s (addFlags w s.focusCore fl))) ∧
    (∀ r ∈ ([(.vfma d a b m t, fmaOp md t false false), (.vfms d a b m t, fmaOp md t false true), (.vfnma d a b m t, fmaOp md t true false)]
        : List (Instr × ElemOp)),
      MayIssue (encodeNat r.1) [] 0 tkNone s → free [d, a, b] → portOf e.rd d.toNat = none →
        vecSources e s [a.toNat, b.toNat] = some (vs, u) →
        opElems on (poisonElem t) r.2 0 (elems t (nth [] vs 0)) (elems t (nth [] vs 1)) (elems t (readV e.rd d.toNat)) = (es, fl) →
        vecWrite e u d.toNat wd es = some w → exec r.1 s = .next (goOn tkNone s (addFlags w s.focusCore fl))) ∧
    (∀ r ∈ ([(.vabs d a m t, typedOp1 t (fun x => x.natAbs) fun f x => (kept f x (x % 2 ^ (f.width - 1)), {})),
        (.vneg d a m t, typedOp1 t (fun x => -x) fun f x => (kept f x ((x + 2 ^ (f.width - 1)) % (2 * 2 ^ (f.width - 1))), {})),
        (.vsqrt d a m t, typedOp1 t id fun f => fSqrt f md), (.vrecip d a m t, typedOp1 t id fun f x => divV f md (.fin false 1 0) (decodeF f x)),
        (.vrsqrt d a m t, typedOp1 t id fun f x => rsqrtV f md (decodeF f x)), (.vnot d a m t, typedOp1 t (fun x => -x - 1) fun _ x => (x, {})),
        (.vclz d a m t, fun x => (if x = 0 then wd else wd - 1 - topBit x, {})), (.vpopc d a m t, fun x => (countOnes x wd, {})),
        (.vrint d a m t, typedOp1 t id fun f => fRint f md)] : List (Instr × (Nat → Nat × Flg))),
      MayIssue (encodeNat r.1) [] 0 tkNone s → free [d, a] → vecSources e s [a.toNat] = some (vs, u) →
        opElems on (poisonElem t) (fun x _ _ => r.2 x) 0 (elems t (nth [] vs 0)) (noElems t) (noElems t) = (es, fl) →
        vecWrite e u d.toNat wd es = some w → exec r.1 s = .next (goOn tkNone s (addFlags w s.focusCore fl)))

/-- R196 to R202: the forms that move, select, permute, slide, classify and convert elements, which set no flags but those of the
conversion. The lanes that `vclass` writes get side bits 0. -/
def Obligations.VectorMoves : Prop :=
  ∀ (s u w : State) (d a b : BitVec 6) (m : BitVec 3) (t ts : BitVec 4) (rot up sat : BitVec 1) (vs : List (List Lane))
      (es : List (Option Elem)) (fl : Flg),
    let e := issueEnv tkNone s
    let on := maskBit e.rd.a m.toNat
    let free := fun (l : List Nat) => ∀ x ∈ l, mxHolds e.rd (getCore s s.focusCore) x = false
    let n := elemCount t
    let v := fun i => rawElems t (nth [] vs i)
    (∀ r ∈ ([(.vsel d a b m t, selElems on 0 (v 0) (v 1)), (.vperm d a b m t, permElems on (poisonElem t) (v 0) 0 (elems t (nth [] vs 1))),
        (.vzipLo d a b t, interleave ((v 0).take (n / 2)) ((v 1).take (n / 2))), (.vzipHi d a b t, interleave ((v 0).drop (n / 2)) ((v 1).drop (n / 2))),
        (.vuzpEv d a b t, (evens (v 0) ++ evens (v 1)).map some), (.vuzpOd d a b t, (evens ((v 0).drop 1) ++ evens ((v 1).drop 1)).map some)]
        : List (Instr × List (Option Elem))),
      MayIssue (encodeNat r.1) [] 0 tkNone s → free [d.toNat, a.toNat, b.toNat] → vecSources e s [a.toNat, b.toNat] = some (vs, u) →
        r.2 = es → vecWrite e u d.toNat (typeWidth t) es = some w → exec r.1 s = .next (goOn tkNone s (addFlags w s.focusCore {}))) ∧
    (MayIssue (encodeNat (.vclass d a m t)) [] 0 tkNone s → free [d.toNat, a.toNat] → vecSources e s [a.toNat] = some (vs, u) →
        classElems on (fmtOr t) 0 (elems t (nth [] vs 0)) = es →
        vecWrite e (if (portOf e.rd d.toNat).isSome then u
          else modCore u s.focusCore fun c => writeV e.rd.a c d.toNat (clearSides (typeWidth t) (readVAs e.rd.a c d.toNat) es))
          d.toNat (typeWidth t) es = some w →
      exec (.vclass d a m t) s = .next (goOn tkNone s (addFlags w s.focusCore {}))) ∧
    (MayIssue (encodeNat (.vmov d a m t)) [] 0 tkNone s → free [d.toNat, a.toNat] → vecSources e s [a.toNat] = some (vs, u) →
        copyElems on 0 (v 0) = es → vecWrite e u d.toNat (typeWidth t) es = some w →
      exec (.vmov d a m t) s = .next (goOn tkNone s (addFlags w s.focusCore {}))) ∧
    (MayIssue (encodeNat (.vslide d a b rot up t)) [] 0 tkNone s → free [d.toNat, a.toNat] → (e.x b).psn = false →
        vecSources e s [a.toNat] = some (vs, u) →
        let k := (e.x b).val.toNat
        ((List.range n).map fun (i : Nat) =>
          let j : Int := if up = 1 then (i : Int) - k else (i : Int) + k
          some (if rot = 1 then nth (0, false) (v 0) (j % (n : Int)).toNat else if 0 ≤ j ∧ j < n then nth (0, false) (v 0) j.toNat else (0, false))) = es →
        vecWrite e u d.toNat (typeWidth t) es = some w →
          exec (.vslide d a b rot up t) s = .next (goOn tkNone s (addFlags w s.focusCore {}))) ∧
    (let g := cvtGroup ts t
     let srcs := (List.range (if typeWidth t < typeWidth ts then g else 1)).map fun i => a.toNat + i
     let k := if typeWidth ts < typeWidth t then g else 1
     let dsts := (List.range k).map fun i => d.toNat + i
     MayIssue (encodeNat (.vcvt d a sat t m ts)) [] 0 tkNone s →
       portsOf e.rd (if g = 1 then [] else if typeWidth t < typeWidth ts then srcs else dsts) = [] → free (dsts ++ srcs) →
       vecSources e s srcs = some (vs, u) →
       convertElems ts t (modeOf e.rd.a m) (sat == 1) (vs.flatMap (elems ts)) = (es, fl) → vecWrites e d.toNat (typeWidth t) n k u es = some w →
         exec (.vcvt d a sat t m ts) s = .next (goOn tkNone s (addFlags w s.focusCore (fl.or { subst := ts == 13 || ts == 14 }))))

/-- R195, R206: compares into masks, and the mask forms. A write to m0 is discarded (R61), m0 reads as all ones. -/
def Obligations.MaskResults : Prop :=
  ∀ (s u w : State) (d a b : BitVec 6) (m : BitVec 3) (t : BitVec 4) (vs : List (List Lane)) (es : List (Option Elem)) (k : Nat) (fl : Flg),
    let e := issueEnv tkNone s
    let on := maskBit e.rd.a m.toNat
    let put := fun (u : State) (v : BitVec 256) =>
      if d = 0 then u else modArch u s.focusCore fun ar => { ar with masks := vset ar.masks d.toNat v }
    let mv := fun (x : BitVec 6) => if x = 0 then BitVec.allOnes 256 else vget e.rd.a.masks 0 x.toNat
    (∀ r ∈ ([(.vcmpeq d a b m t, 0), (.vcmplt d a b m t, 1), (.vcmple d a b m t, 2), (.vcmpne d a b m t, 3)] : List (Instr × Nat)),
      MayIssue (encodeNat r.1) [] 0 tkNone s → mxHolds e.rd (getCore s s.focusCore) a.toNat = false → mxHolds e.rd (getCore s s.focusCore) b.toNat = false →
        vecSources e s [a.toNat, b.toNat] = some (vs, u) → activePsn on 0 (elems t (nth [] vs 0)) (elems t (nth [] vs 1)) = none →
        cmpElems on t r.2 0 (elems t (nth [] vs 0)) (elems t (nth [] vs 1)) = (k, fl) →
          exec r.1 s = .next (goOn tkNone s (addFlags (put u (BitVec.ofNat 256 k)) s.focusCore fl))) ∧
    (∀ r ∈ ([(.mand d a b, fun x y => x &&& y), (.mor d a b, fun x y => x ||| y), (.mxor d a b, fun x y => x ^^^ y),
        (.mandn d a b, fun x y => x &&& ~~~y)] : List (Instr × (BitVec 256 → BitVec 256 → BitVec 256))),
      MayIssue (encodeNat r.1) [] 0 tkNone s → exec r.1 s = .next (goOn tkNone s (put s (r.2 (mv a) (mv b))))) ∧
    (MayIssue (encodeNat (.mlen d a)) [] 0 tkNone s → (e.x a).psn = false →
      exec (.mlen d a) s = .next (goOn tkNone s (put s (BitVec.ofNat 256 (2 ^ min (e.x a).val.toNat 256 - 1))))) ∧
    (MayIssue (encodeNat (.mpopc d a)) [d] 0 tkNone s →
      exec (.mpopc d a) s = .next (goOn tkNone s (setX e s d (BitVec.ofNat 64 (countOnes (mv a).toNat 256)) false))) ∧
    (MayIssue (encodeNat (.mfirst d a)) [d] 0 tkNone s →
      exec (.mfirst d a) s = .next (goOn tkNone s (setX e s d (BitVec.ofNat 64 (lowestSet (mv a) 0 256)) false))) ∧
    (MayIssue (encodeNat (.mtov d a)) [] 0 tkNone s → mxHolds e.rd (getCore s s.focusCore) d.toNat = false →
        ((List.range 64).map fun j => some (if j < 8 then (mv a).toNat / 2 ^ (32 * j) % 2 ^ 32 else 0, false)) = es →
        vecWrite e s d.toNat 32 es = some w →
      exec (.mtov d a) s = .next (goOn tkNone s w))

/-- R203 to R205, R207, R208, R64, R63: reductions, scans, scalars into and out of vectors, and the views: VVIEW's base in bits 18:8 and its
rotation in bits 29:24, AVIEW's base in bits 18:12, every other field unwritten. -/
def Obligations.ReductionsAndScalars : Prop :=
  ∀ (s u w : State) (d a b : BitVec 6) (m : BitVec 3) (t : BitVec 4) (tk : Tk) (vs : List (List Lane)) (es : List (Option Elem)) (fl : Flg),
    let e := issueEnv tkNone s
    let on := maskBit e.rd.a m.toNat
    let free := fun (l : List (BitVec 6)) => ∀ x ∈ l, mxHolds e.rd (getCore s s.focusCore) x.toNat = false
    let x := elems t (nth [] vs 0)
    let op := redOp t (frmMode e.rd.a)
    let n := elemCount t
    let first := fun (k : Nat) (y : Elem) => some y :: List.replicate (k - 1) (some ((0, false) : Elem))
    (∀ r ∈ ([(.vredSum d a m t, 0), (.vredMin d a m t, 1), (.vredMax d a m t, 2), (.vredAnd d a m t, 3), (.vredOr d a m t, 4),
        (.vredXor d a m t, 5)] : List (Instr × Nat)),
      MayIssue (encodeNat r.1) [] 0 tkNone s → free [d, a] → vecSources e s [a.toNat] = some (vs, u) →
        let tree := treeRun (op r.2) (topBit n) (activeData on 0 x) {}
        (if (activePsn on 0 x x).isSome then (first n (poisonElem t), {})
          else (first n ((match tree.1 with | some y :: _ => y | _ => redIdentity t r.2), false), tree.2)) = (es, fl) →
        vecWrite e u d.toNat (typeWidth t) es = some w → exec r.1 s = .next (goOn tkNone s (addFlags w s.focusCore fl))) ∧
    (MayIssue (encodeNat (.vredSumw d a m t)) [] 0 tkNone s → free [d, a] → vecSources e s [a.toNat] = some (vs, u) →
        first 32 (if (activePsn on 0 x x).isSome then (0, true) else (((sumElems t (activeData on 0 x)) % (2 ^ 64 : Nat)).toNat, false)) = es →
        vecWrite e u d.toNat 64 es = some w →
      exec (.vredSumw d a m t) s = .next (goOn tkNone s w)) ∧
    (∀ r ∈ ([(.vscanSum d a m t, 0), (.vscanMin d a m t, 1), (.vscanMax d a m t, 2)] : List (Instr × Nat)),
      MayIssue (encodeNat r.1) [] 0 tkNone s → free [d, a] → vecSources e s [a.toNat] = some (vs, u) →
        scanElems on (poisonElem t) (op r.2) 0 none false x = (es, fl) → vecWrite e u d.toNat (typeWidth t) es = some w →
          exec r.1 s = .next (goOn tkNone s (addFlags w s.focusCore fl))) ∧
    (MayIssue (encodeNat (.vsplat d a m t)) [] 0 tkNone s → free [d] →
        copyElems on 0 (List.replicate n ((e.x a).val.toNat % 2 ^ typeWidth t, (e.x a).psn)) = es → vecWrite e s d.toNat (typeWidth t) es = some w →
      exec (.vsplat d a m t) s = .next (goOn tkNone s (addFlags w s.focusCore {}))) ∧
    (MayIssue (encodeNat (.vext d a b t)) [d] 0 tkNone s → free [a] → (e.x b).psn = false → vecSources e s [a.toNat] = some (vs, u) →
      let y := nth (0, false) (rawElems t (nth [] vs 0)) ((e.x b).val.toNat % n)
      exec (.vext d a b t) s = .next (goOn tkNone s
        (setX e u d (if typeSigned t then sext64 (typeWidth t) y.1 else BitVec.ofNat 64 y.1) y.2))) ∧
    (MayIssue (encodeNat (.vins d a b t)) [] 0 tkNone s → free [d] → (e.x b).psn = false → portOf e.rd d.toNat = none →
        ((List.range n).map fun (i : Nat) =>
          if i = (e.x b).val.toNat % n then some ((e.x a).val.toNat % 2 ^ typeWidth t, (e.x a).psn) else none) = es →
        vecWrite e s d.toNat (typeWidth t) es = some w →
      exec (.vins d a b t) s = .next (goOn tkNone s (addFlags w s.focusCore {}))) ∧
    (MayIssue (encodeNat (.vview a tk)) [] 0 tk s → ((issueEnv tk s).x a).psn = false →
      exec (.vview a tk) s = .next (goOn tk s (modArch (issued tk s) s.focusCore fun ar =>
        { ar with vbase := ((issueEnv tk s).x a).val.extractLsb' 8 11, vrot := ((issueEnv tk s).x a).val.extractLsb' 24 6 }))) ∧
    (MayIssue (encodeNat (.aview a tk)) [] 0 tk s → ((issueEnv tk s).x a).psn = false →
      exec (.aview a tk) s = .next (goOn tk s (modArch (issued tk s) s.focusCore fun ar =>
        { ar with abase := ((issueEnv tk s).x a).val.extractLsb' 12 7 })))

/-! ## Tiles, the matrix queue, walks and checks -/

/-- R214, R215, R218: the tile words on a handle below 512. A tile's definition and its invalidation change it unless it fills, drains, or
is named by an operation that waits or runs, where they wait. -/
def Obligations.TileResults : Prop :=
  ∀ (s : State) (x y : BitVec 6) (tk : Tk),
    let e := issueEnv tk s
    let u := issued tk s
    let c := getCore u s.focusCore
    let o := (e.x x).val
    let v := (e.x y).val
    let d := BitVec.ofNat 256 (leNat (scrBytes c o.toNat 32))
    let t := Sparse.get Tile.zero e.rd.a.tiles v.toNat
    let put := fun (z : Tile) => Host.Outcome.next (goOn tk s (modArch u s.focusCore fun a =>
      { a with tiles := Sparse.put Tile.zero a.tiles v.toNat z }))
    let set := fun (st : TileSt) => Host.Outcome.next (goOn tk s (modArch u s.focusCore fun a =>
      { a with tiles := Sparse.put Tile.zero a.tiles v.toNat { Sparse.get Tile.zero a.tiles v.toNat with st := st } }))
    let named := (e.x y).psn = false ∧ v.toNat < 512
    let freed := (t.st = .empty ∨ t.st = .ready) ∧ handleBusy c v.toNat = false
    let waits := t.st = .filling ∨ (t.st = .draining ∧ ownCopy e.rd v.toNat = false) ∨
      ((t.st = .empty ∨ t.st = .ready) ∧ handleBusy c v.toNat = true)
    (MayIssue (encodeNat (.tdef x y tk)) [] 0 tk s → named → (e.x x).psn = false → o.toNat % 32 = 0 → o.toNat + 32 ≤ plain e.rd.a →
        firstMarked c (o.toNat / 4) 8 = none → tMalformed e.rd.a d = false → (tQuant d = true → fenBit u (partOf e.rd) 1 = true) →
      (freed → exec (.tdef x y tk) s = put { desc := d, v := true, st := .empty }) ∧ (waits → exec (.tdef x y tk) s = .next (goWait s))) ∧
    (MayIssue (encodeNat (.tvalid y tk)) [] 0 tk s → named → t.v = true →
      (t.st = .empty → exec (.tvalid y tk) s = set .ready) ∧ (t.st = .ready → exec (.tvalid y tk) s = .next (goOn tk s u))) ∧
    (MayIssue (encodeNat (.tinval y tk)) [] 0 tk s → named → t.v = true →
      (freed → exec (.tinval y tk) s = set .empty) ∧ (waits → exec (.tinval y tk) s = .next (goWait s))) ∧
    (MayIssue (encodeNat (.tstat x y tk)) [x] 0 tk s → named →
      exec (.tstat x y tk) s = .next (goOn tk s (setX e u x (BitVec.ofNat 64
        ((match t.st with | .empty => 0 | .filling => 1 | .ready => 2 | .draining => 3) + (if t.v then 4 else 0) +
          (if tFetch t.desc then 8 else 0) + 16 * tType t.desc + 512 * (tRows t.desc - 1) + 2097152 * (tCols t.desc - 1))) false))) ∧
    (MayIssue (encodeNat (.twait y tk)) [] 0 tk s → named → t.v = true →
      (t.st = .ready → exec (.twait y tk) s = .next (goOn tk s u)) ∧
      (t.st = .empty ∨ t.st = .filling → exec (.twait y tk) s = .next (goWait s)))

/-- R219 to R222, R226, R228: the words of the matrix queue. An operation is entered while the queue has room for its four, with the
accumulator base, the rounding mode in force and the push of its word; `mxgo` sets GO in the oldest armed nest; `mxwait` waits for the queue
to be empty. Choices of the model that it rests on: log 31. -/
def Obligations.MatrixResults : Prop :=
  ∀ (s : State) (x y : BitVec 6) (m n : BitVec 3) (tk : Tk),
    let e := issueEnv tk s
    let u := issued tk s
    let c := getCore u s.focusCore
    let o := (e.x y).val
    let room := c.mxq.length < 4
    let enter := fun (k : MxKind) (r : BitVec 3) => Host.Outcome.next (goLater s (modCore u s.focusCore fun c => { c with mxq := c.mxq ++
      [{ kind := k, abase := e.rd.a.abase, mode := r, push := pushPair s.focusCl tk.tkout.toNat, step := 0, row := 0, group := none,
         begun := false, drains := false, flags := 0, cols := [], rows := [] }] }))
    let mode := fun (r : BitVec 3) => if r = 7 then e.rd.a.frm else r
    let table := (List.range 16).map fun q => BitVec.ofNat 64 (leNat (scrBytes c (o.toNat + 8 * q) 8))
    (MayIssue (encodeNat (.mxnest y tk)) [] 0 tk s → room → (e.x y).psn = false → o.toNat % 16 = 0 → o.toNat + 128 ≤ plain e.rd.a →
        firstMarked c (o.toNat / 4) 32 = none → nestBad table = false →
      exec (.mxnest y tk) s = enter (.nest table o.toNat) (mode (BitVec.ofNat 3 ((nth 0 table 0).toNat / 2 ^ 38 % 8)))) ∧
    (MayIssue (encodeNat (.mxgo tk)) [] 0 tk s →
      exec (.mxgo tk) s = .next (goOn tk s (modCore u s.focusCore fun c => { c with mxq := setGo c.mxq }))) ∧
    (MayIssue (encodeNat (.mxwait tk)) [] 0 tk s →
      (c.mxq = [] → exec (.mxwait tk) s = .next (goOn tk s u)) ∧ (c.mxq ≠ [] → exec (.mxwait tk) s = .next (goWait s))) ∧
    (MayIssue (encodeNat (.mxstat x tk)) [x] 0 tk s →
      exec (.mxstat x tk) s = .next (goOn tk s (setX e u x (BitVec.ofNat 64
        (c.mxq.length + (if c.mxq.head?.any isArmed then 8 else 0) + (if bitOf c.mxrow 63 then 16 else 0))) false))) ∧
    (MayIssue (encodeNat (.mxdrain x y m tk)) [] 0 tk s → room → (e.x y).psn = false → o.toNat < 512 →
      exec (.mxdrain x y m tk) s = enter (.drain x.toNat o.toNat (mode m)) (mode m)) ∧
    (MayIssue (encodeNat (.mxzero x tk)) [] 0 tk s → room → exec (.mxzero x tk) s = enter (.zero x.toNat) 0) ∧
    (MayIssue (encodeNat (.mxmma x y n tk)) [] 0 tk s → room → (e.x x).psn = false → (e.x y).psn = false → (e.x x).val.toNat < 512 →
        o.toNat < 512 → exec (.mxmma x y n tk) s = enter (.mma n.toNat (e.x x).val.toNat o.toNat) 0) ∧
    (∀ r ∈ [.mxdrain x y m tk, .mxzero x tk, .mxmma x y n tk, .mxnest y tk],
      MayIssue (encodeNat r) [] 0 tk s → 4 ≤ c.mxq.length → exec r s = .next (goWait s))

/-- R232, R233, R71, R275, R276: a walk is taken by the idle walker, `hist` with 1,024 bytes of results and the others with 8; a walk that
runs makes the next one wait. A check is queued behind the earlier ones, and the program counter steps over its literal. -/
def Obligations.WalkAndVigilIssue : Prop :=
  ∀ (s : State) (x y : BitVec 6) (tk : Tk) (lit : BitVec 32),
    let e := issueEnv tk s
    let u := issued tk s
    let c := getCore u s.focusCore
    let v := (e.x x).val
    let o := (e.xk x 1).val
    let pout := pushPair s.focusCl tk.tkout.toNat
    let tile := fun (h : Nat) => Sparse.get Tile.zero e.rd.a.tiles h
    let usable := fun (r : BitVec 6) => (e.x r).psn = false ∧ (e.x r).val.toNat < 512 ∧ (tile (e.x r).val.toNat).v = true ∧
      tOver e.rd.a (tile (e.x r).val.toNat).desc = false ∧ tileReadable (tile (e.x r).val.toNat) = true
    let queue := fun (k ha hb : Nat) => Host.Outcome.next (goPastLiteral s (modCore u s.focusCore fun c =>
      { c with vigils := c.vigils ++ [{ kind := k, ha := ha, hb := hb, crc := lit, push := pout }] }))
    (∀ r ∈ ([(.walkAdd x tk, 0), (.walkMin x tk, 1), (.walkMax x tk, 2), (.walkAnd x tk, 3), (.walkOr x tk, 4), (.walkXor x tk, 5),
        (.walkPopc x tk, 6), (.walkHist x tk, 7)] : List (Instr × Nat)),
      MayIssue (encodeNat r.1) [] 0 tk s →
        (c.walk = none → (e.x x).psn = false → (e.xk x 1).psn = false → o.toNat % (if r.2 = 7 then 4 else 8) = 0 →
            o.toNat + (if r.2 = 7 then 1024 else 8) ≤ plain e.rd.a → walkBad v = false →
          exec r.1 s = .next (goLater s (modCore u s.focusCore fun c =>
            { c with walk := some { op := r.2, ctrl := v, off := o.toNat, push := pout, stopped := false, counts := none } }))) ∧
        (c.walk ≠ none → exec r.1 s = .next (goWait s))) ∧
    (MayIssue (encodeNat (.vigilMx x y tk lit)) [] 0 tk s → literalOutside e = false → usable x → usable y →
        vigilShape e.rd.a 0 v.toNat (e.x y).val.toNat = none →
      exec (.vigilMx x y tk lit) s = queue 0 v.toNat (e.x y).val.toNat) ∧
    (MayIssue (encodeNat (.vigilVec x tk lit)) [] 0 tk s → literalOutside e = false → usable x → vigilShape e.rd.a 1 v.toNat 0 = none →
      exec (.vigilVec x tk lit) s = queue 1 v.toNat 0) ∧
    (MayIssue (encodeNat (.vigilRd x tk lit)) [] 0 tk s → literalOutside e = false → usable x →
      exec (.vigilRd x tk lit) s = queue 2 v.toNat 0)

/-! ## The Almanac and the Shepherd -/

/-- R279 to R292: the Almanac words where they complete. A form that is not queued waits for the queue to be empty; a queued form enters the
queue of four. Choices of the model that it rests on: logs 22, 23. -/
def Obligations.AlmanacResults : Prop :=
  ∀ (s : State) (x y : BitVec 6) (tk : Tk) (f n : Nat),
    let e := issueEnv tk s
    let u := issued tk s
    let c := getCore u s.focusCore
    let v := (e.x x).val
    let o := (e.x y).val
    let words := fun (k : Nat) => (List.range k).map fun q => BitVec.ofNat 64 (leNat (scrBytes c (o.toNat + 8 * q) 8))
    let table := fun (k : Nat) => (e.x y).psn = false ∧ o.toNat % 8 = 0 ∧ o.toNat + 8 * k ≤ plain e.rd.a ∧ firstMarked c (o.toNat / 4) (2 * k) = none
    let slot := fun (k : Nat) => Sparse.get AlmSlot.zero e.rd.a.alm k
    let put := fun (k : Nat) (z : AlmSlot) => Host.Outcome.next (goOn tk s (modArch u s.focusCore fun a =>
      { a with alm := Sparse.put AlmSlot.zero a.alm k z }))
    let enter := fun (kind off : Nat) => Host.Outcome.next (goLater s (modCore u s.focusCore fun c => { c with almq := c.almq ++
      [{ kind := kind, first := f, count := n, off := off, at_ := 0, push := pushPair s.focusCl tk.tkout.toNat, stopped := false }] }))
    let idle := c.almq = []
    let range := fun (w : Word) => w.toNat < 2 ^ 17 ∧ f = w.toNat % 256 ∧ n = w.toNat / 256 ∧ 0 < n ∧ f + n ≤ 256
    (MayIssue (encodeNat (.amdef x y tk)) [] 0 tk s → idle → table 78 → methodBad (words 78) = false → methodBusy e.rd.a x.toNat = false →
      exec (.amdef x y tk) s = .next (goOn tk s (modArch u s.focusCore fun a => { a with methods := vset a.methods x.toNat (some (words 78)) }))) ∧
    (∀ m, MayIssue (encodeNat (.aset x y tk)) [] 0 tk s → idle → (e.x x).psn = false → table 16 → v.toNat < 256 → almDescBad (words 16) = false →
        vget e.rd.a.methods none (almLoad (words 16)).meth = some m → almHandlesBad m (almLoad (words 16)) = false →
      exec (.aset x y tk) s = put v.toNat (clipRule (almLoad (words 16)))) ∧
    (MayIssue (encodeNat (.astage x y tk)) [] 0 tk s → c.almq.length < 4 → (e.x x).psn = false → (e.x y).psn = false → o.toNat % 8 = 0 → range v →
        o.toNat + 8 * n ≤ plain e.rd.a → exec (.astage x y tk) s = enter 0 o.toNat) ∧
    (∀ r ∈ ([(.aerr x tk, 1), (.adec x tk, 2)] : List (Instr × Nat)),
      MayIssue (encodeNat r.1) [] 0 tk s → c.almq.length < 4 → (e.x x).psn = false → range v → exec r.1 s = enter r.2 0) ∧
    (MayIssue (encodeNat (.aget x y tk)) [x] 0 tk s → idle → (e.x y).psn = false → o.toNat < 2 ^ 13 → (slot (o.toNat % 256)).st ≠ .off →
        o.toNat / 256 ≤ 20 →
      exec (.aget x y tk) s = .next (goOn tk s (setX e u x (almField (slot (o.toNat % 256)) (o.toNat / 256)) false))) ∧
    (let z := slot (v.toNat % 256)
     let z' := match v.toNat / 256 with | 1 => { z with h := o } | 2 => { z with hmin := o } | _ => { z with tend := o }
     MayIssue (encodeNat (.aput x y tk)) [] 0 tk s → idle → (e.x x).psn = false → (e.x y).psn = false → v.toNat / 256 ∈ [1, 2, 3] →
        almLive z = true → z.sidx = 0 → z.errv = false → almLimits z'.t z'.h z'.hmin z'.tend = true →
      exec (.aput x y tk) s = put (v.toNat % 256) (clipRule z')) ∧
    (MayIssue (encodeNat (.astat x y tk)) [x] 0 tk s → idle → (e.x y).psn = false → range o →
      exec (.astat x y tk) s = .next (goOn tk s (setX e u x (almCounts ((List.range n).map fun k => slot (f + k))) false))) ∧
    (MayIssue (encodeNat (.aoff x tk)) [] 0 tk s → idle → (e.x x).psn = false → range v →
      exec (.aoff x tk) s = .next (goOn tk s (modArch u s.focusCore fun a =>
        ((List.range n).map (f + ·)).foldl (fun a k => { a with alm := Sparse.put AlmSlot.zero a.alm k AlmSlot.zero }) a))) ∧
    (MayIssue (encodeNat (.await tk)) [] 0 tk s →
      (idle → exec (.await tk) s = .next (goOn tk s u)) ∧ (¬ idle → exec (.await tk) s = .next (goWait s)))

/-- R297 to R308: the Shepherd words where they complete. Choices of the model that it rests on: log 24. -/
def Obligations.ShepherdResults : Prop :=
  ∀ (s : State) (x y : BitVec 6) (tk : Tk),
    let e := issueEnv tk s
    let u := issued tk s
    let c := getCore u s.focusCore
    let o := (e.x y).val
    let slot := fun (r : BitVec 6) => vget e.rd.a.shep ShSlot.zero r.toNat
    let put := fun (f : Arch → ShSlot) => Host.Outcome.next (goOn tk s (modArch u s.focusCore fun a => { a with shep := vset a.shep x.toNat (f a) }))
    let d := BitVec.ofNat 256 (leNat (scrBytes c o.toNat 32))
    let off := (e.x x).val
    let words := o.toNat / 2 ^ 16
    let first := o.toNat % 2 ^ 14
    let span := o.toNat < 2 ^ 31 ∧ o.toNat / 2 ^ 14 % 4 = 0 ∧ 0 < words ∧ first + words ≤ 16384 ∧ (e.x x).psn = false ∧ (e.x y).psn = false ∧
      off.toNat % 4 = 0 ∧ off.toNat + 4 * words ≤ plain e.rd.a ∧ trainingRuns c = false
    (MayIssue (encodeNat (.shdecl x y tk)) [] 0 tk s → (e.x y).psn = false → o.toNat % 8 = 0 → o.toNat + 32 ≤ plain e.rd.a →
        firstMarked c (o.toNat / 4) 8 = none → shDeclBad e.rd.a d = false →
      ((slot x).st = .off ∨ (slot x).st = .invalid → shSpanBad e.rd.a x.toNat d = false → exec (.shdecl x y tk) s = put fun a =>
        { decl := d, st := .observe, ocnt := 0, scnt := 0, emean := 0, retr := 0, tstep := 0, seg := a.segCur, opened := false }) ∧
      ((slot x).st ≠ .off → (slot x).st ≠ .invalid → exec (.shdecl x y tk) s = put fun _ =>
        { slot x with decl := d, st := if shShape d = shShape (slot x).decl then (slot x).st else .invalid })) ∧
    (MayIssue (encodeNat (.shinv x tk)) [] 0 tk s →
      exec (.shinv x tk) s = .next (goOn tk s (modArch u s.focusCore fun a =>
        let z := vget a.shep ShSlot.zero x.toNat
        if z.st = .off then a else { a with shep := vset a.shep x.toNat { z with st := .invalid } }))) ∧
    (MayIssue (encodeNat (.shwld x y tk)) [] 0 tk s → span → firstMarked c (off.toNat / 4) words = none →
        (∀ k < 16, let z := vget e.rd.a.shep ShSlot.zero k
          z.st = .off ∨ z.st = .observe ∨ z.st = .invalid ∨ spansMeet first words (shWoff z.decl) (shWords z.decl) = false) →
      exec (.shwld x y tk) s = .next (goOn tk s (modCore u s.focusCore fun k =>
        putStore k first ((scrWords c off.toNat words).map (BitVec.ofNat 32))))) ∧
    (MayIssue (encodeNat (.shwst x y tk)) [] 0 tk s → span →
      exec (.shwst x y tk) s = .next (goOn tk s (modCore u s.focusCore fun c => (List.range words).foldl (fun c i =>
        putScr c (off.toNat / 4 + i) { data := BitVec.ofNat 32 (storeWord c (first + i)), psn := false }) c))) ∧
    (MayIssue (encodeNat (.shstat x y tk)) [x] 0 tk s →
      exec (.shstat x y tk) s = .next (goOn tk s (setX e u x (shWord c y.toNat) false))) ∧
    (MayIssue (encodeNat (.shmean x y tk)) [x] 0 tk s →
      exec (.shmean x y tk) s = .next (goOn tk s (setX e u x ((slot y).emean.setWidth 64) false)))

/-- R307: `apxb` opens a slot, and by its state captures the region's inputs, samples, or writes the surrogate's outputs and goes to its
`apxe`; `apxe` closes the slot, and records a pair or compares a sample. Choices of the model that it rests on: log 24. -/
def Obligations.ApproximationResults : Prop :=
  ∀ (s t : State) (x : BitVec 6) (tk : Tk) (vs : List (List Lane)) (xs : List Nat) (target : Word) (p : ShCap),
    let e := issueEnv tk s
    let u := issued tk s
    let k := x.toNat
    let z := vget e.rd.a.shep ShSlot.zero k
    let d := z.decl
    let replace := z.st == .active && z.scnt + 1 != shSamp d
    let open_ := fun (t : State) => modCore t s.focusCore fun c =>
      { c with shcap := none, a := putSh c.a k { vget c.a.shep ShSlot.zero k with opened := true } }
    let capture := fun (smp : Bool) (ys : List Word32) => modCore (open_ t) s.focusCore fun c =>
      { c with shcap := some { slot := k, cap := xs.map (BitVec.ofNat 32), smp := smp, ys := ys } }
    let y := (shForward (getCore t s.focusCore) d xs).map (BitVec.ofNat 32)
    let begins := MayIssue (encodeNat (.apxb x tk)) [] 0 tk s ∧ ∀ j < 16, (vget e.rd.a.shep ShSlot.zero j).opened = false
    let closed := modArch u s.focusCore fun a => putSh a k { z with opened := false }
    let valid := begins ∧ z.st ≠ .off ∧ e.rd.a.segCur = z.seg ∧
      (replace = true → findApxe u s.focusCore e.addr k = some target ∧ mxHolds e.rd (getCore u s.focusCore) (shVo d) = false) ∧
      mxHolds e.rd (getCore u s.focusCore) (shVi d) = false ∧ vecSources e u [shVi d] = some (vs, t)
    (begins → z.st = .off → exec (.apxb x tk) s = .next (goOn tk s (open_ u))) ∧
    (begins → (replace = true → findApxe u s.focusCore e.addr k = some target) → z.st ≠ .off → e.rd.a.segCur ≠ z.seg → exec (.apxb x tk) s = .next (goOn tk s
      (modArch (open_ u) s.focusCore fun a => putSh a k { vget a.shep ShSlot.zero k with st := .invalid }))) ∧
    (valid → laneValues (nth [] vs 0) (shNi d) = none ∨ z.st = .train ∨ z.st = .candidate ∨ z.st = .invalid →
      exec (.apxb x tk) s = .next (goOn tk s (open_ t))) ∧
    (valid → laneValues (nth [] vs 0) (shNi d) = some xs → z.st = .observe ∨ z.st = .fallback →
      exec (.apxb x tk) s = .next (goOn tk s (capture false []))) ∧
    (valid → laneValues (nth [] vs 0) (shNi d) = some xs → z.st = .active → replace = false →
      exec (.apxb x tk) s = .next (goOn tk s (modArch (capture true y) s.focusCore fun a =>
        putSh a k { vget a.shep ShSlot.zero k with scnt := 0 }))) ∧
    (valid → laneValues (nth [] vs 0) (shNi d) = some xs → replace = true →
      exec (.apxb x tk) s = .next (goOn tk s (modCore (open_ t) s.focusCore fun c =>
        let c1 := writeV e.rd.a c (shVo d) (y.map (fun b => ({ data := b, psn := false } : Lane)) ++ (readVAs e.rd.a c (shVo d)).drop (shNo d))
        setPc { c1 with a := putSh c1.a k { vget c1.a.shep ShSlot.zero k with scnt := (z.scnt + 1) % 2 ^ 16, opened := false } } (cnum s.focusCl) target))) ∧
    (MayIssue (encodeNat (.apxe x tk)) [] 0 tk s → z.opened = true → (getCore u s.focusCore).shcap = none →
      exec (.apxe x tk) s = .next (goOn tk s closed)) ∧
    (MayIssue (encodeNat (.apxe x tk)) [] 0 tk s → z.opened = true → (getCore u s.focusCore).shcap = some p →
        mxHolds e.rd (getCore closed s.focusCore) (shVo d) = false → vecSources e closed [shVo d] = some (vs, t) →
      exec (.apxe x tk) s = .next (goOn tk s (match laneValues (nth [] vs 0) (shNo d) with
        | none => t
        | some l => modCore t s.focusCore fun c => if p.smp then shSample c k p.ys l else shRecord c k p.cap l)))

/-! ## Copies and atomics -/

/-- R236, R237, R238: copies where they are issued. An inbound one joins the transfer engine's queue of at most 16; an outbound one is
recorded at its place in the commit buffer, of at most 32, and moves nothing yet. A tile copy in makes its tile FILLING and notes the tag of
its global address, one out makes it DRAINING. No token is pushed at issue: the copy carries its push. Choices of the model that it rests
on: log 20. -/
def Obligations.CopyResults : Prop :=
  ∀ (s : State) (x y : BitVec 6) (tk : Tk),
    let e := issueEnv tk s
    let u := issued tk s
    let c := getCore u s.focusCore
    let off := (e.x x).val
    let g := (e.xk x 1).val
    let v := (e.xk x 2).val
    let p := (e.xk x 3).val
    let clean := fun (n : Nat) => (∀ k < n, (e.xk x k).psn = false) ∧
      (y ≠ 0 → (e.x y).psn = false ∧ refMalformed (e.x y).val = false ∧ bitOf (e.x y).val 27 = false ∧ bitOf (e.x y).val 23 = false)
    let h : Option Nat := if y = 0 then none else some ((e.x y).val.toNat % 1024)
    let room := c.copies.length < 16
    let recorded := (c.cbuf.filter CEntry.isCopy).length < 32
    let queued := fun (k : Core) (z : Copy) => { k with copies := k.copies ++ [z], nextCopy := k.nextCopy + 1 }
    let writable := fun (z : Copy) => globalFault u s.focusCore .write 2 (wrapOrder z.gaddr (touchPoints z)) = none
    let entered := fun (k : Core) (z : Copy) => { k with cbuf := k.cbuf ++ [.copy { z with homes := homesOf u s.focusCore (wrapOrder z.gaddr (touchPoints z)) }], nextCopy := k.nextCopy + 1 }
    let line : Rows := { rows := 1, bytes := v.toNat, off := off, gaddr := g, lpitch := 0, gpitch := 0 }
    let lineOk := off.toNat % 4 = 0 ∧ g.toNat % 4 = 0 ∧ 4 ≤ v.toNat ∧ v.toNat ≤ 8388608 ∧ v.toNat % 4 = 0 ∧ off.toNat + v.toNat ≤ plain e.rd.a
    let plane : Rows := { rows := v.toNat / 2 ^ 32, bytes := v.toNat % 2 ^ 32, off := off, gaddr := g, lpitch := p.toNat / 2 ^ 32, gpitch := p.toNat % 2 ^ 32 }
    let planeOk := off.toNat % 4 = 0 ∧ g.toNat % 4 = 0 ∧ 1 ≤ plane.rows ∧ plane.rows ≤ 4096 ∧ 4 ≤ plane.bytes ∧ plane.bytes ≤ 65536 ∧
      plane.bytes % 4 = 0 ∧ plane.bytes ≤ plane.lpitch ∧ plane.lpitch % 4 = 0 ∧ plane.bytes ≤ plane.gpitch ∧ plane.gpitch % 4 = 0 ∧
      ∀ r < plane.rows, (off + BitVec.ofNat 64 (r * plane.lpitch)).toNat + plane.bytes ≤ plain e.rd.a
    let tile := tileOf e.rd.a off.toNat
    let now := (tileOf c.a off.toNat).st
    (∀ r ∈ ([(.cpin x y tk, 3, lineOk, line), (.cpin2d x y tk, 4, planeOk, plane)] : List (Instr × Nat × Prop × Rows)),
      MayIssue (encodeNat r.1) [] 0 tk s → clean r.2.1 → r.2.2.1 → room →
        exec r.1 s = .next (goLater s (modCore u s.focusCore fun k => queued k (newCopy e u false r.2.2.2 h none)))) ∧
    (∀ r ∈ ([(.cpout x y tk, 3, lineOk, line), (.cpout2d x y tk, 4, planeOk, plane)] : List (Instr × Nat × Prop × Rows)),
      MayIssue (encodeNat r.1) [] 0 tk s → clean r.2.1 → r.2.2.1 → writable (newCopy e u true r.2.2.2 h none) → recorded →
        exec r.1 s = .next (goLater s (modCore u s.focusCore fun k => entered k (newCopy e u true r.2.2.2 h none)))) ∧
    (∀ rows rb lp gp, off.toNat < 512 → tile.v = true → tMalformed e.rd.a tile.desc = false → tImage tile.desc (v.toNat % 2 ^ 32) = (rows, rb, lp, gp) →
      (tQuant tile.desc = true ∨ rb ≤ gp ∧ gp % 4 = 0) → g.toNat % 4 = 0 → clean 3 →
      let image : Rows := { rows := rows, bytes := rb, off := BitVec.ofNat 64 (tBase tile.desc), gaddr := g, lpitch := lp, gpitch := gp }
      (MayIssue (encodeNat (.cpinT x y tk)) [] 0 tk s → (now = .empty ∨ now = .ready) → room →
        exec (.cpinT x y tk) s = .next (goLater s (modCore u s.focusCore fun k => queued { k with
          a := setTileSt k.a off.toNat .filling, tags := (BitVec.ofNat 32 (g.toNat / 2 ^ 16 % 2 ^ 32) ::
            k.tags.filter (· != BitVec.ofNat 32 (g.toNat / 2 ^ 16 % 2 ^ 32))).take 16 } (newCopy e u false image h (some off.toNat))))) ∧
      (MayIssue (encodeNat (.cpoutT x y tk)) [] 0 tk s → (now = .ready ∨ now = .draining) → writable (newCopy e u true image h (some off.toNat)) →
          recorded →
        exec (.cpoutT x y tk) s = .next (goLater s (modCore u s.focusCore fun k =>
          let k' := entered k (newCopy e u true image h (some off.toNat))
          { k' with a := setTileSt k'.a off.toNat .draining }))))

/-- R254, R255, R182: the nine atomics. With scope bit 0 the operation is entered in the commit buffer, and its result slot waits; with
scope bit 1 the line is pinned, the old value goes to the result slot at once, and the new one is entered as a store. NEXT counts both. -/
def Obligations.AtomicResults : Prop :=
  ∀ (s : State) (x y : BitVec 6) (c z : BitVec 1) (tk : Tk) (tg : Target) (pa : Nat),
    let e := issueEnv tk s
    let u := issued tk s
    let a := (e.x y).val
    let n := if z = 1 then 8 else 4
    let one := (e.x x).val.setWidth 128
    let two := fun (k : Nat) => (e.xk x (k + 1)).val ++ (e.xk x k).val
    let rows : List (Instr × AmoOp × Nat × Nat × BitVec 128 × BitVec 128) :=
      [(.amoAdd x y c z tk, .add, n, 1, 0, one), (.amoAnd x y c z tk, .and, n, 1, 0, one), (.amoOr x y c z tk, .or, n, 1, 0, one),
       (.amoXor x y c z tk, .xor, n, 1, 0, one), (.amoMax x y c z tk, .max, n, 1, 0, one), (.amoMaxu x y c z tk, .maxu, n, 1, 0, one),
       (.amoSwap x y c z tk, .swap, n, 1, 0, one), (.amoCasD x y c tk, .cas, 8, 2, one, (e.xk x 1).val.setWidth 128),
       (.amoCasQ x y c tk, .cas, 16, 4, two 0, two 2)]
    (∀ r ∈ rows,
      let size := r.2.2.1
      MayIssue (encodeNat r.1) [] 0 tk s → (e.x y).psn = false → a.toNat % size = 0 → (∀ k < r.2.2.2.1, (e.xk x k).psn = false) →
        (getCore u s.focusCore).a.nextRes < 16 → transAccess u s.focusCore a .write 3 = .ok (tg, pa) →
      (c = 0 → amoWindow tg r.2.1 size false a = none → sectorsUsed (getCore u s.focusCore).cbuf < 2048 →
        exec r.1 s = .next (goOn tk s (modCore u s.focusCore fun k =>
          { k with cbuf := (getCore u s.focusCore).cbuf ++
                     [.atomic pa a r.2.1 size r.2.2.2.2.1 r.2.2.2.2.2 (getCore u s.focusCore).a.nextRes], a := awaitSlot k.a }))) ∧
      (∀ d s1 b, c = 1 → tg = .dev d → pinnedByOther u s.focusCore pa = false →
          readLoad (modArch u s.focusCore fun ar => { ar with pins := pinLine ar.pins (pa / 128) }) s.focusCore a tg pa size = (s1, b, false) →
        let fin := fun (t : State) => Host.Outcome.next (goOn tk s (modArch t s.focusCore fun ar =>
          takeSlot ar (BitVec.ofNat 128 (leNat b)) false false))
        (amoNew r.2.1 size (leNat b) r.2.2.2.2.1.toNat r.2.2.2.2.2.toNat = none → exec r.1 s = fin s1) ∧
        (∀ v b', amoNew r.2.1 size (leNat b) r.2.2.2.2.1.toNat r.2.2.2.2.2.toNat = some v →
            enterStores (getCore s1 s.focusCore).cbuf [(pa, a, natBytes size v)] = some b' →
          exec r.1 s = fin (modCore s1 s.focusCore fun k => { k with cbuf := b' })))) ∧
    (∀ size old cmp val, old < 2 ^ (8 * size) → cmp < 2 ^ (8 * size) → val < 2 ^ (8 * size) →
      amoNew .add size old cmp val = some ((old + val) % 2 ^ (8 * size)) ∧ amoNew .and size old cmp val = some (Nat.land old val) ∧
      amoNew .or size old cmp val = some (Nat.lor old val) ∧ amoNew .xor size old cmp val = some (Nat.xor old val) ∧
      amoNew .maxu size old cmp val = some (max old val) ∧ amoNew .swap size old cmp val = some val ∧
      (old = cmp → amoNew .cas size old cmp val = some val) ∧ (old ≠ cmp → amoNew .cas size old cmp val = none) ∧
      amoNew .max size old cmp val = some (if sintOf (8 * size) old < sintOf (8 * size) val then val else old))

/-! ## Traps and system words -/

/-- R318, R319, R321: a cause of delivery T other than a replay or a refusal inside a handler. Nested in the system handler it ends the unit
with TRAP_NESTED, UDF or EMUL in a user handler with EMUL_NESTED, without a handler with its own cause, TVAL and the EPCs written; else the
frame is saved, with the EPC and repetition index of every cluster, TL set, and the core goes on in joint mode in the trap segment, past its
entry offset. Registers, flags, the open region, memory and the other cores stay as they were. What stands for the retry response of a walk
(log 62) raises nothing: the core ends its pins and issues the word again. Choices of the model that it rests on: logs 19, 45, 62. -/
def Obligations.TrapEntry : Prop :=
  ∀ (s : State) (ci : Nat) (cl : Cluster) (t : Trap), ci < 72 →
    (t.cause = 0 → takeTrap s ci cl t = modArch s ci fun a => { a with pins := [] }) ∧
    (t.cause ≠ 0 → t.cause ≠ 0x21 → t.cause ≠ 0x07 →
    let c := getCore s ci
    let nested := c.a.uh && (t.cause == 1 || t.cause == 5)
    let s' := takeTrap s ci cl t
    let c' := getCore s' ci
    let g := segOf s (partOf c) c.tvec.hseg
    (c.a.tl = true → s' = endUnit s ci 0x07 t.cause (some t.tval)) ∧
    (c.a.tl = false → nested = true → s' = endUnit s ci 0x06 t.cause (some t.tval)) ∧
    (c.a.tl = false → nested = false → (c.tvec.v && g.v && g.sys) = false →
      s' = endUnit (modCore s ci fun k => { k with tr := { k.tr with tval := t.tval, epc := #v[epcOf c.a 0, epcOf c.a 1, epcOf c.a 2, epcOf c.a 3] } })
        ci t.cause t.detail (some t.tval)) ∧
    (c.a.tl = false → nested = false → (c.tvec.v && g.v && g.sys) = true →
      c'.tr.cause = BitVec.ofNat 6 t.cause ∧ c'.tr.detail = BitVec.ofNat 16 t.detail ∧ c'.tr.cl = BitVec.ofNat 2 (cnum cl) ∧
      c'.tr.tval = t.tval ∧ (t.strm = none → c'.tr.stream = c.tr.stream ∧ c'.tr.elem = c.tr.elem) ∧
      (∀ q n, t.strm = some (q, n) → c'.tr.stream = BitVec.ofNat 3 q ∧ c'.tr.elem = BitVec.ofNat 56 n) ∧
      (∀ i < 4, (vget c.a.pc 0 i).toNat < 2 ^ 56 →
        (vget c.a.repK none i = none → vget c'.tr.epc 0 i = vget c.a.pc 0 i) ∧
        (∀ k n, vget c.a.repK none i = some (k, n) → vget c'.tr.epc 0 i = vget c.a.pc 0 i ||| BitVec.ofNat 64 (k * 2 ^ 56))) ∧
      c'.tr.frame.mode = c.a.mode ∧ c'.tr.frame.loops = c.a.loops ∧ c'.tr.frame.seq = c.a.seq ∧ c'.tr.frame.segCur = c.a.segCur ∧
      c'.a.tl = true ∧ c'.a.mode = .joint ∧ c'.a.segCur = c.tvec.hseg ∧
      (∀ i < 4, vget c'.a.pc 0 i = g.base + BitVec.ofNat 64 (16 * c.tvec.off.toNat)) ∧
      c'.a.regs = c.a.regs ∧ c'.bank = c.bank ∧ c'.a.flags = c.a.flags ∧ c'.a.y = c.a.y ∧ c'.cbuf = c.cbuf ∧ c'.snap = c.snap ∧
      c'.heldTr = c.heldTr ∧ c'.a.uh = c.a.uh ∧ c'.a.held = c.a.held ∧ s'.mem = s.mem ∧ ∀ j, j ≠ ci → getCore s' j = getCore s j))

/-- R323, R324, R327: with TL the return words restore the active frame, in the user handler the held one, and `tret.n` moves past the
trapping instruction; elsewhere they raise SEG_FAULT with detail 4. `ucall` holds the frame and goes to the emulation entry with the gate
address in bank register x31; `svc` sends its argument to the fault service and the core waits. Choices of the model that it rests on: logs
25, 45. -/
def Obligations.HandlerReturns : Prop :=
  ∀ (s : State) (d a : BitVec 6) (g : BitVec 3),
    let e := envOf s
    let c := getCore s s.focusCore
    let p := partOf e.rd
    let out := fun (w : Nat) => Host.Outcome.next (goTrap s (mkTrap 0x39 4 (BitVec.ofNat 64 w)))
    let active := resumeAfter { c with a := { c.a with tl := false } }
    let held := { c with a := { c.a with uh := false, held := false }, tr := c.heldTr }
    let go := fun (k : Core) => Host.Outcome.next (goSet s (putCore s s.focusCore k))
    (MayIssue (encodeNat (.tret g)) [] g tkNone s →
      (e.rd.a.tl = true → exec (.tret g) s = go (restoreFrame active c.tr)) ∧
      (e.rd.a.tl = false → (e.rd.a.uh && e.rd.a.held) = true → exec (.tret g) s = go (restoreFrame held c.heldTr)) ∧
      (e.rd.a.tl = false → e.rd.a.uh = false → exec (.tret g) s = out (encodeNat (.tret g)))) ∧
    (MayIssue (encodeNat (.tretN g)) [] g tkNone s →
      (e.rd.a.tl = true → exec (.tretN g) s = go (pastTrap s s.focusCore (restoreFrame active c.tr) c.tr)) ∧
      (e.rd.a.tl = false → (e.rd.a.uh && e.rd.a.held) = true → exec (.tretN g) s = go (pastTrap s s.focusCore (restoreFrame held c.heldTr) c.heldTr)) ∧
      (e.rd.a.tl = false → e.rd.a.uh = false → exec (.tretN g) s = out (encodeNat (.tretN g)))) ∧
    (∀ (k : Core) (r : TrapRegs),
      let k' := restoreFrame k r
      k'.a.mode = r.frame.mode ∧ k'.a.loops = r.frame.loops ∧ k'.a.seq = r.frame.seq ∧ k'.a.segCur = r.frame.segCur ∧ k'.a.regs = k.a.regs ∧
      (∀ i < 4, r.frame.mode = .split → vget k'.a.pc 0 i = vget r.epc 0 i &&& (2 ^ 56 - 1 : BitVec 64)) ∧
      (∀ i < 4, r.frame.mode = .joint → vget k'.a.pc 0 i = vget r.epc 0 0 &&& (2 ^ 56 - 1 : BitVec 64)) ∧
      (r.frame.mode = .joint → pastTrap s s.focusCore k' r = { k' with nopSlot := some (clusterOf r.cl.toNat) })) ∧
    (MayIssue (encodeNat (.ucall g)) [] g tkNone s →
      let h := segOf s (partOf e.rd) e.rd.tvec.hseg
      let l := segOf s (partOf e.rd) e.rd.segL
      (e.rd.a.tl = true → e.rd.tr.cause = 5 → l.ev = true → fenBit s p 7 = true →
        exec (.ucall g) s = go (setPcs { c with
            heldTr := c.tr
            bank := vset c.bank 3 { val := h.base + h.gate.setWidth 64, psn := false }
            a := { c.a with held := true, tl := false, uh := true, segCur := c.segL } } (l.base + l.eoff.setWidth 64))) ∧
      ((e.rd.a.tl = false ∨ e.rd.tr.cause ≠ 5 ∨ l.ev = false ∨ fenBit s p 7 = false) → exec (.ucall g) s = out (encodeNat (.ucall g)))) ∧
    (MayIssue (encodeNat (.svc d a g)) [d] g tkNone s →
      (e.rd.a.tl = true → (e.x a).psn = false → exec (.svc d a g) s = .next (goSet s
        (modPart (modCore s s.focusCore fun k => { k with run := .svc d }) (partOf e.rd) fun p =>
          { p with svcq := p.svcq ++ [{ core := s.focusCore, svc := true, arg := (e.x a).val }] }))) ∧
      (e.rd.a.tl = false → exec (.svc d a g) s = out (encodeNat (.svc d a g))))

/-- R327 to R330, R339: the system words that write CSRs, segments, translations, address spaces, context images and the health record, and
the two that read. Choices of the model that it rests on: log 26. -/
def Obligations.SystemResults : Prop :=
  ∀ (s : State) (d a b : BitVec 6) (g : BitVec 3),
    let e := envOf s
    let v := (e.x a).val
    let w := (e.x b).val
    let p := partOf e.rd
    let next := fun (t : State) => Host.Outcome.next (goOn tkNone s t)
    let clean := (e.x a).psn = false ∧ (e.x b).psn = false
    let frame := fun (f : TrapRegs → TrapRegs) => next (modCore s s.focusCore fun k => if k.a.tl then { k with tr := f k.tr } else k)
    let free := fun (h : BitVec 6) (q : Nat) => (s.cores.toList.any fun k => holdsSeg k q h) = false
    let handle := v.toNat / 2 ^ 6 % 4 = 0 ∧ v.toNat / 2 ^ 11 = 0
    let named := v.toNat % 2 ^ 6 < 36
    let core := 36 * (v.toNat / 2 ^ 6 % 2) + v.toNat % 2 ^ 6
    let page := fun (x n : Nat) (base size : Nat) => n == 0 || (decide (base < x / 2 ^ 15 * 2 ^ 15 + n * 2 ^ 15) && decide (x / 2 ^ 15 * 2 ^ 15 < base + size))
    (MayIssue (encodeNat (.tlbinv a b g)) [] g tkNone s → clean → v.toNat < 2 ^ 48 →
      let asn := BitVec.ofNat 16 (v.toNat % 2 ^ 16)
      let keep := fun (x : TlbEntry) => !(x.part == p && x.asn == asn && page w.toNat (v.toNat / 2 ^ 16 % 2 ^ 32) x.vbase (2 ^ x.size))
      exec (.tlbinv a b g) s = next { s with
        cores := vmap (fun k => { k with tlb1 := k.tlb1.filter keep, tlb2 := k.tlb2.filter keep }) s.cores,
        dies := vmap (fun k => { k with walkCache := k.walkCache.filter fun x => !(x.part == p && x.asn == asn &&
          page w.toNat (v.toNat / 2 ^ 16 % 2 ^ 32) (x.path * 2 ^ levelShift x.level) (2 ^ levelShift x.level)) }) s.dies }) ∧
    (MayIssue (encodeNat (.scsrwr a b g)) [] g tkNone s → clean → csrListed (BitVec.ofNat 10 (w.toNat % 1024)) = true →
      let n := w.toNat % 1024
      let hseg := BitVec.ofNat 6 (v.toNat / 2 ^ 58)
      (n = 0x028 → (bitOf v 57 = false ∨ (segOf s p hseg).sys = true) → exec (.scsrwr a b g) s = next (modCore s s.focusCore fun k =>
        { k with tvec := { hseg := hseg, v := bitOf v 57, off := BitVec.ofNat 28 (v.toNat / 2 ^ 4 % 2 ^ 28) } })) ∧
      (n = 0x028 → bitOf v 57 = true → (segOf s p hseg).sys = false → exec (.scsrwr a b g) s = .next (goTrap s (mkTrap 0x39 2 v))) ∧
      (n = 0x032 → v.toNat % 8 ≠ 0 → exec (.scsrwr a b g) s = next (modPart s (partOf (getCore s s.focusCore)) fun q => { q with rtrymax := v.toNat % 8 })) ∧
      (n = 0x021 → exec (.scsrwr a b g) s = frame fun r => { r with tval := v }) ∧
      (0x024 ≤ n → n ≤ 0x027 → exec (.scsrwr a b g) s = frame fun r => { r with epc := vset r.epc (n - 0x024) v }) ∧
      (n ≠ 0x028 → (n = 0x032 → v.toNat % 8 = 0) → n ≠ 0x021 → ¬ (0x024 ≤ n ∧ n ≤ 0x027) → exec (.scsrwr a b g) s = next s)) ∧
    (MayIssue (encodeNat (.segset a b g)) [] g tkNone s → clean → w.toNat % 32 = 0 → w.toNat + 32 ≤ plain e.rd.a →
        firstMarked (getCore s s.focusCore) (w.toNat / 4) 8 = none → handle →
      let desc := scrDesc (getCore s s.focusCore) w.toNat
      let q := v.toNat / 2 ^ 8 % 8
      segBad (getPart s q) (v.toNat % 2 ^ 6) desc = false →
        (free (BitVec.ofNat 6 (v.toNat % 2 ^ 6)) q → exec (.segset a b g) s =
          next (modPart s q fun x => { x with segs := vset x.segs (v.toNat % 2 ^ 6) (segOfDesc desc) })) ∧
        (¬ free (BitVec.ofNat 6 (v.toNat % 2 ^ 6)) q → exec (.segset a b g) s = .next (goWait s))) ∧
    (MayIssue (encodeNat (.segclr a g)) [] g tkNone s → (e.x a).psn = false → handle → free (BitVec.ofNat 6 (v.toNat % 2 ^ 6)) (v.toNat / 2 ^ 8 % 8) →
      exec (.segclr a g) s = next (modPart s (v.toNat / 2 ^ 8 % 8) fun x => { x with segs := vset x.segs (v.toNat % 2 ^ 6) Seg.zero })) ∧
    (MayIssue (encodeNat (.ctxout a b g)) [] g tkNone s → clean → named → (getCore s core).run = .halted → w.toNat % 32 ≤ 21 →
      exec (.ctxout a b g) s = next (modDie s (dieOf s.focusCore) fun k =>
        { k with images := Sparse.put none k.images (w.toNat % 32) (some (contextImage (getCore s core))) })) ∧
    (∀ i, MayIssue (encodeNat (.ctxin a b g)) [] g tkNone s → clean → named → (getCore s core).run = .halted →
        Sparse.get none (getDie s (dieOf s.focusCore)).images (w.toNat % 32) = some i → inMask (getPart s (partOf i)) core = true →
      exec (.ctxin a b g) s = next (noteClaim s (modCore s core fun k => loadImage k i) core)) ∧
    (MayIssue (encodeNat (.asset a b g)) [] g tkNone s → clean → exec (.asset a b g) s = next (modPart s (v.toNat / 2 ^ 16 % 8) fun q =>
      { q with asds := Sparse.put 0 q.asds (v.toNat % 2 ^ 16) (w &&& (0xFFFFFFFFFF001 : BitVec 64)) })) ∧
    (MayIssue (encodeNat (.pinfo d a g)) [d] g tkNone s → (e.x a).psn = false →
      let die := v.toNat % 2
      let has := fun (i : Nat) => bitOf (if die = 0 then (getPart s p).mask0 else (getPart s p).mask1) i && isUserCore s (36 * die + i)
      exec (.pinfo d a g) s = next (setX e s d (BitVec.ofNat 64 (((List.range 36).filter has).map fun i => 2 ^ i).sum) false)) ∧
    (MayIssue (encodeNat (.pscrub a g)) [] g tkNone s → (e.x a).psn = false → exec (.pscrub a g) s = next (scrubPart s (v.toNat % 8))) ∧
    (∀ r, MayIssue (encodeNat (.errrd d a g)) [d] g tkNone s → (e.x a).psn = false →
        (getPart s (v.toNat / 2 ^ 12 % 8)).errlog[v.toNat / 2 ^ 2 % 1024]? = some r →
      exec (.errrd d a g) s = next (setX e s d (errDword r (v.toNat % 4)) false)) ∧
    (MayIssue (encodeNat (.hrmark a g)) [] g tkNone s → (e.x a).psn = false →
      (named → (getCore s core).run = .halted →
        exec (.hrmark a g) s = next { s with retiredCores := natInsert core s.retiredCores, parts := vmap (fun q => maskOut q core) s.parts }) ∧
      (named → (getCore s core).run ≠ .halted → exec (.hrmark a g) s = .next (goTrap s (mkTrap 0x39 2 v))))

/-! ## Events: the engines of a core -/

/-- R158, R160, R167, R170, R177: a running inbound stream fetches its next vector into a FIFO of eight, or stops there with STREAM_FAULT;
a fetch that meets a pinned line is made again, and ends the core's pins; the oldest vector of an outbound one is written; a walk that reaches a leaf fills the TLBs and the walk cache; a queued invalidation drops
the core's copy of its line. A walk reads its table entries, and enters the L2 TLB in a set of eight ways. Choices of the model that it
rests on: logs 6, 8, 13, 15. -/
def Obligations.StreamAndWalkEvents : Prop :=
  ∀ (s : State) (ci q : Nat) (va : Word) (k : AccessKind), ci < 72 → q < 8 →
    let c := getCore s ci
    let x := streamOf c.a q
    let f := fifoOf c q
    let p := f.first + f.vecs.length
    let a := BitVec.ofInt 64 (streamAddr x p)
    let landed := fun (c : Core) (v : List Lane) =>
      let c' := putFifo c q { fifoOf c q with vecs := (fifoOf c q).vecs ++ [v] }
      if p = 0 then completePush (putFifo c q { fifoOf c q with vecs := (fifoOf c q).vecs ++ [v], push := none, pushOpen := false })
        (fifoOf c q).push (!(fifoOf c q).pushOpen) else c'
    let failed := fun (t : Trap) => modCore s ci fun c => putFifo c q { fifoOf c q with fault := some t }
    let fetches := enginesRun c = true ∧ atUnitEnd c = false ∧ x.running = true ∧ x.out = false ∧ f.vecs.length < 8 ∧ f.fault = none ∧ p < totalOf x
    (fetches → x.loc = true →
      (localVecFault c.a x p = none → exec (.streamFetch ci q) s = .next (modCore s ci fun c =>
        landed c ((List.range 64).map fun i => scrWord c (a.toNat / 4 + i)))) ∧
      (∀ w l, localVecFault c.a x p = some (w, l) → exec (.streamFetch ci q) s = .next (failed
        { cause := 0x15, detail := 0x10, tval := w, strm := some (q, 64 * p + l) }))) ∧
    (fetches → x.loc = false →
      (globalVecFault s ci a .read 1 = none → pinBlocked s ci 0 ((lineParts a 256).map fun y => y.1) = false →
        let r := readParts s ci (lineParts a 256)
        exec (.streamFetch ci q) s = .next (modCore r.1 ci fun c => landed c r.2)) ∧
      (∀ t l, globalVecFault s ci a .read 1 = some (t, l) → isRetry t = false → exec (.streamFetch ci q) s = .next (failed
        { cause := 0x15, detail := t.cause, tval := t.tval, strm := some (q, 64 * p + l) })) ∧
      ((∃ t l, globalVecFault s ci a .read 1 = some (t, l) ∧ isRetry t = true) ∨
        (globalVecFault s ci a .read 1 = none ∧ pinBlocked s ci 0 ((lineParts a 256).map fun y => y.1) = true) →
          exec (.streamFetch ci q) s = .next (modArch s ci fun a => { a with pins := [] }))) ∧
    (∀ v r, f.vecs = v :: r → enginesRun c = true → x.out = true →
      exec (.streamOutboundWrite ci q) s = .next (modCore s ci fun c =>
        putFifo (if x.loc then storeLanesL c v ((List.range 64).map fun i => (i, (BitVec.ofInt 64 (streamAddr x f.first)).toNat + 4 * i)) else c)
          q { f with vecs := r, first := f.first + 1 })) ∧
    (∀ leaf sz ts, c.unit.isSome = true → tlbFind c (partOf c) (asnOf c) va = none →
        walkTable s (some ci) (dieOf ci) (partOf c) (asnOf c) va k = .ok (leaf, sz, ts) →
      let t : TlbEntry := { part := partOf c, asn := asnOf c, vbase := va.toNat / 2 ^ sz * 2 ^ sz, size := sz, leaf := leaf }
      let set := fun (y : TlbEntry) => y.vbase / 2 ^ y.size % 256
      exec (.translationWalk ci va k) s = .next (modDie (modCore (readWalk s ci va) ci fun c =>
        { c with tlb1 := (t :: c.tlb1.filter (· != t)).take 96,
                 tlb2 := t :: (((c.tlb2.filter (· != t)).filter fun y => set y == set t).take 7 ++
                   (c.tlb2.filter (· != t)).filter fun y => set y != set t) }) (dieOf ci)
        fun d => cacheTables d (partOf c) (asnOf c) va ts)) ∧
    (∀ i r, c.invq = i :: r → exec (.invalidationApply ci) s = .next (putCore s ci
      { c with invq := r, l1 := c.l1.filter fun y => y.line != i.line }))

/-- R91, R92, R220, R223 to R228, R230, R231, R233, R234, R276: the matrix engine, the operand fetcher, a walk and a Vigil check. A step, `mxmma`
or one of a nest, whose handles, accumulator and place in its group R226 gives by its index vector, zeroes its group's accumulators, has its
tiles fetched, is checked and begins; its rows are accumulated in order as they are there, element by element; its group is checked at its end,
and drained. That a drain to E80 keeps the low 82 bits whatever they hold, non-canonical and poisoned values among them, is the model's choice
(log 50). A fault stops the engine with MXROW set and a trap for K. Choices of the model that it rests on: logs 31, 32, 50, 53, 55, 62. -/
def Obligations.MatrixEvents : Prop :=
  ∀ (s : State) (ci h : Nat), ci < 72 →
    let c := getCore s ci
    let runs := enginesRun c = true
    let head := fun (x : MxOp) => ∃ r, c.mxq = x :: r
    let goes := runs ∧ bitOf c.mxrow 63 = false
    let zeroed := fun (c : Core) (ab : BitVec 7) (n : Nat) =>
      (List.range 64).foldl (fun c i => (List.range 32).foldl (fun c j => putAcc c ab n i j 0) c) c
    let finish := fun (c : Core) (x : MxOp) =>
      completePush { c with mxq := c.mxq.drop 1, a := { c.a with ustat := c.a.ustat ||| x.flags } } x.push false
    let put := fun (c : Core) (x : MxOp) => { c with mxq := x :: c.mxq.drop 1 }
    let stops := fun (c : Core) (x : MxOp) (src row : Nat) (t : Trap) =>
      { put c x with
        mxrow := BitVec.ofNat 64 (2 ^ 63 + (match x.kind with | .nest _ _ => 2 ^ 62 | _ => 0) + 2 ^ 61 * src + 2 ^ 32 * row + x.step)
        engTraps := c.engTraps ++ [{ cl := .k, trap := { t with detail := t.detail % 64 + 64 } }] }
    let unusable := fun (h : Nat) (t : Trap) =>
      ((tileOf c.a h).v = false ∧ t = mkTrap 0x17 2 (BitVec.ofNat 64 h)) ∨
      ((tileOf c.a h).v = true ∧ tOver c.a (tileOf c.a h).desc = true ∧ t = mkTrap 0x17 1 (BitVec.ofNat 64 h))
    let usable := fun (h : Nat) => (tileOf c.a h).v = true ∧ tOver c.a (tileOf c.a h).desc = false
    let there := fun (c : Core) (h : Nat) => (tileOf c.a h).st = .ready ∨ (tileOf c.a h).st = .draining
    (∀ x n, goes → head x → x.kind = .zero n → exec (.matrixOpRun ci) s = .next (putCore s ci (finish (zeroed c x.abase n) x))) ∧
    -- the steps of a nest (R225, R226)
    (∀ (t : List Word) (k : Nat),
      let f := fun q lo n => (nth 0 t q).toNat / 2 ^ lo % 2 ^ n
      let i := fun l => k / ((List.range l).map fun j => f (2 + 2 * j) 0 13).prod % f (2 + 2 * l) 0 13
      let all := List.range (f 0 30 3)
      let outer := all.filter fun l => decide (f 0 33 3 ≤ l)
      let sum := fun (b lo : Nat) (ls : List Nat) => (((b : Int) + (ls.map fun l => (i l : Int) * sintOf 10 (f (2 + 2 * l) lo 10)).sum).toNat)
      let p := nestStep t k
      p.ha = sum (f 0 0 9) 32 all ∧ p.hb = sum (f 0 9 9) 42 all ∧ p.hc = sum (f 0 18 9) 52 outer ∧
      p.acc = (f 0 27 3 + (outer.map fun l => i l * f (3 + 2 * l) 0 3).sum) % 8 ∧
      (p.first = true ↔ ∀ l < f 0 33 3, l < f 0 30 3 → i l = 0) ∧
      (p.last = true ↔ ∀ l < f 0 33 3, l < f 0 30 3 → i l + 1 = f (2 + 2 * l) 0 13)) ∧
    -- a step begins (R210, R217, R223)
    (∀ x p, goes → head x → x.begun = false → x.drains = false →
        ((∃ n a b, x.kind = .mma n a b ∧ p = { ha := a, hb := b, acc := n, hc := 0, first := true, last := true }) ∨
          ∃ t o, x.kind = .nest t o ∧ isArmed x = false ∧ p = nestStep t x.step) →
      let zero := match x.kind with | .nest t _ => (nth 0 t 0).toNat / 2 ^ 36 % 2 == 1 && p.first | _ => false
      let b := tileOf c.a p.hb
      let c0 := if zero then (if b.v = true ∧ 32 < tCols b.desc then zeroed (zeroed c x.abase p.acc) x.abase ((p.acc + 1) % 8)
        else zeroed c x.abase p.acc) else c
      let c1 := raiseStep c0 x p
      let da := (tileOf c1.a p.ha).desc
      let db := (tileOf c1.a p.hb).desc
      let g := if p.first then none else x.group
      (∀ t, unusable p.ha t → exec (.matrixOpRun ci) s = .next (putCore s ci (stops c0 x 0 0 t))) ∧
      (∀ t, usable p.ha → unusable p.hb t → exec (.matrixOpRun ci) s = .next (putCore s ci (stops c0 x 0 0 t))) ∧
      (usable p.ha → usable p.hb → ¬ there c1 p.ha → exec (.matrixOpRun ci) s = .next (putCore s ci
        (match fetchFault c1 p.ha with | some t => stops c1 x 0 0 t | none => c1))) ∧
      (∀ h, usable p.ha → usable p.hb → there c1 p.ha → shapeFault p.ha p.hb da db g (fenBit s (partOf c1) 0) = some h →
        exec (.matrixOpRun ci) s = .next (putCore s ci (stops c1 x 0 0 (mkTrap 0x17 4 (BitVec.ofNat 64 h))))) ∧
      (usable p.ha → usable p.hb → there c1 p.ha → shapeFault p.ha p.hb da db g (fenBit s (partOf c1) 0) = none →
        exec (.matrixOpRun ci) s = .next (putCore s ci (put c1 { x with
          begun := true, row := 0, group := some (tRows da, tCols db)
          cols := if p.first then (startSums c1 x.abase p.acc (tRows da) (tCols db)).1 else x.cols
          rows := if p.first then (startSums c1 x.abase p.acc (tRows da) (tCols db)).2 else x.rows
          flags := if tType da ∈ [13, 14] ∨ tType db ∈ [13, 14] then x.flags ||| 64 else x.flags })))) ∧
    (∀ ha hb da db g on, shapeFault ha hb da db g on = none ↔
      tRows da ≤ 64 ∧ tCols da = tRows db ∧ (∀ z, g = some z → z = (tRows da, tCols db)) ∧
      ((tType da ∈ [0, 1] ∧ tType db ∈ [0, 1] ∧ on = true ∧ tCols db ≤ 64) ∨
        (tType da ∈ [11, 12, 13, 14] ∧ tType db ∈ [11, 12, 13, 14] ∧ on = true ∧ tCols db ≤ 64) ∨
        (tType da ∈ [8, 9] ∧ tType db ∈ [8, 9, 11, 12, 13, 14, 16, 17] ∧ tCols db ≤ 32) ∨
        (tType da ∈ [11, 12, 13, 14] ∧ tType db ∈ [8, 9, 16, 17] ∧ tCols db ≤ 32))) ∧
    -- the fetcher raises a copy (R224)
    (∀ h, let t := tileOf c.a h
      let may := t.v = true ∧ tFetch t.desc = true ∧ t.st = .empty ∧ tOver c.a t.desc = false ∧ c.copies.length < 16
      (may → raiseFetch c h = noteTag { c with
        copies := c.copies ++ [fetchCopy c h], nextCopy := c.nextCopy + 1, a := setTileSt c.a h .filling } (BitVec.ofNat 64 (tGaddr t.desc))) ∧
      (¬ may → raiseFetch c h = c)) ∧
    -- its rows (R91, R223), its group's end (R227)
    (∀ x p, goes → head x → x.begun = true → x.drains = false →
        ((∃ n a b, x.kind = .mma n a b ∧ p = { ha := a, hb := b, acc := n, hc := 0, first := true, last := true }) ∨
          ∃ t o, x.kind = .nest t o ∧ isArmed x = false ∧ p = nestStep t x.step) →
      let da := (tileOf c.a p.ha).desc
      let db := (tileOf c.a p.hb).desc
      let n := if (tileOf c.a p.hb).st = .ready ∨ (tileOf c.a p.hb).st = .draining then tCols da
        else if tQuant db then 0
        else match filling c p.hb with | some y => min (tCols da) (y.done / y.rowBytes) | none => 0
      let ks := (List.range (n - x.row)).map (x.row + ·)
      let c1 := ks.foldl (fun c k => (List.range (tRows da)).foldl (fun c i => (List.range (tCols db)).foldl (fun c j =>
        let a := tileV c da i k
        let b := tileV c db k j
        putAcc c x.abase p.acc i j (accBits (accStep (accOf (accRaw c x.abase p.acc i j)) a.1 b.1 (a.2 || b.2)))) c) c) c
      let x1 := ks.foldl (fun y k => stepSums c y da db k) { x with row := n }
      let steps := match x.kind with | .nest t _ => nestSteps t | _ => 1
      let drains := match x.kind with | .nest t _ => (nth 0 t 0).toNat / 2 ^ 37 % 2 == 1 && p.last | _ => false
      (n ≤ x.row → x.row < tCols da → exec (.matrixOpRun ci) s = .next (putCore s ci
        (match fetchFault c p.hb with | some t => stops c x 1 x.row t | none => raiseStep c x p))) ∧
      (x.row < n → n < tCols da → exec (.matrixOpRun ci) s = .next (putCore s ci (put c1 x1))) ∧
      (x.row < n → n = tCols da → p.last = true → groupFails c1 x1 p.acc = true →
        exec (.matrixOpRun ci) s = .next (detectError (putCore s ci (put c1 x1)) ci 4)) ∧
      (x.row < n → n = tCols da → (p.last = true → groupFails c1 x1 p.acc = false) → exec (.matrixOpRun ci) s = .next (putCore s ci
        (if drains then put c1 { x1 with drains := true }
         else if x.step + 1 < steps then put c1 { x1 with step := x.step + 1, row := 0, begun := false, drains := false }
         else finish (put c1 x1) x1)))) ∧
    (∀ ab n i j v, n < 8 → i < 64 → j < 64 → accRaw (putAcc c ab n i j v) ab n i j = v % 2 ^ 128) ∧
    (∀ x n, let fails := fun (y : CheckSum) (l : List (Option Int)) => y.skip = false ∧ (∀ v ∈ l, v ≠ none) ∧
        y.abs + (l.map fun v => ((v.getD 0).natAbs : Int)).sum < 2 ^ 40 * (((l.map fun v => v.getD 0).sum - y.sum).natAbs : Int)
      groupFails c x n = true ↔
        (∃ j y, x.cols[j]? = some y ∧ fails y ((List.range x.rows.length).map fun i => accInt c x.abase n i j)) ∨
        ∃ i y, x.rows[i]? = some y ∧ fails y ((List.range x.cols.length).map fun j => accInt c x.abase n i j)) ∧
    -- a drain (R92, R228)
    (∀ x n h m shape steps, goes → head x →
        ((x.kind = .drain n h m ∧ shape = none ∧ steps = 1) ∨
          ∃ t o, x.kind = .nest t o ∧ isArmed x = false ∧ x.drains = true ∧ n = (nestStep t x.step).acc ∧ h = (nestStep t x.step).hc ∧ m = x.mode ∧
            shape = x.group ∧ steps = nestSteps t) →
      let t := tileOf c.a h
      let d := t.desc
      let fits := tType d ∈ [4, 8, 9, 10, 18] ∧ tCols d ≤ 64 ∧ tRows d ≤ 64 ∧ ∀ g, shape = some g → g = (tRows d, tCols d)
      let r := (rmodeOf m.toNat).getD .rne
      let w := tWidth (tType d) / 8
      let out := (List.range (tRows d)).foldl (fun (z : Core × Flg) i =>
        let raws := (List.range (tCols d)).map fun j => accRaw z.1 x.abase n i j
        let o := tBase d + i * tPitch d
        let marks := (List.range ((w * tCols d + 3) / 4)).map fun k =>
          (raws.map fun v => (accOf v).psn).zipIdx.any fun y => y.1 && decide (y.2 * w / 4 ≤ k) && decide (k ≤ (y.2 * w + w - 1) / 4)
        (putMarks (scrPutBytes z.1 o ((raws.map (drainBits (tType d) r)).flatMap fun y => natBytes w y.1)) (o / 4) marks,
          z.2.or ((raws.map (drainBits (tType d) r)).foldl (fun f y => f.or y.2) {}))) (c, {})
      let c1 := { out.1 with a := setTileSt out.1.a h .ready }
      let x1 := { x with flags := x.flags ||| out.2.bits }
      (∀ z, unusable h z → exec (.matrixOpRun ci) s = .next (putCore s ci (stops c x 0 x.row z))) ∧
      (usable h → t.st = .filling ∨ (t.st = .draining ∧ ownCopy c h = false) → exec (.matrixOpRun ci) s = .next s) ∧
      (usable h → t.st = .draining → ownCopy c h = true →
        exec (.matrixOpRun ci) s = .next (putCore s ci (stops c x 0 x.row (mkTrap 0x17 3 (BitVec.ofNat 64 h))))) ∧
      (usable h → t.st = .empty ∨ t.st = .ready → ¬ fits →
        exec (.matrixOpRun ci) s = .next (putCore s ci (stops c x 0 x.row (mkTrap 0x17 4 (BitVec.ofNat 64 h))))) ∧
      (usable h → t.st = .empty ∨ t.st = .ready → fits → exec (.matrixOpRun ci) s = .next (putCore s ci
        (if x.step + 1 < steps then put c1 { x1 with step := x.step + 1, row := 0, begun := false, drains := false }
         else finish c1 x1)))) ∧
    (∀ r raw, let a := accOf raw
      (∀ z ∈ ([(10, fF32), (9, fBF16), (8, fF16)] : List (Nat × Fmt)),
        drainBits z.1 r raw = if a.psn then (z.2.poison, {}) else packF z.2 r a.val) ∧
      drainBits 18 r raw = (raw % 2 ^ 82, {}) ∧ (a.psn = true → drainBits 4 r raw = (0, {})) ∧
      (a.psn = false → (drainBits 4 r raw).1 = (BitVec.ofInt 32 (toIntV true 32 r a.val).1).toNat)) ∧
    (∀ x s' b o va n, runs → c.copies.find? (fun y => !y.outb && y.tile == some h) = some x → x.fetcher = true → x.fault = none →
        fetchBlocked c x = false → pieceOf x = (o, va, n) → movePieceIn s ci x = .ok s' b →
      exec (.fetcherCopy ci h) s = .next (modCore s' ci fun c => finishIfDone (copyMoved c { x with ahead := b } n) x.id)) ∧
    (∀ x t, runs → c.copies.find? (fun y => !y.outb && y.tile == some h) = some x → x.fetcher = true → x.fault = none →
        fetchBlocked c x = false → movePieceIn s ci x = .fault t →
      exec (.fetcherCopy ci h) s = .next (putCore s ci (putCopy c { x with fault := some t }))) ∧
    -- the walker (R233)
    (∀ w k t, runs → c.walk = some w → w.stopped = false → k < fieldOf w.ctrl 9 10 →
      let h := fun i => fieldOf w.ctrl 0 9 + i
      (∀ i < k, walkTileFault c (fieldOf w.ctrl 19 4) (h i) = none) → walkTileFault c (fieldOf w.ctrl 19 4) (h k) = some t →
        exec (.walkRun ci) s = .next (putCore s ci { c with
          walk := some { w with
            stopped := true
            counts := if w.op = 7 ∧ w.counts = none then some ((List.range 256).map fun i => scrWord c (w.off / 4 + i)) else w.counts }
          engTraps := c.engTraps ++ [{ cl := .k, trap := { t with detail := t.detail % 64 + 64 } }] })) ∧
    (∀ et l, l ≠ [] →
      let x := l.map (walkExtend et)
      let less := fun (a b : Word) => if et % 2 = 0 then a.slt b else a.ult b
      walkReduce 0 et l = x.foldr (· + ·) 0 ∧ walkReduce 3 et l = x.foldr (· &&& ·) (BitVec.allOnes 64) ∧
      walkReduce 4 et l = x.foldr (· ||| ·) 0 ∧ walkReduce 5 et l = x.foldr (· ^^^ ·) 0 ∧
      (walkReduce 1 et l ∈ x ∧ ∀ y ∈ x, less y (walkReduce 1 et l) = false) ∧
      (walkReduce 2 et l ∈ x ∧ ∀ y ∈ x, less (walkReduce 2 et l) y = false) ∧
      walkReduce 6 et l = BitVec.ofNat 64 (l.map popcount).sum) ∧
    (∀ (w : Walk) (l : List (Nat × Bool)) (k : Nat), k < 256 → w.op = 7 →
      let old := nth Lane.zero (match w.counts with | some z => z | none => (List.range 256).map fun i => scrWord c (w.off / 4 + i)) k
      scrWord (walkWrite c w l) (w.off / 4 + k) =
        { data := old.data + BitVec.ofNat 32 (l.filter fun v => v.1 / 2 ^ fieldOf w.ctrl 24 6 % 256 == k).length
          psn := (l.any fun v => v.2) || old.psn }) ∧
    (∀ w, runs → c.walk = some w → w.stopped = false →
      let hs := (List.range (fieldOf w.ctrl 9 10)).map (fieldOf w.ctrl 0 9 + ·)
      (∀ k ∈ hs, walkTileFault c (fieldOf w.ctrl 19 4) k = none) → (∀ k ∈ hs, raiseFetch c k = c) → (∀ k ∈ hs, tileReadable (tileOf c.a k) = true) →
        exec (.walkRun ci) s = .next (putCore s ci (completePush
          { walkWrite c w (hs.flatMap fun k => tileElems c (tileOf c.a k).desc) with walk := none } w.push false))) ∧
    (∀ x r, runs → c.vigils = x :: r → (x.kind = 1 ∨ c.mxq = []) →
      let c1 := completePush { c with vigils := r } x.push false
      let marks := (if x.kind = 0 then [x.ha, x.hb] else [x.ha]).filterMap fun k => tileMark c (tileOf c.a k).desc
      (marks = [] → crc32c (vigilBytes c x) = x.crc → exec (.vigilCheck ci) s = .next (putCore s ci c1)) ∧
      (marks = [] → crc32c (vigilBytes c x) ≠ x.crc → exec (.vigilCheck ci) s = .next (detectError s ci 5)) ∧
      (∀ m l, marks = m :: l → exec (.vigilCheck ci) s = .next (putCore s ci { c1 with
        engTraps := c1.engTraps ++ [{ cl := .k, trap := engineTrap (mkTrap 0x20 3 (BitVec.ofNat 64 (l.foldl min m))) }] })))

/-- R288 to R291, R294, R302 to R304: a step of the Almanac takes the next slot of its range, stages it, measures it or decides it, with the
values that are written out, and completes after the last; a fault stops it before the slot. The Shepherd starts the operation of the lowest
committed slot in TRAIN or CANDIDATE, and completes it on the committed state: the gradients of the step's batch, or the verdict on the
held-out pairs. Choices of the model that it rests on: logs 22, 23, 24. -/
def Obligations.AlmanacAndShepherdEvents : Prop :=
  ∀ (s : State) (ci : Nat), ci < 72 →
    let c := getCore s ci
    let runs := enginesRun c = true
    (∀ x r, runs → c.almq = x :: r → x.stopped = false →
      let k := x.first + x.at_
      let y := almOf c.a k
      let after := fun (c1 : Core) => if x.at_ + 1 < x.count then putCore s ci { c1 with almq := { x with at_ := x.at_ + 1 } :: r }
        else putCore s ci (completePush { c1 with almq := r } x.push false)
      (almLive y = false → exec (.almanacStep ci) s = .next (after c)) ∧
      (∀ m, almLive y = true → vget c.a.methods none y.meth = some m → almActs x y m = true →
        let ab := (nth 0 m 0).toNat / 2 ^ 3 % 2 = 1
        let stages := (nth 0 m 0).toNat % 2 ^ 3
        let order := (nth 0 m 0).toNat / 2 ^ 8 % 2 ^ 2
        let w := fun (a : Nat) => toF32Product y.h.toNat a
        -- an element and its derivatives, each with its weight, summed with one FP32 rounding a term
        let sum := fun (c : Core) (j : Nat) (v : Nat × Bool) (l : List (Nat × Nat)) => l.foldl (fun v f =>
          let x := almElem c f.1 j
          ((fFma fF32 .rne f.2 x.1 v.1).1, v.2 || x.2)) v
        let poison := fun (v : Nat × Bool) => if v.2 then (0x7FE5A5A5, true) else v
        let elems := List.range (tRows (tileOf c.a y.tx).desc * tCols (tileOf c.a y.tx).desc)
        let reads := fun (l : List Nat) => ∀ h ∈ l, almTileFault c.a y.tx h false = none
        let writes := fun (h : Nat) => almTileFault c.a y.tx h true = none
        -- a stage (R288)
        (let js := if ab then [] else (List.range y.sidx).filter fun j => (methA m y.sidx j) % 2 ^ 63 != 0
         let weights := js.map fun j => (nth 0 y.tk j, w (methA m y.sidx j))
         -- an element is written before the next one is read
         let c1 := elems.foldl (fun c j =>
           let v := almElem c y.tx j
           almPut c y.ty j (if ab then v else poison (sum c j v weights))) c
         let tau := if ab then y.t.toNat else dAdd y.t.toNat (dMul (methF m (8 + y.sidx)) y.h.toNat)
         let c2 := scrStore c1 (x.off + 8 * (k - x.first)) (natBytes 8 tau) false
         (x.kind = 0 → reads (y.tx :: js.map fun j => nth 0 y.tk j) → writes y.ty →
           exec (.almanacStep ci) s = .next (after { c2 with a := putAlm c2.a k { y with sidx := y.sidx + 1, st := .run } }))) ∧
        -- an error norm (R290)
        (let p := min order (1 + y.hcnt)
         let b := abCoefs y.h.toNat y.hh1.toNat y.hh2.toNat p
         let bh := if p = 1 then b else abCoefs y.h.toNat y.hh1.toNat y.hh2.toNat (p - 1)
         let all : List (Nat × Nat × Nat) := if ab then (List.range p).map fun j => (nth 0 y.th j, nth 0 b j, nth 0 bh j)
           else (List.range stages).map fun j => (nth 0 y.tk j, methF m (15 + j), methF m (22 + j))
         let used := all.filter fun t => t.2.1 % 2 ^ 63 != 0 || t.2.2 % 2 ^ 63 != 0
         let weights := fun (f : Nat × Nat × Nat → Nat) => (used.filter fun t => f t % 2 ^ 63 != 0).map fun t => (t.1, w (f t))
         let square := fun (x xn xe : Nat) =>
           -- the difference of the two solutions is exact, and its quotient is rounded once
           let d : Fv := (addV .rne (decodeF fF32 xn) (negV (decodeF fF32 xe))).getD (.nan false)
           let sc := dAdd (methF m 1) (dMul (methF m 2) (dMax (widen64 x % 2 ^ 63) (widen64 xn % 2 ^ 63)))
           let q := if sc % 2 ^ 63 == 0 then (if isZeroV d then 0 else dInf) else (divV fF64 .rne d (f64V sc)).1
           dMul q q
         let r : ErrRun := elems.foldl (fun r j =>
           let v := almElem r.core y.tx j
           let xn := sum r.core j v (weights fun t => t.2.1)
           let xe := sum r.core j v (weights fun t => t.2.2)
           { core := almPut r.core y.trb j (poison (xn.1, xn.2 || xe.2)), sum := dAdd r.sum (square v.1 xn.1 xe.1), psn := r.psn || (xn.2 || xe.2) })
           { core := c, sum := 0, psn := false }
         let norm := (fSqrt fF64 .rne (dDiv r.sum (ofIntF fF64 .rne elems.length).1)).1
         (x.kind = 1 → reads (y.tx :: used.map fun t => t.1) → writes y.trb → exec (.almanacStep ci) s = .next (after { r.core with
           a := putAlm r.core.a k { y with lasterr := BitVec.ofNat 64 (if r.psn then fF64.cnan else norm), psn := y.psn || r.psn
                                           peff := if ab then p else 0, tx := y.trb, trb := y.tx, errv := true } }))) ∧
        -- a decision (R291)
        (let err := y.lasterr.toNat
         let fac := if ab ∧ y.peff = 1 then 0x3FF0000000000000
           else match f64V err with
             | .fin .. => dMin (methF m 5) (dMax (methF m 4) (dMul (methF m 3)
                 (rootPow (if ab then y.peff else (nth 0 m 0).toNat / 2 ^ 4 % 2 ^ 3 + 1) err)))
             | _ => methF m 4
         let turned : AlmSlot := if ab then { y with
             th := nth 0 y.th (order - 1) :: (y.th.take (order - 1) ++ y.th.drop order)
             hh2 := y.hh1, hh1 := y.h, hcnt := min (y.hcnt + 1) (order - 1) } else y
         let taken : AlmSlot := { turned with
           t := if y.clip then y.tend else BitVec.ofNat 64 (dAdd y.t.toNat y.h.toNat)
           st := if y.clip then .done else .accepted
           h := BitVec.ofNat 64 (dMul y.h.toNat fac), nacc := min (y.nacc + 1) 65535, sidx := 0, errv := false }
         let back := dMul y.h.toNat (dMin 0x3FF0000000000000 fac)
         let z : AlmSlot := if y.psn then { y with st := .failed, errv := false }
           else if dLe err 0x3FF0000000000000 then (if y.clip then taken else clipRule taken)
           else { y with tx := y.trb, trb := y.tx, h := BitVec.ofNat 64 back, clip := false, nrej := min (y.nrej + 1) 65535
                         sidx := if ab then 1 else 0, st := if dLt back y.hmin.toNat then .failed else .rejected, errv := false }
         x.kind = 2 → exec (.almanacStep ci) s = .next (after { c with a := putAlm c.a k z })))) ∧
    (∀ x r t, runs → c.almq = x :: r → x.stopped = false → almSlotStep c x (x.first + x.at_) = .error t →
      exec (.almanacStep ci) s = .next (putCore s ci { c with
        almq := { x with stopped := true } :: r
        engTraps := c.engTraps ++ [{ cl := .k, trap := { t with detail := t.detail % 64 + 64 } }] })) ∧
    (∀ h h1 h2 : Nat,
      let two := 0x4000000000000000
      let r := dDiv (dDiv h h1) two
      let s := dAdd h1 h2
      let a := dDiv (dMul h h) 0x4008000000000000
      abCoefs h h1 h2 1 = [0x3FF0000000000000] ∧ abCoefs h h1 h2 2 = [dAdd 0x3FF0000000000000 r, dNeg r] ∧
      abCoefs h h1 h2 3 =
        [dDiv (dAdd (dAdd a (dDiv (dMul (dAdd h1 s) h) two)) (dMul h1 s)) (dMul h1 s),
         dNeg (dDiv (dAdd a (dDiv (dMul s h) two)) (dMul h1 h2)), dDiv (dAdd a (dDiv (dMul h1 h) two)) (dMul s h2)]) ∧
    (∀ k, runs → c.shrun = .none →
        (List.range 16).find? (fun k => (shOf c.snap k).st == .train || (shOf c.snap k).st == .candidate) = some k →
      exec (.shepherdOperation ci) s = .next (putCore s ci { c with shrun := .running k })) ∧
    (∀ k, runs → c.shrun = .running k → (shOf c.snap k).st = .train →
      let z := shOf c.snap k
      let d := z.decl
      let ws := shWeights c (shWoff d) (shLayers d)
      let batch := (((List.range 256).filter fun p => p % 8 != 7).drop (32 * (z.tstep % 7))).take 32
      let pair := fun (g : List (List (List Nat))) (p : Nat) =>
        let o := shObuf d + p * (shNi d + shNo d) * 4
        let ps := shPass (shAct d) ws (scrWords c o (shNi d))
        let out := match ps.getLast? with | some l => l.2 | none => []
        shAccum g (shBack (shAct d) ((out.zip (scrWords c (o + 4 * shNi d) (shNo d))).map fun v => rSub v.1 v.2) ws ps) ps
      let g := batch.foldl pair (ws.map fun l => l.map fun u => u.map fun _ => 0)
      exec (.shepherdOperation ci) s = .next (putCore s ci { c with
        shrun := .trained k (g.flatMap fun l => l.flatMap fun u => u.map (BitVec.ofNat 32)) })) ∧
    (∀ k, runs → c.shrun = .running k → (shOf c.snap k).st = .candidate →
      let z := shOf c.snap k
      let d := z.decl
      let error := fun (p : Nat) =>
        let o := shObuf d + p * (shNi d + shNo d) * 4
        let l := ((shForward { c with a := c.snap } d (scrWords c o (shNi d))).zip (scrWords c (o + 4 * shNi d) (shNo d))).map fun v =>
          rSub v.1 v.2 % 2 ^ 31
        if l.any fun v => (decodeF fF32 v).isNan then 0x7F800000 else l.foldl (fun m v => if rLt m v then v else m) 0
      let es := (List.range 32).map fun j => error (8 * j + 7)
      let mean := (es.drop 1).foldl (fun m e => rFma 0x3D800000 (rSub e m) m) (nth 0 es 0)
      let pass := es.all (fun e => rLe e c.snap.shmaxe.toNat) && rLe mean c.snap.shmean.toNat
      exec (.shepherdOperation ci) s = .next (putCore s ci { c with shrun := .validated k pass (BitVec.ofNat 32 mean) })) ∧
    -- the network (R301, R302): a unit's sum from its bias, a layer, the deltas of a hidden layer, and the gradients of a pair
    (∀ (act : Bool) (b : Nat) (ws a out : List Nat) (l w : List (List Nat)) (r ls : List (List (List Nat))) (p : List Nat × List Nat) (ps : List (List Nat × List Nat)),
      unitZ (b :: ws) a = (ws.zip a).foldl (fun z x => rFma x.1 x.2 z) b ∧
      shPass act (l :: r) a = (a, l.map fun u => unitZ u a) :: shPass act r ((l.map fun u => unitZ u a).map (shF act)) ∧ shPass act [] a = [] ∧
      (shBack act out (l :: w :: ls) (p :: ps) = (p.2.zipIdx.map fun z => rMul ((w.zip (nth [] (shBack act out (w :: ls) ps) 0)).foldl
        (fun s x => rFma (nth 0 x.1 (z.2 + 1)) x.2 s) 0) (shDf act z.1)) :: shBack act out (w :: ls) ps) ∧
      shBack act out [l] [p] = [out])

/-! ## Events: copies, chains, departures, completions -/

/-- R136, R137, R175, R182, R183, R237, R238, R239, R241, R332: the next piece of the oldest inbound copy lands with its marks and arrives at
its hurdle; the next piece of the oldest outbound one is written; an aligned 8-byte word moves whole, the destination's in the step that starts
it and the source's in the step that reads it, whatever row its bytes belong to. An outbound copy whose bytes have all gone completes. A piece
that meets a line pinned by another core ends the core's own pins and is tried again. A fault freezes the core with a record to the fault
service, whose answer, in the order of the core's requests, resumes the core or, with no error waiting for a replay, ends its unit with the
fault's cause. Choices of the model that it rests on: logs 20, 21, 34, 62. -/
def Obligations.CopyEvents : Prop :=
  ∀ (s : State) (ci : Nat) (x : Copy), ci < 72 →
    let c := getCore s ci
    let n := (pieceOf x).2.2
    -- a table entry with a mark, which the walk has read at its home, stops the core as well
    let frozen := fun (t : Trap) =>
      let u := if markedWalk t.cause t.detail = true then readWalk s ci t.tval else s
      let k := getCore u ci
      modPart (putCore u ci { k with freeze := some { cause := t.cause, detail := t.detail, addr := t.tval, copy := some x.id, slot := none, err := none } })
        (partOf k) fun p => { p with svcq := p.svcq ++ [{ core := ci, svc := false, arg := t.tval }] }
    let unpinned := modArch s ci fun a => { a with pins := [] }
    let first := fun (l : List SvcReq) => l.find? fun r => r.core == ci
    let queue := (getPart s (partOf c)).svcq
    let served := fun (r : SvcReq) => modPart s (partOf c) fun p => { p with svcq := p.svcq.erase r }
    let up := (getDie s (dieOf ci)).restarting = false
    let here := ∀ p < 8, ∀ y ∈ (getPart s p).switched, y.core ≠ ci
    -- a byte that lies in one aligned word with the byte before it, and the ends of what the step writes and reads
    let total := x.rows * x.rowBytes
    let joins := fun (f : Nat → Nat) (j : Nat) => 0 < j ∧ j < total ∧ f j = f (j - 1) + 1 ∧ f j % 8 ≠ 0
    let src := if x.outb = true then scrPlace x else memPlace x
    let dst := if x.outb = true then memPlace x else scrPlace x
    let lo := wordStart x dst 8 x.done
    let hi := wordStart x dst 8 (x.done + n)
    let top := wordStart x src 8 hi
    let reads := memRuns x (lo + x.ahead.length) top
    let writes := memRuns x lo hi
    let okay := fun (k : AccessKind) (attr : Nat) (y : Word × Nat) => ∃ w, transAccess s ci y.1 k attr = .ok w
    let meets := fun (l : List (Word × Nat)) (k : AccessKind) (attr : Nat) (t : Trap) => ∃ a y r, l = a ++ y :: r ∧
      transAccess s ci y.1 k attr = .error t ∧ ∀ z ∈ a, okay k attr z
    let allowed := fun (l : List (Word × Nat)) (k : AccessKind) (attr : Nat) => ∀ y ∈ l, okay k attr y
    let pinned := fun (l : List (Word × Nat)) (k : AccessKind) (attr : Nat) =>
      (∃ t, meets l k attr t ∧ isRetry t = true) ∨
      (allowed l k attr ∧ ∃ y ∈ l, ∃ tg pa, transAccess s ci y.1 k attr = .ok (tg, pa) ∧ pinnedByOther s ci pa = true)
    let inbound := c.copies.find? (fun y => !y.outb && !y.fetcher && mayMove c y) = some x
    (∀ f e, e ≤ wordStart x f 8 e ∧ (∀ j, e ≤ j → j < wordStart x f 8 e → joins f j) ∧ ¬ joins f (wordStart x f 8 e)) ∧
    (∀ f a b, ((byteRuns f a b).flatMap fun y => (List.range y.2).map (y.1 + ·)) = (List.range (b - a)).map (fun k => f (a + k)) ∧
      ∀ y ∈ byteRuns f a b, 0 < y.2 ∧ y.1 % 128 + y.2 ≤ 128) ∧
    (copiesRun c = true → inbound →
      (∀ t, meets reads .read 1 t → isRetry t = false → exec (.copyPieceLand ci) s = .next (frozen t)) ∧
      (pinned reads .read 1 → exec (.copyPieceLand ci) s = .next unpinned) ∧
      (allowed reads .read 1 → ¬ pinned reads .read 1 →
        let r := readRuns s ci reads
        let b := x.ahead ++ r.2
        let s1 := modCore r.1 ci fun c => scrRuns c (byteRuns (scrPlace x) lo hi) (b.take (hi - lo))
        exec (.copyPieceLand ci) s = .next (modCore s1 ci fun c =>
          finishIfDone (copyMoved c { x with ahead := b.drop (hi - lo) } n) x.id))) ∧
    (here → copiesRun c = true → c.copies.find? (fun y => y.outb && !copyDone y && mayMove c y) = some x →
      (∀ t, meets writes .write 2 t → isRetry t = false → exec (.outboundCopyExecute ci) s = .next (frozen t)) ∧
      (pinned writes .write 2 → exec (.outboundCopyExecute ci) s = .next unpinned) ∧
      (allowed writes .write 2 → ¬ pinned writes .write 2 →
        let b := x.ahead ++ (List.range (top - (lo + x.ahead.length))).map fun k =>
          let o := scrPlace x (lo + x.ahead.length + k)
          (scrByte c o, (scrWord c (o / 4)).psn)
        exec (.outboundCopyExecute ci) s = .next (modCore (writeRuns s ci .write writes (b.take (hi - lo))) ci fun c =>
          copyMoved c { x with ahead := b.drop (hi - lo) } n))) ∧
    -- what the runs of a piece read and write: an outbound run goes to its home and fills a stash line, or to its window
    (∀ (t : State) (va : Word) (m : Nat) (r : List (Word × Nat)) (o : Nat) (q : List (Nat × Nat)) (k : Core) (b : List (Byte × Bool)),
      (∀ tg pa, transTarget t ci va .read = .ok (tg, pa) →
        let y := readCommitted t ci va tg m
        readRuns t ci ((va, m) :: r) = ((readRuns y.1 ci r).1, y.2.1.zip y.2.2 ++ (readRuns y.1 ci r).2)) ∧
      scrRuns k ((o, m) :: q) b = scrRuns (scrStoreMarks k o ((b.take m).map (·.1)) ((b.take m).map (·.2))) q (b.drop m) ∧
      (∀ d pa, transTarget t ci va .write = .ok (.dev d, pa) →
        let z := b.take m
        writeRuns t ci .write ((va, m) :: r) b = writeRuns (stashStore (devWrite t (some ci) (partOf (getCore t ci)) d va (z.map (·.1))
          (lineMarks d (z.map (·.2))) false) ci va d) ci .write r (b.drop m)) ∧
      (∀ tg pa, (∀ d, tg ≠ .dev d) → transTarget t ci va .write = .ok (tg, pa) →
        writeRuns t ci .write ((va, m) :: r) b =
          writeRuns (windowWrite t ci tg ((b.take m).map (·.1)) ((b.take m).map (·.2))) ci .write r (b.drop m))) ∧
    (here → copiesRun c = true → c.copies.find? (fun y => y.outb && copyDone y && (peerWritesDone c || !copyToPeer s ci y)) = some x →
      exec (.outboundCopyComplete ci) s = .next (putCore s ci (finishCopy c x))) ∧
    (∀ k : Nat,
      let k1 := if x.made < x.done + k then arriveCopy c x k else c
      copyMoved c x k = putCopy { k1 with resends := Sparse.put 0 k1.resends (8 + x.id) 0 }
        { x with done := x.done + k, made := max x.made (x.done + k) }) ∧
    (x.tile = none →
      let room := 16 - (c.copies.filter fun y => y.id != x.id).length
      finishCopy c x = completePush { c with
        copies := (c.copies.filter fun y => y.id != x.id) ++ c.backlog.take room, backlog := c.backlog.drop room } x.push (!x.open_)) ∧
    (∀ t, here → copiesRun c = true → inbound → meets reads .read 1 t → isRetry t = false →
      exec (.copyFreeze ci) s = .next (frozen t)) ∧
    (∀ f r, here → c.freeze = some f → f.err = none → first queue = some r → r.svc = false → up →
      let u := modCore (served r) ci fun c => { c with freeze := none }
      exec (.freezeResume ci) s = .next u ∧
      exec (.freezeUnresolvable ci) s = .next (endUnitAux (modCore u ci fun c =>
        let kept := c.copies.filter fun y => f.copy != some y.id
        { c with
          copies := kept ++ c.backlog.take (16 - kept.length)
          backlog := c.backlog.drop (16 - kept.length)
          chains := (match f.slot with | some k => vset c.chains k { chainOf c k with st := .fault } | none => c.chains) })
        ci f.cause f.detail (some f.addr) (match f.copy, f.slot with
          | some id, _ => (c.copies.find? fun y => y.id == id).map fun y => y.gaddr
          | none, some k => some (chainOf c k).cpc
          | none, none => none))) ∧
    (∀ d r, c.run = .svc d → first queue = some r → r.svc = true → up →
      (∀ v, exec (.faultServiceAnswer ci (some v)) s = .next (putCore (served r) ci
        (advance (wrReg { c with run := .running } d.toNat { val := v, psn := false }) .c 0))) ∧
      exec (.faultServiceAnswer ci none) s = .next (endUnit (served r) ci c.tr.cause.toNat c.tr.detail.toNat (some c.tr.tval)))

/-- R251, R252, R253, R354: a running chain slot reads the entry at its address from committed data. COPY queues a copy and moves on; POST,
FLAG, ARRIVE and END wait for the slot's copies; WAIT holds until its counter satisfies the compare value, unless the counter is the REL of a
ring whose policy acts: DROP_OLD drops the published items before the compare value, DROP_NEW skips the entries up to the POST to PUB or the
END, which gives up the item; LINK sets the address. A slot that `chain.stop` has told to stop stops where its entry completes. A marked or
malformed entry stops the slot with a trap for C, which names the entry's address, or that of its lowest marked word; a pending kick starts
once the slot has left RUN and WAIT. Choices of the model that it rests on: logs 5, 53, 60, 62. -/
def Obligations.ChainEvents : Prop :=
  ∀ (s : State) (ci k : Nat), ci < 72 → k < 4 →
    let c := getCore s ci
    let x := chainOf c k
    let set := fun (t : State) (f : Chain → Chain) => modCore t ci fun c => { c with chains := vset c.chains k (f (chainOf c k)) }
    let ends := fun (st : ChainSt) (y : Chain) =>
      if y.stopping then { y with st := .stopped, held := false, stopping := false, skip := none } else { y with st := st, held := false }
    let on := fun (y : Chain) => ends .run { y with cpc := y.cpc + 32 }
    (∀ tg pa s1 b m, enginesRun c = true → chainLive x = true → transAccess s ci x.cpc .read 1 = .ok (tg, pa) → pinnedByOther s ci pa = false →
        readCommitted s ci x.cpc tg 32 = (s1, b, m) →
      let y := entryOf b
      let t := s1
      -- an entry that has completed is no longer counted as tried again
      let sent := fun (u : State) => modCore u ci fun c => { c with resends := Sparse.put 0 c.resends (2 + k) 0 }
      let part := partOf (getCore t ci)
      let ring := fun (r : Nat) => ringOf (getPart t part) r
      let d := getCore t ci
      let sound := m.any id = false ∧ y.bad c.a = false
      let good := sound ∧ x.skip = none
      let idle := (d.copies.any fun z => z.slot == some k) = false
      let stop := fun (cause detail off : Nat) => modCore (set s1 fun z => { z with st := .fault, held := false, stopping := false }) ci fun e =>
        { e with engTraps := e.engTraps ++ [{ cl := .c, trap := mkTrap cause detail ((chainOf (getCore s1 ci) k).cpc + BitVec.ofNat 64 off) }] }
      (∀ i, m[i]? = some true → (∀ j < i, m[j]? = some false) → exec (.chainEnd ci k) s = .next (stop 0x20 3 i)) ∧
      (m.any id = false → y.bad c.a = true → exec (.chainEnd ci k) s = .next (stop 0x18 1 0)) ∧
      (good → y.op = 0 → idle → exec (.chainEnd ci k) s = .next (sent (set t (ends .done)))) ∧
      (∀ r ∈ [(Instr.chainEnd ci k, 0), (.chainPost ci k, 4), (.chainFlag ci k, 6), (.chainArrive ci k, 7)], good → y.op = r.2 → ¬ idle →
        exec r.1 s = .next (set t fun z => { z with st := .wait, held := true })) ∧
      (∀ r ∈ [(.chainCopy ci k, 1), (.chainCopy2d ci k, 2)], good → y.op = r.2 → d.copies.length < 16 →
        let w := y.toRows
        exec r.1 s = .next (sent (set (modCore t ci fun e => queueCopy e
          { id := d.nextCopy, outb := y.dir, rows := w.rows, rowBytes := w.bytes, off := w.off.toNat, gaddr := w.gaddr, lpitch := w.lpitch,
            gpitch := w.gpitch, hurdle := if y.hen then some y.hurdle else none, tile := none, fetcher := false, slot := some k, push := none,
            homes := 0, done := 0, made := 0, entry := (chainOf d k).cpc, open_ := false, fault := none }) on))) ∧
      (good → y.op = 3 → satisfied (counterOf (getPart t (partOf d)) y.ring) y.d1 = true → exec (.chainWait ci k) s = .next (sent (set t on))) ∧
      (good → y.op = 3 → satisfied (counterOf (getPart t (partOf d)) y.ring) y.d1 = false → relRing (getPart t (partOf d)) y.ring = none →
        exec (.chainWait ci k) s = .next (set t fun z => { z with st := .wait })) ∧
      (∀ r, good → y.op = 3 → satisfied (counterOf (getPart t part) y.ring) y.d1 = false → relRing (getPart t part) y.ring = some r →
        ((ring r).policy ≠ 1 → (ring r).policy ≠ 2 → exec (.chainWait ci k) s = .next (set t fun z => { z with st := .wait })) ∧
        ((ring r).policy = 2 →
          let u := dropOld t part r y.d1
          exec (.chainWait ci k) s = .next (if satisfied (counterOf (getPart u part) y.ring) y.d1 then sent (set u on)
            else set u fun z => { z with st := .wait })) ∧
        ((ring r).policy = 1 → exec (.chainWait ci k) s = .next (sent (set t fun z => { on z with skip := some (r, y.d1 + (ring r).capm1.toNat) })))) ∧
      (∀ r n, sound → x.skip = some (r, n) →
        (y.op = 0 → idle → exec (.chainEnd ci k) s = .next (sent (set (dropNew t part r n) fun z => { ends .done z with skip := none }))) ∧
        (y.op = 4 → y.ring = (ring r).pubc.toNat → exec (.chainPost ci k) s = .next (sent (set (dropNew t part r n) fun z => { on z with skip := none }))) ∧
        (y.op = 4 → y.ring ≠ (ring r).pubc.toNat → exec (.chainPost ci k) s = .next (sent (set t on))) ∧
        (y.op = 5 → exec (.chainLink ci k) s = .next (sent (set t fun z => { z with cpc := BitVec.ofNat 64 y.d1, st := .run }))) ∧
        (∀ o ∈ [(Instr.chainCopy ci k, 1), (.chainCopy2d ci k, 2), (.chainWait ci k, 3), (.chainFlag ci k, 6), (.chainArrive ci k, 7)], y.op = o.2 →
          exec o.1 s = .next (sent (set t on)))) ∧
      (∀ r n, dropNew t part r n = addCounter (modRing t part r fun z =>
        { z with dropped := natInsert n z.dropped, drops := (z.drops + 1) % 2 ^ 64 }) part (ring r).pubc.toNat 1) ∧
      (∀ r n, let z := ring r
        let ahead := (n % 2 ^ 24 + 2 ^ 24 - z.clm % 2 ^ 24) % 2 ^ 24
        let items := (List.range (min ahead ((counterOf (getPart t part) z.pubc.toNat).toNat - z.clm))).map (z.clm + ·)
        let fresh := items.filter fun i => !z.dropped.contains i
        let u := modRing t part r fun z => { z with
          clm := z.clm + ahead, drops := (z.drops + fresh.length) % 2 ^ 64, dropped := fresh.foldl (fun l i => natInsert i l) z.dropped
          finished := items.foldl (fun l i => natInsert i l) z.finished }
        (ahead = 0 ∨ 2 ^ 23 ≤ ahead → dropOld t part r n = t) ∧
        (0 < ahead → ahead < 2 ^ 23 → dropOld t part r n = releaseItems u part r (ringOf (getPart u part) r).finished.length)) ∧
      (good → y.op = 4 → idle → exec (.chainPost ci k) s = .next (sent (set (addCounter t (partOf d) y.ring (BitVec.ofNat 64 y.d1)) on))) ∧
      (good → y.op = 5 → exec (.chainLink ci k) s = .next (sent (set t fun z => { z with cpc := BitVec.ofNat 64 y.d1, st := .run }))) ∧
      (good → y.op = 6 → idle → exec (.chainFlag ci k) s = .next (sent (set (modCore t ci fun e => scrStore e y.d2 (natBytes 8 y.d1) false) on))) ∧
      (good → y.op = 7 → idle → exec (.chainArrive ci k) s = .next (sent (set (modCore t ci fun e =>
        arriveExt e y.hurdle (if y.d1 = 0 then 1 else y.d1)) on)))) ∧
    -- the read of the entry faults, or meets a line that another core has pinned (R182, R241)
    (∀ t, enginesRun c = true → chainLive x = true → transAccess s ci x.cpc .read 1 = .error t →
      let u := if markedWalk t.cause t.detail = true then readWalk s ci t.tval else s
      let e := getCore u ci
      exec (.chainEnd ci k) s = .next (if isRetry t = true then modArch s ci fun a => { a with pins := [] }
        else modPart (putCore u ci { e with freeze := some { cause := t.cause, detail := t.detail, addr := t.tval, copy := none, slot := some k, err := none } })
          (partOf e) fun p => { p with svcq := p.svcq ++ [{ core := ci, svc := false, arg := t.tval }] })) ∧
    (∀ tg pa, enginesRun c = true → chainLive x = true → transAccess s ci x.cpc .read 1 = .ok (tg, pa) → pinnedByOther s ci pa = true →
      exec (.chainEnd ci k) s = .next (modArch s ci fun a => { a with pins := [] })) ∧
    (∀ a, enginesRun c = true → chainLive x = false → x.kick = some a →
      exec (.pendingKickStart ci k) s = .next (set s fun _ =>
        { cpc := a, st := .run, kick := none, held := false, stopping := false, skip := none }))

/-- R249, R250, R255, R256, R178, R184, R248, R127, R343: what leaves a core once the outbound copies before it have completed, in entry
order, and what comes back to it: atomic results, acknowledgements and refusals of peer writes, remote arrivals, steal requests and their
answers, which go to the unit that has asked, wherever it is by then. A peer write lands when the peer performs it; a refused one never does. An
arrival to a peer waits for the peer writes released before it, and leaves on a port whose link is up. Choices of the model that it rests on: logs 4, 30,
33, 34, 43, 56. -/
def Obligations.DepartureEvents : Prop :=
  ∀ (s : State) (ci : Nat), ci < 72 →
    let c := getCore s ci
    let part := partOf c
    let up := (getDie s (dieOf ci)).restarting = false
    let here := ∀ p < 8, ∀ y ∈ (getPart s p).switched, y.core ≠ ci
    (∀ x r, here → c.departing = x :: r → copiesRun c = true → up →
      let early := (c.copies ++ c.backlog).any fun y => y.outb && y.slot.isNone && decide (y.id < x.after)
      let left := fun (e : Core) => { e with departing := e.departing.drop 1, resends := Sparse.put 0 e.resends 0 0 }
      let s1 := putCore s ci (left c)
      (early = true → exec (.postDeparture ci) s = .next s ∧ exec (.qpostDelivery ci) s = .next s) ∧
      (∀ i v, early = false → x.entry = .sigadd i v → exec (.postDeparture ci) s = .next (addSignal s1 part i v)) ∧
      (∀ i v, early = false → x.entry = .ringadd i v → exec (.postDeparture ci) s = .next (addCounter s1 part i v)) ∧
      (∀ k a, early = false → x.entry = .kick k a → exec (.postDeparture ci) s = .next (modCore s1 ci fun e =>
        let y := if chainLive (chainOf e k) then { chainOf e k with kick := some a }
          else { cpc := a, st := .run, kick := none, held := false, stopping := false, skip := none }
        { e with chains := vset e.chains k y })) ∧
      (∀ v n u, early = false → x.entry = .arrive v n → c.unit = some u → bitOf v 27 = false → exec (.postDeparture ci) s = .next
        (modCore s1 (36 * (v.toNat / 2 ^ 22 % 2) + v.toNat / 2 ^ 16 % 2 ^ 6) fun e =>
          { e with arrivals := e.arrivals ++ [(v.toNat % 1024, n, identOf u)] })) ∧
      (∀ v n u, early = false → x.entry = .arrive v n → c.unit = some u → bitOf v 27 = true →
        (peerWritesDone c = false → exec (.postDeparture ci) s = .next s) ∧
        (∀ q, peerWritesDone c = true → openPort s (dieOf ci) = some q → exec (.postDeparture ci) s = .next { s with
          cores := (putCore s ci { left c with outst := c.outst ++ [.peerArrive (v.toNat / 2 ^ 24 % 2 ^ 3) q] }).cores
          outbox := s.outbox ++ [.tetherArrive (v.toNat / 2 ^ 24 % 2 ^ 3) (36 * (v.toNat / 2 ^ 22 % 2) + v.toNat / 2 ^ 16 % 2 ^ 6)
            (v.toNat % 1024) n (identOf u)] }) ∧
        (peerWritesDone c = true → openPort s (dieOf ci) = none →
          exec (.postDeparture ci) s = .next (refusedBy s1 ci (v.toNat / 2 ^ 24 % 2 ^ 3) v))) ∧
      (∀ q p s2, early = false → x.entry = .post q p →
        (deliver s part q p = (s2, .retry) ∨ deliver s part q p = (s2, .pinned) → exec (.qpostDelivery ci) s = .next s2) ∧
        (∀ z ∈ [Accept.accepted, .abort, .unsupported], deliver s part q p = (s2, z) →
          exec (.qpostDelivery ci) s = .next (modCore s2 ci left)))) ∧
    (here → c.freeze = none →
      let got := fun (o : Outstanding) => { c with outst := c.outst.erase o }
      let put := fun (e : Core) (k : Nat) (v : BitVec 128) (p : Bool) => putCore s ci { e with
        a := if k < e.a.nextRes then e.a else { e.a with res := vset e.a.res k { val := v, psn := p, pend := false } }
        ext := e.ext ++ [.result k v p] }
      (∀ k v, c.outst.find? Outstanding.isHost = some (.hostAtomic k v) →
        exec (.hostAtomicopCompletion ci false) s = .next (put (got (.hostAtomic k v)) k v false) ∧
        exec (.hostAtomicopCompletion ci true) s = .next (logErr (put (got (.hostAtomic k v)) k 0 true) part ci ((openWord s 5).toNat % 64) 0 none none 0)) ∧
      (∀ k v p, c.outst.find? Outstanding.isAtomic = some (.homeAtomic k v p) →
        exec (.peerAtomicCompletion ci) s = .next (put (got (.homeAtomic k v p)) k v p)) ∧
      (∀ m q k v p, c.outst.find? Outstanding.isAtomic = some (.peerAtomic m q k v p) →
        exec (.peerAtomicCompletion ci) s = .next (put (got (.peerAtomic m q k v p)) k v p)) ∧
      (let refused := fun (t : State) (e : Core) (m : Nat) (a : Word) => Host.Outcome.next (logErr (putCore t ci { e with
          unit := c.unit.map fun u => { u with err := some (0x36, m) } }) part ci 0x36 m (some a) none 0)
       -- a write lands in the peer's memory when the peer performs it, by its acknowledgement at the latest; one that is refused never does
       (∀ m q k b psn d, c.outst.find? Outstanding.isPeerWrite = some (.peerWrite m q k b psn d) →
         exec (.peerWriteAck ci) s = .next (putCore (if d then s else { s with
           peerMem := memWrite s.peerMem k b, peerPoison := markWords s.peerPoison k psn }) ci (got (.peerWrite m q k b psn d)))) ∧
       (∀ m q k b psn, c.outst.find? Outstanding.refusable = some (.peerWrite m q k b psn false) →
         exec (.peerRefused ci) s = refused s (got (.peerWrite m q k b psn false)) m (BitVec.ofNat 64 (k % 2 ^ 52))) ∧
       (∀ m q, c.outst.find? Outstanding.isPeerWrite = some (.peerArrive m q) →
         exec (.peerWriteAck ci) s = .next (putCore s ci (got (.peerArrive m q)))) ∧
       (∀ m q, c.outst.find? Outstanding.refusable = some (.peerArrive m q) →
         exec (.peerRefused ci) s = refused s (got (.peerArrive m q)) m (openWord s 10)) ∧
       (∀ m q k b psn d, Outstanding.refusable (.peerWrite m q k b psn d) = !d) ∧
       (∀ m, (getCore (landPeer s ci m) ci).outst.any (fun o => match o with | .peerWrite n _ _ _ _ false => n == m | _ => false) = false)) ∧
      (∀ h n u r, c.arrivals = (h, n, identOf u) :: r → c.unit = some u → c.run ≠ .retired →
        exec (.remoteHurdleArrival ci) s = .next (modCore (putCore s ci
          { c with arrivals := r, resends := Sparse.put 0 c.resends 1 0 }) ci fun e => arriveExt e h n)) ∧
      (∀ j p r, c.inbox = (j, p) :: r →
        let s1 := putCore s ci { c with inbox := r, resends := Sparse.put 0 c.resends 6 0 }
        (sameLaunch c j = true → c.a.req = none → takesSteals c.run = true → exec (.stealRequestArrival ci) s = .next
          (modCore s1 ci fun e => { e with a := { e.a with req := some j }, ext := e.ext ++ [.request j] })) ∧
        ((sameLaunch c j && c.a.req.isNone && takesSteals c.run) = false → exec (.stealRequestArrival ci) s = .next (sendAnswer s1 j none))) ∧
      -- an answer goes to the unit that has asked: in this core, switched out, or by now in another core
      (∀ u z r, c.answers = (u, z) :: r →
        let s1 := putCore s ci { c with answers := r, resends := Sparse.put 0 c.resends 7 0 }
        let ev : ExtEv := match z with | some (lo, hi) => .grantGot lo hi | none => .stealRefused
        let out := (getPart s u.part).switched
        ∀ x ∈ [(Instr.stealGrant ci, true), (.stealRefusal ci, false)],
          (z.isSome ≠ x.2 → exec x.1 s = .next s) ∧
          (z.isSome = x.2 → holdsUnit c u = true →
            (c.run = .retired → exec x.1 s = .next s) ∧
            (c.run ≠ .retired → c.a.pend = false → exec x.1 s = .next s1) ∧
            (∀ lo hi, c.run ≠ .retired → c.a.pend = true → z = some (lo, hi) → exec x.1 s = .next (modCore s1 ci fun e =>
              { e with ext := e.ext ++ [ev], a := { e.a with rcur := lo, rend := hi, grant := true, pend := false } })) ∧
            (c.run ≠ .retired → c.a.pend = true → z = none → exec x.1 s = .next (modCore s1 ci fun e =>
              { e with ext := e.ext ++ [ev], a := { e.a with refused := true, pend := false } }))) ∧
          (∀ p y q, z.isSome = x.2 → holdsUnit c u = false → out = p ++ y :: q → (∀ w ∈ p, awaitsAnswer u w = false) →
            awaitsAnswer u y = true → y.held.length < 4096 → exec x.1 s = .next (discardMany (modPart s1 u.part fun e =>
              { e with switched := p ++ { y with held := y.held ++ [ev] } :: q }) u.part 0)) ∧
          (z.isSome = x.2 → holdsUnit c u = false → out.any (awaitsAnswer u) = false →
            (∀ j, unitAt s u = some j → holdsUnit (getCore s j) u = true → exec x.1 s = .next (sendAnswer s1 u z)) ∧
            (∀ j, unitAt s u = some j → holdsUnit (getCore s j) u = false → exec x.1 s = .next s1) ∧
            (unitAt s u = none → exec x.1 s = .next s1))) ∧
      (∀ u z, (∀ j, unitAt s u = some j → sendAnswer s u z = modCore s j fun e => { e with answers := e.answers ++ [(u, z)] }) ∧
        (∀ j < 72, holdsUnit (getCore s j) u = true → ∃ i, unitAt s u = some i ∧ holdsUnit (getCore s i) u = true)))

/-- R262, R263, R264, R270, R271, R272: a detected error discards the open region, counts an attempt and restores the snapshot, with the
deltas applied again, or on the last attempt retires the core; on a frozen core it waits, with the source of the first report; an error
outside any region is sent again up to three times; a retired core's unit goes to a free core of its partition; after a lost snapshot or die each unit that
it held resumes from its durable record, is queued again where nothing has committed, or ends with CORE_RETIRED or DIE_LOST. Choices of the
model that it rests on: logs 33 (what does nothing), 34, 47. -/
def Obligations.ErrorEvents : Prop :=
  ∀ (s : State) (ci j src : Nat), ci < 72 → j < 72 →
    let c := getCore s ci
    (src ≤ 5 → c.run = .running → c.unit.isSome = true → c.freeze = none → exec (.detectedErrorReplay ci src) s = .next
      (replayRegion (modCore (withdraw (sourceRecord s ci src) (partOf c) ci) ci fun e => { e with run := .running }) ci src)) ∧
    (∀ f, src ≤ 5 → c.run = .running → c.unit.isSome = true → c.freeze = some f →
      exec (.detectedErrorReplay ci src) s = .next (putCore s ci { c with freeze := some { f with err := some (f.err.getD src) } })) ∧
    (c.rtryCount < c.rtryMax →
      let r := replayRegion s ci src
      let c' := getCore r ci
      c'.rtryCount = c.rtryCount + 1 ∧ c'.rtryTotal = min (c.rtryTotal + 1) 65535 ∧ c'.snap = c.snap ∧ c'.scratch = c.scratch ∧ c'.cbuf = [] ∧
        c'.mxq = [] ∧ c'.walk = none ∧ c'.vigils = [] ∧ c'.almq = [] ∧ (∀ x ∈ c'.copies, x.open_ = true → x ∈ c.backlog) ∧ (c.ext = [] → c'.a = c.snap) ∧
        r.mem = s.mem ∧ ∀ k, k ≠ ci → getCore r k = getCore s k) ∧
    (c.rtryMax ≤ c.rtryCount →
      let r := replayRegion s ci src
      (getCore r ci).run = .retired ∧ (getCore r ci).unit = c.unit ∧ (getCore r ci).cbuf = [] ∧ ci ∈ r.retiredCores ∧ r.mem = s.mem) ∧
    (∀ piece, (∀ p < 8, ∀ y ∈ (getPart s p).switched, y.core ≠ ci) →
      let work := copiesRun c = true ∧ (if piece = 0 then c.departing ≠ [] else if piece = 1 then c.arrivals ≠ []
        else if piece < 6 then chainLive (chainOf c (piece - 2)) = true else if piece = 6 then c.inbox ≠ [] else if piece = 7 then c.answers ≠ []
        else ∃ x ∈ c.copies, x.open_ = false ∧ 8 + x.id = piece)
      let n := Sparse.get 0 c.resends piece
      let src := (openWord s 6).toNat % 4
      (¬ work → exec (.outOfRegionError ⟨ci, piece⟩) s = .next s) ∧
      (work → n < 3 → exec (.outOfRegionError ⟨ci, piece⟩) s = .next (putCore s ci { c with resends := Sparse.put 0 c.resends piece (n + 1) })) ∧
      (work → 3 ≤ n → exec (.outOfRegionError ⟨ci, piece⟩) s = .next (retireCore (logErr (withdraw
        (putCore s ci (discardRegion { c with resends := Sparse.put 0 c.resends piece 0 })) (partOf c) ci) (partOf c) ci 0x21 src none none 0) ci src))) ∧
    (∀ u, c.run = .retired → c.unit = some u → (freeCores s u.part (dieOf ci)).contains j = true →
      let old := { c with unit := none, copies := [], backlog := [], departing := [], outst := [], adopter := some j }
      let s1 := modCore (putCore s ci old) j fun d => loadImage { d with scratch := (adoptImage c).scratch, badScr := [] } (adoptImage c)
      exec (.unitAdoption ci j) s = .next (noteClaim s s1 j)) ∧
    (∀ u, c.run ≠ .retired → c.unit = some u →
      let s1 := refuseTaken (retireCore (withdraw s u.part ci) ci 0) c
      exec (.snapshotStoreError ci) s = .next (failUnit (modCore s1 ci fun e => { leftCore e with
        run := .retired, freeze := none, moved := some (refOf u) }) ci u true 0x22 0 false)) ∧
    -- the table of R271: a usable record, else no commit so far, else the cause in the unit's completion
    (∀ t i u usable cause detail record,
      let none_ := ∀ r, usable = true → durableOf (getPart t u.part) u ≠ some r
      (∀ r, usable = true → durableOf (getPart t u.part) u = some r →
        failUnit t i u usable cause detail record = putAside t (recordImage t r u) i) ∧
      (none_ → u.committed = false → failUnit t i u usable cause detail record = requeueUnit t i u) ∧
      (none_ → u.committed = true → failUnit t i u usable cause detail record =
        unitEnded (if record then logErr t u.part i cause detail none none 0 else t) u i cause detail)) ∧
    -- the record's image (R273): its values, the tiles EMPTY with their descriptors, stores of zeros, LOCALW clear
    (∀ (t : State) (r : Durable) (u : UnitInfo), let i := recordImage t r u
      i.unit = some { u with committed := true, localw := 0 } ∧ i.a.regs = r.snap.regs ∧ i.a.masks = r.snap.masks ∧ i.a.pc = r.snap.pc ∧
      (∀ x ∈ i.a.tiles, x.2.st = .empty) ∧ i.a.tiles.map (fun x => (x.1, x.2.desc)) = r.snap.tiles.map (fun x => (x.1, x.2.desc)) ∧
      i.snap = i.a ∧ i.scratch = Core.zero.scratch ∧ i.stash = []) ∧
    -- a failed die: each of its units goes under that table, its record usable while LOCALW of the die is clear, and else DIE_LOST
    (src < 2 → (∀ p < 8, (getPart s p).switched = []) → ∃ t : State,
      failDie s src = ((List.range 36).filterMap fun i => let k := getCore s (36 * src + i); k.unit.map fun u => (36 * src + i, u)).foldl
        (fun z x => failUnit z x.1 x.2 (!bitOf x.2.localw src) 0x25 src true) t ∧
      (getDie t src).up = false ∧ (∀ i < 36, (getCore t (36 * src + i)).unit = none) ∧
      ∀ k < 72, k / 36 ≠ src → (getCore t k).unit = (getCore s k).unit ∧ (getCore t k).a.regs = (getCore s k).a.regs) ∧
    (∀ u l, launchOf (getPart s u.part) u.launch = some l → l.cancelled = none →
      let n := match (if l.standing then l.items.find? fun x => x.1 % pUnits l.pkt == u.index else none) with | some x => x.1 | none => u.index
      let s1 := modLaunch s u.part l.id fun x => { x with todo := natInsert n x.todo, live := x.live.erase u.index }
      requeueUnit s ci u = pushCands s1 [{ candOf s1 u.part l n with arrive := u.arrive, cosched := false }]) ∧
    (src < 2 → (getDie s src).up = true → (getDie s (1 - src)).up = true → exec (.dieFailover src) s = .next (failDie s src))

/-! ## Events: the package, the host and the peers -/

/-- R339, R362, R366, R374 to R383: heat, power and boost; time and memory upkeep; alarms; package reset, firmware restart and update, and
function-level reset. At most one domain of a die runs at 2.5 GHz; an erase alarm leaves no key; a package reset leaves memory empty and
everything that flash holds as it was. A function-level reset scrubs its partition's cores and changes no state of another (R340). Choices of the
model that it rests on: logs 1, 2, 4, 38, 39, 40, 41, 49. -/
def Obligations.PackageEvents : Prop :=
  ∀ (s : State) (d part n func ver : Nat) (w : Nat) (slew : Int) (key : BitVec 64) (fail : List Nat)
    (mv lower : Option Nat), d < 2 → part < 8 →
    let die := getDie s d
    let other := getDie s (1 - d)
    let work := min s.workLimit (lower.getD s.workLimit)
    let limit := min s.powerCeiling work
    let up := min 15 (die.gate + 1)
    (die.up = true → exec (.thermalTrip d) s = .next (failDie s d)) ∧
    (exec (.thermalThrottle d) s = .next (modDie s d fun x => { x with thrt := true, gate := max 1 x.gate })) ∧
    (exec (.thermalThrottleEnd d) s = .next (modDie s d fun x => { x with thrt := false, gate := if x.pwrg then x.gate else 0 })) ∧
    (s.dtime.toNat / 4000 < die.estimates → exec (.powerEstimate d ⟨w, lower⟩) s = .next s) ∧
    (die.estimates ≤ s.dtime.toNat / 4000 → ∃ t, exec (.powerEstimate d ⟨w, lower⟩) s = .next t ∧ (getDie t d).watts = w ∧ getDie t (1 - d) = other ∧
      t.workLimit = work ∧ (getDie t d).estimates = s.dtime.toNat / 4000 + 1 ∧
      (limit < w + other.watts → (getDie t d).noBoost = true ∧ (die.noBoost = false → die.thrt = false → (getDie t d).gate = die.gate)) ∧
      (limit < w → die.noBoost = true → (getDie t d).gate = up ∧ (getDie t d).pwrg = true) ∧
      (w + other.watts ≤ limit → die.thrt = false → (getDie t d).gate ≤ die.gate)) ∧
    (s.boostAt < s.dtime.toNat / 4000 → ∃ t, exec .boostInterval s = .next t ∧ t.boostAt = s.boostAt + 1 ∧ t.mem = s.mem ∧
      ¬ ((getDie t d).west.step = 2 ∧ (getDie t d).east.step = 2) ∧ ((getDie s d).thrt = true → (getDie t d).west.step = 0 ∧ (getDie t d).east.step = 0)) ∧
    (slew.natAbs ≤ 100 → s.timeMaster = false → exec (.dtimeSync slew) s = .next { s with slew := slew }) ∧
    (s.timeMaster = true ∨ 100 < slew.natAbs → exec (.dtimeSync slew) s = .next s) ∧
    (inDevice s (n * 256) = true → lostMem s (n * 256) = false → s.poisoned.contains n = false →
      (Sparse.get none s.faulty n = none → exec (.patrolScrub n) s = .next s) ∧
      (Sparse.get none s.faulty n = some .corrected → exec (.patrolScrub n) s = .next { s with
        faulty := Sparse.put none s.faulty n none, corrected := s.corrected + 1 }) ∧
      (Sparse.get none s.faulty n = some .uncorrectable → exec (.patrolScrub n) s = .next (logErr s (openPart s)
        (firmwareCore s (homeDie s (n * 256))) 0x3B 0 (some (BitVec.ofNat 64 (n * 256))) (some 0) 2)) ∧
      (∀ corr, Sparse.get none s.faulty n = some (.tagMismatch corr) → exec (.patrolScrub n) s = .next (countMismatch (logErr s (openPart s)
        (firmwareCore s (homeDie s (n * 256))) 0x3A 0 (some (BitVec.ofNat 64 (n * 256))) (some 0) (if corr then 1 else 0)) (openPart s)
        (firmwareCore s (homeDie s (n * 256)))))) ∧
    (1 ≤ n → n ≤ 56 → exec (.mirroredSizeSet n) s = .next { s with mirroredNext := n }) ∧
    (∃ t, exec .glitchDetect s = .next t ∧ t.alarm = .erase ∧ t.keysValid = false ∧ t.attKey = false ∧
      (∀ p < 8, (getPart t p).ownerKeys = []) ∧ t.mem = s.mem) ∧
    ((getPart s part).ownerKeys.contains key = false → exec (.ownerProvisioning part key) s = .next (modPart { s with attKey := true } part fun p =>
      { p with ownerKeys := p.ownerKeys ++ [key] })) ∧
    (∃ t, exec (.packageReset fail) s = .next t ∧ t.mem = [] ∧ t.hostMem = s.hostMem ∧ t.peerMem = s.peerMem ∧ t.cores = State.reset.cores ∧
      t.retiredCores = s.retiredCores ∧ t.minVersion = s.minVersion ∧ t.flashVersion = s.flashVersion ∧ t.flashValid = s.flashValid ∧
      t.mirroredGiB = s.mirroredNext ∧ t.keyEpoch = s.keyEpoch + 1 ∧
      (getDie t d).bellwether = choosePair s.retiredCores fail d ∧ (s.flashValid = true → s.minVersion ≤ s.flashVersion →
        t.alarm = .none ∧ t.attKey = s.attKey ∧ vget t.fwImage none d = some s.flashVersion ∧ (getDie t d).recovery = false) ∧
      (s.flashValid = false ∨ s.flashVersion < s.minVersion → t.alarm = .erase ∧ t.attKey = false ∧ vget t.fwImage none d = none ∧
        (getDie t d).recovery = true ∧ (getDie t d).dispatchOn = false)) ∧
    (die.up = true → die.restarting = false → (∀ t, die.lastRestart = some t → t + 1000000000 < s.dtime.toNat) →
      exec (.firmwareRestart d fail) s = .next (modDie s d fun x =>
        { x with dispatchOn := false, restarting := true, lastRestart := some s.dtime.toNat })) ∧
    (die.up = true → die.restarting = false → (getDie s (1 - d)).up = true →
      (∃ t, die.lastRestart = some t ∧ s.dtime.toNat ≤ t + 1000000000) → exec (.firmwareRestart d fail) s = .next (failDie s d)) ∧
    (die.up = true → die.restarting = true → restartReady s d = false → exec (.firmwareRestart d fail) s = .next s) ∧
    (die.up = true → die.restarting = true → restartReady s d = true → ∃ t, exec (.firmwareRestart d fail) s = .next t ∧
      (s.flashValid = true → s.minVersion ≤ s.flashVersion → ∀ k, die.bellwether = some k → 36 * d + k ∉ fail → 36 * d + k - 1 ∉ fail →
        (getDie t d).bellwether = some k ∧ (getDie t d).dispatchOn = true ∧ (getDie t d).restarting = false ∧ t.retiredCores = s.retiredCores) ∧
      (s.flashValid = false ∨ s.flashVersion < s.minVersion → t.alarm = .erase ∧ (getDie t d).recovery = true ∧ (getDie t d).dispatchOn = false)) ∧
    (s.minVersion ≤ ver →
      exec (.firmwareUpdate ver mv .written) s = .next { s with
        flashValid := true, flashVersion := ver, minVersion := max s.minVersion (mv.getD 0) } ∧
      exec (.firmwareUpdate ver mv .lost) s = .next { s with flashValid := false } ∧
      exec (.firmwareUpdate ver mv .refused) s = .next s) ∧
    (ver < s.minVersion → exec (.firmwareUpdate ver mv .written) s = .next s) ∧
    (∀ q p, ownedPart s func = some p → q < 64 → p < 8 →
      ((getPart s p).resetting = false → ∃ t, exec (.flrOwner func) s = .next t ∧ (getPart t p).resetting = true ∧
        (queueOf (getPart t p) q).st = .reset ∧ (getPart t p).launches = [] ∧ (getPart t p).gangs = [] ∧ t.mem = s.mem ∧
        -- the units of the partition end, and nothing of another partition changes (R340)
        (∀ k < 72, let o := getCore s k
          (o.unit.isSome = true → partOf o = p → (getCore t k).unit = none ∧ (getCore t k).copies = [] ∧ (getCore t k).departing = [] ∧
            (getCore t k).cbuf = []) ∧
          (o.unit = none ∨ partOf o ≠ p → getCore t k = { o with
            inbox := o.inbox.filter (fun x => x.1.part != p), answers := o.answers.filter (fun x => x.1.part != p)
            arrivals := o.arrivals.filter fun x => x.2.2 % 8 != p })) ∧
        (∀ k < 8, k ≠ p → getPart t k = getPart s k)) ∧
      ((getPart s p).resetting = true → ∃ t, exec (.flrOwner func) s = .next t ∧ (getPart t p).resetting = false ∧
        -- the partition's cores are scrubbed, the others lose its translations only, and so do the die caches with its lines (R339, R340)
        (∀ k < 72,
          let o := getCore s k
          let keep := fun (x : TlbEntry) => x.part != p
          let c1 := { o with tlb1 := o.tlb1.filter keep, tlb2 := o.tlb2.filter keep, preempt := (if o.preempt = some p then none else o.preempt)
                             asker := if o.preempt = some p then none else o.asker }
          (inMask (getPart s p) k = true → o.unit = none →
            (∀ r < 64, rdReg (getCore t k) r = { val := 0, psn := false }) ∧ (getCore t k).ost = [] ∧ (getCore t k).scratch = [] ∧
            (getCore t k).chunkDirty = 0 ∧ (getCore t k).snap = (getCore t k).a ∧ (getCore t k).sstore = [] ∧ (getCore t k).stash = [] ∧
            (getCore t k).l1 = [] ∧ (getCore t k).tlb1 = c1.tlb1 ∧ (getCore t k).tlb2 = c1.tlb2) ∧
          (inMask (getPart s p) k = false ∨ o.unit.isSome = true → getCore t k = c1)) ∧
        (∀ k < 8, k ≠ p → getPart t k = getPart s k) ∧
        (∀ l ∈ (getDie t d).dcache, l.part ≠ p) ∧
        (∀ l ∈ die.dcache, l.part ≠ p → (∀ y ∈ die.dcache, y.part = p → y.line / 2 ≠ l.line / 2) → l ∈ (getDie t d).dcache) ∧
        (queueOf (getPart t p) q).st = .stopped ∧ (queueOf (getPart t p) q).head = 0 ∧
        (queueOf (getPart t p) q).tail = 0 ∧ (getPart t p).signals = [] ∧ (getPart t p).ringCtrs = [] ∧ (getPart t p).errlog = [] ∧
        (∀ h < 64, (vget (getPart t p).segs Seg.zero h).v = false) ∧ (getPart t p).fen = 0xFF ∧ t.mem = s.mem)) ∧
    (ownedPart s func = none → exec (.flrQueueFunction func) s = .next ((List.range 8).foldl (fun s p =>
      if (getPart s p).queueFuncs.contains func then resetQueues s func p else s) s))

/-- R5, R337, R339, R342, R353, R357, R368 to R373, R178, R182, R184, R338, R341, R380, R391, R393 to R395, R408: the Tether ports and
interrupts, what the host writes to registers, the PF's status page, and the accesses of the host and of gang peers to memory; an access that
is not allowed is refused, one that meets a pinned line is tried again, and both leave the rest as it was. A load request: the image chosen,
its placement and its handles, and the result record. Model's choices: one order of the doorbells of all partitions, and a request that waits,
are log 44; that the master's own slew becomes 0 is log 39; the status page's form and its reading under an alarm are log 63; log 12 (a base
with no place). It rests on logs 4, 9, 33, 42, 43 and 62 as well. -/
def Obligations.HostEvents : Prop :=
  ∀ (s : State) (d port part i q func m n pa : Nat) (v : BitVec 256) (fen addr bell : BitVec 64) (a52 : BitVec 52) (data : List Byte) (acc : PeerAccess)
    (sv : Word) (idx : BitVec 12) (op : AmoOp) (cmp val : BitVec 128), d < 2 → port < 4 → part < 8 → i < 8 → q < 64 → func < 17 → m < 8 →
    let x := tetherPort (getDie s d) port
    let p := getPart s part
    let dq := queueOf p q
    let say := fun (t : State) (o : OutMsg) => { t with outbox := t.outbox ++ [o] }
    (x.up = true →
      let k := Sparse.get 0 x.retries n
      (k < 8 → ∃ t, exec (.flitCrcFailure d ⟨port, n⟩) s = .next t ∧ t.mem = s.mem ∧
        tetherPort (getDie t d) port = { x with retries := Sparse.put 0 x.retries n (k + 1) }) ∧
      (8 ≤ k → exec (.flitCrcFailure d ⟨port, n⟩) s = .next (failLink s d port))) ∧
    (x.up = false → x.failed = false → x.since.toNat + 10000 ≤ s.dtime.toNat → exec (.linkTrainingTimeout d port) s = .next (failLink s d port)) ∧
    (s.dtime.toNat < x.since.toNat + 10000 → exec (.linkTrainingTimeout d port) s = .next s) ∧
    (tetherPort (getDie (failLink s d port) d) port = { up := false, failed := true, retries := [], since := s.dtime }) ∧
    (∃ t, exec (.linkTrainingComplete d port) s = .next t ∧ t.mem = s.mem ∧
      tetherPort (getDie t d) port = { up := true, failed := false, retries := [], since := x.since } ∧
      (∀ o < 4, o ≠ port → tetherPort (getDie t d) o = tetherPort (getDie s d) o)) ∧
    (∃ t, exec (.hostRegisterWrite (.queueDesc part q) v) s = .next t ∧
      (dq.st ≠ .stopped → dq.st ≠ .unmapped → queueOf (getPart t part) q = dq) ∧
      (dq.st = .stopped ∨ dq.st = .unmapped → queueOf (getPart t part) q = { dq with
        asn := BitVec.ofNat 16 (fieldOf v 139 16), func := fieldOf v 134 5, ien := bitOf v 133, homedie := fieldOf v 132 1,
        dataPlane := bitOf v 131, part := fieldOf v 128 3, cplbase := BitVec.ofNat 64 (fieldOf v 76 52 * 4096),
        ringbase := BitVec.ofNat 64 (fieldOf v 12 52 * 4096),
        log2n := if 4 ≤ fieldOf v 0 5 ∧ fieldOf v 0 5 ≤ 16 then fieldOf v 0 5 else dq.log2n })) ∧
    (∃ t, exec (.hostRegisterWrite (.hostWindow part q) v) s = .next t ∧
      let w := vget (getPart t part).hostWin 0 q
      let old := vget p.hostWin 0 q
      fieldOf w 0 4 = fieldOf v 0 4 ∧ fieldOf w 76 52 = fieldOf v 76 52 ∧ fieldOf w 9 23 = 0 ∧ fieldOf w 38 38 = 0 ∧
      fieldOf w 4 5 = (if fieldOf v 4 5 ≤ 16 then fieldOf v 4 5 else fieldOf old 4 5) ∧
      fieldOf w 32 6 = (if 12 ≤ fieldOf v 32 6 ∧ fieldOf v 32 6 ≤ 42 then fieldOf v 32 6 else fieldOf old 32 6)) ∧
    (∃ t, exec (.hostRegisterWrite (.peerEntry part i) v) s = .next t ∧
      let w := vget (getPart t part).peerWin 0 i
      let old := vget p.peerWin 0 i
      fieldOf w 0 11 = fieldOf v 0 11 ∧ fieldOf w 11 21 = 0 ∧ fieldOf w 38 26 = 0 ∧ fieldOf w 116 12 = 0 ∧
      fieldOf w 64 52 = (if fieldOf v 112 4 ≤ 2 then fieldOf v 64 52 else fieldOf old 64 52) ∧
      fieldOf w 32 6 = (if 12 ≤ fieldOf v 32 6 ∧ fieldOf v 32 6 ≤ 48 then fieldOf v 32 6 else fieldOf old 32 6)) ∧
    (exec (.hostRegisterWrite (.pctl part) v) s = .next (modPart s part fun p =>
      { p with boosten := bitOf v 8, weight := if 1 ≤ fieldOf v 0 7 ∧ fieldOf v 0 7 ≤ 64 then fieldOf v 0 7 else p.weight })) ∧
    (∃ t, exec (.hostRegisterWrite (.coreMask part d) v) s = .next t ∧
      ∀ k < 36, inMask (getPart t part) (36 * d + k) = (bitOf v k && isUserCore s (36 * d + k))) ∧
    (exec (.hostRegisterWrite (.trapSegment part) v) s = .next (modPart s part fun p =>
      { p with trapSeg := if bitOf v 6 then some (BitVec.ofNat 6 (fieldOf v 0 6)) else none })) ∧
    (exec (.hostRegisterWrite (.retryMax part) v) s = .next (if fieldOf v 0 3 = 0 then s
      else modPart s part fun p => { p with rtrymax := fieldOf v 0 3 })) ∧
    (exec (.hostRegisterWrite (.saveArea part) v) s = .next (modPart s part fun p => { p with saveArea := BitVec.ofNat 64 (fieldOf v 0 64) })) ∧
    (let taken := fun (f : Nat) => (∃ k < 8, k ≠ part ∧ (getPart s k).owner = f) ∨ ∃ k < 8, (getPart s k).queueFuncs.contains f = true
     (¬ taken func → exec (.hostRegisterWrite (.partOwner part) (BitVec.ofNat 256 func)) s = .next (modPart s part fun p => { p with owner := func })) ∧
     (taken func → exec (.hostRegisterWrite (.partOwner part) (BitVec.ofNat 256 func)) s = .next s) ∧
     (¬ taken func → func ≠ 0 → p.owner ≠ func → bitOf v 0 = true → exec (.hostRegisterWrite (.queueFunction part func) v) s = .next
       (modPart s part fun p => { p with queueFuncs := natInsert func p.queueFuncs })) ∧
     (taken func ∨ func = 0 ∨ p.owner = func → bitOf v 0 = true → exec (.hostRegisterWrite (.queueFunction part func) v) s = .next s) ∧
     (bitOf v 0 = false → exec (.hostRegisterWrite (.queueFunction part func) v) s = .next
       (modPart s part fun p => { p with queueFuncs := p.queueFuncs.filter (· != func) }))) ∧
    (exec (.hostRegisterWrite (.apertureSpace func) v) s = .next { s with apertures := vset s.apertures func (BitVec.ofNat 16 (fieldOf v 0 16)) }) ∧
    (exec (.hostRegisterWrite .timeMaster v) s = .next { s with timeMaster := bitOf v 0, slew := if bitOf v 0 then 0 else s.slew }) ∧
    (exec (.hostRegisterWrite .almcfg v) s = .next { s with intthr := if fieldOf v 0 8 = 0 then s.intthr else fieldOf v 0 8 }) ∧
    (exec (.hostRegisterWrite .powerCeiling v) s = .next { s with
      powerCeiling := if 300 ≤ v.toNat ∧ v.toNat ≤ 600 then v.toNat else s.powerCeiling }) ∧
    (unitCores s part = [] → p.switched = [] → exec (.fenWrite part fen) s = .next (modPart s part fun p => { p with fen := fen &&& 0xFF })) ∧
    (unitCores s part ≠ [] → exec (.fenWrite part fen) s = .next s) ∧
    (let r := ringOf p q
     (counterOf p r.pubc.toNat = counterOf p r.relc.toNat → ∃ t, exec (.ringEnable part q) s = .next t ∧
       ringOf (getPart t part) q = { r with en := true, clm := (counterOf p r.pubc.toNat).toNat, drops := 0, dropped := [], finished := [] }) ∧
     (counterOf p r.pubc.toNat ≠ counterOf p r.relc.toNat → exec (.ringEnable part q) s = .next s)) ∧
    -- the aperture: the walk reads its table entries at their homes, and a line that a core pins, of a table or of the bytes, is tried again
    (let acc := fun (k : AccessKind) => match k with | .write => HostAccess.write data | _ => .read n
     let walked := apertureWalk s part func addr
     (ownedPart s func = some part → endpointsOpen s = true → p.resetting = false → 1 ≤ n → addr.toNat % 4096 + n ≤ 4096 →
       hostPart s func addr n = some part) ∧
     (∀ k ∈ [AccessKind.read, .write], data.length = n →
       (hostPart s func addr n = none → exec (.hostMemoryAccess func addr (acc k)) s = .next (say s (.hostRefused func))) ∧
       (hostPart s func addr n = some part →
         (aperturePinned s part func addr k = true → exec (.hostMemoryAccess func addr (acc k)) s = .next s) ∧
         (aperturePinned s part func addr k = false → apertureAddr s part func addr k = none →
           exec (.hostMemoryAccess func addr (acc k)) s = .next (say walked (.hostRefused func))) ∧
         (aperturePinned s part func addr k = false → apertureAddr s part func addr k = some pa → rangePinned s pa n = true →
           exec (.hostMemoryAccess func addr (acc k)) s = .next s) ∧
         (aperturePinned s part func addr k = false → apertureAddr s part func addr k = some pa → rangePinned s pa n = false →
           (k = .write → exec (.hostMemoryAccess func addr (.write data)) s = .next (writeDevice walked part pa none data)) ∧
           (∀ t mark, k = .read → 1 ≤ n → n ≤ 128 - pa % 128 → touchSector walked part (36 * homeDie walked pa) none pa n 0 = (t, mark) →
             exec (.hostMemoryAccess func addr (.read n)) s = .next (say t (.hostRead func (memBytes t.mem pa n) mark))))))) ∧
    -- the PF's status page, under an alarm too
    (let status := fun (r : StatusReg) => exec (.hostMemoryAccess 0 addr (.status r)) s
     let shows := fun (r : StatusReg) (w : Nat) => status r = .next (say s (.hostRead 0 (natBytes 8 w) false))
     let g := ringOf p q
     ((∃ e < 2, (getDie s e).endpointUp = true) →
       shows (.malformed part) (p.malformed % 2 ^ 64) ∧ shows (.discard part) (p.discard % 2 ^ 64) ∧ shows (.outLaunch part) (p.outLaunch % 2 ^ 64) ∧
       shows (.outGraph part) (p.outGraph % 2 ^ 64) ∧ shows (.outPhase part) (p.outPhase % 2 ^ 64) ∧ shows (.outJob part) (p.outJob % 2 ^ 64) ∧
       shows (.ringClm part q) (g.clm % 2 ^ 64) ∧ shows (.ringRsv part q) (g.rsv % 2 ^ 64) ∧ shows (.ringDrops part q) (g.drops % 2 ^ 64) ∧
       shows .almcfg s.intthr ∧ shows .ldstat (s.ldLast.toNat * 2 ^ 32 + s.ldDone.toNat)) ∧
     (∀ r, func ≠ 0 → exec (.hostMemoryAccess func addr (.status r)) s = .next (say s (.hostRefused func)))) ∧
    (portalPart s func q = none → ∀ off read, exec (.hostMemoryAccess func addr (.portal q off n read)) s = .next (say s (.unsupported func q))) ∧
    (portalPart s func q = some part →
      let status := dq.tail % 2 ^ 32 * 2 ^ 32 + min (2 ^ dq.log2n - (dq.tail - dq.head)) 65535 * 2 ^ 16 + (if dq.lref then 128 else 0) +
        16 * (match dq.st with
          | .active => 0 | .waiting => 1 | .stopped => 2 | .fetchFault => 3 | .unmapping => 4 | .unmapped => 5 | .reset => 6)
      exec (.hostMemoryAccess func addr (.portal q 0x080 8 true)) s = .next (say s (.hostRead func (natBytes 8 status) false)) ∧
      (∀ off, ¬ (off = 0x080 ∧ n = 8) → exec (.hostMemoryAccess func addr (.portal q off n true)) s = .next (say s (.unsupported func q))) ∧
      (∀ off, ¬ ((off = 0x000 ∨ off = 0x040) ∧ n = 64) → off ≠ 0x0C0 →
        exec (.hostMemoryAccess func addr (.portal q off n false)) s = .next (say s (.unsupported func q)))) ∧
    (∀ r, endpointsOpen s = true → n < 1024 → p.errlog[n]? = some r → exec (.hostMemoryAccess 0 addr (.errlog part n)) s = .next (say s
      (.hostRead 0 (natBytes 8 (errDword r 0).toNat ++ natBytes 8 r.time.toNat ++ natBytes 8 r.addr.toNat ++ natBytes 8 r.aux.toNat) false))) ∧
    (func ≠ 0 → exec (.hostMemoryAccess func addr (.errlog part n)) s = .next (say s (.hostRefused func))) ∧
    (p.resetting = true → exec (.tetherPeerAccess m part acc) s = .next (say s (.tetherRefused m))) ∧
    (p.resetting = false →
      (memberMay p m 1 = false → exec (.tetherPeerAccess m part (.read a52 n)) s = .next (say s (.tetherRefused m))) ∧
      (memberMay p m 2 = false → exec (.tetherPeerAccess m part (.write a52 data)) s = .next (say s (.tetherRefused m))) ∧
      (memberMay p m 3 = false → exec (.tetherPeerAccess m part (.atomic a52 op n cmp val)) s = .next (say s (.tetherRefused m))) ∧
      (∀ t mark, memberMay p m 1 = true → deviceRange s a52.toNat n = true → 1 ≤ n → n ≤ 128 - a52.toNat % 128 →
        rangePinned s a52.toNat n = false → touchSector s part (36 * homeDie s a52.toNat) none a52.toNat n 0 = (t, mark) →
        exec (.tetherPeerAccess m part (.read a52 n)) s = .next (say t (.tetherReply m (memBytes t.mem a52.toNat n) mark))) ∧
      (memberMay p m 2 = true → deviceRange s a52.toNat data.length = true → exec (.tetherPeerAccess m part (.write a52 data)) s =
        .next (if rangePinned s a52.toNat data.length then s else say (writeDevice s part a52.toNat none data) (.tetherReply m [] false))) ∧
      (∀ t mark, memberMay p m 3 = true → deviceRange s a52.toNat n = true → rangePinned s a52.toNat n = false →
        touchSector s part (36 * homeDie s a52.toNat) none a52.toNat n 0 = (t, mark) →
        let old := leNat (memBytes t.mem a52.toNat n)
        (mark = false → exec (.tetherPeerAccess m part (.atomic a52 op n cmp val)) s = .next (say (match amoNew op n old cmp.toNat val.toNat with
          | some r => writeDevice t part a52.toNat none (natBytes n r)
          | none => t) (.tetherReply m (natBytes n old) false))) ∧
        (mark = true → exec (.tetherPeerAccess m part (.atomic a52 op n cmp val)) s = .next (say (logErr t part (36 * homeDie s a52.toNat) 0x20 2
          (some (BitVec.ofNat 64 a52.toNat)) none 0) (.tetherReply m (natBytes n 0) true)))) ∧
      (∀ core h k id, exec (.tetherPeerAccess m part (.arrive core h k id)) s = .next (modCore s core fun c =>
        { c with arrivals := c.arrivals ++ [(h, k, id)] })) ∧
      exec (.tetherPeerAccess m part (.signal idx sv)) s = .next (addSignal s part idx.toNat sv)) ∧
    (exec (.loaderDoorbell bell) s = .next { s with doorbells := s.doorbells ++ [bell] }) ∧
    -- a load request (R393): no record, or the record with its status; the loader waits for a pinned line and for a unit that holds its handle
    (∀ r, s.doorbells = bell :: r →
      let u := { s with doorbells := r }
      let rq := fieldOf bell 0 52
      let lp := fieldOf bell 56 3
      let core := firmwareCore u (homeOf u 0)
      let t := (touchSector u lp core none rq 32 0).1
      let dw := fun (k : Nat) => leNat (memBytes t.mem (rq + 8 * k) 8)
      let named := fieldOf bell 52 4 = 0 ∧ fieldOf bell 59 5 = 0 ∧ rq % 32 = 0 ∧ deviceRange u rq 32 = true
      let placed := homeMarked t lp (rq + 24) 8 = false ∧ dw 3 < 2 ^ 52 ∧ dw 3 % 16 = 0 ∧ deviceRange t (dw 3) 80 = true
      (¬ named → exec .loadRequest s = .next (endRequest u 12)) ∧
      (named → ¬ placed → exec .loadRequest s = .next (endRequest u 12)) ∧
      (∀ z y, named → placed → runRequest t lp core rq dw = (z, y) →
        let waits := loadWaits u lp y = true ∨ rangePinned u rq 32 = true ∨ rangePinned u (dw 3) 80 = true
        (waits → exec .loadRequest s = .next s) ∧
        (∀ l, ¬ waits → y.result = .ok l → exec .loadRequest s = .next (endRequest (writeDevice z lp (dw 3) none
          (natBytes 1 0 ++ natBytes 1 y.image ++ natBytes 2 0 ++ natBytes 4 0 ++ natBytes 8 0 ++ l.map (BitVec.ofNat 8) ++
            List.replicate (64 - l.length) 0xFF)) 0)) ∧
        (∀ f, ¬ waits → y.result = .error f → exec .loadRequest s = .next (endRequest (writeDevice z lp (dw 3) none
          (natBytes 1 f.status ++ natBytes 1 y.image ++ natBytes 2 0 ++ natBytes 4 f.detail ++ natBytes 8 0 ++
            List.replicate 64 0xFF)) f.status))) ∧
      (∀ k, k < 3 → (∀ j < k, homeMarked t lp (rq + 8 * j) 8 = false) → homeMarked t lp (rq + 8 * k) 8 = true →
        runRequest t lp core rq dw = (t, { image := 0xFF, result := .error { status := 10, detail := (rq + 8 * k) % 2 ^ 32 } })) ∧
      ((∀ j < 3, homeMarked t lp (rq + 8 * j) 8 = false) →
        (dw 2 / 2 ^ 16 ≠ lp → runRequest t lp core rq dw = (t, { image := 0xFF, result := .error { status := 11, detail := 2 } })) ∧
        (dw 2 / 2 ^ 16 = lp → runRequest t lp core rq dw = loadObject t { part := lp, asn := BitVec.ofNat 16 (dw 2), core := core }
          (BitVec.ofNat 64 (dw 0)) (BitVec.ofNat 64 (dw 1))))) ∧
    (∀ c, (endRequest s c).ldLast = BitVec.ofNat 8 c ∧ (endRequest s c).ldDone = s.ldDone + 1 ∧ (0, 64) ∈ (endRequest s c).msixPending ∧
      (endRequest s c).mem = s.mem) ∧
    -- the object, the image chosen, and the load of it (R394, R395)
    (∀ (e : LoadEnv) (obj arr : Word) (s1 s2 : State) (head b : List Byte), readHost s e obj 32 = (s1, .ok head) →
      readHost s1 e obj (objLen head) = (s2, .ok b) → 32 ≤ objLen head →
      let image := fun (k : Nat) => objTable b + 32 * k
      let cs := (List.range (objImages b)).filter fun k => imageOk b (image k)
      let lacks := fun (k : Nat) => BitVec.ofNat 64 (imgNeed b (image k)) &&& ~~~(getPart s2 e.part).fen
      let bits := fun (k : Nat) => bitCount (imgNeed b (image k))
      let fails := fun (st detail : Nat) => loadObject s e obj arr = (s2, { image := 0xFF, result := .error { status := st, detail := detail } })
      (∀ o, headerBad b = some o → fails 1 o) ∧
      (headerBad b = none →
        (cs = [] → fails 2 0) ∧
        (∀ k l, cs = k :: l → (∀ j ∈ cs, lacks j ≠ 0) → fails 3 ((lacks k).toNat % 2 ^ 32)) ∧
        (∀ k ∈ cs, lacks k = 0 → (∀ j ∈ cs, lacks j = 0 → j ≠ k → imgMinor b (image j) < imgMinor b (image k) ∨
            (imgMinor b (image j) = imgMinor b (image k) ∧ (bits j < bits k ∨ (bits j = bits k ∧ k < j)))) →
          let y := loadImageOf s2 e b arr (image k)
          loadObject s e obj arr = (y.1, { image := k, result := y.2 })))) ∧
    (∀ (e : LoadEnv) (b : List Byte) (arr : Word) (img : Nat),
      let offs := segOffs b img
      let segs := offs.map (segRec b)
      let free := (List.range 64).filter fun h => !(vget (getPart s e.part).segs Seg.zero h).v
      let load := loadImageOf s e b arr img
      let installed : SegRec → Nat → Seg := fun r base =>
        { base := BitVec.ofNat 64 base, len := BitVec.ofNat 32 r.clen, gate := BitVec.ofNat 32 r.gate, toff := BitVec.ofNat 32 r.toff
          eoff := BitVec.ofNat 32 r.eoff, fw := false, sys := r.sys, ev := r.ev, v := true }
      (∀ f, checkRecords b img = some f → load = (s, .error f)) ∧
      (checkRecords b img = none → free.length < segs.length → load = (s, .error { status := 6, detail := free.length })) ∧
      (∀ s1 a, checkRecords b img = none → segs.length ≤ free.length → readHost s e arr (8 * segs.length) = (s1, .ok a) →
        let bases := (List.range segs.length).map fun j => natAt a (8 * j) 8
        let at' := segs.zip bases
        codeRetry s1 e at' = false →
        (∀ j, (List.range segs.length).find? (placeBad s1 e segs bases) = some j → ∃ t, load = (t, .error { status := 7, detail := j })) ∧
        ((List.range segs.length).find? (placeBad s1 e segs bases) = none →
          (∀ s2 f, placeAll s1 e b at' = (s2, .error f) → load = (s2, .error f)) ∧
          (∀ s2 s3 f, placeAll s1 e b at' = (s2, .ok ()) → verifyAll s2 e b img 0 (offs.zip at') = (s3, .error f) → load = (s3, .error f)) ∧
          (∀ s2 s3, placeAll s1 e b at' = (s2, .ok ()) → verifyAll s2 e b img 0 (offs.zip at') = (s3, .ok ()) →
            load = (modPart s3 e.part fun p => { p with
              segs := (free.zip at').foldl (fun v x => vset v x.1 (installed x.2.1 x.2.2)) p.segs }, .ok (free.take segs.length))))) ∧
      (∀ (bases : List Nat) (j a : Nat) (g : SegRec), segs[j]? = some g → bases[j]? = some a →
        (placeBad s e segs bases j = false ↔ a % 32768 = 0 ∧ a < 2 ^ 56 ∧
          (∀ h < 64, let o := vget (getPart s e.part).segs Seg.zero h
            o.v = true → a + g.msize ≤ o.base.toNat ∨ o.base.toNat + o.len.toNat ≤ a) ∧
          (∀ k w, k ≠ j → segs[k]? = some w → a + g.msize ≤ nth 0 bases k ∨ nth 0 bases k + w.msize ≤ a) ∧
          (∀ va ∈ codeVas g a, ∃ leaf sz l, loadWalk s e va = .ok (leaf, sz, l) ∧ codeLeaf leaf = true)))) ∧
    (s.doorbells = [] → exec .loadRequest s = .next s) ∧
    (nextMsix s func = none → exec (.msixMessage func) s = .next s) ∧
    (∀ y, nextMsix s func = some y →
      (s.dtime.toNat / 1000 + 1 ≤ Sparse.get 0 s.msixLast func → exec (.msixMessage func) s = .next s) ∧
      (Sparse.get 0 s.msixLast func < s.dtime.toNat / 1000 + 1 → exec (.msixMessage func) s = .next (say { s with
        msixPending := s.msixPending.erase y, msixLast := Sparse.put 0 s.msixLast func (s.dtime.toNat / 1000 + 1) } (.msix y.1 y.2))))

/-! ## Events: queues and dispatch -/

/-- R342 to R344, R348 to R352, R358, R359: what a queue answers to a delivered packet, the host's transitions of its state, the fetch at
its head, and the packets that act there. A held head makes the queue WAITING; a head that acts leaves the queue. What holds a head: its
barrier, an unsatisfied wait, or a full graph table. A NODE enters the graph table, and is a candidate once none of its predecessors is held
there. Choices of the model that it rests on: logs 4, 27, 33, 59, 62. -/
def Obligations.QueueEvents : Prop :=
  ∀ (s : State) (part q func : Nat) (pkt : BitVec 512), part < 8 → q < 64 →
    let x := queueOf (getPart s part) q
    let at' := fun (t : State) => queueOf (getPart t part) q
    let say := fun (t : State) (m : OutMsg) => { t with outbox := t.outbox ++ [m] }
    let bad := modPart s part fun y => { y with malformed := (y.malformed + 1) % 2 ^ 64 }
    let s0 := retryLaunches s part q
    let x0 := queueOf (getPart s0 part) q
    (portalPart s func q = none →
      exec (.portalDmwr func q pkt) s = .next (say s (.unsupported func q)) ∧
      exec (.portalPostedWrite func q pkt) s = .next (say s (.unsupported func q)) ∧
      exec (.portalWake func q) s = .next (say s (.unsupported func q))) ∧
    (portalPart s func q = some part →
      (x.st = .unmapping → exec (.portalWake func q) s = .next (modQueue s part q fun y => { y with pw := true })) ∧
      (x.st = .unmapped → exec (.portalWake func q) s = .next (modQueue (say s (.wakeNotice part q)) part q fun y => { y with pw := true })) ∧
      (x.st ≠ .unmapping → x.st ≠ .unmapped → exec (.portalWake func q) s = .next s) ∧
      (x.st = .reset →
        exec (.portalDmwr func q pkt) s = .next (say s (.unsupported func q)) ∧
        exec (.portalPostedWrite func q pkt) s = .next (modQueue s part q fun y => { y with lref := true })) ∧
      (x.st ≠ .reset → packetBad s part x.dataPlane pkt = true →
        exec (.portalDmwr func q pkt) s = .next (say bad (.dmwrAbort func q)) ∧
        exec (.portalPostedWrite func q pkt) s = .next (modQueue bad part q fun y => { y with lref := true })) ∧
      (x.st ≠ .reset → packetBad s part x.dataPlane pkt = false → x.st = .fetchFault ∨ 2 ^ x.log2n ≤ x.tail - x.head →
        exec (.portalDmwr func q pkt) s = .next (say s (.dmwrRetry func q)) ∧
        exec (.portalPostedWrite func q pkt) s = .next (modQueue s part q fun y => { y with lref := true })) ∧
      (x.st ≠ .reset → packetBad s part x.dataPlane pkt = false → x.st ≠ .fetchFault → x.tail - x.head < 2 ^ x.log2n →
        let va := x.ringbase + BitVec.ofNat 64 (64 * (x.tail % 2 ^ x.log2n))
        (queuePinned s part x va .write = true → exec (.portalDmwr func q pkt) s = .next s ∧ exec (.portalPostedWrite func q pkt) s = .next s) ∧
        (queuePinned s part x va .write = false → queueAddr s part x va .write = none →
          exec (.portalDmwr func q pkt) s = .next (say (queueFault (queueWalk s part x va) part q va) (.dmwrRetry func q)) ∧
          exec (.portalPostedWrite func q pkt) s = .next (modQueue (queueFault (queueWalk s part x va) part q va) part q fun y =>
            { y with lref := true })) ∧
        (∀ pa, queueAddr s part x va .write = some pa →
          (queuePinned s part x va .write = false →
            let s1 := wakeQueue (modQueue (devWrite (queueWalk s part x va) none part pa va (natBytes 64 pkt.toNat) 0 false) part q fun x =>
              { x with tail := x.tail + 1, open_ := x.open_ ++ [x.tail] }) part q
            exec (.portalDmwr func q pkt) s = .next (say s1 (.dmwrOk func q)) ∧
            exec (.portalPostedWrite func q pkt) s = .next (modQueue s1 part q fun y => { y with lref := false }))))) ∧
    (∀ va, (at' (queueFault s part q va)).st = (match x.st with | .active | .waiting => .fetchFault | st => st)) ∧
    (x.st = .fetchFault ∨ x.st = .stopped ∧ mappedQueues s (homeOf s x.homedie) < 128 → ∃ t, exec (.queueActivate part q) s = .next t ∧
      (at' t).st = (if headHeld s part q then .waiting else .active) ∧ t.mem = s.mem) ∧
    (x.st = .unmapped → mappedQueues s (homeOf s x.homedie) < 128 → ∃ t, exec (.queueActivate part q) s = .next t ∧ (at' t).pw = false ∧
      ((at' t).st = .waiting ∨ (at' t).st = .active)) ∧
    (x.st = .stopped ∨ x.st = .unmapped → 128 ≤ mappedQueues s (homeOf s x.homedie) → exec (.queueActivate part q) s = .next s) ∧
    (x.st = .active ∨ x.st = .waiting → exec (.queueStop part q) s = .next (modQueue s part q fun y => { y with st := .stopped })) ∧
    (x.st = .active ∨ x.st = .waiting ∨ x.st = .stopped →
      exec (.queueUnmap part q) s = .next (modQueue s part q fun y => { y with st := .unmapping })) ∧
    (x.st = .unmapping → ∃ t, exec (.queueUnmapped part q) s = .next t ∧ (at' t).st = .unmapped ∧
      t.outbox = if x.pw then s.outbox ++ [.wakeNotice part q] else s.outbox) ∧
    ((∀ l ∈ (getPart s part).launches, launchDone l = false) → s0 = s) ∧
    (x0.st = .waiting → headHeld s0 part q = false → exec (.headConditionSatisfied part q) s = .next (modQueue s0 part q fun y =>
      { y with st := .active, heldPkt := if y.started then none else y.heldPkt, started := false })) ∧
    (x0.st ≠ .waiting ∨ headHeld s0 part q = true → exec (.headConditionSatisfied part q) s = .next s0) ∧
    (x0.st ≠ .active ∨ x0.heldPkt.isSome = true ∨ x0.tail ≤ x0.head → exec (.queueFetch part q) s = .next s0) ∧
    (x0.st = .active → x0.heldPkt = none → x0.head < x0.tail →
      let va := x0.ringbase + BitVec.ofNat 64 (64 * (x0.head % 2 ^ x0.log2n))
      (queuePinned s0 part x0 va .read = true → exec (.queueFetch part q) s = .next s0) ∧
      (queuePinned s0 part x0 va .read = false → queueAddr s0 part x0 va .read = none →
        exec (.queueFetch part q) s = .next (queueFault (queueWalk s0 part x0 va) part q va)) ∧
      (∀ pa s1 mark, queueAddr s0 part x0 va .read = some pa →
        touchSector (queueWalk s0 part x0 va) part (36 * homeOf s0 x0.homedie) none pa 64 va = (s1, mark) →
        (queuePinned s0 part x0 va .read = false → mark = true → exec (.queueFetch part q) s = .next (queueFault s1 part q va)) ∧
        (queuePinned s0 part x0 va .read = false → mark = false →
          let got := BitVec.ofNat 512 (leNat (memBytes s1.mem pa 64))
          let s2 := modQueue s1 part q fun y => { y with head := y.head + 1 }
          (packetBad s2 part x0.dataPlane got = true → exec (.queueFetch part q) s = .next (finishPacket (modPart s2 part fun y =>
            { y with malformed := (y.malformed + 1) % 2 ^ 64 }) part q x0.head)) ∧
          (packetBad s2 part x0.dataPlane got = false → exec (.queueFetch part q) s = .next (modQueue s1 part q fun y =>
            { y with head := y.head + 1, heldPkt := some got, heldSeq := y.head, started := false }))))) ∧
    (∀ p, x.heldPkt = some p → x.st = .active → x.started = false →
      (headHeld s part q = true ↔
        let sat := fun i => satisfied (signalOf (getPart s part) (fieldOf p (64 + 36 * i) 12)) (fieldOf p (76 + 36 * i) 24)
        (bitOf p 8 = true ∧ ∃ n ∈ x.open_, n < x.heldSeq) ∨ (pType p = 3 ∧ ∃ i < pNsig p, sat i = false) ∨
        (pType p = 4 ∧ ∀ i < pNsig p, sat i = false) ∨ (pType p = 2 ∧ 2048 ≤ (getDie s (homeOf s x.homedie)).graph.length)) ∧
      (∀ r ∈ [(0, Instr.nopPacket part q), (1, .launchPacket part q), (2, .nodePacket part q), (3, .waitAllPacket part q),
          (4, .waitAnyPacket part q), (5, .signalPacket part q), (6, .cancelPacket part q), (7, .gangPacket part q)],
        (pType p ≠ r.1 → exec r.2 s = .next s) ∧
        (pType p = r.1 → headHeld s part q = true → exec r.2 s = .next (modQueue s part q fun y => { y with st := .waiting }))) ∧
      (headHeld s part q = false →
        let past := passHead s part q
        (pType p = 0 → exec (.nopPacket part q) s = .next past) ∧
        (pType p = 3 → exec (.waitAllPacket part q) s = .next past) ∧
        (pType p = 4 → exec (.waitAnyPacket part q) s = .next past) ∧
        (pType p = 5 → exec (.signalPacket part q) s = .next (if bitOf p 76 then addCounter past part (fieldOf p 64 12 % 256) (BitVec.ofNat 64 (pDword p 2))
          else addSignal past part (fieldOf p 64 12) (BitVec.ofNat 64 (pDword p 2)))) ∧
        (pType p = 6 → exec (.cancelPacket part q) s = .next (((getPart past part).launches.filter (cancelNames p)).foldl (fun s l =>
          match launchOf (getPart s part) l.id with
          | some l => cancelLaunch s part (fieldOf p 64 3) l
          | none => s) past)) ∧
        (let l := newLaunch s part q p
         let s1 := addLaunch s part l
         (pType p = 1 → exec (.launchPacket part q) s = .next (holdHead (pushCands s1 (l.todo.map (candOf s1 part l))) part q)) ∧
         -- a NODE enters its graph's table and leaves the head; one whose predecessors have completed is a candidate at once
         (pType p = 2 →
           let d := homeOf s x.homedie
           let n : GNode := { part := part, graph := fieldOf p 16 16, nodeid := fieldOf p 244 12
                              preds := (List.range (fieldOf p 240 3)).map fun i => fieldOf p (192 + 12 * i) 12, launch := l.id, ready := false }
           exec (.nodePacket part q) s = .next (modQueue (readyNodes (modDie s1 d fun y => { y with graph := y.graph ++ [n] }) d) part q fun y =>
             { y with heldPkt := none, started := false })) ∧
         (pType p = 7 →
           let early := (getPart s part).gangEarly.filter fun m => m.1 == pGangId p
           let g : Gang := { gangid := pGangId p, members := pMembers p, self := pSelf p, tick := pTick p, launch := l.id, confirms := 0, gos := 0, nogos := 0, missing := 0, sent := false, reserved := [] }
           let s2 := modPart s1 part fun y =>
             { y with gangs := y.gangs ++ [early.foldl (fun g m => g.hear m.2.1 m.2.2) g], gangEarly := y.gangEarly.filter fun m => m.1 != pGangId p }
           let free := (freeCores s2 part 0 ++ freeCores s2 part 1).take l.units
           (free.length = l.units → exec (.gangPacket part q) s = .next (holdHead (reserveGang (holdCores s2 (resvKey part l.id) free) part l g) part q)) ∧
           (free.length ≠ l.units → exec (.gangPacket part q) s = .next (holdHead (pushCands s2 (l.todo.map (candOf s2 part l))) part q)))))) ∧
    -- the nodes of a die that become ready: no NODE of their graph that PRED names is held in the table any more (R349)
    (∀ d < 2,
      let y := getDie s d
      let isReady := fun (n : GNode) => n.preds.all fun i => y.graph.all fun m => !(m.part == n.part && m.graph == n.graph && m.nodeid == i)
      let s1 := modDie s d fun z => { z with graph := z.graph.map fun n => { n with ready := n.ready || isReady n } }
      readyNodes s d = pushCands s1 ((y.graph.filter fun n => !n.ready && isReady n).flatMap fun n =>
        match launchOf (getPart s1 n.part) n.launch with
        | some l => l.todo.map (candOf s1 n.part l)
        | none => [])) ∧
    (∀ (l : Launch) (i : Nat), let k := candOf s part l i
      k.part = part ∧ k.launch = l.id ∧ k.index = i ∧ k.prio = fieldOf l.pkt 10 2 ∧ k.arrive = s.dtime.toNat ∧ k.queue = l.queue ∧ k.seq = l.seq ∧
      k.aged = false ∧ k.resume = false ∧ k.aff = (if l.node then ((List.range 4).map fun j => BitVec.ofNat 32 (fieldOf l.pkt (256 + 32 * j) 32)).filter
        (· != 0) else [])) ∧
    (∀ (k : Cand) (l : List Cand), pushCands s (k :: l) = pushCands (modDie s k.homedie fun y => { y with cands := y.cands ++ [k] }) l)

/-- R104, R121, R278, R333 to R335, R354 to R357, R360: a gang's messages, its decision at TICK − 2 µs and its release at TICK; the dispatch
choice, aged candidates and standing launches' claims; the values that a unit starts with and its item record; a unit's completion, and what
the completion of a launch does, with its record; pre-emption and the context switch. A free core takes the first
candidate of the partition that it serves, a unit completes only once everything that it issued has completed, and what a switched-out unit
has committed goes on without its core. Choices of the model that it rests on: logs 28, 29, 30, 33, 52, 56. -/
def Obligations.DispatchEvents : Prop :=
  ∀ (s : State) (part ci id m q index : Nat) (msg : GangMsg), part < 8 → ci < 72 → m < 8 → q < 64 →
    let c := getCore s ci
    let p := getPart s part
    (p.gangs.find? (fun g => g.gangid == id) = none → exec (.gangMessageReceive part id m msg) s = .next (modPart s part fun p =>
      { p with gangEarly := p.gangEarly ++ [(id, m, msg)] })) ∧
    (∀ g, p.gangs.find? (fun g => g.gangid == id) = some g →
      (∃ t, exec (.gangMessageReceive part id m .confirm) s = .next t ∧ t = modGang s part id fun g => { g with confirms := putBit g.confirms m true }) ∧
      (∃ t, exec (.gangMessageReceive part id m .go) s = .next t ∧ t = modGang s part id fun g => { g with gos := putBit g.gos m true }) ∧
      (∀ mask, exec (.gangMessageReceive part id m (.nogo mask)) s = .next (modGang s part id fun g =>
        { g with nogos := putBit g.nogos m true, missing := g.missing ||| mask })) ∧
      (s.dtime.toNat + 2000 < g.tick → exec (.gangGoDecision part id) s = .next s) ∧
      (g.sent = false → g.tick ≤ s.dtime.toNat + 2000 →
        let others := fun (x : GangMsg) => ((List.range 8).filter fun i => bitOf g.members i && i != g.self).map fun i => OutMsg.gang i g.gangid x
        let say := fun (t : State) (x : GangMsg) => { t with outbox := t.outbox ++ others x }
        (g.members &&& ~~~g.confirms = 0 → linkFailed s part g = true → exec (.gangGoDecision part id) s = .next
          (modGang s part id fun g => { g with sent := true })) ∧
        (g.members &&& ~~~g.confirms = 0 → linkFailed s part g = false → exec (.gangGoDecision part id) s = .next (say
          (modGang s part id fun g => { g with sent := true, gos := putBit g.gos g.self true }) .go)) ∧
        (g.members &&& ~~~g.confirms ≠ 0 → exec (.gangGoDecision part id) s = .next (say (modGang s part id fun y =>
          { y with sent := true, nogos := putBit y.nogos y.self true, missing := y.missing ||| (g.members &&& ~~~g.confirms) })
          (.nogo (g.members &&& ~~~g.confirms))))) ∧
      (s.dtime.toNat < g.tick → exec (.gangRelease part id) s = .next s) ∧
      (g.tick ≤ s.dtime.toNat → ∀ l, launchOf p g.launch = some l →
        let s1 := modPart s part fun p => { p with gangs := p.gangs.filter fun x => x.gangid != id }
        let miss := g.members &&& ~~~g.gos
        (miss = 0 → (segOf s part (pSeg l.pkt)).v = true →
          exec (.gangRelease part id) s = .next (startTogether s1 part l l.arrive (resvCoresOf s1 (resvKey part l.id)))) ∧
        (miss ≠ 0 → exec (.gangRelease part id) s = .next (failLaunch s1 part l
          (0, 0, 0x34, if g.missing = 0 then lowestMember miss else lowestMember g.missing))))) ∧
    (freeUser s ci = false → exec (.dispatch ci) s = .next s) ∧
    (freeUser s ci = true → choosePart s ci = none → exec (.dispatch ci) s = .next s) ∧
    (∀ pn u l, freeUser s ci = true → choosePart s ci = some pn → firstCand ((openCands s pn ci).filter (fitsCore s pn ci)) = some u →
      launchOf (getPart s u.part) u.launch = some l →
      (u.resume = true → exec (.dispatch ci) s = .next (resumeUnit s ci u)) ∧
      (u.resume = false → (segOf s u.part (pSeg l.pkt)).v = false →
        exec (.dispatch ci) s = .next (failLaunch s u.part l (u.index, ci, 0x39, 2))) ∧
      (u.resume = false → (segOf s u.part (pSeg l.pkt)).v = true →
        (u.cosched = true → exec (.dispatch ci) s = .next (startCosched s u.part l ci u)) ∧
        (u.cosched = false → l.standing = true → exec (.dispatch ci) s = .next (startItem s u.part l ci u)) ∧
        (u.cosched = false → l.standing = false → exec (.dispatch ci) s = .next (startUnit (dropCands s fun v => v == u) u.part l ci u.index u.arrive
          (pArg l.pkt) (BitVec.ofNat 64 u.index))))) ∧
    (∀ d < 2, ∃ t, exec (.candidateAged part index) s = .next t ∧ (getDie t d).cands = (getDie s d).cands.map fun u =>
      if u.part == part && u.index == index && decide (u.arrive + 50000 ≤ s.dtime.toNat) then { u with aged := true } else u) ∧
    (standingOf p q = none → exec (.standingClaim part q) s = .next s) ∧
    (∀ l, standingOf p q = some l →
      let r := ringOf p (pIring l.pkt)
      ((counterOf p r.pubc.toNat).toNat ≤ r.clm → exec (.standingClaim part q) s = .next s) ∧
      (r.clm < (counterOf p r.pubc.toNat).toNat → r.dropped.contains r.clm = false → pUnits l.pkt ≤ r.clm →
        itemOver p (pIring l.pkt) (r.clm - pUnits l.pkt) = false → exec (.standingClaim part q) s = .next s) ∧
      (r.clm < (counterOf p r.pubc.toNat).toNat → r.dropped.contains r.clm = true → exec (.standingClaim part q) s = .next (skipItem s part l)) ∧
      (r.clm < (counterOf p r.pubc.toNat).toNat → r.dropped.contains r.clm = false →
        r.clm < pUnits l.pkt ∨ itemOver p (pIring l.pkt) (r.clm - pUnits l.pkt) = true →
        let s1 := if pOen l.pkt then makeRoom s part (pOring l.pkt) (ringOf p (pOring l.pkt)).rsv else s
        (itemReady s1 part l = false → exec (.standingClaim part q) s = .next s1) ∧
        (itemReady s1 part l = true →
          (∀ d ∈ s1.dies.toList, ∀ u ∈ d.cands, u.part = part → u.launch = l.id → u.resume = false → u.index ∈ l.todo) →
          exec (.standingClaim part q) s = .next (pushCands s1 [candOf s1 part l r.clm])))) ∧
    (∀ cause detail u, c.run = .ending cause detail → c.unit = some u → (∀ k < 8, ∀ y ∈ (getPart s k).switched, y.core ≠ ci) →
      (unitQuiet c = false → exec (.unitCompletion ci) s = .next s) ∧
      (unitQuiet c = true →
        let st := if cause = 0 then (match u.err with | some x => x | none => (0, 0)) else (cause, detail)
        let free := { c with unit := none, run := .idle, ext := [], resends := [], a := { c.a with req := none, pins := [] } }
        exec (.unitCompletion ci) s = .next (unitEnded (putCore (refuseTaken s c) ci free) u ci st.1 st.2))) ∧
    (mayPreempt s ci = none → exec (.preemptionRequest ci) s = .next s) ∧
    (∀ u x, mayPreempt s ci = some x → c.unit = some u →
      (c.run = .running → c.freeze = none → u.committed = false → c.a.tl = false → c.a.uh = false → exec (.preemptionRequest ci) s = .next
        (requeueUnit (logErr (putCore (refuseTaken s c) ci (freeCore (endChains (discardRegion c)))) u.part ci 0x30 1 none none 0) ci u)) ∧
      (u.committed = true → exec (.preemptionRequest ci) s = .next (putCore s ci
        { c with preempt := some u.part, asker := some (x.part, x.launch, x.index) }))) ∧
    (c.run ≠ .halted → exec (.contextSwitch ci) s = .next s) ∧
    (∀ u, c.run = .halted → c.freeze = none → c.unit = some u →
      let c1 := dropUnstarted c
      ((∃ x ∈ c.copies, x.slot.isSome = true ∧ x.done ≠ 0) → exec (.contextSwitch ci) s = .next s) ∧
      ((∀ x ∈ c.copies, x.slot.isSome = true → x.done = 0) → ∃ t i, exec (.contextSwitch ci) s = .next t ∧ i.unit = some u ∧
        i.scratch = c.scratch ∧ i.a = { c.a with req := none } ∧ i.copies = c1.copies ∧ i.backlog = c.backlog ∧ i.departing = c.departing ∧
        i.outst = c.outst ∧ i.chains = c1.chains ∧
        t = dispatchCore (putAside (logErr (putCore (refuseTaken s c1) ci { c1 with
          unit := none, run := .idle, ext := [], resends := [], a := { c.a with req := none, pins := [] }, stash := []
          copies := [], backlog := [], departing := [], outst := [], chains := Vector.replicate 4 Chain.zero
          fifos := Vector.replicate 8 Fifo.zero, preempt := none, asker := none }) u.part ci 0x30 0 none none 0) i ci) ci)) ∧
    -- the state that a unit starts in (R104, R356)
    (∀ (l : Launch) (at' : Nat) (x1 x2 : Word),
      let k := getCore (startUnit s part l ci index at' x1 x2) ci
      let w := fun (v : Word) => ({ val := v, psn := false } : Reg)
      let split := pType l.pkt = 1 ∧ bitOf l.pkt 70 = true
      k.run = .running ∧ k.a.mode = (if split then .split else .joint) ∧
      (∀ j < 4, vget k.a.pc 0 j = BitVec.ofNat 64 (pDword l.pkt (if split then 2 + j else 2)) ∧ vget k.a.clst .run j = .run ∧
        vget k.a.flags 0 j = 0 ∧ vget k.a.repK none j = none) ∧
      rdReg k 1 = w x1 ∧ rdReg k 2 = w x2 ∧ rdReg k 3 = w (BitVec.ofNat 64 (fieldOf l.pkt 96 20 + 1)) ∧ (∀ r, 3 < r → r < 64 → rdReg k r = w 0) ∧
      k.a.y = 0 ∧ (∀ j < 12, vget k.a.tokens 0 j = fieldOf l.pkt (448 + 4 * j) 4 ∧ vget k.a.heldTok 0 j = 0) ∧
      (∀ j < 8, (vget k.a.loops LoopLv.zero j).active = false) ∧ k.a.seq = none ∧ k.a.rcur = 0 ∧ k.a.rend = 0 ∧ k.a.req = none ∧
      k.a.pend = false ∧ k.a.grant = false ∧ k.a.refused = false ∧ k.a.tl = false ∧ k.a.uh = false ∧ k.a.frm = 0 ∧ k.a.ustat = 0 ∧
      k.a.vbase = 0 ∧ k.a.vrot = 0 ∧ k.a.abase = 0x40 ∧ k.a.segCur = BitVec.ofNat 6 (fieldOf l.pkt 64 6) ∧ k.snap = k.a ∧ k.cyc = 0 ∧ k.cbuf = [] ∧
      k.unit = some { part := part, asn := l.asn, launch := l.id, index := index, prio := fieldOf l.pkt 10 2, arrive := at'
                      start := s.dtime.toNat, seg := BitVec.ofNat 6 (fieldOf l.pkt 64 6), committed := false, localw := 0, record := none
                      err := none, gang := l.gang }) ∧
    -- units that start together, on the cores that are held for them and the free ones
    (∀ (l : Launch) (u : Cand), l.gang = none →
      let key := resvKey part l.id
      let held := resvCoresOf s key
      let all := held ++ (if held.contains ci then [] else ci :: (freeCores s part 0 ++ freeCores s part 1).filter fun j => j != ci)
      (l.todo.length ≤ all.length → startCosched s part l ci u =
        (l.todo.zip (all.take l.todo.length)).foldl (fun t x => startUnit t part l x.2 x.1 u.arrive (pArg l.pkt) (BitVec.ofNat 64 x.1))
          (dropResv (dropCands s fun v => v.part == part && v.launch == l.id && !v.resume) key)) ∧
      (all.length < l.todo.length → startCosched s part l ci u = if held.contains ci then s else holdCores s key [ci])) ∧
    -- a new item of a standing launch: its record, and the unit that it starts (R356)
    (∀ (l : Launch) (u : Cand) (pa : Nat),
      let x := queueOf p l.queue
      let r := ringOf p (pIring l.pkt)
      let o := ringOf p (pOring l.pkt)
      let n := r.clm
      let out := if pOen l.pkt && ringRoom p (pOring l.pkt) o.rsv then some o.rsv else none
      let slot := fun (g : Ring) (j : Nat) => g.slotbase.toNat + g.slotsz.toNat * (j % (g.capm1.toNat + 1))
      let va := r.recbase + BitVec.ofNat 64 (64 * (n % (r.capm1.toNat + 1)))
      u.index = n → l.todo.contains u.index = false → itemReady s part l = true → (standingOf p l.queue).isSome = true →
      queuePinned s part x va .write = false → queueAddr s part x va .write = some pa →
        let bytes := natBytes 8 n ++ natBytes 8 (slot r n) ++ natBytes 8 (match out with | some m => m | none => 2 ^ 64 - 1) ++
          natBytes 8 (match out with | some m => slot o m | none => 0) ++ natBytes 8 (pArg l.pkt).toNat ++ natBytes 24 0
        startItem s part l ci u = startUnit (bookItem (devWrite (dropCands (queueWalk s part x va) fun v => v == u) none part pa va bytes 0 false)
          part l n out) part l ci (n % pUnits l.pkt) u.arrive va (BitVec.ofNat 64 (n % pUnits l.pkt))) ∧
    -- the completion of a launch whose units have ended: the record, CSIG, the counters, the interrupt (R357)
    (∀ (l : Launch) (pa : Nat), launchOf p l.id = some l → l.todo = [] → l.live = [] → (l.standing = true → l.cancelled.isSome = true) →
      let x := queueOf p l.queue
      let va := x.cplbase + BitVec.ofNat 64 (16 * (l.seq % 2 ^ x.log2n))
      recordPinned s part l = false → queueAddr s part x va .write = some pa →
        let s1 := devWrite (queueWalk s part x va) none part pa va (natBytes 16 (recordOf l)) 0 false
        let s2 := if bitOf l.pkt 9 && !(pType l.pkt == 1 && pStanding l.pkt) then addSignal s1 part (fieldOf l.pkt 496 12) 1 else s1
        let s3 := modPart s2 part fun e => { countLevels e l.pkt false with launches := e.launches.filter fun y => y.id != l.id }
        let s4 := dropResv (if x.ien then raiseMsix s3 x.func l.queue else s3) (resvKey part l.id)
        let s5 := { s4 with dies := vmap (fun (d : Die) => { d with graph := d.graph.filter fun n => !(n.part == part && n.launch == l.id) }) s4.dies }
        checkLaunch s part l.id = finishPacket (readyNodes (readyNodes s5 0) 1) part l.queue l.seq) ∧
    (∀ (l : Launch), let f := fun (lo n : Nat) => recordOf l / 2 ^ lo % 2 ^ n
      f 6 1 = 1 ∧ f 7 9 = 0 ∧ f 32 32 = l.seq % 2 ^ 32 ∧
      (∀ v, l.cancelled = some v → f 0 6 = 0x31 ∧ f 16 16 = v % 2 ^ 16) ∧
      (l.cancelled = none → l.fail = none → f 0 6 = 0 ∧ f 16 16 = 0) ∧ (l.fail = none → recordOf l < 2 ^ 64) ∧
      (∀ unit core cause detail, l.fail = some (unit, core, cause, detail) → core < 72 →
        f 64 20 = unit % 2 ^ 20 ∧ f 84 6 = core % 36 ∧ f 90 1 = core / 36 ∧ recordOf l < 2 ^ 91 ∧
        (l.cancelled = none → f 0 6 = cause % 64 ∧ f 16 16 = detail % 2 ^ 16))) ∧
    (∀ has f y, pastUnit s ci has = some y → dieOf ci < 2 →
      let t := getCore (withPast s ci has f) ci
      t.unit = c.unit ∧ t.run = c.run ∧ t.scratch = c.scratch ∧ t.ost = c.ost ∧ t.copies = c.copies ∧ t.departing = c.departing ∧ t.outst = c.outst ∧
        t.cbuf = c.cbuf ∧ t.snap = c.snap ∧ t.a = { c.a with pins := t.a.pins })

/-! ## The issue of a word -/

/-- R53, R54, R313: a HINT word changes nothing but the program counter, in every slot, cluster and mode, whatever its bits hold; an EMUL
word enters the handler with EMUL, or raises UDF with detail 2 where the unit has none; a system word outside a system segment raises
SEG_SYS with detail 0, and one that needs FW in a system segment without FW with detail 1. Beside these: UDF with detail 0 for a major that
is not assigned (R51); a false guard leaves all but the program counter (R39); a word waits for its tokens (R45); a word that fails a check
of R51 raises its cause, and in split mode a destination outside the window is one (R59); in a handler the words of R322 end the unit.
`issueFields` names every instruction that is issued as a word. Choices of the model that it rests on: logs 16, 18, 19, 45, 53. -/
def Obligations.IssueRules : Prop :=
  ∀ (s : State) (h : BitVec 27) (x : BitVec 25) (w : BitVec 32) (d a b : BitVec 6) (m : BitVec 4),
    let e := envOf s
    exec (.hint h) s = .next (goLater s s) ∧
    (∀ r ∈ [.emulMajor7c x, .emulMajor7d x, .emulMajor7e x],
      exec r s = .next (goTrap s (if hasEmul s e.rd then mkTrap 0x05 0 (BitVec.ofNat 64 (encodeNat r)) else mkTrap 0x01 2 (BitVec.ofNat 64 (encodeNat r))))) ∧
    (majorUndefined (w.toNat / 2 ^ 25) = true → exec (.undefinedMajor w) s = .next (goTrap s (mkTrap 0x01 0 (w.setWidth 64)))) ∧
    (let q := curSeg s e.rd
     let v := w.toNat / 2 ^ 25
     (0x70 ≤ v → v ≤ 0x74 → q.v = false ∨ q.sys = false → slotTrap w.toNat s e = some (mkTrap 0x38 0 (BitVec.ofNat 64 w.toNat))) ∧
     (0x72 ≤ v → v ≤ 0x74 → ¬ (v = 0x73 ∧ w.toNat % 16 = 3) → q.v = true → q.sys = true → q.fw = false →
       slotTrap w.toNat s e = some (mkTrap 0x38 1 (BitVec.ofNat 64 w.toNat))) ∧
     (0x70 ≤ v → v ≤ 0x74 → q.v = true → q.sys = true → q.fw = true ∨ v ≤ 0x71 ∨ (v = 0x73 ∧ w.toNat % 16 = 3) → s.focusCl = .c →
       slotTrap w.toNat s e = none)) ∧
    (∀ i z, issueFields i = some z →
      let ready := popReady e.rd.a (popPair s.focusCl z.tk.tkin.toNat) && pushReady e.rd.a (pushPair s.focusCl z.tk.tkout.toNat)
      (∀ y, issueTrap (encodeNat i) z.dsts s e = some y → exec i s = .next (goTrap s y)) ∧
      (issueTrap (encodeNat i) z.dsts s e = none → ready = false → exec i s = .next (goWait s)) ∧
      (issueTrap (encodeNat i) z.dsts s e = none → ready = true → rdFlag e.rd.a s.focusCl z.guard.toNat = false →
        exec i s = .next (goLater s s))) ∧
    (∀ (n : Nat) (l : List (BitVec 6)), slotTrap n s e = none → e.rd.a.mode = .split →
      (∃ k ∈ l, k ≠ 0 ∧ ¬ (match s.focusCl with
        | .c => k.toNat ≤ 31
        | .l => 32 ≤ k.toNat ∧ k.toNat ≤ 43
        | .k => 44 ≤ k.toNat ∧ k.toNat ≤ 51
        | .s => 52 ≤ k.toNat)) →
      issueTrap n l s e = some (mkTrap 0x02 1 (BitVec.ofNat 64 n))) ∧
    (e.rd.a.tl = true ∨ e.rd.a.uh = true →
      (∀ r ∈ ([(.commit, 0x1A), (.commitD a b, 0x1A), (.endOp 0, 0x1F), (.fork d a b 0, 0x18), (.loopm d a b 0 m, 0x11)] : List (Instr × Nat)),
        MayIssue (encodeNat r.1) [] 0 tkNone s → exec r.1 s = .next (goTrap s (mkTrap 0x07 r.2 0))) ∧
      (∀ y, s.bundle = none → takeTrap s s.focusCore y (mkTrap 0x07 0x1A 0) = endUnit s s.focusCore 0x07 0x1A none))

/-! ## The whole machine -/

/-- R61: x0 reads as zero, f0 as 1 and m0 as all ones; a write to one of them is discarded without a trap. In split mode a read of a register
that another cluster is writing gives the old value where it comes before the write, and the new one where it comes after. -/
def Obligations.HardwiredRegisters : Prop :=
  ∀ (s : State) (e : Env) (c : Core) (a : Arch) (cl : Cluster) (i : Nat) (v : Word) (m : BitVec 256) (b : Bool),
    rdReg c 0 = { val := 0, psn := false } ∧ rdFlag a cl 0 = true ∧ maskBit a 0 i = true ∧
    setX e s 0 v b = s ∧ setFlag e s 0 b = s ∧ setMask s i 0 m = s ∧ wrReg c 0 { val := v, psn := b } = c ∧
    (∀ (k : BitVec 6) (other : Cluster), k ≠ 0 → s.bundle = none → s.focusCore < 72 → (getCore s s.focusCore).a.mode = .split →
      (envOf { s with focusCl := other }).x k = rdReg (getCore s s.focusCore) k.toNat ∧
      (envOf { setX (envOf s) s k v b with focusCl := other }).x k = { val := v, psn := b })

/-- R6, R277, R311, R317, R338, R341, R352, R353, R372, R379, R391: the values that the spec gives for package reset. That memory lists
nothing and reads zero, and that its three lists are in canonical form, is the model's choice (log 2). Choices of the model that it rests
on: logs 1, 2. -/
def Obligations.ResetValues : Prop :=
  let s := State.reset
  s.memWf = true ∧ (∀ a, byteAt s.mem a = 0) ∧ s.intthr = 4 ∧ s.alarm = .none ∧
  (∀ i < 72, let c := getCore s i
    c.run = .idle ∧ c.unit = none ∧ c.cbuf = [] ∧ c.rtryMax = 3 ∧ c.tvec.v = false ∧ c.a.frm = 0 ∧ c.a.ustat = 0 ∧ c.a.vbase = 0 ∧ c.a.vrot = 0 ∧
    c.a.abase = 0x40 ∧ c.a.tl = false ∧ c.a.uh = false ∧ rdReg c 0 = { val := 0, psn := false }) ∧
  (∀ d < 2, let x := getDie s d
    x.west.step = 0 ∧ x.east.step = 0 ∧ x.gate = 0 ∧ x.thrt = false ∧ x.bellwether = some 35) ∧
  (∀ p < 8, let x := getPart s p
    x.fen = 0xFF ∧ x.boosten = true ∧ x.weight = 8 ∧ x.rtrymax = 3 ∧ x.malformed = 0 ∧ x.discard = 0 ∧ x.errlog = [] ∧
    (∀ h : BitVec 6, (segOf s p h).v = false) ∧ (∀ q < 64, (queueOf x q).st = .stopped ∧ (queueOf x q).log2n = 4 ∧ (queueOf x q).part = 0) ∧
    (∀ r < 64, (ringOf x r).en = false ∧ (ringOf x r).clm = 0) ∧ (∀ w < 64, vget x.hostWin 0 w = 0) ∧ (∀ w < 8, vget x.peerWin 0 w = 0) ∧
    (∀ k, signalOf x k = 0 ∧ counterOf x k = 0))

/-- The three memories keep their canonical form (log 2) over every step: addresses strictly rising, and no entry that holds what an
unlisted address reads as. Choices of the model that it rests on: log 2. -/
def Obligations.StepKeepsMemory : Prop :=
  ∀ s t : State, s.memWf = true → Machine.step s = .next t → t.memWf = true

/-- R38 to R46, R51, R70: for every instruction that is issued as a word, and is well formed, the decoder reads the encoder's word back,
whatever word follows it; a `vigil` is read with its literal. -/
def Obligations.EncodeDecodeRoundTrip : Prop :=
  ∀ i : Instr, Laws.RoundTrip.Statement i

/-- R36, R51, R57, R70, R142: a step runs the decoded instruction. A move of an issue lets its time pass (log 7), performs the accesses that
the load and store queues hold, and fetches ahead; in split mode, the word at the cluster's program counter is then executed as the
instruction it decodes to, and a word that cannot be fetched or fails a check raises its trap; in joint mode the four slots of the bundle
are, in the order C, L, K, S, each decoded from its own word, and `finishBundle` ends the bundle; the walk of a trap that a marked table
entry has raised is then read at its homes (R365). A row of the modulo sequencer squashes the slots outside their iterations, and the end of a
row or of a kernel iteration moves the sequencer and VBASE (R117, R118). A repetition of `rep` is its target with the selected fields stepped,
after the checks of the prefix (R67 to R69). Another agent's move executes its step; an error of an SRAM is corrected and counted or marks its
word (R261). An issue may leave its loads and stores in their queues of 32, whose accesses each have a move of their own, with the operands that
they took, and other words pass them (R142). Choices of the model that it rests on: logs 5, 6, 7, 10, 13, 17, 18, 51, 54, 58, 61, 62. -/
def Obligations.StepRunsDecoded : Prop :=
  ∀ (s : State) (m : Move) (r : List Move) (ci : Nat) (cl : Cluster), s.agenda = m :: r → ci < 72 →
    let s0 := passTime { s with agenda := r, focusCore := ci, focusCl := cl } m.ns m.cc
    let s1 := performAll s0
    let s2 := fetchAhead s1
    let e := envOf s2
    let c := getCore s1 ci
    let c2 := getCore s2 ci
    let here := c.run = .running ∧ c.freeze = none ∧ s1.alarm = .none ∧ c.engTraps = []
    let runs := here ∧ fetchRetry s1 = false
    let p := vget c2.a.pc 0 (cnum cl)
    let done := fun (o : Host.Outcome State Fault Refusal) => match o with
      | .next t => .next (noteWalk s1 t ci)
      | o => o
    (∀ t, (getCore t ci).a.tl = c.a.tl → (getCore t ci).run = c.run → noteWalk s1 t ci = t) ∧
    (m.act = .issue ci cl → runs → c.a.mode = .split → vget c2.a.clst .run (cnum cl) = .run → vget c2.a.repK none (cnum cl) = none →
      (∀ x, fetchWord s2 ci p = .error x → Machine.step s = done (.next (takeTrap s2 ci cl x))) ∧
      (∀ w x, fetchWord s2 ci p = .ok w → slotTrap w.toNat s2 e = some x → Machine.step s = done (.next (takeTrap s2 ci cl x))) ∧
      (∀ w i, fetchWord s2 ci p = .ok w → slotTrap w.toNat s2 e = none → decodeWord w 0 = .ok i →
        (majorOf w ≠ 0x58 ∨ literalOutside e = true → Machine.step s = done (exec i s2)) ∧
        (∀ l j, majorOf w = 0x58 → literalOutside e = false → fetchWord s2 ci (p + 4) = .ok l → decodeWord w l = .ok j →
          Machine.step s = done (exec j s2)))) ∧
    (m.act = .issue ci cl → runs → c.a.mode = .joint → vget c2.a.clst .run 0 = .run →
      let b : Bundle := { pre := c2, flagged := 0, raised := none, stalled := false, target := none, pcSet := false, unpin := false, arrivals := [] }
      let opened := { modCore s2 ci fun c => { c with nopSlot := none, a := { c.a with litAt := none } } with bundle := some b }
      Machine.step s = done (match issueSlots c2 opened [.c, .l, .k, .s] with
        | .next t => .next (match t.bundle with | some b' => finishBundle s2 t b' | none => t)
        | o => o)) ∧
    (m.act = .issue ci cl → here → fetchRetry s1 = true → Machine.step s = .next (modArch s1 ci fun a => { a with pins := [] })) ∧
    (∀ (pre : Core) (u : State) (k : Cluster) (w : Word32) (i : Instr), pre.nopSlot ≠ some k → pre.a.litAt = none → ci = u.focusCore →
      let v := { u with focusCl := k }
      let v0 := putCore v ci pre
      let a := vget pre.a.pc 0 0 + BitVec.ofNat 64 (4 * cnum k)
      (pre.a.seq = none → fetchWord v0 ci a = .ok w → majorOf w ≠ 0x58 →
        slotTrap w.toNat v0 (envOf v) = none → decodeWord w 0 = .ok i → issueSlot pre u k = exec i v) ∧
      -- a row of the modulo sequencer (R117): its words lie in the loop buffer; a slot outside its iterations is squashed
      (∀ q, pre.a.seq = some q →
        let stage := fieldOf q.map (2 * (4 * q.b + cnum k)) 2
        let squash := q.k < stage ∨ q.n ≤ q.k - stage
        let got := nth none q.buf (4 * q.b + cnum k) = some w ∨ (nth none q.buf (4 * q.b + cnum k) = none ∧ fetchWord v0 ci a = .ok w)
        let maj := majorOf w
        let barred := (0x0B ≤ maj ∧ maj ≤ 0x0E) ∨ maj ∈ [0x11, 0x18, 0x1D, 0x1F, 0x58] ∨ (0x70 ≤ maj ∧ maj ≤ 0x77)
        (got → barred → issueSlot pre u k = conclude v (envOf v) (.raise (mkTrap 0x02 0 (w.setWidth 64)))) ∧
        (got → ¬ barred → squash → issueSlot pre u k = .next v) ∧
        (got → ¬ barred → ¬ squash → slotTrap w.toNat v0 (envOf v) = none → decodeWord w 0 = .ok i → issueSlot pre u k = exec i v))) ∧
    -- the end of a bundle, and of a row: a stall or a trap leaves the sequencer where it stood; VBASE turns after the last row (R58, R118)
    (∀ (u t : State) (b : Bundle),
      let t1 := modArch { t with bundle := none, focusCl := u.focusCl } u.focusCore fun a => applyArrivals a b.arrivals
      (b.stalled = true → b.unpin = false → finishBundle u t b = u) ∧
      (∀ k x, b.stalled = false → b.raised = some (k, x) → finishBundle u t b = takeTrap u u.focusCore k x) ∧
      (b.stalled = false → b.raised = none → mxHeld b.pre (getCore t1 u.focusCore) = false → b.target = none → b.pcSet = false →
        finishBundle u t b = modCore t1 u.focusCore advanceJoint)) ∧
    (∀ (k : Core),
      let goes := fun (q : Option Seqr) (vb : BitVec 11) (w : Word) => { k with a := { k.a with
        seq := q, vbase := vb, pc := Vector.replicate 4 w, repK := Vector.replicate 4 none } }
      (k.a.seq = none → advanceJoint k = goes none k.a.vbase (vget k.a.pc 0 0 + 16)) ∧
      (∀ q, k.a.seq = some q →
        let turned := k.a.vbase + k.a.vrot.setWidth 11
        (q.b + 1 < q.ii → advanceJoint k = goes (some { q with b := q.b + 1 }) k.a.vbase (q.body + BitVec.ofNat 64 (16 * (q.b + 1)))) ∧
        (q.ii ≤ q.b + 1 → q.k + 1 < q.n + q.stages - 1 → advanceJoint k = goes (some { q with k := q.k + 1, b := 0 }) turned q.body) ∧
        (q.ii ≤ q.b + 1 → q.n + q.stages - 1 ≤ q.k + 1 → advanceJoint k = goes none turned (q.body + BitVec.ofNat 64 (16 * q.ii))))) ∧
    -- `rep` (R67 to R69): the word at the program counter is its prefix, the next one its target, and `n₀` the next repetition
    (∀ n₀ z pw, m.act = .issue ci cl → runs → c.a.mode = .split → vget c2.a.clst .run (cnum cl) = .run →
        vget c2.a.repK none (cnum cl) = some (n₀, z) → fetchWord s2 ci p = .ok pw →
      let n := bitsAt pw 17 8 + 1
      let fsel := bitsAt pw 13 4
      let st := bitsAt pw 9 4
      let past := modCore s2 ci fun k => advanceSplit k (cnum cl) (vget k.a.pc 0 (cnum cl) + 4)
      let trap := fun (cause detail : Nat) (tval : Word32) => done (.next (takeTrap s2 ci cl (mkTrap cause detail (tval.setWidth 64))))
      let top := match cl with | .c => 31 | .l => 43 | .k => 51 | .s => 63
      (majorOf pw ≠ 0x0F → Machine.step s = done (.next (modArch s2 ci fun a => { a with repK := vset a.repK (cnum cl) none }))) ∧
      (∀ x, majorOf pw = 0x0F → fetchWord s2 ci (p + 4) = .error x → Machine.step s = done (.next (takeTrap s2 ci cl x))) ∧
      (∀ w x, majorOf pw = 0x0F → fetchWord s2 ci (p + 4) = .ok w → slotTrap w.toNat s2 e = some x → Machine.step s = done (.next (takeTrap s2 ci cl x))) ∧
      (∀ w i, majorOf pw = 0x0F → fetchWord s2 ci (p + 4) = .ok w → slotTrap w.toNat s2 e = none → decodeWord w 0 = .ok i →
        let maj := majorOf w
        let emul := 0x7C ≤ maj ∧ maj ≤ 0x7E
        let inside := ∀ k ∈ scalarDsts i w, inWindow cl k = true
        let field := fun (j : Nat) => match j with | 0 => (stepFields i).d | 1 => (stepFields i).a | 2 => (stepFields i).b | _ => (stepFields i).m
        let val := fun (v : Word32) (j : Nat) => match j with | 0 => bitsAt v 19 6 | 1 => bitsAt v 13 6 | 2 => bitsAt v 7 6 | _ => bitsAt v 4 3
        let fits := ∀ j < 4, fsel / 2 ^ j % 2 = 1 → match field j with
          | .no => False
          | .dst => val w j + (n - 1) * st ≤ top
          | .reg mx => val w j + (n - 1) * st ≤ mx
        let defined := majorUndefined maj = false ∧ ¬ emul ∧ inside
        -- before the first repetition
        (n₀ = 0 → majorUndefined maj = true → Machine.step s = trap 0x01 0 w) ∧
        (n₀ = 0 → majorUndefined maj = false → emul → Machine.step s = if hasEmul s2 c2 then trap 0x05 0 w else trap 0x01 2 w) ∧
        (n₀ = 0 → majorUndefined maj = false → ¬ emul → ¬ inside → Machine.step s = trap 0x02 1 w) ∧
        (n₀ = 0 → defined → repTarget maj = false → Machine.step s = trap 0x02 4 pw) ∧
        (n₀ = 0 → defined → repTarget maj = true → 0x78 ≤ maj → Machine.step s = done (.next past)) ∧
        (n₀ = 0 → defined → repTarget maj = true → maj < 0x78 → ¬ fits → Machine.step s = trap 0x03 3 pw) ∧
        -- the repetition: its word is the target's with each selected field stepped
        (∀ j, n₀ = 0 → defined → repTarget maj = true → maj < 0x78 → fits → decodeWord (stepWord w fsel st 0) 0 = .ok j →
          Machine.step s = done (exec j (modArch s2 ci fun a => { a with repK := vset a.repK (cnum cl) (some (0, n)) }))) ∧
        (∀ j, 0 < n₀ → n₀ < n → maj < 0x78 → decodeWord (stepWord w fsel st n₀) 0 = .ok j →
          Machine.step s = done (exec j (modArch s2 ci fun a => { a with repK := vset a.repK (cnum cl) (some (n₀, n)) }))) ∧
        (0 < n₀ → n ≤ n₀ ∨ 0x78 ≤ maj → Machine.step s = done (.next past)) ∧
        (∀ k < n, (∀ j < 4, fsel / 2 ^ j % 2 = 1 → val w j + (n - 1) * st ≤ if j = 3 then 7 else 63) →
          let v := stepWord w fsel st k
          bitsAt v 25 7 = maj ∧ bitsAt v 0 4 = bitsAt w 0 4 ∧ ∀ j < 4, val v j = val w j + if fsel / 2 ^ j % 2 = 1 then k * st else 0))) ∧
    -- an error of an SRAM (R261), which the environment brings about (log 10)
    (∀ x, m.act = .upset x → Machine.step s = .next (upset (passTime { s with agenda := r } m.ns m.cc) x)) ∧
    (∀ (u : State) (k n w d : Nat), k < 72 → d < 2 → w < 32 →
      upset u .bit = { u with corrected := u.corrected + 1 } ∧
      (∀ x ∈ (getCore (upset u (.l1 k n w)) k).l1, x.line = n → bitOf x.marks w = true) ∧
      (∀ x ∈ (getCore (upset u (.stash k n w)) k).stash, x.line = n → bitOf x.marks w = true) ∧
      (∀ x ∈ (getDie (upset u (.dcache d n w)) d).dcache, x.line = n → bitOf x.marks w = true) ∧
      (n < 2097152 → (getCore (upset u (.scr k n)) k).badScr.contains n = true) ∧ (n < 131072 → (getCore (upset u (.ost k n)) k).badOst.contains n = true)) ∧
    (∀ i, m.act = .event i → i.hasWord = false → i.stepOk = true → s.alarm = .none →
      Machine.step s = exec i (performAll (passTime { s with agenda := r } m.ns m.cc))) ∧
    -- the load and store queues (R142)
    (∀ (u : State) (q : Queued) (t : State) (b : Bundle),
      exec q.instr { u with focusCore := q.core, focusCl := q.cl, bundle := some { pre := q.pre, flagged := 0, raised := none, stalled := false, target := none, pcSet := false, unpin := false, arrivals := [] } } = .next t →
        t.bundle = some b → b.raised = none → b.stalled = false →
          performed u q = some (modArch { t with focusCore := u.focusCore, focusCl := u.focusCl, bundle := u.bundle } q.core fun a =>
            deliverTok a q.push)) ∧
    (∀ (u : State) (k : Cluster) (a : Word) (w : Word32), fetchWord u u.focusCore a = .ok w →
      let c := getCore u u.focusCore
      (passesQueues (majorOf w) = true → lateSlot u k a = some none) ∧
      (∀ i j tk l, passesQueues (majorOf w) = false → fetchInstr { u with focusCl := k } a a = .ok i → queueForm i = some (j, tk, l) → portsOf c l = [] →
        popReady c.a (popPair k tk.tkin.toNat) = true → pushReady c.a (pushPair k tk.tkout.toNat) = true →
          lateSlot u k a = some (some ({ core := u.focusCore, cl := k, instr := j, pre := c, push := pushPair k tk.tkout.toNat }, tk)))) ∧
    (∀ (u : State) (x : Option (Queued × Tk)),
      let c := getCore u u.focusCore
      c.a.mode = .split → vget c.a.clst .run (cnum u.focusCl) = .run → vget c.a.repK none (cnum u.focusCl) = none →
        lateSlot u u.focusCl (vget c.a.pc 0 (cnum u.focusCl)) = some x → lateNext u = some [(u.focusCl, x)] ∧
        (∀ q tk, x = some (q, tk) →
          let t := modCore u u.focusCore fun c => advance c u.focusCl 0
          let v := modArch t q.core fun a => holdTok (popTok a (popPair q.cl tk.tkin.toNat)) q.push
          lateIssue u [(u.focusCl, x)] = some { v with accesses := v.accesses ++ [q] })) ∧
    (m.act = .late ci cl → (getCore s0 ci).run = .running → (getCore s0 ci).freeze = none → s0.alarm = .none → (getCore s0 ci).engTraps = [] →
        fetchRetry s0 = false →
      let f := fetchAhead s0
      let used := fun (q : Queued) => (f.accesses.filter fun z => z.core == q.core && z.cl == q.cl).length
      let late := fun (u : State) => ∃ v, issueFocus (performAll s0) = .next v ∧ coreSeen (performAll u) ci = coreSeen v ci
      (lateNext f = none → Machine.step s = issueFocus (performAll s0)) ∧
      ∀ l, lateNext f = some l →
        ((∃ q ∈ lateAccesses l, 32 ≤ used q) → Machine.step s = .next s0) ∧
        ((∀ q ∈ lateAccesses l, used q < 32) →
          (∀ u, lateIssue f l = some u → late u → Machine.step s = .next u) ∧
          ((∀ u, lateIssue f l = some u → ¬ late u) → Machine.step s = issueFocus (performAll s0)))) ∧
    (∀ q l t, m.act = .perform ci cl → s.accesses = q :: l → q.core = ci → q.cl = cl →
      performed (passTime { s with agenda := r } m.ns m.cc) q = some t → Machine.step s = .next { t with accesses := l })

/-- R38 to R46, R49, R51, R247, R250, R255: words written out from their encodings, and the instructions that they stand for; and words that
are refused, each by its name. -/
def Obligations.EncodingWords : Prop :=
  let tk0 : Tk := { hint := 0, tkin := 0, tkout := 0 }
  decodeWord 0x02182100 0 = .ok (.add 3 1 2 0) ∧ decodeWord 0x0428DFFF 0 = .ok (.addi 5 6 0x1FFF) ∧
  decodeWord 0x0E392345 0 = .ok (.himm 7 0x12345) ∧ decodeWord 0x167FFFFF 0 = .ok (.br 1 0x3FFFFF) ∧
  decodeWord 0x3765A200 0 = .ok (.hwait 44 45 tk0) ∧ decodeWord 0x37080100 0 = .ok (.harrive 33 0 tk0) ∧
  decodeWord 0x38386600 0 = .ok (.ares 7 3 tk0) ∧ decodeWord 0x60084100 0 = .ok (.vadd 1 2 2 0 0) ∧
  decodeWord 0xF0000000 0 = .ok (.hint 0) ∧ decodeWord 0 0 = .ok (.undefinedMajor 0) ∧ decodeWord 0xFFFFFFFF 0 = .ok (.undefinedMajor 0xFFFFFFFF) ∧
  decodeWord 0x0200000F 0 = .error .unassigned ∧ decodeWord 0x37080110 0 = .error .mustBeZero ∧ decodeWord 0x12400000 0 = .error .range ∧
  decodeWord 0x6008410F 0 = .error .elementType

/-! ## Frames -/

/-- R106 to R109, R122, R123, R126, R129 to R132, R269: what a scalar word with one destination register leaves as it was: every other
register, every flag, sync bit, token and special register, all memory, every other core. Only the hardware loops and the sequencer may move
with the program counter, and the words marked `true` may set USTAT. A CSR write changes beside its destination only the CSR that it names,
and a token word only the tokens. -/
def Obligations.RegisterFrame : Prop :=
  ∀ (s t : State) (d a b sh : BitVec 6) (g m : BitVec 3) (i : BitVec 13) (u : BitVec 19) (n : BitVec 10),
    let c := getCore s s.focusCore
    let c' := getCore t s.focusCore
    let others := ∀ j, j ≠ s.focusCore → getCore t j = getCore s j
    (∀ r ∈ ([(.add d a b g, g, false), (.sub d a b g, g, false), (.and d a b g, g, false), (.or d a b g, g, false), (.xor d a b g, g, false),
        (.sll d a b g, g, false), (.srl d a b g, g, false), (.sra d a b g, g, false), (.mul d a b g, g, false), (.mulhiS d a b g, g, false),
        (.mulhiU d a b g, g, false), (.quotS d a b g, g, true), (.quotU d a b g, g, true), (.rmdrS d a b g, g, true), (.rmdrU d a b g, g, true),
        (.addi d a i, 0, false), (.andi d a i, 0, false), (.ori d a i, 0, false), (.xori d a i, 0, false), (.slli d a sh, 0, false),
        (.srli d a sh, 0, false), (.srai d a sh, 0, false), (.himm d u, 0, false), (.adpc d u, 0, false), (.flRd d g, g, false), (.pset d a g, g, false),
        (.pclr d a g, g, false), (.faddF64 d a b g, g, true), (.fsubF64 d a b g, g, true), (.fmulF64 d a b g, g, true), (.fdivF64 d a b g, g, true),
        (.faddF32 d a b g, g, true), (.fsubF32 d a b g, g, true), (.fmulF32 d a b g, g, true), (.fdivF32 d a b g, g, true),
        (.fsqrtF64 d a g, g, true), (.fsqrtF32 d a g, g, true), (.fminF64 d a b g, g, true), (.fminF32 d a b g, g, true),
        (.fmaxF64 d a b g, g, true), (.fmaxF32 d a b g, g, true), (.fmacF64 d a b g, g, true), (.fmacF32 d a b g, g, true),
        (.fmsgnF64 d a b g, g, false), (.fmsgnF32 d a b g, g, false), (.fabsF64 d a g, g, false), (.fabsF32 d a g, g, false),
        (.fnegF64 d a g, g, false), (.fnegF32 d a g, g, false), (.fkindF64 d a g, g, false), (.fkindF32 d a g, g, false),
        (.scvtF64F32 d a m g, g, true), (.scvtF64I64 d a m g, g, true), (.scvtF64Ui64 d a m g, g, true), (.scvtI64F64 d a m g, g, true),
        (.scvtUi64F64 d a m g, g, true), (.scvtI32F64 d a m g, g, true), (.scvtF32F64 d a m g, g, true), (.scvtF32I64 d a m g, g, true),
        (.scvtF32Ui64 d a m g, g, true), (.scvtI64F32 d a m g, g, true), (.scvtUi64F32 d a m g, g, true), (.scvtI32F32 d a m g, g, true),
        (.csrrd d n, 0, false), (.yrd d g, g, false), (.tkcnt d a g, g, false), (.rstat d g, g, false)] : List (Instr × BitVec 3 × Bool)),
      s.focusCore < 72 → MayIssue (encodeNat r.1) [d] r.2.1 tkNone s → exec r.1 s = .next t →
        t = { s with cores := t.cores, bundle := if r.2.2 then t.bundle else s.bundle } ∧ (s.bundle = none → t.bundle = none) ∧ others ∧
        (∀ k, k < 64 → k ≠ d.toNat → rdReg c' k = rdReg c k) ∧ c' = { c with a := c'.a, bank := c'.bank } ∧
        c'.a = { c.a with regs := c'.a.regs, pc := c'.a.pc, repK := c'.a.repK, loops := c'.a.loops, seq := c'.a.seq, vbase := c'.a.vbase,
                          ustat := if r.2.2 then c'.a.ustat else c.a.ustat } ∧
        (∀ x, byteAt t.mem x = byteAt s.mem x)) ∧
    (∀ r ∈ [.csrwr d a n, .csrset d a n, .csrclr d a n], s.focusCore < 72 → MayIssue (encodeNat r) [d] 0 tkNone s →
      ((issueEnv tkNone s).x a).psn = false → exec r s = .next t →
        t = { s with cores := t.cores } ∧ others ∧ (∀ x, byteAt t.mem x = byteAt s.mem x) ∧
        (∀ k, k < 64 → k ≠ d.toNat → rdReg c' k = rdReg c k) ∧ c' = { c with a := c'.a, bank := c'.bank } ∧
        c'.a = { c.a with
          regs := c'.a.regs, pc := c'.a.pc, repK := c'.a.repK, loops := c'.a.loops, seq := c'.a.seq
          vbase := if n = 0x002 ∨ c.a.seq.isSome then c'.a.vbase else c.a.vbase
          ustat := if n = 0x000 then c'.a.ustat else c.a.ustat
          frm := if n = 0x001 then c'.a.frm else c.a.frm
          vrot := if n = 0x002 then c'.a.vrot else c.a.vrot
          abase := if n = 0x003 then c'.a.abase else c.a.abase
          shmaxe := if n = 0x040 then c'.a.shmaxe else c.a.shmaxe
          shmean := if n = 0x041 then c'.a.shmean else c.a.shmean }) ∧
    (∀ r ∈ [.tkpush a g, .tkwait a g], s.focusCore < 72 → MayIssue (encodeNat r) [] g tkNone s → exec r s = .next t →
      t = { s with cores := t.cores, bundle := t.bundle } ∧ others ∧ (∀ x, byteAt t.mem x = byteAt s.mem x) ∧ c' = { c with a := c'.a } ∧
        c'.a = { c.a with tokens := c'.a.tokens, heldTok := c'.a.heldTok, pc := c'.a.pc, repK := c'.a.repK, loops := c'.a.loops, seq := c'.a.seq, vbase := c'.a.vbase })

/-- R139, R140, R146 to R148, R160, R176, R238, R267: where stores land. A local store, scalar, vector or indexed, changes the scratchpad
at its addresses and nowhere else, a global store what its core reads at the physical addresses of its operands and nowhere else, and neither
changes memory; a push to an outbound stream and the write of its vector likewise; the commit brings exactly the bytes stored in the region
to memory: each address then holds what the core read there. An outbound copy's piece changes no memory but the bytes that its parts write. -/
def Obligations.StoreFrame : Prop :=
  ∀ (s t : State) (x y : BitVec 6) (p ef one : BitVec 1) (sf : BitVec 2) (m : BitVec 3) (tk : Tk), s.focusCore < 72 →
    let ci := s.focusCore
    let e := issueEnv tk s
    let u := issued tk s
    let c := getCore s ci
    let c' := getCore t ci
    let v := (e.x y).val
    let n := 2 ^ sf.toNat
    let dsts := if p = 1 then [y] else []
    let b := natBytes n (e.x x).val.toNat
    let addr := (e.x y).psn = false ∧ v.toNat % n = 0
    let vaddr := (e.x y).psn = false ∧ v.toNat % 4 = 0
    let clean := ∀ q w z, .sector q w z ∈ c.cbuf → Sparse.wf none z = true
    let lanes := (List.range 64).filter fun i => maskBit e.rd.a m.toNat i
    let rest := t.mem = s.mem ∧ c'.ost = c.ost ∧ c'.a.flags = c.a.flags ∧ c'.a.ustat = c.a.ustat ∧ (∀ j, j ≠ ci → getCore t j = getCore s j) ∧
      (∀ k, k < 64 → (p = 1 → k ≠ y.toNat) → rdReg c' k = rdReg c k)
    let landsAt := fun (data : List Lane) (pa : Nat → Nat) => ∀ a, coreByte t ci a =
      match lanes.reverse.find? fun i => decide (pa i ≤ a) && decide (a < pa i + 4) with
      | some i => nth 0 (natBytes 4 (nth Lane.zero data i).data.toNat) (a - pa i)
      | none => coreByte s ci a
    let scrAt := fun (data : List Lane) (o : Nat → Nat) => ∀ w, scrWord c' w =
      match lanes.reverse.find? fun i => o i / 4 == w with
      | some i => nth Lane.zero data i
      | none => scrWord c w
    (MayIssue (encodeNat (.stL x y p sf tk)) dsts 0 tk s → addr → v.toNat + n ≤ plain e.rd.a → Sparse.wf Lane.zero c.scratch = true →
      exec (.stL x y p sf tk) s = .next t → rest ∧ c'.cbuf = c.cbuf ∧
        (∀ o, scrByte c' o = if v.toNat ≤ o ∧ o < v.toNat + n then nth 0 b (o - v.toNat) else scrByte c o)) ∧
    (∀ pa tg, MayIssue (encodeNat (.stG x y p sf tk)) dsts 0 tk s → addr → globalFault u ci .write 2 [v] = none → (e.x x).psn = false →
        transTarget u ci v .write = .ok (tg, pa) → pa % n = 0 → (enterStores c.cbuf [(pa, v, b)]).isSome = true → clean →
      exec (.stG x y p sf tk) s = .next t → rest ∧ c'.scratch = c.scratch ∧
        (∀ a, coreByte t ci a = if pa ≤ a ∧ a < pa + n then nth 0 b (a - pa) else coreByte s ci a)) ∧
    (∀ vs u2, vecSources e u [x.toNat] = some (vs, u2) → vaddr →
      let data := nth [] vs 0
      (MayIssue (encodeNat (.vstL x y p m tk)) dsts 0 tk s → laneFault e.rd.a v lanes = none → Sparse.wf Lane.zero c.scratch = true →
        exec (.vstL x y p m tk) s = .next t → rest ∧ c'.cbuf = c.cbuf ∧ scrAt data fun i => v.toNat + 4 * i) ∧
      (∀ pa, MayIssue (encodeNat (.vstG x y p m tk)) dsts 0 tk s → globalFault u2 ci .write 2 (laneAddrs v lanes) = none →
          lanePsn data lanes = none → (∀ i ∈ lanes, pa i % 4 = 0 ∧ ∃ tg, transTarget u2 ci (v + BitVec.ofNat 64 (4 * i)) .write = .ok (tg, pa i)) →
          (enterStores c.cbuf (lanePieces u2 ci data (lanes.map fun i => (i, v + BitVec.ofNat 64 (4 * i))))).isSome = true → clean →
        exec (.vstG x y p m tk) s = .next t → rest ∧ c'.scratch = c.scratch ∧ landsAt data pa)) ∧
    (portsOf e.rd [x.toNat, x.toNat + 1] = [] → (e.x y).psn = false → p = 0 →
      let data := readV e.rd x.toNat
      let at' := fun (i : Nat) => indexed v one (nth Lane.zero (readV e.rd (x.toNat + 1)) i)
      let l := lanes.map fun i => (i, at' i)
      MayIssue (encodeNat (.scat x y ef one m tk)) [] 0 tk s →
      indexTrap e u (ef == 1) .write 2 v (readV e.rd (x.toNat + 1)) l = none →
      (ef = 1 → Sparse.wf Lane.zero c.scratch = true → exec (.scat x y ef one m tk) s = .next t →
        rest ∧ c'.cbuf = c.cbuf ∧ scrAt data fun i => (at' i).toNat) ∧
      (∀ pa, ef = 0 → lanePsn data lanes = none →
          (∀ i ∈ lanes, pa i % 4 = 0 ∧ ∃ tg, transTarget u ci (BitVec.ofInt 64 (at' i)) .write = .ok (tg, pa i)) →
          (enterStores c.cbuf (lanePieces u ci data (l.map fun z => (z.1, BitVec.ofInt 64 z.2)))).isSome = true → clean →
        exec (.scat x y ef one m tk) s = .next t → rest ∧ c'.scratch = c.scratch ∧ landsAt data pa)) ∧
    (∀ q data r, clean → q < 8 → pushPort s ci q data = .ok t r →
      let va := BitVec.ofInt 64 (streamAddr (streamOf c.a q) (streamOf c.a q).pos.toNat)
      t.mem = s.mem ∧ c'.scratch = c.scratch ∧ c'.ost = c.ost ∧ c'.a.regs = c.a.regs ∧ c'.a.flags = c.a.flags ∧
        (∀ j, j ≠ ci → getCore t j = getCore s j) ∧ ((streamOf c.a q).loc = true → c'.cbuf = c.cbuf) ∧
        (∀ a, (∀ i < data.length, ∀ tg pa, transTarget s ci (va + BitVec.ofNat 64 (4 * i)) .write = .ok (tg, pa) → ¬ (pa ≤ a ∧ a < pa + 4)) →
          coreByte t ci a = coreByte s ci a)) ∧
    (∀ q, q < 8 → exec (.streamOutboundWrite ci q) s = .next t → Sparse.wf Lane.zero c.scratch = true →
      let o := (BitVec.ofInt 64 (streamAddr (streamOf c.a q) (fifoOf c q).first)).toNat
      t.mem = s.mem ∧ c'.a = c.a ∧ c'.cbuf = c.cbuf ∧ c'.ost = c.ost ∧ (∀ j, j ≠ ci → getCore t j = getCore s j) ∧
        (∀ w, (streamOf c.a q).loc = false ∨ w < o / 4 ∨ o / 4 + 64 ≤ w → scrWord c' w = scrWord c w)) ∧
    (∀ resume durable, Memory.wf s.mem = true → (∀ z ∈ c.cbuf, match z with | .atomic _ _ _ _ _ _ _ => False | _ => True) →
        (∀ q w z, .sector q w z ∈ c.cbuf → q % 32 = 0 ∧ Sparse.wf none z = true ∧ ∀ o k, (o, k) ∈ z →
          o < 32 ∧ resolve s (partOf c) 0 (q + o) = .ok (.dev (q + o)) ∧ lostMem s (q + o) = false) →
        (c.cbuf.Pairwise fun z w => match z, w with | .sector q _ _, .sector k _ _ => q ≠ k | _, _ => True) →
      ∀ a, byteAt (commitRegion s ci resume durable).mem a = coreByte s ci a) ∧
    (∀ z, Memory.wf s.mem = true → (∀ q < 8, ∀ w ∈ (getPart s q).switched, w.core ≠ ci) → c.copies.find? (fun k => k.outb && !copyDone k && mayMove c k) = some z →
      exec (.outboundCopyExecute ci) s = .next t →
      let data := (pieceBytes c z).take ((pieceSpan z).2.1 - (pieceSpan z).1)
      let run := (pieceWrites z).foldl (fun (w : State × List (Byte × Bool) × List (Nat × Nat)) k =>
        (partOut w.1 ci .write k.1 (w.2.1.take k.2), w.2.1.drop k.2, match transTarget w.1 ci k.1 .write with
        | .ok (.dev pa, _) => (pa, k.2) :: w.2.2
        | _ => w.2.2)) (s, data, [])
      c'.scratch = c.scratch ∧ c'.ost = c.ost ∧ c'.a.regs = c.a.regs ∧ c'.a.flags = c.a.flags ∧
        (∀ a, (∀ k ∈ run.2.2, ¬ (k.1 ≤ a ∧ a < k.1 + k.2)) → byteAt t.mem a = byteAt s.mem a))
end

