-- ==== Sys2Proof/Laws/Exec.lean ====
section
/-! SUPPORT. The meaning that `exec` calls for each constructor, one lemma per arm. -/

namespace Sys2Proof.Machine

theorem exec_add (d a b : BitVec 6) (g : BitVec 3) (s : State) : exec (.add d a b g) s = execAdd d a b g s := rfl
theorem exec_sub (d a b : BitVec 6) (g : BitVec 3) (s : State) : exec (.sub d a b g) s = execSub d a b g s := rfl
theorem exec_and (d a b : BitVec 6) (g : BitVec 3) (s : State) : exec (.and d a b g) s = execAnd d a b g s := rfl
theorem exec_or (d a b : BitVec 6) (g : BitVec 3) (s : State) : exec (.or d a b g) s = execOr d a b g s := rfl
theorem exec_xor (d a b : BitVec 6) (g : BitVec 3) (s : State) : exec (.xor d a b g) s = execXor d a b g s := rfl
theorem exec_sll (d a b : BitVec 6) (g : BitVec 3) (s : State) : exec (.sll d a b g) s = execSll d a b g s := rfl
theorem exec_srl (d a b : BitVec 6) (g : BitVec 3) (s : State) : exec (.srl d a b g) s = execSrl d a b g s := rfl
theorem exec_sra (d a b : BitVec 6) (g : BitVec 3) (s : State) : exec (.sra d a b g) s = execSra d a b g s := rfl
theorem exec_mul (d a b : BitVec 6) (g : BitVec 3) (s : State) : exec (.mul d a b g) s = execMul d a b g s := rfl
theorem exec_mulhiS (d a b : BitVec 6) (g : BitVec 3) (s : State) : exec (.mulhiS d a b g) s = execMulhiS d a b g s := rfl
theorem exec_mulhiU (d a b : BitVec 6) (g : BitVec 3) (s : State) : exec (.mulhiU d a b g) s = execMulhiU d a b g s := rfl
theorem exec_quotS (d a b : BitVec 6) (g : BitVec 3) (s : State) : exec (.quotS d a b g) s = execQuotS d a b g s := rfl
theorem exec_quotU (d a b : BitVec 6) (g : BitVec 3) (s : State) : exec (.quotU d a b g) s = execQuotU d a b g s := rfl
theorem exec_rmdrS (d a b : BitVec 6) (g : BitVec 3) (s : State) : exec (.rmdrS d a b g) s = execRmdrS d a b g s := rfl
theorem exec_rmdrU (d a b : BitVec 6) (g : BitVec 3) (s : State) : exec (.rmdrU d a b g) s = execRmdrU d a b g s := rfl
theorem exec_addi (d a : BitVec 6) (i : BitVec 13) (s : State) : exec (.addi d a i) s = execAddi d a i s := rfl
theorem exec_andi (d a : BitVec 6) (i : BitVec 13) (s : State) : exec (.andi d a i) s = execAndi d a i s := rfl
theorem exec_ori (d a : BitVec 6) (i : BitVec 13) (s : State) : exec (.ori d a i) s = execOri d a i s := rfl
theorem exec_xori (d a : BitVec 6) (i : BitVec 13) (s : State) : exec (.xori d a i) s = execXori d a i s := rfl
theorem exec_slli (d a sf : BitVec 6) (s : State) : exec (.slli d a sf) s = execSlli d a sf s := rfl
theorem exec_srli (d a sf : BitVec 6) (s : State) : exec (.srli d a sf) s = execSrli d a sf s := rfl
theorem exec_srai (d a sf : BitVec 6) (s : State) : exec (.srai d a sf) s = execSrai d a sf s := rfl
theorem exec_himm (d : BitVec 6) (i : BitVec 19) (s : State) : exec (.himm d i) s = execHimm d i s := rfl
theorem exec_adpc (d : BitVec 6) (i : BitVec 19) (s : State) : exec (.adpc d i) s = execAdpc d i s := rfl
theorem exec_cmpEq (d a b : BitVec 6) (g : BitVec 3) (s : State) : exec (.cmpEq d a b g) s = execCmpEq d a b g s := rfl
theorem exec_cmpNe (d a b : BitVec 6) (g : BitVec 3) (s : State) : exec (.cmpNe d a b g) s = execCmpNe d a b g s := rfl
theorem exec_cmpLt (d a b : BitVec 6) (g : BitVec 3) (s : State) : exec (.cmpLt d a b g) s = execCmpLt d a b g s := rfl
theorem exec_cmpGe (d a b : BitVec 6) (g : BitVec 3) (s : State) : exec (.cmpGe d a b g) s = execCmpGe d a b g s := rfl
theorem exec_cmpLtu (d a b : BitVec 6) (g : BitVec 3) (s : State) : exec (.cmpLtu d a b g) s = execCmpLtu d a b g s := rfl
theorem exec_cmpGeu (d a b : BitVec 6) (g : BitVec 3) (s : State) : exec (.cmpGeu d a b g) s = execCmpGeu d a b g s := rfl
theorem exec_flAnd (d a b : BitVec 6) (g : BitVec 3) (s : State) : exec (.flAnd d a b g) s = execFlAnd d a b g s := rfl
theorem exec_flOr (d a b : BitVec 6) (g : BitVec 3) (s : State) : exec (.flOr d a b g) s = execFlOr d a b g s := rfl
theorem exec_flXor (d a b : BitVec 6) (g : BitVec 3) (s : State) : exec (.flXor d a b g) s = execFlXor d a b g s := rfl
theorem exec_flAndn (d a b : BitVec 6) (g : BitVec 3) (s : State) : exec (.flAndn d a b g) s = execFlAndn d a b g s := rfl
theorem exec_flRd (d : BitVec 6) (g : BitVec 3) (s : State) : exec (.flRd d g) s = execFlRd d g s := rfl
theorem exec_flWr (a : BitVec 6) (g : BitVec 3) (s : State) : exec (.flWr a g) s = execFlWr a g s := rfl
theorem exec_cmpiEq (f : BitVec 3) (a : BitVec 6) (i : BitVec 13) (s : State) : exec (.cmpiEq f a i) s = execCmpiEq f a i s := rfl
theorem exec_cmpiNe (f : BitVec 3) (a : BitVec 6) (i : BitVec 13) (s : State) : exec (.cmpiNe f a i) s = execCmpiNe f a i s := rfl
theorem exec_cmpiLt (f : BitVec 3) (a : BitVec 6) (i : BitVec 13) (s : State) : exec (.cmpiLt f a i) s = execCmpiLt f a i s := rfl
theorem exec_cmpiGe (f : BitVec 3) (a : BitVec 6) (i : BitVec 13) (s : State) : exec (.cmpiGe f a i) s = execCmpiGe f a i s := rfl
theorem exec_cmpiLtu (f : BitVec 3) (a : BitVec 6) (i : BitVec 13) (s : State) : exec (.cmpiLtu f a i) s = execCmpiLtu f a i s := rfl
theorem exec_cmpiGeu (f : BitVec 3) (a : BitVec 6) (i : BitVec 13) (s : State) : exec (.cmpiGeu f a i) s = execCmpiGeu f a i s := rfl
theorem exec_br (f : BitVec 3) (o : BitVec 22) (s : State) : exec (.br f o) s = execBr f o s := rfl
theorem exec_brn (f : BitVec 3) (o : BitVec 22) (s : State) : exec (.brn f o) s = execBrn f o s := rfl
theorem exec_call (f : BitVec 3) (o : BitVec 22) (s : State) : exec (.call f o) s = execCall f o s := rfl
theorem exec_jmpr (d a : BitVec 6) (g : BitVec 3) (s : State) : exec (.jmpr d a g) s = execJmpr d a g s := rfl
theorem exec_rep (n : BitVec 8) (f sf : BitVec 4) (s : State) : exec (.rep n f sf) s = execRep n f sf s := rfl
theorem exec_loopO (a : BitVec 6) (i : BitVec 13) (s : State) : exec (.loopO a i) s = execLoopO a i s := rfl
theorem exec_loopI (a : BitVec 6) (i : BitVec 13) (s : State) : exec (.loopI a i) s = execLoopI a i s := rfl
theorem exec_lpclrO (s : State) : exec (.lpclrO) s = execLpclrO s := rfl
theorem exec_lpclrI (s : State) : exec (.lpclrI) s = execLpclrI s := rfl
theorem exec_loopm (i a b : BitVec 6) (g : BitVec 3) (sf : BitVec 4) (s : State) : exec (.loopm i a b g sf) s = execLoopm i a b g sf s := rfl
theorem exec_yset (n : BitVec 6) (g : BitVec 3) (s : State) : exec (.yset n g) s = execYset n g s := rfl
theorem exec_yclr (n : BitVec 6) (g : BitVec 3) (s : State) : exec (.yclr n g) s = execYclr n g s := rfl
theorem exec_ywait (n : BitVec 6) (g : BitVec 3) (s : State) : exec (.ywait n g) s = execYwait n g s := rfl
theorem exec_ywaitc (n : BitVec 6) (g : BitVec 3) (s : State) : exec (.ywaitc n g) s = execYwaitc n g s := rfl
theorem exec_ytas (d n : BitVec 6) (g : BitVec 3) (s : State) : exec (.ytas d n g) s = execYtas d n g s := rfl
theorem exec_yrd (d : BitVec 6) (g : BitVec 3) (s : State) : exec (.yrd d g) s = execYrd d g s := rfl
theorem exec_tkpush (p : BitVec 6) (g : BitVec 3) (s : State) : exec (.tkpush p g) s = execTkpush p g s := rfl
theorem exec_tkwait (p : BitVec 6) (g : BitVec 3) (s : State) : exec (.tkwait p g) s = execTkwait p g s := rfl
theorem exec_tkcnt (d p : BitVec 6) (g : BitVec 3) (s : State) : exec (.tkcnt d p g) s = execTkcnt d p g s := rfl
theorem exec_rset (a b : BitVec 6) (g : BitVec 3) (s : State) : exec (.rset a b g) s = execRset a b g s := rfl
theorem exec_rnext (d f : BitVec 6) (g : BitVec 3) (s : State) : exec (.rnext d f g) s = execRnext d f g s := rfl
theorem exec_rsteal (r : BitVec 6) (g : BitVec 3) (s : State) : exec (.rsteal r g) s = execRsteal r g s := rfl
theorem exec_rstat (d : BitVec 6) (g : BitVec 3) (s : State) : exec (.rstat d g) s = execRstat d g s := rfl
theorem exec_faddF64 (d a b : BitVec 6) (g : BitVec 3) (s : State) : exec (.faddF64 d a b g) s = execFaddF64 d a b g s := rfl
theorem exec_fsubF64 (d a b : BitVec 6) (g : BitVec 3) (s : State) : exec (.fsubF64 d a b g) s = execFsubF64 d a b g s := rfl
theorem exec_fmulF64 (d a b : BitVec 6) (g : BitVec 3) (s : State) : exec (.fmulF64 d a b g) s = execFmulF64 d a b g s := rfl
theorem exec_fdivF64 (d a b : BitVec 6) (g : BitVec 3) (s : State) : exec (.fdivF64 d a b g) s = execFdivF64 d a b g s := rfl
theorem exec_fsqrtF64 (d a : BitVec 6) (g : BitVec 3) (s : State) : exec (.fsqrtF64 d a g) s = execFsqrtF64 d a g s := rfl
theorem exec_fminF64 (d a b : BitVec 6) (g : BitVec 3) (s : State) : exec (.fminF64 d a b g) s = execFminF64 d a b g s := rfl
theorem exec_fmaxF64 (d a b : BitVec 6) (g : BitVec 3) (s : State) : exec (.fmaxF64 d a b g) s = execFmaxF64 d a b g s := rfl
theorem exec_fmacF64 (d a b : BitVec 6) (g : BitVec 3) (s : State) : exec (.fmacF64 d a b g) s = execFmacF64 d a b g s := rfl
theorem exec_fcmpEqF64 (d a b : BitVec 6) (g : BitVec 3) (s : State) : exec (.fcmpEqF64 d a b g) s = execFcmpEqF64 d a b g s := rfl
theorem exec_fcmpLtF64 (d a b : BitVec 6) (g : BitVec 3) (s : State) : exec (.fcmpLtF64 d a b g) s = execFcmpLtF64 d a b g s := rfl
theorem exec_fcmpLeF64 (d a b : BitVec 6) (g : BitVec 3) (s : State) : exec (.fcmpLeF64 d a b g) s = execFcmpLeF64 d a b g s := rfl
theorem exec_scvtF64F32 (d a : BitVec 6) (m g : BitVec 3) (s : State) : exec (.scvtF64F32 d a m g) s = execScvtF64F32 d a m g s := rfl
theorem exec_scvtF64I64 (d a : BitVec 6) (m g : BitVec 3) (s : State) : exec (.scvtF64I64 d a m g) s = execScvtF64I64 d a m g s := rfl
theorem exec_scvtF64Ui64 (d a : BitVec 6) (m g : BitVec 3) (s : State) : exec (.scvtF64Ui64 d a m g) s = execScvtF64Ui64 d a m g s := rfl
theorem exec_scvtI64F64 (d a : BitVec 6) (m g : BitVec 3) (s : State) : exec (.scvtI64F64 d a m g) s = execScvtI64F64 d a m g s := rfl
theorem exec_scvtUi64F64 (d a : BitVec 6) (m g : BitVec 3) (s : State) : exec (.scvtUi64F64 d a m g) s = execScvtUi64F64 d a m g s := rfl
theorem exec_scvtI32F64 (d a : BitVec 6) (m g : BitVec 3) (s : State) : exec (.scvtI32F64 d a m g) s = execScvtI32F64 d a m g s := rfl
theorem exec_fkindF64 (d a : BitVec 6) (g : BitVec 3) (s : State) : exec (.fkindF64 d a g) s = execFkindF64 d a g s := rfl
theorem exec_fabsF64 (d a : BitVec 6) (g : BitVec 3) (s : State) : exec (.fabsF64 d a g) s = execFabsF64 d a g s := rfl
theorem exec_fnegF64 (d a : BitVec 6) (g : BitVec 3) (s : State) : exec (.fnegF64 d a g) s = execFnegF64 d a g s := rfl
theorem exec_fmsgnF64 (d a b : BitVec 6) (g : BitVec 3) (s : State) : exec (.fmsgnF64 d a b g) s = execFmsgnF64 d a b g s := rfl
theorem exec_faddF32 (d a b : BitVec 6) (g : BitVec 3) (s : State) : exec (.faddF32 d a b g) s = execFaddF32 d a b g s := rfl
theorem exec_fsubF32 (d a b : BitVec 6) (g : BitVec 3) (s : State) : exec (.fsubF32 d a b g) s = execFsubF32 d a b g s := rfl
theorem exec_fmulF32 (d a b : BitVec 6) (g : BitVec 3) (s : State) : exec (.fmulF32 d a b g) s = execFmulF32 d a b g s := rfl
theorem exec_fdivF32 (d a b : BitVec 6) (g : BitVec 3) (s : State) : exec (.fdivF32 d a b g) s = execFdivF32 d a b g s := rfl
theorem exec_fsqrtF32 (d a : BitVec 6) (g : BitVec 3) (s : State) : exec (.fsqrtF32 d a g) s = execFsqrtF32 d a g s := rfl
theorem exec_fminF32 (d a b : BitVec 6) (g : BitVec 3) (s : State) : exec (.fminF32 d a b g) s = execFminF32 d a b g s := rfl
theorem exec_fmaxF32 (d a b : BitVec 6) (g : BitVec 3) (s : State) : exec (.fmaxF32 d a b g) s = execFmaxF32 d a b g s := rfl
theorem exec_fmacF32 (d a b : BitVec 6) (g : BitVec 3) (s : State) : exec (.fmacF32 d a b g) s = execFmacF32 d a b g s := rfl
theorem exec_fcmpEqF32 (d a b : BitVec 6) (g : BitVec 3) (s : State) : exec (.fcmpEqF32 d a b g) s = execFcmpEqF32 d a b g s := rfl
theorem exec_fcmpLtF32 (d a b : BitVec 6) (g : BitVec 3) (s : State) : exec (.fcmpLtF32 d a b g) s = execFcmpLtF32 d a b g s := rfl
theorem exec_fcmpLeF32 (d a b : BitVec 6) (g : BitVec 3) (s : State) : exec (.fcmpLeF32 d a b g) s = execFcmpLeF32 d a b g s := rfl
theorem exec_scvtF32F64 (d a : BitVec 6) (m g : BitVec 3) (s : State) : exec (.scvtF32F64 d a m g) s = execScvtF32F64 d a m g s := rfl
theorem exec_scvtF32I64 (d a : BitVec 6) (m g : BitVec 3) (s : State) : exec (.scvtF32I64 d a m g) s = execScvtF32I64 d a m g s := rfl
theorem exec_scvtF32Ui64 (d a : BitVec 6) (m g : BitVec 3) (s : State) : exec (.scvtF32Ui64 d a m g) s = execScvtF32Ui64 d a m g s := rfl
theorem exec_scvtI64F32 (d a : BitVec 6) (m g : BitVec 3) (s : State) : exec (.scvtI64F32 d a m g) s = execScvtI64F32 d a m g s := rfl
theorem exec_scvtUi64F32 (d a : BitVec 6) (m g : BitVec 3) (s : State) : exec (.scvtUi64F32 d a m g) s = execScvtUi64F32 d a m g s := rfl
theorem exec_scvtI32F32 (d a : BitVec 6) (m g : BitVec 3) (s : State) : exec (.scvtI32F32 d a m g) s = execScvtI32F32 d a m g s := rfl
theorem exec_fkindF32 (d a : BitVec 6) (g : BitVec 3) (s : State) : exec (.fkindF32 d a g) s = execFkindF32 d a g s := rfl
theorem exec_fabsF32 (d a : BitVec 6) (g : BitVec 3) (s : State) : exec (.fabsF32 d a g) s = execFabsF32 d a g s := rfl
theorem exec_fnegF32 (d a : BitVec 6) (g : BitVec 3) (s : State) : exec (.fnegF32 d a g) s = execFnegF32 d a g s := rfl
theorem exec_fmsgnF32 (d a b : BitVec 6) (g : BitVec 3) (s : State) : exec (.fmsgnF32 d a b g) s = execFmsgnF32 d a b g s := rfl
theorem exec_csrrd (d : BitVec 6) (c : BitVec 10) (s : State) : exec (.csrrd d c) s = execCsrrd d c s := rfl
theorem exec_csrwr (d a : BitVec 6) (c : BitVec 10) (s : State) : exec (.csrwr d a c) s = execCsrwr d a c s := rfl
theorem exec_csrset (d a : BitVec 6) (c : BitVec 10) (s : State) : exec (.csrset d a c) s = execCsrset d a c s := rfl
theorem exec_csrclr (d a : BitVec 6) (c : BitVec 10) (s : State) : exec (.csrclr d a c) s = execCsrclr d a c s := rfl
theorem exec_fork (d a b : BitVec 6) (g : BitVec 3) (s : State) : exec (.fork d a b g) s = execFork d a b g s := rfl
theorem exec_join (o : BitVec 22) (s : State) : exec (.join o) s = execJoin o s := rfl
theorem exec_commit (s : State) : exec (.commit) s = execCommit s := rfl
theorem exec_commitD (a b : BitVec 6) (s : State) : exec (.commitD a b) s = execCommitD a b s := rfl
theorem exec_replay (g : BitVec 3) (s : State) : exec (.replay g) s = execReplay g s := rfl
theorem exec_pset (d a : BitVec 6) (g : BitVec 3) (s : State) : exec (.pset d a g) s = execPset d a g s := rfl
theorem exec_pclr (d a : BitVec 6) (g : BitVec 3) (s : State) : exec (.pclr d a g) s = execPclr d a g s := rfl
theorem exec_ptest (d a : BitVec 6) (g : BitVec 3) (s : State) : exec (.ptest d a g) s = execPtest d a g s := rfl
theorem exec_hinit (x y : BitVec 6) (tk : Tk) (s : State) : exec (.hinit x y tk) s = execHinit x y tk s := rfl
theorem exec_harrive (x y : BitVec 6) (tk : Tk) (s : State) : exec (.harrive x y tk) s = execHarrive x y tk s := rfl
theorem exec_hwait (x y : BitVec 6) (tk : Tk) (s : State) : exec (.hwait x y tk) s = execHwait x y tk s := rfl
theorem exec_hstat (x y : BitVec 6) (tk : Tk) (s : State) : exec (.hstat x y tk) s = execHstat x y tk s := rfl
theorem exec_chainKick (x y : BitVec 6) (tk : Tk) (s : State) : exec (.chainKick x y tk) s = execChainKick x y tk s := rfl
theorem exec_chainStop (x : BitVec 6) (tk : Tk) (s : State) : exec (.chainStop x tk) s = execChainStop x tk s := rfl
theorem exec_chainStat (x y : BitVec 6) (tk : Tk) (s : State) : exec (.chainStat x y tk) s = execChainStat x y tk s := rfl
theorem exec_qpost (x y : BitVec 6) (tk : Tk) (s : State) : exec (.qpost x y tk) s = execQpost x y tk s := rfl
theorem exec_sigadd (x y : BitVec 6) (tk : Tk) (s : State) : exec (.sigadd x y tk) s = execSigadd x y tk s := rfl
theorem exec_ringpost (x y : BitVec 6) (tk : Tk) (s : State) : exec (.ringpost x y tk) s = execRingpost x y tk s := rfl
theorem exec_ares (x y : BitVec 6) (tk : Tk) (s : State) : exec (.ares x y tk) s = execAres x y tk s := rfl
theorem exec_aresh (x y : BitVec 6) (tk : Tk) (s : State) : exec (.aresh x y tk) s = execAresh x y tk s := rfl
theorem exec_jeos (n : BitVec 3) (o : BitVec 22) (s : State) : exec (.jeos n o) s = execJeos n o s := rfl
theorem exec_fenceCore (g : BitVec 3) (s : State) : exec (.fenceCore g) s = execFenceCore g s := rfl
theorem exec_fenceDie (g : BitVec 3) (s : State) : exec (.fenceDie g) s = execFenceDie g s := rfl
theorem exec_fencePkg (g : BitVec 3) (s : State) : exec (.fencePkg g) s = execFencePkg g s := rfl
theorem exec_fenceSys (g : BitVec 3) (s : State) : exec (.fenceSys g) s = execFenceSys g s := rfl
theorem exec_endOp (g : BitVec 3) (s : State) : exec (.endOp g) s = execEndOp g s := rfl
theorem exec_ldG (x y : BitVec 6) (p u : BitVec 1) (sf : BitVec 2) (tk : Tk) (s : State) : exec (.ldG x y p u sf tk) s = execLdG x y p u sf tk s := rfl
theorem exec_ldL (x y : BitVec 6) (p u : BitVec 1) (sf : BitVec 2) (tk : Tk) (s : State) : exec (.ldL x y p u sf tk) s = execLdL x y p u sf tk s := rfl
theorem exec_vldG (x y : BitVec 6) (p : BitVec 1) (m : BitVec 3) (tk : Tk) (s : State) : exec (.vldG x y p m tk) s = execVldG x y p m tk s := rfl
theorem exec_vldL (x y : BitVec 6) (p : BitVec 1) (m : BitVec 3) (tk : Tk) (s : State) : exec (.vldL x y p m tk) s = execVldL x y p m tk s := rfl
theorem exec_gath (x y : BitVec 6) (ef c : BitVec 1) (m : BitVec 3) (tk : Tk) (s : State) : exec (.gath x y ef c m tk) s = execGath x y ef c m tk s := rfl
theorem exec_sbaseL (x y : BitVec 6) (tk : Tk) (s : State) : exec (.sbaseL x y tk) s = execSbaseL x y tk s := rfl
theorem exec_sdim0L (x y : BitVec 6) (tk : Tk) (s : State) : exec (.sdim0L x y tk) s = execSdim0L x y tk s := rfl
theorem exec_sdim1L (x y : BitVec 6) (tk : Tk) (s : State) : exec (.sdim1L x y tk) s = execSdim1L x y tk s := rfl
theorem exec_sdim2L (x y : BitVec 6) (tk : Tk) (s : State) : exec (.sdim2L x y tk) s = execSdim2L x y tk s := rfl
theorem exec_smodeL (x y : BitVec 6) (tk : Tk) (s : State) : exec (.smodeL x y tk) s = execSmodeL x y tk s := rfl
theorem exec_sbindL (x : BitVec 6) (tk : Tk) (s : State) : exec (.sbindL x tk) s = execSbindL x tk s := rfl
theorem exec_sunbindL (x : BitVec 6) (tk : Tk) (s : State) : exec (.sunbindL x tk) s = execSunbindL x tk s := rfl
theorem exec_sstartL (x : BitVec 6) (tk : Tk) (s : State) : exec (.sstartL x tk) s = execSstartL x tk s := rfl
theorem exec_sstopL (x : BitVec 6) (tk : Tk) (s : State) : exec (.sstopL x tk) s = execSstopL x tk s := rfl
theorem exec_sseekL (x y : BitVec 6) (tk : Tk) (s : State) : exec (.sseekL x y tk) s = execSseekL x y tk s := rfl
theorem exec_sposL (x y : BitVec 6) (tk : Tk) (s : State) : exec (.sposL x y tk) s = execSposL x y tk s := rfl
theorem exec_markL (tk : Tk) (s : State) : exec (.markL tk) s = execMarkL tk s := rfl
theorem exec_cpin (x y : BitVec 6) (tk : Tk) (s : State) : exec (.cpin x y tk) s = execCpin x y tk s := rfl
theorem exec_cpin2d (x y : BitVec 6) (tk : Tk) (s : State) : exec (.cpin2d x y tk) s = execCpin2d x y tk s := rfl
theorem exec_cpinT (x y : BitVec 6) (tk : Tk) (s : State) : exec (.cpinT x y tk) s = execCpinT x y tk s := rfl
theorem exec_prefG (y : BitVec 6) (tk : Tk) (s : State) : exec (.prefG y tk) s = execPrefG y tk s := rfl
theorem exec_ssize (y : BitVec 6) (tk : Tk) (s : State) : exec (.ssize y tk) s = execSsize y tk s := rfl
theorem exec_smap (x y : BitVec 6) (tk : Tk) (s : State) : exec (.smap x y tk) s = execSmap x y tk s := rfl
theorem exec_sunmap (x : BitVec 6) (tk : Tk) (s : State) : exec (.sunmap x tk) s = execSunmap x tk s := rfl
theorem exec_sflush (x : BitVec 6) (tk : Tk) (s : State) : exec (.sflush x tk) s = execSflush x tk s := rfl
theorem exec_sinval (x : BitVec 6) (tk : Tk) (s : State) : exec (.sinval x tk) s = execSinval x tk s := rfl
theorem exec_vadd (d a b : BitVec 6) (m : BitVec 3) (t : BitVec 4) (s : State) : exec (.vadd d a b m t) s = execVadd d a b m t s := rfl
theorem exec_vsub (d a b : BitVec 6) (m : BitVec 3) (t : BitVec 4) (s : State) : exec (.vsub d a b m t) s = execVsub d a b m t s := rfl
theorem exec_vmul (d a b : BitVec 6) (m : BitVec 3) (t : BitVec 4) (s : State) : exec (.vmul d a b m t) s = execVmul d a b m t s := rfl
theorem exec_vfma (d a b : BitVec 6) (m : BitVec 3) (t : BitVec 4) (s : State) : exec (.vfma d a b m t) s = execVfma d a b m t s := rfl
theorem exec_vfms (d a b : BitVec 6) (m : BitVec 3) (t : BitVec 4) (s : State) : exec (.vfms d a b m t) s = execVfms d a b m t s := rfl
theorem exec_vfnma (d a b : BitVec 6) (m : BitVec 3) (t : BitVec 4) (s : State) : exec (.vfnma d a b m t) s = execVfnma d a b m t s := rfl
theorem exec_vmin (d a b : BitVec 6) (m : BitVec 3) (t : BitVec 4) (s : State) : exec (.vmin d a b m t) s = execVmin d a b m t s := rfl
theorem exec_vmax (d a b : BitVec 6) (m : BitVec 3) (t : BitVec 4) (s : State) : exec (.vmax d a b m t) s = execVmax d a b m t s := rfl
theorem exec_vdiv (d a b : BitVec 6) (m : BitVec 3) (t : BitVec 4) (s : State) : exec (.vdiv d a b m t) s = execVdiv d a b m t s := rfl
theorem exec_vand (d a b : BitVec 6) (m : BitVec 3) (t : BitVec 4) (s : State) : exec (.vand d a b m t) s = execVand d a b m t s := rfl
theorem exec_vor (d a b : BitVec 6) (m : BitVec 3) (t : BitVec 4) (s : State) : exec (.vor d a b m t) s = execVor d a b m t s := rfl
theorem exec_vxor (d a b : BitVec 6) (m : BitVec 3) (t : BitVec 4) (s : State) : exec (.vxor d a b m t) s = execVxor d a b m t s := rfl
theorem exec_vsll (d a b : BitVec 6) (m : BitVec 3) (t : BitVec 4) (s : State) : exec (.vsll d a b m t) s = execVsll d a b m t s := rfl
theorem exec_vsrl (d a b : BitVec 6) (m : BitVec 3) (t : BitVec 4) (s : State) : exec (.vsrl d a b m t) s = execVsrl d a b m t s := rfl
theorem exec_vsra (d a b : BitVec 6) (m : BitVec 3) (t : BitVec 4) (s : State) : exec (.vsra d a b m t) s = execVsra d a b m t s := rfl
theorem exec_vadds (d a b : BitVec 6) (m : BitVec 3) (t : BitVec 4) (s : State) : exec (.vadds d a b m t) s = execVadds d a b m t s := rfl
theorem exec_vsubs (d a b : BitVec 6) (m : BitVec 3) (t : BitVec 4) (s : State) : exec (.vsubs d a b m t) s = execVsubs d a b m t s := rfl
theorem exec_vmulh (d a b : BitVec 6) (m : BitVec 3) (t : BitVec 4) (s : State) : exec (.vmulh d a b m t) s = execVmulh d a b m t s := rfl
theorem exec_vabsd (d a b : BitVec 6) (m : BitVec 3) (t : BitVec 4) (s : State) : exec (.vabsd d a b m t) s = execVabsd d a b m t s := rfl
theorem exec_vavg (d a b : BitVec 6) (m : BitVec 3) (t : BitVec 4) (s : State) : exec (.vavg d a b m t) s = execVavg d a b m t s := rfl
theorem exec_vcmpeq (d a b : BitVec 6) (m : BitVec 3) (t : BitVec 4) (s : State) : exec (.vcmpeq d a b m t) s = execVcmpeq d a b m t s := rfl
theorem exec_vcmplt (d a b : BitVec 6) (m : BitVec 3) (t : BitVec 4) (s : State) : exec (.vcmplt d a b m t) s = execVcmplt d a b m t s := rfl
theorem exec_vcmple (d a b : BitVec 6) (m : BitVec 3) (t : BitVec 4) (s : State) : exec (.vcmple d a b m t) s = execVcmple d a b m t s := rfl
theorem exec_vcmpne (d a b : BitVec 6) (m : BitVec 3) (t : BitVec 4) (s : State) : exec (.vcmpne d a b m t) s = execVcmpne d a b m t s := rfl
theorem exec_vsel (d a b : BitVec 6) (m : BitVec 3) (t : BitVec 4) (s : State) : exec (.vsel d a b m t) s = execVsel d a b m t s := rfl
theorem exec_vperm (d a b : BitVec 6) (m : BitVec 3) (t : BitVec 4) (s : State) : exec (.vperm d a b m t) s = execVperm d a b m t s := rfl
theorem exec_vzipLo (d a b : BitVec 6) (t : BitVec 4) (s : State) : exec (.vzipLo d a b t) s = execVzipLo d a b t s := rfl
theorem exec_vzipHi (d a b : BitVec 6) (t : BitVec 4) (s : State) : exec (.vzipHi d a b t) s = execVzipHi d a b t s := rfl
theorem exec_vuzpEv (d a b : BitVec 6) (t : BitVec 4) (s : State) : exec (.vuzpEv d a b t) s = execVuzpEv d a b t s := rfl
theorem exec_vuzpOd (d a b : BitVec 6) (t : BitVec 4) (s : State) : exec (.vuzpOd d a b t) s = execVuzpOd d a b t s := rfl
theorem exec_vslide (d a b : BitVec 6) (r n : BitVec 1) (t : BitVec 4) (s : State) : exec (.vslide d a b r n t) s = execVslide d a b r n t s := rfl
theorem exec_vabs (d a : BitVec 6) (m : BitVec 3) (t : BitVec 4) (s : State) : exec (.vabs d a m t) s = execVabs d a m t s := rfl
theorem exec_vneg (d a : BitVec 6) (m : BitVec 3) (t : BitVec 4) (s : State) : exec (.vneg d a m t) s = execVneg d a m t s := rfl
theorem exec_vsqrt (d a : BitVec 6) (m : BitVec 3) (t : BitVec 4) (s : State) : exec (.vsqrt d a m t) s = execVsqrt d a m t s := rfl
theorem exec_vrecip (d a : BitVec 6) (m : BitVec 3) (t : BitVec 4) (s : State) : exec (.vrecip d a m t) s = execVrecip d a m t s := rfl
theorem exec_vrsqrt (d a : BitVec 6) (m : BitVec 3) (t : BitVec 4) (s : State) : exec (.vrsqrt d a m t) s = execVrsqrt d a m t s := rfl
theorem exec_vnot (d a : BitVec 6) (m : BitVec 3) (t : BitVec 4) (s : State) : exec (.vnot d a m t) s = execVnot d a m t s := rfl
theorem exec_vclz (d a : BitVec 6) (m : BitVec 3) (t : BitVec 4) (s : State) : exec (.vclz d a m t) s = execVclz d a m t s := rfl
theorem exec_vpopc (d a : BitVec 6) (m : BitVec 3) (t : BitVec 4) (s : State) : exec (.vpopc d a m t) s = execVpopc d a m t s := rfl
theorem exec_vrint (d a : BitVec 6) (m : BitVec 3) (t : BitVec 4) (s : State) : exec (.vrint d a m t) s = execVrint d a m t s := rfl
theorem exec_vclass (d a : BitVec 6) (m : BitVec 3) (t : BitVec 4) (s : State) : exec (.vclass d a m t) s = execVclass d a m t s := rfl
theorem exec_vmov (d a : BitVec 6) (m : BitVec 3) (t : BitVec 4) (s : State) : exec (.vmov d a m t) s = execVmov d a m t s := rfl
theorem exec_vcvt (d a : BitVec 6) (sf : BitVec 1) (u : BitVec 4) (m : BitVec 3) (t : BitVec 4) (s : State) : exec (.vcvt d a sf u m t) s = execVcvt d a sf u m t s := rfl
theorem exec_vredSum (d a : BitVec 6) (m : BitVec 3) (t : BitVec 4) (s : State) : exec (.vredSum d a m t) s = execVredSum d a m t s := rfl
theorem exec_vredMin (d a : BitVec 6) (m : BitVec 3) (t : BitVec 4) (s : State) : exec (.vredMin d a m t) s = execVredMin d a m t s := rfl
theorem exec_vredMax (d a : BitVec 6) (m : BitVec 3) (t : BitVec 4) (s : State) : exec (.vredMax d a m t) s = execVredMax d a m t s := rfl
theorem exec_vredAnd (d a : BitVec 6) (m : BitVec 3) (t : BitVec 4) (s : State) : exec (.vredAnd d a m t) s = execVredAnd d a m t s := rfl
theorem exec_vredOr (d a : BitVec 6) (m : BitVec 3) (t : BitVec 4) (s : State) : exec (.vredOr d a m t) s = execVredOr d a m t s := rfl
theorem exec_vredXor (d a : BitVec 6) (m : BitVec 3) (t : BitVec 4) (s : State) : exec (.vredXor d a m t) s = execVredXor d a m t s := rfl
theorem exec_vredSumw (d a : BitVec 6) (m : BitVec 3) (t : BitVec 4) (s : State) : exec (.vredSumw d a m t) s = execVredSumw d a m t s := rfl
theorem exec_vscanSum (d a : BitVec 6) (m : BitVec 3) (t : BitVec 4) (s : State) : exec (.vscanSum d a m t) s = execVscanSum d a m t s := rfl
theorem exec_vscanMin (d a : BitVec 6) (m : BitVec 3) (t : BitVec 4) (s : State) : exec (.vscanMin d a m t) s = execVscanMin d a m t s := rfl
theorem exec_vscanMax (d a : BitVec 6) (m : BitVec 3) (t : BitVec 4) (s : State) : exec (.vscanMax d a m t) s = execVscanMax d a m t s := rfl
theorem exec_mand (d a b : BitVec 6) (s : State) : exec (.mand d a b) s = execMand d a b s := rfl
theorem exec_mor (d a b : BitVec 6) (s : State) : exec (.mor d a b) s = execMor d a b s := rfl
theorem exec_mxor (d a b : BitVec 6) (s : State) : exec (.mxor d a b) s = execMxor d a b s := rfl
theorem exec_mandn (d a b : BitVec 6) (s : State) : exec (.mandn d a b) s = execMandn d a b s := rfl
theorem exec_mlen (d a : BitVec 6) (s : State) : exec (.mlen d a) s = execMlen d a s := rfl
theorem exec_mpopc (d a : BitVec 6) (s : State) : exec (.mpopc d a) s = execMpopc d a s := rfl
theorem exec_mfirst (d a : BitVec 6) (s : State) : exec (.mfirst d a) s = execMfirst d a s := rfl
theorem exec_mtov (d a : BitVec 6) (s : State) : exec (.mtov d a) s = execMtov d a s := rfl
theorem exec_vsplat (d a : BitVec 6) (m : BitVec 3) (t : BitVec 4) (s : State) : exec (.vsplat d a m t) s = execVsplat d a m t s := rfl
theorem exec_vext (d a b : BitVec 6) (t : BitVec 4) (s : State) : exec (.vext d a b t) s = execVext d a b t s := rfl
theorem exec_vins (d a b : BitVec 6) (t : BitVec 4) (s : State) : exec (.vins d a b t) s = execVins d a b t s := rfl
theorem exec_mxnest (y : BitVec 6) (tk : Tk) (s : State) : exec (.mxnest y tk) s = execMxnest y tk s := rfl
theorem exec_mxgo (tk : Tk) (s : State) : exec (.mxgo tk) s = execMxgo tk s := rfl
theorem exec_mxwait (tk : Tk) (s : State) : exec (.mxwait tk) s = execMxwait tk s := rfl
theorem exec_mxstat (x : BitVec 6) (tk : Tk) (s : State) : exec (.mxstat x tk) s = execMxstat x tk s := rfl
theorem exec_mxdrain (x y : BitVec 6) (m : BitVec 3) (tk : Tk) (s : State) : exec (.mxdrain x y m tk) s = execMxdrain x y m tk s := rfl
theorem exec_mxzero (x : BitVec 6) (tk : Tk) (s : State) : exec (.mxzero x tk) s = execMxzero x tk s := rfl
theorem exec_mxmma (x y : BitVec 6) (n : BitVec 3) (tk : Tk) (s : State) : exec (.mxmma x y n tk) s = execMxmma x y n tk s := rfl
theorem exec_tdef (x y : BitVec 6) (tk : Tk) (s : State) : exec (.tdef x y tk) s = execTdef x y tk s := rfl
theorem exec_tvalid (y : BitVec 6) (tk : Tk) (s : State) : exec (.tvalid y tk) s = execTvalid y tk s := rfl
theorem exec_tinval (y : BitVec 6) (tk : Tk) (s : State) : exec (.tinval y tk) s = execTinval y tk s := rfl
theorem exec_tstat (x y : BitVec 6) (tk : Tk) (s : State) : exec (.tstat x y tk) s = execTstat x y tk s := rfl
theorem exec_twait (y : BitVec 6) (tk : Tk) (s : State) : exec (.twait y tk) s = execTwait y tk s := rfl
theorem exec_walkAdd (x : BitVec 6) (tk : Tk) (s : State) : exec (.walkAdd x tk) s = execWalkAdd x tk s := rfl
theorem exec_walkMin (x : BitVec 6) (tk : Tk) (s : State) : exec (.walkMin x tk) s = execWalkMin x tk s := rfl
theorem exec_walkMax (x : BitVec 6) (tk : Tk) (s : State) : exec (.walkMax x tk) s = execWalkMax x tk s := rfl
theorem exec_walkAnd (x : BitVec 6) (tk : Tk) (s : State) : exec (.walkAnd x tk) s = execWalkAnd x tk s := rfl
theorem exec_walkOr (x : BitVec 6) (tk : Tk) (s : State) : exec (.walkOr x tk) s = execWalkOr x tk s := rfl
theorem exec_walkXor (x : BitVec 6) (tk : Tk) (s : State) : exec (.walkXor x tk) s = execWalkXor x tk s := rfl
theorem exec_walkPopc (x : BitVec 6) (tk : Tk) (s : State) : exec (.walkPopc x tk) s = execWalkPopc x tk s := rfl
theorem exec_walkHist (x : BitVec 6) (tk : Tk) (s : State) : exec (.walkHist x tk) s = execWalkHist x tk s := rfl
theorem exec_vview (x : BitVec 6) (tk : Tk) (s : State) : exec (.vview x tk) s = execVview x tk s := rfl
theorem exec_aview (x : BitVec 6) (tk : Tk) (s : State) : exec (.aview x tk) s = execAview x tk s := rfl
theorem exec_vigilMx (x y : BitVec 6) (tk : Tk) (lit : BitVec 32) (s : State) : exec (.vigilMx x y tk lit) s = execVigilMx x y tk lit s := rfl
theorem exec_vigilVec (x : BitVec 6) (tk : Tk) (lit : BitVec 32) (s : State) : exec (.vigilVec x tk lit) s = execVigilVec x tk lit s := rfl
theorem exec_vigilRd (x : BitVec 6) (tk : Tk) (lit : BitVec 32) (s : State) : exec (.vigilRd x tk lit) s = execVigilRd x tk lit s := rfl
theorem exec_amdef (x y : BitVec 6) (tk : Tk) (s : State) : exec (.amdef x y tk) s = execAmdef x y tk s := rfl
theorem exec_aset (x y : BitVec 6) (tk : Tk) (s : State) : exec (.aset x y tk) s = execAset x y tk s := rfl
theorem exec_astage (x y : BitVec 6) (tk : Tk) (s : State) : exec (.astage x y tk) s = execAstage x y tk s := rfl
theorem exec_aerr (x : BitVec 6) (tk : Tk) (s : State) : exec (.aerr x tk) s = execAerr x tk s := rfl
theorem exec_adec (x : BitVec 6) (tk : Tk) (s : State) : exec (.adec x tk) s = execAdec x tk s := rfl
theorem exec_aget (x y : BitVec 6) (tk : Tk) (s : State) : exec (.aget x y tk) s = execAget x y tk s := rfl
theorem exec_aput (x y : BitVec 6) (tk : Tk) (s : State) : exec (.aput x y tk) s = execAput x y tk s := rfl
theorem exec_astat (x y : BitVec 6) (tk : Tk) (s : State) : exec (.astat x y tk) s = execAstat x y tk s := rfl
theorem exec_aoff (x : BitVec 6) (tk : Tk) (s : State) : exec (.aoff x tk) s = execAoff x tk s := rfl
theorem exec_await (tk : Tk) (s : State) : exec (.await tk) s = execAwait tk s := rfl
theorem exec_shdecl (x y : BitVec 6) (tk : Tk) (s : State) : exec (.shdecl x y tk) s = execShdecl x y tk s := rfl
theorem exec_apxb (x : BitVec 6) (tk : Tk) (s : State) : exec (.apxb x tk) s = execApxb x tk s := rfl
theorem exec_apxe (x : BitVec 6) (tk : Tk) (s : State) : exec (.apxe x tk) s = execApxe x tk s := rfl
theorem exec_shinv (x : BitVec 6) (tk : Tk) (s : State) : exec (.shinv x tk) s = execShinv x tk s := rfl
theorem exec_shwld (x y : BitVec 6) (tk : Tk) (s : State) : exec (.shwld x y tk) s = execShwld x y tk s := rfl
theorem exec_shwst (x y : BitVec 6) (tk : Tk) (s : State) : exec (.shwst x y tk) s = execShwst x y tk s := rfl
theorem exec_shstat (x y : BitVec 6) (tk : Tk) (s : State) : exec (.shstat x y tk) s = execShstat x y tk s := rfl
theorem exec_shmean (x y : BitVec 6) (tk : Tk) (s : State) : exec (.shmean x y tk) s = execShmean x y tk s := rfl
theorem exec_stG (x y : BitVec 6) (p : BitVec 1) (sf : BitVec 2) (tk : Tk) (s : State) : exec (.stG x y p sf tk) s = execStG x y p sf tk s := rfl
theorem exec_stL (x y : BitVec 6) (p : BitVec 1) (sf : BitVec 2) (tk : Tk) (s : State) : exec (.stL x y p sf tk) s = execStL x y p sf tk s := rfl
theorem exec_vstG (x y : BitVec 6) (p : BitVec 1) (m : BitVec 3) (tk : Tk) (s : State) : exec (.vstG x y p m tk) s = execVstG x y p m tk s := rfl
theorem exec_vstL (x y : BitVec 6) (p : BitVec 1) (m : BitVec 3) (tk : Tk) (s : State) : exec (.vstL x y p m tk) s = execVstL x y p m tk s := rfl
theorem exec_scat (x y : BitVec 6) (ef c : BitVec 1) (m : BitVec 3) (tk : Tk) (s : State) : exec (.scat x y ef c m tk) s = execScat x y ef c m tk s := rfl
theorem exec_sbaseS (x y : BitVec 6) (tk : Tk) (s : State) : exec (.sbaseS x y tk) s = execSbaseS x y tk s := rfl
theorem exec_sdim0S (x y : BitVec 6) (tk : Tk) (s : State) : exec (.sdim0S x y tk) s = execSdim0S x y tk s := rfl
theorem exec_sdim1S (x y : BitVec 6) (tk : Tk) (s : State) : exec (.sdim1S x y tk) s = execSdim1S x y tk s := rfl
theorem exec_sdim2S (x y : BitVec 6) (tk : Tk) (s : State) : exec (.sdim2S x y tk) s = execSdim2S x y tk s := rfl
theorem exec_smodeS (x y : BitVec 6) (tk : Tk) (s : State) : exec (.smodeS x y tk) s = execSmodeS x y tk s := rfl
theorem exec_sbindS (x : BitVec 6) (tk : Tk) (s : State) : exec (.sbindS x tk) s = execSbindS x tk s := rfl
theorem exec_sunbindS (x : BitVec 6) (tk : Tk) (s : State) : exec (.sunbindS x tk) s = execSunbindS x tk s := rfl
theorem exec_sstartS (x : BitVec 6) (tk : Tk) (s : State) : exec (.sstartS x tk) s = execSstartS x tk s := rfl
theorem exec_sstopS (x : BitVec 6) (tk : Tk) (s : State) : exec (.sstopS x tk) s = execSstopS x tk s := rfl
theorem exec_sseekS (x y : BitVec 6) (tk : Tk) (s : State) : exec (.sseekS x y tk) s = execSseekS x y tk s := rfl
theorem exec_sposS (x y : BitVec 6) (tk : Tk) (s : State) : exec (.sposS x y tk) s = execSposS x y tk s := rfl
theorem exec_markS (tk : Tk) (s : State) : exec (.markS tk) s = execMarkS tk s := rfl
theorem exec_cpout (x y : BitVec 6) (tk : Tk) (s : State) : exec (.cpout x y tk) s = execCpout x y tk s := rfl
theorem exec_cpout2d (x y : BitVec 6) (tk : Tk) (s : State) : exec (.cpout2d x y tk) s = execCpout2d x y tk s := rfl
theorem exec_cpoutT (x y : BitVec 6) (tk : Tk) (s : State) : exec (.cpoutT x y tk) s = execCpoutT x y tk s := rfl
theorem exec_amoAdd (x y : BitVec 6) (c z : BitVec 1) (tk : Tk) (s : State) : exec (.amoAdd x y c z tk) s = execAmoAdd x y c z tk s := rfl
theorem exec_amoAnd (x y : BitVec 6) (c z : BitVec 1) (tk : Tk) (s : State) : exec (.amoAnd x y c z tk) s = execAmoAnd x y c z tk s := rfl
theorem exec_amoOr (x y : BitVec 6) (c z : BitVec 1) (tk : Tk) (s : State) : exec (.amoOr x y c z tk) s = execAmoOr x y c z tk s := rfl
theorem exec_amoXor (x y : BitVec 6) (c z : BitVec 1) (tk : Tk) (s : State) : exec (.amoXor x y c z tk) s = execAmoXor x y c z tk s := rfl
theorem exec_amoMax (x y : BitVec 6) (c z : BitVec 1) (tk : Tk) (s : State) : exec (.amoMax x y c z tk) s = execAmoMax x y c z tk s := rfl
theorem exec_amoMaxu (x y : BitVec 6) (c z : BitVec 1) (tk : Tk) (s : State) : exec (.amoMaxu x y c z tk) s = execAmoMaxu x y c z tk s := rfl
theorem exec_amoSwap (x y : BitVec 6) (c z : BitVec 1) (tk : Tk) (s : State) : exec (.amoSwap x y c z tk) s = execAmoSwap x y c z tk s := rfl
theorem exec_amoCasD (x y : BitVec 6) (c : BitVec 1) (tk : Tk) (s : State) : exec (.amoCasD x y c tk) s = execAmoCasD x y c tk s := rfl
theorem exec_amoCasQ (x y : BitVec 6) (c : BitVec 1) (tk : Tk) (s : State) : exec (.amoCasQ x y c tk) s = execAmoCasQ x y c tk s := rfl
theorem exec_tret (g : BitVec 3) (s : State) : exec (.tret g) s = execTret g s := rfl
theorem exec_tretN (g : BitVec 3) (s : State) : exec (.tretN g) s = execTretN g s := rfl
theorem exec_ucall (g : BitVec 3) (s : State) : exec (.ucall g) s = execUcall g s := rfl
theorem exec_svc (d a : BitVec 6) (g : BitVec 3) (s : State) : exec (.svc d a g) s = execSvc d a g s := rfl
theorem exec_tlbinv (a b : BitVec 6) (g : BitVec 3) (s : State) : exec (.tlbinv a b g) s = execTlbinv a b g s := rfl
theorem exec_scsrwr (a b : BitVec 6) (g : BitVec 3) (s : State) : exec (.scsrwr a b g) s = execScsrwr a b g s := rfl
theorem exec_segset (a b : BitVec 6) (g : BitVec 3) (s : State) : exec (.segset a b g) s = execSegset a b g s := rfl
theorem exec_segclr (a : BitVec 6) (g : BitVec 3) (s : State) : exec (.segclr a g) s = execSegclr a g s := rfl
theorem exec_ctxout (a b : BitVec 6) (g : BitVec 3) (s : State) : exec (.ctxout a b g) s = execCtxout a b g s := rfl
theorem exec_ctxin (a b : BitVec 6) (g : BitVec 3) (s : State) : exec (.ctxin a b g) s = execCtxin a b g s := rfl
theorem exec_asset (a b : BitVec 6) (g : BitVec 3) (s : State) : exec (.asset a b g) s = execAsset a b g s := rfl
theorem exec_pinfo (d a : BitVec 6) (g : BitVec 3) (s : State) : exec (.pinfo d a g) s = execPinfo d a g s := rfl
theorem exec_pscrub (a : BitVec 6) (g : BitVec 3) (s : State) : exec (.pscrub a g) s = execPscrub a g s := rfl
theorem exec_errrd (d a : BitVec 6) (g : BitVec 3) (s : State) : exec (.errrd d a g) s = execErrrd d a g s := rfl
theorem exec_hrmark (a : BitVec 6) (g : BitVec 3) (s : State) : exec (.hrmark a g) s = execHrmark a g s := rfl
theorem exec_hint (h : BitVec 27) (s : State) : exec (.hint h) s = execHint h s := rfl
theorem exec_emulMajor7c (x : BitVec 25) (s : State) : exec (.emulMajor7c x) s = execEmulMajor7c x s := rfl
theorem exec_emulMajor7d (x : BitVec 25) (s : State) : exec (.emulMajor7d x) s = execEmulMajor7d x s := rfl
theorem exec_emulMajor7e (x : BitVec 25) (s : State) : exec (.emulMajor7e x) s = execEmulMajor7e x s := rfl
theorem exec_undefinedMajor (w : BitVec 32) (s : State) : exec (.undefinedMajor w) s = execUndefinedMajor w s := rfl
theorem exec_streamFetch (core q : Nat) (s : State) : exec (.streamFetch core q) s = execStreamFetch core q s := rfl
theorem exec_streamOutboundWrite (core q : Nat) (s : State) : exec (.streamOutboundWrite core q) s = execStreamOutboundWrite core q s := rfl
theorem exec_translationWalk (core : Nat) (va : BitVec 64) (k : AccessKind) (s : State) : exec (.translationWalk core va k) s = execTranslationWalk core va k s := rfl
theorem exec_invalidationApply (core : Nat) (s : State) : exec (.invalidationApply core) s = execInvalidationApply core s := rfl
theorem exec_matrixOpRun (core : Nat) (s : State) : exec (.matrixOpRun core) s = execMatrixOpRun core s := rfl
theorem exec_fetcherCopy (core h : Nat) (s : State) : exec (.fetcherCopy core h) s = execFetcherCopy core h s := rfl
theorem exec_walkRun (core : Nat) (s : State) : exec (.walkRun core) s = execWalkRun core s := rfl
theorem exec_vigilCheck (core : Nat) (s : State) : exec (.vigilCheck core) s = execVigilCheck core s := rfl
theorem exec_almanacStep (core : Nat) (s : State) : exec (.almanacStep core) s = execAlmanacStep core s := rfl
theorem exec_shepherdOperation (core : Nat) (s : State) : exec (.shepherdOperation core) s = execShepherdOperation core s := rfl
theorem exec_copyPieceLand (core : Nat) (s : State) : exec (.copyPieceLand core) s = execCopyPieceLand core s := rfl
theorem exec_outboundCopyExecute (core : Nat) (s : State) : exec (.outboundCopyExecute core) s = execOutboundCopyExecute core s := rfl
theorem exec_outboundCopyComplete (core : Nat) (s : State) : exec (.outboundCopyComplete core) s = execOutboundCopyComplete core s := rfl
theorem exec_copyFreeze (core : Nat) (s : State) : exec (.copyFreeze core) s = execCopyFreeze core s := rfl
theorem exec_freezeResume (core : Nat) (s : State) : exec (.freezeResume core) s = execFreezeResume core s := rfl
theorem exec_freezeUnresolvable (core : Nat) (s : State) : exec (.freezeUnresolvable core) s = execFreezeUnresolvable core s := rfl
theorem exec_faultServiceAnswer (core : Nat) (ans : Option (BitVec 64)) (s : State) : exec (.faultServiceAnswer core ans) s = execFaultServiceAnswer core ans s := rfl
theorem exec_chainEnd (core slot : Nat) (s : State) : exec (.chainEnd core slot) s = execChainEnd core slot s := rfl
theorem exec_chainCopy (core slot : Nat) (s : State) : exec (.chainCopy core slot) s = execChainCopy core slot s := rfl
theorem exec_chainCopy2d (core slot : Nat) (s : State) : exec (.chainCopy2d core slot) s = execChainCopy2d core slot s := rfl
theorem exec_chainWait (core slot : Nat) (s : State) : exec (.chainWait core slot) s = execChainWait core slot s := rfl
theorem exec_chainPost (core slot : Nat) (s : State) : exec (.chainPost core slot) s = execChainPost core slot s := rfl
theorem exec_chainLink (core slot : Nat) (s : State) : exec (.chainLink core slot) s = execChainLink core slot s := rfl
theorem exec_chainFlag (core slot : Nat) (s : State) : exec (.chainFlag core slot) s = execChainFlag core slot s := rfl
theorem exec_chainArrive (core slot : Nat) (s : State) : exec (.chainArrive core slot) s = execChainArrive core slot s := rfl
theorem exec_pendingKickStart (core slot : Nat) (s : State) : exec (.pendingKickStart core slot) s = execPendingKickStart core slot s := rfl
theorem exec_postDeparture (core : Nat) (s : State) : exec (.postDeparture core) s = execPostDeparture core s := rfl
theorem exec_qpostDelivery (core : Nat) (s : State) : exec (.qpostDelivery core) s = execQpostDelivery core s := rfl
theorem exec_hostAtomicopCompletion (core : Nat) (err : Bool) (s : State) : exec (.hostAtomicopCompletion core err) s = execHostAtomicopCompletion core err s := rfl
theorem exec_peerWriteAck (core : Nat) (s : State) : exec (.peerWriteAck core) s = execPeerWriteAck core s := rfl
theorem exec_peerRefused (core : Nat) (s : State) : exec (.peerRefused core) s = execPeerRefused core s := rfl
theorem exec_remoteHurdleArrival (core : Nat) (s : State) : exec (.remoteHurdleArrival core) s = execRemoteHurdleArrival core s := rfl
theorem exec_stealRequestArrival (core : Nat) (s : State) : exec (.stealRequestArrival core) s = execStealRequestArrival core s := rfl
theorem exec_stealGrant (core : Nat) (s : State) : exec (.stealGrant core) s = execStealGrant core s := rfl
theorem exec_stealRefusal (core : Nat) (s : State) : exec (.stealRefusal core) s = execStealRefusal core s := rfl
theorem exec_detectedErrorReplay (core src : Nat) (s : State) : exec (.detectedErrorReplay core src) s = execDetectedErrorReplay core src s := rfl
theorem exec_unitAdoption (core adopter : Nat) (s : State) : exec (.unitAdoption core adopter) s = execUnitAdoption core adopter s := rfl
theorem exec_outOfRegionError (work : OutWork) (s : State) : exec (.outOfRegionError work) s = execOutOfRegionError work s := rfl
theorem exec_snapshotStoreError (core : Nat) (s : State) : exec (.snapshotStoreError core) s = execSnapshotStoreError core s := rfl
theorem exec_dieFailover (die : Nat) (s : State) : exec (.dieFailover die) s = execDieFailover die s := rfl
theorem exec_thermalTrip (die : Nat) (s : State) : exec (.thermalTrip die) s = execThermalTrip die s := rfl
theorem exec_thermalThrottle (die : Nat) (s : State) : exec (.thermalThrottle die) s = execThermalThrottle die s := rfl
theorem exec_powerEstimate (die : Nat) (power : PowerReport) (s : State) : exec (.powerEstimate die power) s = execPowerEstimate die power s := rfl
theorem exec_boostInterval (s : State) : exec (.boostInterval) s = execBoostInterval s := rfl
theorem exec_dtimeSync (slew : Int) (s : State) : exec (.dtimeSync slew) s = execDtimeSync slew s := rfl
theorem exec_patrolScrub (sector : Nat) (s : State) : exec (.patrolScrub sector) s = execPatrolScrub sector s := rfl
theorem exec_glitchDetect (s : State) : exec (.glitchDetect) s = execGlitchDetect s := rfl
theorem exec_packageReset (fail : List Nat) (s : State) : exec (.packageReset fail) s = execPackageReset fail s := rfl
theorem exec_firmwareRestart (die : Nat) (fail : List Nat) (s : State) : exec (.firmwareRestart die fail) s = execFirmwareRestart die fail s := rfl
theorem exec_firmwareUpdate (ver : Nat) (minVer : Option Nat) (end_ : UpdateEnd) (s : State) :
    exec (.firmwareUpdate ver minVer end_) s = execFirmwareUpdate ver minVer end_ s := rfl
theorem exec_flrOwner (func : Nat) (s : State) : exec (.flrOwner func) s = execFlrOwner func s := rfl
theorem exec_flrQueueFunction (func : Nat) (s : State) : exec (.flrQueueFunction func) s = execFlrQueueFunction func s := rfl
theorem exec_portalDmwr (func q : Nat) (pkt : BitVec 512) (s : State) : exec (.portalDmwr func q pkt) s = execPortalDmwr func q pkt s := rfl
theorem exec_portalPostedWrite (func q : Nat) (pkt : BitVec 512) (s : State) : exec (.portalPostedWrite func q pkt) s = execPortalPostedWrite func q pkt s := rfl
theorem exec_portalWake (func q : Nat) (s : State) : exec (.portalWake func q) s = execPortalWake func q s := rfl
theorem exec_queueActivate (part q : Nat) (s : State) : exec (.queueActivate part q) s = execQueueActivate part q s := rfl
theorem exec_queueStop (part q : Nat) (s : State) : exec (.queueStop part q) s = execQueueStop part q s := rfl
theorem exec_queueUnmap (part q : Nat) (s : State) : exec (.queueUnmap part q) s = execQueueUnmap part q s := rfl
theorem exec_queueUnmapped (part q : Nat) (s : State) : exec (.queueUnmapped part q) s = execQueueUnmapped part q s := rfl
theorem exec_headConditionSatisfied (part q : Nat) (s : State) : exec (.headConditionSatisfied part q) s = execHeadConditionSatisfied part q s := rfl
theorem exec_queueFetch (part q : Nat) (s : State) : exec (.queueFetch part q) s = execQueueFetch part q s := rfl
theorem exec_nopPacket (part q : Nat) (s : State) : exec (.nopPacket part q) s = execNopPacket part q s := rfl
theorem exec_launchPacket (part q : Nat) (s : State) : exec (.launchPacket part q) s = execLaunchPacket part q s := rfl
theorem exec_nodePacket (part q : Nat) (s : State) : exec (.nodePacket part q) s = execNodePacket part q s := rfl
theorem exec_waitAllPacket (part q : Nat) (s : State) : exec (.waitAllPacket part q) s = execWaitAllPacket part q s := rfl
theorem exec_waitAnyPacket (part q : Nat) (s : State) : exec (.waitAnyPacket part q) s = execWaitAnyPacket part q s := rfl
theorem exec_signalPacket (part q : Nat) (s : State) : exec (.signalPacket part q) s = execSignalPacket part q s := rfl
theorem exec_cancelPacket (part q : Nat) (s : State) : exec (.cancelPacket part q) s = execCancelPacket part q s := rfl
theorem exec_gangPacket (part q : Nat) (s : State) : exec (.gangPacket part q) s = execGangPacket part q s := rfl
theorem exec_gangMessageReceive (part gang member : Nat) (msg : GangMsg) (s : State) : exec (.gangMessageReceive part gang member msg) s = execGangMessageReceive part gang member msg s := rfl
theorem exec_gangGoDecision (part gang : Nat) (s : State) : exec (.gangGoDecision part gang) s = execGangGoDecision part gang s := rfl
theorem exec_gangRelease (part gang : Nat) (s : State) : exec (.gangRelease part gang) s = execGangRelease part gang s := rfl
theorem exec_dispatch (core : Nat) (s : State) : exec (.dispatch core) s = execDispatch core s := rfl
theorem exec_candidateAged (part index : Nat) (s : State) : exec (.candidateAged part index) s = execCandidateAged part index s := rfl
theorem exec_standingClaim (part q : Nat) (s : State) : exec (.standingClaim part q) s = execStandingClaim part q s := rfl
theorem exec_unitCompletion (core : Nat) (s : State) : exec (.unitCompletion core) s = execUnitCompletion core s := rfl
theorem exec_msixMessage (func : Nat) (s : State) : exec (.msixMessage func) s = execMsixMessage func s := rfl
theorem exec_preemptionRequest (core : Nat) (s : State) : exec (.preemptionRequest core) s = execPreemptionRequest core s := rfl
theorem exec_contextSwitch (core : Nat) (s : State) : exec (.contextSwitch core) s = execContextSwitch core s := rfl
theorem exec_flitCrcFailure (die : Nat) (flit : PortFlit) (s : State) : exec (.flitCrcFailure die flit) s = execFlitCrcFailure die flit s := rfl
theorem exec_linkTrainingTimeout (die port : Nat) (s : State) : exec (.linkTrainingTimeout die port) s = execLinkTrainingTimeout die port s := rfl
theorem exec_hostMemoryAccess (func : Nat) (addr : BitVec 64) (acc : HostAccess) (s : State) : exec (.hostMemoryAccess func addr acc) s = execHostMemoryAccess func addr acc s := rfl
theorem exec_loaderDoorbell (value : BitVec 64) (s : State) : exec (.loaderDoorbell value) s = execLoaderDoorbell value s := rfl
theorem exec_loadRequest (s : State) : exec (.loadRequest) s = execLoadRequest s := rfl
theorem exec_fenWrite (part : Nat) (value : BitVec 64) (s : State) : exec (.fenWrite part value) s = execFenWrite part value s := rfl
theorem exec_ringEnable (part ring : Nat) (s : State) : exec (.ringEnable part ring) s = execRingEnable part ring s := rfl
theorem exec_mirroredSizeSet (gib : Nat) (s : State) : exec (.mirroredSizeSet gib) s = execMirroredSizeSet gib s := rfl
theorem exec_hostRegisterWrite (reg : HostReg) (value : BitVec 256) (s : State) : exec (.hostRegisterWrite reg value) s = execHostRegisterWrite reg value s := rfl
theorem exec_tetherPeerAccess (member part : Nat) (acc : PeerAccess) (s : State) : exec (.tetherPeerAccess member part acc) s = execTetherPeerAccess member part acc s := rfl
theorem exec_peerAtomicCompletion (core : Nat) (s : State) : exec (.peerAtomicCompletion core) s = execPeerAtomicCompletion core s := rfl
theorem exec_linkTrainingComplete (die port : Nat) (s : State) : exec (.linkTrainingComplete die port) s = execLinkTrainingComplete die port s := rfl
theorem exec_thermalThrottleEnd (die : Nat) (s : State) : exec (.thermalThrottleEnd die) s = execThermalThrottleEnd die s := rfl
theorem exec_ownerProvisioning (part : Nat) (key : BitVec 64) (s : State) : exec (.ownerProvisioning part key) s = execOwnerProvisioning part key s := rfl

end Sys2Proof.Machine
end

