-- ==== Sys2Proof/Laws/State.lean ====
section
/-! SUPPORT. One lemma per field for each update of the state: what an update of a core, a partition or a die leaves as it was, and what it
writes. -/

namespace Sys2Proof.Machine

/-! ## Vectors by number -/

@[simp] theorem vget_vset_self {α : Type} {n : Nat} (v : Vector α n) (d x : α) {i : Nat} (h : i < n) : vget (vset v i x) d i = x := by
  simp [vget, vset, h]

@[simp] theorem vget_vset_ne {α : Type} {n : Nat} (v : Vector α n) (d x : α) {i j : Nat} (h : i ≠ j) :
    vget (vset v i x) d j = vget v d j := by
  unfold vget vset
  split
  · split
    · simp [h]
    · rfl
  · rfl

@[simp] theorem vset_vset {α : Type} {n : Nat} (v : Vector α n) (i : Nat) (x y : α) : vset (vset v i x) i y = vset v i y := by
  unfold vset
  split
  · simp
  · rfl

@[simp] theorem vset_vget {α : Type} {n : Nat} (v : Vector α n) (d : α) (i : Nat) : vset v i (vget v d i) = v := by
  unfold vset vget
  split
  · simp
  · rfl

/-! ## What an update writes -/

@[simp] theorem getCore_putCore_self (s : State) {i : Nat} (c : Core) (h : i < 72) : getCore (putCore s i c) i = c :=
  vget_vset_self _ _ _ h

@[simp] theorem getCore_putCore_ne (s : State) {i j : Nat} (c : Core) (h : i ≠ j) : getCore (putCore s i c) j = getCore s j :=
  vget_vset_ne _ _ _ h

@[simp] theorem getPart_putPart_self (s : State) {i : Nat} (x : Part) (h : i < 8) : getPart (putPart s i x) i = x :=
  vget_vset_self _ _ _ h

@[simp] theorem getPart_putPart_ne (s : State) {i j : Nat} (x : Part) (h : i ≠ j) : getPart (putPart s i x) j = getPart s j :=
  vget_vset_ne _ _ _ h

@[simp] theorem getDie_putDie_self (s : State) {i : Nat} (x : Die) (h : i < 2) : getDie (putDie s i x) i = x :=
  vget_vset_self _ _ _ h

@[simp] theorem getDie_putDie_ne (s : State) {i j : Nat} (x : Die) (h : i ≠ j) : getDie (putDie s i x) j = getDie s j :=
  vget_vset_ne _ _ _ h

@[simp] theorem putCore_putCore (s : State) (i : Nat) (c d : Core) : putCore (putCore s i c) i d = putCore s i d := by
  simp [putCore]

@[simp] theorem putCore_getCore (s : State) (i : Nat) : putCore s i (getCore s i) = s := by
  simp [putCore, getCore]

/-- A core that does not exist: an update of it changes nothing. -/
theorem putCore_none (s : State) {i : Nat} (c : Core) (h : 72 ≤ i) : putCore s i c = s := by
  unfold putCore vset
  rw [dif_neg (Nat.not_lt.mpr h)]

/-- Two updates of one core are one update. -/
theorem modCore_modCore (s : State) (i : Nat) (f g : Core → Core) : modCore (modCore s i f) i g = modCore s i fun c => g (f c) := by
  by_cases h : i < 72
  · simp [modCore, h]
  · simp [modCore, putCore_none, Nat.not_lt.mp h]

@[simp] theorem modArch_id (s : State) (i : Nat) : (modArch s i fun a => a) = s :=
  putCore_getCore s i

@[simp] theorem getCore_modCore_self (s : State) {i : Nat} (f : Core → Core) (h : i < 72) : getCore (modCore s i f) i = f (getCore s i) := by
  simp [modCore, h]

@[simp] theorem getCore_modCore_ne (s : State) {i j : Nat} (f : Core → Core) (h : i ≠ j) : getCore (modCore s i f) j = getCore s j := by
  simp [modCore, h]

@[simp] theorem getCore_modArch_self (s : State) {i : Nat} (f : Arch → Arch) (h : i < 72) :
    getCore (modArch s i f) i = { getCore s i with a := f (getCore s i).a } := by
  simp [modArch, h]

@[simp] theorem getCore_modArch_ne (s : State) {i j : Nat} (f : Arch → Arch) (h : i ≠ j) : getCore (modArch s i f) j = getCore s j := by
  simp [modArch, h]

@[simp] theorem getPart_modPart_self (s : State) {i : Nat} (f : Part → Part) (h : i < 8) : getPart (modPart s i f) i = f (getPart s i) := by
  simp [modPart, h]

@[simp] theorem getPart_modPart_ne (s : State) {i j : Nat} (f : Part → Part) (h : i ≠ j) : getPart (modPart s i f) j = getPart s j := by
  simp [modPart, h]

/-! ## What an update leaves as it was -/

@[simp] theorem getPart_putCore (s : State) (i j : Nat) (x : Core) : getPart (putCore s i x) j = getPart s j := rfl
@[simp] theorem getDie_putCore (s : State) (i j : Nat) (x : Core) : getDie (putCore s i x) j = getDie s j := rfl
@[simp] theorem putCore_dies (s : State) (i : Nat) (x : Core) : (putCore s i x).dies = s.dies := rfl
@[simp] theorem putCore_parts (s : State) (i : Nat) (x : Core) : (putCore s i x).parts = s.parts := rfl
@[simp] theorem putCore_mem (s : State) (i : Nat) (x : Core) : (putCore s i x).mem = s.mem := rfl
@[simp] theorem putCore_poisoned (s : State) (i : Nat) (x : Core) : (putCore s i x).poisoned = s.poisoned := rfl
@[simp] theorem putCore_faulty (s : State) (i : Nat) (x : Core) : (putCore s i x).faulty = s.faulty := rfl
@[simp] theorem putCore_hostMem (s : State) (i : Nat) (x : Core) : (putCore s i x).hostMem = s.hostMem := rfl
@[simp] theorem putCore_hostPoison (s : State) (i : Nat) (x : Core) : (putCore s i x).hostPoison = s.hostPoison := rfl
@[simp] theorem putCore_peerMem (s : State) (i : Nat) (x : Core) : (putCore s i x).peerMem = s.peerMem := rfl
@[simp] theorem putCore_dtime (s : State) (i : Nat) (x : Core) : (putCore s i x).dtime = s.dtime := rfl
@[simp] theorem putCore_mirroredGiB (s : State) (i : Nat) (x : Core) : (putCore s i x).mirroredGiB = s.mirroredGiB := rfl
@[simp] theorem putCore_mirroredNext (s : State) (i : Nat) (x : Core) : (putCore s i x).mirroredNext = s.mirroredNext := rfl
@[simp] theorem putCore_slew (s : State) (i : Nat) (x : Core) : (putCore s i x).slew = s.slew := rfl
@[simp] theorem putCore_slewAcc (s : State) (i : Nat) (x : Core) : (putCore s i x).slewAcc = s.slewAcc := rfl
@[simp] theorem putCore_boostAt (s : State) (i : Nat) (x : Core) : (putCore s i x).boostAt = s.boostAt := rfl
@[simp] theorem putCore_powerCeiling (s : State) (i : Nat) (x : Core) : (putCore s i x).powerCeiling = s.powerCeiling := rfl
@[simp] theorem putCore_workLimit (s : State) (i : Nat) (x : Core) : (putCore s i x).workLimit = s.workLimit := rfl
@[simp] theorem putCore_intthr (s : State) (i : Nat) (x : Core) : (putCore s i x).intthr = s.intthr := rfl
@[simp] theorem putCore_mismatches (s : State) (i : Nat) (x : Core) : (putCore s i x).mismatches = s.mismatches := rfl
@[simp] theorem putCore_alarm (s : State) (i : Nat) (x : Core) : (putCore s i x).alarm = s.alarm := rfl
@[simp] theorem putCore_keysValid (s : State) (i : Nat) (x : Core) : (putCore s i x).keysValid = s.keysValid := rfl
@[simp] theorem putCore_keyEpoch (s : State) (i : Nat) (x : Core) : (putCore s i x).keyEpoch = s.keyEpoch := rfl
@[simp] theorem putCore_retiredCores (s : State) (i : Nat) (x : Core) : (putCore s i x).retiredCores = s.retiredCores := rfl
@[simp] theorem putCore_minVersion (s : State) (i : Nat) (x : Core) : (putCore s i x).minVersion = s.minVersion := rfl
@[simp] theorem putCore_flashValid (s : State) (i : Nat) (x : Core) : (putCore s i x).flashValid = s.flashValid := rfl
@[simp] theorem putCore_flashVersion (s : State) (i : Nat) (x : Core) : (putCore s i x).flashVersion = s.flashVersion := rfl
@[simp] theorem putCore_doorbells (s : State) (i : Nat) (x : Core) : (putCore s i x).doorbells = s.doorbells := rfl
@[simp] theorem putCore_ldLast (s : State) (i : Nat) (x : Core) : (putCore s i x).ldLast = s.ldLast := rfl
@[simp] theorem putCore_ldDone (s : State) (i : Nat) (x : Core) : (putCore s i x).ldDone = s.ldDone := rfl
@[simp] theorem putCore_msixPending (s : State) (i : Nat) (x : Core) : (putCore s i x).msixPending = s.msixPending := rfl
@[simp] theorem putCore_msixLast (s : State) (i : Nat) (x : Core) : (putCore s i x).msixLast = s.msixLast := rfl
@[simp] theorem putCore_outbox (s : State) (i : Nat) (x : Core) : (putCore s i x).outbox = s.outbox := rfl
@[simp] theorem putCore_corrected (s : State) (i : Nat) (x : Core) : (putCore s i x).corrected = s.corrected := rfl
@[simp] theorem putCore_agenda (s : State) (i : Nat) (x : Core) : (putCore s i x).agenda = s.agenda := rfl
@[simp] theorem putCore_focusCore (s : State) (i : Nat) (x : Core) : (putCore s i x).focusCore = s.focusCore := rfl
@[simp] theorem putCore_focusCl (s : State) (i : Nat) (x : Core) : (putCore s i x).focusCl = s.focusCl := rfl
@[simp] theorem putCore_bundle (s : State) (i : Nat) (x : Core) : (putCore s i x).bundle = s.bundle := rfl
@[simp] theorem putCore_tick (s : State) (i : Nat) (x : Core) : (putCore s i x).tick = s.tick := rfl
@[simp] theorem putCore_sectorTags (s : State) (i : Nat) (x : Core) : (putCore s i x).sectorTags = s.sectorTags := rfl
@[simp] theorem putCore_peerPoison (s : State) (i : Nat) (x : Core) : (putCore s i x).peerPoison = s.peerPoison := rfl
@[simp] theorem putCore_attKey (s : State) (i : Nat) (x : Core) : (putCore s i x).attKey = s.attKey := rfl
@[simp] theorem putCore_fwImage (s : State) (i : Nat) (x : Core) : (putCore s i x).fwImage = s.fwImage := rfl
@[simp] theorem putCore_apertures (s : State) (i : Nat) (x : Core) : (putCore s i x).apertures = s.apertures := rfl
@[simp] theorem putCore_timeMaster (s : State) (i : Nat) (x : Core) : (putCore s i x).timeMaster = s.timeMaster := rfl
@[simp] theorem putCore_waiting (s : State) (i : Nat) (x : Core) : (putCore s i x).waiting = s.waiting := rfl
@[simp] theorem putCore_accesses (s : State) (i : Nat) (x : Core) : (putCore s i x).accesses = s.accesses := rfl

@[simp] theorem getCore_putPart (s : State) (i j : Nat) (x : Part) : getCore (putPart s i x) j = getCore s j := rfl
@[simp] theorem getDie_putPart (s : State) (i j : Nat) (x : Part) : getDie (putPart s i x) j = getDie s j := rfl
@[simp] theorem putPart_cores (s : State) (i : Nat) (x : Part) : (putPart s i x).cores = s.cores := rfl
@[simp] theorem putPart_dies (s : State) (i : Nat) (x : Part) : (putPart s i x).dies = s.dies := rfl
@[simp] theorem putPart_mem (s : State) (i : Nat) (x : Part) : (putPart s i x).mem = s.mem := rfl
@[simp] theorem putPart_poisoned (s : State) (i : Nat) (x : Part) : (putPart s i x).poisoned = s.poisoned := rfl
@[simp] theorem putPart_faulty (s : State) (i : Nat) (x : Part) : (putPart s i x).faulty = s.faulty := rfl
@[simp] theorem putPart_hostMem (s : State) (i : Nat) (x : Part) : (putPart s i x).hostMem = s.hostMem := rfl
@[simp] theorem putPart_hostPoison (s : State) (i : Nat) (x : Part) : (putPart s i x).hostPoison = s.hostPoison := rfl
@[simp] theorem putPart_peerMem (s : State) (i : Nat) (x : Part) : (putPart s i x).peerMem = s.peerMem := rfl
@[simp] theorem putPart_dtime (s : State) (i : Nat) (x : Part) : (putPart s i x).dtime = s.dtime := rfl
@[simp] theorem putPart_mirroredGiB (s : State) (i : Nat) (x : Part) : (putPart s i x).mirroredGiB = s.mirroredGiB := rfl
@[simp] theorem putPart_mirroredNext (s : State) (i : Nat) (x : Part) : (putPart s i x).mirroredNext = s.mirroredNext := rfl
@[simp] theorem putPart_slew (s : State) (i : Nat) (x : Part) : (putPart s i x).slew = s.slew := rfl
@[simp] theorem putPart_slewAcc (s : State) (i : Nat) (x : Part) : (putPart s i x).slewAcc = s.slewAcc := rfl
@[simp] theorem putPart_boostAt (s : State) (i : Nat) (x : Part) : (putPart s i x).boostAt = s.boostAt := rfl
@[simp] theorem putPart_powerCeiling (s : State) (i : Nat) (x : Part) : (putPart s i x).powerCeiling = s.powerCeiling := rfl
@[simp] theorem putPart_workLimit (s : State) (i : Nat) (x : Part) : (putPart s i x).workLimit = s.workLimit := rfl
@[simp] theorem putPart_intthr (s : State) (i : Nat) (x : Part) : (putPart s i x).intthr = s.intthr := rfl
@[simp] theorem putPart_mismatches (s : State) (i : Nat) (x : Part) : (putPart s i x).mismatches = s.mismatches := rfl
@[simp] theorem putPart_alarm (s : State) (i : Nat) (x : Part) : (putPart s i x).alarm = s.alarm := rfl
@[simp] theorem putPart_keysValid (s : State) (i : Nat) (x : Part) : (putPart s i x).keysValid = s.keysValid := rfl
@[simp] theorem putPart_keyEpoch (s : State) (i : Nat) (x : Part) : (putPart s i x).keyEpoch = s.keyEpoch := rfl
@[simp] theorem putPart_retiredCores (s : State) (i : Nat) (x : Part) : (putPart s i x).retiredCores = s.retiredCores := rfl
@[simp] theorem putPart_minVersion (s : State) (i : Nat) (x : Part) : (putPart s i x).minVersion = s.minVersion := rfl
@[simp] theorem putPart_flashValid (s : State) (i : Nat) (x : Part) : (putPart s i x).flashValid = s.flashValid := rfl
@[simp] theorem putPart_flashVersion (s : State) (i : Nat) (x : Part) : (putPart s i x).flashVersion = s.flashVersion := rfl
@[simp] theorem putPart_doorbells (s : State) (i : Nat) (x : Part) : (putPart s i x).doorbells = s.doorbells := rfl
@[simp] theorem putPart_ldLast (s : State) (i : Nat) (x : Part) : (putPart s i x).ldLast = s.ldLast := rfl
@[simp] theorem putPart_ldDone (s : State) (i : Nat) (x : Part) : (putPart s i x).ldDone = s.ldDone := rfl
@[simp] theorem putPart_msixPending (s : State) (i : Nat) (x : Part) : (putPart s i x).msixPending = s.msixPending := rfl
@[simp] theorem putPart_msixLast (s : State) (i : Nat) (x : Part) : (putPart s i x).msixLast = s.msixLast := rfl
@[simp] theorem putPart_outbox (s : State) (i : Nat) (x : Part) : (putPart s i x).outbox = s.outbox := rfl
@[simp] theorem putPart_corrected (s : State) (i : Nat) (x : Part) : (putPart s i x).corrected = s.corrected := rfl
@[simp] theorem putPart_agenda (s : State) (i : Nat) (x : Part) : (putPart s i x).agenda = s.agenda := rfl
@[simp] theorem putPart_focusCore (s : State) (i : Nat) (x : Part) : (putPart s i x).focusCore = s.focusCore := rfl
@[simp] theorem putPart_focusCl (s : State) (i : Nat) (x : Part) : (putPart s i x).focusCl = s.focusCl := rfl
@[simp] theorem putPart_bundle (s : State) (i : Nat) (x : Part) : (putPart s i x).bundle = s.bundle := rfl
@[simp] theorem putPart_tick (s : State) (i : Nat) (x : Part) : (putPart s i x).tick = s.tick := rfl
@[simp] theorem putPart_sectorTags (s : State) (i : Nat) (x : Part) : (putPart s i x).sectorTags = s.sectorTags := rfl
@[simp] theorem putPart_peerPoison (s : State) (i : Nat) (x : Part) : (putPart s i x).peerPoison = s.peerPoison := rfl
@[simp] theorem putPart_attKey (s : State) (i : Nat) (x : Part) : (putPart s i x).attKey = s.attKey := rfl
@[simp] theorem putPart_fwImage (s : State) (i : Nat) (x : Part) : (putPart s i x).fwImage = s.fwImage := rfl
@[simp] theorem putPart_apertures (s : State) (i : Nat) (x : Part) : (putPart s i x).apertures = s.apertures := rfl
@[simp] theorem putPart_timeMaster (s : State) (i : Nat) (x : Part) : (putPart s i x).timeMaster = s.timeMaster := rfl
@[simp] theorem putPart_waiting (s : State) (i : Nat) (x : Part) : (putPart s i x).waiting = s.waiting := rfl
@[simp] theorem putPart_accesses (s : State) (i : Nat) (x : Part) : (putPart s i x).accesses = s.accesses := rfl

@[simp] theorem getCore_putDie (s : State) (i j : Nat) (x : Die) : getCore (putDie s i x) j = getCore s j := rfl
@[simp] theorem getPart_putDie (s : State) (i j : Nat) (x : Die) : getPart (putDie s i x) j = getPart s j := rfl
@[simp] theorem putDie_cores (s : State) (i : Nat) (x : Die) : (putDie s i x).cores = s.cores := rfl
@[simp] theorem putDie_parts (s : State) (i : Nat) (x : Die) : (putDie s i x).parts = s.parts := rfl
@[simp] theorem putDie_mem (s : State) (i : Nat) (x : Die) : (putDie s i x).mem = s.mem := rfl
@[simp] theorem putDie_poisoned (s : State) (i : Nat) (x : Die) : (putDie s i x).poisoned = s.poisoned := rfl
@[simp] theorem putDie_faulty (s : State) (i : Nat) (x : Die) : (putDie s i x).faulty = s.faulty := rfl
@[simp] theorem putDie_hostMem (s : State) (i : Nat) (x : Die) : (putDie s i x).hostMem = s.hostMem := rfl
@[simp] theorem putDie_hostPoison (s : State) (i : Nat) (x : Die) : (putDie s i x).hostPoison = s.hostPoison := rfl
@[simp] theorem putDie_peerMem (s : State) (i : Nat) (x : Die) : (putDie s i x).peerMem = s.peerMem := rfl
@[simp] theorem putDie_dtime (s : State) (i : Nat) (x : Die) : (putDie s i x).dtime = s.dtime := rfl
@[simp] theorem putDie_mirroredGiB (s : State) (i : Nat) (x : Die) : (putDie s i x).mirroredGiB = s.mirroredGiB := rfl
@[simp] theorem putDie_mirroredNext (s : State) (i : Nat) (x : Die) : (putDie s i x).mirroredNext = s.mirroredNext := rfl
@[simp] theorem putDie_slew (s : State) (i : Nat) (x : Die) : (putDie s i x).slew = s.slew := rfl
@[simp] theorem putDie_slewAcc (s : State) (i : Nat) (x : Die) : (putDie s i x).slewAcc = s.slewAcc := rfl
@[simp] theorem putDie_boostAt (s : State) (i : Nat) (x : Die) : (putDie s i x).boostAt = s.boostAt := rfl
@[simp] theorem putDie_powerCeiling (s : State) (i : Nat) (x : Die) : (putDie s i x).powerCeiling = s.powerCeiling := rfl
@[simp] theorem putDie_workLimit (s : State) (i : Nat) (x : Die) : (putDie s i x).workLimit = s.workLimit := rfl
@[simp] theorem putDie_intthr (s : State) (i : Nat) (x : Die) : (putDie s i x).intthr = s.intthr := rfl
@[simp] theorem putDie_mismatches (s : State) (i : Nat) (x : Die) : (putDie s i x).mismatches = s.mismatches := rfl
@[simp] theorem putDie_alarm (s : State) (i : Nat) (x : Die) : (putDie s i x).alarm = s.alarm := rfl
@[simp] theorem putDie_keysValid (s : State) (i : Nat) (x : Die) : (putDie s i x).keysValid = s.keysValid := rfl
@[simp] theorem putDie_keyEpoch (s : State) (i : Nat) (x : Die) : (putDie s i x).keyEpoch = s.keyEpoch := rfl
@[simp] theorem putDie_retiredCores (s : State) (i : Nat) (x : Die) : (putDie s i x).retiredCores = s.retiredCores := rfl
@[simp] theorem putDie_minVersion (s : State) (i : Nat) (x : Die) : (putDie s i x).minVersion = s.minVersion := rfl
@[simp] theorem putDie_flashValid (s : State) (i : Nat) (x : Die) : (putDie s i x).flashValid = s.flashValid := rfl
@[simp] theorem putDie_flashVersion (s : State) (i : Nat) (x : Die) : (putDie s i x).flashVersion = s.flashVersion := rfl
@[simp] theorem putDie_doorbells (s : State) (i : Nat) (x : Die) : (putDie s i x).doorbells = s.doorbells := rfl
@[simp] theorem putDie_ldLast (s : State) (i : Nat) (x : Die) : (putDie s i x).ldLast = s.ldLast := rfl
@[simp] theorem putDie_ldDone (s : State) (i : Nat) (x : Die) : (putDie s i x).ldDone = s.ldDone := rfl
@[simp] theorem putDie_msixPending (s : State) (i : Nat) (x : Die) : (putDie s i x).msixPending = s.msixPending := rfl
@[simp] theorem putDie_msixLast (s : State) (i : Nat) (x : Die) : (putDie s i x).msixLast = s.msixLast := rfl
@[simp] theorem putDie_outbox (s : State) (i : Nat) (x : Die) : (putDie s i x).outbox = s.outbox := rfl
@[simp] theorem putDie_corrected (s : State) (i : Nat) (x : Die) : (putDie s i x).corrected = s.corrected := rfl
@[simp] theorem putDie_agenda (s : State) (i : Nat) (x : Die) : (putDie s i x).agenda = s.agenda := rfl
@[simp] theorem putDie_focusCore (s : State) (i : Nat) (x : Die) : (putDie s i x).focusCore = s.focusCore := rfl
@[simp] theorem putDie_focusCl (s : State) (i : Nat) (x : Die) : (putDie s i x).focusCl = s.focusCl := rfl
@[simp] theorem putDie_bundle (s : State) (i : Nat) (x : Die) : (putDie s i x).bundle = s.bundle := rfl
@[simp] theorem putDie_tick (s : State) (i : Nat) (x : Die) : (putDie s i x).tick = s.tick := rfl
@[simp] theorem putDie_sectorTags (s : State) (i : Nat) (x : Die) : (putDie s i x).sectorTags = s.sectorTags := rfl
@[simp] theorem putDie_peerPoison (s : State) (i : Nat) (x : Die) : (putDie s i x).peerPoison = s.peerPoison := rfl
@[simp] theorem putDie_attKey (s : State) (i : Nat) (x : Die) : (putDie s i x).attKey = s.attKey := rfl
@[simp] theorem putDie_fwImage (s : State) (i : Nat) (x : Die) : (putDie s i x).fwImage = s.fwImage := rfl
@[simp] theorem putDie_apertures (s : State) (i : Nat) (x : Die) : (putDie s i x).apertures = s.apertures := rfl
@[simp] theorem putDie_timeMaster (s : State) (i : Nat) (x : Die) : (putDie s i x).timeMaster = s.timeMaster := rfl
@[simp] theorem putDie_waiting (s : State) (i : Nat) (x : Die) : (putDie s i x).waiting = s.waiting := rfl
@[simp] theorem putDie_accesses (s : State) (i : Nat) (x : Die) : (putDie s i x).accesses = s.accesses := rfl

@[simp] theorem getPart_modCore (s : State) (i j : Nat) (x : Core → Core) : getPart (modCore s i x) j = getPart s j := rfl
@[simp] theorem getDie_modCore (s : State) (i j : Nat) (x : Core → Core) : getDie (modCore s i x) j = getDie s j := rfl
@[simp] theorem modCore_dies (s : State) (i : Nat) (x : Core → Core) : (modCore s i x).dies = s.dies := rfl
@[simp] theorem modCore_parts (s : State) (i : Nat) (x : Core → Core) : (modCore s i x).parts = s.parts := rfl
@[simp] theorem modCore_mem (s : State) (i : Nat) (x : Core → Core) : (modCore s i x).mem = s.mem := rfl
@[simp] theorem modCore_poisoned (s : State) (i : Nat) (x : Core → Core) : (modCore s i x).poisoned = s.poisoned := rfl
@[simp] theorem modCore_faulty (s : State) (i : Nat) (x : Core → Core) : (modCore s i x).faulty = s.faulty := rfl
@[simp] theorem modCore_hostMem (s : State) (i : Nat) (x : Core → Core) : (modCore s i x).hostMem = s.hostMem := rfl
@[simp] theorem modCore_hostPoison (s : State) (i : Nat) (x : Core → Core) : (modCore s i x).hostPoison = s.hostPoison := rfl
@[simp] theorem modCore_peerMem (s : State) (i : Nat) (x : Core → Core) : (modCore s i x).peerMem = s.peerMem := rfl
@[simp] theorem modCore_dtime (s : State) (i : Nat) (x : Core → Core) : (modCore s i x).dtime = s.dtime := rfl
@[simp] theorem modCore_mirroredGiB (s : State) (i : Nat) (x : Core → Core) : (modCore s i x).mirroredGiB = s.mirroredGiB := rfl
@[simp] theorem modCore_mirroredNext (s : State) (i : Nat) (x : Core → Core) : (modCore s i x).mirroredNext = s.mirroredNext := rfl
@[simp] theorem modCore_slew (s : State) (i : Nat) (x : Core → Core) : (modCore s i x).slew = s.slew := rfl
@[simp] theorem modCore_slewAcc (s : State) (i : Nat) (x : Core → Core) : (modCore s i x).slewAcc = s.slewAcc := rfl
@[simp] theorem modCore_boostAt (s : State) (i : Nat) (x : Core → Core) : (modCore s i x).boostAt = s.boostAt := rfl
@[simp] theorem modCore_powerCeiling (s : State) (i : Nat) (x : Core → Core) : (modCore s i x).powerCeiling = s.powerCeiling := rfl
@[simp] theorem modCore_workLimit (s : State) (i : Nat) (x : Core → Core) : (modCore s i x).workLimit = s.workLimit := rfl
@[simp] theorem modCore_intthr (s : State) (i : Nat) (x : Core → Core) : (modCore s i x).intthr = s.intthr := rfl
@[simp] theorem modCore_mismatches (s : State) (i : Nat) (x : Core → Core) : (modCore s i x).mismatches = s.mismatches := rfl
@[simp] theorem modCore_alarm (s : State) (i : Nat) (x : Core → Core) : (modCore s i x).alarm = s.alarm := rfl
@[simp] theorem modCore_keysValid (s : State) (i : Nat) (x : Core → Core) : (modCore s i x).keysValid = s.keysValid := rfl
@[simp] theorem modCore_keyEpoch (s : State) (i : Nat) (x : Core → Core) : (modCore s i x).keyEpoch = s.keyEpoch := rfl
@[simp] theorem modCore_retiredCores (s : State) (i : Nat) (x : Core → Core) : (modCore s i x).retiredCores = s.retiredCores := rfl
@[simp] theorem modCore_minVersion (s : State) (i : Nat) (x : Core → Core) : (modCore s i x).minVersion = s.minVersion := rfl
@[simp] theorem modCore_flashValid (s : State) (i : Nat) (x : Core → Core) : (modCore s i x).flashValid = s.flashValid := rfl
@[simp] theorem modCore_flashVersion (s : State) (i : Nat) (x : Core → Core) : (modCore s i x).flashVersion = s.flashVersion := rfl
@[simp] theorem modCore_doorbells (s : State) (i : Nat) (x : Core → Core) : (modCore s i x).doorbells = s.doorbells := rfl
@[simp] theorem modCore_ldLast (s : State) (i : Nat) (x : Core → Core) : (modCore s i x).ldLast = s.ldLast := rfl
@[simp] theorem modCore_ldDone (s : State) (i : Nat) (x : Core → Core) : (modCore s i x).ldDone = s.ldDone := rfl
@[simp] theorem modCore_msixPending (s : State) (i : Nat) (x : Core → Core) : (modCore s i x).msixPending = s.msixPending := rfl
@[simp] theorem modCore_msixLast (s : State) (i : Nat) (x : Core → Core) : (modCore s i x).msixLast = s.msixLast := rfl
@[simp] theorem modCore_outbox (s : State) (i : Nat) (x : Core → Core) : (modCore s i x).outbox = s.outbox := rfl
@[simp] theorem modCore_corrected (s : State) (i : Nat) (x : Core → Core) : (modCore s i x).corrected = s.corrected := rfl
@[simp] theorem modCore_agenda (s : State) (i : Nat) (x : Core → Core) : (modCore s i x).agenda = s.agenda := rfl
@[simp] theorem modCore_focusCore (s : State) (i : Nat) (x : Core → Core) : (modCore s i x).focusCore = s.focusCore := rfl
@[simp] theorem modCore_focusCl (s : State) (i : Nat) (x : Core → Core) : (modCore s i x).focusCl = s.focusCl := rfl
@[simp] theorem modCore_bundle (s : State) (i : Nat) (x : Core → Core) : (modCore s i x).bundle = s.bundle := rfl
@[simp] theorem modCore_tick (s : State) (i : Nat) (x : Core → Core) : (modCore s i x).tick = s.tick := rfl
@[simp] theorem modCore_sectorTags (s : State) (i : Nat) (x : Core → Core) : (modCore s i x).sectorTags = s.sectorTags := rfl
@[simp] theorem modCore_peerPoison (s : State) (i : Nat) (x : Core → Core) : (modCore s i x).peerPoison = s.peerPoison := rfl
@[simp] theorem modCore_attKey (s : State) (i : Nat) (x : Core → Core) : (modCore s i x).attKey = s.attKey := rfl
@[simp] theorem modCore_fwImage (s : State) (i : Nat) (x : Core → Core) : (modCore s i x).fwImage = s.fwImage := rfl
@[simp] theorem modCore_apertures (s : State) (i : Nat) (x : Core → Core) : (modCore s i x).apertures = s.apertures := rfl
@[simp] theorem modCore_timeMaster (s : State) (i : Nat) (x : Core → Core) : (modCore s i x).timeMaster = s.timeMaster := rfl
@[simp] theorem modCore_waiting (s : State) (i : Nat) (x : Core → Core) : (modCore s i x).waiting = s.waiting := rfl
@[simp] theorem modCore_accesses (s : State) (i : Nat) (x : Core → Core) : (modCore s i x).accesses = s.accesses := rfl

@[simp] theorem getPart_modArch (s : State) (i j : Nat) (x : Arch → Arch) : getPart (modArch s i x) j = getPart s j := rfl
@[simp] theorem getDie_modArch (s : State) (i j : Nat) (x : Arch → Arch) : getDie (modArch s i x) j = getDie s j := rfl
@[simp] theorem modArch_dies (s : State) (i : Nat) (x : Arch → Arch) : (modArch s i x).dies = s.dies := rfl
@[simp] theorem modArch_parts (s : State) (i : Nat) (x : Arch → Arch) : (modArch s i x).parts = s.parts := rfl
@[simp] theorem modArch_mem (s : State) (i : Nat) (x : Arch → Arch) : (modArch s i x).mem = s.mem := rfl
@[simp] theorem modArch_poisoned (s : State) (i : Nat) (x : Arch → Arch) : (modArch s i x).poisoned = s.poisoned := rfl
@[simp] theorem modArch_faulty (s : State) (i : Nat) (x : Arch → Arch) : (modArch s i x).faulty = s.faulty := rfl
@[simp] theorem modArch_hostMem (s : State) (i : Nat) (x : Arch → Arch) : (modArch s i x).hostMem = s.hostMem := rfl
@[simp] theorem modArch_hostPoison (s : State) (i : Nat) (x : Arch → Arch) : (modArch s i x).hostPoison = s.hostPoison := rfl
@[simp] theorem modArch_peerMem (s : State) (i : Nat) (x : Arch → Arch) : (modArch s i x).peerMem = s.peerMem := rfl
@[simp] theorem modArch_dtime (s : State) (i : Nat) (x : Arch → Arch) : (modArch s i x).dtime = s.dtime := rfl
@[simp] theorem modArch_mirroredGiB (s : State) (i : Nat) (x : Arch → Arch) : (modArch s i x).mirroredGiB = s.mirroredGiB := rfl
@[simp] theorem modArch_mirroredNext (s : State) (i : Nat) (x : Arch → Arch) : (modArch s i x).mirroredNext = s.mirroredNext := rfl
@[simp] theorem modArch_slew (s : State) (i : Nat) (x : Arch → Arch) : (modArch s i x).slew = s.slew := rfl
@[simp] theorem modArch_slewAcc (s : State) (i : Nat) (x : Arch → Arch) : (modArch s i x).slewAcc = s.slewAcc := rfl
@[simp] theorem modArch_boostAt (s : State) (i : Nat) (x : Arch → Arch) : (modArch s i x).boostAt = s.boostAt := rfl
@[simp] theorem modArch_powerCeiling (s : State) (i : Nat) (x : Arch → Arch) : (modArch s i x).powerCeiling = s.powerCeiling := rfl
@[simp] theorem modArch_workLimit (s : State) (i : Nat) (x : Arch → Arch) : (modArch s i x).workLimit = s.workLimit := rfl
@[simp] theorem modArch_intthr (s : State) (i : Nat) (x : Arch → Arch) : (modArch s i x).intthr = s.intthr := rfl
@[simp] theorem modArch_mismatches (s : State) (i : Nat) (x : Arch → Arch) : (modArch s i x).mismatches = s.mismatches := rfl
@[simp] theorem modArch_alarm (s : State) (i : Nat) (x : Arch → Arch) : (modArch s i x).alarm = s.alarm := rfl
@[simp] theorem modArch_keysValid (s : State) (i : Nat) (x : Arch → Arch) : (modArch s i x).keysValid = s.keysValid := rfl
@[simp] theorem modArch_keyEpoch (s : State) (i : Nat) (x : Arch → Arch) : (modArch s i x).keyEpoch = s.keyEpoch := rfl
@[simp] theorem modArch_retiredCores (s : State) (i : Nat) (x : Arch → Arch) : (modArch s i x).retiredCores = s.retiredCores := rfl
@[simp] theorem modArch_minVersion (s : State) (i : Nat) (x : Arch → Arch) : (modArch s i x).minVersion = s.minVersion := rfl
@[simp] theorem modArch_flashValid (s : State) (i : Nat) (x : Arch → Arch) : (modArch s i x).flashValid = s.flashValid := rfl
@[simp] theorem modArch_flashVersion (s : State) (i : Nat) (x : Arch → Arch) : (modArch s i x).flashVersion = s.flashVersion := rfl
@[simp] theorem modArch_doorbells (s : State) (i : Nat) (x : Arch → Arch) : (modArch s i x).doorbells = s.doorbells := rfl
@[simp] theorem modArch_ldLast (s : State) (i : Nat) (x : Arch → Arch) : (modArch s i x).ldLast = s.ldLast := rfl
@[simp] theorem modArch_ldDone (s : State) (i : Nat) (x : Arch → Arch) : (modArch s i x).ldDone = s.ldDone := rfl
@[simp] theorem modArch_msixPending (s : State) (i : Nat) (x : Arch → Arch) : (modArch s i x).msixPending = s.msixPending := rfl
@[simp] theorem modArch_msixLast (s : State) (i : Nat) (x : Arch → Arch) : (modArch s i x).msixLast = s.msixLast := rfl
@[simp] theorem modArch_outbox (s : State) (i : Nat) (x : Arch → Arch) : (modArch s i x).outbox = s.outbox := rfl
@[simp] theorem modArch_corrected (s : State) (i : Nat) (x : Arch → Arch) : (modArch s i x).corrected = s.corrected := rfl
@[simp] theorem modArch_agenda (s : State) (i : Nat) (x : Arch → Arch) : (modArch s i x).agenda = s.agenda := rfl
@[simp] theorem modArch_focusCore (s : State) (i : Nat) (x : Arch → Arch) : (modArch s i x).focusCore = s.focusCore := rfl
@[simp] theorem modArch_focusCl (s : State) (i : Nat) (x : Arch → Arch) : (modArch s i x).focusCl = s.focusCl := rfl
@[simp] theorem modArch_bundle (s : State) (i : Nat) (x : Arch → Arch) : (modArch s i x).bundle = s.bundle := rfl
@[simp] theorem modArch_tick (s : State) (i : Nat) (x : Arch → Arch) : (modArch s i x).tick = s.tick := rfl
@[simp] theorem modArch_sectorTags (s : State) (i : Nat) (x : Arch → Arch) : (modArch s i x).sectorTags = s.sectorTags := rfl
@[simp] theorem modArch_peerPoison (s : State) (i : Nat) (x : Arch → Arch) : (modArch s i x).peerPoison = s.peerPoison := rfl
@[simp] theorem modArch_attKey (s : State) (i : Nat) (x : Arch → Arch) : (modArch s i x).attKey = s.attKey := rfl
@[simp] theorem modArch_fwImage (s : State) (i : Nat) (x : Arch → Arch) : (modArch s i x).fwImage = s.fwImage := rfl
@[simp] theorem modArch_apertures (s : State) (i : Nat) (x : Arch → Arch) : (modArch s i x).apertures = s.apertures := rfl
@[simp] theorem modArch_timeMaster (s : State) (i : Nat) (x : Arch → Arch) : (modArch s i x).timeMaster = s.timeMaster := rfl
@[simp] theorem modArch_waiting (s : State) (i : Nat) (x : Arch → Arch) : (modArch s i x).waiting = s.waiting := rfl
@[simp] theorem modArch_accesses (s : State) (i : Nat) (x : Arch → Arch) : (modArch s i x).accesses = s.accesses := rfl

@[simp] theorem getCore_modPart (s : State) (i j : Nat) (x : Part → Part) : getCore (modPart s i x) j = getCore s j := rfl
@[simp] theorem getDie_modPart (s : State) (i j : Nat) (x : Part → Part) : getDie (modPart s i x) j = getDie s j := rfl
@[simp] theorem modPart_cores (s : State) (i : Nat) (x : Part → Part) : (modPart s i x).cores = s.cores := rfl
@[simp] theorem modPart_dies (s : State) (i : Nat) (x : Part → Part) : (modPart s i x).dies = s.dies := rfl
@[simp] theorem modPart_mem (s : State) (i : Nat) (x : Part → Part) : (modPart s i x).mem = s.mem := rfl
@[simp] theorem modPart_poisoned (s : State) (i : Nat) (x : Part → Part) : (modPart s i x).poisoned = s.poisoned := rfl
@[simp] theorem modPart_faulty (s : State) (i : Nat) (x : Part → Part) : (modPart s i x).faulty = s.faulty := rfl
@[simp] theorem modPart_hostMem (s : State) (i : Nat) (x : Part → Part) : (modPart s i x).hostMem = s.hostMem := rfl
@[simp] theorem modPart_hostPoison (s : State) (i : Nat) (x : Part → Part) : (modPart s i x).hostPoison = s.hostPoison := rfl
@[simp] theorem modPart_peerMem (s : State) (i : Nat) (x : Part → Part) : (modPart s i x).peerMem = s.peerMem := rfl
@[simp] theorem modPart_dtime (s : State) (i : Nat) (x : Part → Part) : (modPart s i x).dtime = s.dtime := rfl
@[simp] theorem modPart_mirroredGiB (s : State) (i : Nat) (x : Part → Part) : (modPart s i x).mirroredGiB = s.mirroredGiB := rfl
@[simp] theorem modPart_mirroredNext (s : State) (i : Nat) (x : Part → Part) : (modPart s i x).mirroredNext = s.mirroredNext := rfl
@[simp] theorem modPart_slew (s : State) (i : Nat) (x : Part → Part) : (modPart s i x).slew = s.slew := rfl
@[simp] theorem modPart_slewAcc (s : State) (i : Nat) (x : Part → Part) : (modPart s i x).slewAcc = s.slewAcc := rfl
@[simp] theorem modPart_boostAt (s : State) (i : Nat) (x : Part → Part) : (modPart s i x).boostAt = s.boostAt := rfl
@[simp] theorem modPart_powerCeiling (s : State) (i : Nat) (x : Part → Part) : (modPart s i x).powerCeiling = s.powerCeiling := rfl
@[simp] theorem modPart_workLimit (s : State) (i : Nat) (x : Part → Part) : (modPart s i x).workLimit = s.workLimit := rfl
@[simp] theorem modPart_intthr (s : State) (i : Nat) (x : Part → Part) : (modPart s i x).intthr = s.intthr := rfl
@[simp] theorem modPart_mismatches (s : State) (i : Nat) (x : Part → Part) : (modPart s i x).mismatches = s.mismatches := rfl
@[simp] theorem modPart_alarm (s : State) (i : Nat) (x : Part → Part) : (modPart s i x).alarm = s.alarm := rfl
@[simp] theorem modPart_keysValid (s : State) (i : Nat) (x : Part → Part) : (modPart s i x).keysValid = s.keysValid := rfl
@[simp] theorem modPart_keyEpoch (s : State) (i : Nat) (x : Part → Part) : (modPart s i x).keyEpoch = s.keyEpoch := rfl
@[simp] theorem modPart_retiredCores (s : State) (i : Nat) (x : Part → Part) : (modPart s i x).retiredCores = s.retiredCores := rfl
@[simp] theorem modPart_minVersion (s : State) (i : Nat) (x : Part → Part) : (modPart s i x).minVersion = s.minVersion := rfl
@[simp] theorem modPart_flashValid (s : State) (i : Nat) (x : Part → Part) : (modPart s i x).flashValid = s.flashValid := rfl
@[simp] theorem modPart_flashVersion (s : State) (i : Nat) (x : Part → Part) : (modPart s i x).flashVersion = s.flashVersion := rfl
@[simp] theorem modPart_doorbells (s : State) (i : Nat) (x : Part → Part) : (modPart s i x).doorbells = s.doorbells := rfl
@[simp] theorem modPart_ldLast (s : State) (i : Nat) (x : Part → Part) : (modPart s i x).ldLast = s.ldLast := rfl
@[simp] theorem modPart_ldDone (s : State) (i : Nat) (x : Part → Part) : (modPart s i x).ldDone = s.ldDone := rfl
@[simp] theorem modPart_msixPending (s : State) (i : Nat) (x : Part → Part) : (modPart s i x).msixPending = s.msixPending := rfl
@[simp] theorem modPart_msixLast (s : State) (i : Nat) (x : Part → Part) : (modPart s i x).msixLast = s.msixLast := rfl
@[simp] theorem modPart_outbox (s : State) (i : Nat) (x : Part → Part) : (modPart s i x).outbox = s.outbox := rfl
@[simp] theorem modPart_corrected (s : State) (i : Nat) (x : Part → Part) : (modPart s i x).corrected = s.corrected := rfl
@[simp] theorem modPart_agenda (s : State) (i : Nat) (x : Part → Part) : (modPart s i x).agenda = s.agenda := rfl
@[simp] theorem modPart_focusCore (s : State) (i : Nat) (x : Part → Part) : (modPart s i x).focusCore = s.focusCore := rfl
@[simp] theorem modPart_focusCl (s : State) (i : Nat) (x : Part → Part) : (modPart s i x).focusCl = s.focusCl := rfl
@[simp] theorem modPart_bundle (s : State) (i : Nat) (x : Part → Part) : (modPart s i x).bundle = s.bundle := rfl
@[simp] theorem modPart_tick (s : State) (i : Nat) (x : Part → Part) : (modPart s i x).tick = s.tick := rfl
@[simp] theorem modPart_sectorTags (s : State) (i : Nat) (x : Part → Part) : (modPart s i x).sectorTags = s.sectorTags := rfl
@[simp] theorem modPart_peerPoison (s : State) (i : Nat) (x : Part → Part) : (modPart s i x).peerPoison = s.peerPoison := rfl
@[simp] theorem modPart_attKey (s : State) (i : Nat) (x : Part → Part) : (modPart s i x).attKey = s.attKey := rfl
@[simp] theorem modPart_fwImage (s : State) (i : Nat) (x : Part → Part) : (modPart s i x).fwImage = s.fwImage := rfl
@[simp] theorem modPart_apertures (s : State) (i : Nat) (x : Part → Part) : (modPart s i x).apertures = s.apertures := rfl
@[simp] theorem modPart_timeMaster (s : State) (i : Nat) (x : Part → Part) : (modPart s i x).timeMaster = s.timeMaster := rfl
@[simp] theorem modPart_waiting (s : State) (i : Nat) (x : Part → Part) : (modPart s i x).waiting = s.waiting := rfl
@[simp] theorem modPart_accesses (s : State) (i : Nat) (x : Part → Part) : (modPart s i x).accesses = s.accesses := rfl

@[simp] theorem getCore_modDie (s : State) (i j : Nat) (x : Die → Die) : getCore (modDie s i x) j = getCore s j := rfl
@[simp] theorem getPart_modDie (s : State) (i j : Nat) (x : Die → Die) : getPart (modDie s i x) j = getPart s j := rfl
@[simp] theorem modDie_cores (s : State) (i : Nat) (x : Die → Die) : (modDie s i x).cores = s.cores := rfl
@[simp] theorem modDie_parts (s : State) (i : Nat) (x : Die → Die) : (modDie s i x).parts = s.parts := rfl
@[simp] theorem modDie_mem (s : State) (i : Nat) (x : Die → Die) : (modDie s i x).mem = s.mem := rfl
@[simp] theorem modDie_poisoned (s : State) (i : Nat) (x : Die → Die) : (modDie s i x).poisoned = s.poisoned := rfl
@[simp] theorem modDie_faulty (s : State) (i : Nat) (x : Die → Die) : (modDie s i x).faulty = s.faulty := rfl
@[simp] theorem modDie_hostMem (s : State) (i : Nat) (x : Die → Die) : (modDie s i x).hostMem = s.hostMem := rfl
@[simp] theorem modDie_hostPoison (s : State) (i : Nat) (x : Die → Die) : (modDie s i x).hostPoison = s.hostPoison := rfl
@[simp] theorem modDie_peerMem (s : State) (i : Nat) (x : Die → Die) : (modDie s i x).peerMem = s.peerMem := rfl
@[simp] theorem modDie_dtime (s : State) (i : Nat) (x : Die → Die) : (modDie s i x).dtime = s.dtime := rfl
@[simp] theorem modDie_mirroredGiB (s : State) (i : Nat) (x : Die → Die) : (modDie s i x).mirroredGiB = s.mirroredGiB := rfl
@[simp] theorem modDie_mirroredNext (s : State) (i : Nat) (x : Die → Die) : (modDie s i x).mirroredNext = s.mirroredNext := rfl
@[simp] theorem modDie_slew (s : State) (i : Nat) (x : Die → Die) : (modDie s i x).slew = s.slew := rfl
@[simp] theorem modDie_slewAcc (s : State) (i : Nat) (x : Die → Die) : (modDie s i x).slewAcc = s.slewAcc := rfl
@[simp] theorem modDie_boostAt (s : State) (i : Nat) (x : Die → Die) : (modDie s i x).boostAt = s.boostAt := rfl
@[simp] theorem modDie_powerCeiling (s : State) (i : Nat) (x : Die → Die) : (modDie s i x).powerCeiling = s.powerCeiling := rfl
@[simp] theorem modDie_workLimit (s : State) (i : Nat) (x : Die → Die) : (modDie s i x).workLimit = s.workLimit := rfl
@[simp] theorem modDie_intthr (s : State) (i : Nat) (x : Die → Die) : (modDie s i x).intthr = s.intthr := rfl
@[simp] theorem modDie_mismatches (s : State) (i : Nat) (x : Die → Die) : (modDie s i x).mismatches = s.mismatches := rfl
@[simp] theorem modDie_alarm (s : State) (i : Nat) (x : Die → Die) : (modDie s i x).alarm = s.alarm := rfl
@[simp] theorem modDie_keysValid (s : State) (i : Nat) (x : Die → Die) : (modDie s i x).keysValid = s.keysValid := rfl
@[simp] theorem modDie_keyEpoch (s : State) (i : Nat) (x : Die → Die) : (modDie s i x).keyEpoch = s.keyEpoch := rfl
@[simp] theorem modDie_retiredCores (s : State) (i : Nat) (x : Die → Die) : (modDie s i x).retiredCores = s.retiredCores := rfl
@[simp] theorem modDie_minVersion (s : State) (i : Nat) (x : Die → Die) : (modDie s i x).minVersion = s.minVersion := rfl
@[simp] theorem modDie_flashValid (s : State) (i : Nat) (x : Die → Die) : (modDie s i x).flashValid = s.flashValid := rfl
@[simp] theorem modDie_flashVersion (s : State) (i : Nat) (x : Die → Die) : (modDie s i x).flashVersion = s.flashVersion := rfl
@[simp] theorem modDie_doorbells (s : State) (i : Nat) (x : Die → Die) : (modDie s i x).doorbells = s.doorbells := rfl
@[simp] theorem modDie_ldLast (s : State) (i : Nat) (x : Die → Die) : (modDie s i x).ldLast = s.ldLast := rfl
@[simp] theorem modDie_ldDone (s : State) (i : Nat) (x : Die → Die) : (modDie s i x).ldDone = s.ldDone := rfl
@[simp] theorem modDie_msixPending (s : State) (i : Nat) (x : Die → Die) : (modDie s i x).msixPending = s.msixPending := rfl
@[simp] theorem modDie_msixLast (s : State) (i : Nat) (x : Die → Die) : (modDie s i x).msixLast = s.msixLast := rfl
@[simp] theorem modDie_outbox (s : State) (i : Nat) (x : Die → Die) : (modDie s i x).outbox = s.outbox := rfl
@[simp] theorem modDie_corrected (s : State) (i : Nat) (x : Die → Die) : (modDie s i x).corrected = s.corrected := rfl
@[simp] theorem modDie_agenda (s : State) (i : Nat) (x : Die → Die) : (modDie s i x).agenda = s.agenda := rfl
@[simp] theorem modDie_focusCore (s : State) (i : Nat) (x : Die → Die) : (modDie s i x).focusCore = s.focusCore := rfl
@[simp] theorem modDie_focusCl (s : State) (i : Nat) (x : Die → Die) : (modDie s i x).focusCl = s.focusCl := rfl
@[simp] theorem modDie_bundle (s : State) (i : Nat) (x : Die → Die) : (modDie s i x).bundle = s.bundle := rfl
@[simp] theorem modDie_tick (s : State) (i : Nat) (x : Die → Die) : (modDie s i x).tick = s.tick := rfl
@[simp] theorem modDie_sectorTags (s : State) (i : Nat) (x : Die → Die) : (modDie s i x).sectorTags = s.sectorTags := rfl
@[simp] theorem modDie_peerPoison (s : State) (i : Nat) (x : Die → Die) : (modDie s i x).peerPoison = s.peerPoison := rfl
@[simp] theorem modDie_attKey (s : State) (i : Nat) (x : Die → Die) : (modDie s i x).attKey = s.attKey := rfl
@[simp] theorem modDie_fwImage (s : State) (i : Nat) (x : Die → Die) : (modDie s i x).fwImage = s.fwImage := rfl
@[simp] theorem modDie_apertures (s : State) (i : Nat) (x : Die → Die) : (modDie s i x).apertures = s.apertures := rfl
@[simp] theorem modDie_timeMaster (s : State) (i : Nat) (x : Die → Die) : (modDie s i x).timeMaster = s.timeMaster := rfl
@[simp] theorem modDie_waiting (s : State) (i : Nat) (x : Die → Die) : (modDie s i x).waiting = s.waiting := rfl
@[simp] theorem modDie_accesses (s : State) (i : Nat) (x : Die → Die) : (modDie s i x).accesses = s.accesses := rfl

end Sys2Proof.Machine
end

