-- ==== Sys2Proof/Laws/Issue.lean ====
section
/-! SUPPORT. What the issue of a word answers, by the way its meaning ends: the lemmas that a statement about an instruction cites in place of
unfolding `issue`. -/

namespace Sys2Proof.Machine

@[simp] theorem envOf_ci (s : State) : (envOf s).ci = s.focusCore := rfl
@[simp] theorem envOf_cl (s : State) : (envOf s).cl = s.focusCl := rfl
@[simp] theorem issueEnv_ci (tk : Tk) (s : State) : (issueEnv tk s).ci = s.focusCore := rfl
@[simp] theorem issueEnv_cl (tk : Tk) (s : State) : (issueEnv tk s).cl = s.focusCl := rfl
@[simp] theorem issueEnv_rd (tk : Tk) (s : State) : (issueEnv tk s).rd = (envOf s).rd := rfl
@[simp] theorem issueEnv_addr (tk : Tk) (s : State) : (issueEnv tk s).addr = (envOf s).addr := rfl
@[simp] theorem issueEnv_pout (tk : Tk) (s : State) : (issueEnv tk s).pout = pushPair s.focusCl tk.tkout.toNat := rfl

/-- Without token fields the meaning finds the state as it was. -/
@[simp] theorem issued_tkNone (s : State) : issued tkNone s = s := putCore_getCore s s.focusCore

@[simp] theorem issued_bundle (tk : Tk) (s : State) : (issued tk s).bundle = s.bundle := rfl
@[simp] theorem issued_focusCore (tk : Tk) (s : State) : (issued tk s).focusCore = s.focusCore := rfl
@[simp] theorem issued_mem (tk : Tk) (s : State) : (issued tk s).mem = s.mem := rfl

/-- The issue of a word that may issue is the end of its meaning. -/
theorem issue_of {w : Nat} {dsts : List (BitVec 6)} {g : BitVec 3} {tk : Tk} {s : State} {sem : Env → State → Res}
    (h : MayIssue w dsts g tk s) :
    issue w dsts g tk s sem = match sem (issueEnv tk s) (issued tk s) with
      | .done t => conclude s (envOf s) (.done (modArch t s.focusCore fun a => deliverTok a (pushPair s.focusCl tk.tkout.toNat)))
      | r => conclude s (envOf s) r := by
  obtain ⟨h1, h2, h3, h4⟩ := h
  simp only [issue, h1, envOf_cl, envOf_ci, h2, h3, h4, Bool.and_self, Bool.not_true, Bool.false_eq_true, if_false]
  rfl

/-- A word that completes. -/
theorem issue_done {w : Nat} {dsts : List (BitVec 6)} {g : BitVec 3} {tk : Tk} {s t : State} {sem : Env → State → Res}
    (h : MayIssue w dsts g tk s) (hs : sem (issueEnv tk s) (issued tk s) = .done t) : issue w dsts g tk s sem = .next (goOn tk s t) := by
  rw [issue_of h, hs]
  cases hb : s.bundle <;> simp [conclude, goOn, goLater, hb]

/-- A word that issues an engine operation. -/
theorem issue_later {w : Nat} {dsts : List (BitVec 6)} {g : BitVec 3} {tk : Tk} {s t : State} {sem : Env → State → Res}
    (h : MayIssue w dsts g tk s) (hs : sem (issueEnv tk s) (issued tk s) = .later t) : issue w dsts g tk s sem = .next (goLater s t) := by
  rw [issue_of h, hs]
  cases hb : s.bundle <;> simp [conclude, goLater, hb]

/-- A `vigil` that issues its check. -/
theorem issue_lit {w : Nat} {dsts : List (BitVec 6)} {g : BitVec 3} {tk : Tk} {s t : State} {sem : Env → State → Res}
    (h : MayIssue w dsts g tk s) (hs : sem (issueEnv tk s) (issued tk s) = .lit t) : issue w dsts g tk s sem = .next (goPastLiteral s t) := by
  rw [issue_of h, hs]
  cases hb : s.bundle <;> simp [conclude, goPastLiteral, hb]

/-- A word that transfers control. -/
theorem issue_jump {w : Nat} {dsts : List (BitVec 6)} {g : BitVec 3} {tk : Tk} {s t : State} {a : Word} {sem : Env → State → Res}
    (h : MayIssue w dsts g tk s) (hs : sem (issueEnv tk s) (issued tk s) = .jump t a) : issue w dsts g tk s sem = .next (goTo s t a) := by
  rw [issue_of h, hs]
  cases hb : s.bundle
  · simp only [conclude, goTo, hb]
    rfl
  · simp only [conclude, goTo, hb]
    cases t.bundle <;> rfl

/-- A word that places the program counters itself. -/
theorem issue_set {w : Nat} {dsts : List (BitVec 6)} {g : BitVec 3} {tk : Tk} {s t : State} {sem : Env → State → Res}
    (h : MayIssue w dsts g tk s) (hs : sem (issueEnv tk s) (issued tk s) = .set t) : issue w dsts g tk s sem = .next (goSet s t) := by
  rw [issue_of h, hs]
  cases hb : s.bundle
  · simp [conclude, goSet, hb]
  · simp only [conclude, goSet, hb]
    cases t.bundle <;> rfl

/-- A word that raises a cause. -/
theorem issue_raise {w : Nat} {dsts : List (BitVec 6)} {g : BitVec 3} {tk : Tk} {s : State} {x : Trap} {sem : Env → State → Res}
    (h : MayIssue w dsts g tk s) (hs : sem (issueEnv tk s) (issued tk s) = .raise x) : issue w dsts g tk s sem = .next (goTrap s x) := by
  rw [issue_of h, hs]
  cases hb : s.bundle <;> simp only [conclude, goTrap, hb] <;> rfl

/-- A word that waits. -/
theorem issue_stall {w : Nat} {dsts : List (BitVec 6)} {g : BitVec 3} {tk : Tk} {s : State} {sem : Env → State → Res}
    (h : MayIssue w dsts g tk s) (hs : sem (issueEnv tk s) (issued tk s) = .stall) : issue w dsts g tk s sem = .next (goWait s) := by
  rw [issue_of h, hs]
  cases hb : s.bundle <;> simp [conclude, goWait, hb]

/-- A word that fails a check of R51 raises its cause. -/
theorem issue_trap {w : Nat} {dsts : List (BitVec 6)} {g : BitVec 3} {tk : Tk} {s : State} {x : Trap} {sem : Env → State → Res}
    (h : issueTrap w dsts s (envOf s) = some x) : issue w dsts g tk s sem = .next (goTrap s x) := by
  simp only [issue, h]
  cases hb : s.bundle <;> simp only [conclude, goTrap, hb] <;> rfl

/-- A word whose token is not there, or whose push finds no room, waits (R45). -/
theorem issue_noToken {w : Nat} {dsts : List (BitVec 6)} {g : BitVec 3} {tk : Tk} {s : State} {sem : Env → State → Res}
    (h : issueTrap w dsts s (envOf s) = none)
    (ht : (popReady (envOf s).rd.a (popPair s.focusCl tk.tkin.toNat) && pushReady (envOf s).rd.a (pushPair s.focusCl tk.tkout.toNat)) = false) :
    issue w dsts g tk s sem = .next (goWait s) := by
  simp only [issue, h, envOf_cl, ht, Bool.not_false, if_true]
  cases hb : s.bundle <;> simp [conclude, goWait, hb]

/-- A word whose guard flag reads 0 has no effect, and the program counter moves on (R39). -/
theorem issue_guardFalse {w : Nat} {dsts : List (BitVec 6)} {g : BitVec 3} {s : State} {sem : Env → State → Res}
    (h : issueTrap w dsts s (envOf s) = none) (hg : rdFlag (envOf s).rd.a s.focusCl g.toNat = false) :
    issue w dsts g tkNone s sem = .next (goLater s s) := by
  simp only [issue, h, envOf_cl, hg, Bool.not_false, if_true]
  cases hb : s.bundle <;> simp [conclude, goLater, hb, tkNone, popPair, pushPair, popReady, pushReady]

/-! ## Operands -/

/-- A meaning that consumes operands of which none is poisoned. -/
theorem consume_clean {e : Env} {l : List (BitVec 6 × Nat)} {r : Res} (h : poisonTrap e l = none) : consume e l r = r := by
  simp [consume, h]

/-- A meaning that consumes a poisoned operand. -/
theorem consume_poison {e : Env} {l : List (BitVec 6 × Nat)} {r : Res} {t : Trap} (h : poisonTrap e l = some t) : consume e l r = .raise t := by
  simp [consume, h]

/-- A meaning on vector operands that are at hand. -/
theorem withV_sources {e : Env} {s t : State} {ns : List Nat} {vs : List (List Lane)} {k : List (List Lane) → State → Res}
    (h : vecSources e s ns = some (vs, t)) : withV e s ns k = k vs t := by
  unfold vecSources at h
  unfold withV
  revert h
  rcases popAll s e.ci (portsOf e.rd ns) with r | ⟨t', got⟩ <;> intro h <;> cases h
  rfl

/-- Elements written, or pushed, where nothing stands in the way. -/
theorem storeE_write {e : Env} {s t : State} {n w : Nat} {es : List (Option Elem)} {k : State → Res} (h : vecWrite e s n w es = some t) :
    storeE e s n w es k = k t := by
  unfold vecWrite at h
  unfold storeE
  revert h
  rcases portOf e.rd n with _ | q
  · intro h; cases h; rfl
  · dsimp only
    rcases pushPort s e.ci q (mergeElems w zeroVec (portElems es)) with _ | _ | _ | _ <;> intro h <;> cases h
    rfl

/-- A group of registers written, where nothing stands in the way. -/
theorem storeGroup_write {e : Env} {w n : Nat} {k : State → Res} (g : Nat) : ∀ {d : Nat} {s t : State} {es : List (Option Elem)},
    vecWrites e d w n g s es = some t → storeGroup e d w n k g s es = k t := by
  induction g with
  | zero => intro d s t es h; cases h; rfl
  | succ g ih =>
    intro d s t es h
    unfold vecWrites at h
    split at h
    · cases h
    · next u hu =>
      unfold storeGroup
      rw [storeE_write hu]
      exact ih h

/-- Lanes written, or pushed, where nothing stands in the way. -/
theorem storeV_write {e : Env} {s t : State} {n : Nat} {v : List Lane} {on : Nat → Bool} {k : State → Res} (h : laneWrite e s n v on = some t) :
    storeV e s n v on k = k t := by
  unfold laneWrite at h
  unfold storeV
  revert h
  rcases portOf e.rd n with _ | q
  · intro h; cases h; rfl
  · dsimp only
    rcases pushPort s e.ci q ((List.range 64).map fun i => if on i then nth Lane.zero v i else Lane.zero) with _ | _ | _ | _ <;> intro h <;> cases h
    rfl

/-- A meaning of K on vector registers that no queued matrix operation holds, with its sources at hand. -/
theorem kVec_sources {e : Env} {s t : State} {names srcs : List Nat} {vs : List (List Lane)} {k : List (List Lane) → State → Res}
    (hf : names.any (mxHolds e.rd (getCore s e.ci)) = false) (h : vecSources e s srcs = some (vs, t)) : kVec e s names srcs k = k vs t := by
  unfold kVec
  rw [hf, if_neg (by decide), withV_sources h]

end Sys2Proof.Machine
end

