-- ==== Sys2Proof/Laws/Run.lean ====
section
/-! SUPPORT. What the load and store queues of R142 do: empty ones leave a state as it is, and an access that is performed leaves the focus. -/

namespace Sys2Proof.Machine

theorem performAll_none {s : State} (h : s.accesses = []) : performAll s = s := by
  cases s
  cases h
  rfl

/-- A queued access that is performed: its instruction has run on the state, as a slot with the operands that it took, and its push is made. -/
theorem performed_some {s t : State} {q : Queued} (h : performed s q = some t) :
    ∃ u b, exec q.instr { s with
        focusCore := q.core, focusCl := q.cl, bundle := some (freshBundle q.pre) } = .next u ∧
      u.bundle = some b ∧ b.raised = none ∧ b.stalled = false ∧
        t = modArch { u with focusCore := s.focusCore, focusCl := s.focusCl, bundle := s.bundle } q.core fun a => deliverTok a q.push := by
  unfold performed at h
  split at h
  · next u hu =>
    split at h
    · next b hb =>
      split at h
      · next hc =>
        rw [Bool.and_eq_true, Option.isNone_iff_eq_none, Bool.not_eq_true'] at hc
        exact ⟨u, b, hu, hb, hc.1, hc.2, (Option.some.inj h).symm⟩
      · cases h
    · cases h
  · cases h

end Sys2Proof.Machine
end

