-- ==== Sys2Proof/Laws/Sparse.lean ====
section
/-! SUPPORT. The laws of the finite maps and of the memories: a read after a write, and the canonical form that every write keeps. -/

namespace Sys2Proof.Machine

/-! ## Finite maps -/

/-- The canonical form of a map with a first entry. -/
theorem Sparse.wfFrom_cons {α : Type} [DecidableEq α] {d v : α} {r : Sparse α} {k : Nat} {o : Option Nat} :
    Sparse.wfFrom d o ((k, v) :: r) = true ↔ (∀ j, o = some j → j < k) ∧ v ≠ d ∧ Sparse.wfFrom d (some k) r = true := by
  cases o <;> simp [Sparse.wfFrom, and_assoc]

/-- A map whose keys are above `l` has its keys above a smaller bound, or above none. -/
theorem Sparse.wfFrom_mono {α : Type} [DecidableEq α] {d : α} {m : Sparse α} {l : Nat} {o : Option Nat} (h : Sparse.wfFrom d (some l) m = true)
    (ho : ∀ k, o = some k → k ≤ l) : Sparse.wfFrom d o m = true := by
  cases m with
  | nil => simp [Sparse.wfFrom]
  | cons x r =>
    obtain ⟨k, v⟩ := x
    rw [Sparse.wfFrom_cons] at h ⊢
    exact ⟨fun j hj => Nat.lt_of_le_of_lt (ho j hj) (h.1 l rfl), h.2⟩

/-- A write at a key above the bound keeps the form. -/
theorem Sparse.wfFrom_put {α : Type} [DecidableEq α] {d : α} (m : Sparse α) (o : Option Nat) (i : Nat) (v : α) (h : Sparse.wfFrom d o m = true)
    (ho : ∀ k, o = some k → k < i) : Sparse.wfFrom d o (Sparse.put d m i v) = true := by
  induction m generalizing o with
  | nil =>
    unfold Sparse.put
    split
    · exact h
    · next hv => exact Sparse.wfFrom_cons.mpr ⟨ho, hv, rfl⟩
  | cons x r ih =>
    obtain ⟨k, w⟩ := x
    have hb := Sparse.wfFrom_cons.mp h
    unfold Sparse.put
    split
    · next hlt =>
      split
      · exact h
      · next hv =>
        exact Sparse.wfFrom_cons.mpr ⟨ho, hv, Sparse.wfFrom_cons.mpr ⟨fun j hj => by cases hj; exact hlt, hb.2⟩⟩
    · split
      · next heq =>
        subst heq
        split
        · exact Sparse.wfFrom_mono hb.2.2 fun j hj => Nat.le_of_lt (ho j hj)
        · next hv => exact Sparse.wfFrom_cons.mpr ⟨ho, hv, hb.2.2⟩
      · exact Sparse.wfFrom_cons.mpr ⟨hb.1, hb.2.1, ih (some k) hb.2.2 fun j hj => by cases hj; omega⟩

/-- A write keeps the canonical form. -/
theorem Sparse.wf_put {α : Type} [DecidableEq α] {d : α} {m : Sparse α} (i : Nat) (v : α) (h : Sparse.wf d m = true) :
    Sparse.wf d (Sparse.put d m i v) = true :=
  Sparse.wfFrom_put m none i v h (by intro k hk; cases hk)

/-- An unlisted key below every listed one reads as the default. -/
theorem Sparse.get_below {α : Type} [DecidableEq α] {d : α} {m : Sparse α} {l : Nat} (h : Sparse.wfFrom d (some l) m = true) {j : Nat} (hj : j ≤ l) :
    Sparse.get d m j = d := by
  cases m with
  | nil => rfl
  | cons x r =>
    obtain ⟨k, w⟩ := x
    have hk : l < k := (Sparse.wfFrom_cons.mp h).1 l rfl
    unfold Sparse.get
    rw [if_neg (by omega), if_pos (by omega)]

/-- A read after a write: the value written at its key, and every other key as before. -/
theorem Sparse.get_put {α : Type} [DecidableEq α] {d : α} {m : Sparse α} {o : Option Nat} (i j : Nat) (v : α) (h : Sparse.wfFrom d o m = true) :
    Sparse.get d (Sparse.put d m i v) j = if j = i then v else Sparse.get d m j := by
  induction m generalizing o with
  | nil =>
    unfold Sparse.put
    by_cases hv : v = d
    · simp [hv, Sparse.get]
    · by_cases hj : j = i
      · simp [hv, hj, Sparse.get]
      · simp [hv, hj, Sparse.get]
  | cons x r ih =>
    obtain ⟨k, w⟩ := x
    have hr : Sparse.wfFrom d (some k) r = true := (Sparse.wfFrom_cons.mp h).2.2
    unfold Sparse.put
    by_cases hlt : i < k
    · rw [if_pos hlt]
      by_cases hv : v = d
      · rw [if_pos hv]
        by_cases hj : j = i
        · subst hj
          simp [Sparse.get, hlt, hv]
          omega
        · simp [hj]
      · rw [if_neg hv]
        by_cases hj : j = i
        · simp [hj, Sparse.get]
        · by_cases hji : j < i
          · have h1 : j ≠ k := by omega
            have h2 : j < k := by omega
            simp [Sparse.get, hj, hji, h1, h2]
          · simp [Sparse.get, hj, hji]
    · rw [if_neg hlt]
      by_cases hik : i = k
      · subst hik
        rw [if_pos rfl]
        by_cases hv : v = d
        · rw [if_pos hv]
          by_cases hj : j = i
          · subst hj
            simp [hv, Sparse.get_below hr (Nat.le_refl j)]
          · by_cases hji : j < i
            · simp [Sparse.get, hj, hji, Sparse.get_below hr (Nat.le_of_lt hji)]
            · simp [Sparse.get, hj, hji]
        · rw [if_neg hv]
          by_cases hj : j = i
          · simp [hj, Sparse.get]
          · simp [Sparse.get, hj]
      · rw [if_neg hik]
        by_cases hjk : j = k
        · subst hjk
          have : j ≠ i := fun hh => hik hh.symm
          simp [Sparse.get, this]
        · by_cases hjl : j < k
          · have : j ≠ i := by omega
            simp [Sparse.get, hjk, hjl, this]
          · have := ih hr
            simp [Sparse.get, hjk, hjl, this]

/-! ## Memories -/

/-- A write of bytes keeps the canonical form. -/
theorem memWrite_wf {m : List Host.Cell} (h : Memory.wf m = true) (a : Nat) (b : List Byte) : Memory.wf (memWrite m a b) = true := by
  induction b generalizing m a with
  | nil => exact h
  | cons x r ih => exact ih (Sparse.wf_put a x h) (a + 1)

/-- A read after a write of bytes: the bytes written from their address on, and every other byte as before. -/
theorem byteAt_memWrite {m : List Host.Cell} (h : Memory.wf m = true) (a j : Nat) (b : List Byte) :
    byteAt (memWrite m a b) j = if a ≤ j ∧ j < a + b.length then nth 0 b (j - a) else byteAt m j := by
  induction b generalizing m a with
  | nil =>
    rw [if_neg (by simp)]
    rfl
  | cons x r ih =>
    have hp : byteAt (Sparse.put 0 m a x) j = if j = a then x else byteAt m j := Sparse.get_put a j x h
    show byteAt (memWrite (Sparse.put 0 m a x) (a + 1) r) j = _
    rw [ih (Sparse.wf_put a x h) (a + 1), hp, List.length_cons]
    by_cases hj : j = a
    · subst hj
      simp [nth]
    · by_cases hin : a + 1 ≤ j ∧ j < a + 1 + r.length
      · obtain ⟨k, hk⟩ : ∃ k, j - a = k + 1 := ⟨j - a - 1, by omega⟩
        rw [if_pos hin, if_pos (by omega), hk, show j - (a + 1) = k by omega]
        rfl
      · rw [if_neg hin, if_neg hj, if_neg (by omega)]

/-- Bytes that a write does not reach are as before. -/
theorem byteAt_memWrite_out {m : List Host.Cell} (h : Memory.wf m = true) {a j : Nat} {b : List Byte} (hj : j < a ∨ a + b.length ≤ j) :
    byteAt (memWrite m a b) j = byteAt m j := by
  rw [byteAt_memWrite h, if_neg (by omega)]

end Sys2Proof.Machine
end

