-- ==== Sys2Proof/Laws/Vector.lean ====
section
/-! SUPPORT. What the shared meanings of the vector forms answer once their operands are at hand and their result has a place. -/

namespace Sys2Proof.Machine

/-- The end of an element-wise form. -/
theorem finishV_write {e : Env} {s w : State} {d : BitVec 6} {t : BitVec 4} {r : List (Option Elem) × Flg} {es : List (Option Elem)} {fl : Flg}
    (h : r = (es, fl)) (hw : vecWrite e s d.toNat (typeWidth t) es = some w) : finishV e s d t r = .done (addFlags w e.ci fl) := by
  subst h
  exact storeE_write hw

/-- The same for elements with flags of their own. -/
theorem finishV_elems {e : Env} {s w : State} {d : BitVec 6} {t : BitVec 4} {x es : List (Option Elem)} {fl : Flg} (h : x = es)
    (hw : vecWrite e s d.toNat (typeWidth t) es = some w) : finishV e s d t (x, fl) = .done (addFlags w e.ci fl) := by
  subst h
  exact storeE_write hw

/-- A meaning of K with its sources at hand. -/
theorem kVec_done {e : Env} {s u : State} {names srcs : List Nat} {vs : List (List Lane)} {k : List (List Lane) → State → Res} {r : Res}
    (hf : names.any (mxHolds e.rd (getCore s e.ci)) = false) (hs : vecSources e s srcs = some (vs, u)) (hk : k vs u = r) :
    kVec e s names srcs k = r := (kVec_sources hf hs).trans hk

/-- A binary form. -/
theorem binaryV_done {e : Env} {s u w : State} {d a b : BitVec 6} {m : BitVec 3} {t : BitVec 4} {op : ElemOp} {vs : List (List Lane)}
    {es : List (Option Elem)} {fl : Flg} (hf : [d.toNat, a.toNat, b.toNat].any (mxHolds e.rd (getCore s e.ci)) = false)
    (hs : vecSources e s [a.toNat, b.toNat] = some (vs, u))
    (ho : opElems (maskBit e.rd.a m.toNat) (poisonElem t) op 0 (elems t (nth [] vs 0)) (elems t (nth [] vs 1)) (noElems t) = (es, fl))
    (hw : vecWrite e u d.toNat (typeWidth t) es = some w) : binaryV e s d a b m t op = .done (addFlags w e.ci fl) := by
  unfold binaryV
  rw [kVec_sources hf hs]
  exact finishV_write ho hw

/-- A form that reads vd as its third operand. -/
theorem fusedV_done {e : Env} {s u w : State} {d a b : BitVec 6} {m : BitVec 3} {t : BitVec 4} {op : ElemOp} {vs : List (List Lane)}
    {es : List (Option Elem)} {fl : Flg} (hf : [d.toNat, a.toNat, b.toNat].any (mxHolds e.rd (getCore s e.ci)) = false)
    (hp : portOf e.rd d.toNat = none) (hs : vecSources e s [a.toNat, b.toNat] = some (vs, u))
    (ho : opElems (maskBit e.rd.a m.toNat) (poisonElem t) op 0 (elems t (nth [] vs 0)) (elems t (nth [] vs 1)) (elems t (readV e.rd d.toNat))
      = (es, fl)) (hw : vecWrite e u d.toNat (typeWidth t) es = some w) : fusedV e s d a b m t op = .done (addFlags w e.ci fl) := by
  unfold fusedV
  rw [kVec_sources hf hs, hp]
  exact finishV_write ho hw

/-- A unary form. -/
theorem unaryV_done {e : Env} {s u w : State} {d a : BitVec 6} {m : BitVec 3} {t : BitVec 4} {op : Nat → Nat × Flg} {vs : List (List Lane)}
    {es : List (Option Elem)} {fl : Flg} (hf : [d.toNat, a.toNat].any (mxHolds e.rd (getCore s e.ci)) = false)
    (hs : vecSources e s [a.toNat] = some (vs, u))
    (ho : opElems (maskBit e.rd.a m.toNat) (poisonElem t) (fun x _ _ => op x) 0 (elems t (nth [] vs 0)) (noElems t) (noElems t) = (es, fl))
    (hw : vecWrite e u d.toNat (typeWidth t) es = some w) : unaryV e s d a m t op = .done (addFlags w e.ci fl) := by
  unfold unaryV
  rw [kVec_sources hf hs]
  exact finishV_write ho hw

/-- A form that moves elements of two sources. -/
theorem moveV_done {e : Env} {s u w : State} {d a b : BitVec 6} {t : BitVec 4} {f : List Elem → List Elem → List (Option Elem)}
    {vs : List (List Lane)} {es : List (Option Elem)} (hf : [d.toNat, a.toNat, b.toNat].any (mxHolds e.rd (getCore s e.ci)) = false)
    (hs : vecSources e s [a.toNat, b.toNat] = some (vs, u)) (ho : f (rawElems t (nth [] vs 0)) (rawElems t (nth [] vs 1)) = es)
    (hw : vecWrite e u d.toNat (typeWidth t) es = some w) : moveV e s d [a, b] t f = .done (addFlags w e.ci {}) := by
  unfold moveV
  simp only [List.map_cons, List.map_nil]
  rw [kVec_sources hf hs]
  exact finishV_elems ho hw

/-- A reduction. -/
theorem reduceV_done {e : Env} {s u w : State} {code : Nat} {d a : BitVec 6} {m : BitVec 3} {t : BitVec 4} {vs : List (List Lane)}
    {es : List (Option Elem)} {fl : Flg} (hf : [d.toNat, a.toNat].any (mxHolds e.rd (getCore s e.ci)) = false)
    (hs : vecSources e s [a.toNat] = some (vs, u))
    (ho : (if (activePsn (maskBit e.rd.a m.toNat) 0 (elems t (nth [] vs 0)) (elems t (nth [] vs 0))).isSome
        then (firstOnly (elemCount t) (poisonElem t), ({} : Flg))
        else
          let r := treeRun (redOp t (frmMode e.rd.a) code) (topBit (elemCount t)) (activeData (maskBit e.rd.a m.toNat) 0 (elems t (nth [] vs 0))) {}
          (firstOnly (elemCount t) ((match r.1 with | some y :: _ => y | _ => redIdentity t code), false), r.2)) = (es, fl))
    (hw : vecWrite e u d.toNat (typeWidth t) es = some w) : reduceV e s code d a m t = .done (addFlags w e.ci fl) := by
  unfold reduceV
  rw [kVec_sources hf hs]
  dsimp only
  split
  · next h => rw [if_pos h] at ho; exact finishV_write ho hw
  · next h => rw [if_neg h] at ho; exact finishV_write ho hw

/-- A scan. -/
theorem scanV_done {e : Env} {s u w : State} {code : Nat} {d a : BitVec 6} {m : BitVec 3} {t : BitVec 4} {vs : List (List Lane)}
    {es : List (Option Elem)} {fl : Flg} (hf : [d.toNat, a.toNat].any (mxHolds e.rd (getCore s e.ci)) = false)
    (hs : vecSources e s [a.toNat] = some (vs, u))
    (ho : scanElems (maskBit e.rd.a m.toNat) (poisonElem t) (redOp t (frmMode e.rd.a) code) 0 none false (elems t (nth [] vs 0)) = (es, fl))
    (hw : vecWrite e u d.toNat (typeWidth t) es = some w) : scanV e s code d a m t = .done (addFlags w e.ci fl) := by
  unfold scanV
  rw [kVec_sources hf hs]
  exact finishV_write ho hw

/-- A compare into a mask. -/
theorem compareV_done {e : Env} {s u : State} {code k : Nat} {d a b : BitVec 6} {m : BitVec 3} {t : BitVec 4} {vs : List (List Lane)} {fl : Flg}
    (hf : [a.toNat, b.toNat].any (mxHolds e.rd (getCore s e.ci)) = false) (hs : vecSources e s [a.toNat, b.toNat] = some (vs, u))
    (hp : activePsn (maskBit e.rd.a m.toNat) 0 (elems t (nth [] vs 0)) (elems t (nth [] vs 1)) = none)
    (ho : cmpElems (maskBit e.rd.a m.toNat) t code 0 (elems t (nth [] vs 0)) (elems t (nth [] vs 1)) = (k, fl)) :
    compareV e s code d a b m t = .done (addFlags (setMask u e.ci d.toNat (BitVec.ofNat 256 k)) e.ci fl) := by
  unfold compareV
  dsimp only
  rw [kVec_sources hf hs]
  rw [hp]
  dsimp only
  rw [ho]

end Sys2Proof.Machine
end

