-- ==== Sys2Proof/Tests/Slice0.lean ====
section
/-! SUPPORT. The model's own tests: ill-formed terms that the checks refuse, words written out from their encodings, single steps whose results
the spec gives, and for each statement states and operands that meet its hypotheses. -/

namespace Sys2Proof.Tests

open Sys2Proof Sys2Proof.Machine

-- Each theorem is checked before the next one starts.
set_option Elab.async false

/-! ## Ill-formed terms (R51) -/

theorem test_mode_field_refused : (Instr.mxdrain 0 0 5 tkNone).wf = false ∧ (Instr.scvtF64I64 1 1 6 0).wf = false ∧
    (Instr.vcvt 1 2 1 10 0 0).wf = false ∧ (Instr.vcvt 1 2 0 2 0 0).wf = false := by decide

theorem test_range_refused : (Instr.cmpEq 8 1 2 0).wf = false ∧ (Instr.ytas 1 16 0).wf = false ∧ (Instr.tkpush 0 0).wf = false ∧
    (Instr.cpin 62 0 tkNone).wf = false ∧ (Instr.cpin2d 61 0 tkNone).wf = false ∧ (Instr.amoCasQ 61 1 0 tkNone).wf = false ∧
    (Instr.vcvt 62 2 0 10 0 1).wf = false := by decide

theorem test_type_refused : (Instr.vadd 1 2 3 0 11).wf = false ∧ (Instr.vfma 1 2 3 0 4).wf = false ∧ (Instr.vand 1 2 3 0 10).wf = false ∧
    (Instr.vsel 1 2 3 0 13).wf = false ∧ (Instr.vcvt 1 2 0 10 7 15).wf = false := by decide

theorem test_form_refused : (Instr.loopO 1 0).wf = false ∧ (Instr.ldG 1 2 0 1 3 tkNone).wf = false ∧ (Instr.csrrd 1 0x004).wf = false ∧
    (Instr.loopm 0 1 2 0 4).wf = false ∧ (Instr.undefinedMajor 0x02000000).wf = false := by decide

theorem test_step_refused : (Instr.streamFetch 72 0).wf = false ∧ (Instr.chainEnd 0 4).wf = false ∧ (Instr.queueStop 8 0).wf = false ∧
    (Instr.mirroredSizeSet 57).wf = false ∧ (Instr.detectedErrorReplay 0 7).wf = false := by decide

theorem test_boundary_accepted : (Instr.cpin 61 0 tkNone).wf = true ∧ (Instr.amoCasQ 60 1 0 tkNone).wf = true ∧ (Instr.vadd 1 2 3 0 10).wf = true ∧
    (Instr.loopO 1 0x1FFF).wf = true ∧ (Instr.chainEnd 71 3).wf = true ∧ (Instr.ldG 1 2 0 0 3 tkNone).wf = true := by decide

/-! ## Small states -/

/-- Core 0 runs a unit of partition 0 in mode `m`, with memory mapped to itself and one code segment; the issue of cluster `cl` is up. -/
def st (m : Mode) (cl : Cluster) (f : Core → Core := id) : State :=
  { modCore (putCore (State.reset.withFetchWord 32 0xF0000000) 0 (placeCore m)) 0 f with focusCl := cl, agenda := [] }

/-- The core with some registers written, none of them poisoned. -/
def xs (l : List (Nat × Nat)) (c : Core) : Core := l.foldl (fun c p => wrReg c p.1 { val := BitVec.ofNat 64 p.2, psn := false }) c

/-- The core with a poisoned register. -/
def bad (i : Nat) (c : Core) : Core := wrReg c i { val := 0, psn := true }

/-- The core with its snapshot items changed. -/
def arch (f : Arch → Arch) (c : Core) : Core := { c with a := f c.a }

/-- A system handler in the code segment, at its start (R317). -/
def handler (c : Core) : Core := { c with tvec := { hseg := 0, v := true, off := 0 } }

/-- The core inside that handler. -/
def inHandler (c : Core) : Core := arch (fun a => { a with tl := true }) c

/-- A tile descriptor (R211): type, rows, columns, base, pitch, and for a fetched tile its global address and pitch. -/
def tileDesc (ty rows cols base pitch : Nat) (fetch : Bool := false) (gaddr gpitch : Nat := 0) : BitVec 256 :=
  BitVec.ofNat 256 (base + ty * 2 ^ 23 + (if fetch then 2 ^ 28 else 0) + (rows - 1) * 2 ^ 32 + (cols - 1) * 2 ^ 44 + gaddr * 2 ^ 128 +
    gpitch * 2 ^ 192 + pitch * 2 ^ 224)

/-- A valid tile in state READY. -/
def ready (d : BitVec 256) : Tile := { desc := d, v := true, st := .ready }

/-- Some words may issue, each with its scalar destinations. -/
abbrev MayAll (s : State) (l : List (Instr × List (BitVec 6))) : Prop := ∀ r ∈ l, MayIssue (encodeNat r.1) r.2 0 tkNone s

/-- Core 0 after the word has been placed and stepped; none if the step stops. -/
noncomputable def ran (w : Nat) : Option Core :=
  match step (State.reset.withFetchWord 32 w) with
  | .next t => some (getCore t 0)
  | _ => none

/-- Core 0 after an instruction has been executed. -/
noncomputable def did (i : Instr) (s : State) : Core :=
  match exec i s with
  | .next t => getCore t 0
  | _ => Core.zero

/-- The package after an instruction has been executed. -/
noncomputable def next (i : Instr) (s : State) : State :=
  match exec i s with
  | .next t => t
  | _ => State.reset

abbrev c0 : State := st .split .c
abbrev j0 : State := st .joint .c

/-! ## Witnesses: states and operands that meet the hypotheses of the statements -/

theorem witness_IntegerResults : MayAll c0 [(.add 31 1 2 0, [31]), (.sub 3 1 2 0, [3]), (.and 3 1 2 0, [3]), (.or 3 1 2 0, [3]),
    (.xor 0 1 2 0, [0]), (.sll 3 1 2 0, [3]), (.srl 3 1 2 0, [3]), (.sra 3 1 2 0, [3]), (.mul 3 1 2 0, [3]), (.mulhiS 3 1 2 0, [3]),
    (.mulhiU 3 1 2 0, [3])] := by decide +kernel

theorem witness_DivisionResults : MayAll (st .split .c (xs [(1, 2 ^ 63), (2, 2 ^ 64 - 1)])) [(.quotS 3 1 2 0, [3]), (.quotU 3 1 0 0, [3]),
    (.rmdrS 3 1 2 0, [3]), (.rmdrU 3 1 0 0, [3])] := by decide +kernel

theorem witness_ImmediateResults : (∀ w ∈ [0x0C001800, 0x0C001FFF, 0x0C001840], w / 2 ^ 25 = 0x06 ∧ w / 2 ^ 11 % 4 = 3 ∧ slotTrap w c0 (envOf c0) = none) ∧
    (∀ w ∈ [0x0C000040, 0x0C0017C0], w / 2 ^ 25 = 0x06 ∧ w / 2 ^ 11 % 4 ≠ 3 ∧ w / 2 ^ 6 % 32 ≠ 0 ∧ slotTrap w c0 (envOf c0) = none) ∧ MayAll c0 [(.addi 3 1 0x1FFF, [3]), (.andi 3 1 5, [3]), (.ori 3 1 5, [3]), (.xori 3 1 5, [3]),
    (.slli 3 1 63, [3]), (.srli 3 1 63, [3]), (.srai 3 1 0, [3])] := by decide +kernel

theorem witness_UpperImmediateResults : MayAll c0 [(.himm 3 0x40000, [3]), (.adpc 3 1, [3])] ∧
    MayAll (st .joint .s) [(.adpc 3 1, [3])] := by decide +kernel

theorem witness_CompareResults : MayAll c0 [(.cmpEq 1 1 2 0, []), (.cmpiLtu 7 1 0x1FFF, [])] ∧ ((issueEnv tkNone c0).x 1).psn = false ∧
    MayAll (st .split .c (bad 2)) [(.cmpGeu 1 1 2 0, []), (.cmpiGeu 7 2 0, []), (.flWr 2 0, [])] ∧
    ((issueEnv tkNone (st .split .c (bad 2))).x 2).psn = true := by decide +kernel

theorem witness_FlagAndPoisonForms : MayAll c0 [(.flAnd 1 2 3 0, []), (.flOr 0 2 3 0, []), (.flXor 7 2 3 0, []), (.flAndn 1 0 3 0, []),
    (.flRd 3 0, [3]), (.flWr 1 0, []), (.pset 3 1 0, [3]), (.pclr 3 1 0, [3]), (.ptest 7 1 0, [])] ∧
    ((issueEnv tkNone c0).x 1).psn = false := by decide +kernel

theorem witness_FloatResults : MayAll c0 [(.faddF64 3 1 2 0, [3]), (.fdivF32 3 1 2 0, [3]), (.fmacF64 3 1 2 0, [3]), (.fsqrtF32 3 1 0, [3]),
    (.fmsgnF64 3 1 2 0, [3]), (.fminF32 3 1 2 0, [3])] := by decide +kernel

theorem witness_FloatConversions : MayAll c0 [(.fcmpEqF64 1 1 2 0, []), (.fcmpLeF32 7 1 2 0, []), (.fkindF64 3 1 0, [3]), (.scvtF64F32 3 1 7 0, [3]),
    (.scvtF32I64 3 1 0 0, [3]), (.scvtI32F32 3 1 4 0, [3])] ∧ floatPsn fF64 ((issueEnv tkNone c0).x 1) = false ∧
    floatPsn fF32 ((issueEnv tkNone c0).x 2) = false := by decide +kernel

theorem witness_CsrResults : MayAll c0 ([0x000, 0x001, 0x002, 0x003, 0x010, 0x011, 0x012, 0x013, 0x020, 0x021, 0x022, 0x024, 0x025, 0x026, 0x027, 0x028,
      0x030, 0x031, 0x032, 0x033, 0x040, 0x041].flatMap fun c => [(.csrrd 3 c, [3]), (.csrwr 3 1 c, [3]), (.csrset 0 1 c, [0]), (.csrclr 3 1 c, [3])]) ∧
    ((issueEnv tkNone c0).x 1).psn = false ∧ MayAll (st .split .c (bad 1)) [(.csrwr 3 1 0x001, [3]), (.csrset 3 1 0x030, [3]), (.csrclr 3 1 0x000, [3])] ∧
    ((issueEnv tkNone (st .split .c (bad 1))).x 1).psn = true := by decide +kernel

theorem witness_csr_of_a_trap : let c := getCore (st .split .c inHandler) 0
    (c.a.uh && !c.a.tl) = false ∧ (let d := getCore (st .split .c (arch fun a => { a with uh := true })) 0
    (d.a.uh && !d.a.tl) = true) := by decide +kernel

theorem witness_BranchResults : MayAll (st .split .c (xs [(1, 0x1FFFC)])) [(.br 0 0, []), (.brn 0 0, []), (.call 0 0x3FFFFF, []), (.jeos 7 0, []), (.jmpr 3 1 0, [3])] ∧
    rdFlag (envOf c0).rd.a .c 0 = true ∧ rdFlag (envOf c0).rd.a .c 1 = false ∧ checkTarget c0 (envOf c0).rd .split 0x10000 = .ok 0 ∧
    checkTarget c0 (envOf c0).rd .split 0xFFFC = .error (mkTrap 0x39 0 0xFFFC) ∧ checkTarget c0 (envOf c0).rd .split 0x1FFFC = .ok 0 := by decide +kernel

/-- Partition 0 with a second segment, of the system or not, whose gate is at offset 16. -/
def twoSegs (m : Mode) (sys0 sys1 : Bool) : State :=
  let g0 : Seg := { placeSeg with sys := sys0 }
  let g1 : Seg := { placeSeg with base := 0x30000, gate := 16, sys := sys1 }
  modPart (st m .c) 0 fun p => { p with segs := vset (vset p.segs 0 g0) 1 g1 }

theorem witness_TransferChecks :
    (let c := getCore c0 0
     inSeg (curSeg c0 c) 0x1FFFC = true ∧ inSeg (curSeg c0 c) 0x20000 = false ∧ (∀ h : BitVec 6, inSeg (segOf c0 (partOf c) h) 0x20000 = false)) ∧
    (∀ m ∈ [Mode.split, .joint], let s := twoSegs m false true
     let c := getCore s 0
     inSeg (curSeg s c) 0x30000 = false ∧ inSeg (segOf s (partOf c) 1) 0x30000 = true ∧
       ∀ k : BitVec 6, k.toNat < 1 → inSeg (segOf s (partOf c) k) 0x30000 = false) := by decide +kernel

theorem witness_LoopResults : MayAll (st .split .c (xs [(1, 1)])) [(.rep 255 1 1, []), (.loopO 1 0x1FFF, []), (.loopI 0 1, []), (.lpclrO, []), (.lpclrI, [])] ∧
    MayAll (st .joint .c (xs [(1, 1)])) [(.loopm 7 1 2 0 3, []), (.loopm 0 0 2 0 0, []), (.loopm 63 1 2 1 15, [])] ∧ rdFlag (envOf j0).rd.a .c 1 = false ∧ (envOf j0).rd.a.tl = false ∧ (envOf j0).rd.a.uh = false ∧
    ((issueEnv tkNone (st .split .c (xs [(1, 1)]))).x 1).psn = false ∧ rdFlag (envOf j0).rd.a .c 0 = true := by decide +kernel

theorem witness_LoopSteps :
    (let l := fun n => ({ start := 0x10000, last := 0x10010, count := n, active := true } : LoopLv)
     let both := vset (vset (Vector.replicate 8 LoopLv.zero) 7 (l 2)) 6 (l 1)
     let outer := vset (Vector.replicate 8 LoopLv.zero) 6 (l 2)
     (vget both LoopLv.zero 7).active = true ∧ 1 < (vget both LoopLv.zero 7).count ∧ (vget both LoopLv.zero 6).count ≤ 1 ∧
       (vget outer LoopLv.zero 7).active = false ∧ (vget outer LoopLv.zero 6).active = true ∧ 1 < (vget outer LoopLv.zero 6).count) ∧
    (let c := arch (fun a => { a with repK := vset a.repK 2 (some (0, 2)) }) (placeCore .split)
     c.a.mode = .split ∧ vget c.a.repK none 2 = some (0, 2) ∧ vget c.a.repK none 0 = none) ∧
    c0.bundle = none ∧ issueTrap (encodeNat (.add 3 1 2 1)) [3] c0 (envOf c0) = none ∧ rdFlag (envOf c0).rd.a .c 1 = false ∧
    (let s := st .split .c handler
     let c := getCore s 0
     let hd := segOf s (partOf c) c.tvec.hseg
     c.a.tl = false ∧ (c.tvec.v && hd.v && hd.sys) = true) := by decide +kernel

theorem witness_RegionControl :
    MayAll (st .joint .c (xs [(1, 0x10000), (2, 0x1FFFC)])) [(.fork 1 1 2 0, []), (.endOp 0, []), (.commit, []), (.replay 0, [])] ∧
    checkTarget j0 (envOf j0).rd .split 0x1FFFC = .ok 0 ∧ MayAll (st .split .l) [(.join 0, [])] ∧ MayAll c0 [(.join 4, [])] ∧
    checkTarget c0 (envOf c0).rd .split 0x10010 = .ok 0 ∧
    (let s := st .split .c fun c => { arch (fun a => putTile a 511 (ready (tileDesc 10 1 4 0 16 true 0x40000 16))) (xs [(1, 511), (2, 1)] c) with
       tlb1 := [{ part := 0, asn := 0, vbase := 0x40000, size := 15, leaf := 0x200000004003B }] }
     let e := issueEnv tkNone s
     MayAll s [(.commitD 1 2, [])] ∧ (e.x 1).psn = false ∧ (e.x 1).val.toNat = 511 ∧ (e.x 2).val.toNat = 1 ∧ flushFault e s 511 = none ∧
       imageBytes e.rd.a 511 1 ≤ 1048576) := by decide +kernel

/-- A matrix operation just entered. -/
def anOp : MxOp :=
  { kind := .zero 0, abase := 0, mode := 0, push := none, step := 0, row := 0, group := none, begun := false, drains := false, flags := 0,
    cols := [], rows := [] }

/-- The clusters' states set. -/
def held (l : List ClSt) (c : Core) : Core :=
  arch (fun a => { a with clst := #v[nth .run l 0, nth .run l 1, nth .run l 2, nth .run l 3] }) c

theorem witness_MeetingResults :
    (let c := getCore (st .split .c (held [.atJoin 0x10000, .atJoin 0, .atJoin 0, .atJoin 0])) 0
     c.a.mode = .split ∧ (∀ k < 3, vget c.a.clst .run (k + 1) = .atJoin 0) ∧ vget c.a.clst .run 0 = .atJoin 0x10000) ∧
    (let s := st .split .c (held [.atCommit, .atCommit, .atCommit, .atCommit])
     let c := getCore s 0
     (∀ k < 4, vget c.a.clst .run k = .atCommit) ∧ regionDone c = true ∧ releaseFree s 0 = true ∧ armedNest c = none ∧ c.cbuf = []) ∧
    (let c := { getCore (st .split .c (held [.atCommit, .atCommit, .atCommit, .atCommit])) 0 with mxq := [{ anOp with kind := .nest [] 64 }] }
     armedNest c = some 64) ∧
    (let c := { getCore (st .split .c (held [.atCommit, .atCommit, .atCommit, .atCommit])) 0 with mxq := [anOp] }
     armedNest c = none ∧ regionDone c = false) ∧
    (let s := modArch (modCore (st .split .c (held [.atCommit, .atCommit, .atCommit, .atCommit])) 0 fun c =>
        { c with cbuf := [.sector 0x20000 0x20000 [(0, some 1)]] }) 1 fun a => { a with pins := [0x20000 / 128] }
     armedNest (getCore s 0) = none ∧ regionDone (getCore s 0) = true ∧ releaseFree s 0 = false) ∧
    (let s := st .split .c (held [.atEnd, .atJoin 0, .atJoin 0, .atJoin 0])
     let c := getCore s 0
     vget c.a.clst .run 0 = .atEnd ∧ regionDone c = true ∧ releaseFree s 0 = true ∧ armedNest c = none) := by decide +kernel

theorem witness_SyncAndTokens : MayAll c0 [(.yset 15 0, []), (.yclr 0 0, []), (.ywait 1 0, []), (.ywaitc 1 0, []), (.ytas 7 15 0, []), (.yrd 3 0, [3]),
    (.tkpush 1 0, []), (.tkwait 3 0, []), (.tkcnt 3 2 0, [3])] ∧ bitOf (envOf c0).rd.a.y 1 = false ∧ pushReady (envOf c0).rd.a (pushPair .c 1) = true ∧
    popReady (envOf c0).rd.a (popPair .c 3) = false ∧
    (let a := (envOf (st .split .c (arch fun a => { a with y := 2, tokens := Vector.replicate 12 15 }))).rd.a
     bitOf a.y 1 = true ∧ pushReady a (pushPair .c 1) = false ∧ popReady a (popPair .c 3) = true) := by decide +kernel

/-- What names the placed unit. -/
def uref : UnitRef := refOf placeUnit

theorem witness_RangeResults : MayAll c0 [(.rset 1 2 0, []), (.rnext 3 7 0, [3]), (.rsteal 1 0, []), (.rstat 3 0, [3])] ∧
    ((issueEnv tkNone c0).x 1).psn = false ∧ (getCore (answerSteal c0 0) 0).a.rend.toNat ≤ (getCore (answerSteal c0 0) 0).a.rcur.toNat ∧
    (let s := st .split .c (arch fun a => { a with rcur := 5, rend := 6 })
     (getCore (answerSteal s 0) 0).a.rcur.toNat < (getCore (answerSteal s 0) 0).a.rend.toNat) ∧
    (∀ n ∈ [0, 1, 2, 7], let s := st .split .c (arch fun a => { a with rcur := 5, rend := BitVec.ofNat 64 (5 + n), req := some uref })
     MayAll s [(.rset 1 2 0, []), (.rnext 3 7 0, [3])] ∧ (getCore s 0).a.req = some uref ∧ unitAt s uref = some 0 ∧ (getCore s 0).a.rend.toNat - (getCore s 0).a.rcur.toNat = n) := by decide +kernel

/-- x1 names the local hurdle 1,023 and x3 the hurdle 0 of core 1 of die 1; x2 holds a small count. -/
def hs : State := st .split .c (xs [(1, 1023), (2, 4), (3, 0x00C10000)])

theorem witness_HurdleResults : MayAll hs [(.hinit 1 2 tkNone, []), (.harrive 1 0 tkNone, []), (.harrive 1 2 tkNone, []), (.harrive 3 2 tkNone, []),
    (.hwait 1 2 tkNone, []), (.hstat 3 1 tkNone, [3])] ∧
    (let e := issueEnv tkNone hs
     refMalformed (e.x 1).val = false ∧ bitOf (e.x 1).val 27 = false ∧ bitOf (e.x 1).val 23 = false ∧ refBad e hs (e.x 3).val = false ∧
       bitOf (e.x 3).val 23 = true ∧ (e.x 2).val.toNat % 2 ^ 32 ≠ 0 ∧ sectorsUsed (getCore hs 0).cbuf < 2048 ∧
       ((Sparse.get Hurdle.zero e.rd.a.hurdles 1023).phcnt.toNat + 65536 - 4) % 65536 ≥ 32768 ∧
       ((Sparse.get Hurdle.zero e.rd.a.hurdles 1023).phcnt.toNat + 65536 - 0) % 65536 < 32768) ∧
    (let s := st .split .c fun c => xs [(1, 1023)] (bad 5 c)
     MayAll s [(.hinit 5 5 tkNone, []), (.harrive 5 5 tkNone, []), (.hwait 5 5 tkNone, []), (.sigadd 5 5 tkNone, []), (.ringpost 5 5 tkNone, [])] ∧
       ((issueEnv tkNone s).x 5).psn = true ∧ ((issueEnv tkNone s).x 6).val.toNat % 2 ^ 32 = 0 ∧ ((issueEnv tkNone s).x 6).psn = false) := by decide +kernel

/-- Token fields that pop from and push to the next cluster. -/
def tkBoth : Tk := { hint := 3, tkin := 1, tkout := 1 }

/-- One token waits in each queue, and each has room. -/
def oneToken (c : Core) : Core := arch (fun a => { a with tokens := Vector.replicate 12 1 }) c

theorem witness_TokenFields : MayIssue (encodeNat (.harrive 1 2 tkBoth)) [] 0 tkBoth (st .split .c oneToken) ∧
    MayIssue (encodeNat (.cpin 32 0 tkBoth)) [] 0 tkBoth (st .split .l oneToken) := by decide +kernel

theorem witness_ChainAndPostResults :
    (let s := st .split .c (xs [(1, 0x1FFFC0 * 4), (2, 63), (3, 0x20000), (4, 4095), (5, 255)])
     let e := issueEnv tkNone s
     let c := getCore s 0
     MayAll s [(.chainKick 3 3 tkNone, []), (.chainStop 0 tkNone, []), (.chainStat 6 3 tkNone, [6]), (.qpost 1 2 tkNone, []), (.sigadd 4 2 tkNone, []),
       (.ringpost 5 2 tkNone, []), (.ares 6 15 tkNone, [6]), (.aresh 6 0 tkNone, [6])] ∧
     (e.x 3).val.toNat % 32 = 0 ∧ kickPending c 3 = false ∧ (e.x 1).val.toNat % 64 = 0 ∧ (e.x 1).val.toNat + 64 ≤ plain e.rd.a ∧
     (e.x 2).val.toNat % 65536 < 64 ∧ firstMarked e.rd ((e.x 1).val.toNat / 4) 16 = none ∧ sectorsUsed c.cbuf + 2 ≤ 2048 ∧ (e.x 4).val.toNat < 4096 ∧
     (e.x 5).val.toNat < 256 ∧ (vget e.rd.a.res ResSlot.zero 15).pend = false) ∧
    (let c := arch (fun a => { a with res := vset a.res 15 { ResSlot.zero with pend := true } }) (placeCore .split)
     (vget c.a.res ResSlot.zero 15).pend = true) := by decide +kernel

theorem witness_StreamResults :
    (let s := st .split .l (xs [(1, 0x20000)])
     let e := issueEnv tkNone s
     let x := vget (getCore s 0).a.streams Stream.zero 7
     MayAll s [(.sbaseL 7 1 tkNone, []), (.sdim0L 7 1 tkNone, []), (.sdim1L 7 1 tkNone, []), (.sdim2L 7 1 tkNone, []), (.smodeL 7 1 tkNone, []),
       (.sbindL 7 tkNone, []), (.sunbindL 7 tkNone, []), (.sstartL 7 tkNone, []), (.sstopL 7 tkNone, []), (.sseekL 7 1 tkNone, []), (.sposL 7 40 tkNone, [40])] ∧
     (e.x 1).psn = false ∧ x.out = false ∧ x.base.toNat % 4 = 0 ∧ x.s0.toNat % 4 = 0 ∧ x.s1.toNat % 4 = 0 ∧ x.s2.toNat % 4 = 0 ∧
     x.c0.toNat * x.c1.toNat * x.c2.toNat ≠ 0) ∧
    MayAll (st .joint .s) [(.sbaseS 0 1 tkNone, []), (.sstartS 0 tkNone, []), (.sstopS 0 tkNone, []), (.sseekS 0 1 tkNone, []), (.sposS 0 52 tkNone, [52])] ∧
    (let c := { arch (fun a => { a with streams := vset a.streams 0 { Stream.zero with out := true } }) (placeCore .split) with
       fifos := vset (placeCore .split).fifos 0 { Fifo.zero with vecs := [[]] } }
     ¬ ((vget c.a.streams Stream.zero 0).out = false ∨ (vget c.fifos Fifo.zero 0).vecs = [])) := by decide +kernel

/-- A scratchpad offset at its end, and a global address, each for 8 bytes. -/
def ms (cl : Cluster) : State := st .split cl (xs [(1, 0x7FFFF8), (2, 0x20000), (40, 7), (60, 0x7FFFF8), (61, 0x20000)])

theorem witness_ScalarAccess :
    (let s := ms .l
     let e := issueEnv tkNone s
     MayAll s [(.ldL 40 1 0 0 3 tkNone, [40]), (.ldG 40 2 0 1 2 tkNone, [40])] ∧ (e.x 1).psn = false ∧ (e.x 1).val.toNat % 8 = 0 ∧
       (e.x 1).val.toNat + 8 ≤ plain e.rd.a ∧ globalFault s 0 .read 1 [(e.x 2).val] = none ∧ pinBlocked s 0 4 [(e.x 2).val] = false) ∧
    (let s := ms .s
     let e := issueEnv tkNone s
     MayAll s [(.stL 40 60 1 3 tkNone, [60]), (.stG 40 61 1 2 tkNone, [61])] ∧ (e.x 60).val.toNat + 8 ≤ plain e.rd.a ∧
       globalFault s 0 .write 2 [(e.x 61).val] = none ∧ (e.x 40).psn = false ∧ transTarget s 0 (e.x 61).val .write = .ok (.dev 0x20000, 0x20000) ∧
       (enterStores (getCore s 0).cbuf [(0x20000, 0x20000, natBytes 4 7)]).isSome = true ∧ Sparse.wf Lane.zero (getCore s 0).scratch = true ∧
       (getCore s 0).cbuf = []) := by decide +kernel

/-- The last vector of the scratchpad, and a vector in global memory. -/
def mv (cl : Cluster) : State := st .split cl (xs [(1, 0x7FFF00), (2, 0x20000)])

theorem witness_VectorAccess :
    (let s := mv .l
     let e := issueEnv tkNone s
     let act := (List.range 64).filter (maskBit e.rd.a 0)
     MayAll s [(.vldL 8 1 0 0 tkNone, []), (.vldG 63 2 0 0 tkNone, [])] ∧ (∀ i ∈ act, (e.x 1).val.toNat + 4 * i + 4 ≤ plain e.rd.a) ∧
       (laneWrite e s 8 (loadLanesL (getCore s 0) (readV e.rd 8) (act.map fun i => (i, (e.x 1).val.toNat + 4 * i))) (maskBit e.rd.a 0)).isSome = true ∧
       globalFault s 0 .read 1 (laneAddrs (e.x 2).val act) = none ∧ pinBlocked s 0 4 (laneAddrs (e.x 2).val act) = false) ∧
    (let s := mv .s
     let e := issueEnv tkNone s
     let act := (List.range 64).filter (maskBit e.rd.a 0)
     MayAll s [(.vstL 8 1 0 0 tkNone, []), (.vstG 63 2 0 0 tkNone, [])] ∧ (vecSources e s [63]).isSome = true ∧
       globalFault s 0 .write 2 (laneAddrs (e.x 2).val act) = none ∧ (∀ i ∈ act, (nth Lane.zero (readV e.rd 63) i).psn = false) ∧
       (enterStores (getCore s 0).cbuf (lanePieces s 0 (readV e.rd 63) (act.map fun i => (i, (e.x 2).val + BitVec.ofNat 64 (4 * i))))).isSome = true) := by
  decide +kernel

theorem witness_IndexedAccess :
    (let s := mv .l
     let e := issueEnv tkNone s
     let at_ := fun (b : Word) => ((List.range 64).filter (maskBit e.rd.a 0)).map fun i => (i, (b.toNat : Int) + (nth Lane.zero (readV e.rd 8) i).data.toInt * 4)
     MayAll s [(.gath 8 1 1 0 0 tkNone, []), (.gath 8 2 0 0 0 tkNone, [])] ∧ portOf e.rd 8 = none ∧ (e.x 1).psn = false ∧ (∀ i < 64, (nth Lane.zero (readV e.rd 8) i).psn = false) ∧
       (∀ l ∈ at_ (e.x 1).val, l.2 % 4 = 0 ∧ (e.x 1).val.toNat < 2 ^ 23 ∧ 0 ≤ l.2 ∧ l.2 + 4 ≤ plain e.rd.a) ∧ (∀ l ∈ at_ (e.x 2).val, l.2 % 4 = 0) ∧
       globalFault s 0 .read 1 ((at_ (e.x 2).val).map fun l => BitVec.ofInt 64 l.2) = none ∧
       pinBlocked s 0 4 ((at_ (e.x 2).val).map fun l => BitVec.ofInt 64 l.2) = false) ∧
    (let s := mv .s
     let e := issueEnv tkNone s
     let at_ := fun (b : Word) => ((List.range 64).filter (maskBit e.rd.a 0)).map fun i => (i, (b.toNat : Int) + (nth Lane.zero (readV e.rd 63) i).data.toInt)
     MayAll s [(.scat 62 1 1 1 0 tkNone, []), (.scat 62 2 0 1 0 tkNone, [])] ∧ portsOf e.rd [62, 63] = [] ∧
       (∀ l ∈ at_ (e.x 1).val, l.2 % 4 = 0 ∧ (e.x 1).val.toNat < 2 ^ 23 ∧ 0 ≤ l.2 ∧ l.2 + 4 ≤ plain e.rd.a) ∧
       (∀ i < 64, (nth Lane.zero (readV e.rd 63) i).psn = false ∧ (nth Lane.zero (readV e.rd 62) i).psn = false) ∧
       globalFault s 0 .write 2 ((at_ (e.x 2).val).map fun l => BitVec.ofInt 64 l.2) = none ∧
       (enterStores (getCore s 0).cbuf (lanePieces s 0 (readV e.rd 62) ((at_ (e.x 2).val).map fun l => (l.1, BitVec.ofInt 64 l.2)))).isSome = true) := by
  decide +kernel

theorem witness_FencesAndStash :
    MayAll c0 [(.fenceCore 0, []), (.fenceDie 0, []), (.fencePkg 0, []), (.fenceSys 0, [])] ∧ peerWritesDone (getCore c0 0) = true ∧
    peerWritesDone { placeCore .split with outst := [.peerWrite 1 0 0 [] [] true] } = false ∧
    MayAll (st .joint .l) [(.markL tkNone, [])] ∧ MayAll (st .joint .s) [(.markS tkNone, [])] ∧
    (let s := st .split .l (held [.run, .run, .run, .atMark none (some 3)])
     MayAll s [(.markL tkNone, [])] ∧ (let s1 := modArch s 0 fun a => { a with clst := vset a.clst 1 (.atMark none none) }
       vget (getCore (issued tkNone s1) 0).a.clst .run 3 = .atMark none (some 3))) ∧
    (let s := st .split .s
     MayAll s [(.markS tkNone, [])] ∧ (let s1 := modArch s 0 fun a => { a with clst := vset a.clst 3 (.atMark none none) }
       vget (getCore (issued tkNone s1) 0).a.clst .run 1 = .run)) ∧
    (getCore (st .joint .l) 0).a.markL = (envOf (st .joint .l)).rd.a.markL ∧
    (let s := st .split .l fun c => xs [(1, 0x20000), (3, 2 ^ 40)] (bad 2 c)
     MayAll s [(.prefG 1 tkNone, []), (.prefG 2 tkNone, []), (.prefG 3 tkNone, [])] ∧ ((issueEnv tkNone s).x 2).psn = true ∧
       ((transTarget s 0 (BitVec.ofNat 64 (2 ^ 40)) .read) matches .ok (.dev _, _)) = false) ∧
    (let s := st .split .l (xs [(1, 0x20000), (2, 32), (3, 0x20000), (4, 128)])
     let e := issueEnv tkNone s
     MayAll s [(.prefG 1 tkNone, []), (.ssize 2 tkNone, []), (.smap 15 3 tkNone, []), (.sunmap 15 tkNone, []), (.sflush 0 tkNone, []), (.sinval 0 tkNone, [])] ∧
       transTarget s 0 (e.x 1).val .read = .ok (.dev 0x20000, 0x20000) ∧ (e.x 2).val.toNat ≤ 32 ∧ (e.x 3).val.toNat % 128 = 0 ∧
       (e.xk 3 1).val.toNat % 128 = 0 ∧ (e.xk 3 1).val ≠ 0 ∧ overlaps e.rd.a 15 (e.x 3).val (e.xk 3 1).val = false ∧
       inOutside s 0 (e.x 3).val (e.xk 3 1).val = false) := by decide +kernel

theorem witness_ElementWise : ([(1, false), (2, true)] : List Elem).length = ([(3, false), (4, false)] : List Elem).length ∧
    (∀ k < 4, (fun _ : Nat => false) (0 + k) = false) := by decide

/-- K with registers and a mask; the vectors are all zero. -/
abbrev k0 : State := st .split .k (xs [(1, 65), (2, 3)])

/-- The sources of a word on v8 and v63 are at hand, nothing holds its registers, and its result has a place. -/
abbrev VecReady (s : State) (d w : Nat) : Prop :=
  (∀ x ∈ [d, 8, 63], mxHolds (envOf s).rd (getCore s 0) x = false) ∧ portOf (envOf s).rd d = none ∧
  vecSources (issueEnv tkNone s) s [8, 63] = some ([readV (envOf s).rd 8, readV (envOf s).rd 63], s) ∧
  vecSources (issueEnv tkNone s) s [8] = some ([readV (envOf s).rd 8], s) ∧
  (vecWrite (issueEnv tkNone s) s d w (List.replicate (2048 / w) (some (1, false)))).isSome = true

/-- Stream 7 is bound as an inbound port whose FIFO holds one vector of ones, and stream 6 as an outbound one (R65, R159, R160). -/
def ports (c : Core) : Core :=
  let inb : Stream := { Stream.zero with bound := true, running := true, loc := true, c0 := 64 }
  let outb : Stream := { inb with out := true }
  let full : Fifo := { Fifo.zero with vecs := [List.replicate 64 { data := 1, psn := false }] }
  { arch (fun a => { a with streams := vset (vset a.streams 7 inb) 6 outb }) c with fifos := vset c.fifos 7 full }

theorem witness_VectorArithmetic : VecReady k0 1 32 ∧ VecReady k0 55 8 ∧ MayAll k0 [(.vadd 1 8 63 0 10, []), (.vsub 1 8 63 7 0, []),
    (.vdiv 1 8 63 0 10, []), (.vsra 1 8 63 0 6, []), (.vadds 1 8 63 0 3, []), (.vavg 1 8 63 0 4, []), (.vfma 1 8 63 0 8, []), (.vabs 1 8 0 0, []),
    (.vrsqrt 1 8 0 9, []), (.vpopc 1 8 0 7, []), (.vrint 1 8 0 10, [])] := by decide +kernel

theorem witness_ports : (let s := st .split .k ports
    (vecSources (issueEnv tkNone s) s [63, 8]).map (fun r => r.1) = some [List.replicate 64 { data := 1, psn := false }, readV (envOf s).rd 8] ∧
    (vecWrite (issueEnv tkNone s) s 62 32 (List.replicate 64 (some (1, false)))).isSome = true) := by decide +kernel

theorem witness_VectorMoves : VecReady k0 1 32 ∧ MayAll k0 [(.vsel 1 8 63 0 10, []), (.vperm 1 8 63 0 12, []), (.vzipLo 1 8 63 11, []), (.vuzpOd 1 8 63 6, []),
    (.vclass 1 8 0 10, []), (.vmov 1 8 0 12, []), (.vslide 1 8 1 1 0 4, []), (.vcvt 60 8 0 10 7 0, [])] ∧
    portsOf (envOf k0).rd [60, 61, 62, 63] = [] ∧ (∀ x ∈ [60, 61, 62, 63, 8], mxHolds (envOf k0).rd (getCore k0 0) x = false) ∧
    ((issueEnv tkNone k0).x 1).psn = false ∧
    (vecWrites (issueEnv tkNone k0) 60 32 64 4 k0 (List.replicate 256 (some (0, false)))).isSome = true := by decide +kernel

theorem witness_MaskResults : VecReady k0 1 32 ∧ MayAll k0 [(.vcmpeq 7 8 63 0 10, []), (.vcmpne 0 8 63 0 0, []), (.mand 7 1 0, []), (.mandn 0 1 2, []),
    (.mlen 1 1, []), (.mpopc 44 7, [44]), (.mfirst 44 1, [44]), (.mtov 1 7, [])] ∧
    activePsn (maskBit (envOf k0).rd.a 0) 0 (elems 10 (readV (envOf k0).rd 8)) (elems 10 (readV (envOf k0).rd 63)) = none ∧
    ((issueEnv tkNone k0).x 1).psn = false := by decide +kernel

theorem witness_ReductionsAndScalars : VecReady k0 1 64 ∧ MayAll k0 [(.vredSum 1 8 0 10, []), (.vredXor 1 8 7 7, []), (.vredSumw 1 8 0 0, []),
    (.vscanSum 1 8 0 9, []), (.vsplat 1 1 0 12, []), (.vext 51 8 1 0, [51]), (.vins 1 1 2 7, []), (.vview 1 tkNone, []), (.aview 2 tkNone, [])] ∧
    ((issueEnv tkNone k0).x 1).psn = false ∧ ((issueEnv tkNone k0).x 2).psn = false := by decide +kernel

/-- A core with tile 511, of FP32 and 64 columns, in a state, and registers. -/
def tiled (stt : TileSt) (c : Core) : Core :=
  arch (fun a => putTile a 511 { desc := tileDesc 10 1 64 0 256, v := true, st := stt }) (xs [(1, 511), (2, 32), (3, 510)] c)

/-- The bytes of a tile descriptor at an offset of the scratchpad. -/
def withDesc (o : Nat) (d : BitVec 256) (c : Core) : Core := scrStore c o (natBytes 32 d.toNat) false

theorem witness_TileResults :
    (let s := st .split .k fun c => tiled .ready (withDesc 32 (tileDesc 10 1 64 0 256) c)
     let e := issueEnv tkNone s
     let c := getCore s 0
     MayAll s [(.tdef 2 1 tkNone, []), (.tvalid 1 tkNone, []), (.tinval 1 tkNone, []), (.tstat 44 1 tkNone, [44]), (.twait 1 tkNone, [])] ∧
     (e.x 1).psn = false ∧ (e.x 1).val.toNat < 512 ∧ (e.x 2).val.toNat % 32 = 0 ∧ (e.x 2).val.toNat + 32 ≤ plain e.rd.a ∧ firstMarked c 8 8 = none ∧
     tMalformed e.rd.a (BitVec.ofNat 256 (leNat (scrBytes c 32 32))) = false ∧ (tileOf e.rd.a 511).st = .ready ∧ handleBusy c 511 = false ∧
     tQuant (BitVec.ofNat 256 (leNat (scrBytes c 32 32))) = false) ∧
    (∀ x ∈ [TileSt.empty, .filling], (tileOf (tiled x (placeCore .split)).a 511).st = x ∧ (tileOf (tiled x (placeCore .split)).a 511).v = true) ∧
    (tileOf (tiled .draining (placeCore .split)).a 511).st = .draining ∧ ownCopy (tiled .draining (placeCore .split)) 511 = false ∧
    handleBusy { tiled .ready (placeCore .split) with mxq := [{ anOp with kind := .drain 0 511 0 }] } 511 = true := by decide +kernel

/-- A nest of one level and one step on tiles 0, 1 and 2, in the last 128 bytes of the scratchpad: NL and CNT are 1 (R225). -/
def oneStep (c : Core) : Core :=
  scrStore (scrStore c 0x7FFF80 (natBytes 8 (1 * 2 ^ 9 + 2 * 2 ^ 18 + 1 * 2 ^ 30)) false) 0x7FFF90 (natBytes 8 1) false

theorem witness_MatrixResults :
    (let s := st .split .k fun c => oneStep (xs [(1, 511), (2, 0x7FFF80)] c)
     let e := issueEnv tkNone s
     let c := getCore s 0
     nestBad ((List.range 16).map fun q => BitVec.ofNat 64 (leNat (scrBytes c (0x7FFF80 + 8 * q) 8))) = false ∧ MayAll s [(.mxnest 2 tkNone, []), (.mxgo tkNone, []), (.mxwait tkNone, []), (.mxstat 44 tkNone, [44]), (.mxdrain 7 1 7 tkNone, []), (.mxzero 0 tkNone, []),
       (.mxmma 1 1 7 tkNone, [])] ∧ c.mxq.length < 4 ∧ c.mxq = [] ∧ (e.x 1).psn = false ∧ (e.x 1).val.toNat < 512 ∧ (e.x 2).val.toNat % 16 = 0 ∧
       (e.x 2).val.toNat + 128 ≤ plain e.rd.a ∧ firstMarked c ((e.x 2).val.toNat / 4) 32 = none) ∧
    (let s := st .split .k fun c => { c with mxq := [anOp, anOp, anOp, anOp] }
     MayAll s [(.mxzero 0 tkNone, [])] ∧ 4 ≤ (getCore s 0).mxq.length) := by decide +kernel

/-! ### Walks, checks, the Almanac and the Shepherd -/

/-- Tiles 1 and 2 of BF16, 64 by 4 and 4 by 32, and tile 3 of FP32 with 64 columns, all READY; x1 to x3 name them. -/
def shapes (c : Core) : Core :=
  arch (fun a => putTile (putTile (putTile a 1 (ready (tileDesc 9 64 4 0 8))) 2 (ready (tileDesc 9 4 32 512 64))) 3 (ready (tileDesc 10 1 64 1024 256)))
    (xs [(1, 1), (2, 2), (3, 3)] c)

theorem witness_WalkAndVigilIssue :
    (let s := st .split .k (xs [(1, 511 + 1 * 2 ^ 9), (2, 0x7FFFF8), (3, 511 + 1 * 2 ^ 9), (4, 0x7FFC00)])
     let e := issueEnv tkNone s
     MayAll s [(.walkAdd 1 tkNone, []), (.walkPopc 1 tkNone, []), (.walkHist 3 tkNone, [])] ∧ (getCore s 0).walk = none ∧ (e.x 1).psn = false ∧
       (e.xk 1 1).psn = false ∧ (e.xk 1 1).val.toNat + 8 ≤ plain e.rd.a ∧ (e.xk 3 1).val.toNat + 1024 ≤ plain e.rd.a ∧ walkBad (e.x 1).val = false) ∧
    (let s := st .split .k shapes
     let e := issueEnv tkNone s
     (∀ i ∈ [Instr.vigilMx 1 2 tkNone 0xFFFFFFFF, .vigilVec 3 tkNone 0, .vigilRd 1 tkNone 0], MayIssue (encodeNat i) [] 0 tkNone s) ∧ literalOutside e = false ∧
       (∀ r ∈ [(1 : BitVec 6), 2, 3], (e.x r).psn = false ∧ (e.x r).val.toNat < 512 ∧ (tileOf e.rd.a (e.x r).val.toNat).v = true ∧
         tOver e.rd.a (tileOf e.rd.a (e.x r).val.toNat).desc = false ∧ tileReadable (tileOf e.rd.a (e.x r).val.toNat) = true) ∧
       vigilShape e.rd.a 0 1 2 = none ∧ vigilShape e.rd.a 1 3 0 = none) ∧
    { placeCore .split with walk := some { op := 0, ctrl := 0, off := 0, push := none, stopped := false, counts := none } }.walk ≠ none := by decide +kernel

/-- A one-stage Runge–Kutta table (R280): STAGES and Q are 1, the safety, least and largest factors 1.0. -/
def methTable : List Word := [0x11, 0, 0, 0x3FF0000000000000, 0x3FF0000000000000, 0x3FF0000000000000] ++ List.replicate 72 0

/-- The descriptor of a slot of that method (R282): T 0, H 1.0, HMIN 0, TEND 1.0, and the handles 1 to 4. -/
def slotDesc : List Word := [0, 0x3FF0000000000000, 0, 0x3FF0000000000000, 0, 0x0004000300020001] ++ List.replicate 10 0

/-- Words stored in the scratchpad from an offset on. -/
def putWords (o : Nat) (l : List Word) (c : Core) : Core := scrStore c o (l.flatMap fun w => natBytes 8 w.toNat) false

/-- A core that has the method as its method 3, a running sample in slot 255, and both tables in the scratchpad. -/
def almCore (c : Core) : Core :=
  arch (fun a => { putAlm a 255 { almLoad slotDesc with meth := 3 } with methods := vset (vset a.methods 3 (some methTable)) 0 (some methTable) })
    (putWords 0x400 slotDesc (putWords 0 methTable (xs [(1, 0), (2, 255), (3, 0x400), (4, 255 + 1 * 256), (5, 0x7FFFF8), (6, 255 + 1 * 256),
      (7, 0x3FE0000000000000), (8, 255 + 20 * 256)] c)))

theorem witness_AlmanacResults :
    (let s := st .split .k almCore
     let e := issueEnv tkNone s
     let c := getCore s 0
     let slot := Sparse.get AlmSlot.zero e.rd.a.alm 255
     let z' := { slot with h := (e.x 7).val }
     MayAll s [(.amdef 3 1 tkNone, []), (.aset 2 3 tkNone, []), (.astage 4 5 tkNone, []), (.aerr 4 tkNone, []), (.adec 4 tkNone, []), (.aget 44 8 tkNone, [44]),
       (.aput 6 7 tkNone, []), (.astat 44 4 tkNone, [44]), (.aoff 4 tkNone, []), (.await tkNone, [])] ∧ c.almq = [] ∧
     methodBad methTable = false ∧ (List.range 78).map (fun q => BitVec.ofNat 64 (leNat (scrBytes c (8 * q) 8))) = methTable ∧
     firstMarked c 0 156 = none ∧ methodBusy e.rd.a 3 = false ∧ (List.range 16).map (fun q => BitVec.ofNat 64 (leNat (scrBytes c (0x400 + 8 * q) 8))) = slotDesc ∧
     almDescBad slotDesc = false ∧ vget e.rd.a.methods none (almLoad slotDesc).meth = some methTable ∧ almHandlesBad methTable (almLoad slotDesc) = false ∧
     (e.x 4).val.toNat % 256 + (e.x 4).val.toNat / 256 ≤ 256 ∧ (e.x 5).val.toNat + 8 ≤ plain e.rd.a ∧ slot.st ≠ .off ∧ (e.x 8).val.toNat / 256 ≤ 20 ∧
     (e.x 6).val.toNat / 256 ∈ [1, 2, 3] ∧ almLive slot = true ∧ slot.sidx = 0 ∧ slot.errv = false ∧ almLimits z'.t z'.h z'.hmin z'.tend = true) ∧
    (let q : AlmOp := { kind := 0, first := 0, count := 1, off := 0, at_ := 0, push := none, stopped := false }
     ¬ ({ placeCore .split with almq := [q] }.almq = [])) := by decide +kernel

/-- A declaration (R297) of one input in v8, one output in v9, one hidden unit, LR 1.0 and SAMP 2. -/
def shDecl : BitVec 256 := BitVec.ofNat 256 (2 * 2 ^ 48 + 8 * 2 ^ 96 + 9 * 2 ^ 104 + 0x3F800000 * 2 ^ 128)

/-- Slot 15 of the Shepherd in a state, declared as above; x1 to x4 hold operands, and the declaration lies at offset 0. -/
def shCore (z : ShSt) (scnt : Nat) (c : Core) : Core :=
  arch (fun a => putSh a 15 { ShSlot.zero with decl := shDecl, st := z, scnt := scnt })
    (withDesc 0 shDecl (xs [(1, 0), (2, 0x7FFFF8), (3, 16382 + 2 * 2 ^ 16)] c))

theorem witness_ShepherdResults : ∀ z ∈ [ShSt.off, .invalid, .active],
    (let s := st .split .k (shCore z 0)
     let e := issueEnv tkNone s
     let c := getCore s 0
     MayAll s [(.shdecl 15 1 tkNone, []), (.shinv 15 tkNone, []), (.shwld 2 3 tkNone, []), (.shwst 2 3 tkNone, []), (.shstat 44 15 tkNone, [44]),
       (.shmean 44 0 tkNone, [44])] ∧ BitVec.ofNat 256 (leNat (scrBytes c 0 32)) = shDecl ∧ firstMarked c 0 8 = none ∧ shDeclBad e.rd.a shDecl = false ∧
     shSpanBad e.rd.a 15 shDecl = false ∧ (shOf e.rd.a 15).st = z ∧ (e.x 3).val.toNat < 2 ^ 31 ∧ (e.x 3).val.toNat / 2 ^ 14 % 4 = 0 ∧
     (e.x 3).val.toNat % 2 ^ 14 + (e.x 3).val.toNat / 2 ^ 16 = 16384 ∧ (e.x 2).val.toNat + 8 ≤ plain e.rd.a ∧ trainingRuns c = false ∧
     firstMarked c ((e.x 2).val.toNat / 4) 2 = none ∧
     (∀ k < 16, (shOf e.rd.a k).st = .off ∨ (shOf e.rd.a k).st = .invalid ∨
       spansMeet 16382 2 (shWoff (shOf e.rd.a k).decl) (shWords (shOf e.rd.a k).decl) = false)) := by decide +kernel

/-- K before an `apxb` of slot 15, whose `apxe` is the next word. -/
noncomputable def apx (z : ShSt) (scnt : Nat) : State :=
  let s := st .split .k (shCore z scnt)
  { s with mem := memWrite s.mem (placePc + 4) (natBytes 4 (encodeNat (.apxe 15 tkNone))) }

theorem witness_ApproximationResults :
    (∀ r ∈ [(ShSt.off, 0, false), (.train, 0, false), (.observe, 0, false), (.active, 1, false), (.active, 0, true)],
      let s := apx r.1 r.2.1
      let e := issueEnv tkNone s
      let z := shOf e.rd.a 15
      MayIssue (encodeNat (.apxb 15 tkNone)) [] 0 tkNone s ∧ (∀ j < 16, (shOf e.rd.a j).opened = false) ∧ e.rd.a.segCur = z.seg ∧
        (z.st == .active && z.scnt + 1 != shSamp z.decl) = r.2.2 ∧ mxHolds e.rd (getCore s 0) (shVi z.decl) = false ∧ mxHolds e.rd (getCore s 0) (shVo z.decl) = false ∧
        vecSources e s [shVi z.decl] = some ([readV e.rd 8], s) ∧ laneValues (readV e.rd 8) (shNi z.decl) = some [0]) ∧
    findApxe (apx .active 0) 0 (issueEnv tkNone (apx .active 0)).addr 15 = some 0x10004 ∧
    laneValues [{ data := 0, psn := true }] 1 = none ∧
    (let s := st .split .k fun c => arch (fun a => { a with segCur := 1 }) (shCore .observe 0 c)
     (envOf s).rd.a.segCur ≠ (shOf (envOf s).rd.a 15).seg) ∧
    (∀ p ∈ [none, some ({ slot := 15, cap := [0], smp := true, ys := [0] } : ShCap), some { slot := 15, cap := [0], smp := false, ys := [] }],
      let s := st .split .k fun c => { arch (fun a => putSh a 15 { shOf a 15 with opened := true }) (shCore .observe 0 c) with shcap := p }
      MayIssue (encodeNat (.apxe 15 tkNone)) [] 0 tkNone s ∧ (shOf (envOf s).rd.a 15).opened = true ∧ (getCore (issued tkNone s) 0).shcap = p ∧
        mxHolds (envOf s).rd (getCore s 0) 9 = false) := by decide +kernel

/-! ### Copies and atomics -/

/-- Operands of copies: 4 bytes at the end of the scratchpad, the largest 2D row pair, and a tile; x9 names the local hurdle 5. -/
def copyRegs (c : Core) : Core :=
  tiled .ready (xs [(9, 5), (10, 0x7FFFFC), (11, 0x20000), (12, 4), (20, 0), (21, 0x20000), (22, 65536 + 2 * 2 ^ 32), (23, 65536 * 2 ^ 32 + 65536),
    (30, 511), (31, 0x20000), (32, 256)] c)

theorem witness_CopyResults : ∀ cl ∈ [Cluster.l, .s],
    (let s := st .split cl copyRegs
     let e := issueEnv tkNone s
     let line : Rows := { rows := 1, bytes := 4, off := (e.x 10).val, gaddr := (e.x 11).val, lpitch := 0, gpitch := 0 }
     let tile := tileOf e.rd.a 511
     (cl = .l → MayAll s [(.cpin 10 9 tkNone, []), (.cpin2d 20 0 tkNone, []), (.cpinT 30 0 tkNone, [])]) ∧
     (cl = .s → MayAll s [(.cpout 10 9 tkNone, []), (.cpout2d 20 0 tkNone, []), (.cpoutT 30 0 tkNone, [])]) ∧
     (∀ r ∈ [(10 : BitVec 6), 20], ∀ k < 4, (e.xk r k).psn = false) ∧ refMalformed (e.x 9).val = false ∧ bitOf (e.x 9).val 27 = false ∧
     bitOf (e.x 9).val 23 = false ∧ (e.x 10).val.toNat + (e.x 12).val.toNat ≤ plain e.rd.a ∧
     (∀ r < 2, ((e.x 20).val + BitVec.ofNat 64 (r * 65536)).toNat + 65536 ≤ plain e.rd.a) ∧ (getCore s 0).copies.length < 16 ∧
     ((getCore s 0).cbuf.filter CEntry.isCopy).length < 32 ∧
     globalFault s 0 .write 2 (wrapOrder (e.x 11).val (touchPoints (newCopy e s true line none none))) = none ∧ tile.v = true ∧ tile.st = .ready ∧
     tMalformed e.rd.a tile.desc = false ∧ tImage tile.desc 256 = (1, 256, 256, 256)) := by decide +kernel

theorem witness_AtomicResults :
    (let s := st .split .s (xs [(1, 3), (2, 4), (3, 5), (4, 6), (8, 0x20000)])
     let e := issueEnv tkNone s
     let u := modArch s 0 fun ar => { ar with pins := pinLine ar.pins (0x20000 / 128) }
     MayAll s [(.amoAdd 1 8 0 1 tkNone, []), (.amoMax 1 8 1 0 tkNone, []), (.amoCasD 1 8 0 tkNone, []), (.amoCasQ 1 8 1 tkNone, [])] ∧ (e.x 8).psn = false ∧
     (e.x 8).val.toNat % 16 = 0 ∧ (∀ k < 4, (e.xk 1 k).psn = false) ∧ (getCore s 0).a.nextRes < 16 ∧
     transAccess s 0 (e.x 8).val .write 3 = .ok (.dev 0x20000, 0x20000) ∧ amoWindow (.dev 0x20000) .add 8 false (e.x 8).val = none ∧
     sectorsUsed (getCore s 0).cbuf < 2048 ∧ pinnedByOther s 0 0x20000 = false ∧ (readLoad u 0 (e.x 8).val (.dev 0x20000) 0x20000 8).2.2 = false ∧
     (enterStores [] [(0x20000, 0x20000, natBytes 8 3)]).isSome = true) ∧
    amoNew .cas 4 5 6 7 = none ∧ amoNew .max 4 (2 ^ 32 - 1) 0 (2 ^ 31 - 1) = some (2 ^ 31 - 1) := by decide +kernel

/-! ### Traps and system words -/

theorem witness_TrapEntry :
    (let c := getCore (st .split .c inHandler) 0
     c.a.tl = true) ∧
    (let c := getCore (st .split .c fun c => arch (fun a => { a with uh := true }) (handler c)) 0
     c.a.tl = false ∧ ∀ k ∈ [1, 5], (c.a.uh && (k == 1 || k == 5)) = true) ∧
    (let c := getCore c0 0
     c.a.tl = false ∧ c.a.uh = false ∧ c.tvec.v = false) ∧
    (let s := st .split .c fun c => arch (fun a => { a with repK := vset a.repK 3 (some (255, 256)) }) (handler c)
     let c := getCore s 0
     let g := segOf s (partOf c) c.tvec.hseg
     c.a.tl = false ∧ c.a.uh = false ∧ (c.tvec.v && g.v && g.sys) = true ∧ vget c.a.repK none 0 = none ∧ vget c.a.repK none 3 = some (255, 256) ∧
       ∀ i < 4, (vget c.a.pc 0 i).toNat < 2 ^ 56) ∧
    (mkTrap 0x14 0 1).strm = none ∧ ({ mkTrap 0x15 0x10 1 with strm := some (7, 511) } : Trap).strm = some (7, 511) := by decide +kernel

/-- The launch segment 1 with an emulation entry. -/
def emulSeg (s : State) : State :=
  modPart s 0 fun p => { p with segs := vset p.segs 1 { placeSeg with base := 0x20000, eoff := 0x40, ev := true } }

theorem witness_HandlerReturns :
    (let s := emulSeg (st .split .c fun c => { inHandler (handler c) with tr := { TrapRegs.zero with cause := 5 }, segL := 1 })
     let e := envOf s
     MayAll s [(.tret 0, []), (.tretN 0, []), (.ucall 0, []), (.svc 31 1 0, [31])] ∧ e.rd.a.tl = true ∧ e.rd.tr.cause = 5 ∧
       (segOf s (partOf e.rd) e.rd.segL).ev = true ∧ fenBit s (partOf e.rd) 7 = true ∧ (e.x 1).psn = false) ∧
    (let s := st .split .c fun c => arch (fun a => { a with uh := true, held := true }) c
     let e := envOf s
     MayAll s [(.tret 0, []), (.tretN 0, [])] ∧ e.rd.a.tl = false ∧ (e.rd.a.uh && e.rd.a.held) = true) ∧
    (let e := envOf c0
     MayAll c0 [(.tret 0, []), (.tretN 0, []), (.ucall 0, []), (.svc 31 1 0, [31])] ∧ e.rd.a.tl = false ∧ e.rd.a.uh = false) ∧
    (∀ m ∈ [Mode.split, .joint], ({ TrapRegs.zero with frame := { TrapRegs.zero.frame with mode := m } }).frame.mode = m) := by decide +kernel

/-- A segment descriptor (R311) at 0x100000 with one line of 16 bytes. -/
def segDesc : BitVec 256 := BitVec.ofNat 256 (0x100000 * 2 ^ 192 + 16 * 2 ^ 160 + 1)

/-- Core 71 in state halted, in partition 0, and a log with one record. -/
def halted (s : State) : State :=
  let t := modCore s 71 fun c => { c with unit := some placeUnit, run := .halted }
  let r : ErrRec := { aux := 1, addr := 2, time := 3, part := 0, die := 0, core := 1, detail := 0, eccst := 0, cause := 0x31 }
  modDie (modPart t 0 fun p => { p with mask1 := 0x800000000, errlog := [r] }) 0 fun d =>
    { d with images := Sparse.put none d.images 21 (some (placeCore .split)) }

theorem witness_SystemResults :
    (let s := halted (st .split .c fun c => withDesc 32 segDesc (xs [(1, 0xFFFF + 2 ^ 16), (2, 0x8000), (3, 63), (4, 32), (5, 0x4000000000), (6, 99), (7, 21),
       (8, 0), (9, 100)] (handler c)))
     let e := envOf s
     MayAll s [(.tlbinv 1 2 0, []), (.segset 3 4 0, []), (.segclr 3 0, []), (.ctxout 6 7 0, []), (.ctxin 6 7 0, []), (.asset 1 2 0, []),
       (.pinfo 31 1 0, [31]), (.pscrub 8 0, []), (.errrd 31 8 0, [31]), (.hrmark 6 0, [])] ∧
     (∀ k < 64, (e.x (BitVec.ofNat 6 k)).psn = false) ∧ (e.x 1).val.toNat < 2 ^ 48 ∧
     (e.x 4).val.toNat % 32 = 0 ∧ (e.x 4).val.toNat + 32 ≤ plain e.rd.a ∧ firstMarked (getCore s 0) 8 8 = none ∧ (e.x 3).val.toNat / 2 ^ 6 % 4 = 0 ∧
     (e.x 3).val.toNat / 2 ^ 11 = 0 ∧ segBad (getPart s 0) 63 (scrDesc (getCore s 0) 32) = false ∧
     (s.cores.toList.any fun k => holdsSeg k 0 63) = false ∧
     (e.x 6).val.toNat % 2 ^ 6 < 36 ∧ (getCore s 71).run = .halted ∧ (e.x 7).val.toNat % 32 ≤ 21 ∧
     Sparse.get none (getDie s (dieOf 0)).images 21 = some (placeCore .split) ∧ inMask (getPart s (partOf (placeCore .split))) 71 = true ∧
     (getPart s 0).errlog[(e.x 8).val.toNat / 2 ^ 2 % 1024]?.isSome = true) ∧
    (let s := st .split .c id
     segBad (getPart s 0) 0 segDesc = false ∧ (s.cores.toList.any fun k => holdsSeg k 0 0) = true) ∧
    (let s := st .split .c (xs [(1, 0)])
     MayAll s [(.hrmark 1 0, [])] ∧ ((envOf s).x 1).val.toNat % 2 ^ 6 < 36 ∧ (getCore s 0).run ≠ .halted) := by decide +kernel

theorem witness_SystemCsrs : ∀ r ∈ [(0x028, 0), (0x028, 2 ^ 57), (0x028, 2 ^ 57 + 2 ^ 58), (0x032, 7), (0x032, 8), (0x021, 1), (0x024, 1), (0x027, 1), (0x000, 1)],
    let s := st .split .c (xs [(1, r.2), (2, r.1)])
    MayAll s [(.scsrwr 1 2 0, [])] ∧ csrListed (BitVec.ofNat 10 ((((envOf s).x 2).val).toNat % 1024)) = true ∧
      (segOf s (partOf (envOf s).rd) 0).sys = true ∧ (segOf s (partOf (envOf s).rd) 1).sys = false := by decide +kernel

/-! ### Events of a core -/

/-- Core 71 holds the placed unit, with memory mapped to itself. -/
def core71 (f : Core → Core) : State := putCore c0 71 (f (placeCore .split))

/-- Stream 7 set up and running: 2 vectors at an address, into a FIFO or out of it. -/
def stream7 (loc out : Bool) (base : Nat) (v : List (List Lane)) (c : Core) : Core :=
  putFifo (arch (fun a => putStream a 7 { Stream.zero with base := BitVec.ofNat 64 base, c0 := 128, out := out, loc := loc, running := true }) c) 7
    { Fifo.zero with vecs := v }

theorem witness_StreamAndWalkEvents :
    (∀ r ∈ [(true, 0x7FFF00), (true, 0x7FFF04), (false, 0x20000), (false, 0xFFFFFFF00)],
      let s := core71 (stream7 r.1 false r.2 [])
      let c := getCore s 71
      let x := streamOf c.a 7
      let a := BitVec.ofInt 64 (streamAddr x 0)
      enginesRun c = true ∧ atUnitEnd c = false ∧ x.running = true ∧ x.out = false ∧ (fifoOf c 7).vecs = [] ∧ (fifoOf c 7).fault = none ∧ 0 < totalOf x ∧
        x.loc = r.1 ∧ (x.loc = true → (localVecFault c.a x 0 = none ↔ r.2 = 0x7FFF00)) ∧
        (x.loc = false → (globalVecFault s 71 a .read 1 = none ↔ r.2 = 0x20000)) ∧ pinBlocked s 71 0 ((lineParts a 256).map fun y => y.1) = false) ∧
    (∀ l ∈ [true, false], let c := getCore (core71 (stream7 l true 0 [zeroVec])) 71
      (fifoOf c 7).vecs = [zeroVec] ∧ enginesRun c = true ∧ (streamOf c.a 7).out = true ∧ (streamOf c.a 7).loc = l) ∧
    (let s := core71 fun c => { c with invq := [{ die := 0, line := 1, time := 0 }] }
     let c := getCore s 71
     c.unit.isSome = true ∧ tlbFind c (partOf c) (asnOf c) 0x20000 = none ∧
       (match walkTable s (some 71) (dieOf 71) (partOf c) (asnOf c) 0x20000 .fetch with | .ok _ => true | .error _ => false) = true ∧
       c.invq = [{ die := 0, line := 1, time := 0 }]) := by decide +kernel

/-- Core 71 with an engine's work. -/
abbrev with71 (f : Core → Core) : Core := getCore (core71 f) 71

/-- An operation of the matrix engine, begun. -/
def mxOp (k : MxKind) (row : Nat) : MxOp :=
  { kind := k, abase := 0x40, mode := 0, push := none, step := 0, row := row, group := none, begun := true, drains := false, flags := 0,
    cols := [], rows := [] }

/-- A copy of the transfer engine: one row of 4 bytes at the end of the scratchpad. -/
def aCopy (outb : Bool) (gaddr : Nat) : Copy :=
  { id := 1, outb := outb, rows := 1, rowBytes := 4, off := 0x7FFFFC, gaddr := BitVec.ofNat 64 gaddr, lpitch := 0, gpitch := 0, hurdle := none, tile := none,
    fetcher := false, slot := none, push := none, homes := 0, done := 0, made := 0, entry := 0, open_ := false, fault := none }

/-- A copy of the operand fetcher for tile 1. -/
def fetchOf (done : Nat) : Copy := { aCopy false 0x20000 with tile := some 1, fetcher := true, rows := 2, rowBytes := 8, done := done, off := 0 }

/-- Core 71 with one operation of the matrix engine, its tiles those of `shapes`, tile 4 EMPTY and tile 5 past PLAIN. -/
def mx71 (x : MxOp) (f : Core → Core) : State :=
  core71 fun c => f { arch (fun a => putTile (putTile a 4 { ready (tileDesc 9 64 4 0 8) with st := .empty }) 5 (ready (tileDesc 10 2 64 0x7FFF00 256)))
    (shapes c) with mxq := [x] }

/-- The step of an `mxmma` on accumulator 0. -/
def mmaStep (ha hb : Nat) : NestStep := { ha := ha, hb := hb, acc := 0, hc := 0, first := true, last := true }

theorem witness_MatrixSteps :
    (∀ r ∈ [(9, 1), (1, 9), (5, 1), (2, 1), (1, 2), (4, 2)],
      let x := { mxOp (.mma 0 r.1 r.2) 0 with begun := false }
      let c := getCore (mx71 x id) 71
      enginesRun c = true ∧ bitOf c.mxrow 63 = false ∧ c.mxq = [x]) ∧
    (let x := { mxOp (.mma 0 1 2) 0 with begun := false }
     let c := getCore (mx71 x id) 71
     let c1 := raiseStep c x (mmaStep 1 2)
     (tileOf c.a 9).v = false ∧ (tileOf c.a 5).v = true ∧ tOver c.a (tileOf c.a 5).desc = true ∧
       (∀ h ∈ [1, 2, 4], (tileOf c.a h).v = true ∧ tOver c.a (tileOf c.a h).desc = false) ∧ (tileOf c1.a 1).st = .ready ∧
       (tileOf (raiseStep c x (mmaStep 4 2)).a 4).st = .empty ∧
       shapeFault 1 2 (tileOf c1.a 1).desc (tileOf c1.a 2).desc none false = none ∧
       shapeFault 2 1 (tileOf c1.a 2).desc (tileOf c1.a 1).desc none false = some 1) ∧
    isArmed (mxOp (.nest [BitVec.ofNat 64 (2 ^ 41)] 0) 0) = false ∧
    (let t : Tile := ready (tileDesc 9 2 4 0 8 true 0x20000 8)
     let c := with71 fun c => arch (fun a => putTile a 1 { t with st := .empty }) c
     tFetch t.desc = true ∧ (tileOf c.a 1).st = .empty ∧ tOver c.a t.desc = false ∧ c.copies.length < 16) := by decide +kernel

theorem witness_MatrixRows :
    (let x := mxOp (.mma 0 2 1) 0
     let c := getCore (mx71 x fun c => { arch (fun a => putTile (putTile a 2 (ready (tileDesc 9 1 2 64 4))) 1 { ready (tileDesc 9 2 4 0 8) with st := .filling }) c
       with copies := [fetchOf 8] }) 71
     enginesRun c = true ∧ c.mxq = [x] ∧ (tileOf c.a 1).st = .filling ∧ tQuant (tileOf c.a 1).desc = false ∧ filling c 1 = some (fetchOf 8) ∧
       min (tCols (tileOf c.a 2).desc) (8 / 8) = 1 ∧ 1 < tCols (tileOf c.a 2).desc ∧ fetchFault c 1 = none) ∧
    (∀ r ∈ [([], false), ([{ sum := 1, abs := 0, skip := false }], true)],
      let x := { mxOp (.mma 0 2 1) 0 with cols := r.1, rows := if r.2 then [{ sum := 0, abs := 0, skip := false }] else [] }
      let c := getCore (mx71 x (arch fun a => putTile (putTile a 2 (ready (tileDesc 9 1 1 64 4))) 1 (ready (tileDesc 9 1 1 0 4)))) 71
      let da := (tileOf c.a 2).desc
      let db := (tileOf c.a 1).desc
      let a := tileV c da 0 0
      let b := tileV c db 0 0
      let c1 := putAcc c x.abase 0 0 0 (accBits (accStep (accOf (accRaw c x.abase 0 0 0)) a.1 b.1 (a.2 || b.2)))
      (tileOf c.a 1).st = .ready ∧ tCols da = 1 ∧ tRows da = 1 ∧ tCols db = 1 ∧ groupFails c1 (stepSums c { x with row := 1 } da db 0) 0 = r.2) := by
  decide +kernel

theorem witness_MatrixDrains :
    (∀ k ∈ [MxKind.zero 3, .drain 3 3 0], let c := with71 fun c => { shapes c with mxq := [mxOp k 0] }
      enginesRun c = true ∧ bitOf c.mxrow 63 = false ∧ c.mxq = [mxOp k 0]) ∧
    (∀ z ∈ [(TileSt.filling, false), (.draining, false), (.draining, true), (.empty, false), (.ready, false)],
      let c := getCore (mx71 (mxOp (.drain 3 3 0) 0) fun c => { arch (fun a => putTile a 3 { ready (tileDesc 10 1 64 1024 256) with st := z.1 }) c with
        cbuf := if z.2 then [.copy { aCopy true 0 with tile := some 3 }] else [] }) 71
      let d := (tileOf c.a 3).desc
      (tileOf c.a 3).v = true ∧ tOver c.a d = false ∧ (tileOf c.a 3).st = z.1 ∧ ownCopy c 3 = z.2 ∧ tType d = 10 ∧ tCols d = 64 ∧ tRows d = 1) ∧
    tType (tileDesc 0 1 4 0 4) = 0 ∧ (accOf (2 ^ 80)).psn = true ∧ (accOf 0).psn = false := by decide +kernel

theorem witness_FetchWalkAndVigil :
    (∀ g ∈ [0x20000, 0xFFFFFFFF00], let z := { fetchOf 8 with gaddr := BitVec.ofNat 64 g }
     let s := core71 fun c => { c with copies := [z] }
     let c := getCore s 71
     enginesRun c = true ∧ c.copies.find? (fun y => !y.outb && y.tile == some 1) = some z ∧ z.fetcher = true ∧ z.fault = none ∧
       fetchBlocked c z = false ∧ (match movePieceIn s 71 z with | .ok _ _ => some true | .fault _ => some false | _ => none) = some (decide (g = 0x20000))) ∧
    (∀ o ∈ [0, 7], let w : Walk := { op := o, ctrl := 511 + 2 ^ 9, off := 0, push := none, stopped := false, counts := none }
     let c := with71 fun c => { arch (fun a => putTile a 511 (ready (tileDesc 0 1 4 0 4))) c with walk := some w }
     enginesRun c = true ∧ c.walk = some w ∧ walkTileFault c 0 511 = none ∧ raiseFetch c 511 = c ∧ tileReadable (tileOf c.a 511) = true) ∧
    (let w : Walk := { op := 7, ctrl := 510 + 2 * 2 ^ 9, off := 0, push := none, stopped := false, counts := none }
     let c := with71 fun c => { arch (fun a => putTile a 510 (ready (tileDesc 0 1 4 0 4))) c with walk := some w }
     fieldOf w.ctrl 9 10 = 2 ∧ fieldOf w.ctrl 0 9 + 1 = 511 ∧ walkTileFault c (fieldOf w.ctrl 19 4) 510 = none ∧
       walkTileFault c (fieldOf w.ctrl 19 4) 511 = some (tileTrap 2 511)) ∧
    (let x : Vigil := { kind := 2, ha := 511, hb := 0, crc := 0, push := none }
     let c := with71 fun c => { arch (fun a => putTile a 511 (ready (tileDesc 0 1 4 0 4))) c with vigils := [x] }
     enginesRun c = true ∧ c.mxq = [] ∧ tileMark c (tileOf c.a 511).desc = none ∧ crc32c (vigilBytes c x) ≠ 0 ∧
       (let y := { x with crc := crc32c (vigilBytes c x) }
        crc32c (vigilBytes c y) = y.crc) ∧ tileMark (putScr c 0 { data := 0, psn := true }) (tileOf c.a 511).desc = some 0) := by decide +kernel

/-- A step of the Almanac on slot 255. -/
def almOp (k : Nat) : AlmOp := { kind := k, first := 255, count := 1, off := 0x7FFFF8, at_ := 0, push := none, stopped := false }

theorem witness_AlmanacAndShepherdEvents :
    (let c := with71 fun c => { c with almq := [almOp 0] }
     enginesRun c = true ∧ c.almq = [almOp 0] ∧ almLive (almOf c.a 255) = false) ∧
    (∀ r ∈ [(0, 0, false), (1, 1, false), (2, 1, true)],
      let f := fun c => arch (fun a => putAlm a 255 { almOf a 255 with sidx := r.2.1, errv := r.2.2, tx := 1, trb := 2, ty := 3, tk := [4, 4, 4, 4, 4, 4, 4] })
        (arch (fun a => (List.range 5).foldl (fun a h => putTile a h (ready (tileDesc 10 1 1 (64 * h) 4))) a) (almCore c))
      let c := with71 fun c => { f c with almq := [almOp r.1] }
      let y := almOf c.a 255
      almLive y = true ∧ vget c.a.methods none y.meth = some methTable ∧ almActs (almOp r.1) y methTable = true ∧
        (∀ h ∈ [1, 4], almTileFault c.a y.tx h false = none) ∧ almTileFault c.a y.tx y.ty true = none ∧ almTileFault c.a y.tx y.trb true = none) ∧
    (let c := with71 fun c => { almCore c with almq := [almOp 0] }
     almLive (almOf c.a 255) = true ∧ ((almSlotStep c (almOp 0) 255) matches .error _) = true) ∧
    (∀ z ∈ [ShSt.train, .candidate], ∀ r ∈ [ShRun.none, .running 15],
      let c := with71 fun c => { shCore z 0 c with snap := (shCore z 0 c).a, shrun := r }
      enginesRun c = true ∧ (List.range 16).find? (fun k => (shOf c.snap k).st == .train || (shOf c.snap k).st == .candidate) = some 15 ∧ c.shrun = r ∧
        (shOf c.snap 15).st = z) := by decide +kernel

/-! ### Copies, chains, departures -/

/-- A row of 256 bytes whose scratchpad offset and global address differ by 4 modulo 8, after `done` bytes (R136). -/
def skewed (outb : Bool) (done : Nat) : Copy := { aCopy outb 0x20004 with rowBytes := 256, off := 0, done := done }

/-- Rows of 12 bytes that abut in the scratchpad, inside its words (R136). -/
def abutting (done : Nat) : Copy := { aCopy false 0x20000 with rows := 3, rowBytes := 12, off := 0, lpitch := 12, gpitch := 128, done := done }

/-- Of a piece of a row that starts at 0x20004, the scratchpad's last word is written whole with the bytes of the next line, and an outbound piece
writes up to the last byte of its line; of rows that abut, the word that two share is written by the step of the first. -/
theorem test_piece_words : pieceSpan (skewed false 0) = (0, 128, 132) ∧ pieceSpan (skewed false 124) = (128, 256, 256) ∧
    pieceSpan (skewed true 0) = (0, 124, 128) ∧ pieceReads (skewed false 0) = [(0x20004, 124), (0x20080, 8)] ∧
    pieceReads { skewed false 124 with ahead := List.replicate 4 (0, false) } = [(0x20088, 120), (0x20100, 4)] ∧
    pieceSpan (abutting 0) = (0, 16, 20) ∧ pieceReads (abutting 0) = [(0x20000, 12), (0x20080, 8)] ∧ pieceSpan (abutting 12) = (16, 24, 24) := by
  decide +kernel

theorem witness_CopyEvents :
    (∀ g ∈ [0x20000, 0xFFFFFFFF00], let s := core71 fun c => { c with copies := [aCopy false g] }
      let c := getCore s 71
      copiesRun c = true ∧ c.copies.find? (fun y => !y.outb && !y.fetcher && mayMove c y) = some (aCopy false g) ∧
        pieceReads (aCopy false g) = [(BitVec.ofNat 64 g, 4)] ∧
        (match transAccess s 71 (BitVec.ofNat 64 g) .read 1 with | .ok _ => none | .error t => some (isRetry t)) = (if g = 0x20000 then none else some false) ∧
        pinnedByOther s 71 g = false ∧ pinnedByOther (modArch s 0 fun a => { a with pins := pinLine a.pins (g / 128) }) 71 g = true) ∧
    (∀ g ∈ [0x20000, 0xFFFFFFFF00], let s := core71 fun c => { c with copies := [aCopy true g] }
      let c := getCore s 71
      copiesRun c = true ∧ c.copies.find? (fun y => y.outb && !copyDone y && mayMove c y) = some (aCopy true g) ∧ (∀ p < 8, (getPart s p).switched = []) ∧
        pieceWrites (aCopy true g) = [(BitVec.ofNat 64 g, 4)] ∧
        (match transAccess s 71 (pieceOf (aCopy true g)).2.1 .write 2 with | .ok (.dev 0x20000, 0x20000) => true | .error _ => false | _ => false) =
          decide (g = 0x20000)) ∧
    (let c := with71 fun c => { c with copies := [{ aCopy true 0x20000 with done := 4 }] }
     c.copies.find? (fun y => y.outb && copyDone y && (peerWritesDone c || !copyToPeer c0 71 y)) = some { aCopy true 0x20000 with done := 4 }) ∧
    (let s := modPart (core71 fun c => { c with freeze := some { cause := 0x11, detail := 1, addr := 4, copy := some 1, slot := some 3, err := none } }) 0 fun p =>
       { p with svcq := [{ core := 0, svc := true, arg := 0 }, { core := 71, svc := false, arg := 4 }] }
     (getCore s 71).freeze.isSome = true ∧
       (getPart s (partOf (getCore s 71))).svcq.find? (fun r => r.core == 71) = some { core := 71, svc := false, arg := 4 } ∧
       (getDie s (dieOf 71)).restarting = false) ∧
    (let s := modPart (core71 fun c => { c with run := .svc 31 }) 0 fun p => { p with svcq := [{ core := 71, svc := true, arg := 4 }] }
     (getCore s 71).run = .svc 31 ∧
       (getPart s (partOf (getCore s 71))).svcq.find? (fun r => r.core == 71) = some { core := 71, svc := true, arg := 4 }) := by decide +kernel

/-- Core 71 with slot 3 at the chain entry of an operation, whose bytes lie at 0x20000. -/
def chain71 (b : List Byte) (f : Core → Core) : State :=
  let s := core71 fun c => f { c with chains := vset c.chains 3 { Chain.zero with cpc := 0x20000, st := .run } }
  { s with mem := memWrite s.mem 0x20000 b }

/-- Chain entries (R252): END, COPY of 4 bytes, COPY2D of 2 rows, WAIT for 1 or 0 on ring 255, POST, LINK, FLAG and ARRIVE. -/
def entryBytes (op d0 d1 d2 d3 : Nat) : List Byte := natBytes 8 (op + d0) ++ natBytes 8 d1 ++ natBytes 8 d2 ++ natBytes 8 d3

/-- Partition 0 with ring 63, whose REL is ring counter 255, PUB counter 7 and POLICY `p`. -/
def relIs255 (p : Nat) (s : State) : State :=
  modPart s 0 fun q => { q with rings := vset q.rings 63 { Ring.zero with en := true, policy := BitVec.ofNat 2 p, relc := 255, pubc := 7 } }

/-- Slot 3 gives up an item: it skips to the POST to PUB or to END (R354). -/
def skipping (c : Core) : Core := { c with chains := vset c.chains 3 { chainOf c 3 with skip := some (63, 0) } }

theorem witness_ChainEvents :
    (∀ b ∈ [entryBytes 0 0 0 0 0, entryBytes 4 0x0700 7 0 0, entryBytes 4 0xFF00 7 0 0, entryBytes 5 0 0x20020 0 0, entryBytes 6 0 7 0x7FFFF8 0],
      let s := relIs255 1 (chain71 b skipping)
      let c := getCore s 71
      enginesRun c = true ∧ chainLive (chainOf c 3) = true ∧ (chainOf c 3).skip = some (63, 0) ∧ (entryOf b).bad c.a = false ∧
        ((entryOf b).op = 4 → ((entryOf b).ring = (ringOf (getPart s 0) 63).pubc.toNat ↔ b = entryBytes 4 0x0700 7 0 0))) ∧
    (∀ b ∈ [entryBytes 0 0 0 0 0, entryBytes 1 (4 * 2 ^ 32) 0x20000 4 0, entryBytes 2 (2 ^ 32) 0x20000 (4 * 2 ^ 32) (4 + 4 * 2 ^ 32),
        entryBytes 3 0xFF00 0 0 0, entryBytes 3 0xFF00 1 0 0, entryBytes 4 0xFF00 7 0 0, entryBytes 5 0 0x20020 0 0, entryBytes 6 0 7 0x7FFFF8 0,
        entryBytes 7 (1023 * 2 ^ 16) 0 0 0, entryBytes 8 0 0 0 0],
      let s := chain71 b id
      let c := getCore s 71
      let x := chainOf c 3
      let r := readCommitted s 71 x.cpc (.dev 0x20000) 32
      let y := entryOf r.2.1
      enginesRun c = true ∧ chainLive x = true ∧ x.skip = none ∧ transAccess s 71 x.cpc .read 1 = .ok (.dev 0x20000, 0x20000) ∧
        pinnedByOther s 71 0x20000 = false ∧ r.2.1 = b ∧ r.2.2.any id = false ∧ y.bad c.a = decide (y.op = 8) ∧
        (y.op = 3 → satisfied (counterOf (getPart s 0) y.ring) y.d1 = decide (y.d1 = 0) ∧ relRing (getPart s (partOf c)) y.ring = none) ∧
        (∀ p ∈ [1, 2, 3], y.op = 3 → relRing (getPart (relIs255 p s) (partOf c)) y.ring = some 63 ∧
          (ringOf (getPart (relIs255 p s) (partOf c)) 63).policy = BitVec.ofNat 2 p) ∧
        (c.copies.any fun z => z.slot == some 3) = false ∧ c.copies.length < 16) ∧
    (let s := chain71 (entryBytes 0 0 0 0 0) fun c => { c with copies := [{ aCopy false 0 with slot := some 3 }] }
     ((getCore s 71).copies.any fun z => z.slot == some 3) = true) ∧
    (let s := { chain71 (entryBytes 0 0 0 0 0) id with poisoned := [0x20000 / 256] }
     (readCommitted s 71 0x20000 (.dev 0x20000) 32).2.2.any id = true) ∧
    (let s := { chain71 (entryBytes 0 0 0 0 0) id with poisoned := [0x20000 / 256] }
     (readCommitted s 71 0x20000 (.dev 0x20000) 32).2.2[0]? = some true) ∧
    (let s := chain71 (entryBytes 0 0 0 0 0) id
     pinnedByOther (modArch s 0 fun a => { a with pins := [0x20000 / 128] }) 71 0x20000 = true ∧
       (match transAccess (modArch s 0 fun a => { a with pins := [0x104000 / 128] }) 71 0x20000 .read 1 with | .error t => isRetry t | .ok _ => false) = true ∧
       (match transAccess s 71 0xFFFFFFFF00 .read 1 with | .error t => !isRetry t | .ok _ => false) = true) ∧
    (let c := with71 fun c => { c with chains := vset c.chains 3 { Chain.zero with kick := some 0x20000, st := .done } }
     enginesRun c = true ∧ chainLive (chainOf c 3) = false ∧ (chainOf c 3).kick = some 0x20000) := by decide +kernel

/-- A core whose steal request is pending. -/
def withPend (c : Core) : Core := { c with a := { c.a with pend := true } }

theorem witness_DepartureEvents :
    (∀ y ∈ [CEntry.sigadd 4095 1, .ringadd 255 1, .kick 3 0x20000, .arrive 0xC10000 1, .post 63 0],
      let c := with71 fun c => { c with departing := [{ entry := y, after := 1 }], copies := [aCopy true 0] }
      let d := with71 fun c => { c with departing := [{ entry := y, after := 2 }], copies := [aCopy true 0] }
      c.departing = [{ entry := y, after := 1 }] ∧ copiesRun c = true ∧ c.unit = some placeUnit ∧
        ((c.copies ++ c.backlog).any fun y => y.outb && y.slot.isNone && decide (y.id < 1)) = false ∧
        ((d.copies ++ d.backlog).any fun y => y.outb && y.slot.isNone && decide (y.id < 2)) = true) ∧
    (getDie c0 (dieOf 71)).restarting = false ∧ bitOf (0xC10000 : Word) 27 = false ∧ bitOf (0x9C10000 : Word) 27 = true ∧ openPort c0 (dieOf 71) = none ∧
    openPort (modDie c0 1 fun d => { d with ports := vset d.ports 3 { Port.zero with up := true } }) (dieOf 71) = some 3 ∧
    peerWritesDone (with71 fun c => { c with outst := [.peerWrite 7 3 0 [] [] true] }) = false ∧
    (∀ o ∈ [Outstanding.hostAtomic 15 1, .homeAtomic 15 1 false, .peerAtomic 7 3 15 1 true, .peerWrite 7 3 0 [1] [false] false,
        .peerWrite 7 3 0 [1] [false] true, .peerArrive 7 3],
      let c := with71 fun c => { c with outst := [o], arrivals := [(1023, 1, identOf placeUnit)], inbox := [(uref, false)] }
      c.freeze = none ∧ (c.outst.find? Outstanding.isHost = some o ∨ c.outst.find? Outstanding.isAtomic = some o ∨
        c.outst.find? Outstanding.isPeerWrite = some o) ∧ (c.outst.find? Outstanding.refusable = some o ↔
        o = .peerWrite 7 3 0 [1] [false] false ∨ o = .peerArrive 7 3) ∧ c.run ≠ .retired ∧ c.a.req = none ∧ takesSteals c.run = true ∧
        sameLaunch c uref = true ∧ sameLaunch c { uref with launch := 1 } = false) := by decide +kernel

/-- The placed unit switched out of core 71, its steal request pending. -/
def outside : Switched :=
  { image := withPend (placeCore .split), place := none, coded := [], core := 71, launch := 0, index := 0, held := [] }

theorem witness_stealAnswers :
    (let c := with71 fun c => { c with answers := [(uref, none), (uref, some (0, 1))] }
     c.freeze = none ∧ holdsUnit c uref = true ∧ c.run ≠ .retired ∧ c.a.pend = false ∧ (withPend c).a.pend = true) ∧
    unitAt c0 uref = some 0 ∧ holdsUnit (getCore c0 0) uref = true ∧
    (let u := { uref with index := 5 }
     let c := getCore (core71 fun c => { c with answers := [(u, none)] }) 71
     holdsUnit c u = false ∧ unitAt c0 u = none ∧ (getPart c0 0).switched.any (awaitsAnswer u) = false) ∧
    (let s := modPart (putCore (core71 fun c => { c with unit := none }) 0 Core.zero) 0 fun p => { p with switched := [outside] }
     holdsUnit (getCore s 71) uref = false ∧ awaitsAnswer uref outside = true ∧ outside.held.length < 4096 ∧ unitAt s uref = some 71 ∧
       awaitsAnswer uref { outside with held := [.stealRefused] } = false) := by decide +kernel

/-- A packet of a type with fields from bit 64 on. -/
def packet (ty rest : Nat) : BitVec 512 := BitVec.ofNat 512 (ty + rest * 2 ^ 64)

/-- A launch of one unit. -/
def launch0 (ty : Nat) (standing : Bool) : Launch :=
  { id := 0, queue := 63, seq := 0, pkt := packet ty 0, asn := 0, units := 1, todo := [0], live := [], fail := none, cancelled := none, standing := standing, arrive := 0,
    node := false, gang := none, items := [] }

theorem witness_ErrorEvents :
    (let c := with71 id
     c.run = .running ∧ c.unit.isSome = true ∧ c.freeze = none ∧ c.rtryCount < c.rtryMax ∧ c.ext = []) ∧
    (∀ n ∈ [0, 2, 3], ∀ piece ∈ [0, 1, 2, 5, 6, 7, 9],
      let c := with71 fun c => { c with
        copies := [aCopy true 0]
        inbox := [(uref, false)], answers := [(uref, none)]
        departing := [{ entry := .sigadd 0 1, after := 0 }]
        arrivals := [(0, 1, 0)]
        chains := Vector.replicate 4 { Chain.zero with st := .run }
        resends := Sparse.put 0 [] piece n }
      copiesRun c = true ∧ (if piece = 0 then c.departing ≠ [] else if piece = 1 then c.arrivals ≠ []
        else if piece < 6 then chainLive (chainOf c (piece - 2)) = true else if piece = 6 then c.inbox ≠ [] else if piece = 7 then c.answers ≠ []
        else ∃ x ∈ c.copies, x.open_ = false ∧ 8 + x.id = piece) ∧
        Sparse.get 0 c.resends piece = n) ∧
    chainLive (chainOf (with71 id) 3) = false ∧
    (∀ st ∈ [true, false], let l := launch0 1 st
      launchOf (getPart (modPart c0 0 fun p => { p with launches := [l] }) 0) l.id = some l ∧ l.cancelled = none) ∧
    (let c := with71 fun c => { c with freeze := some { cause := 0x11, detail := 1, addr := 4, copy := none, slot := none, err := none }, rtryCount := 3 }
     c.run = .running ∧ c.unit.isSome = true ∧ c.freeze.isSome = true ∧ c.rtryMax ≤ c.rtryCount) ∧
    (let s := modPart (core71 fun c => { c with run := .retired }) 0 fun p => { p with mask1 := 1 }
     let u := placeUnit
     (getCore s 71).run = .retired ∧ (getCore s 71).unit = some u ∧ (freeCores s u.part (dieOf 71)).contains 36 = true) ∧
    (let r : Durable := { launch := 0, index := 0, snap := Arch.zero, unit := some placeUnit, stores := [] }
     durableOf (getPart (modPart c0 0 fun p => { p with records := [r] }) 0) placeUnit = some r ∧ durableOf (getPart c0 0) placeUnit = none) ∧
    (∀ p < 8, (getPart c0 p).switched = []) ∧
    (∀ d < 2, (getDie c0 d).up = true ∧ (getDie c0 (1 - d)).up = true) := by decide +kernel

/-! ### The package, the host, the queues and the dispatch -/

/-- The package an hour after reset, with some state changed. -/
def late (f : State → State) : State := f { State.reset with dtime := 3600000000000 }

theorem witness_PackageEvents :
    (∀ d < 2, let die := getDie State.reset d
      die.up = true ∧ die.estimates ≤ State.reset.dtime.toNat / 4000 ∧ State.reset.dtime.toNat / 4000 < { die with estimates := 1 }.estimates ∧ die.noBoost = false ∧ die.thrt = false ∧ die.restarting = false ∧ die.lastRestart = none ∧
        (getDie State.reset (1 - d)).watts = 0) ∧
    min State.reset.powerCeiling State.reset.workLimit = 600 ∧ (late id).boostAt < (late id).dtime.toNat / 4000 ∧
    (∀ n ∈ [0, 0x2000000000000 / 256], inDevice State.reset (n * 256) = true ∧ lostMem State.reset (n * 256) = false ∧ State.reset.poisoned.contains n = false ∧
      ∀ f ∈ [none, some SectorFault.corrected, some .uncorrectable, some (.tagMismatch true), some (.tagMismatch false)], Sparse.get none (Sparse.put none State.reset.faulty n f) n = f) ∧
    ((getPart State.reset 7).ownerKeys.contains 1 = false) ∧ imageGood { State.reset with flashValid := false } = false ∧ imageGood State.reset = true ∧ State.reset.flashValid = true ∧
    State.reset.minVersion ≤ State.reset.flashVersion ∧ State.reset.timeMaster = false ∧
    (∀ d < 2, ∃ k < 36, (getDie State.reset d).bellwether = some k ∧ 1 ≤ k) ∧
    (let s := late fun s => modDie (core71 id) 1 fun d => { d with restarting := true, lastRestart := some 3600000000000 }
     (getDie s 1).up = true ∧ (getDie s 1).restarting = true ∧ restartReady s 1 = false) ∧
    (∀ x ∈ [0, 2600000000000], (let s := late fun s => modDie s 1 fun d => { d with lastRestart := some x }
     (getDie s 1).restarting = false ∧ (x + 1000000000 < s.dtime.toNat))) ∧
    (late fun s => s).dtime.toNat ≤ 3599000000000 + 1000000000 ∧
    (let s := late fun s => modDie s 1 fun d => { d with restarting := true, lastRestart := some 0 }
     (getDie s 1).restarting = true ∧ restartReady s 1 = true) ∧
    State.reset.minVersion ≤ 0 ∧ ownedPart State.reset 7 = some 7 ∧ ownedPart State.reset 16 = none ∧ (getPart State.reset 7).resetting = false ∧
    (getPart (modPart State.reset 7 fun p => { p with resetting := true }) 7).resetting = true := by
  decide +kernel

theorem witness_aperture : hostPart c0 0 0x20F00 128 = some 0 ∧ hostPart c0 16 0 1 = none ∧ hostPart c0 0 0 0 = none ∧ ownedPart c0 0 = some 0 ∧
    (∀ k ∈ [AccessKind.read, .write], aperturePinned c0 0 0 0x20F00 k = false ∧ apertureAddr c0 0 0 0x20F00 k = some 0x20F00 ∧
      aperturePinned (modArch c0 5 fun a => { a with pins := [0x104000 / 128] }) 0 0 0x20F00 k = true ∧ apertureAddr c0 0 0 0xFFFFFFFF00 k = none ∧
      aperturePinned c0 0 0 0xFFFFFFFF00 k = false) ∧
    rangePinned c0 0x20F00 128 = false ∧ (touchSector c0 0 (36 * homeDie c0 0x20F00) none 0x20F00 128 0).2 = false ∧
    rangePinned (modArch c0 5 fun a => { a with pins := [0x20F00 / 128] }) 0x20F00 128 = true := by decide +kernel

/-- Peer window 0 of partition 0 lets member 7 read and write. -/
def peers (s : State) : State := modPart s 0 fun p => { p with peerWin := vset p.peerWin 0 0x70F }

theorem witness_HostEvents :
    (∀ r ∈ [(true, 7), (true, 8), (false, 0)], let x : Port := { up := r.1, failed := false, retries := Sparse.put 0 [] 5 r.2, since := 0 }
      tetherPort (getDie (modDie c0 1 fun d => { d with ports := vset d.ports 3 x }) 1) 3 = x ∧ Sparse.get 0 x.retries 5 = r.2) ∧
    (∀ z ∈ [QState.stopped, .unmapped, .active], (queueOf (getPart (modQueue c0 7 63 fun q => { q with st := z }) 7) 63).st = z) ∧
    (unitCores c0 7 = [] ∧ (getPart c0 7).switched = [] ∧ unitCores c0 0 ≠ []) ∧
    (let p := getPart c0 7
     let r := ringOf p 63
     counterOf p r.pubc.toNat = counterOf p r.relc.toNat) ∧
    (let p := getPart (modPart (modRing c0 7 63 fun r => { r with pubc := 255 }) 7 fun p => { p with ringCtrs := Sparse.put 0 p.ringCtrs 255 1 }) 7
     let r := ringOf p 63
     counterOf p r.pubc.toNat ≠ counterOf p r.relc.toNat) ∧
    (∃ e < 2, (getDie c0 e).endpointUp = true) ∧
    (late id).dtime.toNat ≥ (Port.zero).since.toNat + 10000 ∧ c0.dtime.toNat < (Port.zero).since.toNat + 10000 ∧
    (let taken := fun (f : Nat) => (∃ k < 8, k ≠ 1 ∧ (getPart c0 k).owner = f) ∨ ∃ k < 8, (getPart c0 k).queueFuncs.contains f = true
     ¬ taken 16 ∧ taken 2 ∧ (getPart c0 1).owner ≠ 16) ∧
    (let s := { modPart c0 0 fun p => { p with errlog := [{ aux := 1, addr := 2, time := 3, part := 0, die := 0, core := 1, detail := 0, eccst := 0, cause := 0x31 }] } with
       doorbells := [0x20000] }
     endpointsOpen s = true ∧ (getPart s 0).errlog[0]?.isSome = true ∧ s.doorbells = [0x20000]) ∧
    (let s := peers c0
     let p := getPart s 0
     p.resetting = false ∧ memberMay p 6 1 = false ∧ memberMay p 6 2 = false ∧ memberMay p 7 1 = true ∧ memberMay p 7 2 = true ∧ memberMay p 7 3 = true ∧ memberMay p 6 3 = false ∧
       deviceRange s 0x20F00 128 = true ∧ rangePinned s 0x20F00 128 = false ∧ (touchSector s 0 (36 * homeDie s 0x20F00) none 0x20F00 128 0).2 = false ∧
       (touchSector { s with poisoned := [0x20F] } 0 (36 * homeDie s 0x20F00) none 0x20F00 128 0).2 = true) ∧
    (fieldOf (0x0010000000000000 : Word) 52 4 ≠ 0 ∧ { c0 with doorbells := [0x0010000000000000] }.doorbells = [0x0010000000000000]) ∧
    nextMsix c0 16 = none ∧
    (let s := { c0 with msixPending := [(16, 2047)] }
     nextMsix s 16 = some (16, 2047) ∧ Sparse.get 0 s.msixLast 16 < s.dtime.toNat / 1000 + 1 ∧
       s.dtime.toNat / 1000 + 1 ≤ Sparse.get 0 { s with msixLast := [(16, 1)] }.msixLast 16) := by decide +kernel

/-- An object of one image, which asks for the features `need`, with one segment of 16 bytes and one unit (R385 to R388). -/
def anObject (need : Nat) : List Byte :=
  natBytes 4 0x485A4B53 ++ natBytes 2 1 ++ natBytes 2 0 ++ natBytes 2 1 ++ natBytes 2 0 ++ natBytes 4 145 ++ natBytes 4 32 ++ natBytes 4 144 ++
    natBytes 8 0 ++ (natBytes 11 1 ++ natBytes 1 1 ++ natBytes 4 64 ++ natBytes 2 0 ++ natBytes 2 1 ++ natBytes 4 96 ++ natBytes 8 need) ++
    (natBytes 16 16 ++ natBytes 4 16 ++ natBytes 4 16 ++ natBytes 4 128 ++ natBytes 4 0) ++ natBytes 32 0 ++ natBytes 16 5 ++ natBytes 1 0

/-- A load request at 0x20000 for that object at 0x21000, whose segment goes to 32 GiB, where pages are code pages, with the record at 0x23000. -/
def loading (need : Nat) : State :=
  let put := fun (m : List Host.Cell) (x : Nat × List Byte) => memWrite m x.1 x.2
  { c0 with
    mem := [(0x104008, natBytes 8 0x80000002B), (0x20000, natBytes 8 0x21000 ++ natBytes 8 0x22000 ++ natBytes 8 0 ++ natBytes 8 0x23000),
      (0x21000, anObject need), (0x22000, natBytes 8 0x800000000)].foldl put c0.mem
    doorbells := [0x20000] }

/-- The request's dwords. -/
def loadDword (s : State) (k : Nat) : Nat := leNat (memBytes s.mem (0x20000 + 8 * k) 8)

theorem witness_loadRequest :
    let u := { loading 0 with doorbells := [] }
    let t := (touchSector u 0 (firmwareCore u (homeOf u 0)) none 0x20000 32 0).1
    let r := runRequest t 0 (firmwareCore u (homeOf u 0)) 0x20000 (loadDword t)
    deviceRange u 0x20000 32 = true ∧ homeMarked t 0 0x20018 8 = false ∧ loadDword t 3 = 0x23000 ∧ deviceRange t 0x23000 80 = true ∧
      loadWaits u 0 r.2 = false ∧ rangePinned u 0x20000 32 = false ∧ rangePinned u 0x23000 80 = false ∧ r.2.image = 0 ∧
      (match r.2.result with | .ok l => l == [1] | .error _ => false) = true ∧ (∀ j < 3, homeMarked t 0 (0x20000 + 8 * j) 8 = false) ∧
      loadDword t 2 / 2 ^ 16 = 0 ∧ segOffs (anObject 0) 32 = [64] ∧ checkRecords (anObject 0) 32 = none ∧ headerBad (anObject 0) = none ∧
      imageOk (anObject 0) 32 = true ∧ imageOk (anObject 256) 32 = false ∧ BitVec.ofNat 64 (imgNeed (anObject 1) 32) &&& ~~~(0xFE : Word) ≠ 0 := by
  decide +kernel

/-- Queue 63 of partition 0, its ring at 0x20000, with a packet at its head in state ACTIVE. -/
def queue63 (f : Queue → Queue) : State := modQueue c0 0 63 fun q => f { q with ringbase := 0x20000, st := .active }

/-- Queue 63 with a packet held at its head that has not acted. -/
def headed (p : BitVec 512) : State := queue63 fun q => { q with heldPkt := some p, head := 1, tail := 1, open_ := [0] }

theorem witness_QueueEvents :
    portalPart c0 0 64 = none ∧ portalPart c0 16 0 = none ∧ portalPart (queue63 id) 0 63 = some 0 ∧
    (let s := queue63 id
     let x := queueOf (getPart s 0) 63
     x.st ≠ .reset ∧ x.st ≠ .fetchFault ∧ packetBad s 0 x.dataPlane (packet 8 0) = true ∧ packetBad s 0 x.dataPlane (packet 0 0) = false ∧
       x.tail - x.head < 2 ^ x.log2n ∧ queueAddr s 0 x (x.ringbase + BitVec.ofNat 64 (64 * (x.tail % 2 ^ x.log2n))) .write = some 0x20000) ∧
    (let x := queueOf (getPart (queue63 fun q => { q with tail := 16 }) 0) 63
     2 ^ x.log2n ≤ x.tail - x.head) ∧
    (∀ z ∈ [QState.active, .waiting, .stopped, .fetchFault, .unmapping, .unmapped, .reset],
      let s := queue63 fun q => { q with st := z }
      (queueOf (getPart s 0) 63).st = z ∧ headHeld s 0 63 = false ∧ mappedQueues s (homeOf s (queueOf (getPart s 0) 63).homedie) < 128) ∧
    (let s := { queue63 fun q => { q with tail := 1 } with mem := memWrite c0.mem 0x20000 (natBytes 64 5) }
     let x := queueOf (getPart s 0) 63
     x.st = .active ∧ x.heldPkt = none ∧ x.head < x.tail ∧ queueAddr s 0 x (x.ringbase + BitVec.ofNat 64 (64 * (x.head % 2 ^ x.log2n))) .read = some 0x20000 ∧
       pinned s 0x20000 = false ∧ (touchSector s 0 (36 * homeOf s x.homedie) none 0x20000 64 0x20000).2 = false ∧
       pinned (modArch s 1 fun a => { a with pins := [0x20000 / 128] }) 0x20000 = true ∧ (∀ l ∈ (getPart s 0).launches, launchDone l = false) ∧
       retryLaunches s 0 63 = s ∧
       leNat (memBytes s.mem 0x20000 64) = 5 ∧ packetBad (modQueue s 0 63 fun x => { x with head := x.head + 1 }) 0 x.dataPlane (BitVec.ofNat 512 5) = false) ∧
    (∀ r ∈ [(0, 0), (1, 0), (2, 0), (3, 0), (4, 0), (5, 0), (5, 2 ^ 12), (6, 1), (7, 0)],
      let p := packet r.1 r.2
      let s := headed p
      let x := queueOf (getPart s 0) 63
      x.heldPkt = some p ∧ x.st = .active ∧ x.started = false ∧ (headHeld s 0 63 = false ∨ pType p = 4)) ∧
    headHeld (headed (BitVec.ofNat 512 (4 + 2 ^ 12 + 2 ^ 64 * 2 ^ 40))) 0 63 = false ∧
    (let s := modQueue (headed (BitVec.ofNat 512 256)) 0 63 fun q => { q with open_ := [0, 1], heldSeq := 1 }
     headHeld s 0 63 = true) := by decide +kernel

/-- A gang of members 0 and 7 whose launch 0 waits for its release at 3,000 ns. -/
def gang7 (confirms gos : BitVec 8) : Gang :=
  { gangid := 9, members := 0x81, self := 0, tick := 3000, launch := 0, confirms := confirms, gos := gos, nogos := 0, missing := 0, sent := false, reserved := [] }

/-- A candidate for that launch. -/
def cand0 (resume cosched : Bool) : Cand :=
  { part := 0, launch := 0, index := 0, prio := 3, arrive := 0, queue := 63, seq := 0, aff := [], homedie := 0, cosched := cosched, aged := false, resume := resume }

/-- Partition 0 owns core 68 and has the launch; its candidate waits on die 1. -/
def launching (u : Cand) (standing : Bool) : State :=
  modDie (modPart c0 0 fun p => { p with mask1 := 0x100000000, launches := [launch0 1 standing] }) 0 fun d => { d with cands := [u] }

theorem witness_DispatchEvents :
    (∀ r ∈ [(0x81, 0x81, 1000), (0x01, 0x01, 999), (0x81, 0x01, 3000)],
      let s := { modPart c0 0 fun p => { p with gangs := [gang7 (BitVec.ofNat 8 r.1) (BitVec.ofNat 8 r.2.1)], launches := [launch0 7 false] } with
        dtime := BitVec.ofNat 64 r.2.2 }
      let g := gang7 (BitVec.ofNat 8 r.1) (BitVec.ofNat 8 r.2.1)
      (getPart s 0).gangs.find? (fun g => g.gangid == 9) = some g ∧ (s.dtime.toNat + 2000 < g.tick ↔ r.2.2 = 999) ∧
        (g.members &&& ~~~g.confirms = 0 ↔ r.1 = 0x81) ∧ linkFailed s 0 g = false ∧ (g.tick ≤ s.dtime.toNat ↔ r.2.2 = 3000) ∧
        (g.members &&& ~~~g.gos = 0 ↔ r.2.1 = 0x81) ∧ launchOf (getPart s 0) g.launch = some (launch0 7 false) ∧
        (segOf s 0 (pSeg (launch0 7 false).pkt)).v = true) ∧
    freeUser c0 0 = false ∧ freeUser c0 71 = false ∧ (freeUser c0 70 = false) ∧ freeUser c0 69 = true ∧ choosePart c0 69 = none := by decide +kernel

theorem witness_qpost : (deliver (queue63 id) 0 63 (packet 0 0)).2 = .accepted ∧ (deliver (queue63 fun q => { q with st := .fetchFault }) 0 63 (packet 0 0)).2 = .retry := by
  decide +kernel

theorem witness_dispatch :
    (∀ r ∈ [(true, false, false), (false, true, false), (false, false, true), (false, false, false)],
      let s := launching (cand0 r.1 r.2.1) r.2.2
      freeUser s 68 = true ∧ choosePart s 68 = some 0 ∧ firstCand ((openCands s 0 68).filter (fitsCore s 0 68)) = some (cand0 r.1 r.2.1) ∧
        launchOf (getPart s 0) 0 = some (launch0 1 r.2.2) ∧ (segOf s 0 (pSeg (launch0 1 r.2.2).pkt)).v = true) ∧
    (segOf (modPart c0 0 fun p => { p with segs := vset p.segs 0 Seg.zero }) 0 (pSeg (launch0 1 false).pkt)).v = false ∧
    standingOf (getPart c0 0) 63 = none := by decide +kernel

theorem witness_claim : ∀ n ∈ [0, 1],
    (let s := modPart (modRing (queue63 fun q => { q with started := true }) 0 0 fun r => { r with pubc := 1, capm1 := 1, dropped := if n = 0 then [0] else [] }) 0 fun p =>
        { p with launches := [{ launch0 1 true with pkt := packet 1 (2 ^ 80), todo := [] }], ringCtrs := Sparse.put 0 p.ringCtrs 1 1 }
      let p := getPart s 0
      standingOf p 63 = some { launch0 1 true with pkt := packet 1 (2 ^ 80), todo := [] } ∧
        (let r := ringOf p (pIring (packet 1 (2 ^ 80)))
         r.clm < (counterOf p r.pubc.toNat).toNat ∧ r.dropped.contains r.clm = decide (n = 0) ∧ pOen (packet 1 (2 ^ 80)) = false ∧
           r.clm < pUnits (packet 1 (2 ^ 80)) ∧ itemReady s 0 { launch0 1 true with pkt := packet 1 (2 ^ 80), todo := [] } = decide (n = 1) ∧
           (∀ d ∈ s.dies.toList, d.cands = []))) ∧
    (∀ f ∈ [[], [0]], let p := getPart (modPart (modRing c0 0 0 fun r => { r with pubc := 1, capm1 := 1, clm := 1, finished := f }) 0 fun p =>
        { p with ringCtrs := Sparse.put 0 p.ringCtrs 1 2 }) 0
      pUnits (packet 1 (2 ^ 80)) ≤ (ringOf p 0).clm ∧ itemOver p 0 ((ringOf p 0).clm - pUnits (packet 1 (2 ^ 80))) = decide (f = [0])) := by decide +kernel

theorem witness_starts :
    (let l := launch0 1 false
     l.gang = none ∧ l.todo.length ≤ (resvCoresOf c0 (resvKey 0 0) ++ [71]).length ∧ { l with todo := [0, 1, 2] }.todo.length = 3 ∧
       freeCores c0 0 0 ++ freeCores c0 0 1 = [] ∧ resvCoresOf c0 (resvKey 0 0) = []) ∧
    (let l := { launch0 1 true with pkt := packet 1 (2 ^ 80), todo := [] }
     let s := modPart (modRing (queue63 fun q => { q with started := true }) 0 0 fun r => { r with pubc := 1, capm1 := 1, recbase := 0x20000 }) 0 fun p =>
       { p with launches := [l], ringCtrs := Sparse.put 0 p.ringCtrs 1 1 }
     let p := getPart s 0
     (ringOf p (pIring l.pkt)).clm = 0 ∧ itemReady s 0 l = true ∧ (standingOf p l.queue).isSome = true ∧
       queuePinned s 0 (queueOf p l.queue) 0x20000 .write = false ∧ queueAddr s 0 (queueOf p l.queue) 0x20000 .write = some 0x20000) ∧
    (let l := { launch0 1 false with todo := [] }
     let s := modPart (queue63 fun q => { q with cplbase := 0x21000 }) 0 fun p => { p with launches := [l] }
     launchOf (getPart s 0) l.id = some l ∧ recordPinned s 0 l = false ∧ queueAddr s 0 (queueOf (getPart s 0) l.queue) 0x21000 .write = some 0x21000) := by
  decide +kernel

theorem witness_unitEnd :
    (let c := with71 fun c => { c with run := .ending 0 0 }
     c.run = .ending 0 0 ∧ c.unit = some placeUnit ∧ unitQuiet c = true ∧ unitQuiet { c with copies := [aCopy false 0] } = false) ∧
    mayPreempt c0 0 = none ∧
    (∀ b ∈ [true, false],
      let s := modDie (modPart (modCore c0 0 fun c => { c with unit := some { placeUnit with committed := b } }) 0 fun p => { p with mask0 := 1 }) 0 fun d =>
        { d with cands := [cand0 false false] }
      let c := getCore s 0
      mayPreempt s 0 = some (cand0 false false) ∧ c.unit = some { placeUnit with committed := b } ∧ c.run = .running ∧ c.freeze = none ∧ c.a.tl = false ∧ c.a.uh = false) ∧
    (let c := with71 fun c => { c with run := .halted }
     c.run = .halted ∧ c.freeze = none ∧ c.copies = [] ∧ c.departing = [] ∧ c.outst = [] ∧ c.unit = some placeUnit) ∧
    (∀ d ∈ [0, 2], let z := { aCopy false 0x20000 with slot := some 3, done := d }
     let c := with71 fun c => { c with run := .halted, copies := [z] }
     c.copies = [z] ∧ z.slot.isSome = true ∧ z.done = d) ∧
    (let y : Switched := { image := { placeCore .split with outst := [.homeAtomic 15 1 false] }, place := none, coded := [], core := 71, launch := 0, index := 0,
                           held := [] }
     let s := modPart (core71 id) 0 fun p => { p with switched := [y] }
     pastUnit s 71 (fun t => !(getCore t 71).outst.isEmpty) = some (0, y)) := by decide +kernel

/-! ### The issue of a word, steps and frames -/

theorem witness_IssueRules :
    majorUndefined (0xFFFFFFFF / 2 ^ 25) = true ∧ majorUndefined 0 = true ∧
    (∀ r ∈ [(false, false, false), (true, false, true), (true, true, false), (true, true, true)],
      let s := modPart c0 0 fun p => { p with segs := vset p.segs 0 { placeSeg with v := r.1, sys := r.2.1, fw := r.2.2 } }
      let q := curSeg s (envOf s).rd
      q.v = r.1 ∧ q.sys = r.2.1 ∧ q.fw = r.2.2 ∧ s.focusCl = .c) ∧
    issueTrap (encodeNat (.add 3 1 2 1)) [3] c0 (envOf c0) = none ∧ rdFlag (envOf c0).rd.a .c 1 = false ∧
    (∀ t ∈ [({ hint := 0, tkin := 1, tkout := 0 } : Tk), { hint := 0, tkin := 3, tkout := 0 }],
      issueTrap (encodeNat (.harrive 1 2 t)) [] c0 (envOf c0) = none ∧
        (popReady (envOf c0).rd.a (popPair .c t.tkin.toNat) && pushReady (envOf c0).rd.a (pushPair .c t.tkout.toNat)) = false) ∧
    (let s := st .split .c (arch fun a => { a with tokens := Vector.replicate 12 15 })
     issueTrap (encodeNat (.harrive 1 2 { hint := 0, tkin := 0, tkout := 3 })) [] s (envOf s) = none ∧
       pushReady (envOf s).rd.a (pushPair .c 3) = false) ∧
    (∀ r ∈ [(Cluster.c, 32), (.l, 31), (.l, 44), (.k, 43), (.k, 52), (.s, 51)],
      let s := st .split r.1
      let w := if r.1 = .c then encodeNat (.add (BitVec.ofNat 6 r.2) 1 2 0) else 0xF0000000
      slotTrap w s (envOf s) = none ∧ (envOf s).rd.a.mode = .split) ∧
    issueTrap (encodeNat (.add 32 1 2 0)) [32] c0 (envOf c0) = some (mkTrap 0x02 1 (BitVec.ofNat 64 (encodeNat (.add 32 1 2 0)))) ∧
    (∀ h ∈ [true, false], let s := st .joint .c (arch fun a => { a with tl := h, uh := !h })
     MayAll s [(.commit, []), (.commitD 1 2, []), (.endOp 0, []), (.fork 1 2 3 0, []), (.loopm 0 1 2 0 1, [])] ∧
       ((envOf s).rd.a.tl = true ∨ (envOf s).rd.a.uh = true) ∧ s.bundle = none) := by decide +kernel

theorem witness_HardwiredRegisters : c0.bundle = none ∧ c0.focusCore < 72 ∧ (getCore c0 c0.focusCore).a.mode = .split := by decide +kernel

/-- Core 0 in a mode, one issue of a cluster up. -/
def issuing (m : Mode) (cl : Cluster) (w : Nat) : State :=
  { st m cl with mem := memWrite c0.mem placePc (natBytes 4 w ++ natBytes 12 0), agenda := [{ act := .issue 0 cl, ns := 1, cc := 2 }] }

/-- The load of R143: ld.l.w x32, x33. -/
def aLoad : Instr := .ldL 32 33 0 0 2 tkNone

/-- The load in its queue, with 0x100 in x33 and 5 in x52. -/
def aQueued : Queued := { core := 0, cl := .l, instr := aLoad, pre := getCore (st .split .l (xs [(33, 0x100), (52, 5)])) 0, push := none }

/-- Core 0 with accesses in its queues, the load at L's program counter, and a move of L up. -/
def accessing (act : Nat → Cluster → Act) (l : List Queued) : State :=
  { st .split .l (xs [(33, 0x100), (52, 5)]) with
    mem := memWrite c0.mem placePc (natBytes 4 (encodeNat aLoad)), accesses := l, agenda := [{ act := act 0 .l, ns := 0, cc := 0 }] }

/-- The package after a step. -/
noncomputable def stepped (s : State) : State :=
  match step s with
  | .next t => t
  | _ => s

theorem witness_StepRunsDecoded :
    (∀ r ∈ [(Cluster.c, 0x02182100), (.k, 0xB0000000)],
      let w := r.2
      let s := issuing .split r.1 w
      let s1 := passTime { s with agenda := [], focusCore := 0, focusCl := r.1 } 1 2
      let c := getCore s1 0
      s.agenda = [{ act := .issue 0 r.1, ns := 1, cc := 2 }] ∧ c.run = .running ∧ c.freeze = none ∧ s1.alarm = .none ∧ c.engTraps = [] ∧ c.a.mode = .split ∧
        (let s1 := fetchAhead s1
        let c := getCore s1 0
        vget c.a.clst .run 0 = .run ∧ vget c.a.repK none 0 = none ∧ (match fetchWord s1 0 (vget c.a.pc 0 0) with | .ok x => x.toNat == w | _ => false) = true ∧
        slotTrap w s1 (envOf s1) = none ∧ (match fetchWord s1 0 (vget c.a.pc 0 0 + 4) with | .ok x => x == 0 | _ => false) = true)) ∧
    (let s := issuing .joint .c 0x02182100
     let c := getCore (fetchAhead (passTime { s with agenda := [], focusCore := 0, focusCl := .c } 1 2)) 0
     c.a.mode = .joint ∧ c.run = .running ∧ vget c.a.clst .run 0 = .run ∧ c.nopSlot = none ∧ c.a.litAt = none ∧ c.a.seq = none) ∧
    (Instr.streamFetch 71 7).hasWord = false ∧ (Instr.streamFetch 71 7).stepOk = true ∧ c0.alarm = .none ∧
    (let f := fetchAhead (accessing .late [])
     let c := getCore f 0
     c.a.mode = .split ∧ vget c.a.clst .run 1 = .run ∧ vget c.a.repK none 1 = none ∧ queueForm aLoad = some (aLoad, tkNone, [32, 33]) ∧
       portsOf c [32, 33] = [] ∧ fetchRetry (accessing .late []) = false ∧
       (match fetchInstr f (vget c.a.pc 0 1) (vget c.a.pc 0 1) with | .ok i => i == aLoad | _ => false) = true ∧
       (match lateNext f with
         | some l => (match lateIssue f l with | some u => inOrder (accessing .late []) u 0 | none => false)
         | none => false) = true) ∧
    (performed (accessing .perform [aQueued]) aQueued).isSome = true ∧
    (let f := fetchAhead (accessing .late (List.replicate 32 { aQueued with instr := .ldL 34 33 0 0 2 tkNone }))
     (match lateNext f with
       | some l => (lateAccesses l).any fun q => decide (32 ≤ (f.accesses.filter fun z => z.core == q.core && z.cl == q.cl).length)
       | none => false) = true) := by decide +kernel

/-- The load of R143 in its queue, and behind it `addi x34, x33, 1`. -/
def passing : State :=
  let s := accessing .late [aQueued]
  { s with mem := memWrite s.mem placePc (natBytes 4 (encodeNat (.addi 34 33 1))) }

/-- An `addi` of L behind the load of R143 passes it, and the load is then performed with its own operand. -/
theorem test_arithmetic_passes :
    (stepped passing).accesses.length = 1 ∧ (rdReg (getCore (stepped passing) 0) 34).val = 0x101 := by decide +kernel

/-- The sequencer at row 0 of kernel iteration `k`, for a body of one bundle, two trips and two stages, all slots in stage 1 (R117). -/
def aSeqr (k : Nat) (buf : List (Option Word32)) : Seqr :=
  { k := k, b := 0, n := 2, stages := 2, ii := 1, map := 0x55, body := BitVec.ofNat 64 placePc, buf := buf }

theorem witness_sequencer :
    (∀ k ∈ [0, 1, 2], ∀ w ∈ [0x02182100, 0x30000000],
      let pre := arch (fun a => { a with seq := some (aSeqr k [some (BitVec.ofNat 32 w)]) }) (placeCore .joint)
      let v := { issuing .joint .c 0 with bundle := some (freshBundle pre) }
      let q := aSeqr k [some (BitVec.ofNat 32 w)]
      pre.nopSlot = none ∧ pre.a.litAt = none ∧ pre.a.seq = some q ∧ nth none q.buf 0 = some (BitVec.ofNat 32 w) ∧
        (q.k < fieldOf q.map 0 2 ∨ q.n ≤ q.k - fieldOf q.map 0 2 ↔ k = 0) ∧ (bodyForbidden (w / 2 ^ 25) = decide (w = 0x30000000)) ∧
        (w = 0x02182100 → slotTrap w (putCore v 0 pre) (envOf v) = none) ∧ (q.k + 1 < q.n + q.stages - 1 ↔ k ≠ 2)) ∧
    nth none (aSeqr 0 []).buf 0 = none ∧
    (let v := issuing .joint .c 0x02182100
     (match fetchWord v 0 (vget (getCore v 0).a.pc 0 0) with | .ok w => w.toNat | _ => 0) = 0x02182100) := by decide +kernel

/-- The second row of a body of two bundles moves to the next iteration, with VBASE turned by VROT, and the last row of the last one past it (R117). -/
theorem test_sequencer_rows :
    let c := fun (k b : Nat) => advanceJoint (arch (fun a => { a with vbase := 2047, vrot := 3, seq := some { aSeqr k [] with b := b, ii := 2 } }) (placeCore .joint))
    (vget (c 0 0).a.pc 0 0 = 0x10010 ∧ (c 0 0).a.vbase = 2047) ∧ (vget (c 0 1).a.pc 0 0 = 0x10000 ∧ (c 0 1).a.vbase = 2) ∧
      (vget (c 2 1).a.pc 0 0 = 0x10020 ∧ (c 2 1).a.vbase = 2 ∧ (c 2 1).a.seq = none) := by decide +kernel

/-- Core 0 at a `rep` of C, whose repetition `k` comes next, with a target. -/
def repeating (k : Nat) (prefix_ target : Nat) : State :=
  { st .split .c (arch fun a => { a with repK := #v[some (k, 4), none, none, none] }) with
    mem := memWrite c0.mem placePc (natBytes 4 prefix_ ++ natBytes 4 target), agenda := [{ act := .issue 0 .c, ns := 1, cc := 2 }] }

theorem witness_rep :
    (∀ k ∈ [0, 3], ∀ w ∈ [encodeNat (.addi 28 1 5), 0xF0000000, 0xF8000000, 0, encodeNat (.addi 32 1 5), 0x1E000000, encodeNat (.addi 29 1 5)],
      let s := fetchAhead (passTime { repeating k (encodeNat (.rep 3 1 1)) w with agenda := [] } 1 2)
      let c := getCore s 0
      vget c.a.repK none 0 = some (k, 4) ∧ vget c.a.clst .run 0 = .run ∧ (match fetchWord s 0 0x10000 with | .ok x => majorOf x == 0x0F | _ => false) = true ∧
        (match fetchWord s 0 0x10004 with | .ok x => x.toNat == w | _ => false) = true ∧ slotTrap w s (envOf s) = none ∧
        (match decodeWord (BitVec.ofNat 32 w) 0 with | .ok _ => true | _ => false) = true) ∧
    fetchRetry (repeating 0 0 0) = false ∧ fetchRetry (modArch (repeating 0 0 0) 5 fun a => { a with pins := [0x104000 / 128] }) = true := by decide +kernel

/-- The fourth repetition of `addi x28, x1, 5` with XD stepped writes x31, the last of the window; from x29 on it would leave it: RESERVED_FIELD
with detail 3 before the first repetition, TVAL the `rep` word (R67). -/
theorem test_rep :
    (rdReg (getCore (stepped (repeating 3 (encodeNat (.rep 3 1 1)) (encodeNat (.addi 28 1 5)))) 0) 31).val = 5 ∧
    (let s := modCore (repeating 0 (encodeNat (.rep 3 1 1)) (encodeNat (.addi 29 1 5))) 0 handler
     let c := getCore (stepped s) 0
     c.tr.cause = 3 ∧ c.tr.detail = 3 ∧ c.tr.tval = BitVec.ofNat 64 (encodeNat (.rep 3 1 1))) := by decide +kernel

/-- Case 4 of R143: a load that follows a store, which is still in its queue, is performed before it and reads 0; the store then writes 5. -/
theorem test_queues_pass :
    let store : Queued := { aQueued with cl := .s, instr := .stL 52 33 0 2 tkNone }
    let c := getCore (stepped (accessing .perform [store, aQueued])) 0
    let d := getCore (performAll (accessing .perform [store])) 0
    (rdReg c 32).val = 0 ∧ (scrWord c 64).data = 0 ∧ (scrWord d 64).data = 5 := by decide +kernel

theorem witness_RegisterFrame : c0.focusCore < 72 ∧ (∀ r ∈ [Instr.add 31 1 2 0, .addi 31 1 5, .csrrd 31 0x041, .yrd 31 0, .faddF64 31 1 2 0, .fminF32 31 1 2 0, .scvtI32F32 31 1 7 0,
      .tkcnt 31 1 0, .csrwr 31 1 0x002, .csrset 31 1 0x041, .csrclr 31 1 0x000],
    MayIssue (encodeNat r) [31] 0 tkNone c0 ∧ (match exec r c0 with | .next _ => true | _ => false) = true) ∧
    MayIssue (encodeNat (.tkpush 1 0)) [] 0 tkNone c0 ∧ MayIssue (encodeNat (.tkwait 3 0)) [] 0 tkNone c0 ∧ ((issueEnv tkNone c0).x 1).psn = false ∧
    (∀ r ∈ [Instr.add 31 1 2 0], MayIssue (encodeNat r) [31] 0 tkNone j0 ∧ (match exec r j0 with | .next _ => true | _ => false) = true) := by decide +kernel

theorem witness_StoreFrame :
    (∀ r ∈ [(0, 0x7FFFFF), (3, 0x7FFFF8)], let s := st .split .s (xs [(52, 0x1122334455667788), (53, r.2)])
      let i := Instr.stL 52 53 0 (BitVec.ofNat 2 r.1) tkNone
      let e := issueEnv tkNone s
      s.focusCore < 72 ∧ MayIssue (encodeNat i) [] 0 tkNone s ∧ (e.x 53).psn = false ∧ (e.x 53).val.toNat % 2 ^ r.1 = 0 ∧
        (e.x 53).val.toNat + 2 ^ r.1 ≤ plain e.rd.a ∧ Sparse.wf Lane.zero (getCore s 0).scratch = true ∧
        (match exec i s with | .next _ => true | _ => false) = true) ∧
    (∀ p < 2, let s := st .split .s (xs [(52, 0x1122334455667788), (53, 0x20008)])
      let i := Instr.stG 52 53 (BitVec.ofNat 1 p) 3 tkNone
      let e := issueEnv tkNone s
      let u := issued tkNone s
      MayIssue (encodeNat i) (if p = 1 then [53] else []) 0 tkNone s ∧ globalFault u 0 .write 2 [(e.x 53).val] = none ∧ (e.x 52).psn = false ∧
        transTarget u 0 (e.x 53).val .write = .ok (.dev 0x20008, 0x20008) ∧ (enterStores (getCore s 0).cbuf [(0x20008, 0x20008, natBytes 8 1)]).isSome = true ∧
        (getCore s 0).cbuf = [] ∧ (match exec i s with | .next _ => true | _ => false) = true) := by decide +kernel

theorem witness_vector_stores :
    (let s := st .split .s (xs [(53, 0x20000), (54, 0x7FFF00)])
     let e := issueEnv tkNone s
     let l := (List.range 64).filter fun i => maskBit e.rd.a 0 i
     MayAll s [(.vstL 8 54 0 0 tkNone, []), (.vstG 8 53 0 0 tkNone, []), (.scat 8 54 1 1 0 tkNone, []), (.scat 8 53 0 1 0 tkNone, [])] ∧
       (vecSources e s [8]).isSome = true ∧ laneFault e.rd.a (e.x 54).val l = none ∧ globalFault s 0 .write 2 (laneAddrs (e.x 53).val l) = none ∧
       lanePsn (readV e.rd 8) l = none ∧ portsOf e.rd [8, 9] = [] ∧
       (let at_ := fun (b : Word) => l.map fun i => (i, indexed b 1 (nth Lane.zero (readV e.rd 9) i))
        indexTrap e s true .write 2 (e.x 54).val (readV e.rd 9) (at_ (e.x 54).val) = none ∧
          indexTrap e s false .write 2 (e.x 53).val (readV e.rd 9) (at_ (e.x 53).val) = none) ∧
       (enterStores (getCore s 0).cbuf (lanePieces s 0 (readV e.rd 8) (l.map fun i => (i, (e.x 53).val + BitVec.ofNat 64 (4 * i))))).isSome = true) ∧
    (let s := st .split .k ports
     ((pushPort s 0 6 zeroVec) matches .ok _ _) = true) := by decide +kernel

theorem witness_engine_stores :
    (let s := putCore c0 0 (stream7 true true 0x7FFF00 [zeroVec] (placeCore .split))
     ((exec (.streamOutboundWrite 0 7) s) matches .next _) = true ∧ Sparse.wf Lane.zero (getCore s 0).scratch = true) ∧
    (let s := putCore c0 0 { placeCore .split with copies := [aCopy true 0x20000] }
     let c := getCore s 0
     c.copies.find? (fun k => k.outb && !copyDone k && mayMove c k) = some (aCopy true 0x20000) ∧ (∀ q < 8, (getPart s q).switched = []) ∧
       ((exec (.outboundCopyExecute 0) s) matches .next _) = true) ∧
    (Memory.wf c0.mem = true ∧
      (∀ o < 32, (match resolve c0 (partOf (getCore c0 0)) 0 (0x20000 + o) with | .ok (.dev a) => a == 0x20000 + o | _ => false) = true ∧ lostMem c0 (0x20000 + o) = false) ∧
      Sparse.wf none ([(0, some 1), (31, some 2)] : Sparse (Option Byte)) = true) := by decide +kernel

/-! ## Words written out from their encodings: one of every major (R39 to R44, R49) -/

/-- The decoder reads a word, followed by a word of zeros, as an instruction. -/
abbrev Reads (w : BitVec 32) (i : Instr) : Prop := (decodeWord w 0).toOption = some i

/-- HINT 2, TKIN 1, TKOUT 3: the low byte is 10 00 01 11. -/
abbrev tk : Tk := { hint := 2, tkin := 1, tkout := 3 }

theorem test_decode_scalar :
    Reads 0x021A355E (.rmdrU 3 17 42 5) ∧ Reads 0x041A3ABC (.addi 3 17 0x1abc) ∧ Reads 0x061A3ABC (.andi 3 17 0x1abc) ∧
    Reads 0x081A3ABC (.ori 3 17 0x1abc) ∧ Reads 0x0A1A3ABC (.xori 3 17 0x1abc) ∧ Reads 0x0C1A3009 (.srai 3 17 9) ∧
    Reads 0x0E1EABCD (.himm 3 0x6abcd) ∧ Reads 0x101EABCD (.adpc 3 0x6abcd) ∧ Reads 0x1202205D (.flWr 17 5) ∧
    Reads 0x155A3ABC (.cmpiGeu 3 17 0x1abc) ∧ Reads 0x16EAAAAB (.br 3 0x2aaaab) ∧ Reads 0x18EAAAAB (.brn 3 0x2aaaab) := by decide +kernel

theorem test_decode_control :
    Reads 0x1AEAAAAB (.call 3 0x2aaaab) ∧ Reads 0x1C1A2050 (.jmpr 3 17 5) ∧ Reads 0x1F91B200 (.rep 0xc8 13 9) ∧
    Reads 0x20080000 (.lpclrI) ∧ Reads 0x223A3553 (.loopm 7 17 42 5 3) ∧ Reads 0x24180055 (.yrd 3 5) ∧
    Reads 0x26184052 (.tkcnt 3 2 5) ∧ Reads 0x28180053 (.rstat 3 5) ∧ Reads 0x2A1A355F (.fmsgnF64 3 17 42 5) ∧
    Reads 0x2C1A355F (.fmsgnF32 3 17 42 5) ∧ Reads 0x2E1A2C01 (.csrclr 3 17 1) ∧ Reads 0x301A3550 (.fork 3 17 42 5) := by decide +kernel

theorem test_decode_system_csr_region :
    Reads 0x322AAAAB (.join 0x2aaaab) ∧ Reads 0x341A2055 (.ptest 3 17 5) ∧ Reads 0x3794A387 (.hstat 50 37 tk) ∧
    Reads 0x3991A787 (.aresh 50 13 tk) ∧ Reads 0x3AEAAAAB (.jeos 3 0x2aaaab) ∧ Reads 0x3C000053 (.fenceSys 5) ∧
    Reads 0x3E000050 (.endOp 5) ∧ Reads 0x4194AE87 (.ldG 50 37 1 1 2 tk) ∧ Reads 0x4394AE87 (.ldL 50 37 1 1 2 tk) ∧
    Reads 0x4594AE87 (.vldG 50 37 1 6 tk) ∧ Reads 0x4794AE87 (.vldL 50 37 1 6 tk) ∧ Reads 0x4994BE87 (.gath 50 37 1 1 6 tk) := by decide +kernel

theorem test_decode_loads_streams :
    Reads 0x4A34AA87 (.sposL 6 37 tk) ∧ Reads 0x4C000087 (.markL tk) ∧ Reads 0x4F94A287 (.cpinT 50 37 tk) ∧
    Reads 0x50680587 (.sinval 13 tk) ∧ Reads 0x601A356A (.vadd 3 17 42 6 10) ∧ Reads 0x621A356A (.vsub 3 17 42 6 10) ∧
    Reads 0x641A356A (.vmul 3 17 42 6 10) ∧ Reads 0x661A356A (.vfma 3 17 42 6 10) ∧ Reads 0x681A356A (.vfms 3 17 42 6 10) ∧
    Reads 0x6A1A356A (.vfnma 3 17 42 6 10) ∧ Reads 0x6C1A356A (.vmin 3 17 42 6 10) ∧ Reads 0x6E1A356A (.vmax 3 17 42 6 10) := by decide +kernel

theorem test_decode_vector_arithmetic :
    Reads 0x701A356A (.vdiv 3 17 42 6 10) ∧ Reads 0x721A3565 (.vand 3 17 42 6 5) ∧ Reads 0x741A3564 (.vor 3 17 42 6 4) ∧
    Reads 0x761A3567 (.vxor 3 17 42 6 7) ∧ Reads 0x781A3566 (.vsll 3 17 42 6 6) ∧ Reads 0x7A1A3563 (.vsrl 3 17 42 6 3) ∧
    Reads 0x7C1A3562 (.vsra 3 17 42 6 2) ∧ Reads 0x7E1A3562 (.vadds 3 17 42 6 2) ∧ Reads 0x801A3563 (.vsubs 3 17 42 6 3) ∧
    Reads 0x821A3561 (.vmulh 3 17 42 6 1) ∧ Reads 0x841A3560 (.vabsd 3 17 42 6 0) ∧ Reads 0x861A3563 (.vavg 3 17 42 6 3) := by decide +kernel

theorem test_decode_vector_logic :
    Reads 0x881A356A (.vcmpeq 3 17 42 6 10) ∧ Reads 0x8A1A356A (.vcmplt 3 17 42 6 10) ∧ Reads 0x8C1A356A (.vcmple 3 17 42 6 10) ∧
    Reads 0x8E1A356A (.vcmpne 3 17 42 6 10) ∧ Reads 0x901A356A (.vsel 3 17 42 6 10) ∧ Reads 0x921A356A (.vperm 3 17 42 6 10) ∧
    Reads 0x941A353A (.vuzpOd 3 17 42 10) ∧ Reads 0x961A353A (.vslide 3 17 42 1 1 10) ∧ Reads 0x981A256A (.vmov 3 17 6 10) ∧
    Reads 0x9A400509 (.vcvt 8 0 0 10 0 9) ∧ Reads 0x9C1A256A (.vscanMax 3 17 6 10) ∧ Reads 0x9E18E070 (.mtov 3 7) := by decide +kernel

theorem test_decode_vector_compare_moves :
    Reads 0xA01A206A (.vsplat 3 17 6 10) ∧ Reads 0xA21A351A (.vins 3 17 42 10) ∧ Reads 0xA994BB87 (.mxmma 50 37 3 tk) ∧
    Reads 0xAA04A487 (.twait 37 tk) ∧ Reads 0xAD900787 (.walkHist 50 tk) ∧ Reads 0xAF900187 (.aview 50 tk) ∧
    Reads 0xB2000987 (.await tk) ∧ Reads 0xB591E787 (.shmean 50 15 tk) ∧ Reads 0xC194AA87 (.stG 50 37 1 2 tk) ∧
    Reads 0xC394AA87 (.stL 50 37 1 2 tk) ∧ Reads 0xC594AE87 (.vstG 50 37 1 6 tk) ∧ Reads 0xC794AE87 (.vstL 50 37 1 6 tk) := by decide +kernel

theorem test_decode_engines :
    Reads 0xC994BE87 (.scat 50 37 1 1 6 tk) ∧ Reads 0xCA34AA87 (.sposS 6 37 tk) ∧ Reads 0xCC000087 (.markS tk) ∧
    Reads 0xCF94A287 (.cpoutT 50 37 tk) ∧ Reads 0xD194BF87 (.amoCasQ 50 37 1 tk) ∧ Reads 0xE0023554 (.tlbinv 17 42 5) ∧
    Reads 0xE2023550 (.scsrwr 17 42 5) ∧ Reads 0xE4022051 (.segclr 17 5) ∧ Reads 0xE6022054 (.pscrub 17 5) ∧
    Reads 0xE8022051 (.hrmark 17 5) ∧ Reads 0xF5A5A5A5 (.hint 0x5a5a5a5) ∧ Reads 0xF8ABCDEF (.emulMajor7c 0xabcdef) := by decide +kernel

theorem test_decode_stores_atomics_system :
    Reads 0xFAABCDEF (.emulMajor7d 0xabcdef) ∧ Reads 0xFCABCDEF (.emulMajor7e 0xabcdef) := by decide +kernel

/-! ## Words and results of the spec's worked examples -/

/-- The bundle and the `rep` of chapter 2, the conversion of R201 and the `loopm` of chapter 4. -/
theorem test_decode_examples : Reads 0x0428A100 (.addi 5 5 256) ∧ Reads 0x605104AA (.vadd 10 8 9 2 10) ∧ Reads 0xF0000000 (.hint 0) ∧
    Reads 0x1E06E200 (.rep 3 7 1) ∧ Reads 0x6080040A (.vadd 16 0 8 0 10) ∧ Reads 0x9A40048A (.vcvt 8 0 0 9 0 10) ∧
    Reads 0x2208C381 (.loopm 1 6 7 0 1) := by decide +kernel

/-- A `vigil` is read with its literal, which has no major (R46, R70). -/
theorem test_decode_vigil : (decodeWord 0xB0000000 0xDEADBEEF).toOption = some (.vigilMx 0 0 tkNone 0xDEADBEEF) := by decide +kernel

/-- Sample encodings (R83): 1.0, −2.5 and the largest finite value in each format. -/
theorem test_sample_encodings : ∀ r ∈ [(fF32, 0x3F800000, 0xC0200000, 0x7F7FFFFF), (fBF16, 0x3F80, 0xC020, 0x7F7F), (fF16, 0x3C00, 0xC100, 0x7BFF),
      (fE5M2, 0x3C, 0xC1, 0x7B), (fE4M3, 0x38, 0xC2, 0x7E)],
    (ofIntF r.1 .rne 1).1 = r.2.1 ∧ (fMul r.1 .rne (ofIntF r.1 .rne (-5)).1 (fDiv r.1 .rne r.2.1 (ofIntF r.1 .rne 2).1).1).1 = r.2.2.1 ∧
      (decodeF r.1 r.2.2.2).isNan = false ∧ decodeF r.1 r.2.2.2 ≠ .inf false := by decide +kernel

/-- Ties and near-ties to BF16 under each mode (R95). -/
theorem test_round_to_bf16 : ∀ r ∈ [(0x3F808000, [0x3F80, 0x3F80, 0x3F80, 0x3F81, 0x3F81]), (0xBF808000, [0xBF80, 0xBF80, 0xBF81, 0xBF80, 0xBF81]),
      (0x3F80A000, [0x3F81, 0x3F80, 0x3F80, 0x3F81, 0x3F81])],
    [RMode.rne, .rtz, .rdn, .rup, .rmm].map (fun m => (fCvt fF32 fBF16 m r.1).1) = r.2 := by decide +kernel

/-- The widened FP4 and FP6 values of R84. -/
theorem test_widened : widen fFP4 0x1 = 0x30 ∧ widen fFP4 0x7 = 0x4C ∧ widen fFP4 0xF = 0xCC ∧ widen fFP4 0x8 = 0x80 ∧ widen fFP6 0x01 = 0x18 ∧
    widen fFP6 0x21 = 0x98 ∧ widen fFP6 0x1F = 0x5E := by decide +kernel

/-- The ordered accumulation of chapter 3: 2³⁰, 2³⁰ + 1, then 1, exactly. -/
theorem test_ordered_accumulation :
    let v := decodeF fBF16
    let a1 := accStep (accOf 0) (v 0x4700) (v 0x4700) false
    let a2 := accStep a1 (v 0x3F80) (v 0x3F80) false
    let a3 := accStep a2 (v 0x4700) (v 0xC700) false
    [accBits a1, accBits a2, accBits a3] = [0x401D8000000000000000, 0x401D8000000200000000, 0x3FFF8000000000000000] := by decide +kernel

/-- One third in FP64 and FP32, rounded to nearest. -/
theorem test_one_third : (fDiv fF64 .rne 0x3FF0000000000000 0x4008000000000000).1 = 0x3FD5555555555555 ∧ (fDiv fF32 .rne 0x3F800000 0x40400000).1 = 0x3EAAAAAB ∧
    (fSqrt fF64 .rne 0x4000000000000000).1 = 0x3FF6A09E667F3BCD := by decide +kernel

/-- CRC-32C of the digits 1 to 9. -/
theorem test_crc : crc32c (([49, 50, 51, 52, 53, 54, 55, 56, 57] : List Nat).map (BitVec.ofNat 8)) = 0xE3069283 := by decide +kernel

/-! ## Single steps -/

/-- Core 0 in split mode with x1 and x2. -/
abbrev two (a b : Nat) : State := st .split .c (xs [(1, a), (2, b)])

theorem test_add_wraps : rdReg (did (.add 3 1 2 0) (two (2 ^ 64 - 1) 2)) 3 = { val := 1, psn := false } := by decide +kernel

theorem test_x0_stays_zero : rdReg (did (.add 0 1 2 0) (two 1 2)) 0 = { val := 0, psn := false } := by decide +kernel

theorem test_source_is_destination : (rdReg (did (.sub 1 2 1 0) (two 5 3)) 1).val = BitVec.ofInt 64 (-2) := by decide +kernel

theorem test_poison_spreads : rdReg (did (.xor 3 1 2 0) (st .split .c (bad 1))) 3 = { val := 0, psn := true } := by decide +kernel

theorem test_shift_amount_mod_64 : (rdReg (did (.sra 3 1 2 0) (two (2 ^ 63) 127)) 3).val = BitVec.ofInt 64 (-1) := by decide +kernel

theorem test_mulhi_signs : (rdReg (did (.mulhiS 3 1 2 0) (two (2 ^ 64 - 1) 2)) 3).val = BitVec.ofInt 64 (-1) ∧
    (rdReg (did (.mulhiU 3 1 2 0) (two (2 ^ 64 - 1) 2)) 3).val = 1 := by decide +kernel

/-- R79: the most negative value by −1, and a division by zero, clamp and set SAT. -/
theorem test_division_clamps :
    (let c := did (.quotS 3 1 2 0) (two (2 ^ 63) (2 ^ 64 - 1))
     (rdReg c 3).val = 0x7FFFFFFFFFFFFFFF ∧ c.a.ustat = 0x80) ∧
    (let c := did (.rmdrS 3 1 2 0) (two (2 ^ 64 - 7) 0)
     (rdReg c 3).val = BitVec.ofInt 64 (-7) ∧ c.a.ustat = 0x80) ∧
    (rdReg (did (.quotS 3 1 2 0) (two (2 ^ 64 - 7) 0)) 3).val = 0x8000000000000000 := by decide +kernel

theorem test_remainder_sign : (rdReg (did (.rmdrS 3 1 2 0) (two (2 ^ 64 - 7) 2)) 3).val = BitVec.ofInt 64 (-1) := by decide +kernel

theorem test_compare_signs : rdFlag (did (.cmpLt 1 1 2 0) (two (2 ^ 64 - 1) 0)).a .c 1 = true ∧
    rdFlag (did (.cmpLtu 1 1 2 0) (two (2 ^ 64 - 1) 0)).a .c 1 = false := by decide +kernel

theorem test_immediate_sign : (rdReg (did (.addi 3 0 0x1FFF) c0) 3).val = BitVec.ofInt 64 (-1) ∧
    (rdReg (did (.himm 3 0x40000) c0) 3).val = 0xFFFFFFFF80000000 := by decide +kernel

/-- R111: a call writes the address of the next word, and goes to A + 4 × OFF22. -/
theorem test_call : (let c := did (.call 0 5) c0
    vget c.a.pc 0 0 = 0x10014 ∧ (rdReg c (linkReg .c).toNat).val = 0x10004) ∧ vget (did (.br 1 5) c0).a.pc 0 0 = 0x10004 := by decide +kernel

/-- R94: FRM takes 0 to 4 and keeps its value for 5 to 7; R98: a one written to USTAT clears its flag. -/
theorem test_frm_and_ustat : (did (.csrwr 3 1 0x001) (two 4 0)).a.frm = 4 ∧ (did (.csrwr 3 1 0x001) (two 5 0)).a.frm = 0 ∧
    (did (.csrwr 3 1 0x000) (st .split .c fun c => arch (fun a => { a with ustat := 0x81 }) (xs [(1, 0x80)] c))).a.ustat = 0x01 := by decide +kernel

/-- A store past the end of the scratchpad takes no effect and raises ILLEGAL_ADDR (R134); without a handler it ends the unit. -/
theorem test_local_store_past_the_end : (did (.stL 52 53 0 3 tkNone) (st .split .s (xs [(53, 0x800000)]))).run = .ending 0x10 0 := by decide +kernel

theorem test_local_store_little_endian : (List.range 4).map (scrByte (did (.stL 52 53 0 1 tkNone) (st .split .s (xs [(52, 0x11223344), (53, 2)])))) =
    [0, 0, 0x44, 0x33] := by decide +kernel

/-- R139: a global store stays in the commit buffer: memory is as it was, and the core's own next load finds the bytes. -/
theorem test_global_store_waits_for_commit :
    let s := next (.stG 52 53 0 2 tkNone) (st .split .s (xs [(52, 0x11223344), (53, 0x20000)]))
    memBytes s.mem 0x20000 4 = [0, 0, 0, 0] ∧ (List.range 4).map (fun k => coreByte s 0 (0x20000 + k)) = [0x44, 0x33, 0x22, 0x11] := by decide +kernel

/-- R318, R319: an undefined word in a unit with a handler: joint mode at its entry, the pc saved, TL set. -/
theorem test_undefined_word_traps :
    let c := did (.undefinedMajor 0xFFFFFFFF) (st .split .c handler)
    c.tr.cause = 1 ∧ c.tr.detail = 0 ∧ c.tr.tval = 0xFFFFFFFF ∧ vget c.tr.epc 0 0 = 0x10000 ∧ c.tr.frame.mode = .split ∧ c.a.tl = true ∧ c.a.mode = .joint := by
  decide +kernel

/-- The same in the handler ends the unit with TRAP_NESTED. -/
theorem test_nested_trap : (did (.undefinedMajor 0xFFFFFFFF) (st .split .c fun c => inHandler (handler c))).run = .ending 0x07 1 := by decide +kernel

/-- The bundle of chapter 2: x5 gains 256, lanes of v10 under m2 are the sum, and the pc moves by 16. -/
theorem test_bundle :
    let f := fun c => arch (fun a => { a with masks := vset a.masks 2 2, pc := Vector.replicate 4 0x20000 })
      (writeV Arch.zero (writeV Arch.zero (xs [(5, 1)] c) 8 (List.replicate 64 { data := 0x3F800000, psn := false })) 9
        (List.replicate 64 { data := 0x40000000, psn := false }))
    let s := st .joint .c f
    let s := { s with mem := memWrite s.mem 0x20000 (natBytes 4 0x0428A100 ++ natBytes 4 0xF0000000 ++ natBytes 4 0x605104AA ++ natBytes 4 0xF0000000),
                      agenda := [{ act := .issue 0 .c, ns := 0, cc := 0 }] }
    let s := modPart s 0 fun p => { p with segs := vset p.segs 0 { placeSeg with base := 0x20000 } }
    let c := getCore (stepped s) 0
    (rdReg c 5).val = 257 ∧ (readV c 10).take 3 = [Lane.zero, { data := 0x40400000, psn := false }, Lane.zero] ∧ vget c.a.pc 0 3 = 0x20010 := by decide +kernel

/-- A loop of bundles as `loopm` runs it: x5 and the FP32 results of the example of chapter 4 after one issue of `loopm`. -/
theorem test_loopm_starts :
    let c := did (.loopm 1 6 7 0 1) (st .joint .c (xs [(6, 3), (7, 0x1100)]))
    (match c.a.seq with | some q => q.n == 3 && q.ii == 2 && q.stages == 2 && q.k == 0 && q.b == 0 | none => false) = true := by decide +kernel

/-- The ends of the memory invariant and the round trip: the conditions are met. -/
theorem witness_StepKeepsMemory : State.reset.memWf = true ∧ (ran 0x02182100).isSome = true := by decide +kernel

theorem witness_EncodeDecodeRoundTrip : (Instr.vigilMx 63 0 tk 0xFFFFFFFF).wf = true ∧ (Instr.add 3 1 2 0).wf = true := by decide +kernel

end Sys2Proof.Tests
end

section
/-! SUPPORT and O54. What package reset leaves, read through the accessors of the state: every core, die, segment, queue and ring is a copy
of one value, and a partition is that of its number. -/

namespace Sys2Proof.Machine

/-- A vector that holds its default everywhere reads as the default, beyond its end too. -/
@[simp] theorem vget_replicate_default {α : Type} (n : Nat) (d : α) (i : Nat) : vget (Vector.replicate n d) d i = d := by
  unfold vget
  split
  · exact Vector.getElem_replicate _
  · rfl

/-- R61: x0 reads as zero in every core. -/
@[simp] theorem rdReg_x0 (c : Core) : rdReg c 0 = Reg.zero := rfl

/-! ## The parts of the package -/

@[simp] theorem getCore_reset (i : Nat) : getCore State.reset i = Core.zero := vget_replicate_default ..

@[simp] theorem getDie_reset (d : Nat) : getDie State.reset d = Die.zero := vget_replicate_default ..

/-- The eight partitions are listed one by one, for each is owned by the function of its number (log 1). -/
@[simp] theorem getPart_reset {p : Nat} (hp : p < 8) : getPart State.reset p = Part.zero p := by
  interval_cases p <;> rfl

theorem memWf_reset : State.reset.memWf = true := rfl

@[simp] theorem byteAt_reset (a : Nat) : byteAt State.reset.mem a = 0 := rfl

/-! ## The tables of a partition -/

@[simp] theorem segOf_reset {p : Nat} (hp : p < 8) (h : BitVec 6) : segOf State.reset p h = Seg.zero := by
  rw [segOf, getPart_reset hp]
  exact vget_replicate_default ..

@[simp] theorem queueOf_zero (p q : Nat) : queueOf (Part.zero p) q = Queue.zero := vget_replicate_default ..

@[simp] theorem ringOf_zero (p r : Nat) : ringOf (Part.zero p) r = Ring.zero := vget_replicate_default ..

@[simp] theorem hostWin_zero (p w : Nat) : vget (Part.zero p).hostWin 0 w = 0 := vget_replicate_default ..

@[simp] theorem peerWin_zero (p w : Nat) : vget (Part.zero p).peerWin 0 w = 0 := vget_replicate_default ..

@[simp] theorem signalOf_zero (p k : Nat) : signalOf (Part.zero p) k = 0 := rfl

@[simp] theorem counterOf_zero (p k : Nat) : counterOf (Part.zero p) k = 0 := rfl

/-- Settles O54: each part of the package is replaced by its reset value, from which the fields are read off. -/
theorem resetValues : Obligations.ResetValues := by
  unfold Obligations.ResetValues
  refine ⟨memWf_reset, byteAt_reset, rfl, rfl, fun i _ => ?core, fun d _ => ?die, fun p hp => ?part⟩
  case core =>
    simp only [getCore_reset, rdReg_x0]
    simp [Core.zero, Arch.zero, Reg.zero]
  case die =>
    rw [getDie_reset]
    simp [Die.zero, Domain.zero]
  case part =>
    simp only [getPart_reset hp, segOf_reset hp, queueOf_zero, ringOf_zero, hostWin_zero, peerWin_zero, signalOf_zero, counterOf_zero]
    simp [Part.zero, Seg.zero, Queue.zero, Ring.zero]

end Sys2Proof.Machine
end

section
/-! O56. Every constructor is read back from its word, or has none. -/

namespace Sys2Proof.Laws.RoundTrip

/-- Nothing is said of a step that has no word. -/
theorem of_noWord {i : Instr} (h : i.hasWord = false) : Statement i :=
  fun hw => absurd (h.symm.trans hw) Bool.false_ne_true

/-- The round trip of every constructor: that of its row, or there is no word. -/
theorem roundTrip (i : Instr) : Statement i := by
  cases i with
  | add => apply add
  | sub => apply sub
  | and => apply and
  | or => apply or
  | xor => apply xor
  | sll => apply sll
  | srl => apply srl
  | sra => apply sra
  | mul => apply mul
  | mulhiS => apply mulhiS
  | mulhiU => apply mulhiU
  | quotS => apply quotS
  | quotU => apply quotU
  | rmdrS => apply rmdrS
  | rmdrU => apply rmdrU
  | addi => apply addi
  | andi => apply andi
  | ori => apply ori
  | xori => apply xori
  | slli => apply slli
  | srli => apply srli
  | srai => apply srai
  | himm => apply himm
  | adpc => apply adpc
  | cmpEq => apply cmpEq
  | cmpNe => apply cmpNe
  | cmpLt => apply cmpLt
  | cmpGe => apply cmpGe
  | cmpLtu => apply cmpLtu
  | cmpGeu => apply cmpGeu
  | flAnd => apply flAnd
  | flOr => apply flOr
  | flXor => apply flXor
  | flAndn => apply flAndn
  | flRd => apply flRd
  | flWr => apply flWr
  | cmpiEq => apply cmpiEq
  | cmpiNe => apply cmpiNe
  | cmpiLt => apply cmpiLt
  | cmpiGe => apply cmpiGe
  | cmpiLtu => apply cmpiLtu
  | cmpiGeu => apply cmpiGeu
  | br => apply br
  | brn => apply brn
  | call => apply call
  | jmpr => apply jmpr
  | rep => apply rep
  | loopO => apply loopO
  | loopI => apply loopI
  | lpclrO => apply lpclrO
  | lpclrI => apply lpclrI
  | loopm => apply loopm
  | yset => apply yset
  | yclr => apply yclr
  | ywait => apply ywait
  | ywaitc => apply ywaitc
  | ytas => apply ytas
  | yrd => apply yrd
  | tkpush => apply tkpush
  | tkwait => apply tkwait
  | tkcnt => apply tkcnt
  | rset => apply rset
  | rnext => apply rnext
  | rsteal => apply rsteal
  | rstat => apply rstat
  | faddF64 => apply faddF64
  | fsubF64 => apply fsubF64
  | fmulF64 => apply fmulF64
  | fdivF64 => apply fdivF64
  | fsqrtF64 => apply fsqrtF64
  | fminF64 => apply fminF64
  | fmaxF64 => apply fmaxF64
  | fmacF64 => apply fmacF64
  | fcmpEqF64 => apply fcmpEqF64
  | fcmpLtF64 => apply fcmpLtF64
  | fcmpLeF64 => apply fcmpLeF64
  | scvtF64F32 => apply scvtF64F32
  | scvtF64I64 => apply scvtF64I64
  | scvtF64Ui64 => apply scvtF64Ui64
  | scvtI64F64 => apply scvtI64F64
  | scvtUi64F64 => apply scvtUi64F64
  | scvtI32F64 => apply scvtI32F64
  | fkindF64 => apply fkindF64
  | fabsF64 => apply fabsF64
  | fnegF64 => apply fnegF64
  | fmsgnF64 => apply fmsgnF64
  | faddF32 => apply faddF32
  | fsubF32 => apply fsubF32
  | fmulF32 => apply fmulF32
  | fdivF32 => apply fdivF32
  | fsqrtF32 => apply fsqrtF32
  | fminF32 => apply fminF32
  | fmaxF32 => apply fmaxF32
  | fmacF32 => apply fmacF32
  | fcmpEqF32 => apply fcmpEqF32
  | fcmpLtF32 => apply fcmpLtF32
  | fcmpLeF32 => apply fcmpLeF32
  | scvtF32F64 => apply scvtF32F64
  | scvtF32I64 => apply scvtF32I64
  | scvtF32Ui64 => apply scvtF32Ui64
  | scvtI64F32 => apply scvtI64F32
  | scvtUi64F32 => apply scvtUi64F32
  | scvtI32F32 => apply scvtI32F32
  | fkindF32 => apply fkindF32
  | fabsF32 => apply fabsF32
  | fnegF32 => apply fnegF32
  | fmsgnF32 => apply fmsgnF32
  | csrrd => apply csrrd
  | csrwr => apply csrwr
  | csrset => apply csrset
  | csrclr => apply csrclr
  | fork => apply fork
  | join => apply join
  | commit => apply commit
  | commitD => apply commitD
  | replay => apply replay
  | pset => apply pset
  | pclr => apply pclr
  | ptest => apply ptest
  | hinit => apply hinit
  | harrive => apply harrive
  | hwait => apply hwait
  | hstat => apply hstat
  | chainKick => apply chainKick
  | chainStop => apply chainStop
  | chainStat => apply chainStat
  | qpost => apply qpost
  | sigadd => apply sigadd
  | ringpost => apply ringpost
  | ares => apply ares
  | aresh => apply aresh
  | jeos => apply jeos
  | fenceCore => apply fenceCore
  | fenceDie => apply fenceDie
  | fencePkg => apply fencePkg
  | fenceSys => apply fenceSys
  | endOp => apply endOp
  | ldG => apply ldG
  | ldL => apply ldL
  | vldG => apply vldG
  | vldL => apply vldL
  | gath => apply gath
  | sbaseL => apply sbaseL
  | sdim0L => apply sdim0L
  | sdim1L => apply sdim1L
  | sdim2L => apply sdim2L
  | smodeL => apply smodeL
  | sbindL => apply sbindL
  | sunbindL => apply sunbindL
  | sstartL => apply sstartL
  | sstopL => apply sstopL
  | sseekL => apply sseekL
  | sposL => apply sposL
  | markL => apply markL
  | cpin => apply cpin
  | cpin2d => apply cpin2d
  | cpinT => apply cpinT
  | prefG => apply prefG
  | ssize => apply ssize
  | smap => apply smap
  | sunmap => apply sunmap
  | sflush => apply sflush
  | sinval => apply sinval
  | vadd => apply vadd
  | vsub => apply vsub
  | vmul => apply vmul
  | vfma => apply vfma
  | vfms => apply vfms
  | vfnma => apply vfnma
  | vmin => apply vmin
  | vmax => apply vmax
  | vdiv => apply vdiv
  | vand => apply vand
  | vor => apply vor
  | vxor => apply vxor
  | vsll => apply vsll
  | vsrl => apply vsrl
  | vsra => apply vsra
  | vadds => apply vadds
  | vsubs => apply vsubs
  | vmulh => apply vmulh
  | vabsd => apply vabsd
  | vavg => apply vavg
  | vcmpeq => apply vcmpeq
  | vcmplt => apply vcmplt
  | vcmple => apply vcmple
  | vcmpne => apply vcmpne
  | vsel => apply vsel
  | vperm => apply vperm
  | vzipLo => apply vzipLo
  | vzipHi => apply vzipHi
  | vuzpEv => apply vuzpEv
  | vuzpOd => apply vuzpOd
  | vslide => apply vslide
  | vabs => apply vabs
  | vneg => apply vneg
  | vsqrt => apply vsqrt
  | vrecip => apply vrecip
  | vrsqrt => apply vrsqrt
  | vnot => apply vnot
  | vclz => apply vclz
  | vpopc => apply vpopc
  | vrint => apply vrint
  | vclass => apply vclass
  | vmov => apply vmov
  | vcvt => apply vcvt
  | vredSum => apply vredSum
  | vredMin => apply vredMin
  | vredMax => apply vredMax
  | vredAnd => apply vredAnd
  | vredOr => apply vredOr
  | vredXor => apply vredXor
  | vredSumw => apply vredSumw
  | vscanSum => apply vscanSum
  | vscanMin => apply vscanMin
  | vscanMax => apply vscanMax
  | mand => apply mand
  | mor => apply mor
  | mxor => apply mxor
  | mandn => apply mandn
  | mlen => apply mlen
  | mpopc => apply mpopc
  | mfirst => apply mfirst
  | mtov => apply mtov
  | vsplat => apply vsplat
  | vext => apply vext
  | vins => apply vins
  | mxnest => apply mxnest
  | mxgo => apply mxgo
  | mxwait => apply mxwait
  | mxstat => apply mxstat
  | mxdrain => apply mxdrain
  | mxzero => apply mxzero
  | mxmma => apply mxmma
  | tdef => apply tdef
  | tvalid => apply tvalid
  | tinval => apply tinval
  | tstat => apply tstat
  | twait => apply twait
  | walkAdd => apply walkAdd
  | walkMin => apply walkMin
  | walkMax => apply walkMax
  | walkAnd => apply walkAnd
  | walkOr => apply walkOr
  | walkXor => apply walkXor
  | walkPopc => apply walkPopc
  | walkHist => apply walkHist
  | vview => apply vview
  | aview => apply aview
  | vigilMx => apply vigilMx
  | vigilVec => apply vigilVec
  | vigilRd => apply vigilRd
  | amdef => apply amdef
  | aset => apply aset
  | astage => apply astage
  | aerr => apply aerr
  | adec => apply adec
  | aget => apply aget
  | aput => apply aput
  | astat => apply astat
  | aoff => apply aoff
  | await => apply await
  | shdecl => apply shdecl
  | apxb => apply apxb
  | apxe => apply apxe
  | shinv => apply shinv
  | shwld => apply shwld
  | shwst => apply shwst
  | shstat => apply shstat
  | shmean => apply shmean
  | stG => apply stG
  | stL => apply stL
  | vstG => apply vstG
  | vstL => apply vstL
  | scat => apply scat
  | sbaseS => apply sbaseS
  | sdim0S => apply sdim0S
  | sdim1S => apply sdim1S
  | sdim2S => apply sdim2S
  | smodeS => apply smodeS
  | sbindS => apply sbindS
  | sunbindS => apply sunbindS
  | sstartS => apply sstartS
  | sstopS => apply sstopS
  | sseekS => apply sseekS
  | sposS => apply sposS
  | markS => apply markS
  | cpout => apply cpout
  | cpout2d => apply cpout2d
  | cpoutT => apply cpoutT
  | amoAdd => apply amoAdd
  | amoAnd => apply amoAnd
  | amoOr => apply amoOr
  | amoXor => apply amoXor
  | amoMax => apply amoMax
  | amoMaxu => apply amoMaxu
  | amoSwap => apply amoSwap
  | amoCasD => apply amoCasD
  | amoCasQ => apply amoCasQ
  | tret => apply tret
  | tretN => apply tretN
  | ucall => apply ucall
  | svc => apply svc
  | tlbinv => apply tlbinv
  | scsrwr => apply scsrwr
  | segset => apply segset
  | segclr => apply segclr
  | ctxout => apply ctxout
  | ctxin => apply ctxin
  | asset => apply asset
  | pinfo => apply pinfo
  | pscrub => apply pscrub
  | errrd => apply errrd
  | hrmark => apply hrmark
  | hint => apply hint
  | emulMajor7c => apply emulMajor7c
  | emulMajor7d => apply emulMajor7d
  | emulMajor7e => apply emulMajor7e
  | undefinedMajor => apply undefinedMajor
  | _ => exact of_noWord rfl

end Sys2Proof.Laws.RoundTrip

namespace Sys2Proof.Machine

/-- Settles O56, row by row. -/
theorem encodeDecodeRoundTrip : Obligations.EncodeDecodeRoundTrip := Laws.RoundTrip.roundTrip

end Sys2Proof.Machine
end

section
/-! O11 and O53. What a taken transfer checks, and the registers that are hardwired. -/

namespace Sys2Proof.Machine

/-! ## The segments of a partition -/

/-- No segment of a partition holds an address. -/
theorem findSeg_none {s : State} {p : Nat} {t : Word} (h : ∀ k : BitVec 6, inSeg (segOf s p k) t = false) :
    findSeg (getPart s p).segs t = none := by
  refine List.find?_eq_none.mpr fun k hk => ?_
  have hk := List.mem_range.mp hk
  have := h (BitVec.ofNat 6 k)
  rw [segOf, BitVec.toNat_ofNat, Nat.mod_eq_of_lt hk] at this
  simp [this]

/-- The first segment of a partition that holds an address. -/
theorem findSeg_first {s : State} {p : Nat} {t : Word} {h : BitVec 6} (hh : inSeg (segOf s p h) t = true)
    (hk : ∀ k : BitVec 6, k.toNat < h.toNat → inSeg (segOf s p k) t = false) : findSeg (getPart s p).segs t = some h.toNat := by
  refine List.find?_range_eq_some.mpr ⟨hh, List.mem_range.mpr h.isLt, fun j hj => ?_⟩
  have hj64 : j < 64 := hj.trans h.isLt
  have := hk (BitVec.ofNat 6 j) (by rwa [BitVec.toNat_ofNat, Nat.mod_eq_of_lt hj64])
  rw [segOf, BitVec.toNat_ofNat, Nat.mod_eq_of_lt hj64] at this
  simp [this]

/-! ## A taken transfer (R35, R37, R312) -/

/-- The alignment of code in a mode: bundles or words (R36). -/
def codeAlign : Mode → Nat
  | .joint => 16
  | .split => 4

/-- A target that is not aligned. -/
theorem checkTarget_misaligned {s : State} {c : Core} {m : Mode} {t : Word} (hlt : t.toNat < 2 ^ 56) (hal : t.toNat % codeAlign m ≠ 0) :
    checkTarget s c m t = .error (mkTrap 0x14 0 t) := by
  unfold checkTarget
  rw [if_neg (Nat.not_le.mpr hlt)]
  cases m <;> exact if_pos hal

/-- An aligned target in the current segment. -/
theorem checkTarget_cur {s : State} {c : Core} {m : Mode} {t : Word} (hlt : t.toNat < 2 ^ 56) (hal : t.toNat % codeAlign m = 0)
    (hin : inSeg (curSeg s c) t = true) : checkTarget s c m t = .ok c.a.segCur := by
  unfold checkTarget
  rw [if_neg (Nat.not_le.mpr hlt)]
  cases m <;> exact (if_neg (not_not_intro hal)).trans (if_pos hin)

/-- An aligned target in no segment. -/
theorem checkTarget_noSeg {s : State} {c : Core} {m : Mode} {t : Word} (hlt : t.toNat < 2 ^ 56) (hal : t.toNat % codeAlign m = 0)
    (hin : inSeg (curSeg s c) t = false) (hf : findSeg (getPart s (partOf c)).segs t = none) :
    checkTarget s c m t = .error (mkTrap 0x39 0 t) := by
  unfold checkTarget
  rw [if_neg (Nat.not_le.mpr hlt)]
  cases m <;> exact (if_neg (not_not_intro hal)).trans (by simp only [hin, hf, Bool.false_eq_true, if_false])

/-- An aligned target in another segment. -/
theorem checkTarget_otherSeg {s : State} {c : Core} {m : Mode} {t : Word} {h : BitVec 6} (hlt : t.toNat < 2 ^ 56)
    (hal : t.toNat % codeAlign m = 0) (hin : inSeg (curSeg s c) t = false) (hf : findSeg (getPart s (partOf c)).segs t = some h.toNat) :
    checkTarget s c m t =
      if m = .split then .error (mkTrap 0x39 3 t)
      else if (!((curSeg s c).v && (curSeg s c).sys) && (segOf s (partOf c) h).sys &&
          t != (segOf s (partOf c) h).base + (segOf s (partOf c) h).gate.setWidth 64) = true then .error (mkTrap 0x39 1 t)
      else .ok h := by
  have hh : BitVec.ofNat 6 h.toNat = h := by simp
  unfold checkTarget
  rw [if_neg (Nat.not_le.mpr hlt)]
  cases m <;> exact (if_neg (not_not_intro hal)).trans (by simp only [hin, hf, hh, Bool.false_eq_true, if_false])

/-- Settles O11: the checks in their order. -/
theorem transferChecks : Obligations.TransferChecks := by
  unfold Obligations.TransferChecks
  intro s c m t
  refine ⟨fun h => if_pos h, fun hlt hal => checkTarget_misaligned hlt hal, fun hlt hal => ⟨fun hin => checkTarget_cur hlt hal hin,
    fun hin hno => checkTarget_noSeg hlt hal hin (findSeg_none hno),
    fun h hin hh hk => checkTarget_otherSeg hlt hal hin (findSeg_first hh hk)⟩⟩

/-! ## Hardwired registers (R61) -/

@[simp] theorem rdFlag_f0 (a : Arch) (cl : Cluster) : rdFlag a cl 0 = true := rfl
@[simp] theorem maskBit_m0 (a : Arch) (i : Nat) : maskBit a 0 i = true := rfl
@[simp] theorem wrReg_x0 (c : Core) (r : Reg) : wrReg c 0 r = c := rfl
@[simp] theorem setX_x0 (e : Env) (s : State) (v : Word) (b : Bool) : setX e s 0 v b = s := putCore_getCore s e.ci
@[simp] theorem setFlag_f0 (e : Env) (s : State) (b : Bool) : setFlag e s 0 b = s := putCore_getCore s e.ci
@[simp] theorem setMask_m0 (s : State) (i : Nat) (v : BitVec 256) : setMask s i 0 v = s := rfl

/-- A register read after a write of it, in the bank that the write went to. -/
theorem rdReg_wrRegIn (c : Core) {k : Nat} (hk : k < 64) (h0 : k ≠ 0) (r : Reg) : rdReg (wrRegIn (inBank c.a k) c k r) k = r := by
  unfold wrRegIn
  rw [if_neg h0]
  cases hb : inBank c.a k with
  | true =>
    have hlt : k - 28 < 4 := by
      simp only [inBank, Bool.and_eq_true, decide_eq_true_eq] at hb
      omega
    simp [rdReg, h0, hb, hlt]
  | false =>
    have hb' : inBank { c.a with regs := vset c.a.regs k r } k = false := hb
    simp [rdReg, h0, hb', hk]

/-- A word that issues alone reads the core as it stands. -/
theorem envOf_rd_alone {s : State} (h : s.bundle = none) : (envOf s).rd = getCore s s.focusCore := by
  simp only [envOf, h]

/-- The registers that a word reads are those of its core, whatever its cluster. -/
theorem envOf_x_focusCl (s : State) (cl : Cluster) (k : BitVec 6) : (envOf { s with focusCl := cl }).x k = rdReg (envOf s).rd k.toNat := rfl

/-- A register that a word has written, as the next word reads it. -/
theorem rdReg_setX {s : State} {k : BitVec 6} (hk : k ≠ 0) (hb : s.bundle = none) (hci : s.focusCore < 72) (v : Word) (b : Bool) :
    rdReg (envOf (setX (envOf s) s k v b)).rd k.toNat = { val := v, psn := b } := by
  have hk0 : k.toNat ≠ 0 := fun h => hk (BitVec.eq_of_toNat_eq h)
  have ht : (setX (envOf s) s k v b).bundle = none := hb
  rw [envOf_rd_alone ht]
  unfold setX
  rw [modCore_focusCore, envOf_ci, getCore_modCore_self _ _ hci, envOf_rd_alone hb]
  exact rdReg_wrRegIn _ k.isLt hk0 _

/-- Settles O53: a write is seen by the next read of any cluster, for alone each word reads the core as it stands. -/
theorem hardwiredRegisters : Obligations.HardwiredRegisters := by
  unfold Obligations.HardwiredRegisters
  intro s e c a cl i v m b
  refine ⟨rdReg_x0 c, rdFlag_f0 .., maskBit_m0 .., setX_x0 .., setFlag_f0 .., setMask_m0 .., wrReg_x0 .., ?_⟩
  intro k other hk hb hci _
  rw [envOf_x_focusCl, envOf_x_focusCl, envOf_rd_alone hb, rdReg_setX hk hb hci]
  exact ⟨rfl, rfl⟩

end Sys2Proof.Machine
end

section
/-! O58. Words written out, read through the round trip. -/

namespace Sys2Proof.Machine
/-- A word that an instruction encodes to reads as that instruction, whatever follows it. -/
theorem decodeWord_of_encode {i : Instr} {w : Word32} (hw : i.hasWord = true) (hf : i.wf = true) (he : encode i = [encodeWord i])
    (h : encodeWord i = w) (nxt : Word32) : decodeWord w nxt = .ok i := by
  have := encodeDecodeRoundTrip i hw hf nxt
  rw [he, h] at this
  exact this

/-- Settles O58: the accepted words are encodings, which the round trip reads back; the refused ones fail a check. -/
theorem encodingWords : Obligations.EncodingWords := by
  unfold Obligations.EncodingWords
  have read := fun {i w} hw hf he h => decodeWord_of_encode (i := i) (w := w) hw hf he h 0
  refine ⟨read rfl rfl rfl rfl, read rfl rfl rfl rfl, read rfl rfl rfl rfl, read rfl rfl rfl rfl, read rfl rfl rfl rfl, read rfl rfl rfl rfl,
    read rfl rfl rfl rfl, read rfl rfl rfl rfl, read rfl rfl rfl rfl, read rfl rfl rfl rfl, read rfl rfl rfl rfl, ?_⟩
  decide +kernel

end Sys2Proof.Machine
end

section
/-! O12. `rep`, the hardware loops and the start of the sequencer. -/

namespace Sys2Proof.Machine

/-! ## Loops (R67, R114, R117) -/

/-- A meaning that consumes one operand, which is not poisoned. -/
theorem consume_one {e : Env} {a : BitVec 6} {k : Nat} (ha : (e.x a).psn = false) (r : Res) : consume e [(a, k)] r = r :=
  consume_clean (by simp [poisonTrap, ha])

/-- A meaning that consumes two operands, neither of them poisoned. -/
theorem consume_two {e : Env} {a b : BitVec 6} {j k : Nat} (ha : (e.x a).psn = false) (hb : (e.x b).psn = false) (r : Res) :
    consume e [(a, j), (b, k)] r = r :=
  consume_clean (by simp [poisonTrap, ha, hb])

/-- The count of a loop (R114). -/
def loopCount (e : Env) (a : BitVec 6) : Nat := (e.x a).val.toNat % 2 ^ 32

/-- The state with a loop level written. -/
def putLoop (s : State) (ci k : Nat) (l : LoopLv) : State := modArch s ci fun a => { a with loops := vset a.loops k l }

/-- A loop of one pass or more starts at the next word. -/
theorem startLoop_passes {e : Env} {s : State} {lv : Nat} {a : BitVec 6} {i : BitVec 13} (ha : (e.x a).psn = false) (hn : loopCount e a ≠ 0) :
    startLoop e s lv a i = .done (putLoop s e.ci (2 * cnum e.cl + lv)
      { start := e.addr + 4, last := e.addr + BitVec.ofNat 64 (4 * i.toNat), count := loopCount e a, active := true }) :=
  (consume_one ha _).trans (if_neg hn)

/-- A loop of no pass is skipped. -/
theorem startLoop_skipped {e : Env} {s : State} {lv : Nat} {a : BitVec 6} {i : BitVec 13} (ha : (e.x a).psn = false) (hn : loopCount e a = 0) :
    startLoop e s lv a i = .set (modCore (putLoop s e.ci (2 * cnum e.cl + lv)
      { vget e.rd.a.loops LoopLv.zero (2 * cnum e.cl + lv) with active := false }) e.ci
      fun c => setPc c (cnum e.cl) (e.addr + BitVec.ofNat 64 (4 + 4 * i.toNat))) :=
  (consume_one ha _).trans (if_pos hn)

/-- `loopm` with a count of zero goes on behind its body. -/
theorem startSeq_skipped {e : Env} {s : State} {i a b : BitVec 6} {st : BitVec 4} (hn : loopCount e a = 0) :
    startSeq e s i a b st = .set (modCore s e.ci fun c => setPcs c (e.addr + BitVec.ofNat 64 (16 + 16 * (i.toNat + 1)))) := by
  rw [BitVec.ofNat_add, ← BitVec.add_assoc]
  exact if_pos hn

/-- `loopm` starts the sequencer at the bundle after it. -/
theorem startSeq_runs {e : Env} {s : State} {i a b : BitVec 6} {st : BitVec 4} (hn : loopCount e a ≠ 0) :
    startSeq e s i a b st = .set (modCore s e.ci fun c => setPcs { c with a := { c.a with
      seq := some { k := 0, b := 0, n := loopCount e a, stages := st.toNat + 1, ii := i.toNat + 1, map := (e.x b).val, body := e.addr + 16,
                    buf := fetchBody s e.ci (e.addr + 16) (i.toNat + 1) } } } (e.addr + 16)) :=
  if_neg hn

/-- The loop buffer holds each word of the body that can be fetched. -/
theorem fetchBody_get {s : State} {ci : Nat} {body : Word} {ii j : Nat} {w : Word32} (hj : j < 4 * ii)
    (hw : fetchWord s ci (body + BitVec.ofNat 64 (4 * j)) = .ok w) : (fetchBody s ci body ii)[j]? = some (some w) := by
  rw [fetchBody, List.getElem?_map, List.getElem?_range hj, Option.map_some, hw]

/-- A word with neither guard nor tokens that completes. -/
theorem exec_done {i : Instr} {dsts : List (BitVec 6)} {s t : State} {sem : Env → State → Res}
    (hi : exec i s = issueI (encodeNat i) dsts s sem) (h : MayIssue (encodeNat i) dsts 0 tkNone s)
    (hs : sem (issueEnv tkNone s) s = .done t) : exec i s = .next (goOn tkNone s t) :=
  hi.trans (issue_done h (by rw [issued_tkNone, hs]))

/-- A word with neither guard nor tokens that places the program counters itself. -/
theorem exec_set {i : Instr} {dsts : List (BitVec 6)} {s t : State} {sem : Env → State → Res}
    (hi : exec i s = issueI (encodeNat i) dsts s sem) (h : MayIssue (encodeNat i) dsts 0 tkNone s)
    (hs : sem (issueEnv tkNone s) s = .set t) : exec i s = .next (goSet s t) :=
  hi.trans (issue_set h (by rw [issued_tkNone, hs]))

/-- `loopm` under a true guard outside a handler, with operands that are not poisoned. -/
theorem exec_loopm_started {s t : State} {i a b : BitVec 6} {g : BitVec 3} {st : BitVec 4} (h : MayIssue (encodeNat (.loopm i a b g st)) [] 0 tkNone s)
    (htl : (envOf s).rd.a.tl = false) (huh : (envOf s).rd.a.uh = false) (hg : rdFlag (envOf s).rd.a s.focusCl g.toNat = true)
    (ha : ((issueEnv tkNone s).x a).psn = false) (hb : ((issueEnv tkNone s).x b).psn = false)
    (ht : startSeq (issueEnv tkNone s) s i a b st = .set t) : exec (.loopm i a b g st) s = .next (goSet s t) := by
  refine exec_set (exec_loopm i a b g st s) h ?_
  simp only [issueEnv_rd, issueEnv_cl, hg, notInHandler, htl, huh, Bool.not_true, Bool.or_self, Bool.false_eq_true, if_false]
  exact (consume_two ha hb _).trans ht

/-- Settles O12: each word ends as its meaning says. -/
theorem loopResults : Obligations.LoopResults := by
  unfold Obligations.LoopResults
  intro s a b i6 i n f sf g
  simp only [List.forall_mem_cons, List.not_mem_nil, false_imp_iff, implies_true, and_true]
  refine ⟨fun h => exec_set (exec_rep n f sf s) h rfl, ⟨fun h ha => ?outer, fun h ha => ?inner⟩, ⟨fun h => exec_done (exec_lpclrO s) h rfl,
    fun h => exec_done (exec_lpclrI s) h rfl⟩,
    fun h => ⟨fun hg => ?squashed, fun htl huh hg ha hb => ?started⟩⟩
  case outer => exact ⟨fun hn => exec_done (exec_loopO a i s) h (startLoop_passes ha hn),
      fun hn => exec_set (exec_loopO a i s) h (startLoop_skipped ha hn)⟩
  case inner => exact ⟨fun hn => exec_done (exec_loopI a i s) h (startLoop_passes ha hn),
      fun hn => exec_set (exec_loopI a i s) h (startLoop_skipped ha hn)⟩
  case squashed => exact exec_set (exec_loopm i6 a b g sf s) h (if_pos (congrArg not hg))
  case started =>
    exact ⟨fun hn => ⟨_, exec_loopm_started h htl huh hg ha hb (startSeq_runs hn), fun j hj w => fetchBody_get hj⟩,
      fun hn => exec_loopm_started h htl huh hg ha hb (startSeq_skipped hn)⟩

end Sys2Proof.Machine
end

section
/-! SUPPORT for O52. Every instruction that is issued as a word is one issue, with the fields that it names. -/

namespace Sys2Proof.Machine

/-! ## Every word is an issue (R39, R45, R51) -/

/-- The issue of a word with the fields that its instruction names. -/
def issueAs (w : Nat) (z : IssueFields) (s : State) (sem : Env → State → Res) : Host.Outcome State Fault Refusal :=
  issue w z.dsts z.guard z.tk s sem

/-- The state in which a word issues: a `mark` that may issue has been reached (R143). -/
def reached (i : Instr) (s : State) : State :=
  match i with
  | .markL tk | .markS tk => reachMark s (encodeNat i) tk
  | _ => s

/-- Every instruction that is issued as a word is an issue with the fields that it names. -/
theorem exec_eq_issue {i : Instr} {z : IssueFields} (h : issueFields i = some z) (s : State) :
    ∃ sem, exec i s = issueAs (encodeNat i) z (reached i s) sem := by
  delta exec
  cases i <;> cases h <;> exact ⟨_, rfl⟩

/-- A `mark` that may not issue has not been reached. -/
theorem reachMark_notIssued {s : State} {w : Nat} {tk : Tk} (hn : ¬ MayIssue w [] 0 tk s) : reachMark s w tk = s :=
  if_neg fun ⟨_, ht, hp, hq⟩ => hn ⟨ht, hp, hq, rfl⟩

/-- A word that may not issue issues in the state as it is. -/
theorem reached_notIssued {i : Instr} {z : IssueFields} {s : State} (h : issueFields i = some z)
    (hn : ¬ MayIssue (encodeNat i) z.dsts z.guard z.tk s) : reached i s = s := by
  unfold reached
  split
  · cases h; exact reachMark_notIssued hn
  · cases h; exact reachMark_notIssued hn
  · rfl

/-- A word that may not issue ends without its meaning. -/
theorem exec_notIssued {i : Instr} {z : IssueFields} {s : State} (h : issueFields i = some z)
    (hn : ¬ MayIssue (encodeNat i) z.dsts z.guard z.tk s) : ∃ sem, exec i s = issueAs (encodeNat i) z s sem := by
  obtain ⟨sem, hs⟩ := exec_eq_issue h s
  rw [reached_notIssued h hn] at hs
  exact ⟨sem, hs⟩

end Sys2Proof.Machine
end

section
/-! O52. The checks around every issue. -/

namespace Sys2Proof.Machine

/-! ## The checks of an issue (R51, R53, R54, R59, R313) -/

/-- A word with tokens at hand whose guard flag reads 0: the program counter alone moves (R39). -/
theorem issue_guardOff {w : Nat} {dsts : List (BitVec 6)} {g : BitVec 3} {tk : Tk} {s : State} {sem : Env → State → Res}
    (h : issueTrap w dsts s (envOf s) = none)
    (ht : (popReady (envOf s).rd.a (popPair s.focusCl tk.tkin.toNat) && pushReady (envOf s).rd.a (pushPair s.focusCl tk.tkout.toNat)) = true)
    (hg : rdFlag (envOf s).rd.a s.focusCl g.toNat = false) : issue w dsts g tk s sem = .next (goLater s s) := by
  simp only [issue, h, envOf_cl, ht, hg, Bool.not_true, Bool.not_false, Bool.false_eq_true, if_false, if_true]
  cases hb : s.bundle <;> simp [conclude, goLater, hb]

/-- Words without tokens complete where their effect leaves them. -/
@[simp] theorem goOn_tkNone (s t : State) : goOn tkNone s t = goLater s t :=
  congrArg (goLater s) (modArch_id t s.focusCore)

/-- The check of a word without destinations is that of its slot. -/
theorem issueTrap_nil (w : Nat) (s : State) (e : Env) : issueTrap w [] s e = slotTrap w s e := by
  unfold issueTrap
  cases slotTrap w s e <;> simp

/-- A major that no feature switches (R390). -/
theorem fenOf_none {maj : Nat} (sub : Nat) (h : maj ∉ [0x59, 0x5A, 0x56, 0x28]) : fenOf maj sub = none := by
  simp only [List.mem_cons, List.not_mem_nil, or_false, not_or] at h
  simp [fenOf, h]

/-- A word that passes the checks of its slot, of a major that no feature switches. -/
theorem slotTrap_none {w : Nat} {s : State} {e : Env} (h : preDecode (majNat w) (subNat w) e.cl e.rd.a.mode (curSeg s e.rd) = none)
    (hf : majNat w ∉ [0x59, 0x5A, 0x56, 0x28]) : slotTrap w s e = none := by
  simp [slotTrap, h, fenOf_none _ hf]

/-- A word that fails a check of its slot, of a major other than that of `join`. -/
theorem slotTrap_preDecode {w cause d : Nat} {s : State} {e : Env}
    (h : preDecode (majNat w) (subNat w) e.cl e.rd.a.mode (curSeg s e.rd) = some (cause, d)) (hj : majNat w ≠ 0x19) :
    slotTrap w s e = some (mkTrap cause d (BitVec.ofNat 64 w)) := by
  simp [slotTrap, h, hj]

/-- HINT words, EMUL words and undefined majors pass the checks of every slot. -/
theorem slotTrap_unchecked {w : Nat} (h : majorUndefined (majNat w) = true ∨ 0x78 ≤ majNat w) (s : State) (e : Env) : slotTrap w s e = none := by
  refine slotTrap_none (if_pos h) fun hf => ?_
  simp only [List.mem_cons, List.not_mem_nil, or_false] at hf
  rcases hf with hf | hf | hf | hf <;> rw [hf] at h <;> exact absurd h (by decide)

/-- HINT words, EMUL words and undefined majors issue in every state. -/
theorem mayIssue_unchecked {w : Nat} (h : majorUndefined (majNat w) = true ∨ 0x78 ≤ majNat w) (s : State) : MayIssue w [] 0 tkNone s :=
  ⟨(issueTrap_nil ..).trans (slotTrap_unchecked h ..), rfl, rfl, rfl⟩

/-- A word with neither guard nor tokens that raises a cause. -/
theorem exec_raise {i : Instr} {dsts : List (BitVec 6)} {s : State} {x : Trap} {sem : Env → State → Res}
    (hi : exec i s = issueI (encodeNat i) dsts s sem) (h : MayIssue (encodeNat i) dsts 0 tkNone s)
    (hs : sem (issueEnv tkNone s) s = .raise x) : exec i s = .next (goTrap s x) :=
  hi.trans (issue_raise h (by rw [issued_tkNone, hs]))

/-- The majors of the system words are defined (R48). -/
theorem majorUndefined_system {v : Nat} (h0 : 0x70 ≤ v) (h1 : v ≤ 0x74) : majorUndefined v = false := by
  interval_cases v <;> rfl

/-- A system word goes through the checks of its slot. -/
theorem system_checked {v : Nat} (h0 : 0x70 ≤ v) (h1 : v ≤ 0x74) : ¬ (majorUndefined v = true ∨ 0x78 ≤ v) := by
  rintro (h | h)
  · rw [majorUndefined_system h0 h1] at h
    cases h
  · omega

/-- No feature switches the system words (R390). -/
theorem system_unswitched {v : Nat} (h : 0x70 ≤ v) : v ∉ [0x59, 0x5A, 0x56, 0x28] := by
  simp only [List.mem_cons, List.not_mem_nil, or_false]
  omega

/-- A system word outside a system segment (R313). -/
theorem preDecode_noSys {v sub : Nat} {cl : Cluster} {m : Mode} {g : Seg} (h0 : 0x70 ≤ v) (h1 : v ≤ 0x74) (hg : g.v = false ∨ g.sys = false) :
    preDecode v sub cl m g = some (0x38, 0) := by
  have hs : (g.v && g.sys) = false := Bool.and_eq_false_iff.mpr hg
  unfold preDecode
  rw [if_neg (system_checked h0 h1), if_pos ⟨h0, by omega, by rw [hs]; rfl⟩]

/-- A system word that needs FW in a system segment without it (R313). -/
theorem preDecode_noFw {v sub : Nat} {cl : Cluster} {m : Mode} {g : Seg} (h0 : 0x72 ≤ v) (h1 : v ≤ 0x74) (hv : ¬ (v = 0x73 ∧ sub = 3))
    (hg : g.v = true) (hs : g.sys = true) (hf : g.fw = false) : preDecode v sub cl m g = some (0x38, 1) := by
  unfold preDecode
  rw [if_neg (system_checked (by omega) h1), if_neg (by simp [hg, hs]), if_pos ⟨by omega, by rw [hf]; rfl⟩]

/-- A system word of C where its segment lets it issue. -/
theorem preDecode_system {v sub : Nat} {m : Mode} {g : Seg} (h0 : 0x70 ≤ v) (h1 : v ≤ 0x74) (hg : g.v = true) (hs : g.sys = true)
    (hf : g.fw = true ∨ v ≤ 0x71 ∨ (v = 0x73 ∧ sub = 3)) : preDecode v sub .c m g = none := by
  unfold preDecode
  rw [if_neg (system_checked h0 h1), if_neg (by simp [hg, hs]), if_neg (by
    rintro ⟨hv, hn⟩
    rcases hf with hf | hf | hf
    · simp [hf] at hn
    · omega
    · omega)]
  cases m <;> interval_cases v <;> rfl

/-- The subfunction of a word of format A (R38). -/
theorem subNat_system {w : Nat} (h0 : 0x70 ≤ majNat w) : subNat w = w % 16 := by
  have : isEFormat (majNat w) = false := by
    simp only [isEFormat, Bool.or_eq_false_iff, Bool.and_eq_false_iff, beq_eq_false_iff_ne, decide_eq_false_iff_not]
    omega
  simp [subNat, this]

/-- A register outside the window of its cluster is no destination in split mode (R59). -/
theorem inWindow_false {cl : Cluster} {k : BitVec 6} (h0 : k ≠ 0) (hk : ¬ (match cl with
    | .c => k.toNat ≤ 31
    | .l => 32 ≤ k.toNat ∧ k.toNat ≤ 43
    | .k => 44 ≤ k.toNat ∧ k.toNat ≤ 51
    | .s => 52 ≤ k.toNat)) : inWindow cl k = false := by
  cases cl <;> simp only [inWindow, beq_eq_false_iff_ne.mpr h0, Bool.false_or, ← Bool.decide_and] <;> exact decide_eq_false hk

/-- A word of split mode with a destination outside the window (R59). -/
theorem issueTrap_window {w : Nat} {l : List (BitVec 6)} {s : State} {e : Env} {k : BitVec 6} (h : slotTrap w s e = none) (hm : e.rd.a.mode = .split)
    (hk : k ∈ l) (hw : inWindow e.cl k = false) : issueTrap w l s e = some (mkTrap 0x02 1 (BitVec.ofNat 64 w)) := by
  have hany : (l.any fun d => !inWindow e.cl d) = true := List.any_eq_true.mpr ⟨k, hk, by rw [hw]; rfl⟩
  simp only [issueTrap, h, hm, hany, and_self, if_true]

/-- A meaning that a handler may not have ends the unit there (R322). -/
theorem notInHandler_raise {e : Env} (h : e.rd.a.tl = true ∨ e.rd.a.uh = true) (maj : Nat) (r : Res) :
    notInHandler e maj r = .raise (mkTrap 0x07 maj 0) :=
  if_pos (Bool.or_eq_true_iff.mpr h)

/-- TRAP_NESTED that a word raises ends the unit (R322). -/
theorem takeTrap_nested (s : State) (ci : Nat) (cl : Cluster) (d : Nat) (v : Word) :
    takeTrap s ci cl (mkTrap 0x07 d v) = endUnit s ci 0x07 d none := rfl

/-- Settles O52: a word that passes every check completes or raises its cause; one that does not ends before its meaning. -/
theorem issueRules : Obligations.IssueRules := by
  unfold Obligations.IssueRules
  intro s h x w d a b m
  refine ⟨?hint, ?emul, ?undefined, ⟨?noSys, ?noFw, ?system⟩, ?fields, ?window, fun hh => ⟨?handler, ?nested⟩⟩
  case hint =>
    have hm : 0x78 ≤ majNat (encodeNat (.hint h)) := (Nat.le_div_iff_mul_le (by decide)).mpr (Nat.le_add_right _ _)
    exact (exec_done (exec_hint h s) (mayIssue_unchecked (.inr hm) s) rfl).trans (by rw [goOn_tkNone])
  case emul =>
    have hm {n : Nat} (hn : 0x78 * 2 ^ 25 ≤ n) : 0x78 ≤ majNat (n + x.toNat) :=
      (Nat.le_div_iff_mul_le (by decide)).mpr (hn.trans (Nat.le_add_right _ _))
    simp only [List.forall_mem_cons, List.not_mem_nil, false_imp_iff, implies_true, and_true]
    exact ⟨exec_raise (exec_emulMajor7c x s) (mayIssue_unchecked (.inr (hm (by decide))) s) rfl,
      exec_raise (exec_emulMajor7d x s) (mayIssue_unchecked (.inr (hm (by decide))) s) rfl,
      exec_raise (exec_emulMajor7e x s) (mayIssue_unchecked (.inr (hm (by decide))) s) rfl⟩
  case undefined => exact fun hu => exec_raise (exec_undefinedMajor w s) (mayIssue_unchecked (.inl hu) s) rfl
  case noSys => exact fun h0 h1 hg => slotTrap_preDecode (preDecode_noSys h0 h1 hg) (by simp only [majNat]; omega)
  case noFw =>
    intro h0 h1 hv hg hs hf
    refine slotTrap_preDecode (preDecode_noFw h0 h1 ?_ hg hs hf) (by simp only [majNat]; omega)
    rwa [subNat_system (by simp only [majNat]; omega)]
  case system =>
    intro h0 h1 hg hs hf hc
    refine slotTrap_none ?_ (system_unswitched h0)
    rw [envOf_cl, hc]
    refine preDecode_system h0 h1 hg hs ?_
    rwa [subNat_system (by simp only [majNat]; omega)]
  case fields =>
    intro i z hz
    refine ⟨fun y hy => ?_, fun hy hr => ?_, fun hy hr hg => ?_⟩
    · obtain ⟨sem, hs⟩ := exec_notIssued hz (s := s) fun ⟨hm, _⟩ => by rw [hm] at hy; cases hy
      exact hs.trans (issue_trap hy)
    · obtain ⟨sem, hs⟩ := exec_notIssued hz (s := s) fun ⟨_, hp, hq, _⟩ => by rw [hp, hq] at hr; cases hr
      exact hs.trans (issue_noToken hy hr)
    · obtain ⟨sem, hs⟩ := exec_notIssued hz (s := s) fun ⟨_, _, _, hm⟩ => by rw [hm] at hg; cases hg
      exact hs.trans (issue_guardOff hy hr hg)
  case window =>
    rintro n l hn hm ⟨k, hk, h0, hw⟩
    exact issueTrap_window hn hm hk (inWindow_false h0 hw)
  case handler =>
    simp only [List.forall_mem_cons, List.not_mem_nil, false_imp_iff, implies_true, and_true]
    exact ⟨fun hi => exec_raise (exec_commit s) hi (notInHandler_raise hh ..), fun hi => exec_raise (exec_commitD a b s) hi (notInHandler_raise hh ..),
      fun hi => exec_raise (exec_endOp 0 s) hi (notInHandler_raise hh ..), fun hi => exec_raise (exec_fork d a b 0 s) hi (notInHandler_raise hh ..),
      fun hi => exec_raise (exec_loopm d a b 0 m s) hi (notInHandler_raise hh ..)⟩
  case nested => exact fun y _ => takeTrap_nested s s.focusCore y 0x1A 0

end Sys2Proof.Machine
end

section
/-! SUPPORT for O57. What the fetch of an issue and the work at the homes of memory leave as it was: no core but the stashes of the others, and
never the focus. -/

namespace Sys2Proof.Machine

/-! ## Work at the homes of memory -/

/-- The cores of a state and its focus: what no work at the homes of memory changes. -/
def front (s : State) : Vector Core 72 × Nat × Cluster := (s.cores, s.focusCore, s.focusCl)

/-- The core and the cluster whose issue is up. -/
def focus (s : State) : Nat × Cluster := (s.focusCore, s.focusCl)

theorem focus_of_front {s t : State} (h : front t = front s) : focus t = focus s := congrArg Prod.snd h

theorem getCore_of_front {s t : State} (h : front t = front s) (i : Nat) : getCore t i = getCore s i :=
  congrArg (vget · Core.zero i) (congrArg Prod.fst h)

@[simp] theorem front_modDc (s : State) (d : Nat) (f : List DcLine → List DcLine) : front (modDc s d f) = front s := rfl
@[simp] theorem front_logErr (s : State) (p c x d : Nat) (a b : Option Word) (e : Nat) : front (logErr s p c x d a b e) = front s := rfl

@[simp] theorem front_countMismatch (s : State) (p c : Nat) : front (countMismatch s p c) = front s := by
  unfold countMismatch
  dsimp only
  split <;> rfl

@[simp] theorem front_readSector (s : State) (p c pa : Nat) (va : Word) : front (readSector s p c pa va).1 = front s := by
  have spoiled (t : State) (x : List Nat) (y : Sparse (Option SectorFault)) : front { t with poisoned := x, faulty := y } = front t := rfl
  unfold readSector
  dsimp only
  split
  · rfl
  · split
    · exact (spoiled ..).trans (front_logErr ..)
    · exact (spoiled ..).trans ((front_countMismatch ..).trans (front_logErr ..))
    · split
      · exact (spoiled ..).trans ((front_countMismatch ..).trans (front_logErr ..))
      · rfl
    · split
      · exact (spoiled ..).trans ((front_countMismatch ..).trans (front_logErr ..))
      · rfl

@[simp] theorem front_writeBack (s : State) (d sec : Nat) : front (writeBack s d sec) = front s := by
  unfold writeBack
  dsimp only
  split
  · split
    · rfl
    · exact front_readSector s _ _ _ _
  · rfl

@[simp] theorem front_dcDrop (s : State) (d sec : Nat) : front (dcDrop s d sec) = front s :=
  front_writeBack s d sec

@[simp] theorem front_dcOthers (s : State) (d p sec : Nat) : front (dcOthers s d p sec) = front s := by
  unfold dcOthers
  split
  · exact front_dcDrop s d sec
  · rfl

@[simp] theorem front_dcPut (s : State) (d : Nat) (l : DcLine) : front (dcPut s d l) = front s := by
  unfold dcPut
  dsimp only
  split
  · rfl
  · exact front_writeBack (modDc s d _) d _

/-- A request for a line changes no core but the stashes of the other cores. -/
theorem front_touchLine (s : State) (p c : Nat) (ci : Option Nat) (pa : Nat) (va : Word) :
    front (touchLine s p c ci pa va).1 = front s ∨ front (touchLine s p c ci pa va).1 = front (cleanStash s ci (pa / 128)) := by
  unfold touchLine
  dsimp only
  split
  · exact .inl rfl
  · right
    split
    · exact front_dcPut ..
    · simp

theorem focus_cleanStash (s : State) (ci : Option Nat) (n : Nat) : focus (cleanStash s ci n) = focus s := by
  cases ci <;> rfl

theorem getCore_cleanStash_self (s : State) {i : Nat} (h : i < 72) (n : Nat) : getCore (cleanStash s (some i) n) i = getCore s i :=
  vget_vset_self _ _ _ h

/-- A request for a line leaves the requester's core as it was. -/
theorem getCore_touchLine_self (s : State) (p c : Nat) {i : Nat} (h : i < 72) (pa : Nat) (va : Word) :
    getCore (touchLine s p c (some i) pa va).1 i = getCore s i := by
  rcases front_touchLine s p c (some i) pa va with hf | hf
  · exact getCore_of_front hf i
  · exact (getCore_of_front hf i).trans (getCore_cleanStash_self s h _)

@[simp] theorem focus_touchLine (s : State) (p c : Nat) (ci : Option Nat) (pa : Nat) (va : Word) :
    focus (touchLine s p c ci pa va).1 = focus s := by
  rcases front_touchLine s p c ci pa va with hf | hf
  · exact focus_of_front hf
  · exact (focus_of_front hf).trans (focus_cleanStash ..)

/-! ## The fetch of an issue -/

@[simp] theorem focus_readTables (p c : Nat) (va aux : Word) (fuel : Nat) :
    ∀ (s : State) (l t : Nat), focus (readTables s p c va aux fuel l t) = focus s := by
  induction fuel with
  | zero => exact fun s l t => rfl
  | succ fuel ih =>
    intro s l t
    unfold readTables
    dsimp only [touchSector]
    split
    · exact focus_touchLine ..
    · exact (ih ..).trans (focus_touchLine ..)

@[simp] theorem focus_readWalk (s : State) (c : Nat) (va : Word) : focus (readWalk s c va) = focus s := by
  unfold readWalk readWalkAs
  dsimp only
  split
  · exact focus_readTables ..
  · split
    · exact focus_readTables ..
    · rfl

@[simp] theorem focus_walkFill (s : State) (c : Nat) (va : Word) (k : AccessKind) : focus (walkFill s c va k) = focus s := by
  unfold walkFill
  dsimp only
  split
  · rfl
  · split
    · split
      · rfl
      · exact focus_readWalk ..
    · exact focus_readWalk s c va

@[simp] theorem focus_noteFetch (s : State) (c : Nat) (cl : Cluster) (va : Word) : focus (noteFetch s c cl va) = focus s := by
  have hw : focus (walkFill s c va .fetch) = focus s := focus_walkFill ..
  unfold noteFetch
  dsimp only
  split
  · rfl
  · split
    · split
      · exact hw
      · exact (focus_touchLine ..).trans hw
    · exact hw

@[simp] theorem focus_fillBuffer (s : State) (c : Nat) : focus (fillBuffer s c) = focus s := by
  unfold fillBuffer
  dsimp only
  split <;> rfl

/-- Steps that leave the focus leave it together. -/
theorem focus_foldl {α : Type} {f : State → α → State} (h : ∀ s x, focus (f s x) = focus s) (l : List α) :
    ∀ s, focus (l.foldl f s) = focus s := by
  induction l with
  | nil => exact fun s => rfl
  | cons x l ih => exact fun s => (ih _).trans (h s x)

theorem focus_fetchAhead (s : State) : focus (fetchAhead s) = focus s := by
  unfold fetchAhead
  dsimp only
  rw [focus_fillBuffer, focus_foldl (fun s x => focus_noteFetch ..), focus_foldl (fun s x => focus_noteFetch ..)]

/-! ## The queued accesses before an issue -/

theorem focus_performed {s t : State} {q : Queued} (h : performed s q = some t) : focus t = focus s := by
  obtain ⟨u, b, -, -, -, -, rfl⟩ := performed_some h
  rfl

theorem focus_performAll (s : State) : focus (performAll s) = focus s := by
  refine focus_foldl (fun s q => ?_) s.accesses s
  cases h : performed s q with
  | none => rfl
  | some t => exact focus_performed h

/-! ## What a move does -/

theorem step_move {s : State} {m : Move} {r : List Move} (h : s.agenda = m :: r) : step s = runMove { s with agenda := r } m := by
  simp only [step, nextStep, h]

theorem runMove_issue {s : State} {m : Move} {ci : Nat} {cl : Cluster} (h : m.act = .issue ci cl) (hci : ci < 72) :
    runMove s m = issueFocus (performAll (passTime { s with focusCore := ci, focusCl := cl } m.ns m.cc)) := by
  simp only [runMove, h, hci, if_true]

theorem runMove_late {s : State} {m : Move} {ci : Nat} {cl : Cluster} (h : m.act = .late ci cl) (hci : ci < 72) :
    runMove s m = issueLate (passTime { s with focusCore := ci, focusCl := cl } m.ns m.cc) := by
  simp only [runMove, h, hci, if_true]

theorem runMove_perform {s : State} {m : Move} {ci : Nat} {cl : Cluster} (h : m.act = .perform ci cl) (hci : ci < 72) :
    runMove s m = .next (performNext (passTime s m.ns m.cc) ci cl) := by
  simp only [runMove, h, hci, if_true]

theorem runMove_upset {s : State} {m : Move} {x : Upset} (h : m.act = .upset x) : runMove s m = .next (upset (passTime s m.ns m.cc) x) := by
  simp only [runMove, h]

theorem runMove_event {s : State} {m : Move} {i : Instr} (h : m.act = .event i) (hw : i.hasWord = false) (ho : i.stepOk = true)
    (ha : s.alarm = .none) : runMove s m = exec i (performAll (passTime s m.ns m.cc)) := by
  simp [runMove, h, hw, ho, ha]

end Sys2Proof.Machine
end

section
/-! SUPPORT for O57. The issue of a core: a word of a cluster, a bundle, its slots and its end. -/

namespace Sys2Proof.Machine

/-! ## Fetch and decode (R51, R70) -/

theorem decodeAt_trap {s : State} {e : Env} {w l : Word32} {t : Trap} (h : slotTrap w.toNat s e = some t) : decodeAt s e w l = .error t := by
  simp only [decodeAt, h]

theorem decodeAt_ok {s : State} {e : Env} {w l : Word32} {i : Instr} (h : slotTrap w.toNat s e = none) (hi : decodeWord w l = .ok i) :
    decodeAt s e w l = .ok i := by
  simp only [decodeAt, h, hi]

theorem decodeLit_trap {s : State} {e : Env} {w : Word32} {la : Word} {t : Trap} (h : slotTrap w.toNat s e = some t) :
    decodeLit s e w la = .error t := by
  simp only [decodeLit, decodeAt_trap h]

/-- A word that is read alone: no `vigil`, or one whose literal lies outside the loop body (R71). -/
theorem decodeLit_alone {s : State} {e : Env} {w : Word32} {la : Word} {i : Instr} (h : slotTrap w.toNat s e = none)
    (hi : decodeWord w 0 = .ok i) (hv : majorOf w ≠ 0x58 ∨ literalOutside e = true) : decodeLit s e w la = .ok i := by
  have hn : ¬ (majorOf w = 0x58 && !literalOutside e) = true := by
    rcases hv with hv | hv <;> simp [hv]
  simp only [decodeLit, decodeAt_ok h hi, if_neg hn]

/-- A `vigil`, which is read with its literal (R70). -/
theorem decodeLit_literal {s : State} {e : Env} {w l : Word32} {la : Word} {i j : Instr} (h : slotTrap w.toNat s e = none)
    (hi : decodeWord w 0 = .ok i) (hm : majorOf w = 0x58) (hv : literalOutside e = false) (hl : fetchWord s e.ci la = .ok l)
    (hj : decodeWord w l = .ok j) : decodeLit s e w la = .ok j := by
  simp only [decodeLit, decodeAt_ok h hi, hm, hv, hl, decodeAt_ok h hj, decide_true, Bool.not_false, Bool.and_self, if_true]

theorem fetchInstr_error {s : State} {ci : Nat} {a la : Word} {t : Trap} (hf : s.focusCore = ci) (h : fetchWord s ci a = .error t) :
    fetchInstr s a la = .error t := by
  simp only [fetchInstr, hf, h]

theorem fetchInstr_ok {s : State} {ci : Nat} {a la : Word} {w : Word32} (hf : s.focusCore = ci) (h : fetchWord s ci a = .ok w) :
    fetchInstr s a la = decodeLit s (envOf s) w la := by
  simp only [fetchInstr, hf, h]

/-! ## An issue of the focus -/

/-- What an issue that has answered leaves once the walk of its trap has been read (R365). -/
noncomputable def afterWalk (s : State) (ci : Nat) (o : Host.Outcome State Fault Refusal) : Host.Outcome State Fault Refusal :=
  match o with
  | .next t => .next (noteWalk s t ci)
  | o => o

/-- Where an issue enters no handler and ends no unit, no walk is read. -/
theorem noteWalk_same {s t : State} {ci : Nat} (htl : (getCore t ci).a.tl = (getCore s ci).a.tl) (hrun : (getCore t ci).run = (getCore s ci).run) :
    noteWalk s t ci = t := by
  unfold noteWalk
  dsimp only
  rw [htl, hrun]
  cases (getCore s ci).run <;> simp

/-- The core at the focus issues: it runs, nothing has frozen or halted it, and no engine has a trap for it. -/
structure CoreIssues (s : State) (ci : Nat) : Prop where
  run : (getCore s ci).run = .running
  freeze : (getCore s ci).freeze = none
  alarm : s.alarm = .none
  engTraps : (getCore s ci).engTraps = []

theorem engineTrapNow_none {c : Core} (h : c.engTraps = []) (cl : Cluster) : engineTrapNow c cl = none := by
  rw [engineTrapNow, h, List.find?_nil]

theorem issueFocus_next {s : State} (h : CoreIssues s s.focusCore) : issueFocus s = afterWalk s s.focusCore (issueNext s) := by
  unfold issueFocus
  dsimp only
  rw [if_neg (by simp [h.run, h.freeze, h.alarm]), engineTrapNow_none h.engTraps]
  rfl

/-- A fetch that meets a pinned line is made again, without the core's own pins (R183). -/
theorem issueFocus_retry {s : State} {ci : Nat} (hf : s.focusCore = ci) (hci : ci < 72) (h : CoreIssues s ci) (hr : fetchRetry s = true) :
    issueFocus s = .next (unpin s ci) := by
  subst hf
  have hc : getCore (unpin s s.focusCore) s.focusCore = _ := getCore_modArch_self s _ hci
  rw [issueFocus_next h, issueNext, if_pos hr]
  exact congrArg _ (noteWalk_same (by rw [hc]) (by rw [hc]))

theorem issueFocus_split {s : State} {ci : Nat} (hf : s.focusCore = ci) (h : CoreIssues s ci) (hr : fetchRetry s = false)
    (hm : (getCore s ci).a.mode = .split) : issueFocus s = afterWalk s ci (issueSplit (fetchAhead s)) := by
  subst hf
  simp only [issueFocus_next h, issueNext, hr, hm, Bool.false_eq_true, if_false]

theorem issueFocus_joint {s : State} {ci : Nat} (hf : s.focusCore = ci) (h : CoreIssues s ci) (hr : fetchRetry s = false)
    (hm : (getCore s ci).a.mode = .joint) : issueFocus s = afterWalk s ci (issueJoint (fetchAhead s)) := by
  subst hf
  simp only [issueFocus_next h, issueNext, hr, hm, Bool.false_eq_true, if_false]

/-! ## Split mode -/

section Split

variable {s : State} {ci : Nat} {cl : Cluster} (hf : s.focusCore = ci) (hl : s.focusCl = cl)
  (hst : vget (getCore s ci).a.clst .run (cnum cl) = .run)
include hf hl hst

theorem issueSplit_error {x : Trap} (hr : vget (getCore s ci).a.repK none (cnum cl) = none)
    (h : fetchInstr s (pcOf (getCore s ci) cl) (pcOf (getCore s ci) cl + 4) = .error x) : issueSplit s = .next (takeTrap s ci cl x) := by
  subst hf hl
  simp only [issueSplit, hst, issues, hr, h, Bool.not_true, Bool.false_eq_true, if_false]

theorem issueSplit_ok {i : Instr} (hr : vget (getCore s ci).a.repK none (cnum cl) = none)
    (h : fetchInstr s (pcOf (getCore s ci) cl) (pcOf (getCore s ci) cl + 4) = .ok i) : issueSplit s = exec i s := by
  subst hf hl
  simp only [issueSplit, hst, issues, hr, h, Bool.not_true, Bool.false_eq_true, if_false]

/-- A count of repetitions on a word that is `rep` runs its next repetition (R67). -/
theorem issueSplit_rep {k n : Nat} {p : Word32} (hr : vget (getCore s ci).a.repK none (cnum cl) = some (k, n))
    (hw : fetchWord s ci (pcOf (getCore s ci) cl) = .ok p) (hp : majorOf p = 0x0F) : issueSplit s = repetition s p k := by
  subst hf hl
  simp only [issueSplit, hst, issues, hr, hw, hp, Bool.not_true, Bool.false_eq_true, if_false, if_true]

/-- A count of repetitions on a word that is no `rep` is cleared (log 36). -/
theorem issueSplit_noRep {k n : Nat} {p : Word32} (hr : vget (getCore s ci).a.repK none (cnum cl) = some (k, n))
    (hw : fetchWord s ci (pcOf (getCore s ci) cl) = .ok p) (hp : majorOf p ≠ 0x0F) :
    issueSplit s = .next (modArch s ci fun a => { a with repK := vset a.repK (cnum cl) none }) := by
  subst hf hl
  simp only [issueSplit, hst, issues, hr, hw, hp, Bool.not_true, Bool.false_eq_true, if_false]

end Split

/-! ## Joint mode (R57, R58, R117) -/

/-- What a bundle whose slots have executed answers. -/
noncomputable def bundleEnd (s : State) (o : Host.Outcome State Fault Refusal) : Host.Outcome State Fault Refusal :=
  match o with
  | .next t => .next (match t.bundle with | some b => finishBundle s t b | none => t)
  | o => o

theorem issueJoint_run {s : State} {ci : Nat} (hf : s.focusCore = ci) (hst : vget (getCore s ci).a.clst .run 0 = .run) :
    issueJoint s = bundleEnd s (issueSlots (getCore s ci)
      { modCore s ci fun c => { c with nopSlot := none, a := { c.a with litAt := none } } with bundle := some (freshBundle (getCore s ci)) }
      [.c, .l, .k, .s]) := by
  subst hf
  unfold issueJoint
  dsimp only
  rw [hst]
  rfl

section Slot

variable {pre : Core} {u : State} {ci : Nat} {cl : Cluster}

theorem slotSkipped_false (hn : pre.nopSlot ≠ some cl) (hl : pre.a.litAt = none) : slotSkipped pre cl = false := by
  simp [slotSkipped, hn, hl]

/-- Outside the sequencer a slot's word comes from memory. -/
theorem slotWord_memory {w : Word32} (hci : ci < 72) (hq : pre.a.seq = none)
    (hw : fetchWord (putCore u ci pre) ci (slotAddr pre cl) = .ok w) : slotWord (putCore u ci pre) ci cl = .ok w := by
  simp only [slotWord, getCore_putCore_self u pre hci, bufferWord, hq, Option.bind_none, hw]

/-- In a row of the sequencer it comes from the loop buffer where it is there (R117). -/
theorem slotWord_row {w : Word32} {q : Seqr} (hci : ci < 72) (hq : pre.a.seq = some q)
    (hw : nth none q.buf (4 * q.b + cnum cl) = some w ∨
      (nth none q.buf (4 * q.b + cnum cl) = none ∧ fetchWord (putCore u ci pre) ci (slotAddr pre cl) = .ok w)) :
    slotWord (putCore u ci pre) ci cl = .ok w := by
  rcases hw with hb | ⟨hb, hw⟩
  · simp only [slotWord, getCore_putCore_self u pre hci, bufferWord, hq, Option.bind_some, hb]
  · simp only [slotWord, getCore_putCore_self u pre hci, bufferWord, hq, Option.bind_some, hb, hw]

theorem slotSquashed_none (hq : pre.a.seq = none) : slotSquashed pre cl = false := by
  simp only [slotSquashed, hq]

/-- The stage of a slot in its row of the sequencer (R117). -/
def slotStage (q : Seqr) (cl : Cluster) : Nat := fieldOf q.map (2 * (4 * q.b + cnum cl)) 2

theorem slotSquashed_iff {q : Seqr} (hq : pre.a.seq = some q) :
    slotSquashed pre cl = true ↔ q.k < slotStage q cl ∨ q.n ≤ q.k - slotStage q cl := by
  simp [slotSquashed, hq, squashed, slotStage]

theorem bodyForbidden_iff (maj : Nat) : bodyForbidden maj = true ↔
    (0x0B ≤ maj ∧ maj ≤ 0x0E) ∨ maj ∈ [0x11, 0x18, 0x1D, 0x1F, 0x58] ∨ (0x70 ≤ maj ∧ maj ≤ 0x77) := by
  simp only [bodyForbidden, Bool.or_eq_true_iff, Bool.and_eq_true, decide_eq_true_eq, beq_iff_eq, List.mem_cons, List.not_mem_nil, or_false]
  omega

variable (hf : u.focusCore = ci) {w : Word32} (hs : slotSkipped pre cl = false)
  (hw : slotWord (putCore { u with focusCl := cl } ci pre) ci cl = .ok w)
include hf hs hw

/-- A slot with a word that a body of `loopm` may not hold. -/
theorem issueSlot_barred {q : Seqr} (hq : pre.a.seq = some q) (hb : bodyForbidden (majorOf w) = true) :
    issueSlot pre u cl = conclude { u with focusCl := cl } (envOf { u with focusCl := cl }) (.raise (mkTrap 0x02 0 (w.setWidth 64))) := by
  subst hf
  simp only [issueSlot, hs, hw, hq, hb, Option.isSome_some, Bool.false_eq_true, if_false, Bool.and_self, if_true]

omit hf hs hw in
theorem slot_notBarred (hb : pre.a.seq = none ∨ bodyForbidden (majorOf w) = false) : (pre.a.seq.isSome && bodyForbidden (majorOf w)) = false := by
  rcases hb with hb | hb <;> simp [hb]

variable (hb : pre.a.seq = none ∨ bodyForbidden (majorOf w) = false)
include hb

/-- A slot that the sequencer squashes. -/
theorem issueSlot_squashed (hq : slotSquashed pre cl = true) : issueSlot pre u cl = .next { u with focusCl := cl } := by
  have hb' := slot_notBarred hb
  subst hf
  simp only [issueSlot, hs, hw, hb', hq, Bool.false_eq_true, if_false, if_true]

/-- A slot that executes the instruction that its word decodes to. -/
theorem issueSlot_exec {i : Instr} (hq : slotSquashed pre cl = false) (hv : majorOf w ≠ 0x58)
    (ht : slotTrap w.toNat (putCore { u with focusCl := cl } ci pre) (envOf { u with focusCl := cl }) = none)
    (hi : decodeWord w 0 = .ok i) : issueSlot pre u cl = exec i { u with focusCl := cl } := by
  have hb' := slot_notBarred hb
  subst hf
  simp only [issueSlot, hs, hw, hb', hq, decodeLit_alone ht hi (.inl hv), Bool.false_eq_true, if_false]

end Slot

/-! ## The end of a bundle (R58, R118) -/

/-- The state at the end of a bundle, with its hurdle arrivals applied. -/
def arrived (u t : State) (b : Bundle) : State :=
  modArch { t with bundle := none, focusCl := u.focusCl } u.focusCore fun a => applyArrivals a b.arrivals

theorem finishBundle_stalled {u t : State} {b : Bundle} (hs : b.stalled = true) (hu : b.unpin = false) : finishBundle u t b = u := by
  simp only [finishBundle, hs, hu, if_true, Bool.false_eq_true, if_false]

theorem finishBundle_raised {u t : State} {b : Bundle} {cl : Cluster} {x : Trap} (hs : b.stalled = false) (hr : b.raised = some (cl, x)) :
    finishBundle u t b = takeTrap u u.focusCore cl x := by
  simp only [finishBundle, hs, hr, Bool.false_eq_true, if_false]

theorem finishBundle_sequence {u t : State} {b : Bundle} (hs : b.stalled = false) (hr : b.raised = none)
    (hm : mxHeld b.pre (getCore (arrived u t b) u.focusCore) = false) (ht : b.target = none) (hp : b.pcSet = false) :
    finishBundle u t b = modCore (arrived u t b) u.focusCore advanceJoint := by
  unfold arrived at hm
  simp only [finishBundle, hs, hr, hm, ht, hp, Bool.false_eq_true, if_false]
  rfl

/-- A core at a place of a body of `loopm`, or behind it: no repetition is under way. -/
def atRow (k : Core) (q : Option Seqr) (vb : BitVec 11) (p : Word) : Core :=
  { k with a := { k.a with seq := q, vbase := vb, pc := Vector.replicate 4 p, repK := Vector.replicate 4 none } }

theorem advanceJoint_none {k : Core} (h : k.a.seq = none) : advanceJoint k = atRow k none k.a.vbase (vget k.a.pc 0 0 + 16) := by
  have hj : advanceJoint k = setPcs k (vget k.a.pc 0 0 + 16) := by simp only [advanceJoint, h]
  rw [hj, ← h]
  rfl

section Row

variable {k : Core} {q : Seqr} (h : k.a.seq = some q)
include h

theorem advanceJoint_row (hb : q.b + 1 < q.ii) :
    advanceJoint k = atRow k (some { q with b := q.b + 1 }) k.a.vbase (q.body + BitVec.ofNat 64 (16 * (q.b + 1))) := by
  simp only [advanceJoint, h, advanceSeq, if_pos hb]
  rfl

theorem advanceJoint_iteration (hb : q.ii ≤ q.b + 1) (hk : q.k + 1 < q.n + q.stages - 1) :
    advanceJoint k = atRow k (some { q with k := q.k + 1, b := 0 }) (k.a.vbase + k.a.vrot.setWidth 11) q.body := by
  simp only [advanceJoint, h, advanceSeq, if_neg (Nat.not_lt.mpr hb), if_pos hk, BitVec.ofNat_toNat]
  rfl

theorem advanceJoint_last (hb : q.ii ≤ q.b + 1) (hk : q.n + q.stages - 1 ≤ q.k + 1) :
    advanceJoint k = atRow k none (k.a.vbase + k.a.vrot.setWidth 11) (q.body + BitVec.ofNat 64 (16 * q.ii)) := by
  simp only [advanceJoint, h, advanceSeq, if_neg (Nat.not_lt.mpr hb), if_neg (Nat.not_lt.mpr hk), BitVec.ofNat_toNat]
  rfl

end Row

end Sys2Proof.Machine
end

section
/-! SUPPORT for O57. The repetitions of `rep` (R67 to R69). -/

namespace Sys2Proof.Machine

/-! ## The checks before the first repetition -/

section Checks

variable {s : State} {c : Core} {cl : Cluster} {p w : Word32} {i : Instr}

theorem repTrap_undefined (h : majorUndefined (majorOf w) = true) : repTrap s c cl p w i = some (mkTrap 0x01 0 (w.setWidth 64)) :=
  if_pos h

theorem repTrap_emul (h : majorUndefined (majorOf w) = false) (he : 0x7C ≤ majorOf w ∧ majorOf w ≤ 0x7E) :
    repTrap s c cl p w i = some (emulTrap s c (w.setWidth 64)) := by
  simp only [repTrap, h, Bool.false_eq_true, if_false, if_pos he]

variable (h : majorUndefined (majorOf w) = false) (he : ¬ (0x7C ≤ majorOf w ∧ majorOf w ≤ 0x7E))
include h he

theorem repTrap_window (hd : ¬ ∀ k ∈ scalarDsts i w, inWindow cl k = true) : repTrap s c cl p w i = some (mkTrap 0x02 1 (w.setWidth 64)) := by
  have hd' : ((scalarDsts i w).any fun d => !inWindow cl d) = true := by simpa using hd
  simp only [repTrap, h, if_neg he, hd', Bool.false_eq_true, if_false, if_true]

variable (hd : ∀ k ∈ scalarDsts i w, inWindow cl k = true)
include hd

/-- The checks of a target that has been decoded and whose destinations lie in the window. -/
theorem repTrap_decoded : repTrap s c cl p w i =
    if !repTarget (majorOf w) then some (mkTrap 0x02 4 (p.setWidth 64))
    else if decide (0x78 ≤ majorOf w) then none
    else if !allStep i w cl (bitsAt p 13 4) (bitsAt p 17 8 + 1) (bitsAt p 9 4) then some (mkTrap 0x03 3 (p.setWidth 64))
    else none := by
  have hd' : ((scalarDsts i w).any fun d => !inWindow cl d) = false := by simpa using hd
  simp only [repTrap, h, if_neg he, hd', Bool.false_eq_true, if_false]

theorem repTrap_target (ht : repTarget (majorOf w) = false) : repTrap s c cl p w i = some (mkTrap 0x02 4 (p.setWidth 64)) := by
  rw [repTrap_decoded h he hd, ht]
  rfl

variable (ht : repTarget (majorOf w) = true)
include ht

theorem repTrap_hint (hm : 0x78 ≤ majorOf w) : repTrap s c cl p w i = none := by
  rw [repTrap_decoded h he hd, ht, if_pos (decide_eq_true hm)]
  rfl

theorem repTrap_fields (hm : majorOf w < 0x78) (hs : allStep i w cl (bitsAt p 13 4) (bitsAt p 17 8 + 1) (bitsAt p 9 4) = false) :
    repTrap s c cl p w i = some (mkTrap 0x03 3 (p.setWidth 64)) := by
  simp only [repTrap_decoded h he hd, ht, hs, Nat.not_le.mpr hm, decide_false, Bool.not_true, Bool.not_false, Bool.false_eq_true, if_false, if_true]

theorem repTrap_passed (hm : majorOf w < 0x78) (hs : allStep i w cl (bitsAt p 13 4) (bitsAt p 17 8 + 1) (bitsAt p 9 4) = true) :
    repTrap s c cl p w i = none := by
  simp only [repTrap_decoded h he hd, ht, hs, Nat.not_le.mpr hm, decide_false, Bool.not_true, Bool.false_eq_true, if_false]

end Checks

/-! ## The fields that a `rep` steps -/

/-- Whether a field of an entry can be stepped up to `last` in a cluster whose window ends at `top`. -/
def FieldFits (f : StepField) (top last : Nat) : Prop :=
  match f with
  | .no => False
  | .dst => last ≤ top
  | .reg mx => last ≤ mx

theorem fieldSteps_iff (f : StepField) (cl : Cluster) (v n st : Nat) :
    fieldSteps f cl v n st = true ↔ FieldFits f (windowTop cl) (v + (n - 1) * st) := by
  cases f <;> simp [fieldSteps, FieldFits]

/-- The entry of field `j`. -/
def stepField (i : Instr) (j : Nat) : StepField :=
  match j with
  | 0 => (stepFields i).d
  | 1 => (stepFields i).a
  | 2 => (stepFields i).b
  | _ => (stepFields i).m

/-- The value of field `j` of a word. -/
def stepVal (w : Word32) (j : Nat) : Nat :=
  match j with
  | 0 => bitsAt w 19 6
  | 1 => bitsAt w 13 6
  | 2 => bitsAt w 7 6
  | _ => bitsAt w 4 3

/-- Every selected field can be stepped. -/
theorem allStep_iff (i : Instr) (w : Word32) (cl : Cluster) (fsel n st : Nat) :
    allStep i w cl fsel n st = true ↔
      ∀ j < 4, fsel / 2 ^ j % 2 = 1 → FieldFits (stepField i j) (windowTop cl) (stepVal w j + (n - 1) * st) := by
  have selected (x : Nat) (b : Bool) : (x % 2 == 0 || b) = true ↔ (x % 2 = 1 → b = true) := by
    rcases Nat.mod_two_eq_zero_or_one x with hx | hx <;> simp [hx]
  simp only [allStep, Bool.and_eq_true, selected, fieldSteps_iff]
  constructor
  · rintro ⟨⟨⟨h0, h1⟩, h2⟩, h3⟩ j hj
    interval_cases j
    · exact h0
    · exact h1
    · exact h2
    · exact h3
  · exact fun h => ⟨⟨⟨h 0 (by decide), h 1 (by decide)⟩, h 2 (by decide)⟩, h 3 (by decide)⟩

/-! ## A repetition -/

section Repetition

variable {s : State} {ci : Nat} {cl : Cluster} {p : Word32} {k : Nat} (hf : s.focusCore = ci) (hl : s.focusCl = cl)
include hf hl

theorem repetition_fetchTrap {x : Trap} (hw : fetchWord s ci (pcOf (getCore s ci) cl + 4) = .error x) :
    repetition s p k = .next (takeTrap s ci cl x) := by
  subst hf hl
  simp only [repetition, hw]

variable {w : Word32} (hw : fetchWord s ci (pcOf (getCore s ci) cl + 4) = .ok w)
include hw

theorem repetition_slotTrap {x : Trap} (ht : slotTrap w.toNat s (envOf s) = some x) : repetition s p k = .next (takeTrap s ci cl x) := by
  subst hf hl
  simp only [repetition, hw, decodeAt_trap ht]

variable {i : Instr} (ht : slotTrap w.toNat s (envOf s) = none) (hi : decodeWord w 0 = .ok i)
include ht hi

theorem repetition_trap {x : Trap} (hk : k = 0) (hx : repTrap s (getCore s ci) cl p w i = some x) :
    repetition s p k = .next (takeTrap s ci cl x) := by
  subst hf hl hk
  simp only [repetition, hw, decodeAt_ok ht hi, hx, if_true]

/-- The target has had its repetitions, or it is a HINT word, which has no effect. -/
theorem repetition_past (hx : k = 0 → repTrap s (getCore s ci) cl p w i = none) (hn : 0x78 ≤ majorOf w ∨ bitsAt p 17 8 + 1 ≤ k) :
    repetition s p k = .next (modCore s ci fun c => pastRep c cl) := by
  subst hf hl
  have hp : (if k = 0 then repTrap s (getCore s s.focusCore) s.focusCl p w i else none) = none := by
    split
    · exact hx ‹_›
    · rfl
  have hn' : (decide (0x78 ≤ majorOf w) || decide (bitsAt p 17 8 + 1 ≤ k)) = true := by simpa using hn
  simp only [repetition, hw, decodeAt_ok ht hi, hp, hn', if_true]

/-- A repetition executes the target with its selected fields stepped. -/
theorem repetition_exec {j : Instr} (hx : k = 0 → repTrap s (getCore s ci) cl p w i = none) (hm : majorOf w < 0x78)
    (hn : k < bitsAt p 17 8 + 1) (hj : decodeWord (stepWord w (bitsAt p 13 4) (bitsAt p 9 4) k) 0 = .ok j) :
    repetition s p k = exec j (modArch s ci fun a => { a with repK := vset a.repK (cnum cl) (some (k, bitsAt p 17 8 + 1)) }) := by
  subst hf hl
  have hp : (if k = 0 then repTrap s (getCore s s.focusCore) s.focusCl p w i else none) = none := by
    split
    · exact hx ‹_›
    · rfl
  have hn' : (decide (0x78 ≤ majorOf w) || decide (bitsAt p 17 8 + 1 ≤ k)) = false := by
    rw [Bool.or_eq_false_iff, decide_eq_false_iff_not, decide_eq_false_iff_not]
    omega
  simp only [repetition, hw, decodeAt_ok ht hi, hp, hn', hj, Bool.false_eq_true, if_false]

end Repetition

/-! ## The word of a repetition -/

/-- What repetition `k` adds to field `j`. -/
def stepBy (fsel st k j : Nat) : Nat := if fsel / 2 ^ j % 2 = 1 then k * st else 0

theorem stepWord_eq (w : Word32) (fsel st k : Nat) : stepWord w fsel st k =
    w + BitVec.ofNat 32 (stepBy fsel st k 0 * 2 ^ 19 + stepBy fsel st k 1 * 2 ^ 13 + stepBy fsel st k 2 * 2 ^ 7 + stepBy fsel st k 3 * 2 ^ 4) := by
  simp only [stepWord, stepBy, ite_mul, Nat.zero_mul]

/-- The value of a word whose fields are given. -/
def fieldsNat (maj d a b m low : Nat) : Nat := maj * 2 ^ 25 + d * 2 ^ 19 + a * 2 ^ 13 + b * 2 ^ 7 + m * 2 ^ 4 + low

/-- A major is the seven bits above the others. -/
theorem bitsAt_major (w : Word32) : bitsAt w 25 7 = majorOf w := by
  have := w.isLt
  simp only [bitsAt, majorOf]
  omega

theorem toNat_eq_fieldsNat (w : Word32) :
    w.toNat = fieldsNat (bitsAt w 25 7) (bitsAt w 19 6) (bitsAt w 13 6) (bitsAt w 7 6) (bitsAt w 4 3) (bitsAt w 0 4) := by
  have := w.isLt
  simp only [fieldsNat, bitsAt]
  omega

/-- The fields of a word that is put together of them. -/
theorem bitsAt_fieldsNat {v : Word32} {maj d a b m low : Nat} (hv : v.toNat = fieldsNat maj d a b m low) (hd : d < 64)
    (ha : a < 64) (hb : b < 64) (hm : m < 8) (hl : low < 16) : bitsAt v 25 7 = maj ∧ bitsAt v 19 6 = d ∧ bitsAt v 13 6 = a ∧
      bitsAt v 7 6 = b ∧ bitsAt v 4 3 = m ∧ bitsAt v 0 4 = low := by
  simp only [fieldsNat] at hv
  simp only [bitsAt, hv]
  refine ⟨?_, ?_, ?_, ?_, ?_, ?_⟩ <;> omega

/-- A field that is stepped within its bits carries nothing into the next one. -/
theorem stepWord_toNat {w : Word32} {fsel st k : Nat} (h : ∀ j < 4, stepVal w j + stepBy fsel st k j ≤ if j = 3 then 7 else 63) :
    (stepWord w fsel st k).toNat = fieldsNat (bitsAt w 25 7) (bitsAt w 19 6 + stepBy fsel st k 0) (bitsAt w 13 6 + stepBy fsel st k 1)
      (bitsAt w 7 6 + stepBy fsel st k 2) (bitsAt w 4 3 + stepBy fsel st k 3) (bitsAt w 0 4) := by
  have h0 : bitsAt w 19 6 + stepBy fsel st k 0 ≤ 63 := h 0 (by decide)
  have h1 : bitsAt w 13 6 + stepBy fsel st k 1 ≤ 63 := h 1 (by decide)
  have h2 : bitsAt w 7 6 + stepBy fsel st k 2 ≤ 63 := h 2 (by decide)
  have h3 : bitsAt w 4 3 + stepBy fsel st k 3 ≤ 7 := h 3 (by decide)
  have hM : bitsAt w 25 7 < 128 := Nat.mod_lt _ (by decide)
  have hl : bitsAt w 0 4 < 16 := Nat.mod_lt _ (by decide)
  have hw := toNat_eq_fieldsNat w
  rw [stepWord_eq, BitVec.toNat_add, BitVec.toNat_ofNat, Nat.add_mod_mod, Nat.mod_eq_of_lt]
  · rw [hw]
    simp only [fieldsNat]
    ring
  · simp only [fieldsNat] at hw
    omega

/-- The word of a repetition: each selected field is stepped, and nothing else changes (R67). -/
theorem stepWord_fields {w : Word32} {fsel st k : Nat} (h : ∀ j < 4, stepVal w j + stepBy fsel st k j ≤ if j = 3 then 7 else 63) :
    bitsAt (stepWord w fsel st k) 25 7 = bitsAt w 25 7 ∧ bitsAt (stepWord w fsel st k) 0 4 = bitsAt w 0 4 ∧
      ∀ j < 4, stepVal (stepWord w fsel st k) j = stepVal w j + stepBy fsel st k j := by
  obtain ⟨hM, h0, h1, h2, h3, hl⟩ := bitsAt_fieldsNat (stepWord_toNat h) (Nat.lt_succ_of_le (h 0 (by decide)))
    (Nat.lt_succ_of_le (h 1 (by decide))) (Nat.lt_succ_of_le (h 2 (by decide))) (Nat.lt_succ_of_le (h 3 (by decide))) (Nat.mod_lt _ (by decide))
  refine ⟨hM, hl, fun j hj => ?_⟩
  interval_cases j
  · exact h0
  · exact h1
  · exact h2
  · exact h3

/-- No repetition steps a field further than the last one does. -/
theorem stepBy_le {fsel st k n j : Nat} (hk : k < n) (h : fsel / 2 ^ j % 2 = 1) : stepBy fsel st k j ≤ (n - 1) * st := by
  rw [stepBy, if_pos h]
  exact Nat.mul_le_mul_right st (Nat.le_sub_one_of_lt hk)

theorem stepVal_le (w : Word32) {j : Nat} (hj : j < 4) : stepVal w j ≤ if j = 3 then 7 else 63 := by
  interval_cases j <;> exact Nat.le_of_lt_succ (Nat.mod_lt _ (by decide))

/-- Where the last repetition keeps each selected field within its bits, every repetition does. -/
theorem stepBy_fits {w : Word32} {fsel st n k : Nat} (hk : k < n)
    (h : ∀ j < 4, fsel / 2 ^ j % 2 = 1 → stepVal w j + (n - 1) * st ≤ if j = 3 then 7 else 63) (j : Nat) (hj : j < 4) :
    stepVal w j + stepBy fsel st k j ≤ if j = 3 then 7 else 63 := by
  by_cases hs : fsel / 2 ^ j % 2 = 1
  · exact (Nat.add_le_add_left (stepBy_le hk hs) _).trans (h j hj hs)
  · rw [stepBy, if_neg hs]
    exact stepVal_le w hj

end Sys2Proof.Machine
end

section
/-! SUPPORT for O57. The errors of the SRAMs (R261), and the load and store queues (R142). -/

namespace Sys2Proof.Machine

/-! ## Errors of the SRAMs -/

theorem bitOf_putBit_self {n i : Nat} (v : BitVec n) (h : i < n) : bitOf (putBit v i true) i = true := by
  simp only [bitOf, putBit, if_true, BitVec.getLsbD_or, BitVec.getLsbD_ofNat, Nat.testBit_two_pow_self, h, decide_true, Bool.and_self, Bool.or_true]

theorem contains_natInsert (n : Nat) (l : List Nat) : (natInsert n l).contains n = true := by
  induction l with
  | nil => simp [natInsert]
  | cons k l ih =>
    unfold natInsert
    split
    · simp
    · split
      · simp [*]
      · simpa using .inr (List.contains_iff_mem.mp ih)

/-- The marks of a line once one of its words has been spoilt. -/
theorem bitOf_spoilWord {n w l : Nat} {m : BitVec 32} (h : l = n) (hw : w < 32) : bitOf (spoilWord n w l m) w = true := by
  rw [spoilWord, if_pos h, Nat.mod_eq_of_lt hw]
  exact bitOf_putBit_self m hw

/-- The write-back of a stash line with a spoilt word leaves the core itself as it was (R151). -/
theorem getCore_spoilHome (s : State) {ci : Nat} (h : ci < 72) (line word : Nat) : getCore (spoilHome s ci line word) ci = getCore s ci :=
  getCore_touchLine_self s _ ci h _ 0

theorem upset_l1 (u : State) {k : Nat} (hk : k < 72) (n : Nat) {w : Nat} (hw : w < 32) :
    ∀ x ∈ (getCore (upset u (.l1 k n w)) k).l1, x.line = n → bitOf x.marks w = true := by
  rw [upset, getCore_modCore_self _ _ hk]
  intro x hx hn
  obtain ⟨y, -, rfl⟩ := List.mem_map.mp hx
  exact bitOf_spoilWord hn hw

theorem upset_stash (u : State) {k : Nat} (hk : k < 72) (n : Nat) {w : Nat} (hw : w < 32) :
    ∀ x ∈ (getCore (upset u (.stash k n w)) k).stash, x.line = n → bitOf x.marks w = true := by
  have hc : getCore (upset u (.stash k n w)) k = { getCore u k with
      stash := (getCore u k).stash.map fun y => { y with marks := spoilWord n w y.line y.marks } } := by
    unfold upset
    dsimp only
    split
    · exact (getCore_spoilHome _ hk n w).trans (getCore_modCore_self u _ hk)
    · exact getCore_modCore_self u _ hk
  rw [hc]
  intro x hx hn
  obtain ⟨y, -, rfl⟩ := List.mem_map.mp hx
  exact bitOf_spoilWord hn hw

theorem getDie_modDie_self (s : State) {d : Nat} (f : Die → Die) (h : d < 2) : getDie (modDie s d f) d = f (getDie s d) := by
  simp [modDie, h]

theorem upset_dcache (u : State) {d : Nat} (hd : d < 2) (n : Nat) {w : Nat} (hw : w < 32) :
    ∀ x ∈ (getDie (upset u (.dcache d n w)) d).dcache, x.line = n → bitOf x.marks w = true := by
  rw [upset, getDie_modDie_self _ _ hd]
  intro x hx hn
  obtain ⟨y, -, rfl⟩ := List.mem_map.mp hx
  exact bitOf_spoilWord hn hw

theorem upset_scr (u : State) {k : Nat} (hk : k < 72) {n : Nat} (hn : n < 2097152) :
    (getCore (upset u (.scr k n)) k).badScr.contains n = true := by
  rw [upset, getCore_modCore_self _ _ hk, Nat.mod_eq_of_lt hn]
  exact contains_natInsert n _

theorem upset_ost (u : State) {k : Nat} (hk : k < 72) {n : Nat} (hn : n < 131072) :
    (getCore (upset u (.ost k n)) k).badOst.contains n = true := by
  rw [upset, getCore_modCore_self _ _ hk, Nat.mod_eq_of_lt hn]
  exact contains_natInsert n _

/-! ## The load and store queues -/

theorem performed_of {s t : State} {q : Queued} {b : Bundle}
    (h : exec q.instr { s with focusCore := q.core, focusCl := q.cl, bundle := some (freshBundle q.pre) } = .next t)
    (hb : t.bundle = some b) (hr : b.raised = none) (hs : b.stalled = false) :
    performed s q = some (modArch { t with focusCore := s.focusCore, focusCl := s.focusCl, bundle := s.bundle } q.core fun a =>
      deliverTok a q.push) := by
  simp [performed, h, hb, hr, hs]

/-- The oldest access is that of its own queue. -/
theorem performNext_head {s t : State} {q : Queued} {l : List Queued} (hs : s.accesses = q :: l) (h : performed s q = some t) :
    performNext s q.core q.cl = { t with accesses := l } := by
  simp [performNext, hs, h]

theorem lateSlot_passes {s : State} {cl : Cluster} {a : Word} {w : Word32} (hw : fetchWord s s.focusCore a = .ok w)
    (hp : passesQueues (majorOf w) = true) : lateSlot s cl a = some none := by
  simp only [lateSlot, hw, hp, if_true]

theorem lateSlot_access {s : State} {cl : Cluster} {a : Word} {w : Word32} {i j : Instr} {tk : Tk} {l : List Nat}
    (hw : fetchWord s s.focusCore a = .ok w) (hp : passesQueues (majorOf w) = false)
    (hi : fetchInstr { s with focusCl := cl } a a = .ok i) (hj : queueForm i = some (j, tk, l)) (hl : portsOf (getCore s s.focusCore) l = [])
    (ho : popReady (getCore s s.focusCore).a (popPair cl tk.tkin.toNat) = true)
    (hu : pushReady (getCore s s.focusCore).a (pushPair cl tk.tkout.toNat) = true) :
    lateSlot s cl a = some (some (⟨s.focusCore, cl, j, getCore s s.focusCore, pushPair cl tk.tkout.toNat⟩, tk)) := by
  simp only [lateSlot, hw, hp, hi, hj, hl, ho, hu, Bool.false_eq_true, if_false, List.isEmpty_nil, Bool.and_self, if_true]

theorem lateNext_split {s : State} {x : Option (Queued × Tk)} (hm : (getCore s s.focusCore).a.mode = .split)
    (hst : vget (getCore s s.focusCore).a.clst .run (cnum s.focusCl) = .run)
    (hr : vget (getCore s s.focusCore).a.repK none (cnum s.focusCl) = none)
    (hx : lateSlot s s.focusCl (pcOf (getCore s s.focusCore) s.focusCl) = some x) : lateNext s = some [(s.focusCl, x)] := by
  simp [lateNext, hm, hst, hr, hx]

/-- An access enters its queue: its token is popped, and its push held. -/
def enterQueue (s : State) (q : Queued) (tk : Tk) : State :=
  let v := modArch s q.core fun a => holdTok (popTok a (popPair q.cl tk.tkin.toNat)) q.push
  { v with accesses := v.accesses ++ [q] }

/-- An access alone enters its queue, and the program counter goes on. -/
theorem lateIssue_access {s : State} {q : Queued} {tk : Tk} (hm : (getCore s s.focusCore).a.mode = .split) :
    lateIssue s [(s.focusCl, some (q, tk))] = some (enterQueue (modCore s s.focusCore fun c => advance c s.focusCl 0) q tk) := by
  simp [lateIssue, hm, lateTokens, lateAccesses, enterQueue]

/-! ## An issue that leaves the queues -/

theorem inOrder_iff (s u : State) (ci : Nat) :
    inOrder s u ci = true ↔ ∃ v, issueFocus (performAll s) = .next v ∧ coreSeen (performAll u) ci = coreSeen v ci := by
  unfold inOrder
  cases issueFocus (performAll s) <;> simp

/-- The number of accesses that wait in the queue of an access. -/
def queueLength (f : State) (q : Queued) : Nat := (f.accesses.filter fun z => z.core == q.core && z.cl == q.cl).length

/-- Nothing keeps a core that issues from leaving its accesses in the queues. -/
theorem late_unguarded {s : State} {ci : Nat} (h : CoreIssues s ci) (hr : fetchRetry s = false) :
    ¬ ((getCore s ci).run ≠ .running ∨ (getCore s ci).freeze.isSome ∨ s.alarm ≠ .none ∨ !(getCore s ci).engTraps.isEmpty ∨ fetchRetry s) := by
  simp [h.run, h.freeze, h.alarm, h.engTraps, hr]

section Late

variable {s : State} {ci : Nat} (hf : s.focusCore = ci) (h : CoreIssues s ci) (hr : fetchRetry s = false)
include hf h hr

theorem issueLate_none (hl : lateNext (fetchAhead s) = none) : issueLate s = issueFocus (performAll s) := by
  have hg := late_unguarded h hr
  subst hf
  simp only [issueLate, if_neg hg, hl]

variable {l : List (Cluster × Option (Queued × Tk))} (hl : lateNext (fetchAhead s) = some l)
include hl

theorem issueLate_full (hq : ∃ q ∈ lateAccesses l, 32 ≤ queueLength (fetchAhead s) q) : issueLate s = .next s := by
  have hg := late_unguarded h hr
  subst hf
  have hroom : ((lateAccesses l).all fun q => decide (queueLength (fetchAhead s) q < 32)) = false := by simpa using hq
  unfold queueLength at hroom
  simp only [issueLate, if_neg hg, hl, hroom, Bool.not_false, if_true]

variable (hq : ∀ q ∈ lateAccesses l, queueLength (fetchAhead s) q < 32)
include hq

theorem issueLate_late {u : State} (hu : lateIssue (fetchAhead s) l = some u) (ho : inOrder s u ci = true) : issueLate s = .next u := by
  have hg := late_unguarded h hr
  subst hf
  have hroom : ((lateAccesses l).all fun q => decide (queueLength (fetchAhead s) q < 32)) = true := by simpa using hq
  unfold queueLength at hroom
  simp only [issueLate, if_neg hg, hl, hroom, hu, ho, Bool.not_true, Bool.false_eq_true, if_false, if_true]

theorem issueLate_inOrder (hu : ∀ u, lateIssue (fetchAhead s) l = some u → inOrder s u ci = false) :
    issueLate s = issueFocus (performAll s) := by
  have hg := late_unguarded h hr
  subst hf
  have hroom : ((lateAccesses l).all fun q => decide (queueLength (fetchAhead s) q < 32)) = true := by simpa using hq
  unfold queueLength at hroom
  cases hi : lateIssue (fetchAhead s) l with
  | none => simp only [issueLate, if_neg hg, hl, hroom, hi, Bool.not_true, Bool.false_eq_true, if_false]
  | some u => simp only [issueLate, if_neg hg, hl, hroom, hi, hu u hi, Bool.not_true, Bool.false_eq_true, if_false]

end Late

end Sys2Proof.Machine
end

section
/-! O57. A step, by the act of its move. -/

namespace Sys2Proof.Machine

/-- Settles O57: the move selects the issue, the access, the error or the step; each clause is then the lemma of what that answers. -/
theorem stepRunsDecoded : Obligations.StepRunsDecoded := by
  unfold Obligations.StepRunsDecoded
  intro s m r ci cl hs hci s0 s1 s2 e c c2 here runs p done
  have hf1 : s1.focusCore = ci := congrArg Prod.fst (focus_performAll s0)
  have hl1 : s1.focusCl = cl := congrArg Prod.snd (focus_performAll s0)
  have hf2 : s2.focusCore = ci := (congrArg Prod.fst (focus_fetchAhead s1)).trans hf1
  have hl2 : s2.focusCl = cl := (congrArg Prod.snd (focus_fetchAhead s1)).trans hl1
  have hdone : ∀ o, afterWalk s1 ci o = done o := fun o => by cases o <;> rfl
  have hissues : here → CoreIssues s1 ci := fun ⟨h1, h2, h3, h4⟩ => ⟨h1, h2, h3, h4⟩
  have hstep : m.act = .issue ci cl → step s = issueFocus s1 := fun ha => (step_move hs).trans (runMove_issue ha hci)
  have hsplit : m.act = .issue ci cl → runs → c.a.mode = .split → step s = done (issueSplit s2) := fun ha ⟨hh, hr⟩ hm =>
    (hstep ha).trans ((issueFocus_split hf1 (hissues hh) hr hm).trans (hdone _))
  refine ⟨fun t => noteWalk_same, ?split, ?joint, ?retry, ?slot, ?finish, ?advance, ?rep, ?upset, ?sram, ?event, ?performed, ?lateSlot,
    ?lateIssue, ?late, ?perform⟩
  case split =>
    intro ha hr hm hst hrep
    refine ⟨fun x hx => ?_, fun w x hw hx => ?_, fun w i hw ht hi => ⟨fun hv => ?_, fun l j hv ho hl hj => ?_⟩⟩
    · rw [hsplit ha hr hm, issueSplit_error hf2 hl2 hst hrep (fetchInstr_error hf2 hx)]
    · rw [hsplit ha hr hm, issueSplit_error hf2 hl2 hst hrep ((fetchInstr_ok hf2 hw).trans (decodeLit_trap hx))]
    · rw [hsplit ha hr hm, issueSplit_ok hf2 hl2 hst hrep ((fetchInstr_ok hf2 hw).trans (decodeLit_alone ht hi hv))]
    · have hl' : fetchWord s2 (envOf s2).ci (p + 4) = .ok l := by rw [envOf_ci, hf2, hl]
      rw [hsplit ha hr hm, issueSplit_ok hf2 hl2 hst hrep ((fetchInstr_ok hf2 hw).trans (decodeLit_literal ht hi hv ho hl' hj))]
  case joint =>
    intro ha ⟨hh, hr⟩ hm hst b opened
    rw [hstep ha, issueFocus_joint hf1 (hissues hh) hr hm, issueJoint_run hf2 hst, hdone]
    rfl
  case retry => exact fun ha hh hr => (hstep ha).trans (issueFocus_retry hf1 hci (hissues hh) hr)
  case slot =>
    intro pre u sl w i hn hl hcu v v0 a
    have hf : u.focusCore = ci := hcu.symm
    have hk : slotSkipped pre sl = false := slotSkipped_false hn hl
    refine ⟨fun hq hw hv ht hi => issueSlot_exec hf hk (slotWord_memory hci hq hw) (.inl hq) (slotSquashed_none hq) hv ht hi, fun q hq => ?_⟩
    intro stage squash got maj barred
    refine ⟨fun hg hb => ?_, fun hg hb hsq => ?_, fun hg hb hsq ht hi => ?_⟩
    · exact issueSlot_barred hf hk (slotWord_row hci hq hg) hq ((bodyForbidden_iff _).mpr hb)
    · have hb' := Bool.eq_false_iff.mpr fun h => hb ((bodyForbidden_iff _).mp h)
      exact issueSlot_squashed hf hk (slotWord_row hci hq hg) (.inr hb') ((slotSquashed_iff hq).mpr hsq)
    · have hb' := Bool.eq_false_iff.mpr fun h => hb ((bodyForbidden_iff _).mp h)
      have hv : majorOf w ≠ 0x58 := fun h => hb (.inr (.inl (by simp [maj, h])))
      exact issueSlot_exec hf hk (slotWord_row hci hq hg) (.inr hb') (Bool.eq_false_iff.mpr fun h => hsq ((slotSquashed_iff hq).mp h)) hv ht hi
  case finish =>
    exact fun u t b => ⟨finishBundle_stalled, fun _ _ => finishBundle_raised, fun hb hr hm ht hp => finishBundle_sequence hb hr hm ht hp⟩
  case advance => exact fun k => ⟨advanceJoint_none, fun q hq => ⟨advanceJoint_row hq, advanceJoint_iteration hq, advanceJoint_last hq⟩⟩
  case rep =>
    intro n₀ z pw ha hr hm hst hrep hpw n fsel st past trap top
    have hrun : majorOf pw = 0x0F → step s = done (repetition s2 pw n₀) := fun hp => by
      rw [hsplit ha hr hm, issueSplit_rep hf2 hl2 hst hrep hpw hp]
    refine ⟨fun hp => ?_, fun x hp hx => ?_, fun w x hp hw hx => ?_, fun w i hp hw ht hi => ?_⟩
    · rw [hsplit ha hr hm, issueSplit_noRep hf2 hl2 hst hrep hpw hp]
    · rw [hrun hp, repetition_fetchTrap hf2 hl2 hx]
    · rw [hrun hp, repetition_slotTrap hf2 hl2 hw hx]
    intro maj emul inside field val fits defined
    have htop : windowTop cl = top := by cases cl <;> rfl
    have hfits : fits ↔ allStep i w cl fsel n st = true := by
      rw [allStep_iff, htop]
      rfl
    have htrap {x : Trap} (h0 : n₀ = 0) (hx : repTrap s2 c2 cl pw w i = some x) : step s = done (.next (takeTrap s2 ci cl x)) := by
      rw [hrun hp, repetition_trap hf2 hl2 hw ht hi h0 hx]
    refine ⟨fun h0 hu => htrap h0 (repTrap_undefined hu), fun h0 hu he => ?emul, fun h0 hu he hd => htrap h0 (repTrap_window hu he hd),
      fun h0 ⟨hu, he, hd⟩ hl => htrap h0 (repTrap_target hu he hd hl), fun h0 ⟨hu, he, hd⟩ hl h78 => ?hint,
      fun h0 ⟨hu, he, hd⟩ hl h78 hn => ?fields, fun j h0 ⟨hu, he, hd⟩ hl h78 hn hj => ?first, fun j h0 hn h78 hj => ?later,
      fun h0 hn => ?past, fun k hk hv => ?word⟩
    case emul =>
      rw [htrap h0 (repTrap_emul hu he)]
      unfold emulTrap
      split <;> rfl
    case hint => rw [hrun hp, repetition_past hf2 hl2 hw ht hi (fun _ => repTrap_hint hu he hd hl h78) (.inl h78)]; rfl
    case fields => exact htrap h0 (repTrap_fields hu he hd hl h78 (Bool.eq_false_iff.mpr fun h => hn (hfits.mpr h)))
    case first =>
      subst h0
      rw [hrun hp, repetition_exec hf2 hl2 hw ht hi (fun _ => repTrap_passed hu he hd hl h78 (hfits.mp hn)) h78 (Nat.succ_pos _) hj]
    case later => rw [hrun hp, repetition_exec hf2 hl2 hw ht hi (fun h => absurd h h0.ne') h78 hn hj]
    case past => rw [hrun hp, repetition_past hf2 hl2 hw ht hi (fun h => absurd h h0.ne') hn.symm]; rfl
    case word =>
      obtain ⟨h1, h2, h3⟩ := stepWord_fields (stepBy_fits hk hv)
      exact ⟨h1.trans (bitsAt_major w), h2, h3⟩
  case upset => exact fun x hx => (step_move hs).trans (runMove_upset hx)
  case sram =>
    exact fun u k n w d hk hd hw => ⟨rfl, upset_l1 u hk n hw, upset_stash u hk n hw, upset_dcache u hd n hw, upset_scr u hk, upset_ost u hk⟩
  case event => exact fun i hx hw ho ha => (step_move hs).trans (runMove_event hx hw ho ha)
  case performed => exact fun u q t b h hb hr hs => performed_of h hb hr hs
  case lateSlot =>
    exact fun u sl a w hw => ⟨lateSlot_passes hw, fun i j tk l hp hi hj hl ho hu => lateSlot_access hw hp hi hj hl ho hu⟩
  case lateIssue =>
    intro u x c hm hst hr hx
    refine ⟨lateNext_split hm hst hr hx, fun q tk hq => ?_⟩
    subst hq
    exact lateIssue_access hm
  case late =>
    intro ha h1 h2 h3 h4 hr f used late
    have hlate : step s = issueLate s0 := (step_move hs).trans (runMove_late ha hci)
    have hi : CoreIssues s0 ci := ⟨h1, h2, h3, h4⟩
    refine ⟨fun hl => hlate.trans (issueLate_none rfl hi hr hl), fun l hl => ⟨fun hq => hlate.trans (issueLate_full rfl hi hr hl hq),
      fun hq => ⟨fun u hu ho => ?_, fun hn => ?_⟩⟩⟩
    · exact hlate.trans (issueLate_late rfl hi hr hl hq hu ((inOrder_iff ..).mpr ho))
    · exact hlate.trans (issueLate_inOrder rfl hi hr hl hq fun u hu => Bool.eq_false_iff.mpr fun h => hn u hu ((inOrder_iff ..).mp h))
  case perform =>
    intro q l t ha hacc hq hc hp
    rw [step_move hs, runMove_perform ha hci, ← hq, ← hc]
    exact congrArg Host.Outcome.next (performNext_head (s := passTime { s with agenda := r } m.ns m.cc) hacc hp)

end Sys2Proof.Machine
end

section
/-! O2. The quotients and remainders of R79. -/

namespace Sys2Proof.Machine

/-- A division always completes: with a poisoned result, or with the result of its operands and SAT as it says. -/
theorem divideX_done (e : Env) (s : State) (d a b : BitVec 6) (f : Word → Word → Word × Bool) :
    divideX e s d a b f = .done (if (e.x a).psn || (e.x b).psn then setX e s d 0 true
      else addFlags (setX e s d (f (e.x a).val (e.x b).val).1 false) e.ci { sat := (f (e.x a).val (e.x b).val).2 }) := by
  unfold divideX
  split <;> rfl

/-- A word of division that issues goes on with the value of its operands. -/
theorem exec_division {i : Instr} {s : State} {d a b : BitVec 6} {g : BitVec 3} {f r : Word → Word → Word × Bool}
    (hi : exec i s = issueA (encodeNat i) [d] g s fun e s => divideX e s d a b f) (hf : ∀ x y, f x y = r x y)
    (h : MayIssue (encodeNat i) [d] g tkNone s) :
    let e := issueEnv tkNone s
    let v := r (e.x a).val (e.x b).val
    exec i s = .next (goOn tkNone s (if (e.x a).psn || (e.x b).psn then setX e s d 0 true
      else addFlags (setX e s d v.1 false) s.focusCore { sat := v.2 })) := by
  obtain rfl : f = r := funext fun x => funext (hf x)
  refine hi.trans (issue_done h ?_)
  rw [issued_tkNone]
  exact divideX_done ..

/-- The signed quotient with its clamped cases (R79). -/
theorem divS_quotient (x y : Word) : ((divS x y).1, (divS x y).2.2) =
    if y = 0 then ((if x = 0 then 0 else if x.msb then BitVec.ofNat 64 (2 ^ 63) else BitVec.ofNat 64 (2 ^ 63 - 1)), true)
    else if x = BitVec.ofNat 64 (2 ^ 63) ∧ y = BitVec.ofNat 64 (2 ^ 64 - 1) then (BitVec.ofNat 64 (2 ^ 63 - 1), true)
    else (BitVec.ofInt 64 (x.toInt.tdiv y.toInt), false) := by
  unfold divS
  split_ifs <;> rfl

/-- The unsigned quotient with its clamped case (R79). -/
theorem divU_quotient (x y : Word) : ((divU x y).1, (divU x y).2.2) =
    if y = 0 then ((if x = 0 then 0 else BitVec.ofNat 64 (2 ^ 64 - 1)), true) else (BitVec.ofNat 64 (x.toNat / y.toNat), false) := by
  unfold divU
  split_ifs <;> rfl

/-- The signed remainder is what the truncated quotient leaves (R79). -/
theorem divS_remainder (x y : Word) : ((divS x y).2.1, (divS x y).2.2) =
    if y = 0 then (x, true)
    else if x = BitVec.ofNat 64 (2 ^ 63) ∧ y = BitVec.ofNat 64 (2 ^ 64 - 1) then (0, true)
    else (BitVec.ofInt 64 (x.toInt - y.toInt * x.toInt.tdiv y.toInt), false) := by
  rw [← Int.tmod_def]
  unfold divS
  split_ifs <;> rfl

/-- The unsigned remainder is what the quotient leaves (R79). -/
theorem divU_remainder (x y : Word) : ((divU x y).2.1, (divU x y).2.2) =
    if y = 0 then (x, true) else (BitVec.ofNat 64 (x.toNat - y.toNat * (x.toNat / y.toNat)), false) := by
  rw [← Nat.mod_eq_sub]
  unfold divU
  split_ifs <;> rfl

/-- Settles O2: each of the four words is one division, whose value is that of R79. -/
theorem divisionResults : Obligations.DivisionResults := by
  unfold Obligations.DivisionResults
  intro s d a b g
  rw [List.forall_mem_cons, List.forall_mem_cons, List.forall_mem_cons, List.forall_mem_cons]
  exact ⟨exec_division (exec_quotS d a b g s) divS_quotient, exec_division (exec_quotU d a b g s) divU_quotient,
    exec_division (exec_rmdrS d a b g s) divS_remainder, exec_division (exec_rmdrU d a b g s) divU_remainder, List.forall_mem_nil _⟩

end Sys2Proof.Machine
end

section
/-! O42. An operand store that is not in canonical form does not read back the zero that is written into it. -/

namespace Sys2Proof.Machine

/-- A core whose operand store lists lane 0 twice, with 1 both times: not the canonical form (`Sparse.wf`), which `State` does not demand and O42
does not suppose. -/
def coreLaneTwice : Core := { Core.zero with ost := [(0, { data := 1, psn := false }), (0, { data := 1, psn := false })] }

/-- An element set to 0 on that core reads 1: writing the default removes the lane's first entry, and `Sparse.get` then finds its second. -/
theorem accRaw_putAcc_coreLaneTwice : accRaw (putAcc coreLaneTwice 0 0 0 0 0) 0 0 0 0 = 1 := by decide

/-- Refutes O42: its clause that an accumulator element reads as it was written (R63) is for every state, and fails where the operand store
lists a lane twice. -/
theorem not_matrixEvents : ¬ Obligations.MatrixEvents := by
  unfold Obligations.MatrixEvents
  intro h
  obtain ⟨-, -, -, -, -, -, hread, -⟩ := h (putCore State.reset 0 coreLaneTwice) 0 0 (by decide)
  rw [getCore_putCore_self _ _ (by decide)] at hread
  have hzero : accRaw (putAcc coreLaneTwice 0 0 0 0 0) 0 0 0 0 = 0 := hread 0 0 0 0 0 (by decide) (by decide) (by decide)
  rw [accRaw_putAcc_coreLaneTwice] at hzero
  exact absurd hzero (by decide)

end Sys2Proof.Machine
end

section
/-! SUPPORT. How a word without token fields ends, whatever its guard: one lemma per end of its meaning. -/

namespace Sys2Proof.Machine

section Ends

variable {i : Instr} {dsts : List (BitVec 6)} {g : BitVec 3} {s t : State} {sem : Env → State → Res}
  (hi : exec i s = issueA (encodeNat i) dsts g s sem) (h : MayIssue (encodeNat i) dsts g tkNone s)
include hi h

/-- It completes. -/
theorem exec_completes (hs : sem (issueEnv tkNone s) s = .done t) : exec i s = .next (goOn tkNone s t) :=
  hi.trans (issue_done h (by rw [issued_tkNone, hs]))

/-- It raises a cause. -/
theorem exec_raises {x : Trap} (hs : sem (issueEnv tkNone s) s = .raise x) : exec i s = .next (goTrap s x) :=
  hi.trans (issue_raise h (by rw [issued_tkNone, hs]))

/-- It waits. -/
theorem exec_waits (hs : sem (issueEnv tkNone s) s = .stall) : exec i s = .next (goWait s) :=
  hi.trans (issue_stall h (by rw [issued_tkNone, hs]))

/-- It transfers control. -/
theorem exec_jumps {a : Word} (hs : sem (issueEnv tkNone s) s = .jump t a) : exec i s = .next (goTo s t a) :=
  hi.trans (issue_jump h (by rw [issued_tkNone, hs]))

/-- It places the program counters itself. -/
theorem exec_places (hs : sem (issueEnv tkNone s) s = .set t) : exec i s = .next (goSet s t) :=
  hi.trans (issue_set h (by rw [issued_tkNone, hs]))

end Ends

end Sys2Proof.Machine
end

section
/-! O1, O3 and O4. The integer forms, the immediates, `himm` and `adpc`. -/

namespace Sys2Proof.Machine

/-! ## Integer results (R101, R106, R107) -/

/-- A form of two operands completes, with the data zero and the side bit for a poisoned one (R101). -/
theorem binaryX_done (e : Env) (s : State) (d a b : BitVec 6) (f : Word → Word → Word) :
    binaryX e s d a b f = .done (if (e.x a).psn || (e.x b).psn then setX e s d 0 true else setX e s d (f (e.x a).val (e.x b).val) false) := by
  unfold binaryX
  split <;> rfl

/-- A form of one operand, likewise. -/
theorem unaryX_done (e : Env) (s : State) (d a : BitVec 6) (f : Word → Word) :
    unaryX e s d a f = .done (if (e.x a).psn then setX e s d 0 true else setX e s d (f (e.x a).val) false) := by
  unfold unaryX
  split <;> rfl

/-- A word of two operands that issues writes its result. -/
theorem exec_binaryX {i : Instr} {s : State} {d a b : BitVec 6} {g : BitVec 3} {f : Word → Word → Word}
    (hi : exec i s = issueA (encodeNat i) [d] g s fun e s => binaryX e s d a b f) (h : MayIssue (encodeNat i) [d] g tkNone s) :
    let e := issueEnv tkNone s
    exec i s = .next (goOn tkNone s
      (if (e.x a).psn || (e.x b).psn then setX e s d 0 true else setX e s d (f (e.x a).val (e.x b).val) false)) :=
  exec_completes hi h (binaryX_done ..)

/-- A word of one operand that issues writes its result. -/
theorem exec_unaryX {i : Instr} {s : State} {d a : BitVec 6} {f : Word → Word}
    (hi : exec i s = issueI (encodeNat i) [d] s fun e s => unaryX e s d a f) (h : MayIssue (encodeNat i) [d] 0 tkNone s) :
    let e := issueEnv tkNone s
    exec i s = .next (goOn tkNone s (if (e.x a).psn then setX e s d 0 true else setX e s d (f (e.x a).val) false)) :=
  exec_completes hi h (unaryX_done ..)

/-- Settles O1: each form is one operation on its two operands. -/
theorem integerResults : Obligations.IntegerResults := by
  unfold Obligations.IntegerResults
  intro s d a b g
  repeat rw [List.forall_mem_cons]
  exact ⟨exec_binaryX (exec_add d a b g s), exec_binaryX (exec_sub d a b g s), exec_binaryX (exec_and d a b g s), exec_binaryX (exec_or d a b g s),
    exec_binaryX (exec_xor d a b g s), exec_binaryX (exec_sll d a b g s), exec_binaryX (exec_srl d a b g s), exec_binaryX (exec_sra d a b g s),
    exec_binaryX (exec_mul d a b g s), exec_binaryX (exec_mulhiS d a b g s), exec_binaryX (exec_mulhiU d a b g s),
    List.forall_mem_nil _⟩

/-! ## The words of major 0x06 (R107) -/

/-- A word of major 0x06 whose kind is 0b11 selects no row. -/
theorem decodeWord_kind3 {w lit : Word32} (hm : majorOf w = 0x06) (hk : bitsAt w 11 2 = 3) : decodeWord w lit = .error .unassigned := by
  have hr : decodeMajor06 w = none := by
    unfold decodeMajor06
    rw [hk]
    rfl
  unfold decodeWord
  rw [Laws.raw_06 hm, hr]

/-- The bits that must be zero are zero in every word that a shift with an immediate encodes to. -/
theorem encDAS_mustBeZero (k : Nat) (d a sf : BitVec 6) :
    (BitVec.ofNat 32 (encDAS (0x0C000000 + k * 2 ^ 11) d a sf)).toNat / 2 ^ 6 % 32 = 0 := by
  unfold encDAS
  have := d.isLt
  have := a.isLt
  have := sf.isLt
  rw [BitVec.toNat_ofNat]
  omega

/-- A word of major 0x06 reads as a shift by an immediate, whose own word has its kind. -/
theorem decodeMajor06_kind {w : Word32} (hk : bitsAt w 11 2 ≠ 3) : ∃ i k, decodeMajor06 w = some i ∧
    encodeWord i = BitVec.ofNat 32 (encDAS (0x0C000000 + k * 2 ^ 11) (bitsOf w 19 6) (bitsOf w 13 6) (bitsOf w 0 6)) := by
  unfold decodeMajor06
  have : bitsAt w 11 2 < 4 := Nat.mod_lt _ (by decide)
  interval_cases bitsAt w 11 2
  · exact ⟨_, 0, rfl, rfl⟩
  · exact ⟨_, 1, rfl, rfl⟩
  · exact ⟨_, 2, rfl, rfl⟩
  · exact absurd rfl hk

/-- A word of major 0x06 with a bit set that must be zero is refused. -/
theorem decodeWord_mustBeZero {w lit : Word32} (hm : majorOf w = 0x06) (hk : bitsAt w 11 2 ≠ 3) (hz : bitsAt w 6 5 ≠ 0) :
    decodeWord w lit = .error .mustBeZero := by
  obtain ⟨i, k, hi, he⟩ := decodeMajor06_kind hk
  have hne : encodeWord i ≠ w := by
    rintro rfl
    apply hz
    unfold bitsAt
    conv_lhs => rw [he]
    exact encDAS_mustBeZero ..
  unfold decodeWord
  rw [Laws.raw_06 hm, hi]
  exact if_pos (.inl hne)

/-- A word that passes the checks of its slot and selects no row raises UDF (R51). -/
theorem decodeAt_unassigned {s : State} {e : Env} {w lit : Word32} (h : slotTrap w.toNat s e = none)
    (hd : decodeWord w lit = .error .unassigned) : decodeAt s e w lit = .error (mkTrap 0x01 1 (w.setWidth 64)) := by
  simp only [decodeAt, h, hd]

/-- A word that passes the checks of its slot and has a reserved bit set raises RESERVED_FIELD (R51). -/
theorem decodeAt_mustBeZero {s : State} {e : Env} {w lit : Word32} (h : slotTrap w.toNat s e = none)
    (hd : decodeWord w lit = .error .mustBeZero) : decodeAt s e w lit = .error (mkTrap 0x03 0 (w.setWidth 64)) := by
  simp only [decodeAt, h, hd]

/-- Settles O3: the kind of major 0x06 selects the row, and each form is one operation on its operand. -/
theorem immediateResults : Obligations.ImmediateResults := by
  unfold Obligations.ImmediateResults
  intro s d a sh i w lit
  repeat rw [List.forall_mem_cons]
  exact ⟨fun hm => ⟨fun hk h => decodeAt_unassigned h (decodeWord_kind3 hm hk),
      fun hk hz h => decodeAt_mustBeZero h (decodeWord_mustBeZero hm hk hz)⟩,
    exec_unaryX (exec_addi d a i s), exec_unaryX (exec_andi d a i s), exec_unaryX (exec_ori d a i s), exec_unaryX (exec_xori d a i s),
    exec_unaryX (exec_slli d a sh s), exec_unaryX (exec_srli d a sh s), exec_unaryX (exec_srai d a sh s), List.forall_mem_nil _⟩

/-! ## The upper immediates (R42, R108) -/

/-- Settles O4: each word writes the value that it carries, `adpc` with its address (R41) added. -/
theorem upperImmediateResults : Obligations.UpperImmediateResults := by
  unfold Obligations.UpperImmediateResults
  intro s d i
  exact ⟨fun h => exec_completes (exec_himm d i s) h rfl, fun h => exec_completes (exec_adpc d i s) h rfl⟩

end Sys2Proof.Machine
end

section
/-! O5 and O6. Compares into a flag, flag logic, and the poison forms. -/

namespace Sys2Proof.Machine

/-! ## Relations (R109, R110) -/

theorem relHolds_eq (x y : Word) : relHolds 0 x y = decide (x = y) := rfl

theorem relHolds_ne (x y : Word) : relHolds 1 x y = decide (x ≠ y) := decide_not.symm

theorem relHolds_lt (x y : Word) : relHolds 2 x y = decide (x.toInt < y.toInt) := rfl

theorem relHolds_ge (x y : Word) : relHolds 3 x y = decide (y.toInt ≤ x.toInt) := by
  rw [show relHolds 3 x y = !decide (x.toInt < y.toInt) from rfl, ← decide_not, decide_eq_decide]
  exact not_lt

theorem relHolds_ltu (x y : Word) : relHolds 4 x y = decide (x.toNat < y.toNat) := rfl

theorem relHolds_geu (x y : Word) : relHolds 5 x y = decide (y.toNat ≤ x.toNat) := by
  rw [show relHolds 5 x y = !decide (x.toNat < y.toNat) from rfl, ← decide_not, decide_eq_decide]
  exact not_lt

/-! ## Compares (R102, R109, R110) -/

/-- A poisoned operand that a word consumes with detail 3 (R102, R269). -/
def poisoned (k : BitVec 6) : Trap := mkTrap 0x20 3 (BitVec.ofNat 64 k.toNat)

/-- A meaning that consumes one operand, which is poisoned. -/
theorem consume_poisoned {e : Env} {a : BitVec 6} (ha : (e.x a).psn = true) (r : Res) : consume e [(a, 3)] r = .raise (poisoned a) :=
  consume_poison (by simp [poisonTrap, ha, lowestDetail, poisoned])

/-- A meaning that consumes two operands of which one is poisoned: the first such is named (log 53). -/
theorem consume_eitherPoisoned {e : Env} {a b : BitVec 6} (h : (e.x a).psn = true ∨ (e.x b).psn = true) (r : Res) :
    consume e [(a, 3), (b, 3)] r = .raise (poisoned (if (e.x a).psn then a else b)) := by
  refine consume_poison ?_
  cases ha : (e.x a).psn with
  | true => simp [poisonTrap, ha, lowestDetail, poisoned]
  | false =>
    have hb : (e.x b).psn = true := h.resolve_left (by simp [ha])
    simp [poisonTrap, ha, hb, lowestDetail, poisoned]

section Compare

variable {i : Instr} {s : State} {a : BitVec 6} {code : Nat} {rel : Word → Word → Bool}

/-- A compare of two registers that issues writes its flag. -/
theorem exec_compareX {d b : BitVec 6} {g : BitVec 3} (hi : exec i s = issueA (encodeNat i) [] g s fun e s => compareX e s code d a b)
    (hr : ∀ x y, relHolds code x y = rel x y) (h : MayIssue (encodeNat i) [] g tkNone s) :
    let e := issueEnv tkNone s
    (e.x a).psn = false → (e.x b).psn = false → exec i s = .next (goOn tkNone s (setFlag e s d.toNat (rel (e.x a).val (e.x b).val))) := by
  intro e ha hb
  rw [← hr]
  exact exec_completes hi h (consume_two ha hb _)

/-- A compare with an immediate that issues writes its flag. -/
theorem exec_compareI {f : BitVec 3} {k : BitVec 13} (hi : exec i s = issueI (encodeNat i) [] s fun e s => compareI e s code f a k)
    (hr : ∀ x y, relHolds code x y = rel x y) (h : MayIssue (encodeNat i) [] 0 tkNone s) :
    let e := issueEnv tkNone s
    (e.x a).psn = false → exec i s = .next (goOn tkNone s (setFlag e s f.toNat (rel (e.x a).val (k.signExtend 64)))) := by
  intro e ha
  rw [← hr]
  exact exec_completes hi h (consume_one ha _)

/-- A compare of two registers of which one is poisoned raises POISON_CONSUMED. -/
theorem exec_compareX_poisoned {d b : BitVec 6} {g : BitVec 3} (hi : exec i s = issueA (encodeNat i) [] g s fun e s => compareX e s code d a b)
    (h : MayIssue (encodeNat i) [] g tkNone s) :
    let e := issueEnv tkNone s
    (e.x a).psn = true ∨ (e.x b).psn = true →
      exec i s = .next (goTrap s (mkTrap 0x20 3 (BitVec.ofNat 64 (if (e.x a).psn then a.toNat else b.toNat)))) := by
  intro e hp
  rw [← apply_ite BitVec.toNat]
  exact exec_raises hi h (consume_eitherPoisoned hp _)

/-- A compare of a poisoned register with an immediate raises POISON_CONSUMED. -/
theorem exec_compareI_poisoned {f : BitVec 3} {k : BitVec 13} (hi : exec i s = issueI (encodeNat i) [] s fun e s => compareI e s code f a k)
    (h : MayIssue (encodeNat i) [] 0 tkNone s) (ha : ((issueEnv tkNone s).x a).psn = true) :
    exec i s = .next (goTrap s (mkTrap 0x20 3 (BitVec.ofNat 64 a.toNat))) :=
  exec_raises hi h (consume_poisoned ha _)

end Compare

/-- Settles O5: each compare is one relation on operands that are not poisoned. -/
theorem compareResults : Obligations.CompareResults := by
  unfold Obligations.CompareResults
  intro s d a b g f k
  repeat rw [List.forall_mem_cons]
  refine ⟨⟨exec_compareX (exec_cmpEq d a b g s) relHolds_eq, exec_compareX (exec_cmpNe d a b g s) relHolds_ne,
      exec_compareX (exec_cmpLt d a b g s) relHolds_lt, exec_compareX (exec_cmpGe d a b g s) relHolds_ge,
      exec_compareX (exec_cmpLtu d a b g s) relHolds_ltu, exec_compareX (exec_cmpGeu d a b g s) relHolds_geu, List.forall_mem_nil _⟩,
    ⟨exec_compareI (exec_cmpiEq f a k s) relHolds_eq, exec_compareI (exec_cmpiNe f a k s) relHolds_ne,
      exec_compareI (exec_cmpiLt f a k s) relHolds_lt, exec_compareI (exec_cmpiGe f a k s) relHolds_ge,
      exec_compareI (exec_cmpiLtu f a k s) relHolds_ltu, exec_compareI (exec_cmpiGeu f a k s) relHolds_geu, List.forall_mem_nil _⟩,
    ⟨exec_compareX_poisoned (exec_cmpEq d a b g s), exec_compareX_poisoned (exec_cmpNe d a b g s), exec_compareX_poisoned (exec_cmpLt d a b g s),
      exec_compareX_poisoned (exec_cmpGe d a b g s), exec_compareX_poisoned (exec_cmpLtu d a b g s), exec_compareX_poisoned (exec_cmpGeu d a b g s),
      List.forall_mem_nil _⟩,
    ⟨exec_compareI_poisoned (exec_cmpiEq f a k s), exec_compareI_poisoned (exec_cmpiNe f a k s), exec_compareI_poisoned (exec_cmpiLt f a k s),
      exec_compareI_poisoned (exec_cmpiGe f a k s), exec_compareI_poisoned (exec_cmpiLtu f a k s), exec_compareI_poisoned (exec_cmpiGeu f a k s),
      List.forall_mem_nil _⟩, fun h ha => exec_raises (exec_flWr a g s) h (consume_poisoned ha _)⟩

/-! ## Flags and poison (R109, R269) -/

/-- A word of flag logic that issues writes its flag. -/
theorem exec_flagLogic {i : Instr} {s : State} {d a b : BitVec 6} {g : BitVec 3} {f : Bool → Bool → Bool}
    (hi : exec i s = issueA (encodeNat i) [] g s fun e s => flagLogic e s d a b f) (h : MayIssue (encodeNat i) [] g tkNone s) :
    let e := issueEnv tkNone s
    exec i s = .next (goOn tkNone s (setFlag e s d.toNat (f (rdFlag e.rd.a s.focusCl a.toNat) (rdFlag e.rd.a s.focusCl b.toNat)))) :=
  exec_completes hi h rfl

/-- Settles O6: each word completes with what its meaning writes. -/
theorem flagAndPoisonForms : Obligations.FlagAndPoisonForms := by
  unfold Obligations.FlagAndPoisonForms
  intro s d a b g e fl
  repeat rw [List.forall_mem_cons]
  exact ⟨⟨exec_flagLogic (exec_flAnd d a b g s), exec_flagLogic (exec_flOr d a b g s), exec_flagLogic (exec_flXor d a b g s),
      exec_flagLogic (exec_flAndn d a b g s), List.forall_mem_nil _⟩,
    fun h => exec_completes (exec_flRd d g s) h rfl, fun h ha => exec_completes (exec_flWr a g s) h (consume_one ha _),
    fun h => exec_completes (exec_pset d a g s) h rfl, fun h => exec_completes (exec_pclr d a g s) h rfl,
    fun h => exec_completes (exec_ptest d a g s) h rfl⟩

end Sys2Proof.Machine
end

section
/-! O7 and O8. Scalar floating point. -/

namespace Sys2Proof.Machine

/-! ## Float results (R100, R101, R129, R130) -/

/-- A float result is written with its flags, or as the format's poison (R101). -/
theorem setF_done (e : Env) (s : State) (f : Fmt) (d : BitVec 6) (psn : Bool) (r : Nat × Flg) :
    setF e s f d psn r = .done (if psn then setX e s d (BitVec.ofNat 64 f.poison) true
      else addFlags (setX e s d (BitVec.ofNat 64 r.1) false) e.ci r.2) := by
  unfold setF
  split <;> rfl

/-- A conversion to an integer is written with its flags, or as poison (R101, R130). -/
theorem convertToInt_done (e : Env) (s : State) (f : Fmt) (signed : Bool) (w : Nat) (d a : BitVec 6) (m : BitVec 3) :
    convertToInt e s f signed w d a m = .done (if floatPsn f (e.x a) then setX e s d 0 true
      else
        let v := toIntV signed w (modeOf e.rd.a m) (decodeF f (floatBits f (e.x a)))
        addFlags (setX e s d (BitVec.ofInt 64 v.1) false) e.ci v.2) := by
  unfold convertToInt
  split <;> rfl

/-- A float compare of operands that are not poisoned. -/
theorem compareF_done {e : Env} {f : Fmt} {a b : BitVec 6} (ha : floatPsn f (e.x a) = false) (hb : floatPsn f (e.x b) = false) (s : State)
    (code : Nat) (d : BitVec 6) :
    compareF e s f code d a b =
      let v := fCmp f code (floatBits f (e.x a)) (floatBits f (e.x b))
      .done (addFlags (setFlag e s d.toNat v.1) e.ci v.2) :=
  (if_neg (by rw [ha]; decide)).trans (if_neg (by rw [hb]; decide))

/-- The class of a float, with 16 for poison (R131). -/
theorem kindF_done (e : Env) (s : State) (f : Fmt) (d a : BitVec 6) :
    kindF e s f d a = .done (setX e s d
      (BitVec.ofNat 64 (fClass f (floatBits f (e.x a)) + (if floatPsn f (e.x a) then 16 else 0))) false) := by
  unfold kindF b2n
  split <;> rfl

/-- Settles O7: each form is one operation on its float operands. -/
theorem floatResults : Obligations.FloatResults := by
  unfold Obligations.FloatResults
  intro s d a b g e m
  repeat rw [List.forall_mem_cons]
  exact ⟨⟨fun h => exec_completes (exec_faddF64 d a b g s) h (setF_done ..), fun h => exec_completes (exec_fsubF64 d a b g s) h (setF_done ..),
      fun h => exec_completes (exec_fmulF64 d a b g s) h (setF_done ..),
      fun h => exec_completes (exec_fdivF64 d a b g s) h (setF_done ..), fun h => exec_completes (exec_fminF64 d a b g s) h (setF_done ..),
      fun h => exec_completes (exec_fmaxF64 d a b g s) h (setF_done ..),
      fun h => exec_completes (exec_fmsgnF64 d a b g s) h (setF_done ..), fun h => exec_completes (exec_faddF32 d a b g s) h (setF_done ..),
      fun h => exec_completes (exec_fsubF32 d a b g s) h (setF_done ..),
      fun h => exec_completes (exec_fmulF32 d a b g s) h (setF_done ..), fun h => exec_completes (exec_fdivF32 d a b g s) h (setF_done ..),
      fun h => exec_completes (exec_fminF32 d a b g s) h (setF_done ..),
      fun h => exec_completes (exec_fmaxF32 d a b g s) h (setF_done ..), fun h => exec_completes (exec_fmsgnF32 d a b g s) h (setF_done ..),
      List.forall_mem_nil _⟩,
    ⟨fun h => exec_completes (exec_fmacF64 d a b g s) h (setF_done ..), fun h => exec_completes (exec_fmacF32 d a b g s) h (setF_done ..),
      List.forall_mem_nil _⟩,
    ⟨fun h => exec_completes (exec_fsqrtF64 d a g s) h (setF_done ..), fun h => exec_completes (exec_fabsF64 d a g s) h (setF_done ..),
      fun h => exec_completes (exec_fnegF64 d a g s) h (setF_done ..),
      fun h => exec_completes (exec_fsqrtF32 d a g s) h (setF_done ..), fun h => exec_completes (exec_fabsF32 d a g s) h (setF_done ..),
      fun h => exec_completes (exec_fnegF32 d a g s) h (setF_done ..), List.forall_mem_nil _⟩⟩

/-- Settles O8: each word is a compare, a class or one conversion of its operand. -/
theorem floatConversions : Obligations.FloatConversions := by
  unfold Obligations.FloatConversions
  intro s d a b m g e md
  repeat rw [List.forall_mem_cons]
  exact ⟨⟨fun h ha hb => exec_completes (exec_fcmpEqF64 d a b g s) h (compareF_done ha hb ..),
      fun h ha hb => exec_completes (exec_fcmpLtF64 d a b g s) h (compareF_done ha hb ..),
      fun h ha hb => exec_completes (exec_fcmpLeF64 d a b g s) h (compareF_done ha hb ..),
      fun h ha hb => exec_completes (exec_fcmpEqF32 d a b g s) h (compareF_done ha hb ..),
      fun h ha hb => exec_completes (exec_fcmpLtF32 d a b g s) h (compareF_done ha hb ..),
      fun h ha hb => exec_completes (exec_fcmpLeF32 d a b g s) h (compareF_done ha hb ..),
      List.forall_mem_nil _⟩,
    ⟨fun h => exec_completes (exec_fkindF64 d a g s) h (kindF_done ..), fun h => exec_completes (exec_fkindF32 d a g s) h (kindF_done ..),
      List.forall_mem_nil _⟩,
    ⟨fun h => exec_completes (exec_scvtF64F32 d a m g s) h (setF_done ..), fun h => exec_completes (exec_scvtF32F64 d a m g s) h (setF_done ..),
      List.forall_mem_nil _⟩,
    ⟨fun h => exec_completes (exec_scvtF64I64 d a m g s) h (setF_done ..), fun h => exec_completes (exec_scvtF64Ui64 d a m g s) h (setF_done ..),
      fun h => exec_completes (exec_scvtF32I64 d a m g s) h (setF_done ..),
      fun h => exec_completes (exec_scvtF32Ui64 d a m g s) h (setF_done ..), List.forall_mem_nil _⟩,
    ⟨fun h => exec_completes (exec_scvtI64F64 d a m g s) h (convertToInt_done ..),
      fun h => exec_completes (exec_scvtUi64F64 d a m g s) h (convertToInt_done ..),
      fun h => exec_completes (exec_scvtI32F64 d a m g s) h (convertToInt_done ..),
      fun h => exec_completes (exec_scvtI64F32 d a m g s) h (convertToInt_done ..),
      fun h => exec_completes (exec_scvtUi64F32 d a m g s) h (convertToInt_done ..),
      fun h => exec_completes (exec_scvtI32F32 d a m g s) h (convertToInt_done ..),
      List.forall_mem_nil _⟩⟩

end Sys2Proof.Machine
end

section
/-! O9. The CSRs. -/

namespace Sys2Proof.Machine

/-! ## Fields of a word -/

/-- Fields side by side, as a number. -/
theorem toNat_append_add {n m : Nat} (x : BitVec n) (y : BitVec m) : (x ++ y).toNat = x.toNat * 2 ^ m + y.toNat := by
  rw [BitVec.toNat_append, ← Nat.shiftLeft_add_eq_or_of_lt y.isLt, Nat.shiftLeft_eq]

/-- A field with zeros above it. -/
theorem setWidth_eq_append {n : Nat} (m : Nat) (x : BitVec n) : x.setWidth (m + n) = 0#m ++ x := by
  apply BitVec.eq_of_toNat_eq
  rw [toNat_append_add, BitVec.toNat_setWidth_of_le (Nat.le_add_left n m)]
  simp

/-- A one-bit field, as a number. -/
theorem toNat_ofBool (b : Bool) : (BitVec.ofBool b).toNat = b2n b := by
  cases b <;> rfl

theorem b2n_le (b : Bool) : b2n b ≤ 1 := by
  cases b <;> decide

/-! ## Reads (R132) -/

/-- The fields of VVIEW (R62). -/
theorem vview_fields (x : BitVec 6) (y : BitVec 11) : BitVec.ofNat 64 (x.toNat * 2 ^ 24 + y.toNat * 2 ^ 8) = 0#34 ++ x ++ 0#5 ++ y ++ 0#8 := by
  apply BitVec.eq_of_toNat_eq
  simp only [toNat_append_add, BitVec.toNat_ofNat]
  omega

/-- The field of AVIEW (R63). -/
theorem aview_fields (x : BitVec 7) : BitVec.ofNat 64 (x.toNat * 2 ^ 12) = 0#45 ++ x ++ 0#12 := by
  apply BitVec.eq_of_toNat_eq
  simp only [toNat_append_add, BitVec.toNat_ofNat]
  omega

/-- The fields of BSTAT for a domain (R384). -/
theorem boost_fields (p t c w : Bool) (g h k : Nat) :
    BitVec.ofNat 64 (b2n p * 2 ^ 23 + b2n t * 2 ^ 22 + g % 16 * 2 ^ 18 + b2n c * 2 ^ 17 + b2n w * 2 ^ 16 + h % 256 * 2 ^ 8 + k % 4) =
      0#40 ++ BitVec.ofBool p ++ BitVec.ofBool t ++ BitVec.ofNat 4 g ++ BitVec.ofBool c ++ BitVec.ofBool w ++ BitVec.ofNat 8 h ++ 0#6 ++
        BitVec.ofNat 2 k := by
  have := b2n_le p
  have := b2n_le t
  have := b2n_le c
  have := b2n_le w
  apply BitVec.eq_of_toNat_eq
  simp only [toNat_append_add, toNat_ofBool, BitVec.toNat_ofNat]
  omega

/-- The fields of BSTAT for a core, whose domain is the half of its die (R13, R384). -/
theorem bstat_fields (s : State) (ci : Nat) :
    let die := getDie s (dieOf ci)
    let west := decide (ci % 36 < 18)
    let dom := if west then die.west else die.east
    BitVec.ofNat 64 (bstatOf s ci) = 0#40 ++ BitVec.ofBool die.pwrgHeld ++ BitVec.ofBool die.thrtHeld ++ BitVec.ofNat 4 die.gateHeld ++
      BitVec.ofBool dom.claim ++ BitVec.ofBool (!west) ++ BitVec.ofNat 8 dom.halves ++ 0#6 ++ BitVec.ofNat 2 dom.step := by
  by_cases h : ci % 36 < 18
  · simp only [bstatOf, domainOf, h, if_true, decide_true, Bool.not_true]
    exact boost_fields _ _ _ false ..
  · simp only [bstatOf, domainOf, h, if_false, decide_false, Bool.not_false, one_ne_zero, Bool.false_eq_true]
    exact boost_fields _ _ _ true ..

/-- The fields of SEGH (R314). -/
theorem segh_fields (s : State) (c : Core) : BitVec.ofNat 64 (seghOf s c) =
    0#46 ++ BitVec.ofBool (curSeg s c).fw ++ BitVec.ofBool (curSeg s c).sys ++ 0#2 ++ c.segL ++ 0#2 ++ c.a.segCur := by
  have := b2n_le (curSeg s c).fw
  have := b2n_le (curSeg s c).sys
  apply BitVec.eq_of_toNat_eq
  simp only [seghOf, toNat_append_add, toNat_ofBool, BitVec.toNat_ofNat]
  omega

/-- The fields of TCAUSE (R316). -/
theorem tcause_fields (c : Core) : BitVec.ofNat 64 (tcauseOf c) =
    BitVec.ofBool c.a.tl ++ BitVec.ofBool c.a.uh ++ BitVec.ofBool c.a.held ++ 0#27 ++ (shownFrame c).cl ++ 0#8 ++ (shownFrame c).detail ++ 0#2 ++
      (shownFrame c).cause := by
  have := b2n_le c.a.tl
  have := b2n_le c.a.uh
  have := b2n_le c.a.held
  apply BitVec.eq_of_toNat_eq
  simp only [tcauseOf, toNat_append_add, toNat_ofBool, BitVec.toNat_ofNat]
  omega

/-- The fields of TSTRM (R317). -/
theorem tstrm_fields (x : BitVec 3) (y : BitVec 56) : BitVec.ofNat 64 (x.toNat * 2 ^ 56 + y.toNat) = 0#5 ++ x ++ y := by
  apply BitVec.eq_of_toNat_eq
  simp only [toNat_append_add, BitVec.toNat_ofNat]
  omega

/-- The fields of TVEC (R317). -/
theorem tvec_fields (x : BitVec 6) (b : Bool) (y : BitVec 28) :
    BitVec.ofNat 64 (x.toNat * 2 ^ 58 + b2n b * 2 ^ 57 + y.toNat * 2 ^ 4) = x ++ BitVec.ofBool b ++ 0#25 ++ y ++ 0#4 := by
  have := b2n_le b
  apply BitVec.eq_of_toNat_eq
  simp only [toNat_append_add, toNat_ofBool, BitVec.toNat_ofNat]
  omega

/-- The fields of RTRY (R277). -/
theorem rtry_fields (x y : Nat) : BitVec.ofNat 64 (x % 2 ^ 16 * 2 ^ 16 + y % 8) = 0#32 ++ BitVec.ofNat 16 x ++ 0#13 ++ BitVec.ofNat 3 y := by
  apply BitVec.eq_of_toNat_eq
  simp only [toNat_append_add, BitVec.toNat_ofNat]
  omega

/-! ## Writes (R5, R94, R97, R98) -/

/-- The low bits of a word. -/
theorem setWidth_eq_extractLsb' {n : Nat} (v : BitVec n) (m : Nat) : v.setWidth m = v.extractLsb' 0 m := by
  apply BitVec.eq_of_toNat_eq
  simp

/-- A field of a word. -/
theorem ofNat_fieldOf {n : Nat} (v : BitVec n) (lo m : Nat) : BitVec.ofNat m (fieldOf v lo m) = v.extractLsb' lo m := by
  apply BitVec.eq_of_toNat_eq
  simp [fieldOf, Nat.shiftRight_eq_div_pow]

/-- A write of USTAT: ones clear, and a flag that the same bundle sets stays (R97, R98). -/
theorem csrWrite_ustat (a : Arch) (fl : BitVec 8) (v : Word) :
    csrWrite a fl 0x000 v = { a with ustat := (a.ustat &&& ~~~v.extractLsb' 0 8) ||| fl } := by
  rw [← setWidth_eq_extractLsb']
  rfl

/-- A write of FRM: the codes 5 to 7 keep its value (R94). -/
theorem csrWrite_frm (a : Arch) (fl : BitVec 8) (v : Word) :
    csrWrite a fl 0x001 v = if v.toNat % 8 < 5 then { a with frm := v.extractLsb' 0 3 } else a := by
  have hf : fieldOf v 0 3 = v.toNat % 8 := by simp [fieldOf]
  rw [← hf, ← ofNat_fieldOf]
  rfl

/-- A write of VVIEW (R62). -/
theorem csrWrite_vview (a : Arch) (fl : BitVec 8) (v : Word) :
    csrWrite a fl 0x002 v = { a with vrot := v.extractLsb' 24 6, vbase := v.extractLsb' 8 11 } := by
  simp only [csrWrite, putVview, ofNat_fieldOf]

/-- A write of AVIEW (R63). -/
theorem csrWrite_aview (a : Arch) (fl : BitVec 8) (v : Word) : csrWrite a fl 0x003 v = { a with abase := v.extractLsb' 12 7 } := by
  simp only [csrWrite, putAview, ofNat_fieldOf]

/-- A write of SHMAXE. -/
theorem csrWrite_shmaxe (a : Arch) (fl : BitVec 8) (v : Word) : csrWrite a fl 0x040 v = { a with shmaxe := v.extractLsb' 0 32 } := by
  rw [← setWidth_eq_extractLsb']
  rfl

/-- A write of SHMEAN. -/
theorem csrWrite_shmean (a : Arch) (fl : BitVec 8) (v : Word) : csrWrite a fl 0x041 v = { a with shmean := v.extractLsb' 0 32 } := by
  rw [← setWidth_eq_extractLsb']
  rfl

/-- The registers between AVIEW and SHMAXE ignore a write. -/
theorem csrWrite_readOnly (a : Arch) (fl : BitVec 8) {n : Nat} (h0 : 0x010 ≤ n) (h1 : n < 0x040) (v : Word) : csrWrite a fl n v = a := by
  unfold csrWrite
  split
  case h_7 => rfl
  all_goals omega

section Update

variable {i : Instr} {s : State} {d a : BitVec 6} {c : BitVec 10} {o v : Word} {f : Word → Word → Word}

/-- A write of a CSR: the old value goes to xd. -/
theorem csrUpdate_done {e : Env} (ha : (e.x a).psn = false) (ho : csrValue s e.ci e.rd c.toNat = o) {w : Arch → Arch}
    (hw : ∀ ar, csrWrite ar (flaggedNow s) c.toNat (f o (e.x a).val) = w ar) :
    csrUpdate e s d a c f = .done (setX e (modArch s e.ci w) d o false) := by
  obtain rfl := funext hw
  subst ho
  exact consume_one ha _

/-- A word that writes a CSR: a poisoned operand is consumed; the registers of `writes` take their fields; those that are read only ignore the
value. -/
theorem exec_csrUpdate {writes : List (Nat × (Word → Arch → Arch))}
    (hw : ∀ r ∈ writes, ∀ v ar, csrWrite ar (flaggedNow s) r.1 v = r.2 v ar) (ho : csrValue s s.focusCore (envOf s).rd c.toNat = o)
    (hi : exec i s = issueI (encodeNat i) [d] s fun e s => csrUpdate e s d a c f) (hv : f o ((issueEnv tkNone s).x a).val = v)
    (h : MayIssue (encodeNat i) [d] 0 tkNone s) :
    let e := issueEnv tkNone s
    ((e.x a).psn = true → exec i s = .next (goTrap s (mkTrap 0x20 3 (BitVec.ofNat 64 a.toNat)))) ∧
      ((e.x a).psn = false →
        (∀ k, (c.toNat, k) ∈ writes → exec i s = .next (goOn tkNone s (setX e (modArch s s.focusCore (k v)) d o false))) ∧
        (0x010 ≤ c.toNat → c.toNat < 0x040 → exec i s = .next (goOn tkNone s (setX e s d o false)))) := by
  subst hv
  refine ⟨fun ha => exec_raises hi h (consume_poisoned ha _), fun ha => ⟨fun k hk => ?written, fun h0 h1 => ?ignored⟩⟩
  case written => exact exec_completes hi h (csrUpdate_done ha ho fun ar => hw _ hk _ ar)
  case ignored =>
    have hs := exec_completes hi h (csrUpdate_done ha ho fun ar => csrWrite_readOnly ar _ h0 h1 _)
    rwa [issueEnv_ci, modArch_id] at hs

end Update

/-- Settles O9: each read and each write is that of its fields. -/
theorem csrResults : Obligations.CsrResults := by
  unfold Obligations.CsrResults
  intro s d a c o e ar die west dom g r v flag reads writes ho
  have hreads : ∀ r ∈ reads, csrValue s s.focusCore e.rd r.1 = r.2 := by
    repeat rw [List.forall_mem_cons]
    exact ⟨setWidth_eq_append 56 _, setWidth_eq_append 61 _, vview_fields .., aview_fields _, rfl, rfl, bstat_fields .., segh_fields ..,
      tcause_fields _, rfl, tstrm_fields .., rfl, rfl, rfl, rfl, tvec_fields .., rfl, rtry_fields .., rfl, rfl, setWidth_eq_append 32 _,
      setWidth_eq_append 32 _, List.forall_mem_nil _⟩
  have hwrites : ∀ r ∈ writes, ∀ v ar, csrWrite ar (flaggedNow s) r.1 v = r.2 v ar := by
    repeat rw [List.forall_mem_cons]
    exact ⟨fun v ar => csrWrite_ustat .., fun v ar => csrWrite_frm .., fun v ar => csrWrite_vview .., fun v ar => csrWrite_aview ..,
      fun v ar => csrWrite_shmaxe .., fun v ar => csrWrite_shmean .., List.forall_mem_nil _⟩
  have hold : csrValue s s.focusCore e.rd c.toNat = o := hreads _ ho
  repeat rw [List.forall_mem_cons]
  exact ⟨fun h => exec_completes (exec_csrrd d c s) h (by rw [← hold]; rfl), exec_csrUpdate hwrites hold (exec_csrwr d a c s) rfl,
    exec_csrUpdate hwrites hold (exec_csrset d a c s) rfl, exec_csrUpdate hwrites hold (exec_csrclr d a c s) rfl, List.forall_mem_nil _⟩

end Sys2Proof.Machine
end

section
/-! O10 and O13. Taken transfers, and the words that go on in sequence. -/

namespace Sys2Proof.Machine

/-! ## Taken transfers (R111, R112, R161, R312) -/

/-- What a transfer checks of a state is its partitions. -/
theorem checkTarget_setX (e : Env) (s : State) (d : BitVec 6) (v : Word) (p : Bool) (c : Core) (m : Mode) (t : Word) :
    checkTarget (setX e s d v p) c m t = checkTarget s c m t := rfl

/-- A transfer to a legal target makes its segment current (R312). -/
theorem transfer_legal {e : Env} {s : State} {t : Word} {h : BitVec 6} (hc : checkTarget s e.rd e.rd.a.mode t = .ok h) :
    transfer e s t = .jump (modArch s e.ci fun a => { a with segCur := h }) t := by
  simp only [transfer, hc]

/-- A transfer to an illegal target raises what is found. -/
theorem transfer_illegal {e : Env} {s : State} {t : Word} {x : Trap} (hc : checkTarget s e.rd e.rd.a.mode t = .error x) :
    transfer e s t = .raise x := by
  simp only [transfer, hc]

/-- A word that transfers control to `t` where its condition holds, and leaves `u` before it does: the ends that it has, of which the target's
segment `k` is one. -/
def Transfers (i : Instr) (s u : State) (taken : Bool) (t : Word) (k : BitVec 6) : Prop :=
  let c := (envOf s).rd
  (taken = false → exec i s = .next (goOn tkNone s s)) ∧
    (taken = true → checkTarget s c c.a.mode t = .ok k →
      exec i s = .next (goTo s (modArch u s.focusCore fun a => { a with segCur := k }) t)) ∧
    (∀ x, taken = true → checkTarget s c c.a.mode t = .error x → exec i s = .next (goTrap s x))

/-- A word whose meaning is a transfer under a condition. -/
theorem transfers_of {i : Instr} {s u : State} {sem : Env → State → Res} {taken : Bool} {t : Word}
    (hi : exec i s = issueI (encodeNat i) [] s sem) (hn : taken = false → sem (issueEnv tkNone s) s = .done s)
    (ht : taken = true → sem (issueEnv tkNone s) s = transfer (issueEnv tkNone s) u t)
    (hu : ∀ c m, checkTarget u c m t = checkTarget s c m t) (h : MayIssue (encodeNat i) [] 0 tkNone s) (k : BitVec 6) :
    Transfers i s u taken t k :=
  ⟨fun hf => exec_completes hi h (hn hf), fun hf hc => exec_jumps hi h ((ht hf).trans (transfer_legal ((hu ..).trans hc))),
    fun _ hf hc => exec_raises hi h ((ht hf).trans (transfer_illegal ((hu ..).trans hc)))⟩

section Branches

variable {s : State} {f : BitVec 3} {o : BitVec 22}

theorem transfers_br (h : MayIssue (encodeNat (.br f o)) [] 0 tkNone s) (k : BitVec 6) :
    Transfers (.br f o) s s (rdFlag (envOf s).rd.a s.focusCl f.toNat) (branchTarget (issueEnv tkNone s) o) k :=
  transfers_of (exec_br f o s) (fun hf => if_neg (Bool.eq_false_iff.mp hf)) (fun hf => if_pos hf) (fun _ _ => rfl) h k

theorem transfers_brn (h : MayIssue (encodeNat (.brn f o)) [] 0 tkNone s) (k : BitVec 6) :
    Transfers (.brn f o) s s (!rdFlag (envOf s).rd.a s.focusCl f.toNat) (branchTarget (issueEnv tkNone s) o) k :=
  transfers_of (exec_brn f o s) (fun hf => if_pos ((Bool.not_eq_false' _).mp hf))
    (fun hf => if_neg (Bool.eq_false_iff.mp ((Bool.not_eq_true' _).mp hf))) (fun _ _ => rfl) h k

theorem transfers_call (h : MayIssue (encodeNat (.call f o)) [] 0 tkNone s) (k : BitVec 6) :
    Transfers (.call f o) s (setX (issueEnv tkNone s) s (linkReg s.focusCl) (linkAddr (issueEnv tkNone s)) false)
      (rdFlag (envOf s).rd.a s.focusCl f.toNat) (branchTarget (issueEnv tkNone s) o) k :=
  transfers_of (exec_call f o s) (fun hf => if_neg (Bool.eq_false_iff.mp hf)) (fun hf => if_pos hf) (fun _ _ => rfl) h k

theorem transfers_jeos (h : MayIssue (encodeNat (.jeos f o)) [] 0 tkNone s) (k : BitVec 6) :
    Transfers (.jeos f o) s s (vget (envOf s).rd.a.streams Stream.zero f.toNat).eos (branchTarget (issueEnv tkNone s) o) k :=
  transfers_of (exec_jeos f o s) (fun hf => if_neg (Bool.eq_false_iff.mp hf)) (fun hf => if_pos hf) (fun _ _ => rfl) h k

end Branches

/-- `jmpr` to a legal target. -/
theorem exec_jmpr_legal {s : State} {d a h : BitVec 6} {g : BitVec 3} (hm : MayIssue (encodeNat (.jmpr d a g)) [d] g tkNone s)
    (ha : ((issueEnv tkNone s).x a).psn = false) (hc : checkTarget s (envOf s).rd (envOf s).rd.a.mode ((issueEnv tkNone s).x a).val = .ok h) :
    exec (.jmpr d a g) s = .next (goTo s (modArch (setX (issueEnv tkNone s) s d (linkAddr (issueEnv tkNone s)) false) s.focusCore
      fun ar => { ar with segCur := h }) ((issueEnv tkNone s).x a).val) :=
  exec_jumps (exec_jmpr d a g s) hm ((consume_one ha _).trans (transfer_legal hc))

/-- Settles O10: each branch is a transfer under its condition. -/
theorem branchResults : Obligations.BranchResults := by
  unfold Obligations.BranchResults
  intro s f n g o d a k e t link lr enter fl
  repeat rw [List.forall_mem_cons]
  exact ⟨⟨fun h => transfers_br h k, fun h => transfers_brn h k, fun h => transfers_call h k, fun h => transfers_jeos h k, List.forall_mem_nil _⟩,
    exec_jmpr_legal⟩

/-! ## Loop levels after a word in sequence (R115) -/

section Levels

variable {l : Vector LoopLv 8} {cl lv : Nat} {p : Word}

/-- A level that is looked at and not at its last word stays. -/
theorem loopStep_passed (h : (vget l LoopLv.zero (2 * cl + lv)).active = false ∨ p ≠ (vget l LoopLv.zero (2 * cl + lv)).last) :
    loopStep l cl lv p = (l, none) := by
  refine if_neg ?_
  rw [Bool.and_eq_true, beq_iff_eq]
  rintro ⟨ha, hp⟩
  rcases h with h | h
  · rw [h] at ha
    cases ha
  · exact h hp

variable (ha : (vget l LoopLv.zero (2 * cl + lv)).active = true) (hp : p = (vget l LoopLv.zero (2 * cl + lv)).last)
include ha hp

/-- A level at its last word with passes left goes back to its start. -/
theorem loopStep_back (hn : 1 < (vget l LoopLv.zero (2 * cl + lv)).count) : loopStep l cl lv p =
    (vset l (2 * cl + lv) { vget l LoopLv.zero (2 * cl + lv) with count := (vget l LoopLv.zero (2 * cl + lv)).count - 1 },
      some (vget l LoopLv.zero (2 * cl + lv)).start) :=
  (if_pos (by rw [ha, hp]; simp)).trans (if_pos hn)

/-- A level at the last word of its last pass becomes inactive. -/
theorem loopStep_ended (hn : (vget l LoopLv.zero (2 * cl + lv)).count ≤ 1) : loopStep l cl lv p =
    (vset l (2 * cl + lv) { vget l LoopLv.zero (2 * cl + lv) with count := 0, active := false }, none) :=
  (if_pos (by rw [ha, hp]; simp)).trans (if_neg (Nat.not_lt.mpr hn))

end Levels

section Next

variable {l m : Vector LoopLv 8} {x : LoopLv} {cl : Nat} {p t : Word}

/-- The inner level is looked at first. -/
theorem nextPc_inner (h : loopStep l cl 1 p = (m, some t)) : nextPc l cl p = (m, t) := by
  simp only [nextPc, h]

/-- The outer level is looked at where the inner one does not go back. -/
theorem nextPc_outer (h : loopStep l cl 1 p = (m, none)) :
    nextPc l cl p = ((loopStep m cl 0 p).1, (loopStep m cl 0 p).2.getD (p + 4)) := by
  simp only [nextPc, h]
  rcases loopStep m cl 0 p with ⟨k, _ | t⟩ <;> rfl

/-- An inner level that has ended is as one that has been inactive. -/
theorem nextPc_innerEnded (hcl : cl < 4) (h : loopStep l cl 1 p = (vset l (2 * cl + 1) x, none)) (h0 : x.active = false) :
    nextPc l cl p = nextPc (vset l (2 * cl + 1) x) cl p := by
  have hin : loopStep (vset l (2 * cl + 1) x) cl 1 p = (vset l (2 * cl + 1) x, none) :=
    loopStep_passed (.inl (by rw [vget_vset_self _ _ _ (by omega), h0]))
  rw [nextPc_outer h, nextPc_outer hin]

end Next

/-! ## A word in sequence (R36, R69, R115) -/

section Split

variable {c : Core} {cl : Cluster} (hm : c.a.mode = .split)
include hm

/-- A word of split mode outside a `rep`. -/
theorem advance_word (hr : vget c.a.repK none (cnum cl) = none) : advance c cl 0 = advanceSplit c (cnum cl) (vget c.a.pc 0 (cnum cl)) := by
  simp [advance, hm, hr]

/-- A repetition that is not the last. -/
theorem advance_repeats {i n : Nat} (hr : vget c.a.repK none (cnum cl) = some (i, n)) (hn : i + 1 < n) :
    advance c cl 0 = { c with a := { c.a with repK := vset c.a.repK (cnum cl) (some (i + 1, n)) } } := by
  simp only [advance, hm, hr, hn, if_true]

/-- The last repetition. -/
theorem advance_lastRepeat {i n : Nat} (hr : vget c.a.repK none (cnum cl) = some (i, n)) (hn : n ≤ i + 1) :
    advance c cl 0 = advanceSplit c (cnum cl) (vget c.a.pc 0 (cnum cl) + 4) := by
  simp only [advance, hm, hr, if_neg (Nat.not_lt.mpr hn)]

end Split

/-- Alone, a word moves the program counter of its cluster. -/
theorem goLater_alone {s : State} (hb : s.bundle = none) (t : State) : goLater s t = modCore t s.focusCore fun c => advance c s.focusCl 0 := by
  simp only [goLater, hb]

/-- Alone in split mode, a taken transfer sets the program counter of its cluster. -/
theorem goTo_alone {s : State} (hb : s.bundle = none) (hm : (envOf s).rd.a.mode = .split) (t : State) (a : Word) :
    goTo s t a = modCore t s.focusCore fun c => setPc c (cnum s.focusCl) a := by
  simp only [goTo, hb, hm]

/-- A transfer taken alone in split mode changes no loop level. -/
theorem goTo_segment {s : State} (hb : s.bundle = none) (hm : (envOf s).rd.a.mode = .split) (u : State) (h : BitVec 6) (a : Word) :
    goTo s (modArch u s.focusCore fun ar => { ar with segCur := h }) a = modCore u s.focusCore fun c => { c with a := { c.a with
      segCur := h, pc := vset c.a.pc (cnum s.focusCl) a, repK := vset c.a.repK (cnum s.focusCl) none } } := by
  rw [goTo_alone hb hm, modArch, modCore_modCore]
  rfl

/-- A transfer that is taken alone in split mode. -/
theorem Transfers.split {i : Instr} {s u : State} {taken : Bool} {t : Word} {k : BitVec 6} (h : Transfers i s u taken t k) (hb : s.bundle = none)
    (hm : (envOf s).rd.a.mode = .split) (ht : taken = true) (hc : checkTarget s (envOf s).rd .split t = .ok k) :
    exec i s = .next (modCore u s.focusCore fun c => { c with a := { c.a with
      segCur := k, pc := vset c.a.pc (cnum s.focusCl) t, repK := vset c.a.repK (cnum s.focusCl) none } }) := by
  obtain ⟨-, hok, -⟩ := h
  rw [hok ht (hm ▸ hc), goTo_segment hb hm]

/-- The link of a word in split mode (R111). -/
theorem linkAddr_split {e : Env} (hm : e.rd.a.mode = .split) : linkAddr e = e.addr + 4 := by
  simp only [linkAddr, hm]

/-! ## Traps (R318) -/

/-- A cause of a running unit enters the system handler that its core names. -/
theorem takeTrap_handler {s : State} {ci : Nat} {t : Trap} (h0 : t.cause ≠ 0) (h21 : t.cause ≠ 0x21) (h07 : t.cause ≠ 0x07)
    (htl : (getCore s ci).a.tl = false) (huh : ((getCore s ci).a.uh && (t.cause == 1 || t.cause == 5)) = false)
    (hh : hasHandler s (getCore s ci) = true) (cl : Cluster) : takeTrap s ci cl t = enterHandler s ci cl t := by
  have hr : isRetry t = false := beq_eq_false_iff_ne.mpr h0
  simp [takeTrap, hr, h21, h07, htl, huh, hh]

/-- The frame of a trap keeps the loop levels. -/
theorem enterHandler_loops (s : State) {ci : Nat} (hci : ci < 72) (cl : Cluster) (t : Trap) :
    (getCore (enterHandler s ci cl t) ci).tr.frame.loops = (getCore s ci).a.loops := by
  unfold enterHandler
  rw [getCore_putCore_self _ _ hci]
  rfl

/-- A word with tokens at hand whose guard flag reads 0. -/
theorem exec_guardOff {i : Instr} {z : IssueFields} {s : State} (hz : issueFields i = some z)
    (h : issueTrap (encodeNat i) z.dsts s (envOf s) = none)
    (ht : (popReady (envOf s).rd.a (popPair s.focusCl z.tk.tkin.toNat) && pushReady (envOf s).rd.a (pushPair s.focusCl z.tk.tkout.toNat)) = true)
    (hg : rdFlag (envOf s).rd.a s.focusCl z.guard.toNat = false) : exec i s = .next (goLater s s) := by
  obtain ⟨sem, hs⟩ := exec_notIssued hz (s := s) fun ⟨_, _, _, hm⟩ => by rw [hm] at hg; cases hg
  exact hs.trans (issue_guardOff h ht hg)

/-- Settles O13: the levels are looked at from the inside out, and only a word that goes on in sequence looks at them. -/
theorem loopSteps : Obligations.LoopSteps := by
  unfold Obligations.LoopSteps
  intro l cl p hcl inn outl
  refine ⟨fun ha hp hn => nextPc_inner (loopStep_back ha hp hn), fun ha hp hn => nextPc_innerEnded hcl (loopStep_ended ha hp hn) rfl,
    fun hi ha hp hn => ?outerBack, fun hi ha hp hn => ?outerEnded, fun hi ho => ?next, fun c x hm => ?word, ?alone⟩
  case outerBack => rw [nextPc_outer (loopStep_passed hi), loopStep_back (lv := 0) ha hp hn]; rfl
  case outerEnded => rw [nextPc_outer (loopStep_passed hi), loopStep_ended (lv := 0) ha hp hn]; rfl
  case next => rw [nextPc_outer (loopStep_passed hi), loopStep_passed (lv := 0) ho]; rfl
  case word => exact ⟨advance_word hm, fun i n => advance_repeats hm, fun i n => advance_lastRepeat hm⟩
  case alone =>
    intro s d a h g f o t hb e c w lr fl hd
    refine ⟨fun i z hz ht hp hq hg => ?guardOff, ?taken, fun hci h0 h21 h07 htl huh hh => ?trap⟩
    case guardOff => rw [exec_guardOff hz ht (Bool.and_eq_true_iff.mpr ⟨hp, hq⟩) hg, goLater_alone hb]
    case taken =>
      repeat rw [List.forall_mem_cons]
      refine ⟨fun hi hm => (transfers_br hi h).split hb hm, fun hi hm => (transfers_brn hi h).split hb hm, fun hi hm => ?call,
        fun hi hm => (transfers_jeos hi h).split hb hm, fun hi hm hx hc => ?jmpr, List.forall_mem_nil _⟩
      case call =>
        have := (transfers_call hi h).split hb hm
        rwa [linkAddr_split hm] at this
      case jmpr =>
        have hx : (e.x a).psn = false := (Bool.not_eq_true' _).mp hx
        have := exec_jmpr_legal hi hx (hm ▸ hc)
        rwa [linkAddr_split hm, goTo_segment hb hm] at this
    case trap => rw [takeTrap_handler h0 h21 h07 htl huh hh, enterHandler_loops s hci]

end Sys2Proof.Machine
end

section
/-! O14 and O15. `fork`, the meetings of the clusters, and `replay`. -/

namespace Sys2Proof.Machine

/-! ## Words that a handler may not have (R119 to R121, R267, R322) -/

/-- The state in which a word holds its cluster at a meeting: alone the meeting is looked at, in a bundle it waits for the bundle's end (log 46). -/
def holding (s : State) (st : ClSt) : State :=
  let held := modArch s s.focusCore fun a => { a with clst := vset a.clst (cnum s.focusCl) st }
  if s.bundle = none then settleWaits { held with waiting := s.waiting.filter fun x => x.1 != s.focusCore } s.focusCore else held

theorem holdAt_holding (s : State) (st : ClSt) : holdAt (issueEnv tkNone s) s st = .set (holding s st) := by
  unfold holdAt holding
  cases s.bundle <;> rfl

/-- An entry of `fork` that raises nothing. -/
theorem entryTrap_none {e : Env} {s : State} {r : BitVec 6}
    (h : (e.x r).psn = false ∧ (e.x r).val.toNat % 4 = 0 ∧ ∃ k, checkTarget s e.rd .split (e.x r).val = .ok k) : entryTrap e s r = none := by
  obtain ⟨hp, ha, k, hk⟩ := h
  simp [entryTrap, hp, ha, hk]

section Outside

variable {s : State} {g : BitVec 3} (htl : (envOf s).rd.a.tl = false) (huh : (envOf s).rd.a.uh = false)
include htl huh

/-- Outside a handler a meaning goes on. -/
theorem notInHandler_outside (maj : Nat) (r : Res) : notInHandler (issueEnv tkNone s) maj r = r :=
  if_neg (by rw [issueEnv_rd, htl, huh]; decide)

/-- A word that holds its cluster outside a handler. -/
theorem exec_holds {i : Instr} {sem : Env → State → Res} {maj : Nat} {r : Res} {st : ClSt} (hi : exec i s = issueA (encodeNat i) [] g s sem)
    (h : MayIssue (encodeNat i) [] g tkNone s) (hs : sem (issueEnv tkNone s) s = notInHandler (issueEnv tkNone s) maj r)
    (hr : r = holdAt (issueEnv tkNone s) s st) : exec i s = .next (goSet s (holding s st)) :=
  exec_places hi h (hs.trans ((notInHandler_outside htl huh ..).trans (hr.trans (holdAt_holding s st))))

theorem exec_fork_legal {d a b : BitVec 6} (h : MayIssue (encodeNat (.fork d a b g)) [] g tkNone s)
    (hr : ∀ r ∈ [d, a, b], entryTrap (issueEnv tkNone s) s r = none) :
    let e := issueEnv tkNone s
    exec (.fork d a b g) s = .next (goSet s (modCore s s.focusCore fun c => enterSplit c (e.addr + 16) (e.x d).val (e.x a).val (e.x b).val)) := by
  refine exec_places (exec_fork d a b g s) h ((notInHandler_outside htl huh ..).trans ?_)
  rw [List.findSome?_eq_none_iff.mpr hr]
  rfl

/-- `join` of L, K or S. -/
theorem exec_join_other (h : MayIssue (encodeNat (.join 0)) [] 0 tkNone s) (hcl : s.focusCl ≠ .c) :
    exec (.join 0) s = .next (goSet s (holding s (.atJoin 0))) :=
  exec_holds htl huh (exec_join 0 s) h rfl ((if_pos hcl).trans (if_neg (not_not_intro rfl)))

/-- `join` of C to a legal target. -/
theorem exec_join_target {o : BitVec 22} {k : BitVec 6} (h : MayIssue (encodeNat (.join o)) [] 0 tkNone s) (hcl : s.focusCl = .c)
    (ha : (branchTarget (issueEnv tkNone s) o).toNat % 16 = 0)
    (hc : checkTarget s (envOf s).rd .split (branchTarget (issueEnv tkNone s) o) = .ok k) :
    exec (.join o) s = .next (goSet s (holding s (.atJoin (branchTarget (issueEnv tkNone s) o)))) := by
  refine exec_holds htl huh (exec_join o s) h rfl ((if_neg (not_not_intro hcl)).trans ((if_neg fun hn => hn.2 ha).trans ?_))
  rw [issueEnv_rd, hc]

/-- `commit.d` of tiles that it may flush. -/
theorem exec_commitD_legal {a b : BitVec 6} (h : MayIssue (encodeNat (.commitD a b)) [] 0 tkNone s) :
    let e := issueEnv tkNone s
    let x := (e.x a).val.toNat
    let n := (e.x b).val.toNat
    (e.x a).psn = false → (e.x b).psn = false → x < 512 → n ≤ 16 → x + n ≤ 512 → (∀ k < n, flushFault e s (x + k) = none) →
      imageBytes e.rd.a x n ≤ 1048576 → exec (.commitD a b) s = .next (goSet s (holding s (.atCommitD x n))) := by
  intro e x n ha hb hx hn hle hf hi
  have hok : ¬ (512 ≤ x ∨ 16 < n ∨ 512 < x + n) := by omega
  refine exec_holds htl huh (exec_commitD a b s) h rfl ((consume_two ha hb _).trans ((if_neg hok).trans ?_))
  rw [List.findSome?_eq_none_iff.mpr fun k hk => hf k (List.mem_range.mp hk)]
  exact if_neg (Nat.not_lt.mpr hi)

end Outside

/-- `replay` alone runs the region again (R268). -/
theorem exec_replay_alone {s : State} {g : BitVec 3} (h : MayIssue (encodeNat (.replay g)) [] g tkNone s) (hb : s.bundle = none) :
    exec (.replay g) s = .next (replayRegion s s.focusCore 6) := by
  rw [exec_raises (exec_replay g s) h rfl]
  simp only [goTrap, hb]
  rfl

/-- Settles O14: each word outside a handler ends where its meaning places the clusters. -/
theorem regionControl : Obligations.RegionControl := by
  unfold Obligations.RegionControl
  intro s d a b g o hh e held meet t
  refine ⟨fun h htl huh hr => exec_fork_legal htl huh h fun r hm => entryTrap_none (hr r hm), fun h htl huh => ⟨fun hcl ho => ?join,
    fun hcl ha hc => exec_join_target htl huh h hcl ha hc⟩, fun h htl huh => exec_holds htl huh (exec_endOp g s) h rfl rfl,
    fun h htl huh => exec_holds htl huh (exec_commit s) h rfl rfl, fun h htl huh => exec_commitD_legal htl huh h, exec_replay_alone⟩
  case join =>
    subst ho
    exact exec_join_other htl huh h hcl

/-! ## Where a meeting leads (R120, R121, R267) -/

/-- L, K and S wait at `join`. -/
def OthersJoin (a : Arch) : Prop := ∀ k < 3, ∃ u, vget a.clst .run (k + 1) = .atJoin u

theorem restAt_join {a : Arch} (h : OthersJoin a) : restAt a waitsJoin = true := by
  refine List.all_eq_true.mpr fun k hk => ?_
  obtain ⟨u, hu⟩ := h k (List.mem_range.mp hk)
  rw [hu]
  rfl

theorem restAt_commit {a : Arch} (h : ∀ k < 3, vget a.clst .run (k + 1) = .atCommit) : restAt a waitsCommit = true :=
  List.all_eq_true.mpr fun k hk => by rw [h k (List.mem_range.mp hk)]; rfl

/-- A condition on the other clusters that split mode alone asks for. -/
theorem joint_or {m : Mode} {b : Bool} (h : m = .split → b = true) : (!(m == .split) || b) = true := by
  cases m with
  | joint => rfl
  | split => rw [h rfl]; rfl

section Settle

variable {s : State} {ci : Nat}

/-- All four clusters at `join`. -/
theorem settleWaits_join {t : Word} (hm : (getCore s ci).a.mode = .split) (hj : OthersJoin (getCore s ci).a)
    (hc : vget (getCore s ci).a.clst .run 0 = .atJoin t) : settleWaits s ci = putCore s ci (enterJoint (getCore s ci) t) := by
  simp [settleWaits, hc, hm, restAt_join hj]

/-- The clusters at `commit`. -/
theorem settleWaits_commit (hj : (getCore s ci).a.mode = .split → ∀ k < 3, vget (getCore s ci).a.clst .run (k + 1) = .atCommit)
    (hc : vget (getCore s ci).a.clst .run 0 = .atCommit) :
    settleWaits s ci = tryCommit s ci (releaseFree s ci) fun s => commitRegion s ci true false := by
  simp only [settleWaits, hc, joint_or fun hm => restAt_commit (hj hm), if_true]

/-- C at `end` and the others at `join`. -/
theorem settleWaits_end (hj : (getCore s ci).a.mode = .split → OthersJoin (getCore s ci).a)
    (hc : vget (getCore s ci).a.clst .run 0 = .atEnd) : settleWaits s ci = tryCommit s ci (releaseFree s ci) fun s => commitEnd s ci := by
  simp only [settleWaits, hc, joint_or fun hm => restAt_join (hj hm), if_true]

/-- A commit that its clusters have reached: an armed nest is a fault, the region's work is waited for, and a line that another core pins makes
it try again without its own pins (R183, R221). -/
theorem tryCommit_cases (s : State) (ci : Nat) (free : Bool) (commit : State → State) :
    let c := getCore s ci
    let r := tryCommit s ci free commit
    (∀ off, armedNest c = some off → r = armedTrap s ci off) ∧
      (armedNest c = none → regionDone c = false → r = s) ∧
      (armedNest c = none → regionDone c = true → free = false → r = modArch s ci fun a => { a with pins := [] }) ∧
      (armedNest c = none → regionDone c = true → free = true → r = commit s) := by
  refine ⟨fun off h => ?_, fun h hd => ?_, fun h hd hf => ?_, fun h hd hf => ?_⟩ <;> simp [tryCommit, *]

@[simp] theorem getCore_dropBundle (s : State) (i j : Nat) : getCore (dropBundle s i) j = getCore s j := rfl

/-- A commit with an empty buffer releases nothing. -/
theorem commitRegion_empty (hb : (getCore s ci).cbuf = []) (resume durable : Bool) :
    ∃ f, commitRegion s ci resume durable = dropBundle (modCore s ci f) ci ∧
    ∀ c, (f c).snap = (f c).a ∧ (f c).ext = [] ∧ (f c).cbuf = [] ∧ (f c).rtryCount = 0 ∧ (f c).a.nextRes = 0 ∧ (f c).a.pins = [] := by
  unfold commitRegion
  rw [hb]
  exact ⟨_, rfl, fun c => ⟨rfl, rfl, rfl, rfl, rfl, rfl⟩⟩

end Settle

/-- Settles O15: a meeting of clusters held enters joint mode, or is a commit in one of its four cases. -/
theorem meetingResults : Obligations.MeetingResults := by
  unfold Obligations.MeetingResults
  intro s ci t hci c joined
  repeat rw [List.forall_mem_cons]
  refine ⟨fun hm hj hc => ?join, ⟨fun hj hc => ?commit, fun hj hc => ?finish, List.forall_mem_nil _⟩, fun hb => ?empty⟩
  case join =>
    rw [settleWaits_join hm hj hc, getCore_putCore_self _ _ hci]
    exact ⟨rfl, rfl, rfl, rfl, rfl, rfl, rfl, rfl⟩
  case commit => exact settleWaits_commit hj hc ▸ tryCommit_cases s ci _ _
  case finish => exact settleWaits_end hj hc ▸ tryCommit_cases s ci _ _
  case empty =>
    obtain ⟨f, hf, hc⟩ := commitRegion_empty hb true false
    rw [hf, getCore_dropBundle, getCore_modCore_self _ _ hci]
    exact hc _

end Sys2Proof.Machine
end

section
/-! O16 and O17. Sync bits, tokens and the range words. -/

namespace Sys2Proof.Machine

/-! ## Words that complete or wait (R122, R123) -/

/-- A word that completes where its condition holds and waits where it does not. -/
theorem exec_completesOrWaits {i : Instr} {dsts : List (BitVec 6)} {g : BitVec 3} {s t : State} {sem : Env → State → Res} {ready : Bool}
    (hi : exec i s = issueA (encodeNat i) dsts g s sem) (ht : ready = true → sem (issueEnv tkNone s) s = .done t)
    (hf : ready = false → sem (issueEnv tkNone s) s = .stall) (h : MayIssue (encodeNat i) dsts g tkNone s) :
    (ready = true → exec i s = .next (goOn tkNone s t)) ∧ (ready = false → exec i s = .next (goWait s)) :=
  ⟨fun hr => exec_completes hi h (ht hr), fun hr => exec_waits hi h (hf hr)⟩

/-- Settles O16: each word completes with what its meaning writes, or waits. -/
theorem syncAndTokens : Obligations.SyncAndTokens := by
  unfold Obligations.SyncAndTokens
  intro s n d p g e y put
  have off {b : Bool} (h : b = false) : ¬ b = true := Bool.eq_false_iff.mp h
  repeat rw [List.forall_mem_cons]
  exact ⟨⟨exec_completesOrWaits (exec_yset n g s) (fun _ => rfl) nofun, exec_completesOrWaits (exec_yclr n g s) (fun _ => rfl) nofun,
      exec_completesOrWaits (exec_ywait n g s) (fun hr => if_pos hr) (fun hr => if_neg (off hr)),
      exec_completesOrWaits (exec_ywaitc n g s) (fun hr => if_neg (off ((Bool.not_eq_true' _).mp hr)))
        (fun hr => if_pos ((Bool.not_eq_false' _).mp hr)),
      exec_completesOrWaits (exec_ytas d n g s) (fun _ => rfl) nofun, List.forall_mem_nil _⟩,
    fun h => exec_completes (exec_yrd d g s) h rfl,
    ⟨exec_completesOrWaits (exec_tkpush p g s) (fun hr => if_pos hr) (fun hr => if_neg (off hr)),
      exec_completesOrWaits (exec_tkwait p g s) (fun hr => if_pos hr) (fun hr => if_neg (off hr)), List.forall_mem_nil _⟩,
    fun h => exec_completes (exec_tkcnt d p g s) h rfl⟩

/-! ## Range work (R126 to R128) -/

/-- Where no request is pending, `rnext` answers none. -/
theorem answerSteal_none {s : State} {ci : Nat} (h : (getCore s ci).a.req = none) : answerSteal s ci = s := by
  simp only [answerSteal, h]

/-- A pending request is granted the upper half of two or more items left, or refused (R126). -/
theorem answerSteal_some {s : State} {ci : Nat} {j : UnitRef} (h : (getCore s ci).a.req = some j) :
    let ar := (getCore s ci).a
    let left := ar.rend.toNat - ar.rcur.toNat
    let low := ar.rend - BitVec.ofNat 64 (left / 2)
    answerSteal s ci = if 2 ≤ left then
        sendAnswer (modCore s ci fun c => { c with a := { c.a with rend := low, req := none }, ext := c.ext ++ [.grantGiven low j] }) j
          (some (low, ar.rend))
      else refuseSteal s ci := by
  intro ar left low
  simp only [answerSteal, h]
  by_cases hl : 2 ≤ left
  · exact (if_neg (Nat.not_lt.mpr hl)).trans (if_pos hl).symm
  · exact (if_pos (Nat.not_le.mp hl)).trans (if_neg hl).symm

/-- The three bits of `rstat`. -/
theorem rstat_bits (x y z : Bool) : 4 * b2n x + 2 * b2n y + b2n z = (if x then 4 else 0) + (if y then 2 else 0) + (if z then 1 else 0) := by
  cases x <;> cases y <;> cases z <;> rfl

section Words

variable {s : State} {d a b f r : BitVec 6} {g : BitVec 3}

/-- `rset` of operands that are not poisoned. -/
theorem exec_rset_sets (h : MayIssue (encodeNat (.rset a b g)) [] g tkNone s) (ha : ((issueEnv tkNone s).x a).psn = false)
    (hb : ((issueEnv tkNone s).x b).psn = false) :
    let e := issueEnv tkNone s
    exec (.rset a b g) s = .next (goOn tkNone s (modArch (refuseSteal s s.focusCore) s.focusCore fun ar =>
      { ar with rcur := (e.x a).val, rend := (e.x b).val, grant := false, refused := false })) :=
  exec_completes (exec_rset a b g s) h (consume_two ha hb _)

/-- `rnext` answers a request, and then takes the next item or clears its flag. -/
theorem exec_rnext_takes (h : MayIssue (encodeNat (.rnext d f g)) [d] g tkNone s) :
    let e := issueEnv tkNone s
    let u := answerSteal s s.focusCore
    let cur := (getCore u s.focusCore).a
    (cur.rcur.toNat < cur.rend.toNat → exec (.rnext d f g) s = .next (goOn tkNone s (setFlag e
      (setX e (modArch u s.focusCore fun ar => { ar with rcur := cur.rcur + 1 }) d cur.rcur false) f.toNat true))) ∧
    (cur.rend.toNat ≤ cur.rcur.toNat → exec (.rnext d f g) s = .next (goOn tkNone s (setFlag e u f.toNat false))) :=
  ⟨fun hc => exec_completes (exec_rnext d f g s) h (if_pos hc), fun hc => exec_completes (exec_rnext d f g s) h (if_neg (Nat.not_lt.mpr hc))⟩

end Words

/-- Settles O17: `rset` and `rnext` answer a request first; the other words end as their meanings say. -/
theorem rangeResults : Obligations.RangeResults := by
  unfold Obligations.RangeResults
  intro s d a b f r6 g e ar left low answered refused s1 cur
  have hs1 : s1 = answerSteal s s.focusCore := by
    cases hr : ar.req with
    | none => rw [answerSteal_none hr]; simp only [s1, hr]
    | some j => rw [answerSteal_some hr]; simp only [s1, hr]; rfl
  refine ⟨exec_rset_sets, ?rnext, fun h => exec_completes (exec_rsteal r6 g s) h rfl, fun h => ?rstat⟩
  case rnext =>
    simp only [cur]
    rw [hs1]
    exact exec_rnext_takes
  case rstat =>
    rw [← rstat_bits]
    exact exec_completes (exec_rstat d g s) h rfl

end Sys2Proof.Machine
end

section
/-! SUPPORT for O59. What the end of a word and the write of a register leave as they were. -/

namespace Sys2Proof.Machine

/-! ## A program counter that moves on (R36, R115, R117, R118) -/

/-- The core after a word in sequence: its program counters and `rep`, its loops and its sequencer have moved, and VBASE turns only where the
sequencer runs. -/
def InSequence (c c' : Core) : Prop :=
  ∃ pc repK loops seq vbase, c' = { c with a := { c.a with pc := pc, repK := repK, loops := loops, seq := seq, vbase := vbase } } ∧
    (c.a.seq = none → vbase = c.a.vbase)

theorem inSequence_self (c : Core) : InSequence c c := ⟨_, _, _, _, _, rfl, fun _ => rfl⟩

theorem advanceSeq_inSequence {c : Core} {q : Seqr} (h : c.a.seq = some q) : InSequence c (advanceSeq c q) := by
  have hs : c.a.seq ≠ none := by simp [h]
  unfold advanceSeq
  dsimp only
  split
  · exact ⟨_, _, _, _, _, rfl, fun hn => absurd hn hs⟩
  · split
    · exact ⟨_, _, _, _, _, rfl, fun hn => absurd hn hs⟩
    · exact ⟨_, _, _, _, _, rfl, fun hn => absurd hn hs⟩

theorem advanceJoint_inSequence (c : Core) : InSequence c (advanceJoint c) := by
  unfold advanceJoint
  split
  · exact ⟨_, _, _, _, _, rfl, fun _ => rfl⟩
  · next q hq => exact advanceSeq_inSequence hq

theorem advanceSplit_inSequence (c : Core) (cl : Nat) (p : Word) : InSequence c (advanceSplit c cl p) := ⟨_, _, _, _, _, rfl, fun _ => rfl⟩

theorem advance_inSequence (c : Core) (cl : Cluster) (skip : Nat) : InSequence c (advance c cl skip) := by
  unfold advance
  split
  · exact advanceJoint_inSequence c
  · split
    · exact advanceSplit_inSequence ..
    · split
      · exact ⟨_, _, _, _, _, rfl, fun _ => rfl⟩
      · exact advanceSplit_inSequence ..

/-- The end of a word in sequence changes no part of the state but the cores. -/
theorem goLater_cores (s w : State) : goLater s w = { w with cores := (goLater s w).cores } := by
  unfold goLater
  split <;> rfl

theorem goLater_others (s w : State) {j : Nat} (h : j ≠ s.focusCore) : getCore (goLater s w) j = getCore w j := by
  unfold goLater
  split
  · exact getCore_modCore_ne _ _ h.symm
  · rfl

theorem goLater_inSequence {s : State} (hci : s.focusCore < 72) (w : State) :
    InSequence (getCore w s.focusCore) (getCore (goLater s w) s.focusCore) := by
  unfold goLater
  split
  · rw [getCore_modCore_self _ _ hci]
    exact advance_inSequence ..
  · exact inSequence_self _

/-! ## Flags and registers (R60, R98, R321) -/

/-- A result that sets no flag. -/
@[simp] theorem addFlags_none (s : State) (ci : Nat) : addFlags s ci {} = s := by
  have h (x : BitVec 8) : x ||| Flg.bits {} = x := BitVec.or_zero
  have hb : (s.bundle.map fun (b : Bundle) => { b with flagged := b.flagged ||| Flg.bits {} }) = s.bundle := by
    cases s.bundle <;> simp [h]
  unfold addFlags
  rw [hb]
  simp only [h]
  exact modArch_id s ci

/-- The registers of the trap bank are x28 to x31. -/
theorem le_of_inBank {a : Arch} {i : Nat} (h : inBank a i = true) : 28 ≤ i := by
  simp only [inBank, Bool.and_eq_true, decide_eq_true_eq] at h
  exact h.1.2

/-- A write of one register leaves every other as it reads, whichever bank it goes to. -/
theorem rdReg_wrRegIn_ne {bank : Bool} {i k : Nat} (hb : bank = true → 28 ≤ i) (hk : k ≠ i) (c : Core) (r : Reg) :
    rdReg (wrRegIn bank c i r) k = rdReg c k := by
  unfold wrRegIn
  split
  · rfl
  · split
    · have hi := hb ‹_›
      unfold rdReg
      dsimp only
      split
      · rfl
      · split
        · next hin =>
          have h28 := le_of_inBank hin
          exact vget_vset_ne _ _ _ (by omega)
        · rfl
    · simp [rdReg, inBank, hk.symm]

/-- A write of a register changes nothing of the core but its registers. -/
theorem wrRegIn_frame (bank : Bool) (c : Core) (i : Nat) (r : Reg) :
    ∃ regs tb, wrRegIn bank c i r = { c with a := { c.a with regs := regs }, bank := tb } := by
  unfold wrRegIn
  split
  · exact ⟨_, _, rfl⟩
  · split <;> exact ⟨_, _, rfl⟩

end Sys2Proof.Machine
end

section
/-! O59. What a scalar, CSR or token word leaves as it was. -/

namespace Sys2Proof.Machine

/-! ## The words that write one register -/

/-- A meaning that writes one register and, where `u` holds, flags of USTAT. -/
def WritesOne (s : State) (d : BitVec 6) (u : Bool) (r : Res) : Prop :=
  ∃ v p f, r = .done (addFlags (setX (issueEnv tkNone s) s d v p) s.focusCore f) ∧ (u = false → f = {})

section WritesOne

variable {s : State} {d a b : BitVec 6} {u p : Bool} {v : Word} {f : Fmt} {r : Nat × Flg}

theorem setX_writesOne : WritesOne s d u (.done (setX (issueEnv tkNone s) s d v p)) :=
  ⟨v, p, {}, by rw [addFlags_none], fun _ => rfl⟩

theorem addFlags_writesOne {fl : Flg} : WritesOne s d true (.done (addFlags (setX (issueEnv tkNone s) s d v p) s.focusCore fl)) :=
  ⟨v, p, fl, rfl, nofun⟩

theorem binaryX_writesOne {op : Word → Word → Word} : WritesOne s d u (binaryX (issueEnv tkNone s) s d a b op) := by
  unfold binaryX
  split
  · exact setX_writesOne
  · exact setX_writesOne

theorem unaryX_writesOne {op : Word → Word} : WritesOne s d u (unaryX (issueEnv tkNone s) s d a op) := by
  unfold unaryX
  split
  · exact setX_writesOne
  · exact setX_writesOne

theorem divideX_writesOne {op : Word → Word → Word × Bool} : WritesOne s d true (divideX (issueEnv tkNone s) s d a b op) := by
  unfold divideX
  split
  · exact setX_writesOne
  · exact addFlags_writesOne

theorem setF_writesOne : WritesOne s d true (setF (issueEnv tkNone s) s f d p r) := by
  unfold setF
  split
  · exact setX_writesOne
  · exact addFlags_writesOne

/-- The operations on the sign set no flag (R129). -/
theorem setF_exact_writesOne {n : Nat} : WritesOne s d false (setF (issueEnv tkNone s) s f d p (n, {})) := by
  unfold setF
  split
  · exact setX_writesOne
  · exact ⟨_, _, {}, rfl, fun _ => rfl⟩

theorem convertToInt_writesOne {signed : Bool} {w : Nat} {m : BitVec 3} :
    WritesOne s d true (convertToInt (issueEnv tkNone s) s f signed w d a m) := by
  unfold convertToInt
  split
  · exact setX_writesOne
  · exact addFlags_writesOne

end WritesOne

/-- What a word with one destination register leaves as it was: the conclusion of O59 for it. -/
def ScalarFrame (s t : State) (d : BitVec 6) (u : Bool) : Prop :=
  let c := getCore s s.focusCore
  let c' := getCore t s.focusCore
  t = { s with cores := t.cores, bundle := if u then t.bundle else s.bundle } ∧ (s.bundle = none → t.bundle = none) ∧
    (∀ j, j ≠ s.focusCore → getCore t j = getCore s j) ∧
    (∀ k, k < 64 → k ≠ d.toNat → rdReg c' k = rdReg c k) ∧ c' = { c with a := c'.a, bank := c'.bank } ∧
    c'.a = { c.a with regs := c'.a.regs, pc := c'.a.pc, repK := c'.a.repK, loops := c'.a.loops, seq := c'.a.seq, vbase := c'.a.vbase,
                      ustat := if u then c'.a.ustat else c.a.ustat } ∧
    (∀ x, byteAt t.mem x = byteAt s.mem x)

section Frames

variable {s w : State} {d : BitVec 6} {u : Bool} (hci : s.focusCore < 72)
include hci

/-- The write of the destination keeps the frame. -/
theorem setX_scalarFrame (v : Word) (p : Bool) : ScalarFrame s (setX (issueEnv tkNone s) s d v p) d u := by
  obtain ⟨regs, tb, hreg⟩ := wrRegIn_frame (inBank (envOf s).rd.a d.toNat) (getCore s s.focusCore) d.toNat { val := v, psn := p }
  have hc : getCore (setX (issueEnv tkNone s) s d v p) s.focusCore =
      wrRegIn (inBank (envOf s).rd.a d.toNat) (getCore s s.focusCore) d.toNat { val := v, psn := p } := getCore_modCore_self _ _ hci
  refine ⟨by cases u <;> rfl, id, fun j hj => getCore_modCore_ne _ _ hj.symm, fun k _ hk => ?_, ?_, ?_, fun _ => rfl⟩
  · rw [hc]
    exact rdReg_wrRegIn_ne le_of_inBank hk ..
  · rw [hc, hreg]
  · rw [hc, hreg, ite_self]

/-- Flags set in USTAT keep the frame of a word that may set them. -/
theorem addFlags_scalarFrame (h : ScalarFrame s w d true) (f : Flg) : ScalarFrame s (addFlags w s.focusCore f) d true := by
  obtain ⟨hrest, hbundle, hothers, hregs, hcore, harch, hmem⟩ := h
  have hc : getCore (addFlags w s.focusCore f) s.focusCore =
      { getCore w s.focusCore with
        a := { (getCore w s.focusCore).a with ustat := (getCore w s.focusCore).a.ustat ||| f.bits } } := getCore_modArch_self _ _ hci
  refine ⟨?_, fun hb => ?_, fun j hj => ?_, fun k hk hkd => ?_, ?_, ?_, hmem⟩
  · exact congrArg (fun z : State => { z with cores := (addFlags w s.focusCore f).cores, bundle := (addFlags w s.focusCore f).bundle }) hrest
  · simp [addFlags, modArch, hbundle hb]
  · exact (getCore_modArch_ne _ _ hj.symm).trans (hothers j hj)
  · rw [hc]
    exact hregs k hk hkd
  · rw [hc]
    exact congrArg (fun z : Core => { z with a := { (getCore w s.focusCore).a with ustat := (getCore w s.focusCore).a.ustat ||| f.bits } }) hcore
  · rw [hc]
    exact congrArg (fun z : Arch => { z with ustat := (getCore w s.focusCore).a.ustat ||| f.bits }) harch

/-- The end of the word keeps the frame. -/
theorem goLater_scalarFrame (h : ScalarFrame s w d u) : ScalarFrame s (goLater s w) d u := by
  obtain ⟨hrest, hbundle, hothers, hregs, hcore, harch, hmem⟩ := h
  have hb : (goLater s w).bundle = w.bundle := by rw [goLater_cores]
  have hm : (goLater s w).mem = w.mem := by rw [goLater_cores]
  obtain ⟨pc, repK, loops, seq, vbase, hc, -⟩ := goLater_inSequence hci w
  refine ⟨?_, fun h => hb.trans (hbundle h), fun j hj => (goLater_others _ _ hj).trans (hothers j hj), fun k hk hkd => ?_, ?_, ?_,
    fun x => by rw [hm, hmem]⟩
  · rw [hb]
    exact (goLater_cores s w).trans (congrArg (fun z : State => { z with cores := (goLater s w).cores }) hrest)
  · rw [hc]
    exact hregs k hk hkd
  · rw [hc]
    exact congrArg (fun z : Core => { z with
      a := { (getCore w s.focusCore).a with pc := pc, repK := repK, loops := loops, seq := seq, vbase := vbase } }) hcore
  · rw [hc]
    exact congrArg (fun z : Arch => { z with pc := pc, repK := repK, loops := loops, seq := seq, vbase := vbase }) harch

end Frames

/-- The frame of a word whose meaning writes one register. -/
theorem exec_scalarFrame {i : Instr} {s t : State} {d : BitVec 6} {g : BitVec 3} {u : Bool} {sem : Env → State → Res}
    (hi : exec i s = issueA (encodeNat i) [d] g s sem) (hs : WritesOne s d u (sem (issueEnv tkNone s) s))
    (hci : s.focusCore < 72) (h : MayIssue (encodeNat i) [d] g tkNone s) (ht : exec i s = .next t) : ScalarFrame s t d u := by
  obtain ⟨v, p, f, hs, hf⟩ := hs
  have hx := exec_completes hi h hs
  rw [goOn_tkNone] at hx
  obtain rfl := Host.Outcome.next.inj (ht.symm.trans hx)
  refine goLater_scalarFrame hci ?_
  cases u with
  | true => exact addFlags_scalarFrame hci (setX_scalarFrame hci v p) f
  | false =>
    rw [hf rfl, addFlags_none]
    exact setX_scalarFrame hci v p

/-! ## The words that write a CSR or a token queue -/

/-- The state after a word in sequence whose meaning changes the issuing core alone, to `c`. -/
def GoesOn (s : State) (c : Core) (t : State) : Prop :=
  t = { s with cores := t.cores } ∧ (∀ j, j ≠ s.focusCore → getCore t j = getCore s j) ∧ InSequence c (getCore t s.focusCore)

theorem goesOn_modCore {s : State} (hci : s.focusCore < 72) (f : Core → Core) :
    GoesOn s (f (getCore s s.focusCore)) (goLater s (modCore s s.focusCore f)) := by
  refine ⟨goLater_cores .., fun j hj => (goLater_others _ _ hj).trans (getCore_modCore_ne _ _ hj.symm), ?_⟩
  have h := goLater_inSequence hci (modCore s s.focusCore f)
  rwa [getCore_modCore_self _ _ hci] at h

/-- A write of a CSR changes the register that it names and no other (R132). -/
theorem csrWrite_frame (a : Arch) (fl : BitVec 8) (n : Nat) (v : Word) :
    csrWrite a fl n v = { a with
      vbase := if n = 0x002 then (csrWrite a fl n v).vbase else a.vbase
      ustat := if n = 0x000 then (csrWrite a fl n v).ustat else a.ustat
      frm := if n = 0x001 then (csrWrite a fl n v).frm else a.frm
      vrot := if n = 0x002 then (csrWrite a fl n v).vrot else a.vrot
      abase := if n = 0x003 then (csrWrite a fl n v).abase else a.abase
      shmaxe := if n = 0x040 then (csrWrite a fl n v).shmaxe else a.shmaxe
      shmean := if n = 0x041 then (csrWrite a fl n v).shmean else a.shmean } := by
  unfold csrWrite
  split
  case h_2 => split <;> rfl
  case h_7 h0 h1 h2 h3 h4 h5 => simp only [if_neg h0, if_neg h1, if_neg h2, if_neg h3, if_neg h4, if_neg h5]
  all_goals rfl

/-- A push changes the queues alone (R123). -/
theorem deliverTok_holdTok_frame (a : Arch) (p : Push) :
    ∃ tokens heldTok, deliverTok (holdTok a p) p = { a with tokens := tokens, heldTok := heldTok } := by
  cases p with
  | none => exact ⟨_, _, rfl⟩
  | some q => exact ⟨_, _, rfl⟩

/-- A pop likewise. -/
theorem popTok_frame (a : Arch) (p : Push) : ∃ tokens heldTok, popTok a p = { a with tokens := tokens, heldTok := heldTok } := by
  cases p with
  | none => exact ⟨_, _, rfl⟩
  | some q => exact ⟨_, _, rfl⟩

/-- What a word on a token queue leaves as it was: the conclusion of O59 for it. -/
def TokenFrame (s t : State) : Prop :=
  let c := getCore s s.focusCore
  let c' := getCore t s.focusCore
  t = { s with cores := t.cores, bundle := t.bundle } ∧ (∀ j, j ≠ s.focusCore → getCore t j = getCore s j) ∧
    (∀ x, byteAt t.mem x = byteAt s.mem x) ∧ c' = { c with a := c'.a } ∧
    c'.a = { c.a with tokens := c'.a.tokens, heldTok := c'.a.heldTok, pc := c'.a.pc, repK := c'.a.repK, loops := c'.a.loops,
                      seq := c'.a.seq, vbase := c'.a.vbase }

theorem goWait_tokenFrame (s : State) : TokenFrame s (goWait s) := by
  unfold goWait
  split
  · exact ⟨rfl, fun _ _ => rfl, fun _ => rfl, rfl, rfl⟩
  · exact ⟨rfl, fun _ _ => rfl, fun _ => rfl, rfl, rfl⟩

theorem tokenFrame_of_goesOn {s t : State} {c : Core} (h : GoesOn s c t)
    (hc : ∃ tokens heldTok, c = { getCore s s.focusCore with
      a := { (getCore s s.focusCore).a with tokens := tokens, heldTok := heldTok } }) : TokenFrame s t := by
  obtain ⟨tokens, heldTok, rfl⟩ := hc
  obtain ⟨hrest, hothers, pc, repK, loops, seq, vbase, hc, -⟩ := h
  have hm : t.mem = s.mem := by rw [hrest]
  have hb : t.bundle = s.bundle := by rw [hrest]
  refine ⟨?_, hothers, fun x => by rw [hm], ?_, ?_⟩
  · rw [hb]
    exact hrest
  · rw [hc]
  · rw [hc]

/-- What a word that writes a CSR leaves as it was: the conclusion of O59 for it. -/
def CsrFrame (s t : State) (d : BitVec 6) (n : BitVec 10) : Prop :=
  let c := getCore s s.focusCore
  let c' := getCore t s.focusCore
  t = { s with cores := t.cores } ∧ (∀ j, j ≠ s.focusCore → getCore t j = getCore s j) ∧ (∀ x, byteAt t.mem x = byteAt s.mem x) ∧
    (∀ k, k < 64 → k ≠ d.toNat → rdReg c' k = rdReg c k) ∧ c' = { c with a := c'.a, bank := c'.bank } ∧
    c'.a = { c.a with
      regs := c'.a.regs, pc := c'.a.pc, repK := c'.a.repK, loops := c'.a.loops, seq := c'.a.seq
      vbase := if n = 0x002 ∨ c.a.seq.isSome then c'.a.vbase else c.a.vbase
      ustat := if n = 0x000 then c'.a.ustat else c.a.ustat
      frm := if n = 0x001 then c'.a.frm else c.a.frm
      vrot := if n = 0x002 then c'.a.vrot else c.a.vrot
      abase := if n = 0x003 then c'.a.abase else c.a.abase
      shmaxe := if n = 0x040 then c'.a.shmaxe else c.a.shmaxe
      shmean := if n = 0x041 then c'.a.shmean else c.a.shmean }

theorem csrFrame_of_goesOn {s t : State} {d : BitVec 6} {n : BitVec 10} {fl : BitVec 8} {v : Word} {bank : Bool} {r : Reg}
    (hb : bank = true → 28 ≤ d.toNat)
    (h : GoesOn s (wrRegIn bank { getCore s s.focusCore with a := csrWrite (getCore s s.focusCore).a fl n.toNat v } d.toNat r) t) :
    CsrFrame s t d n := by
  obtain ⟨hrest, hothers, pc, repK, loops, seq, vbase, hc, hv⟩ := h
  have hm : t.mem = s.mem := by rw [hrest]
  have hwr := csrWrite_frame (getCore s s.focusCore).a fl n.toNat v
  have hn (k : BitVec 10) : n = k ↔ n.toNat = k.toNat := BitVec.toNat_inj.symm
  unfold CsrFrame
  dsimp only
  generalize getCore s s.focusCore = c at *
  generalize csrWrite c.a fl n.toNat v = w at *
  obtain ⟨regs, tb, hreg⟩ := wrRegIn_frame bank { c with a := w } d.toNat r
  refine ⟨hrest, hothers, fun x => by rw [hm], fun k _ hkd => ?_, ?_, ?_⟩
  · rw [hc]
    refine (rdReg_wrRegIn_ne hb hkd { c with a := w } r).trans ?_
    rw [hwr]
    rfl
  · rw [hc, hreg]
  · rw [hc, hreg]
    have hvbase : (if n = 0x002 ∨ c.a.seq.isSome then vbase else c.a.vbase) = vbase := by
      refine ite_eq_left_iff.mpr fun hno => ?_
      obtain ⟨h2, hs⟩ := not_or.mp hno
      rw [hreg, hwr] at hv
      have hw : vbase = if n.toNat = 0x002 then w.vbase else c.a.vbase := hv (Option.not_isSome_iff_eq_none.mp hs)
      exact (hw.trans (if_neg fun h => h2 ((hn 0x002).mpr h))).symm
    rw [hvbase]
    simp only [hn]
    exact congrArg (fun z : Arch => { z with regs := regs, pc := pc, repK := repK, loops := loops, seq := seq, vbase := vbase }) hwr

/-- The frame of a word that writes a CSR. -/
theorem exec_csrFrame {i : Instr} {s t : State} {d a : BitVec 6} {n : BitVec 10} {f : Word → Word → Word}
    (hi : exec i s = issueI (encodeNat i) [d] s fun e s => csrUpdate e s d a n f) (hci : s.focusCore < 72)
    (h : MayIssue (encodeNat i) [d] 0 tkNone s) (ha : ((issueEnv tkNone s).x a).psn = false) (ht : exec i s = .next t) : CsrFrame s t d n := by
  have hx := exec_completes hi h (consume_one ha _)
  rw [goOn_tkNone, issueEnv_ci, setX, modArch, issueEnv_ci, modCore_modCore] at hx
  obtain rfl := Host.Outcome.next.inj (ht.symm.trans hx)
  exact csrFrame_of_goesOn le_of_inBank (goesOn_modCore hci _)

/-- The frame of a word on a token queue, which completes or waits. -/
theorem exec_tokenFrame {i : Instr} {s t : State} {g : BitVec 3} {sem : Env → State → Res} {f : Arch → Arch} {ready : Bool}
    (hi : exec i s = issueA (encodeNat i) [] g s sem)
    (hs : sem (issueEnv tkNone s) s = if ready then .done (modArch s s.focusCore f) else .stall)
    (hf : ∀ a, ∃ tokens heldTok, f a = { a with tokens := tokens, heldTok := heldTok })
    (hci : s.focusCore < 72) (h : MayIssue (encodeNat i) [] g tkNone s) (ht : exec i s = .next t) : TokenFrame s t := by
  cases ready with
  | false =>
    obtain rfl := Host.Outcome.next.inj (ht.symm.trans (exec_waits hi h hs))
    exact goWait_tokenFrame s
  | true =>
    have hx := exec_completes hi h hs
    rw [goOn_tkNone] at hx
    obtain rfl := Host.Outcome.next.inj (ht.symm.trans hx)
    obtain ⟨tokens, heldTok, hf⟩ := hf (getCore s s.focusCore).a
    exact tokenFrame_of_goesOn (goesOn_modCore hci _) ⟨tokens, heldTok, by rw [hf]⟩

/-- Settles O59: a scalar word writes one register, a CSR word one CSR beside it, and a token word the queues. -/
theorem registerFrame : Obligations.RegisterFrame := by
  unfold Obligations.RegisterFrame
  intro s t d a b sh g m i u n c c' others
  repeat rw [List.forall_mem_cons]
  exact ⟨
    ⟨exec_scalarFrame (exec_add d a b g s) binaryX_writesOne, exec_scalarFrame (exec_sub d a b g s) binaryX_writesOne,
      exec_scalarFrame (exec_and d a b g s) binaryX_writesOne,
      exec_scalarFrame (exec_or d a b g s) binaryX_writesOne, exec_scalarFrame (exec_xor d a b g s) binaryX_writesOne,
      exec_scalarFrame (exec_sll d a b g s) binaryX_writesOne,
      exec_scalarFrame (exec_srl d a b g s) binaryX_writesOne, exec_scalarFrame (exec_sra d a b g s) binaryX_writesOne,
      exec_scalarFrame (exec_mul d a b g s) binaryX_writesOne,
      exec_scalarFrame (exec_mulhiS d a b g s) binaryX_writesOne, exec_scalarFrame (exec_mulhiU d a b g s) binaryX_writesOne,
      exec_scalarFrame (exec_quotS d a b g s) divideX_writesOne, exec_scalarFrame (exec_quotU d a b g s) divideX_writesOne,
      exec_scalarFrame (exec_rmdrS d a b g s) divideX_writesOne, exec_scalarFrame (exec_rmdrU d a b g s) divideX_writesOne,
      exec_scalarFrame (exec_addi d a i s) unaryX_writesOne,
      exec_scalarFrame (exec_andi d a i s) unaryX_writesOne, exec_scalarFrame (exec_ori d a i s) unaryX_writesOne,
      exec_scalarFrame (exec_xori d a i s) unaryX_writesOne,
      exec_scalarFrame (exec_slli d a sh s) unaryX_writesOne, exec_scalarFrame (exec_srli d a sh s) unaryX_writesOne,
      exec_scalarFrame (exec_srai d a sh s) unaryX_writesOne,
      exec_scalarFrame (exec_himm d u s) setX_writesOne, exec_scalarFrame (exec_adpc d u s) setX_writesOne,
      exec_scalarFrame (exec_flRd d g s) setX_writesOne,
      exec_scalarFrame (exec_pset d a g s) setX_writesOne, exec_scalarFrame (exec_pclr d a g s) setX_writesOne,
      exec_scalarFrame (exec_faddF64 d a b g s) setF_writesOne,
      exec_scalarFrame (exec_fsubF64 d a b g s) setF_writesOne, exec_scalarFrame (exec_fmulF64 d a b g s) setF_writesOne,
      exec_scalarFrame (exec_fdivF64 d a b g s) setF_writesOne,
      exec_scalarFrame (exec_faddF32 d a b g s) setF_writesOne, exec_scalarFrame (exec_fsubF32 d a b g s) setF_writesOne,
      exec_scalarFrame (exec_fmulF32 d a b g s) setF_writesOne,
      exec_scalarFrame (exec_fdivF32 d a b g s) setF_writesOne, exec_scalarFrame (exec_fsqrtF64 d a g s) setF_writesOne,
      exec_scalarFrame (exec_fsqrtF32 d a g s) setF_writesOne,
      exec_scalarFrame (exec_fminF64 d a b g s) setF_writesOne, exec_scalarFrame (exec_fminF32 d a b g s) setF_writesOne,
      exec_scalarFrame (exec_fmaxF64 d a b g s) setF_writesOne,
      exec_scalarFrame (exec_fmaxF32 d a b g s) setF_writesOne, exec_scalarFrame (exec_fmacF64 d a b g s) setF_writesOne,
      exec_scalarFrame (exec_fmacF32 d a b g s) setF_writesOne,
      exec_scalarFrame (exec_fmsgnF64 d a b g s) setF_exact_writesOne, exec_scalarFrame (exec_fmsgnF32 d a b g s) setF_exact_writesOne,
      exec_scalarFrame (exec_fabsF64 d a g s) setF_exact_writesOne, exec_scalarFrame (exec_fabsF32 d a g s) setF_exact_writesOne,
      exec_scalarFrame (exec_fnegF64 d a g s) setF_exact_writesOne, exec_scalarFrame (exec_fnegF32 d a g s) setF_exact_writesOne,
      exec_scalarFrame (exec_fkindF64 d a g s) setX_writesOne, exec_scalarFrame (exec_fkindF32 d a g s) setX_writesOne,
      exec_scalarFrame (exec_scvtF64F32 d a m g s) setF_writesOne,
      exec_scalarFrame (exec_scvtF64I64 d a m g s) setF_writesOne, exec_scalarFrame (exec_scvtF64Ui64 d a m g s) setF_writesOne,
      exec_scalarFrame (exec_scvtI64F64 d a m g s) convertToInt_writesOne, exec_scalarFrame (exec_scvtUi64F64 d a m g s) convertToInt_writesOne,
      exec_scalarFrame (exec_scvtI32F64 d a m g s) convertToInt_writesOne, exec_scalarFrame (exec_scvtF32F64 d a m g s) setF_writesOne,
      exec_scalarFrame (exec_scvtF32I64 d a m g s) setF_writesOne, exec_scalarFrame (exec_scvtF32Ui64 d a m g s) setF_writesOne,
      exec_scalarFrame (exec_scvtI64F32 d a m g s) convertToInt_writesOne, exec_scalarFrame (exec_scvtUi64F32 d a m g s) convertToInt_writesOne,
      exec_scalarFrame (exec_scvtI32F32 d a m g s) convertToInt_writesOne, exec_scalarFrame (exec_csrrd d n s) setX_writesOne,
      exec_scalarFrame (exec_yrd d g s) setX_writesOne,
      exec_scalarFrame (exec_tkcnt d a g s) setX_writesOne, exec_scalarFrame (exec_rstat d g s) setX_writesOne, List.forall_mem_nil _⟩,
    ⟨exec_csrFrame (exec_csrwr d a n s), exec_csrFrame (exec_csrset d a n s), exec_csrFrame (exec_csrclr d a n s), List.forall_mem_nil _⟩,
    ⟨exec_tokenFrame (exec_tkpush a g s) rfl fun ar => deliverTok_holdTok_frame ar _,
      exec_tokenFrame (exec_tkwait a g s) rfl fun ar => popTok_frame ar _, List.forall_mem_nil _⟩⟩

end Sys2Proof.Machine
end

section
/-! O51. A record of a standing launch fails under its unit's number, and not under its own. -/

namespace Sys2Proof.Machine

/-- A standing launch of two units: unit 1 runs record 1, and record 2, which is unit 0's, waits for a core. -/
def launchTwoUnits : Launch :=
  { id := 0, queue := 0, seq := 0, pkt := BitVec.ofNat 512 (1 + 2 ^ 96), asn := 0, units := 2, todo := [2], live := [1], fail := none
    cancelled := none, standing := true, arrive := 0, node := false, gang := none, items := [(1, none), (2, none)] }

/-- The candidate of record 2. -/
def candRecordTwo : Cand :=
  { part := 0, launch := 0, index := 2, prio := 0, arrive := 0, queue := 0, seq := 0, aff := [], homedie := 0, cosched := false, aged := false
    resume := false }

/-- Partition 0 has core 0, the launch and no valid segment; the candidate is die 0's only one. -/
def stateRecordTwo : State :=
  modDie (modPart State.reset 0 fun p => { p with mask0 := 1, launches := [launchTwoUnits] }) 0 fun y => { y with cands := [candRecordTwo] }

/-- The failure that launch 0 of partition 0 holds. -/
def heldFailure (s : State) : Option (Option (Nat × Nat × Nat × Nat)) := (launchOf (getPart s 0) 0).map Launch.fail

/-- Core 0 is free and finds the candidate, whose launch's segment is not valid. -/
theorem stateRecordTwo_chooses : freeUser stateRecordTwo 0 = true ∧ choosePart stateRecordTwo 0 = some 0 ∧
    firstCand ((openCands stateRecordTwo 0 0).filter (fitsCore stateRecordTwo 0 0)) = some candRecordTwo ∧
    launchOf (getPart stateRecordTwo 0) 0 = some launchTwoUnits ∧ (segOf stateRecordTwo 0 (pSeg launchTwoUnits.pkt)).v = false := by
  decide +kernel

/-- The dispatch fails unit 0, to which record 2 of a launch of two units falls. -/
theorem dispatchCore_stateRecordTwo : heldFailure (dispatchCore stateRecordTwo 0) = some (some (0, 0, 0x39, 2)) := by decide +kernel

/-- The statement's own value names unit 2, which the launch has not. -/
theorem failLaunch_stateRecordTwo :
    heldFailure (failLaunch stateRecordTwo 0 launchTwoUnits (2, 0, 0x39, 2)) = some (some (2, 0, 0x39, 2)) := by decide +kernel

/-- Refutes O51: its clause for a candidate whose segment is not valid fails the launch under the candidate's index. For a standing launch that is
the record's number, which grows without bound; the model records the unit, the index modulo UNITS. -/
theorem not_dispatchEvents : ¬ Obligations.DispatchEvents := by
  unfold Obligations.DispatchEvents
  intro h
  obtain ⟨hfree, hpart, hcand, hlaunch, hseg⟩ := stateRecordTwo_chooses
  obtain ⟨-, -, -, -, hdispatch, -⟩ := h stateRecordTwo 0 0 0 0 0 0 .confirm (by decide) (by decide) (by decide) (by decide)
  obtain ⟨-, hinvalid, -⟩ := hdispatch 0 candRecordTwo launchTwoUnits hfree hpart hcand hlaunch
  have hnext : dispatchCore stateRecordTwo 0 = failLaunch stateRecordTwo 0 launchTwoUnits (2, 0, 0x39, 2) :=
    Host.Outcome.next.inj (hinvalid rfl hseg)
  have hfail := dispatchCore_stateRecordTwo
  rw [hnext, failLaunch_stateRecordTwo] at hfail
  exact absurd hfail (by decide)

end Sys2Proof.Machine
end

section
/-! SUPPORT. How a word with token fields ends: one lemma per end of its meaning. -/

namespace Sys2Proof.Machine

section EngineEnds

variable {i : Instr} {dsts : List (BitVec 6)} {tk : Tk} {s t : State} {sem : Env → State → Res}
  (hi : exec i s = issueE (encodeNat i) dsts tk s sem) (h : MayIssue (encodeNat i) dsts 0 tk s)
include hi h

/-- It completes. -/
theorem execE_completes (hs : sem (issueEnv tk s) (issued tk s) = .done t) : exec i s = .next (goOn tk s t) :=
  hi.trans (issue_done h hs)

/-- It issues work of an engine, which pushes its token later. -/
theorem execE_later (hs : sem (issueEnv tk s) (issued tk s) = .later t) : exec i s = .next (goLater s t) :=
  hi.trans (issue_later h hs)

/-- It waits. -/
theorem execE_waits (hs : sem (issueEnv tk s) (issued tk s) = .stall) : exec i s = .next (goWait s) :=
  hi.trans (issue_stall h hs)

/-- Its access meets a pinned line, and it issues again (R182, R183). -/
theorem execE_retries (hs : sem (issueEnv tk s) (issued tk s) = .retry) : exec i s = .next (goRetry s) := by
  rw [hi, issueE, issue_of h, hs]
  cases hb : s.bundle <;> simp only [conclude, goRetry, hb]
  rfl

end EngineEnds

end Sys2Proof.Machine
end

section
/-! O20. The stream words on L and on S. -/

namespace Sys2Proof.Machine

/-! ## Stopping an engine (R158) -/

/-- Whether a word that stops an engine need not wait: an inbound engine, or an empty FIFO. -/
def StreamIdle (s : State) (ci q : Nat) : Prop := (streamOf (getCore s ci).a q).out = false ∨ (fifoOf (getCore s ci) q).vecs = []

/-- The state once a stream engine has stopped, its FIFO discarded. -/
def stopStream (s : State) (ci q : Nat) : State :=
  let x := streamOf (getCore s ci).a q
  modCore s ci fun c => dropFifo { c with a := putStream c.a q { x with running := false } } q x.pos.toNat

section Stopped

variable {e : Env} {s : State} {q : Nat} {k : State → Res}

/-- An engine whose outbound FIFO holds vectors is waited for. -/
theorem stopped_waits (h : ¬ StreamIdle s e.ci q) : stopped e s q k = .stall := by
  obtain ⟨hout, hv⟩ := not_or.mp h
  exact if_pos ⟨(Bool.not_eq_false _).mp hout, by simpa using hv⟩

/-- Any other stops first. -/
theorem stopped_idle (h : StreamIdle s e.ci q) : stopped e s q k = k (stopStream s e.ci q) := by
  refine if_neg fun ⟨hout, hv⟩ => ?_
  rcases h with h | h
  · exact absurd hout (Bool.eq_false_iff.mp h)
  · rw [h] at hv
    exact absurd hv (by decide)

/-- A configuration word stops an engine that runs. -/
theorem stoppedIfRunning_idle (h : StreamIdle s e.ci q) :
    stoppedIfRunning e s q k = k (if (streamOf (getCore s e.ci).a q).running then stopStream s e.ci q else s) := by
  unfold stoppedIfRunning
  split
  · exact stopped_idle h
  · rfl

end Stopped

/-! ## The words (R155, R157, R158) -/

section Words

variable {i : Instr} {s : State} {q a : BitVec 6} {tk : Tk}

/-- A configuration word writes its fields, once its engine has stopped if it runs. -/
theorem exec_configure {d : Nat} {f : Word → Stream → Stream} {g : Stream → Stream}
    (hi : exec i s = issueE (encodeNat i) [] tk s fun e s => configure e s q a d f) (hg : f ((issueEnv tk s).x a).val = g)
    (h : MayIssue (encodeNat i) [] 0 tk s) (ha : ((issueEnv tk s).x a).psn = false) (hidle : StreamIdle (issued tk s) s.focusCore q.toNat) :
    let u := issued tk s
    exec i s = .next (goOn tk s (modStream
      (if (streamOf (getCore u s.focusCore).a q.toNat).running then stopStream u s.focusCore q.toNat else u) s.focusCore q.toNat g)) := by
  subst hg
  exact execE_completes hi h ((consume_one ha _).trans (stoppedIfRunning_idle hidle))

/-- A word that only changes its engine. -/
theorem exec_streamBind {b : Bool} (hi : exec i s = issueE (encodeNat i) [] tk s fun e s => streamBind e s q b)
    (h : MayIssue (encodeNat i) [] 0 tk s) :
    exec i s = .next (goOn tk s (modStream (issued tk s) s.focusCore q.toNat fun z => { z with bound := b })) :=
  execE_completes hi h rfl

/-- A stride that is a multiple of 4 is one as 64 bits. -/
theorem signExtend_mod_four {v : BitVec 32} (h : v.toNat % 4 = 0) : (v.signExtend 64).toNat % 4 = 0 := by
  rw [BitVec.toNat_signExtend, BitVec.toNat_setWidth]
  have hv := v.isLt
  split <;> omega

/-- An engine whose base and strides are multiples of 4 may start (R158). -/
theorem misaligned_none {x : Stream} (hb : x.base.toNat % 4 = 0) (h0 : x.s0.toNat % 4 = 0) (h1 : x.s1.toNat % 4 = 0)
    (h2 : x.s2.toNat % 4 = 0) : misaligned x = none := by
  simp [misaligned, hb, signExtend_mod_four h0, signExtend_mod_four h1, signExtend_mod_four h2]

/-- The state once an engine has been set going at its first vector. -/
def restarted (s : State) (ci q : Nat) : State :=
  modStream (stopStream s ci q) ci q fun z => { z with pos := 0, eos := false, running := true }

/-- The state once a restarted engine holds the push that it owes at its first vector. -/
def owing (s : State) (ci q : Nat) (p : Push) : State :=
  modCore (restarted s ci q) ci fun c => putFifo c q { fifoOf c q with first := 0, push := p, pushOpen := p.isSome }

/-- `sstart` completes at once on an outbound engine or an empty stream; otherwise its push waits for vector 0 (R157). -/
theorem streamStart_starts {e : Env} (hx : misaligned (streamOf (getCore s e.ci).a q.toNat) = none) (hidle : StreamIdle s e.ci q.toNat) :
    let z := streamOf (getCore (restarted s e.ci q.toNat) e.ci).a q.toNat
    streamStart e s q = if z.out = true ∨ totalOf z = 0 then .done (owing s e.ci q.toNat none) else .later (owing s e.ci q.toNat e.pout) := by
  unfold streamStart
  rw [hx]
  exact stopped_idle hidle

/-- `sstart` of an aligned engine. -/
theorem exec_streamStart (hi : exec i s = issueE (encodeNat i) [] tk s fun e s => streamStart e s q) (h : MayIssue (encodeNat i) [] 0 tk s)
    (hidle : StreamIdle (issued tk s) s.focusCore q.toNat)
    (hx : misaligned (streamOf (getCore (issued tk s) s.focusCore).a q.toNat) = none) :
    let u := issued tk s
    let z := streamOf (getCore (restarted u s.focusCore q.toNat) s.focusCore).a q.toNat
    (z.out = true ∨ totalOf z = 0 → exec i s = .next (goOn tk s (owing u s.focusCore q.toNat none))) ∧
      (z.out = false → totalOf z ≠ 0 →
        exec i s = .next (goLater s (owing u s.focusCore q.toNat (pushPair s.focusCl tk.tkout.toNat)))) :=
  have hs := streamStart_starts (e := issueEnv tk s) hx hidle
  ⟨fun hz => execE_completes hi h (hs.trans (if_pos hz)),
    fun ho ht => execE_later hi h (hs.trans (if_neg (not_or.mpr ⟨Bool.eq_false_iff.mp ho, ht⟩)))⟩

/-- `sstop` stops its engine, or waits. -/
theorem exec_streamStop (hi : exec i s = issueE (encodeNat i) [] tk s fun e s => streamStop e s q) (h : MayIssue (encodeNat i) [] 0 tk s) :
    (StreamIdle (issued tk s) s.focusCore q.toNat → exec i s = .next (goOn tk s (stopStream (issued tk s) s.focusCore q.toNat))) ∧
      (¬ StreamIdle (issued tk s) s.focusCore q.toNat → exec i s = .next (goWait s)) :=
  ⟨fun hidle => execE_completes hi h (stopped_idle hidle), fun hidle => execE_waits hi h (stopped_waits hidle)⟩

/-- The state once a stopped engine has been moved to a position within its stream, RUN as it was. -/
def soughtTo (s : State) (ci q n : Nat) (run : Bool) : State :=
  let p := min n (totalOf (streamOf (getCore s ci).a q))
  modCore s ci fun c =>
    putFifo { c with a := putStream c.a q { streamOf c.a q with pos := BitVec.ofNat 64 p, eos := false, running := run } } q
      { fifoOf c q with first := p }

/-- `sseek` moves its engine once that has stopped. -/
theorem exec_streamSeek (hi : exec i s = issueE (encodeNat i) [] tk s fun e s => streamSeek e s q a) (h : MayIssue (encodeNat i) [] 0 tk s)
    (ha : ((issueEnv tk s).x a).psn = false) (hidle : StreamIdle (issued tk s) s.focusCore q.toNat) :
    let u := issued tk s
    exec i s = .next (goOn tk s (soughtTo (stopStream u s.focusCore q.toNat) s.focusCore q.toNat ((issueEnv tk s).x a).val.toNat
      (streamOf (getCore u s.focusCore).a q.toNat).running)) :=
  execE_completes hi h ((consume_one ha _).trans (stopped_idle hidle))

/-- `spos` reads POS. -/
theorem exec_streamPos (hi : exec i s = issueE (encodeNat i) [a] tk s fun e s => streamPos e s q a) (h : MayIssue (encodeNat i) [a] 0 tk s) :
    exec i s = .next (goOn tk s (setX (issueEnv tk s) (issued tk s) a (streamOf (getCore (issued tk s) s.focusCore).a q.toNat).pos false)) :=
  execE_completes hi h rfl

end Words

/-- Settles O20: the words on L and those on S share their meanings. -/
theorem streamResults : Obligations.StreamResults := by
  unfold Obligations.StreamResults
  intro s q a tk e u c x v stopped idle count stride
  have hcount : BitVec.ofNat 20 (fieldOf v 0 20) = count := by rw [fieldOf, pow_zero, Nat.div_one]
  refine ⟨?configure, ?bind, ?start, ?stop, ?seek, ?pos⟩
  case configure =>
    repeat rw [List.forall_mem_cons]
    exact ⟨exec_configure (exec_sbaseL q a tk s) rfl, exec_configure (exec_sdim0L q a tk s) (by rw [hcount]; rfl),
      exec_configure (exec_sdim1L q a tk s) (by rw [hcount]; rfl), exec_configure (exec_sdim2L q a tk s) (by rw [hcount]; rfl),
      exec_configure (exec_smodeL q a tk s) rfl,
      exec_configure (exec_sbaseS q a tk s) rfl, exec_configure (exec_sdim0S q a tk s) (by rw [hcount]; rfl),
      exec_configure (exec_sdim1S q a tk s) (by rw [hcount]; rfl), exec_configure (exec_sdim2S q a tk s) (by rw [hcount]; rfl),
      exec_configure (exec_smodeS q a tk s) rfl, List.forall_mem_nil _⟩
  case bind =>
    repeat rw [List.forall_mem_cons]
    exact ⟨exec_streamBind (exec_sbindL q tk s), exec_streamBind (exec_sunbindL q tk s), exec_streamBind (exec_sbindS q tk s),
      exec_streamBind (exec_sunbindS q tk s), List.forall_mem_nil _⟩
  case start =>
    repeat rw [List.forall_mem_cons]
    exact ⟨fun h hidle hb h0 h1 h2 => exec_streamStart (exec_sstartL q tk s) h hidle (misaligned_none hb h0 h1 h2),
      fun h hidle hb h0 h1 h2 => exec_streamStart (exec_sstartS q tk s) h hidle (misaligned_none hb h0 h1 h2), List.forall_mem_nil _⟩
  case stop =>
    repeat rw [List.forall_mem_cons]
    exact ⟨exec_streamStop (exec_sstopL q tk s), exec_streamStop (exec_sstopS q tk s), List.forall_mem_nil _⟩
  case seek =>
    repeat rw [List.forall_mem_cons]
    exact ⟨exec_streamSeek (exec_sseekL q a tk s), exec_streamSeek (exec_sseekS q a tk s), List.forall_mem_nil _⟩
  case pos =>
    repeat rw [List.forall_mem_cons]
    exact ⟨exec_streamPos (exec_sposL q a tk s), exec_streamPos (exec_sposS q a tk s), List.forall_mem_nil _⟩

end Sys2Proof.Machine
end

section
/-! O21, O22 and O23. Loads and stores: scalar, vector and indexed. -/

namespace Sys2Proof.Machine

/-! ## Local offsets (R134) -/

/-- No byte of an access below PLAIN fails. -/
theorem localFault_none {a : Arch} {o : Word} {n : Nat} (hn : 0 < n) (h : o.toNat + n ≤ plain a) : localFault a o n = none := by
  have hp : plain a ≤ 2 ^ 23 := Nat.sub_le ..
  rw [localFault, if_neg (by omega), if_pos h]

/-- No lane of a vector below PLAIN fails. -/
theorem laneFault_none {a : Arch} {v : Word} {l : List Nat} (h : ∀ i ∈ l, v.toNat + 4 * i + 4 ≤ plain a) : laneFault a v l = none := by
  rw [laneFault, List.find?_eq_none.mpr fun i hi => by simpa using h i hi]
  rfl

/-- No lane of a list is poisoned. -/
theorem lanePsn_none {v : List Lane} {l : List Nat} (h : ∀ i ∈ l, (nth Lane.zero v i).psn = false) : lanePsn v l = none :=
  List.find?_eq_none.mpr fun i hi => Bool.eq_false_iff.mp (h i hi)

/-- Stores that find their sectors. -/
theorem enterAll_some {e : Env} {s : State} {l : List StorePiece} {b : List CEntry} {k : State → Res}
    (h : enterStores (getCore s e.ci).cbuf l = some b) : enterAll e s l k = k (modCore s e.ci fun c => { c with cbuf := b }) := by
  rw [enterAll, h]

/-! ## Scalar accesses (R144 to R146) -/

section Scalar

variable {e : Env} {s : State} {d a : BitVec 6} {p z : BitVec 1} {sf : BitVec 2}
  (ha : (e.x a).psn = false) (hal : (e.x a).val.toNat % 2 ^ sf.toNat = 0)
include ha hal

/-- A local load ends with the bytes and the mark that the scratchpad holds. -/
theorem loadScalar_local (hlow : (e.x a).val.toNat + 2 ^ sf.toNat ≤ plain e.rd.a) :
    let c := getCore s e.ci
    loadScalar e s .local d a p z sf = finishLoad e s d a p z (2 ^ sf.toNat) (scrBytes c (e.x a).val.toNat (2 ^ sf.toNat))
      (scrMarked c (e.x a).val.toNat (2 ^ sf.toNat)) := by
  refine (consume_one ha _).trans ((if_neg (not_not.mpr hal)).trans ?_)
  rw [localFault_none (Nat.two_pow_pos _) hlow]

/-- A global load that neither faults nor meets a pinned line ends with what it reads. -/
theorem loadScalar_global (hf : globalFault s e.ci .read 1 [(e.x a).val] = none)
    (hp : pinBlocked s e.ci (2 ^ sf.toNat) [(e.x a).val] = false) :
    let r := loadGlobal s e.ci (e.x a).val (2 ^ sf.toNat)
    loadScalar e s .global d a p z sf = finishLoad e r.1 d a p z (2 ^ sf.toNat) r.2.1 r.2.2 := by
  refine (consume_one ha _).trans ((if_neg (not_not.mpr hal)).trans ?_)
  rw [hf]
  exact if_neg (Bool.eq_false_iff.mp hp)

/-- A local store writes the scratchpad. -/
theorem storeScalar_local (hlow : (e.x a).val.toNat + 2 ^ sf.toNat ≤ plain e.rd.a) :
    storeScalar e s .local d a p sf = finishStore e (modCore s e.ci fun c =>
      scrStore c (e.x a).val.toNat (natBytes (2 ^ sf.toNat) (e.x d).val.toNat) (e.x d).psn) a p (2 ^ sf.toNat) := by
  refine (consume_one ha _).trans ((if_neg (not_not.mpr hal)).trans ?_)
  rw [localFault_none (Nat.two_pow_pos _) hlow]

/-- A global store enters its bytes at their physical address. -/
theorem storeScalar_global {pa : Nat} {tg : Target} {b : List CEntry} (hf : globalFault s e.ci .write 2 [(e.x a).val] = none)
    (hd : (e.x d).psn = false) (ht : transTarget s e.ci (e.x a).val .write = .ok (tg, pa))
    (hb : enterStores (getCore s e.ci).cbuf [(pa, (e.x a).val, natBytes (2 ^ sf.toNat) (e.x d).val.toNat)] = some b) :
    storeScalar e s .global d a p sf = finishStore e (modCore s e.ci fun c => { c with cbuf := b }) a p (2 ^ sf.toNat) := by
  refine (consume_one ha _).trans ((if_neg (not_not.mpr hal)).trans ?_)
  rw [hf]
  refine (consume_one hd _).trans (enterAll_some ?_)
  rw [storePiece, ht]
  exact hb

end Scalar

/-- Settles O21: each access ends with its value and its post-increment. -/
theorem scalarAccess : Obligations.ScalarAccess := by
  unfold Obligations.ScalarAccess
  intro s x y p z sf tk e u c v n inc loaded stored b addr
  refine ⟨fun h ⟨ha, hal⟩ hlow => ?ldL, fun h ⟨ha, hal⟩ hf hp => ?ldG, fun h ⟨ha, hal⟩ hlow => ?stL,
    fun pa tg b' h ⟨ha, hal⟩ hf hd ht hb => ?stG⟩
  case ldL => exact execE_completes (exec_ldL x y p z sf tk s) h (loadScalar_local ha hal hlow)
  case ldG => exact execE_completes (exec_ldG x y p z sf tk s) h (loadScalar_global ha hal hf hp)
  case stL => exact execE_completes (exec_stL x y p sf tk s) h (storeScalar_local ha hal hlow)
  case stG => exact execE_completes (exec_stG x y p sf tk s) h (storeScalar_global ha hal hf hd ht hb)

/-! ## Vector accesses (R147) -/

section Vector

variable {e : Env} {s t : State} {d a : BitVec 6} {p : BitVec 1} {m : BitVec 3} {vs : List (List Lane)}
  (ha : (e.x a).psn = false) (hal : (e.x a).val.toNat % 4 = 0)
include ha hal

/-- The lanes that a vector load leaves as they are: those of the register, or zeros for a port. -/
def oldLanes (e : Env) (d : BitVec 6) : List Lane := if (portOf e.rd d.toNat).isSome then zeroVec else readV e.rd d.toNat

/-- A local vector load writes the scratchpad's words to its active lanes. -/
theorem loadVector_local (hl : laneFault e.rd.a (e.x a).val (activeLanes e.rd.a m) = none)
    (hw : laneWrite e s d.toNat (loadLanesL (getCore s e.ci) (oldLanes e d)
      ((activeLanes e.rd.a m).map fun i => (i, (e.x a).val.toNat + 4 * i))) (maskBit e.rd.a m.toNat) = some t) :
    loadVector e s .local d a p m = finishStore e t a p 256 := by
  refine (consume_one ha _).trans ((if_neg (not_not.mpr hal)).trans ?_)
  rw [hl]
  exact storeV_write hw

/-- A global vector load that neither faults nor meets a pinned line writes what it reads. -/
theorem loadVector_global (hf : globalFault s e.ci .read 1 (laneAddrs (e.x a).val (activeLanes e.rd.a m)) = none)
    (hp : pinBlocked s e.ci 4 (laneAddrs (e.x a).val (activeLanes e.rd.a m)) = false)
    (hw : let r := loadLanesG s e.ci (oldLanes e d) ((activeLanes e.rd.a m).map fun i => (i, laneAddr (e.x a).val i))
      laneWrite e r.1 d.toNat r.2 (maskBit e.rd.a m.toNat) = some t) :
    loadVector e s .global d a p m = finishStore e t a p 256 := by
  refine (consume_one ha _).trans ((if_neg (not_not.mpr hal)).trans ?_)
  dsimp only
  rw [hf]
  exact (if_neg (Bool.eq_false_iff.mp hp)).trans (storeV_write hw)

variable (hs : vecSources e s [d.toNat] = some (vs, t))
include hs

/-- A local vector store writes its active lanes to the scratchpad. -/
theorem storeVector_local (hl : laneFault e.rd.a (e.x a).val (activeLanes e.rd.a m) = none) :
    storeVector e s .local d a p m = finishStore e (modCore t e.ci fun c =>
      storeLanesL c (nth [] vs 0) ((activeLanes e.rd.a m).map fun i => (i, (e.x a).val.toNat + 4 * i))) a p 256 := by
  refine (consume_one ha _).trans ((if_neg (not_not.mpr hal)).trans ((withV_sources hs).trans ?_))
  rw [hl]

/-- A global vector store enters its active lanes, none of which is poisoned. -/
theorem storeVector_global {b : List CEntry} (hf : globalFault t e.ci .write 2 (laneAddrs (e.x a).val (activeLanes e.rd.a m)) = none)
    (hc : lanePsn (nth [] vs 0) (activeLanes e.rd.a m) = none)
    (hb : enterStores (getCore t e.ci).cbuf
      (lanePieces t e.ci (nth [] vs 0) ((activeLanes e.rd.a m).map fun i => (i, laneAddr (e.x a).val i))) = some b) :
    storeVector e s .global d a p m = finishStore e (modCore t e.ci fun c => { c with cbuf := b }) a p 256 := by
  refine (consume_one ha _).trans ((if_neg (not_not.mpr hal)).trans ((withV_sources hs).trans ?_))
  rw [hf]
  dsimp only
  rw [hc]
  exact enterAll_some hb

end Vector

/-- Settles O22: each access moves its active lanes. -/
theorem vectorAccess : Obligations.VectorAccess := by
  unfold Obligations.VectorAccess
  intro s t x y p m tk vs b' e u c v on act old fin dsts addr low
  refine ⟨fun h ⟨ha, hal⟩ hlow hw => ?vldL, fun h ⟨ha, hal⟩ hf hp hw => ?vldG, fun h ⟨ha, hal⟩ hlow hs => ?vstL,
    fun h ⟨ha, hal⟩ hs hf hc hb => ?vstG⟩
  case vldL => exact execE_completes (exec_vldL x y p m tk s) h (loadVector_local ha hal (laneFault_none hlow) hw)
  case vldG => exact execE_completes (exec_vldG x y p m tk s) h (loadVector_global ha hal hf hp hw)
  case vstL => exact execE_completes (exec_vstL x y p m tk s) h (storeVector_local ha hal hs (laneFault_none hlow))
  case vstG => exact execE_completes (exec_vstG x y p m tk s) h (storeVector_global ha hal hs hf (lanePsn_none hc) hb)

/-! ## Indexed accesses (R148, R149) -/

section Indexed

variable {e : Env} {s : State} {k : AccessKind} {attr : Nat} {v : Word} {idx : List Lane} {l : List (Nat × Int)}
  (hc : ∀ i ∈ l.map Prod.fst, (nth Lane.zero idx i).psn = false) (hal : ∀ z ∈ l, z.2 % 4 = 0)
include hc hal

/-- The checks of a local indexed access pass. -/
theorem indexTrap_local (hlow : ∀ z ∈ l, v.toNat < 2 ^ 23 ∧ 0 ≤ z.2 ∧ z.2 + 4 ≤ plain e.rd.a) :
    indexTrap e s true k attr v idx l = none := by
  have hm : l.find? (fun z => z.2 % 4 != 0) = none := List.find?_eq_none.mpr fun z hz => by simp [hal z hz]
  have ho : l.find? (fun z => decide (2 ^ 23 ≤ v.toNat) || decide (z.2 < 0) || decide ((plain e.rd.a : Int) < z.2 + 4)) = none :=
    List.find?_eq_none.mpr fun z hz => by simpa [and_assoc] using hlow z hz
  simp only [indexTrap, lanePsn_none hc, hm, ho, if_true, Option.map_none]

/-- The checks of a global indexed access come down to those of its addresses. -/
theorem indexTrap_global (hf : globalFault s e.ci k attr (l.map fun z => BitVec.ofInt 64 z.2) = none) :
    indexTrap e s false k attr v idx l = none := by
  have hm : l.find? (fun z => z.2 % 4 != 0) = none := List.find?_eq_none.mpr fun z hz => by simp [hal z hz]
  simp only [indexTrap, lanePsn_none hc, hm, Bool.false_eq_true, if_false, hf]

end Indexed

/-- The addresses of the active lanes of an indexed access. -/
def indexedLanes (e : Env) (a : BitVec 6) (one : BitVec 1) (m : BitVec 3) (idx : List Lane) : List (Nat × Int) :=
  (activeLanes e.rd.a m).map fun i => (i, indexed (e.x a).val one (nth Lane.zero idx i))

/-- The lanes of an indexed access are the active ones. -/
theorem indexedLanes_fst (e : Env) (a : BitVec 6) (one : BitVec 1) (m : BitVec 3) (idx : List Lane) :
    (indexedLanes e a one m idx).map Prod.fst = activeLanes e.rd.a m := by
  simp [indexedLanes, Function.comp_def]

/-- The lanes of an indexed access, each with its address as a word. -/
def indexedWords (e : Env) (a : BitVec 6) (one : BitVec 1) (m : BitVec 3) (idx : List Lane) : List (Nat × Word) :=
  (indexedLanes e a one m idx).map fun z => (z.1, BitVec.ofInt 64 z.2)

section GatherScatter

variable {e : Env} {s : State} {d a : BitVec 6} {one : BitVec 1} {m : BitVec 3} {idx : List Lane}
  (ha : (e.x a).psn = false)
include ha

section Gather

variable (hp : portOf e.rd d.toNat = none) (hx : readV e.rd d.toNat = idx)
include hp hx

/-- A local gather reads the scratchpad. -/
theorem gatherV_local (ht : indexTrap e s ((1 : BitVec 1) == 1) .read 1 (e.x a).val idx (indexedLanes e a one m idx) = none) :
    gatherV e s d a 1 one m = .done (modCore s e.ci fun c => writeLanes e.rd.a c d.toNat (loadLanesL (getCore s e.ci) idx
      ((indexedLanes e a one m idx).map fun z => (z.1, z.2.toNat))) (maskBit e.rd.a m.toNat)) := by
  subst hx
  unfold gatherV
  rw [hp]
  refine (consume_one ha _).trans ?_
  rw [indexedLanes] at ht
  rw [ht]
  exact if_pos rfl

/-- A global gather that meets no pinned line reads its words. -/
theorem gatherV_global (ht : indexTrap e s ((0 : BitVec 1) == 1) .read 1 (e.x a).val idx (indexedLanes e a one m idx) = none)
    (hb : pinBlocked s e.ci 4 ((indexedWords e a one m idx).map fun z => z.2) = false) :
    let r := loadLanesG s e.ci idx (indexedWords e a one m idx)
    gatherV e s d a 0 one m = .done (modCore r.1 e.ci fun c => writeLanes e.rd.a c d.toNat r.2 (maskBit e.rd.a m.toNat)) := by
  subst hx
  unfold gatherV
  rw [hp]
  refine (consume_one ha _).trans ?_
  rw [indexedLanes] at ht
  rw [ht]
  exact (if_neg (by decide)).trans (if_neg (Bool.eq_false_iff.mp hb))

end Gather

section Scatter

variable (hp : portsOf e.rd [d.toNat, d.toNat + 1] = []) (hx : readV e.rd (d.toNat + 1) = idx)
include hp hx

/-- A local scatter writes the scratchpad. -/
theorem scatterV_local
    (ht : indexTrap e s ((1 : BitVec 1) == 1) .write 2 (e.x a).val idx (indexedLanes e a one m idx) = none) :
    scatterV e s d a 1 one m = .done (modCore s e.ci fun c => storeLanesL c (readV e.rd d.toNat)
      ((indexedLanes e a one m idx).map fun z => (z.1, z.2.toNat))) := by
  subst hx
  unfold scatterV
  rw [hp]
  refine (consume_one ha _).trans ?_
  rw [indexedLanes] at ht
  rw [ht]
  exact if_pos rfl

/-- A global scatter enters its active lanes, none of which is poisoned. -/
theorem scatterV_global {b : List CEntry}
    (ht : indexTrap e s ((0 : BitVec 1) == 1) .write 2 (e.x a).val idx (indexedLanes e a one m idx) = none)
    (hc : lanePsn (readV e.rd d.toNat) (activeLanes e.rd.a m) = none)
    (hb : enterStores (getCore s e.ci).cbuf (lanePieces s e.ci (readV e.rd d.toNat) (indexedWords e a one m idx)) = some b) :
    scatterV e s d a 0 one m = .done (modCore s e.ci fun c => { c with cbuf := b }) := by
  subst hx
  unfold scatterV
  rw [hp]
  refine (consume_one ha _).trans ?_
  rw [indexedLanes] at ht
  rw [ht]
  refine (if_neg (by decide)).trans ?_
  rw [hc]
  exact enterAll_some hb

end Scatter

end GatherScatter

/-- Settles O23: each access passes its checks and moves its active lanes. -/
theorem indexedAccess : Obligations.IndexedAccess := by
  unfold Obligations.IndexedAccess
  intro s x y one m tk b' e u v on act at_ words sound low idx jdx data
  have hlanes (l : List Lane) : at_ l = indexedLanes e y one m l := rfl
  have hclean {l : List Lane} (h : ∀ i ∈ act, (nth Lane.zero l i).psn = false) :
      ∀ i ∈ (indexedLanes e y one m l).map Prod.fst, (nth Lane.zero l i).psn = false := by
    rwa [indexedLanes_fst]
  have hwords (l : List Lane) : ((words l).map fun z => z.2) = (indexedLanes e y one m l).map fun z => BitVec.ofInt 64 z.2 := by
    simp only [words, hlanes, List.map_map, Function.comp_def]
  refine ⟨fun h hp ⟨ha, hc, hal⟩ hlow => ?gathL, fun h hp ⟨ha, hc, hal⟩ hf hb => ?gathG, fun h hp ⟨ha, hc, hal⟩ hlow => ?scatL,
    fun h hp ⟨ha, hc, hal⟩ hf hd hb => ?scatG⟩
  case gathL => exact execE_completes (exec_gath x y 1 one m tk s) h (gatherV_local ha hp rfl (indexTrap_local (hclean hc) hal hlow))
  case gathG =>
    exact execE_completes (exec_gath x y 0 one m tk s) h (gatherV_global ha hp rfl (indexTrap_global (hclean hc) hal (hwords idx ▸ hf)) hb)
  case scatL => exact execE_completes (exec_scat x y 1 one m tk s) h (scatterV_local ha hp rfl (indexTrap_local (hclean hc) hal hlow))
  case scatG =>
    exact execE_completes (exec_scat x y 0 one m tk s) h
      (scatterV_global ha hp rfl (indexTrap_global (hclean hc) hal (hwords jdx ▸ hf)) (lanePsn_none hd) hb)

end Sys2Proof.Machine
end

section
/-! O24. Fences, marks, prefetch and stash control. -/

namespace Sys2Proof.Machine

/-! ## Fences (R154, R173) -/

/-- The core once the queued invalidations that a test names have been applied: their lines have left the L1 (R177). -/
theorem applyInvals_eq (c : Core) (p : Inval → Bool) : applyInvals c p =
    { c with invq := c.invq.filter fun i => !p i, l1 := c.l1.filter fun l => !c.invq.any fun i => p i && i.line == l.line } := by
  have hfold (l : List Inval) : ∀ c : Core, l.foldl applyInval c = { c with l1 := c.l1.filter fun y => !l.any fun i => i.line == y.line } := by
    induction l with
    | nil => intro c; simp
    | cons i r ih =>
      intro c
      rw [List.foldl_cons, ih, applyInval]
      simp only [List.filter_filter, List.any_cons, Bool.not_or, Bool.and_comm, bne, Bool.beq_comm]
  rw [applyInvals, hfold]
  simp only [List.any_filter]

/-- The core past a fence above CORE, which applies the invalidations that `p` names. -/
def fenced (p : Inval → Bool) (c : Core) : Core :=
  { c with a := { c.a with pins := [] }, invq := c.invq.filter fun i => !p i,
           l1 := c.l1.filter fun l => !c.invq.any fun i => p i && i.line == l.line }

/-- A fence above CORE whose core has no write of its own on its way to a peer, or that does not wait for one. -/
theorem fenceWord_done {e : Env} {s : State} {scope : Nat} (h0 : scope ≠ 0) (hp : scope = 3 → peerWritesDone (getCore s e.ci) = true) :
    fenceWord e s scope = .done (modCore s e.ci (fenced fun i => scope != 1 || i.die == dieOf e.ci)) := by
  have h3 : ¬ (scope = 3 ∧ (!peerWritesDone (getCore s e.ci)) = true) := fun ⟨h, hn⟩ => by simp [hp h] at hn
  rw [fenceWord, if_neg h3, if_neg h0]
  simp only [applyInvals_eq]
  rfl

/-! ## Marks (R143) -/

section Marks

variable {s : State} {w : Nat} {tk : Tk}

section Partner

variable {e : Env} (hm : e.rd.a.mode = .split)
include hm

/-- A `mark` whose partner is at its own counts both, and the two go on. -/
theorem markWord_met {pop push : Push} (h : vget (getCore s e.ci).a.clst .run (cnum (markPartner e.cl)) = .atMark pop push) :
    markWord e s = .done (modCore s e.ci fun c => passMark
      { c with a := { c.a with markL := c.a.markL + 1, markS := c.a.markS + 1, clst := vset c.a.clst (cnum e.cl) .run } }
      (markPartner e.cl) pop push) := by
  unfold markWord
  rw [hm]
  dsimp only
  rw [h]

/-- A `mark` whose partner is not at its own waits. -/
theorem markWord_held (h : ∀ pop push, vget (getCore s e.ci).a.clst .run (cnum (markPartner e.cl)) ≠ .atMark pop push) :
    markWord e s = .stall := by
  unfold markWord
  rw [hm]
  dsimp only
  split
  · next pop push hst => exact absurd hst (h pop push)
  · rfl

end Partner

/-- In joint mode a `mark` holds no cluster. -/
theorem reachMark_joint (hm : (envOf s).rd.a.mode = .joint) : reachMark s w tk = s :=
  if_neg fun ⟨h, _⟩ => by rw [hm] at h; cases h

/-- The state in which the focused cluster waits at its `mark` with its tokens at hand. -/
def atMark (s : State) (cl : Cluster) (tk : Tk) : State :=
  modArch s s.focusCore fun a =>
    { a with clst := vset a.clst (cnum cl) (.atMark (popPair s.focusCl tk.tkin.toNat) (pushPair s.focusCl tk.tkout.toNat)) }

/-- In split mode a cluster that may issue its `mark` has reached it. -/
theorem reachMark_split (hm : (envOf s).rd.a.mode = .split) (h : MayIssue w [] 0 tk s) : reachMark s w tk = atMark s s.focusCl tk :=
  if_pos ⟨hm, h.1, h.2.1, h.2.2.1⟩

/-- A word that issues with its cluster at its `mark` reads the core as before, but for what the clusters wait for. -/
theorem envOf_atMark (s : State) (cl : Cluster) (tk : Tk) :
    ∃ v, envOf (atMark s cl tk) = { envOf s with rd := { (envOf s).rd with a := { (envOf s).rd.a with clst := v } } } := by
  cases hb : s.bundle with
  | some b =>
    refine ⟨b.pre.a.clst, ?_⟩
    simp only [envOf, atMark, modArch_bundle, modArch_focusCore, modArch_focusCl, hb]
  | none =>
    by_cases hci : s.focusCore < 72
    · refine ⟨(getCore (atMark s cl tk) s.focusCore).a.clst, ?_⟩
      simp only [envOf, atMark, modArch_bundle, modArch_focusCore, modArch_focusCl, hb, getCore_modArch_self _ _ hci]
      rfl
    · have hs : atMark s cl tk = s := putCore_none _ _ (Nat.not_lt.mp hci)
      exact ⟨(envOf s).rd.a.clst, by rw [hs]⟩

/-- A `mark` that may issue may issue again at its mark. -/
theorem mayIssue_atMark (cl : Cluster) (h : MayIssue w [] 0 tk s) : MayIssue w [] 0 tk (atMark s cl tk) := by
  obtain ⟨v, hv⟩ := envOf_atMark s cl tk
  unfold MayIssue
  rw [hv]
  exact h

variable {i : Instr} (hi : exec i s = issueE (encodeNat i) [] tk (reachMark s (encodeNat i) tk) fun e s => markWord e s)
  (h : MayIssue (encodeNat i) [] 0 tk s)
include hi h

/-- In joint mode the pair of a bundle counts once. -/
theorem exec_mark_joint (hm : (issueEnv tk s).rd.a.mode = .joint) :
    let u := issued tk s
    exec i s = .next (goOn tk s (if (getCore u s.focusCore).a.markL = (issueEnv tk s).rd.a.markL
      then modArch u s.focusCore fun a => { a with markL := a.markL + 1, markS := a.markS + 1 } else u)) := by
  rw [reachMark_joint hm] at hi
  refine execE_completes hi h ?_
  unfold markWord
  rw [hm]
  dsimp only [issueEnv_ci]
  split <;> rfl

/-- In split mode a `mark` is held until its partner is at its own; then both are counted and go on. -/
theorem exec_mark_split {cl cl' : Cluster} (hm : (issueEnv tk s).rd.a.mode = .split) (hcl : s.focusCl = cl) (hp : markPartner cl = cl') :
    let s1 := atMark s cl tk
    let st := vget (getCore (issued tk s1) s.focusCore).a.clst .run (cnum cl')
    (∀ pop push, st = .atMark pop push → exec i s = .next (goOn tk s1 (modCore (issued tk s1) s.focusCore fun c =>
      passMark { c with a := { c.a with markL := c.a.markL + 1, markS := c.a.markS + 1, clst := vset c.a.clst (cnum cl) .run } } cl' pop push))) ∧
    ((∀ pop push, st ≠ .atMark pop push) → exec i s = .next (goWait s1)) := by
  subst hcl hp
  rw [reachMark_split hm h] at hi
  have hm1 : (issueEnv tk (atMark s s.focusCl tk)).rd.a.mode = .split := by
    obtain ⟨v, hv⟩ := envOf_atMark s s.focusCl tk
    rw [issueEnv_rd, hv]
    exact hm
  exact ⟨fun pop push hst => hi.trans (issue_done (mayIssue_atMark _ h) (markWord_met hm1 hst)),
    fun hst => hi.trans (issue_stall (mayIssue_atMark _ h) (markWord_held hm1 hst))⟩

end Marks

/-! ## Prefetch and stash control (R151, R152) -/

section Prefetch

variable {s : State} {y : BitVec 6} {tk : Tk} (h : MayIssue (encodeNat (.prefG y tk)) [] 0 tk s)
include h

/-- A prefetch of a poisoned address does nothing. -/
theorem exec_prefG_poisoned (hy : ((issueEnv tk s).x y).psn = true) : exec (.prefG y tk) s = .next (goOn tk s (issued tk s)) :=
  execE_completes (exec_prefG y tk s) h (if_pos hy)

variable (hy : ((issueEnv tk s).x y).psn = false)
include hy

/-- A prefetch of an address that is no device memory does nothing. -/
theorem exec_prefG_elsewhere (hd : ∀ pa k, transTarget (issued tk s) s.focusCore ((issueEnv tk s).x y).val .read ≠ .ok (.dev pa, k))
    (hr : ∀ t, transTarget (issued tk s) s.focusCore ((issueEnv tk s).x y).val .read = .error t → isRetry t = false) :
    exec (.prefG y tk) s = .next (goOn tk s (issued tk s)) := by
  refine execE_completes (exec_prefG y tk s) h ((if_neg (Bool.eq_false_iff.mp hy)).trans ?_)
  rcases ht : transTarget (issued tk s) s.focusCore ((issueEnv tk s).x y).val .read with t | ⟨tg, k⟩
  · simp only [issueEnv_ci, ht, hr t ht, Bool.false_eq_true, if_false]
  · cases tg with
    | dev pa => exact absurd ht (hd pa k)
    | host w o => simp only [issueEnv_ci, ht]
    | peer w o => simp only [issueEnv_ci, ht]

/-- A prefetch whose walk meets a pinned line is made again. -/
theorem exec_prefG_retry {t : Trap} (ht : transTarget (issued tk s) s.focusCore ((issueEnv tk s).x y).val .read = .error t)
    (hr : isRetry t = true) : exec (.prefG y tk) s = .next (goRetry s) := by
  refine execE_retries (exec_prefG y tk s) h ((if_neg (Bool.eq_false_iff.mp hy)).trans ?_)
  simp only [issueEnv_ci, ht, hr, if_true]

/-- A prefetch of device memory brings the line in, unless another core pins it. -/
theorem exec_prefG_device {pa k : Nat} (ht : transTarget (issued tk s) s.focusCore ((issueEnv tk s).x y).val .read = .ok (.dev pa, k)) :
    exec (.prefG y tk) s = .next (if pinnedByOther (issued tk s) s.focusCore pa then goRetry s
      else goOn tk s (prefetch (issued tk s) s.focusCore ((issueEnv tk s).x y).val pa)) := by
  cases hp : pinnedByOther (issued tk s) s.focusCore pa
  · refine execE_completes (exec_prefG y tk s) h ((if_neg (Bool.eq_false_iff.mp hy)).trans ?_)
    simp only [issueEnv_ci, ht, hp, Bool.false_eq_true, if_false]
  · refine execE_retries (exec_prefG y tk s) h ((if_neg (Bool.eq_false_iff.mp hy)).trans ?_)
    simp only [issueEnv_ci, ht, hp, if_true]

end Prefetch

/-- A window of whole lines that overlaps no other, with its pages in device memory, is mapped (R152). -/
theorem exec_smap_maps {s : State} {x y : BitVec 6} {tk : Tk} (h : MayIssue (encodeNat (.smap x y tk)) [] 0 tk s)
    (hb : ((issueEnv tk s).x y).psn = false) (hn : ((issueEnv tk s).xk y 1).psn = false)
    (hr : windowRetry (issued tk s) s.focusCore ((issueEnv tk s).x y).val ((issueEnv tk s).xk y 1).val = false)
    (hb128 : ((issueEnv tk s).x y).val.toNat % 128 = 0) (hn128 : ((issueEnv tk s).xk y 1).val.toNat % 128 = 0)
    (hn0 : ((issueEnv tk s).xk y 1).val ≠ 0)
    (ho : overlaps (issueEnv tk s).rd.a x.toNat ((issueEnv tk s).x y).val ((issueEnv tk s).xk y 1).val = false)
    (hout : inOutside (issued tk s) s.focusCore ((issueEnv tk s).x y).val ((issueEnv tk s).xk y 1).val = false) :
    let e := issueEnv tk s
    exec (.smap x y tk) s = .next (goOn tk s (modArch (unmapWindow (issued tk s) s.focusCore x.toNat) s.focusCore fun a =>
      { a with windows := vset a.windows x.toNat (some ((e.x y).val, (e.xk y 1).val)) })) := by
  refine execE_completes (exec_smap x y tk s) h ?_
  have hc : poisonTrapN (issueEnv tk s) [(y.toNat, 0), (y.toNat + 1, 4)] = none :=
    (if_neg (Bool.eq_false_iff.mp hb)).trans (if_neg (Bool.eq_false_iff.mp hn))
  dsimp only
  rw [consumeN, hc]
  refine (if_neg (Bool.eq_false_iff.mp hr)).trans (if_neg ?_)
  rintro (hbad | hbad | hbad | hbad | hbad)
  · exact hbad hb128
  · exact hbad hn128
  · exact hn0 hbad
  · exact Bool.eq_false_iff.mp ho hbad
  · exact Bool.eq_false_iff.mp hout hbad

/-- Settles O24: each word ends as its meaning says; a `mark` in split mode issues in the state in which it has been reached. -/
theorem fencesAndStash : Obligations.FencesAndStash := by
  unfold Obligations.FencesAndStash
  intro s x y g tk e u v fence now
  refine ⟨fun h => ?core, fun h => ?die, fun h => ?pkg, fun h hp => ?sys, fun h hp => ?sysWaits, ?joint, ?split,
    fun h => ⟨fun hd => ?nothing, fun t hy => exec_prefG_retry h hy, fun pa k hy => exec_prefG_device h hy⟩, fun h hy hn => ?ssize,
    fun h hb hn hb128 hn128 hn0 ho hr hout => ?smap, fun h => ?sunmap, fun h => ?sflush, fun h => ?sinval⟩
  case core => exact exec_completes (exec_fenceCore g s) h rfl
  case die => exact exec_completes (exec_fenceDie g s) h (fenceWord_done (by decide) nofun)
  case pkg => exact exec_completes (exec_fencePkg g s) h (fenceWord_done (by decide) nofun)
  case sys => exact exec_completes (exec_fenceSys g s) h (fenceWord_done (by decide) fun _ => hp)
  case sysWaits => exact exec_waits (exec_fenceSys g s) h (if_pos ⟨rfl, by simp [hp]⟩)
  case joint =>
    repeat rw [List.forall_mem_cons]
    exact ⟨exec_mark_joint (exec_markL tk s), exec_mark_joint (exec_markS tk s), List.forall_mem_nil _⟩
  case split =>
    repeat rw [List.forall_mem_cons]
    exact ⟨fun h hm hcl => exec_mark_split (exec_markL tk s) h hm hcl rfl,
      fun h hm hcl => exec_mark_split (exec_markS tk s) h hm hcl rfl, List.forall_mem_nil _⟩
  case nothing =>
    rcases hd with hy | ⟨hd, hr⟩
    · exact exec_prefG_poisoned h hy
    · cases hy : (e.x y).psn
      · exact exec_prefG_elsewhere h hy hd hr
      · exact exec_prefG_poisoned h hy
  case ssize => exact execE_completes (exec_ssize y tk s) h ((consume_one hy _).trans (if_neg (Nat.not_lt.mpr hn)))
  case smap => exact exec_smap_maps h hb hn hr hb128 hn128 hn0 ho hout
  case sunmap => exact execE_completes (exec_sunmap x tk s) h rfl
  case sflush => exact execE_completes (exec_sflush x tk s) h rfl
  case sinval => exact execE_completes (exec_sinval x tk s) h rfl

end Sys2Proof.Machine
end

section
/-! O41. Steps of the stream engines, page walks and invalidations. -/

namespace Sys2Proof.Machine

/-- The step of an agent that exists. -/
theorem agentStep {n : Nat} (h : n < 72) (t : State) :
    (if 72 ≤ n then Host.Outcome.fault Fault.noSuchAgent else .next t : Host.Outcome State Fault Refusal) = .next t :=
  if_neg (Nat.not_le.mpr h)

/-- A step of an engine that exists. -/
theorem engineStep {n q : Nat} (h : n < 72) (hq : q < 8) (t : State) :
    (if 72 ≤ n ∨ 8 ≤ q then Host.Outcome.fault Fault.noSuchAgent else .next t : Host.Outcome State Fault Refusal) = .next t :=
  if_neg (not_or.mpr ⟨Nat.not_le.mpr h, Nat.not_le.mpr hq⟩)

/-! ## Fetches (R158, R162, R163) -/

/-- The position after the vectors that an engine's FIFO holds. -/
def nextPos (c : Core) (q : Nat) : Nat := (fifoOf c q).first + (fifoOf c q).vecs.length

/-- Whether an inbound engine fetches its next vector. -/
def Fetches (c : Core) (q : Nat) : Prop :=
  enginesRun c = true ∧ atUnitEnd c = false ∧ (streamOf c.a q).running = true ∧ (streamOf c.a q).out = false ∧
    (fifoOf c q).vecs.length < 8 ∧ (fifoOf c q).fault = none ∧ nextPos c q < totalOf (streamOf c.a q)

/-- The position that it fetches. -/
theorem fetchPos_some {c : Core} {q : Nat} (h : Fetches c q) : (if enginesRun c then fetchPos c q else none) = some (nextPos c q) := by
  obtain ⟨hrun, hend, hr, ho, hv, hf, ht⟩ := h
  rw [if_pos hrun]
  exact if_pos ⟨hr, by simp [hend], by simp [ho], hv, by simp [hf], ht⟩

section Fetch

variable {s : State} {ci q l : Nat} {t : Trap} {w : Word} (h : Fetches (getCore s ci) q)
include h

section Local

variable (hl : (streamOf (getCore s ci).a q).loc = true)
include hl

/-- A vector of the scratchpad lands in the FIFO. -/
theorem streamFetch_local (hv : localVecFault (getCore s ci).a (streamOf (getCore s ci).a q) (nextPos (getCore s ci) q) = none) :
    let p := nextPos (getCore s ci) q
    let a := BitVec.ofInt 64 (streamAddr (streamOf (getCore s ci).a q) p)
    streamFetch s ci q = modCore s ci fun c => landVec c q p ((List.range 64).map fun i => scrWord c (a.toNat / 4 + i)) := by
  simp only [streamFetch, fetchPos_some h, hl, hv, if_true]

/-- A vector that reaches outside the plain part stops the engine. -/
theorem streamFetch_localFault
    (hv : localVecFault (getCore s ci).a (streamOf (getCore s ci).a q) (nextPos (getCore s ci) q) = some (w, l)) :
    streamFetch s ci q = failFetch s ci q (streamTrap q 0x10 w (nextPos (getCore s ci) q) l) := by
  simp only [streamFetch, fetchPos_some h, hl, hv, if_true]

end Local

/-- The address of the next vector of a stream. -/
def nextAddr (c : Core) (q : Nat) : Word := BitVec.ofInt 64 (streamAddr (streamOf c.a q) (nextPos c q))

variable (hl : (streamOf (getCore s ci).a q).loc = false)
include hl

/-- A vector of global memory is read line by line, and lands. -/
theorem streamFetch_global (hv : globalVecFault s ci (nextAddr (getCore s ci) q) .read 1 = none)
    (hp : pinBlocked s ci 0 ((lineParts (nextAddr (getCore s ci) q) 256).map fun y => y.1) = false) :
    let r := readParts s ci (lineParts (nextAddr (getCore s ci) q) 256)
    streamFetch s ci q = modCore r.1 ci fun c => landVec c q (nextPos (getCore s ci) q) r.2 := by
  rw [nextAddr] at hv hp
  simp only [streamFetch, fetchPos_some h, hl, hv, hp, Bool.false_eq_true, if_false]
  rfl

/-- A vector that faults stops the engine. -/
theorem streamFetch_globalFault (hv : globalVecFault s ci (nextAddr (getCore s ci) q) .read 1 = some (t, l)) (hr : isRetry t = false) :
    streamFetch s ci q = failFetch s ci q (streamTrap q t.cause t.tval (nextPos (getCore s ci) q) l) := by
  rw [nextAddr] at hv
  simp only [streamFetch, fetchPos_some h, hl, hv, hr, Bool.false_eq_true, if_false]

/-- A fetch that meets a pinned line, in its walk or at its vector, ends the core's pins and is made again. -/
theorem streamFetch_pinned (hv : (∃ t l, globalVecFault s ci (nextAddr (getCore s ci) q) .read 1 = some (t, l) ∧ isRetry t = true) ∨
      (globalVecFault s ci (nextAddr (getCore s ci) q) .read 1 = none ∧
        pinBlocked s ci 0 ((lineParts (nextAddr (getCore s ci) q) 256).map fun y => y.1) = true)) :
    streamFetch s ci q = unpin s ci := by
  rw [nextAddr] at hv
  rcases hv with ⟨t, l, hv, hr⟩ | ⟨hv, hp⟩
  · simp only [streamFetch, fetchPos_some h, hl, hv, hr, Bool.false_eq_true, if_false, if_true]
  · simp only [streamFetch, fetchPos_some h, hl, hv, hp, Bool.false_eq_true, if_false, if_true]

end Fetch

/-! ## Writes, walks and invalidations (R160, R170, R177) -/

/-- The oldest vector of an outbound FIFO is written. -/
theorem streamWrite_oldest {s : State} {ci q : Nat} {v : List Lane} {r : List (List Lane)} (hv : (fifoOf (getCore s ci) q).vecs = v :: r)
    (hrun : enginesRun (getCore s ci) = true) (ho : (streamOf (getCore s ci).a q).out = true) :
    let x := streamOf (getCore s ci).a q
    let f := fifoOf (getCore s ci) q
    streamWrite s ci q = modCore s ci fun c =>
      putFifo (if x.loc then storeLanesL c v ((List.range 64).map fun i => (i, (BitVec.ofInt 64 (streamAddr x f.first)).toNat + 4 * i)) else c)
        q { f with vecs := r, first := f.first + 1 } := by
  simp only [streamWrite, hv, hrun, ho, Bool.not_true, Bool.or_self, Bool.false_eq_true, if_false]

/-- The entry that a walk's leaf gives the TLBs of a core. -/
def leafEntry (c : Core) (va leaf : Word) (sz : Nat) : TlbEntry :=
  { part := partOf c, asn := asnOf c, vbase := va.toNat / 2 ^ sz * 2 ^ sz, size := sz, leaf := leaf }

/-- A walk that reaches a leaf fills both TLBs and the walk cache of its die. -/
theorem walkFill_leaf {s : State} {ci sz : Nat} {va leaf : Word} {k : AccessKind} {ts : List (Nat × Nat)}
    (hu : (getCore s ci).unit.isSome = true)
    (ht : tlbFind (getCore s ci) (partOf (getCore s ci)) (asnOf (getCore s ci)) va = none)
    (hw : walkTable s (some ci) (dieOf ci) (partOf (getCore s ci)) (asnOf (getCore s ci)) va k = .ok (leaf, sz, ts)) :
    let t := leafEntry (getCore s ci) va leaf sz
    walkFill s ci va k = modDie (modCore (readWalk s ci va) ci fun c => { c with tlb1 := tlbFill c.tlb1 t 96, tlb2 := tlb2Fill c.tlb2 t })
      (dieOf ci) fun d => cacheTables d (partOf (getCore s ci)) (asnOf (getCore s ci)) va ts := by
  have hn : ¬ ((getCore s ci).unit.isNone = true ∨ (tlbFind (getCore s ci) (partOf (getCore s ci)) (asnOf (getCore s ci)) va).isSome = true) := by
    rw [ht, ← Option.not_isSome, hu]
    decide
  refine (if_neg hn).trans ?_
  rw [hw]
  rfl

/-- The invalidation queued first is applied: the core's copy of its line goes. -/
theorem exec_invalidationApply_first {s : State} {ci : Nat} {i : Inval} {r : List Inval} (hci : ci < 72) (hi : (getCore s ci).invq = i :: r) :
    exec (.invalidationApply ci) s =
      .next (putCore s ci { getCore s ci with invq := r, l1 := (getCore s ci).l1.filter fun y => y.line != i.line }) := by
  refine (agentStep hci _).trans (congrArg _ ?_)
  rw [modCore, hi]
  rfl

/-- Settles O41: each step is one of its cases. -/
theorem streamAndWalkEvents : Obligations.StreamAndWalkEvents := by
  unfold Obligations.StreamAndWalkEvents
  intro s ci q va k hci hq c x f p a landed failed fetches
  have hfetch := engineStep hci hq (streamFetch s ci q)
  refine ⟨fun h hl => ⟨fun hv => ?landsL, fun w l hv => ?failsL⟩,
    fun h hl => ⟨fun hv hp => ?landsG, fun t l hv hr => ?failsG, fun hv => ?pinned⟩, fun v r hv hrun ho => ?write,
    fun leaf sz ts hu ht hw => ?walk, fun i r => exec_invalidationApply_first hci⟩
  case landsL => exact hfetch.trans (congrArg _ (streamFetch_local h hl hv))
  case failsL => exact hfetch.trans (congrArg _ (streamFetch_localFault h hl hv))
  case landsG => exact hfetch.trans (congrArg _ (streamFetch_global h hl hv hp))
  case failsG => exact hfetch.trans (congrArg _ (streamFetch_globalFault h hl hv hr))
  case pinned => exact hfetch.trans (congrArg _ (streamFetch_pinned h hl hv))
  case write => exact (engineStep hci hq _).trans (congrArg _ (streamWrite_oldest hv hrun ho))
  case walk => exact (agentStep hci _).trans (congrArg _ (walkFill_leaf hu ht hw))

end Sys2Proof.Machine
end

section
/-! O44. Steps of copies, and the freeze of a core with its two answers. -/

namespace Sys2Proof.Machine

/-! ## Whole words and runs of a copy's bytes (R136, R175) -/

section Words

variable (x : Copy) (f : Nat → Nat)

/-- Whether a byte of a copy lies in one aligned 8-byte word with the byte before it, at the places that `f` gives. -/
def JoinsWord (j : Nat) : Prop := 0 < j ∧ j < x.rows * x.rowBytes ∧ f j = f (j - 1) + 1 ∧ f j % 8 ≠ 0

/-- The search for the start of a word passes over bytes that join the one before, and ends at one that does not, or after `k` of them. -/
theorem wordStart_passes (k e : Nat) : e ≤ wordStart x f k e ∧ (∀ j, e ≤ j → j < wordStart x f k e → JoinsWord x f j) ∧
    (JoinsWord x f (wordStart x f k e) → wordStart x f k e = e + k) := by
  induction k generalizing e with
  | zero => exact ⟨Nat.le_refl _, fun j h1 h2 => absurd h2 (Nat.not_lt.mpr h1), fun _ => rfl⟩
  | succ k ih =>
    unfold wordStart
    split
    · next he =>
      obtain ⟨hle, hjoin, hend⟩ := ih (e + 1)
      refine ⟨by omega, fun j h1 h2 => ?_, fun h => by have := hend h; omega⟩
      rcases Nat.eq_or_lt_of_le h1 with rfl | h1
      · exact he
      · exact hjoin j h1 h2
    · next he => exact ⟨Nat.le_refl _, fun j h1 h2 => absurd h2 (Nat.not_lt.mpr h1), fun h => absurd h he⟩

/-- Eight bytes that follow one another do not all lie in the word of the byte before them. -/
theorem not_joinsWord_eight {e : Nat} (h : ∀ j, e ≤ j → j < e + 8 → JoinsWord x f j) : False := by
  have hrun (i : Nat) (hi : i < 8) : f (e + i) = f e + i := by
    induction i with
    | zero => rfl
    | succ i ih =>
      obtain ⟨-, -, hnext, -⟩ := h (e + (i + 1)) (by omega) (by omega)
      rw [hnext, show e + (i + 1) - 1 = e + i by omega, ih (by omega)]
      rfl
  obtain ⟨-, -, -, h0⟩ := h e (by omega) (by omega)
  obtain ⟨-, -, -, hlast⟩ := h (e + (8 - f e % 8)) (by omega) (by omega)
  rw [hrun _ (by omega)] at hlast
  omega

/-- The byte found starts a word. -/
theorem not_joinsWord_wordStart (e : Nat) : ¬ JoinsWord x f (wordStart x f 8 e) := by
  obtain ⟨-, hjoin, hend⟩ := wordStart_passes x f 8 e
  intro h
  rw [hend h] at hjoin
  exact not_joinsWord_eight x f hjoin

end Words

/-- The places of a list of runs, in order. -/
def placesOf (l : List (Nat × Nat)) : List Nat := l.flatMap fun y => (List.range y.2).map (y.1 + ·)

/-- A list of runs with one place more in front. -/
def joinRun (a : Nat) : List (Nat × Nat) → List (Nat × Nat)
  | (b, n) :: t => if b = a + 1 ∧ b % 128 ≠ 0 then (a, n + 1) :: t else (a, 1) :: (b, n) :: t
  | [] => [(a, 1)]

/-- The runs are built from the last byte on. -/
theorem byteRuns_eq (f : Nat → Nat) (lo hi : Nat) : byteRuns f lo hi = ((List.range (hi - lo)).map fun k => f (lo + k)).foldr joinRun [] := by
  unfold byteRuns
  congr 1
  funext a r
  cases r <;> rfl

/-- The place in front comes first. -/
theorem placesOf_joinRun (a : Nat) (r : List (Nat × Nat)) : placesOf (joinRun a r) = a :: placesOf r := by
  cases r with
  | nil => rfl
  | cons y t =>
    obtain ⟨b, n⟩ := y
    simp only [joinRun]
    split
    · next h =>
      obtain ⟨rfl, -⟩ := h
      simp [placesOf, List.range_succ_eq_map, Function.comp_def, Nat.add_comm, Nat.add_left_comm]
    · simp [placesOf]

/-- A run lies in one line of 128 bytes. -/
def InLine (y : Nat × Nat) : Prop := 0 < y.2 ∧ y.1 % 128 + y.2 ≤ 128

/-- Runs that lie in one line each do so with one place more. -/
theorem inLine_joinRun (a : Nat) {r : List (Nat × Nat)} (h : ∀ y ∈ r, InLine y) : ∀ y ∈ joinRun a r, InLine y := by
  have hone : InLine (a, 1) := ⟨Nat.one_pos, Nat.mod_lt a (by decide)⟩
  cases r with
  | nil => exact List.forall_mem_singleton.mpr hone
  | cons y t =>
    obtain ⟨b, n⟩ := y
    simp only [joinRun]
    split
    · next hb =>
      obtain ⟨rfl, hb⟩ := hb
      obtain ⟨⟨hn, hl⟩, ht⟩ := List.forall_mem_cons.mp h
      refine List.forall_mem_cons.mpr ⟨⟨Nat.succ_pos n, ?_⟩, ht⟩
      dsimp only at hl ⊢
      omega
    · exact List.forall_mem_cons.mpr ⟨hone, h⟩

/-- The runs of a copy's bytes hold their places in order, each in one line. -/
theorem byteRuns_places (f : Nat → Nat) (lo hi : Nat) :
    placesOf (byteRuns f lo hi) = (List.range (hi - lo)).map (fun k => f (lo + k)) ∧ ∀ y ∈ byteRuns f lo hi, InLine y := by
  rw [byteRuns_eq]
  induction (List.range (hi - lo)).map fun k => f (lo + k) with
  | nil => exact ⟨rfl, List.forall_mem_nil _⟩
  | cons a l ih => exact ⟨(placesOf_joinRun a _).trans (congrArg _ ih.1), inLine_joinRun a ih.2⟩

/-! ## The checks of a piece (R182, R236) -/

section Checks

variable (s : State) (ci : Nat) (k : AccessKind) (attr : Nat)

/-- Every run of a list may be accessed. -/
def RunsAllowed (l : List (Word × Nat)) : Prop := ∀ y ∈ l, ∃ w, transAccess s ci y.1 k attr = .ok w

/-- A run of a list is answered with `t`, and those before it may be accessed. -/
def RunsMeet (l : List (Word × Nat)) (t : Trap) : Prop :=
  ∃ a y r, l = a ++ y :: r ∧ transAccess s ci y.1 k attr = .error t ∧ RunsAllowed s ci k attr a

/-- Whether a run meets a line that another core has pinned. -/
def runPinned (y : Word × Nat) : Bool :=
  match transAccess s ci y.1 k attr with
  | .ok w => pinnedByOther s ci w.2
  | .error _ => false

/-- A list of runs meets a pinned line: in a walk, or all its runs may be accessed and one of them lies there. -/
def RunsPinned (l : List (Word × Nat)) : Prop :=
  (∃ t, RunsMeet s ci k attr l t ∧ isRetry t = true) ∨
    (RunsAllowed s ci k attr l ∧ ∃ y ∈ l, ∃ tg pa, transAccess s ci y.1 k attr = .ok (tg, pa) ∧ pinnedByOther s ci pa = true)

variable {s ci k attr} {l : List (Word × Nat)} {t : Trap}

/-- A run meets a pinned line where its access is allowed and its line is pinned. -/
theorem runPinned_iff {y : Word × Nat} :
    runPinned s ci k attr y = true ↔ ∃ tg pa, transAccess s ci y.1 k attr = .ok (tg, pa) ∧ pinnedByOther s ci pa = true := by
  unfold runPinned
  cases transAccess s ci y.1 k attr with
  | error t => simp
  | ok w =>
    obtain ⟨tg, pa⟩ := w
    simp

/-- Runs that may be accessed leave the check to those after them. -/
theorem partsCheck_append {a : List (Word × Nat)} (h : RunsAllowed s ci k attr a) : partsCheck s ci k attr (a ++ l) =
    (partsCheck s ci k attr l).map (a.any (runPinned s ci k attr) || ·) := by
  induction a with
  | nil => cases hl : partsCheck s ci k attr l <;> simp [hl, Except.map]
  | cons y r ih =>
    obtain ⟨⟨⟨tg, pa⟩, hy⟩, hr⟩ := List.forall_mem_cons.mp h
    have hp : runPinned s ci k attr y = pinnedByOther s ci pa := by rw [runPinned, hy]
    rw [List.cons_append, partsCheck, hy]
    dsimp only
    rw [ih hr, List.any_cons, hp]
    cases partsCheck s ci k attr l <;> simp [Bool.or_assoc, Except.map]

/-- Runs that may all be accessed meet a pinned line or none. -/
theorem partsCheck_allowed (h : RunsAllowed s ci k attr l) : partsCheck s ci k attr l = .ok (l.any (runPinned s ci k attr)) := by
  rw [← List.append_nil l, partsCheck_append h, partsCheck, Except.map, Bool.or_false, List.append_nil]

/-- The first run that is answered with a fault. -/
theorem partsCheck_fault (h : RunsMeet s ci k attr l t) (hr : isRetry t = false) : partsCheck s ci k attr l = .error t := by
  obtain ⟨a, y, r, rfl, hy, ha⟩ := h
  have hl : partsCheck s ci k attr (y :: r) = .error t := by simp only [partsCheck, hy, hr, Bool.false_eq_true, if_false]
  rw [partsCheck_append ha, hl, Except.map]

/-- The first run that is answered with the retry response. -/
theorem partsCheck_retry (h : RunsMeet s ci k attr l t) (hr : isRetry t = true) : partsCheck s ci k attr l = .ok true := by
  obtain ⟨a, y, r, rfl, hy, ha⟩ := h
  have hl : partsCheck s ci k attr (y :: r) = .ok true := by simp only [partsCheck, hy, hr, if_true]
  rw [partsCheck_append ha, hl, Except.map, Bool.or_true]

/-- Runs that meet a pinned line. -/
theorem partsCheck_pinned (h : RunsPinned s ci k attr l) : partsCheck s ci k attr l = .ok true := by
  rcases h with ⟨t, ht, hr⟩ | ⟨ha, y, hy, hp⟩
  · exact partsCheck_retry ht hr
  · rw [partsCheck_allowed ha, List.any_eq_true.mpr ⟨y, hy, runPinned_iff.mpr hp⟩]

/-- Runs that may all be accessed and meet no pinned line. -/
theorem partsCheck_free (ha : RunsAllowed s ci k attr l) (h : ¬ RunsPinned s ci k attr l) : partsCheck s ci k attr l = .ok false := by
  rw [partsCheck_allowed ha, List.any_eq_false.mpr fun y hy hp => h (.inr ⟨ha, y, hy, runPinned_iff.mp hp⟩)]

end Checks

/-! ## Pieces (R237, R238) -/

section Pieces

variable {s : State} {ci : Nat} {x : Copy} {t : Trap}

/-- No unit that has been switched out of a core has work of its own there. -/
def NoPast (s : State) (ci : Nat) : Prop := ∀ p < 8, ∀ y ∈ (getPart s p).switched, y.core ≠ ci

/-- A step of such a core is made for the unit that it holds. -/
theorem withPast_here (h : NoPast s ci) (has : State → Bool) (f : State → State) : withPast s ci has f = f s := by
  have hnone : pastUnit s ci has = none := by
    unfold pastUnit
    split
    · rfl
    · refine List.findSome?_eq_none_iff.mpr fun p hp => Option.map_eq_none_iff.mpr (List.find?_eq_none.mpr fun y hy => ?_)
      simp [h p (List.mem_range.mp hp) y hy]
  rw [withPast, hnone]

section Land

variable (hrun : copiesRun (getCore s ci) = true) (hx : nextIn (getCore s ci) = some x)
include hrun hx

/-- An inbound piece that faults freezes the core. -/
theorem landPiece_fault (hc : partsCheck s ci .read 1 (pieceReads x) = .error t) : landPiece s ci = freezeCore s ci t (some x.id) none := by
  simp only [landPiece, hrun, hx, movePieceIn, hc, if_true]

/-- An inbound piece that meets a pinned line is tried again. -/
theorem landPiece_pinned (hc : partsCheck s ci .read 1 (pieceReads x) = .ok true) : landPiece s ci = unpin s ci := by
  simp only [landPiece, hrun, hx, movePieceIn, hc, if_true]

/-- An inbound piece lands. -/
theorem landPiece_lands (hc : partsCheck s ci .read 1 (pieceReads x) = .ok false) :
    let lo := (pieceSpan x).1
    let hi := (pieceSpan x).2.1
    let r := readRuns s ci (pieceReads x)
    let b := x.ahead ++ r.2
    landPiece s ci = modCore (modCore r.1 ci fun c => scrRuns c (byteRuns (scrPlace x) lo hi) (b.take (hi - lo))) ci fun c =>
      finishIfDone (copyMoved c { x with ahead := b.drop (hi - lo) } (pieceOf x).2.2) x.id := by
  simp only [landPiece, hrun, hx, movePieceIn, hc, if_true]

end Land

section Write

variable (hrun : copiesRun (getCore s ci) = true) (hx : nextOut (getCore s ci) = some x)
include hrun hx

/-- An outbound piece that faults freezes the core. -/
theorem writePiece_fault (hc : partsCheck s ci .write 2 (pieceWrites x) = .error t) :
    writePiece s ci = freezeCore s ci t (some x.id) none := by
  simp only [writePiece, hrun, hx, movePieceOut, hc, if_true]

/-- An outbound piece that meets a pinned line is tried again. -/
theorem writePiece_pinned (hc : partsCheck s ci .write 2 (pieceWrites x) = .ok true) : writePiece s ci = unpin s ci := by
  simp only [writePiece, hrun, hx, movePieceOut, hc, if_true]

/-- An outbound piece is written. -/
theorem writePiece_writes (hc : partsCheck s ci .write 2 (pieceWrites x) = .ok false) :
    let lo := (pieceSpan x).1
    let hi := (pieceSpan x).2.1
    let b := pieceBytes (getCore s ci) x
    writePiece s ci = modCore (writeRuns s ci .write (pieceWrites x) (b.take (hi - lo))) ci fun c =>
      copyMoved c { x with ahead := b.drop (hi - lo) } (pieceOf x).2.2 := by
  simp only [writePiece, hrun, hx, movePieceOut, hc, if_true]

end Write

/-- A copy that has gone out completes. -/
theorem completeOut_completes (h : doneOut s ci = some x) : completeOut s ci = putCore s ci (finishCopy (getCore s ci) x) := by
  rw [completeOut, h]

/-- An inbound copy under way that has met a fault freezes its core. -/
theorem findFault_inbound (hrun : copiesRun (getCore s ci) = true) (hx : nextIn (getCore s ci) = some x) (ho : x.outb = false)
    (hc : partsCheck s ci .read 1 (pieceReads x) = .error t) : findFault s ci = freezeCore s ci t (some x.id) none := by
  have hp : pieceFault s ci x = some t := by simp only [pieceFault, ho, hc, Bool.false_eq_true, if_false]
  have hf : foundFault s ci = some (t, x.id) := by
    simp only [foundFault, hrun, hx, if_true, Option.toList_some, List.cons_append, List.findSome?_cons, hp, Option.map_some]
  rw [findFault, hf]

end Pieces

/-! ## The fault service (R241, R332) -/

section Service

variable {s : State} {ci : Nat} {r : SvcReq}

/-- The first request of a core answered. -/
theorem dropRequest_first (h : firstRequest s ci = some r) :
    dropRequest s ci = modPart s (partOf (getCore s ci)) fun p => { p with svcq := p.svcq.erase r } := by
  rw [dropRequest, h]

/-- A freeze whose record is the core's first request may be answered. -/
theorem freezeNext_first {f : Freeze} (hf : (getCore s ci).freeze = some f) (h : firstRequest s ci = some r) (hr : r.svc = false) :
    freezeNext s ci = true := by
  simp [freezeNext, hf, h, hr]

/-- A freeze with no error waiting is resumed. -/
theorem freezeResumed_thaws {f : Freeze} (hf : (getCore s ci).freeze = some f) (he : f.err = none) : freezeResumed s ci = thaw s ci := by
  simp only [freezeResumed, hf, Option.bind_some, he]

/-- A freeze with no error waiting that cannot be resolved ends the unit. -/
theorem freezeEnd_fails {f : Freeze} (hf : (getCore s ci).freeze = some f) (he : f.err = none) : freezeEnd s ci = freezeFailed s ci f := by
  simp only [freezeEnd, hf, he, ite_self]

section Answers

variable {d : BitVec 6} (hd : (getCore s ci).run = .svc d) (h : firstRequest s ci = some r) (hr : r.svc = true)
include hd h hr

/-- A unit that waits in `svc` with its request first goes on with the answer in its register. -/
theorem answerSvc_value (v : Word) : answerSvc s ci (some v) = putCore (dropRequest s ci) ci
    (advance (wrReg { getCore s ci with run := .running } d.toNat { val := v, psn := false }) .c 0) := by
  simp only [answerSvc, h, hr, if_true, hd]

/-- Without an answer it ends with the cause of its frame. -/
theorem answerSvc_none : answerSvc s ci none =
    endUnit (dropRequest s ci) ci (getCore s ci).tr.cause.toNat (getCore s ci).tr.detail.toNat (some (getCore s ci).tr.tval) := by
  simp only [answerSvc, h, hr, if_true, hd]

end Answers

end Service

/-- Settles O44: each step is one of its cases. -/
theorem copyEvents : Obligations.CopyEvents := by
  unfold Obligations.CopyEvents
  intro s ci x hci c n frozen unpinned first queue served up here total joins src dst lo hi top reads writes okay meets allowed pinned inbound
  have hland := agentStep hci (landPiece s ci)
  refine ⟨fun f e => ?words, fun f a b => byteRuns_places f a b, fun hrun hx => ?land, fun hh hrun hx => ?write, fun t va m r o q k b => ?runs,
    fun hh hrun hx => ?complete, fun k => rfl, fun ht => ?finish, fun t hh hrun hx hm hr => ?freeze, fun f r hh hf he hq hr hup => ?thaw,
    fun d r hd hq hr hup => ?svc⟩
  case words =>
    obtain ⟨hle, hjoin, -⟩ := wordStart_passes x f 8 e
    exact ⟨hle, hjoin, not_joinsWord_wordStart x f e⟩
  case land =>
    have hfree (hc : partsCheck s ci .read 1 reads = .ok false) := hland.trans (congrArg _ (landPiece_lands hrun hx hc))
    exact ⟨fun t hm hr => hland.trans (congrArg _ (landPiece_fault hrun hx (partsCheck_fault hm hr))),
      fun hp => hland.trans (congrArg _ (landPiece_pinned hrun hx (partsCheck_pinned hp))), fun ha hp => hfree (partsCheck_free ha hp)⟩
  case write =>
    have hwrite : exec (.outboundCopyExecute ci) s = .next (writePiece s ci) := (agentStep hci _).trans (congrArg _ (withPast_here hh ..))
    have hfree (hc : partsCheck s ci .write 2 writes = .ok false) := hwrite.trans (congrArg _ (writePiece_writes hrun hx hc))
    exact ⟨fun t hm hr => hwrite.trans (congrArg _ (writePiece_fault hrun hx (partsCheck_fault hm hr))),
      fun hp => hwrite.trans (congrArg _ (writePiece_pinned hrun hx (partsCheck_pinned hp))), fun ha hp => hfree (partsCheck_free ha hp)⟩
  case runs =>
    refine ⟨fun tg pa ht => ?_, rfl, fun d pa ht => ?_, fun tg pa hd ht => ?_⟩
    · simp only [readRuns, ht]
    · simp only [writeRuns, partOut, ht]
    · simp only [writeRuns, partOut, ht]
  case complete =>
    have hd : doneOut s ci = some x := (if_pos hrun).trans hx
    exact (agentStep hci _).trans (congrArg _ ((withPast_here hh ..).trans (completeOut_completes hd)))
  case finish =>
    intro room
    simp only [finishCopy, ht]
    rfl
  case freeze =>
    have ho : x.outb = false := by
      have := List.find?_some hx
      simp only [Bool.and_eq_true, Bool.not_eq_true'] at this
      exact this.1.1
    exact (agentStep hci _).trans (congrArg _ ((withPast_here hh ..).trans (findFault_inbound hrun hx ho (partsCheck_fault hm hr))))
  case thaw =>
    have hnext : (firmwareUp s ci && freezeNext s ci) = true := by rw [freezeNext_first hf hq hr, firmwareUp, hup]; rfl
    have hthaw : thaw s ci = modCore (served r) ci fun c => { c with freeze := none } := by rw [thaw, dropRequest_first hq]
    refine ⟨(agentStep hci _).trans (congrArg _ ((withPast_here hh ..).trans ((if_pos hnext).trans ?_))),
      (agentStep hci _).trans (congrArg _ ((withPast_here hh ..).trans ((if_pos hnext).trans ?_)))⟩
    · rw [freezeResumed_thaws hf he, hthaw]
    · rw [freezeEnd_fails hf he, freezeFailed, hthaw]
      rfl
  case svc =>
    have hfw : firmwareUp s ci = true := by rw [firmwareUp, hup]; rfl
    have hans (ans : Option Word) : exec (.faultServiceAnswer ci ans) s = .next (answerSvc s ci ans) :=
      (agentStep hci _).trans (congrArg _ (if_pos hfw))
    have hdrop : dropRequest s ci = served r := dropRequest_first hq
    exact ⟨fun v => by rw [hans, answerSvc_value hd hq hr, hdrop], by rw [hans, answerSvc_none hd hq hr, hdrop]⟩

end Sys2Proof.Machine
end

section
/-! O60. A commit buffer that lists one sector twice does not read back the byte that a store enters. -/

namespace Sys2Proof.Machine

/-- A core in split mode whose commit buffer lists sector 0 twice, with byte 0 held in the later entry alone. The commit's clause of O60 rules such a
buffer out (its sectors are distinct), its clauses on stores do not. -/
def coreSectorTwice : Core := { placeCore .split with cbuf := [.sector 0 0 [], .sector 0 0 [(0, some 1)]] }

/-- The placed unit on that core, with its tables and S at the focus. -/
def stateSectorTwice : State := { putCore (State.reset.withFetchWord 32 0xF0000000) 0 coreSectorTwice with focusCl := .s, agenda := [] }

/-- The buffer once the low byte of x0, which is 0, has been stored at address 0: it is merged into the first entry of its sector. -/
def bufferSectorTwice : List CEntry := [.sector 0 0 [(0, some 0)], .sector 0 0 [(0, some 1)]]

/-- The state after the store. -/
def storedSectorTwice : State := goOn tkNone stateSectorTwice (modCore stateSectorTwice 0 fun c => { c with cbuf := bufferSectorTwice })

/-- The store of the low byte of x0 at the global address in x0 may issue, and nothing keeps it from completing. -/
theorem stateSectorTwice_stores :
    let s := stateSectorTwice
    let e := issueEnv tkNone s
    MayIssue (encodeNat (.stG 0 0 0 0 tkNone)) [] 0 tkNone s ∧ (e.x 0).psn = false ∧ (e.x 0).val.toNat % 2 ^ 0 = 0 ∧
      globalFault (issued tkNone s) 0 .write 2 [(e.x 0).val] = none ∧
      transTarget (issued tkNone s) 0 (e.x 0).val .write = .ok (.dev 0, 0) ∧
      enterStores (getCore (issued tkNone s) 0).cbuf [(0, (e.x 0).val, natBytes 1 (e.x 0).val.toNat)] = some bufferSectorTwice := by
  decide +kernel

/-- Byte 0 still reads as the later entry has it. -/
theorem coreByte_storedSectorTwice : coreByte storedSectorTwice 0 0 = 1 := by decide +kernel

/-- Each entry of the buffer is in canonical form. -/
theorem coreSectorTwice_clean : ∀ q w z, CEntry.sector q w z ∈ (getCore stateSectorTwice 0).cbuf → Sparse.wf none z = true := by
  intro q w z hz
  have hb : (getCore stateSectorTwice 0).cbuf = coreSectorTwice.cbuf := congrArg Core.cbuf (getCore_putCore_self _ coreSectorTwice (by decide))
  simp only [hb, coreSectorTwice, List.mem_cons, CEntry.sector.injEq, List.not_mem_nil, or_false] at hz
  rcases hz with ⟨-, -, rfl⟩ | ⟨-, -, rfl⟩ <;> rfl

/-- Refutes O60: its clause on a global store holds the byte stored to be what the core reads at its address. Where the commit buffer lists the
sector twice, the store merges into the first entry and the core reads the second. -/
theorem not_storeFrame : ¬ Obligations.StoreFrame := by
  unfold Obligations.StoreFrame
  intro h
  obtain ⟨hissue, hpsn, hal, hfault, htrans, henter⟩ := stateSectorTwice_stores
  obtain ⟨-, -, -, hstG⟩ := scalarAccess stateSectorTwice 0 0 0 0 0 tkNone
  have hexec : exec (.stG 0 0 0 0 tkNone) stateSectorTwice = .next storedSectorTwice :=
    hstG 0 (.dev 0) bufferSectorTwice hissue ⟨hpsn, hal⟩ hfault hpsn htrans henter
  obtain ⟨-, hframe, -⟩ := h stateSectorTwice storedSectorTwice 0 0 0 0 0 0 0 tkNone (by decide)
  obtain ⟨-, -, hbyte⟩ :=
    hframe 0 (.dev 0) hissue ⟨hpsn, hal⟩ hfault hpsn htrans rfl (Option.isSome_of_eq_some henter) coreSectorTwice_clean hexec
  have hzero : coreByte storedSectorTwice 0 0 = 0 := hbyte 0
  rw [coreByte_storedSectorTwice] at hzero
  exact absurd hzero (by decide)

end Sys2Proof.Machine
end

section
/-! O45. Steps of a chain: what the read and the effect of an entry leave as it was, and what its slot does then. -/

namespace Sys2Proof.Machine

/-! ## Work on rings and counters (R352 to R354) -/

@[simp] theorem front_wakeQueue (s : State) (p q : Nat) : front (wakeQueue s p q) = front s := by
  unfold wakeQueue
  split <;> rfl

@[simp] theorem front_wakeNamed (s : State) (p : Nat) (f : Packet → Bool) : front (wakeNamed s p f) = front s := by
  refine List.foldlRecOn (motive := fun t => front t = front s) _ _ rfl fun t ht q _ => ?_
  split
  · split
    · exact (front_wakeQueue t p q).trans ht
    · exact ht
  · exact ht

@[simp] theorem front_addCounter (s : State) (p i : Nat) (v : Word) : front (addCounter s p i v) = front s :=
  front_wakeNamed (modPart s p _) p _

theorem front_releaseItems (p r n : Nat) : ∀ s, front (releaseItems s p r n) = front s := by
  induction n with
  | zero => exact fun s => rfl
  | succ n ih =>
    intro s
    unfold releaseItems
    dsimp only
    split
    · exact (ih _).trans (front_addCounter ..)
    · rfl

@[simp] theorem front_dropOld (s : State) (p r c : Nat) : front (dropOld s p r c) = front s := by
  unfold dropOld
  dsimp only
  split
  · rfl
  · exact front_releaseItems ..

@[simp] theorem front_dropNew (s : State) (p r n : Nat) : front (dropNew s p r n) = front s :=
  front_addCounter (modRing s p r _) p _ _

/-! ## Work that leaves the chains (R135, R140, R178) -/

@[simp] theorem chains_scrPutBytes (b : List Byte) : ∀ (c : Core) (o : Nat), (scrPutBytes c o b).chains = c.chains := by
  induction b with
  | nil => exact fun c o => rfl
  | cons x b ih => exact fun c o => ih _ _

@[simp] theorem chains_scrMark (c : Core) (o n : Nat) (psn : Bool) : (scrMark c o n psn).chains = c.chains := by
  refine List.foldlRecOn (motive := fun d : Core => d.chains = c.chains) _ _ rfl fun d hd i _ => ?_
  dsimp only
  split
  · exact hd
  · split
    · exact hd
    · exact hd

@[simp] theorem chains_scrStore (c : Core) (o : Nat) (b : List Byte) (psn : Bool) : (scrStore c o b psn).chains = c.chains := by
  rw [scrStore, chains_scrMark, chains_scrPutBytes]

/-- What a peer performs leaves the cores. -/
theorem front_performPeer (s : State) (l : List Outstanding) : front (l.foldl performPeer s) = front s := by
  refine List.foldlRecOn (motive := fun t => front t = front s) _ _ rfl fun t ht o _ => ?_
  unfold performPeer
  split
  · exact ht
  · exact ht

section Read

variable (s : State) {ci : Nat} (hci : ci < 72)
include hci

/-- An update of a core that leaves its chains. -/
theorem chains_modCore {f : Core → Core} (hf : ∀ c, (f c).chains = c.chains) : (getCore (modCore s ci f) ci).chains = (getCore s ci).chains :=
  (congrArg Core.chains (getCore_modCore_self s f hci)).trans (hf _)

theorem chains_landPeer (m : Nat) : (getCore (landPeer s ci m) ci).chains = (getCore s ci).chains := by
  refine (chains_modCore _ hci fun c => ?_).trans (congrArg Core.chains (getCore_of_front (front_performPeer ..) ci))
  rfl

theorem chains_refusedBy (m : Nat) (a : Word) : (getCore (refusedBy s ci m a) ci).chains = (getCore s ci).chains :=
  (congrArg Core.chains (getCore_of_front (front_logErr ..) ci)).trans (chains_modCore s hci fun _ => rfl)

theorem chains_windowRead (t : Target) (n : Nat) : (getCore (windowRead s ci t n).1 ci).chains = (getCore s ci).chains := by
  cases t with
  | dev pa => rfl
  | host w o => rfl
  | peer w o =>
    simp only [windowRead]
    split
    · exact chains_landPeer s hci _
    · exact chains_refusedBy s hci _ _

/-- A read by an engine of a core leaves the core's chains. -/
theorem chains_readCommitted (va : Word) (t : Target) (n : Nat) :
    (getCore (readCommitted s ci va t n).1 ci).chains = (getCore s ci).chains := by
  have hstash (r : State × BitVec 32) (line : Nat) (on : Bool) (hr : getCore r.1 ci = getCore s ci) :
      (getCore (if on then modCore r.1 ci fun c => stashTouch c va line false r.2 else r.1) ci).chains = (getCore s ci).chains := by
    rw [← hr]
    split
    · exact chains_modCore r.1 hci fun _ => rfl
    · rfl
  cases t with
  | dev pa =>
    refine hstash _ _ _ ?_
    split
    · rfl
    · exact getCore_touchLine_self s _ _ hci pa va
  | host w o => exact chains_windowRead s hci _ n
  | peer w o => exact chains_windowRead s hci _ n

end Read

/-! ## The slot after its entry (R251, R253, R262) -/

/-- A slot that goes on to its next entry has completed the one it was at. -/
theorem entryDone_chainNext (x : Chain) (op : Nat) : entryDone x (chainNext x) op = true := by
  have hcpc : (chainNext x).cpc = x.cpc + 32 := by
    unfold chainNext chainGo
    dsimp only
    split
    · rfl
    · rfl
  simp [entryDone, hcpc]

/-- So has one whose chain is over. -/
theorem entryDone_over (x : Chain) (op : Nat) : entryDone x (chainGo x .done) op = true := by
  have hover : chainLive (chainGo x .done) = false := by
    unfold chainGo
    split <;> rfl
  simp [entryDone, hover]

/-- What a slot skips does not say whether it has completed its entry. -/
theorem entryDone_skip (x y : Chain) (op : Nat) (l : Option (Nat × Nat)) : entryDone x { y with skip := l } op = entryDone x y op := rfl

/-- A slot that stays in WAIT at its entry has not completed it. -/
theorem entryDone_waits (x : Chain) {op : Nat} (h : op ≠ 5) (b : Bool) : entryDone x { x with st := .wait, held := b } op = false := by
  simp [entryDone, chainLive, h]

/-- The state after an entry's effect: one that has completed is no longer counted as tried again. -/
def afterEntry (x : Chain) (ci k op : Nat) (t : State) : State :=
  if entryDone x (chainOf (getCore t ci) k) op then modCore t ci fun c => sentOn c (2 + k) else t

section After

variable {x : Chain} {t : State} {ci k op : Nat} {f : Chain → Chain} (hci : ci < 72) (hk : k < 4) (h : chainOf (getCore t ci) k = x)
include hci hk h

theorem chainOf_modChain : chainOf (getCore (modChain t ci k f) ci) k = f x := by
  rw [modChain, getCore_modCore_self _ _ hci, ← h]
  exact vget_vset_self _ _ _ hk

/-- An entry that completes. -/
theorem afterEntry_done (hf : entryDone x (f x) op = true) :
    afterEntry x ci k op (modChain t ci k f) = modCore (modChain t ci k f) ci fun c => sentOn c (2 + k) := by
  rw [afterEntry, chainOf_modChain hci hk h, if_pos hf]

/-- An entry at which its slot stays. -/
theorem afterEntry_held (hf : entryDone x (f x) op = false) : afterEntry x ci k op (modChain t ci k f) = modChain t ci k f := by
  rw [afterEntry, chainOf_modChain hci hk h, hf, if_neg Bool.false_ne_true]

end After

/-! ## The effect of an entry (R252, R253, R354) -/

section Effect

variable {s : State} {ci k : Nat} {y : Entry}

theorem afterCopies_idle {f : State → State} {next : Chain → Chain} (h : slotCopies (getCore s ci) k = false) :
    afterCopies s ci k f next = modChain (f s) ci k next := by
  rw [afterCopies, h, if_neg Bool.false_ne_true]

/-- The entries that wait for the earlier copies of their slot. -/
def OrdersCopies (op : Nat) : Prop := op = 0 ∨ op = 4 ∨ op = 6 ∨ op = 7

/-- Such an entry holds its slot while one of those copies has not completed. -/
theorem chainEffect_held (hop : OrdersCopies y.op) (h : slotCopies (getCore s ci) k = true) :
    chainEffect s ci k y = modChain s ci k fun x => { x with st := .wait, held := true } := by
  rcases hop with hop | hop | hop | hop <;> simp only [chainEffect, hop, afterCopies, h, if_true]

theorem chainEffect_copy (hop : y.op = 1 ∨ y.op = 2) : chainEffect s ci k y = chainCopyRun s ci k y := by
  rcases hop with hop | hop <;> simp only [chainEffect, hop]

theorem chainEffect_link (hop : y.op = 5) :
    chainEffect s ci k y = modChain s ci k fun z => { z with cpc := BitVec.ofNat 64 y.d1, st := .run } := by
  simp only [chainEffect, hop]

/-- The copy that a COPY or COPY2D entry of a slot queues. -/
def entryCopy (c : Core) (k : Nat) (y : Entry) : Copy :=
  { id := c.nextCopy, outb := y.dir, rows := y.toRows.rows, rowBytes := y.toRows.bytes, off := y.toRows.off.toNat, gaddr := y.toRows.gaddr,
    lpitch := y.toRows.lpitch, gpitch := y.toRows.gpitch, hurdle := if y.hen then some y.hurdle else none, tile := none, fetcher := false,
    slot := some k, push := none, homes := 0, done := 0, made := 0, entry := (chainOf c k).cpc, open_ := false, fault := none }

/-- With room in the transfer engine it is queued. -/
theorem chainCopyRun_queues (h : (getCore s ci).copies.length < 16) :
    chainCopyRun s ci k y = modChain (modCore s ci fun c => queueCopy c (entryCopy (getCore s ci) k y)) ci k chainNext :=
  if_neg (Nat.not_le.mpr h)

theorem chainEffect_wait (hop : y.op = 3) : chainEffect s ci k y = chainWaitRun s ci k y := by
  simp only [chainEffect, hop]

section Idle

variable (h : slotCopies (getCore s ci) k = false)
include h

theorem chainEffect_end (hop : y.op = 0) : chainEffect s ci k y = modChain s ci k (chainGo · .done) := by
  simp only [chainEffect, hop, afterCopies_idle h, id]

theorem chainEffect_post (hop : y.op = 4) : chainEffect s ci k y =
    modChain (addCounter s (partOf (getCore s ci)) y.ring (BitVec.ofNat 64 y.d1)) ci k chainNext := by
  simp only [chainEffect, hop, afterCopies_idle h]

theorem chainEffect_flag (hop : y.op = 6) :
    chainEffect s ci k y = modChain (modCore s ci fun c => scrStore c y.d2 (natBytes 8 y.d1) false) ci k chainNext := by
  simp only [chainEffect, hop, afterCopies_idle h, chainFlagRun]

theorem chainEffect_arrive (hop : y.op = 7) : chainEffect s ci k y =
    modChain (modCore s ci fun c => arriveExt c y.hurdle (if y.d1 = 0 then 1 else y.d1)) ci k chainNext := by
  simp only [chainEffect, hop, afterCopies_idle h]

end Idle

section Wait

variable {r : Nat} (hsat : satisfied (counterOf (getPart s (partOf (getCore s ci))) y.ring) y.d1 = false)
  (hr : relRing (getPart s (partOf (getCore s ci))) y.ring = some r)

theorem chainWaitRun_satisfied (h : satisfied (counterOf (getPart s (partOf (getCore s ci))) y.ring) y.d1 = true) :
    chainWaitRun s ci k y = modChain s ci k chainNext := if_pos h

include hsat

/-- A counter that is the REL of no ring is waited for. -/
theorem chainWaitRun_noRing (h : relRing (getPart s (partOf (getCore s ci))) y.ring = none) :
    chainWaitRun s ci k y = modChain s ci k fun z => { z with st := .wait } := by
  simp only [chainWaitRun, hsat, h, Bool.false_eq_true, if_false]

include hr

/-- So is one whose ring's policy does not act. -/
theorem chainWaitRun_blocks (h1 : (ringOf (getPart s (partOf (getCore s ci))) r).policy ≠ 1)
    (h2 : (ringOf (getPart s (partOf (getCore s ci))) r).policy ≠ 2) :
    chainWaitRun s ci k y = modChain s ci k fun z => { z with st := .wait } := by
  simp only [chainWaitRun, hsat, hr, h1, h2, Bool.false_eq_true, if_false]

/-- DROP_NEW: the slot skips on to where it gives up the item. -/
theorem chainWaitRun_dropsNew (h : (ringOf (getPart s (partOf (getCore s ci))) r).policy = 1) : chainWaitRun s ci k y =
    modChain s ci k fun z => { chainNext z with skip := some (r, y.d1 + capOf (ringOf (getPart s (partOf (getCore s ci))) r) - 1) } := by
  simp only [chainWaitRun, hsat, hr, h, Bool.false_eq_true, if_false, if_true]

/-- DROP_OLD: the published items before the compare value are dropped, and the counter is compared again. -/
theorem chainWaitRun_dropsOld (h : (ringOf (getPart s (partOf (getCore s ci))) r).policy = 2) :
    let u := dropOld s (partOf (getCore s ci)) r y.d1
    chainWaitRun s ci k y = if satisfied (counterOf (getPart u (partOf (getCore s ci))) y.ring) y.d1 then modChain u ci k chainNext
      else modChain u ci k fun z => { z with st := .wait } := by
  have h1 : (2 : BitVec 2) ≠ 1 := by decide
  simp only [chainWaitRun, hsat, hr, h, h1, Bool.false_eq_true, if_false, if_true]

end Wait

section Skip

variable {r n : Nat}

theorem chainSkip_end (h : slotCopies (getCore s ci) k = false) (hop : y.op = 0) : chainSkip s ci k r n y =
    modChain (dropNew s (partOf (getCore s ci)) r n) ci k fun z => { chainGo z .done with skip := none } := by
  simp only [chainSkip, hop, afterCopies_idle h, if_true]

theorem chainSkip_pub (hop : y.op = 4) (hring : y.ring = (ringOf (getPart s (partOf (getCore s ci))) r).pubc.toNat) : chainSkip s ci k r n y =
    modChain (dropNew s (partOf (getCore s ci)) r n) ci k fun z => { chainNext z with skip := none } := by
  have h0 : y.op ≠ 0 := by omega
  rw [chainSkip, if_neg h0, if_pos ⟨hop, hring⟩]

theorem chainSkip_link (hop : y.op = 5) :
    chainSkip s ci k r n y = modChain s ci k fun z => { z with cpc := BitVec.ofNat 64 y.d1, st := .run } := by
  simp [chainSkip, hop]

/-- Any other entry is passed over. -/
theorem chainSkip_passes (h0 : y.op ≠ 0) (h5 : y.op ≠ 5)
    (h4 : y.op = 4 → y.ring ≠ (ringOf (getPart s (partOf (getCore s ci))) r).pubc.toNat) :
    chainSkip s ci k r n y = modChain s ci k chainNext := by
  rw [chainSkip, if_neg h0, if_neg (not_and.mpr h4), if_neg h5]

end Skip

end Effect

/-! ## A step of the sequencer -/

section NoRead

variable {s : State} {ci k op : Nat} (hrun : enginesRun (getCore s ci) = true) (hlive : chainLive (chainOf (getCore s ci) k) = true)
include hrun hlive

/-- A read that faults freezes the core, and one whose walk meets a pinned line ends its pins. -/
theorem chainStep_faults {t : Trap} (h : transAccess s ci (chainOf (getCore s ci) k).cpc .read 1 = .error t) :
    chainStep s ci k op = if isRetry t then unpin s ci else freezeCore s ci t none (some k) := by
  simp only [chainStep, hrun, hlive, h, Bool.and_self, Bool.not_true, Bool.false_eq_true, if_false]

/-- So does one that meets a pinned line itself. -/
theorem chainStep_pinned {tg : Target} {pa : Nat} (h : transAccess s ci (chainOf (getCore s ci) k).cpc .read 1 = .ok (tg, pa))
    (hp : pinnedByOther s ci pa = true) : chainStep s ci k op = unpin s ci := by
  simp only [chainStep, hrun, hlive, h, hp, Bool.and_self, Bool.not_true, Bool.false_eq_true, if_false, if_true]

end NoRead

/-- A pending kick starts once its slot has left RUN and WAIT. -/
theorem startPending_starts {s : State} {ci k : Nat} {a : Word} (hrun : enginesRun (getCore s ci) = true)
    (hlive : chainLive (chainOf (getCore s ci) k) = false) (h : (chainOf (getCore s ci) k).kick = some a) :
    startPending s ci k = modChain s ci k fun _ => startChain a := by
  simp only [startPending, hrun, hlive, h, Bool.not_false, Bool.and_self, if_true]

/-- A running slot reads its entry: the bytes `b` with the marks `m`, and the state `t` after the read. -/
structure ReadsEntry (s : State) (ci k : Nat) (t : State) (b : List Byte) (m : List Bool) : Prop where
  run : enginesRun (getCore s ci) = true
  live : chainLive (chainOf (getCore s ci) k) = true
  read : ∃ tg pa, transAccess s ci (chainOf (getCore s ci) k).cpc .read 1 = .ok (tg, pa) ∧ pinnedByOther s ci pa = false ∧
    readCommitted s ci (chainOf (getCore s ci) k).cpc tg 32 = (t, b, m)

namespace ReadsEntry

variable {s t : State} {ci k op : Nat} {b : List Byte} {m : List Bool} (h : ReadsEntry s ci k t b m)
include h

/-- The read leaves the slot. -/
theorem chainOf_eq (hci : ci < 72) : chainOf (getCore t ci) k = chainOf (getCore s ci) k := by
  obtain ⟨tg, pa, -, -, hread⟩ := h.read
  have hc := chains_readCommitted s hci (chainOf (getCore s ci) k).cpc tg 32
  rw [hread] at hc
  rw [chainOf, chainOf, hc]

theorem chainStep_marked (hm : m.any id = true) : chainStep s ci k op = chainFault t ci k 0x20 3 (m.takeWhile (!·)).length := by
  obtain ⟨tg, pa, hacc, hpin, hread⟩ := h.read
  simp only [chainStep, h.run, h.live, hacc, hpin, hread, hm, Bool.and_self, Bool.not_true, Bool.false_eq_true, if_false, if_true]

variable (hm : m.any id = false)
include hm

theorem chainStep_malformed (hb : (entryOf b).bad (getCore s ci).a = true) : chainStep s ci k op = chainFault t ci k 0x18 1 0 := by
  obtain ⟨tg, pa, hacc, hpin, hread⟩ := h.read
  simp only [chainStep, h.run, h.live, hacc, hpin, hread, hm, hb, Bool.and_self, Bool.not_true, Bool.false_eq_true, if_false, if_true]

variable (hb : (entryOf b).bad (getCore s ci).a = false) (hop : (entryOf b).op = op)
include hb hop

theorem chainStep_effect (hskip : (chainOf (getCore s ci) k).skip = none) :
    chainStep s ci k op = afterEntry (chainOf (getCore s ci) k) ci k op (chainEffect t ci k (entryOf b)) := by
  obtain ⟨tg, pa, hacc, hpin, hread⟩ := h.read
  simp only [chainStep, h.run, h.live, hacc, hpin, hread, hm, hb, hop, hskip, afterEntry, Bool.and_self, Bool.not_true, Bool.false_eq_true,
    if_false, ne_eq, not_true_eq_false]

theorem chainStep_skips {r n : Nat} (hskip : (chainOf (getCore s ci) k).skip = some (r, n)) :
    chainStep s ci k op = afterEntry (chainOf (getCore s ci) k) ci k op (chainSkip t ci k r n (entryOf b)) := by
  obtain ⟨tg, pa, hacc, hpin, hread⟩ := h.read
  simp only [chainStep, h.run, h.live, hacc, hpin, hread, hm, hb, hop, hskip, afterEntry, Bool.and_self, Bool.not_true, Bool.false_eq_true,
    if_false, ne_eq, not_true_eq_false]

end ReadsEntry

/-- The step of a slot that exists. -/
theorem chainEvent_next {s : State} {ci k : Nat} (hci : ci < 72) (hk : k < 4) (op : Nat) : chainEvent s ci k op = .next (chainStep s ci k op) :=
  if_neg (not_or.mpr ⟨Nat.not_le.mpr hci, Nat.not_le.mpr hk⟩)

/-- An entry of a slot that is read is sound: it carries no mark and is well formed. -/
structure SoundEntry (s : State) (ci k : Nat) (t : State) (b : List Byte) (y : Entry) : Prop where
  ci_lt : ci < 72
  k_lt : k < 4
  eq : y = entryOf b
  reads : ∃ m, ReadsEntry s ci k t b m ∧ m.any id = false
  good : y.bad (getCore s ci).a = false

namespace SoundEntry

variable {s t u v : State} {ci k op : Nat} {b : List Byte} {y : Entry} {f : Chain → Chain} (h : SoundEntry s ci k t b y)
include h

theorem chainOf_eq : chainOf (getCore t ci) k = chainOf (getCore s ci) k := by
  obtain ⟨m, hr, -⟩ := h.reads
  exact hr.chainOf_eq h.ci_lt

/-- Work that leaves the cores leaves the slot. -/
theorem chainOf_of_front (hu : front u = front t) : chainOf (getCore u ci) k = chainOf (getCore s ci) k :=
  (congrArg (chainOf · k) (getCore_of_front hu ci)).trans h.chainOf_eq

/-- So does an update of the core that leaves its chains. -/
theorem chainOf_modCore {g : Core → Core} (hg : ∀ c, (g c).chains = c.chains) :
    chainOf (getCore (modCore t ci g) ci) k = chainOf (getCore s ci) k := by
  rw [← h.chainOf_eq, chainOf, chains_modCore t h.ci_lt hg, chainOf]

theorem event_effect (hop : y.op = op) (hs : (chainOf (getCore s ci) k).skip = none) :
    chainEvent s ci k op = .next (afterEntry (chainOf (getCore s ci) k) ci k op (chainEffect t ci k y)) := by
  obtain ⟨hci, hk, rfl, ⟨m, hr, hm⟩, hb⟩ := h
  exact (chainEvent_next hci hk op).trans (congrArg _ (hr.chainStep_effect hm hb hop hs))

theorem event_skips {r n : Nat} (hop : y.op = op) (hs : (chainOf (getCore s ci) k).skip = some (r, n)) :
    chainEvent s ci k op = .next (afterEntry (chainOf (getCore s ci) k) ci k op (chainSkip t ci k r n y)) := by
  obtain ⟨hci, hk, rfl, ⟨m, hr, hm⟩, hb⟩ := h
  exact (chainEvent_next hci hk op).trans (congrArg _ (hr.chainStep_skips hm hb hop hs))

variable (hv : v = modChain u ci k f) (hu : chainOf (getCore u ci) k = chainOf (getCore s ci) k)
include hv hu

theorem completes (he : chainEvent s ci k op = .next (afterEntry (chainOf (getCore s ci) k) ci k op v))
    (hf : entryDone (chainOf (getCore s ci) k) (f (chainOf (getCore s ci) k)) op = true) :
    chainEvent s ci k op = .next (modCore (modChain u ci k f) ci fun c => sentOn c (2 + k)) := by
  rw [he, hv, afterEntry_done h.ci_lt h.k_lt hu hf]

theorem holds (he : chainEvent s ci k op = .next (afterEntry (chainOf (getCore s ci) k) ci k op v))
    (hf : entryDone (chainOf (getCore s ci) k) (f (chainOf (getCore s ci) k)) op = false) :
    chainEvent s ci k op = .next (modChain u ci k f) := by
  rw [he, hv, afterEntry_held h.ci_lt h.k_lt hu hf]

end SoundEntry

/-! ## The entries of a slot that skips none -/

namespace SoundEntry

variable {s t : State} {ci k : Nat} {b : List Byte} {y : Entry} (h : SoundEntry s ci k t b y) (hs : (chainOf (getCore s ci) k).skip = none)
include h hs

theorem event_held {op : Nat} (hop : y.op = op) (ho : OrdersCopies op) (hi : slotCopies (getCore t ci) k = true) :
    chainEvent s ci k op = .next (modChain t ci k fun x => { x with st := .wait, held := true }) :=
  h.holds (chainEffect_held (hop ▸ ho) hi) h.chainOf_eq (h.event_effect hop hs)
    (entryDone_waits _ (by rcases ho with rfl | rfl | rfl | rfl <;> decide) true)

theorem event_copy {op : Nat} (hop : y.op = op) (ho : op = 1 ∨ op = 2) (hl : (getCore t ci).copies.length < 16) : chainEvent s ci k op =
    .next (modCore (modChain (modCore t ci fun c => queueCopy c (entryCopy (getCore t ci) k y)) ci k chainNext) ci fun c => sentOn c (2 + k)) :=
  h.completes ((chainEffect_copy (hop ▸ ho)).trans (chainCopyRun_queues hl)) (h.chainOf_modCore fun _ => rfl) (h.event_effect hop hs)
    (entryDone_chainNext _ op)

section Idle

variable (hi : slotCopies (getCore t ci) k = false)
include hi

theorem event_end (hop : y.op = 0) : chainEvent s ci k 0 = .next (modCore (modChain t ci k (chainGo · .done)) ci fun c => sentOn c (2 + k)) :=
  h.completes (chainEffect_end hi hop) h.chainOf_eq (h.event_effect hop hs) (entryDone_over _ 0)

theorem event_post (hop : y.op = 4) : chainEvent s ci k 4 = .next (modCore (modChain
    (addCounter t (partOf (getCore t ci)) y.ring (BitVec.ofNat 64 y.d1)) ci k chainNext) ci fun c => sentOn c (2 + k)) :=
  h.completes (chainEffect_post hi hop) (h.chainOf_of_front (front_addCounter ..)) (h.event_effect hop hs) (entryDone_chainNext _ 4)

theorem event_flag (hop : y.op = 6) : chainEvent s ci k 6 = .next (modCore (modChain
    (modCore t ci fun c => scrStore c y.d2 (natBytes 8 y.d1) false) ci k chainNext) ci fun c => sentOn c (2 + k)) :=
  h.completes (chainEffect_flag hi hop) (h.chainOf_modCore fun _ => chains_scrStore ..) (h.event_effect hop hs)
    (entryDone_chainNext _ 6)

theorem event_arrive (hop : y.op = 7) : chainEvent s ci k 7 = .next (modCore (modChain
    (modCore t ci fun c => arriveExt c y.hurdle (if y.d1 = 0 then 1 else y.d1)) ci k chainNext) ci fun c => sentOn c (2 + k)) :=
  h.completes (chainEffect_arrive hi hop) (h.chainOf_modCore fun _ => rfl) (h.event_effect hop hs) (entryDone_chainNext _ 7)

end Idle

theorem event_link (hop : y.op = 5) : chainEvent s ci k 5 = .next (modCore (modChain t ci k
    fun z => { z with cpc := BitVec.ofNat 64 y.d1, st := .run }) ci fun c => sentOn c (2 + k)) :=
  h.completes (chainEffect_link hop) h.chainOf_eq (h.event_effect hop hs) rfl

section Wait

variable (hop : y.op = 3)
include hop

theorem event_satisfied (hsat : satisfied (counterOf (getPart t (partOf (getCore t ci))) y.ring) y.d1 = true) :
    chainEvent s ci k 3 = .next (modCore (modChain t ci k chainNext) ci fun c => sentOn c (2 + k)) :=
  h.completes ((chainEffect_wait hop).trans (chainWaitRun_satisfied hsat)) h.chainOf_eq (h.event_effect hop hs)
    (entryDone_chainNext _ 3)

/-- A WAIT entry that holds its slot. -/
theorem event_waits (hv : chainWaitRun t ci k y = modChain t ci k fun z => { z with st := .wait }) :
    chainEvent s ci k 3 = .next (modChain t ci k fun z => { z with st := .wait }) :=
  h.holds ((chainEffect_wait hop).trans hv) h.chainOf_eq (h.event_effect hop hs) (entryDone_waits _ (by decide) _)

variable {r : Nat} (hsat : satisfied (counterOf (getPart t (partOf (getCore t ci))) y.ring) y.d1 = false)
  (hr : relRing (getPart t (partOf (getCore t ci))) y.ring = some r)
include hsat hr

theorem event_dropsNew (hp : (ringOf (getPart t (partOf (getCore t ci))) r).policy = 1) : chainEvent s ci k 3 =
    .next (modCore (modChain t ci k fun z => { chainNext z with
      skip := some (r, y.d1 + capOf (ringOf (getPart t (partOf (getCore t ci))) r) - 1) }) ci fun c => sentOn c (2 + k)) :=
  h.completes ((chainEffect_wait hop).trans (chainWaitRun_dropsNew hsat hr hp)) h.chainOf_eq (h.event_effect hop hs)
    ((entryDone_skip ..).trans (entryDone_chainNext _ 3))

theorem event_dropsOld (hp : (ringOf (getPart t (partOf (getCore t ci))) r).policy = 2) :
    let u := dropOld t (partOf (getCore t ci)) r y.d1
    chainEvent s ci k 3 = .next (if satisfied (counterOf (getPart u (partOf (getCore t ci))) y.ring) y.d1
      then modCore (modChain u ci k chainNext) ci fun c => sentOn c (2 + k) else modChain u ci k fun z => { z with st := .wait }) := by
  intro u
  have hv : chainEffect t ci k y = _ := (chainEffect_wait hop).trans (chainWaitRun_dropsOld hsat hr hp)
  have hu : chainOf (getCore u ci) k = chainOf (getCore s ci) k := h.chainOf_of_front (front_dropOld ..)
  split
  · next hg => exact h.completes (hv.trans (if_pos hg)) hu (h.event_effect hop hs) (entryDone_chainNext _ 3)
  · next hg => exact h.holds (hv.trans (if_neg hg)) hu (h.event_effect hop hs) (entryDone_waits _ (by decide) _)

end Wait

end SoundEntry

/-! ## The entries that DROP_NEW skips (R354) -/

namespace SoundEntry

variable {s t : State} {ci k r n : Nat} {b : List Byte} {y : Entry} (h : SoundEntry s ci k t b y)
  (hs : (chainOf (getCore s ci) k).skip = some (r, n))
include h hs

theorem skip_end (hop : y.op = 0) (hi : slotCopies (getCore t ci) k = false) : chainEvent s ci k 0 =
    .next (modCore (modChain (dropNew t (partOf (getCore t ci)) r n) ci k fun z => { chainGo z .done with skip := none }) ci
      fun c => sentOn c (2 + k)) :=
  h.completes (chainSkip_end hi hop) (h.chainOf_of_front (front_dropNew ..)) (h.event_skips hop hs)
    ((entryDone_skip ..).trans (entryDone_over _ 0))

theorem skip_pub (hop : y.op = 4) (hp : y.ring = (ringOf (getPart t (partOf (getCore t ci))) r).pubc.toNat) : chainEvent s ci k 4 =
    .next (modCore (modChain (dropNew t (partOf (getCore t ci)) r n) ci k fun z => { chainNext z with skip := none }) ci
      fun c => sentOn c (2 + k)) :=
  h.completes (chainSkip_pub hop hp) (h.chainOf_of_front (front_dropNew ..)) (h.event_skips hop hs)
    ((entryDone_skip ..).trans (entryDone_chainNext _ 4))

theorem skip_link (hop : y.op = 5) : chainEvent s ci k 5 = .next (modCore (modChain t ci k
    fun z => { z with cpc := BitVec.ofNat 64 y.d1, st := .run }) ci fun c => sentOn c (2 + k)) :=
  h.completes (chainSkip_link hop) h.chainOf_eq (h.event_skips hop hs) rfl

theorem skip_passes {op : Nat} (hop : y.op = op) (h0 : op ≠ 0) (h5 : op ≠ 5)
    (h4 : op = 4 → y.ring ≠ (ringOf (getPart t (partOf (getCore t ci))) r).pubc.toNat) :
    chainEvent s ci k op = .next (modCore (modChain t ci k chainNext) ci fun c => sentOn c (2 + k)) :=
  h.completes (chainSkip_passes (hop.trans_ne h0) (hop.trans_ne h5) fun ho => h4 (hop.symm.trans ho)) h.chainOf_eq (h.event_skips hop hs)
    (entryDone_chainNext _ op)

end SoundEntry

/-- The marks before the first that is set. -/
theorem length_takeWhile_not {m : List Bool} {i : Nat} (hi : m[i]? = some true) (hlt : ∀ j < i, m[j]? = some false) :
    (m.takeWhile (!·)).length = i := by
  induction m generalizing i with
  | nil => simp at hi
  | cons x m ih =>
    cases i with
    | zero =>
      obtain rfl : x = true := by simpa using hi
      rfl
    | succ i =>
      obtain rfl : x = false := by simpa using hlt 0 (Nat.succ_pos i)
      have := ih (i := i) (by simpa using hi) fun j hj => by simpa using hlt (j + 1) (Nat.succ_lt_succ hj)
      simpa using this

/-- Settles O45: each step is one of its cases. -/
theorem chainEvents : Obligations.ChainEvents := by
  unfold Obligations.ChainEvents
  intro s ci k hci hk c x set ends on
  have hev (op : Nat) := chainEvent_next (s := s) hci hk op
  refine ⟨fun tg pa s1 b m hrun hlive hacc hpin hread => ?entry, fun t hrun hlive hacc => ?fault, fun tg pa hrun hlive hacc hpin => ?pinned,
    fun a hrun hlive hkick => ?kick⟩
  case entry =>
    intro y t sent part ring d sound good idle stop
    have h : ReadsEntry s ci k t b m := ⟨hrun, hlive, tg, pa, hacc, hpin, hread⟩
    have sane (hg : sound) : SoundEntry s ci k t b y := ⟨hci, hk, rfl, ⟨m, h, hg.1⟩, hg.2⟩
    refine ⟨fun i hi hlt => ?marked, fun hm hb => (hev 0).trans (congrArg _ (h.chainStep_malformed hm hb)),
      fun ⟨hg, hs⟩ hop hi => (sane hg).event_end hs hi hop, ?held, ?copy, fun ⟨hg, hs⟩ hop hsat => (sane hg).event_satisfied hs hop hsat,
      fun ⟨hg, hs⟩ hop hsat hr => (sane hg).event_waits hs hop (chainWaitRun_noRing hsat hr), fun r ⟨hg, hs⟩ hop hsat hr => ?ring,
      fun r n hg hs => ?skip, fun r n => rfl, fun r n => ?dropOld, fun ⟨hg, hs⟩ hop hi => (sane hg).event_post hs hi hop,
      fun ⟨hg, hs⟩ hop => (sane hg).event_link hs hop, fun ⟨hg, hs⟩ hop hi => (sane hg).event_flag hs hi hop,
      fun ⟨hg, hs⟩ hop hi => (sane hg).event_arrive hs hi hop⟩
    case marked =>
      have hm : m.any id = true := List.any_eq_true.mpr ⟨true, List.mem_of_getElem? hi, rfl⟩
      refine (hev 0).trans (congrArg _ ((h.chainStep_marked hm).trans ?_))
      rw [length_takeWhile_not hi hlt]
      rfl
    case held =>
      have hheld {op : Nat} (ho : OrdersCopies op) (hg : good) (hop : y.op = op) (hi : ¬ idle) :=
        (sane hg.1).event_held hg.2 hop ho (Bool.not_eq_false _ ▸ hi)
      simp only [List.forall_mem_cons]
      exact ⟨hheld (.inl rfl), hheld (.inr (.inl rfl)), hheld (.inr (.inr (.inl rfl))), hheld (.inr (.inr (.inr rfl))), List.forall_mem_nil _⟩
    case copy =>
      have hcopies {op : Nat} (ho : op = 1 ∨ op = 2) (hg : good) (hop : y.op = op) := (sane hg.1).event_copy hg.2 hop ho
      simp only [List.forall_mem_cons]
      exact ⟨hcopies (.inl rfl), hcopies (.inr rfl), List.forall_mem_nil _⟩
    case ring =>
      exact ⟨fun h1 h2 => (sane hg).event_waits hs hop (chainWaitRun_blocks hsat hr h1 h2),
        (sane hg).event_dropsOld hs hop hsat hr, (sane hg).event_dropsNew hs hop hsat hr⟩
    case skip =>
      have hpass {op : Nat} (ho : op ≠ 0 ∧ op ≠ 4 ∧ op ≠ 5) (hop : y.op = op) := by
        obtain ⟨h0, h4, h5⟩ := ho
        exact (sane hg).skip_passes hs hop h0 h5 fun h => absurd h h4
      simp only [List.forall_mem_cons]
      exact ⟨fun hop => (sane hg).skip_end hs hop, fun hop => (sane hg).skip_pub hs hop,
        fun hop hp => (sane hg).skip_passes hs hop (by decide) (by decide) fun _ => hp, fun hop => (sane hg).skip_link hs hop,
        hpass (by decide), hpass (by decide), hpass (by decide), hpass (by decide), hpass (by decide), List.forall_mem_nil _⟩
    case dropOld =>
      intro z ahead items fresh u
      exact ⟨fun h => if_pos h, fun h0 h1 => if_neg (not_or.mpr ⟨Nat.ne_of_gt h0, Nat.not_le.mpr h1⟩)⟩
  case fault =>
    intro u e
    exact (hev 0).trans (congrArg _ (chainStep_faults hrun hlive hacc))
  case pinned => exact (hev 0).trans (congrArg _ (chainStep_pinned hrun hlive hacc hpin))
  case kick =>
    exact (if_neg (not_or.mpr ⟨Nat.not_le.mpr hci, Nat.not_le.mpr hk⟩)).trans (congrArg _ (startPending_starts hrun hlive hkick))

end Sys2Proof.Machine
end

section
/-! O49. The read of a request leaves its line in the die cache, where the request is refused for the place of its record too. -/

namespace Sys2Proof.Machine

/-- The package at reset, with a doorbell value that names a request of partition 0 at address 0: dword 3 is 1, which is no multiple of 16 and so
no place for a record (R393). -/
def stateNoPlace : State := { State.reset with mem := [(24, 1)], doorbells := [0] }

/-- That state once the doorbell value has been taken, before the request is read. -/
def takenNoPlace : State := { stateNoPlace with doorbells := [] }

/-- The state once the request has been read. -/
def readNoPlace : State := (touchSector takenNoPlace 0 (firmwareCore takenNoPlace (homeOf takenNoPlace 0)) none 0 32 0).1

/-- The lines that die 0's cache holds in the state that a step answers. -/
def linesAnswered (o : Host.Outcome State Fault Refusal) : List Nat :=
  match o with
  | .next t => (getDie t 0).dcache.map DcLine.line
  | _ => []

/-- The doorbell value names a request in device memory. -/
theorem stateNoPlace_named : fieldOf (0 : BitVec 64) 52 4 = 0 ∧ fieldOf (0 : BitVec 64) 59 5 = 0 ∧ fieldOf (0 : BitVec 64) 0 52 % 32 = 0 ∧
    deviceRange takenNoPlace (fieldOf (0 : BitVec 64) 0 52) 32 = true := by
  decide +kernel

/-- Its dword 3 is 1. -/
theorem readNoPlace_dword : leNat (memBytes readNoPlace.mem 24 8) % 16 = 1 := by decide +kernel

/-- The step reads the request, which brings line 0 into the die cache (R170). -/
theorem loadRequest_stateNoPlace : linesAnswered (exec .loadRequest stateNoPlace) = [0] := by decide +kernel

/-- The statement's own answer is the state before that read. -/
theorem endRequest_takenNoPlace : linesAnswered (.next (endRequest takenNoPlace 12)) = [] := by decide +kernel

/-- Refutes O49: its clause for a request that names no place of a record (R393) ends the request in the state before its dwords are read. The
model ends it in the state after the read, where the die cache holds the request's line. -/
theorem not_hostEvents : ¬ Obligations.HostEvents := by
  unfold Obligations.HostEvents
  intro h
  obtain ⟨-, -, -, -, -, -, -, -, -, -, -, -, -, -, -, -, -, -, -, -, -, -, -, -, -, -, -, -, -, -, hload, -⟩ :=
    h stateNoPlace 0 0 0 0 0 0 0 0 0 0 0 0 0 0 [] (.signal 0 0) 0 0 .add 0 0 (by decide) (by decide) (by decide) (by decide) (by decide)
      (by decide) (by decide)
  obtain ⟨-, hplace, -⟩ := hload [] rfl
  have hanswer : exec .loadRequest stateNoPlace = .next (endRequest takenNoPlace 12) :=
    hplace stateNoPlace_named fun ⟨_, _, hmod, _⟩ => absurd (readNoPlace_dword.symm.trans hmod) (by decide)
  have hlines := loadRequest_stateNoPlace
  rw [hanswer, endRequest_takenNoPlace] at hlines
  exact absurd hlines (by decide)

end Sys2Proof.Machine
end

section
/-! O25. The element-wise effect. -/

namespace Sys2Proof.Machine

/-! ## One element (R187, R188) -/

section ElementWise

variable (on : Nat → Bool) (p : Elem) (op : ElemOp)

/-- What the element-wise effect writes to the place of element `k`. -/
def elemResult (k : Nat) (x y z : Elem) : Option Elem :=
  if on k = false then none else if x.2 || y.2 || z.2 then some p else some ((op x.1 y.1 z.1).1, false)

/-- The flags of element `k`: none where it is inactive or poison. -/
def elemFlags (k : Nat) (x y z : Elem) : Flg :=
  if on k = true ∧ (x.2 || y.2 || z.2) = false then (op x.1 y.1 z.1).2 else {}

@[simp] theorem elemFlags_inactive {k : Nat} (h : on k = false) (x y z : Elem) : elemFlags on op k x y z = {} :=
  if_neg fun hk => Bool.eq_false_iff.mp h hk.1

/-- No flags add none. -/
@[simp] theorem Flg.none_or (f : Flg) : Flg.or {} f = f := by
  cases f
  simp [Flg.or]

/-- The effect on the first elements and on the rest. -/
theorem opElems_cons (i : Nat) (x y z : Elem) (a b d : List Elem) :
    opElems on p op i (x :: a) (y :: b) (z :: d) =
      (elemResult on p op i x y z :: (opElems on p op (i + 1) a b d).1,
        (elemFlags on op i x y z).or (opElems on p op (i + 1) a b d).2) := by
  cases hon : on i <;> cases hp : x.2 || y.2 || z.2 <;> simp [opElems, elemResult, elemFlags, hon, hp]

/-! ## All elements (R189) -/

variable {a b d : List Elem}

/-- The effect gives one result for each element. -/
theorem opElems_length (i : Nat) (hab : a.length = b.length) (hbd : b.length = d.length) :
    (opElems on p op i a b d).1.length = a.length := by
  induction a generalizing i b d with
  | nil => simp [opElems]
  | cons x a ih =>
    obtain ⟨y, b, rfl⟩ := List.exists_cons_of_length_eq_add_one hab.symm
    obtain ⟨z, d, rfl⟩ := List.exists_cons_of_length_eq_add_one (hbd.symm.trans hab.symm)
    rw [opElems_cons, List.length_cons, List.length_cons, ih (i + 1) (Nat.succ.inj hab) (Nat.succ.inj hbd)]

/-- The result at place `k` is that of the elements there. -/
theorem opElems_getElem? {k : Nat} {x y z : Elem} (i : Nat) (hx : a[k]? = some x) (hy : b[k]? = some y) (hz : d[k]? = some z) :
    (opElems on p op i a b d).1[k]? = some (elemResult on p op (i + k) x y z) := by
  induction a generalizing i k b d with
  | nil => cases hx
  | cons x' a ih => cases b with
    | nil => cases hy
    | cons y' b => cases d with
      | nil => cases hz
      | cons z' d =>
        rw [opElems_cons]
        cases k with
        | zero => cases hx; cases hy; cases hz; rfl
        | succ k => rw [List.getElem?_cons_succ, ih (i + 1) hx hy hz, Nat.add_right_comm, Nat.add_assoc]

/-- A field of the flags that an OR of flags sets where one of them does. -/
structure FlagField (f : Flg → Bool) : Prop where
  none : f {} = false
  or : ∀ x y : Flg, f (x.or y) = (f x || f y)

theorem flagField_mem : ∀ f ∈ [Flg.sat, Flg.subst, Flg.nv, Flg.dz, Flg.of, Flg.uf, Flg.nx], FlagField f := by
  repeat rw [List.forall_mem_cons]
  exact ⟨⟨rfl, fun _ _ => rfl⟩, ⟨rfl, fun _ _ => rfl⟩, ⟨rfl, fun _ _ => rfl⟩, ⟨rfl, fun _ _ => rfl⟩, ⟨rfl, fun _ _ => rfl⟩,
    ⟨rfl, fun _ _ => rfl⟩, ⟨rfl, fun _ _ => rfl⟩, List.forall_mem_nil _⟩

/-- An element sets a flag if it is active and free of poison and the operation sets it. -/
theorem elemFlags_field {f : Flg → Bool} (hf : FlagField f) (k : Nat) (x y z : Elem) :
    f (elemFlags on op k x y z) = true ↔ on k = true ∧ (x.2 || y.2 || z.2) = false ∧ f (op x.1 y.1 z.1).2 = true := by
  unfold elemFlags
  split
  · next h => simp [h.1, h.2]
  · next h => exact iff_of_false (Bool.eq_false_iff.mp hf.none) fun ⟨hon, hp, _⟩ => h ⟨hon, hp⟩

/-- A flag is set if some element sets it. -/
theorem opElems_field {f : Flg → Bool} (hf : FlagField f) (i : Nat) :
    f (opElems on p op i a b d).2 = true ↔
      ∃ k x y z, a[k]? = some x ∧ b[k]? = some y ∧ d[k]? = some z ∧ f (elemFlags on op (i + k) x y z) = true := by
  induction a generalizing i b d with
  | nil => simp [opElems, hf.none]
  | cons x a ih => cases b with
    | nil => simp [opElems, hf.none]
    | cons y b => cases d with
      | nil => simp [opElems, hf.none]
      | cons z d =>
        rw [opElems_cons, hf.or, Bool.or_eq_true, ih (i + 1)]
        refine Iff.trans (or_congr ?_ ?_) Nat.or_exists_add_one
        · simp only [List.getElem?_cons_zero, Option.some.injEq, exists_eq_left', exists_and_left, Nat.add_zero]
        · simp only [List.getElem?_cons_succ, Nat.add_right_comm i 1, Nat.add_assoc]

/-- Without an active element there are no flags. -/
theorem opElems_inactive (i : Nat) (h : ∀ k, on (i + k) = false) : (opElems on p op i a b d).2 = {} := by
  induction a generalizing i b d with
  | nil => rfl
  | cons x a ih => cases b with
    | nil => rfl
    | cons y b => cases d with
      | nil => rfl
      | cons z d =>
        rw [opElems_cons, elemFlags_inactive on op (show on i = false from h 0), Flg.none_or]
        exact ih (i + 1) fun k => by rw [Nat.add_right_comm]; exact h (k + 1)

end ElementWise

/-- Settles O25, by induction on the elements: each result and each flag is that of one element. -/
theorem elementWise : Obligations.ElementWise := by
  unfold Obligations.ElementWise
  intro on p op i a b d hab hbd
  refine ⟨opElems_length on p op i hab hbd, fun k ha hb hd => ?result, fun f hf => ?flag, opElems_inactive on p op i⟩
  case result =>
    exact opElems_getElem? on p op i (List.getElem?_eq_getElem ha) (List.getElem?_eq_getElem hb) (List.getElem?_eq_getElem hd)
  case flag =>
    have hfield := flagField_mem f hf
    rw [opElems_field on p op hfield i]
    simp only [elemFlags_field on op hfield]

end Sys2Proof.Machine
end

section
/-! SUPPORT for O26 to O29. How a word ends whose meaning is one of the shared meanings of the vector forms. -/

namespace Sys2Proof.Machine

/-! ## The operands at hand (R65, R222) -/

/-- No queued matrix operation names the bytes of a register among those that a word names. -/
theorem any_mxHolds {rd c : Core} {l : List Nat} (h : ∀ n ∈ l, mxHolds rd c n = false) : l.any (mxHolds rd c) = false :=
  List.any_eq_false.mpr fun n hn => Bool.eq_false_iff.mp (h n hn)

/-- Registers by their fields are registers by number. -/
theorem forall_mxHolds_toNat {rd c : Core} {l : List (BitVec 6)} (h : ∀ x ∈ l, mxHolds rd c x.toNat = false) :
    ∀ n ∈ l.map (fun x => x.toNat), mxHolds rd c n = false :=
  List.forall_mem_map.mpr h

/-- No queued matrix operation names the bytes of a register among those of some fields. -/
theorem any_mxHolds_toNat {rd c : Core} {l : List (BitVec 6)} (h : ∀ x ∈ l, mxHolds rd c x.toNat = false) :
    (l.map fun x => x.toNat).any (mxHolds rd c) = false :=
  any_mxHolds (forall_mxHolds_toNat h)

section Ends

variable {i : Instr} {dsts : List (BitVec 6)} {s u w : State} {names srcs : List Nat} {vs : List (List Lane)}

/-- A word on vector registers that issues completes as its meaning does on the vectors that they hold. -/
theorem exec_kVec {k : Env → List (List Lane) → State → Res}
    (hi : exec i s = issueI (encodeNat i) dsts s fun e s => kVec e s names srcs (k e)) (h : MayIssue (encodeNat i) dsts 0 tkNone s) :
    let e := issueEnv tkNone s
    (∀ n ∈ names, mxHolds e.rd (getCore s s.focusCore) n = false) → vecSources e s srcs = some (vs, u) → k e vs u = .done w →
      exec i s = .next (goOn tkNone s w) :=
  fun hf hs hk => exec_completes hi h (kVec_done (any_mxHolds hf) hs hk)

/-- A word that places elements without flags. -/
theorem exec_placeV {d : BitVec 6} {t : BitVec 4} {g : Env → List (List Lane) → List (Option Elem)} {es : List (Option Elem)}
    (hi : exec i s = issueI (encodeNat i) dsts s fun e s => kVec e s names srcs fun vs s => finishV e s d t (g e vs, {}))
    (h : MayIssue (encodeNat i) dsts 0 tkNone s) :
    let e := issueEnv tkNone s
    (∀ n ∈ names, mxHolds e.rd (getCore s s.focusCore) n = false) → vecSources e s srcs = some (vs, u) → g e vs = es →
      vecWrite e u d.toNat (typeWidth t) es = some w → exec i s = .next (goOn tkNone s (addFlags w s.focusCore {})) :=
  fun hf hs hg hw => exec_kVec hi h hf hs (finishV_elems hg hw)

end Ends

end Sys2Proof.Machine
end

section
/-! O26. The element-wise vector forms. -/

namespace Sys2Proof.Machine

section Forms

variable {i : Instr} {s u w : State} {d a b : BitVec 6} {m : BitVec 3} {t : BitVec 4} {vs : List (List Lane)} {es : List (Option Elem)} {fl : Flg}

/-- A binary form that issues writes its elements and sets their flags (R193). -/
theorem exec_binaryV {op : Env → ElemOp} {f : ElemOp} (hi : exec i s = issueI (encodeNat i) [] s fun e s => binaryV e s d a b m t (op e))
    (hop : op (issueEnv tkNone s) = f) (h : MayIssue (encodeNat i) [] 0 tkNone s) :
    let e := issueEnv tkNone s
    (∀ x ∈ [d, a, b], mxHolds e.rd (getCore s s.focusCore) x.toNat = false) → vecSources e s [a.toNat, b.toNat] = some (vs, u) →
      opElems (maskBit e.rd.a m.toNat) (poisonElem t) f 0 (elems t (nth [] vs 0)) (elems t (nth [] vs 1)) (noElems t) = (es, fl) →
      vecWrite e u d.toNat (typeWidth t) es = some w → exec i s = .next (goOn tkNone s (addFlags w s.focusCore fl)) := by
  subst hop
  exact fun hf hs ho hw => exec_completes hi h (binaryV_done (any_mxHolds_toNat hf) hs ho hw)

/-- A fused form whose vd is no port, likewise (R194). -/
theorem exec_fusedV {op : Env → ElemOp} {f : ElemOp} (hi : exec i s = issueI (encodeNat i) [] s fun e s => fusedV e s d a b m t (op e))
    (hop : op (issueEnv tkNone s) = f) (h : MayIssue (encodeNat i) [] 0 tkNone s) :
    let e := issueEnv tkNone s
    (∀ x ∈ [d, a, b], mxHolds e.rd (getCore s s.focusCore) x.toNat = false) → portOf e.rd d.toNat = none →
      vecSources e s [a.toNat, b.toNat] = some (vs, u) →
      opElems (maskBit e.rd.a m.toNat) (poisonElem t) f 0 (elems t (nth [] vs 0)) (elems t (nth [] vs 1)) (elems t (readV e.rd d.toNat)) = (es, fl) →
      vecWrite e u d.toNat (typeWidth t) es = some w → exec i s = .next (goOn tkNone s (addFlags w s.focusCore fl)) := by
  subst hop
  exact fun hf hp hs ho hw => exec_completes hi h (fusedV_done (any_mxHolds_toNat hf) hp hs ho hw)

/-- A unary form, likewise (R200). -/
theorem exec_unaryV {op : Env → Nat → Nat × Flg} {f : Nat → Nat × Flg}
    (hi : exec i s = issueI (encodeNat i) [] s fun e s => unaryV e s d a m t (op e)) (hop : op (issueEnv tkNone s) = f)
    (h : MayIssue (encodeNat i) [] 0 tkNone s) :
    let e := issueEnv tkNone s
    (∀ x ∈ [d, a], mxHolds e.rd (getCore s s.focusCore) x.toNat = false) → vecSources e s [a.toNat] = some (vs, u) →
      opElems (maskBit e.rd.a m.toNat) (poisonElem t) (fun x _ _ => f x) 0 (elems t (nth [] vs 0)) (noElems t) (noElems t) = (es, fl) →
      vecWrite e u d.toNat (typeWidth t) es = some w → exec i s = .next (goOn tkNone s (addFlags w s.focusCore fl)) := by
  subst hop
  exact fun hf hs ho hw => exec_completes hi h (unaryV_done (any_mxHolds_toNat hf) hs ho hw)

end Forms

/-- Settles O26: each form is one operation on the elements of its sources. -/
theorem vectorArithmetic : Obligations.VectorArithmetic := by
  unfold Obligations.VectorArithmetic
  intro s u w d a b m t vs es fl e md on free wd two int kept
  refine ⟨?binary, ?fused, ?unary⟩
  case binary =>
    repeat rw [List.forall_mem_cons]
    exact ⟨exec_binaryV (exec_vadd d a b m t s) rfl, exec_binaryV (exec_vsub d a b m t s) rfl, exec_binaryV (exec_vmul d a b m t s) rfl,
      exec_binaryV (exec_vmin d a b m t s) rfl, exec_binaryV (exec_vmax d a b m t s) rfl, exec_binaryV (exec_vdiv d a b m t s) rfl,
      exec_binaryV (exec_vand d a b m t s) rfl, exec_binaryV (exec_vor d a b m t s) rfl, exec_binaryV (exec_vxor d a b m t s) rfl,
      exec_binaryV (exec_vsll d a b m t s) rfl, exec_binaryV (exec_vsrl d a b m t s) rfl, exec_binaryV (exec_vsra d a b m t s) rfl,
      exec_binaryV (exec_vadds d a b m t s) rfl, exec_binaryV (exec_vsubs d a b m t s) rfl, exec_binaryV (exec_vmulh d a b m t s) rfl,
      exec_binaryV (exec_vabsd d a b m t s) rfl, exec_binaryV (exec_vavg d a b m t s) rfl, List.forall_mem_nil _⟩
  case fused =>
    repeat rw [List.forall_mem_cons]
    exact ⟨exec_fusedV (exec_vfma d a b m t s) rfl, exec_fusedV (exec_vfms d a b m t s) rfl, exec_fusedV (exec_vfnma d a b m t s) rfl,
      List.forall_mem_nil _⟩
  case unary =>
    repeat rw [List.forall_mem_cons]
    exact ⟨exec_unaryV (exec_vabs d a m t s) rfl, exec_unaryV (exec_vneg d a m t s) rfl, exec_unaryV (exec_vsqrt d a m t s) rfl,
      exec_unaryV (exec_vrecip d a m t s) rfl, exec_unaryV (exec_vrsqrt d a m t s) rfl, exec_unaryV (exec_vnot d a m t s) rfl,
      exec_unaryV (exec_vclz d a m t s) rfl, exec_unaryV (exec_vpopc d a m t s) rfl, exec_unaryV (exec_vrint d a m t s) rfl,
      List.forall_mem_nil _⟩

end Sys2Proof.Machine
end

section
/-! O27. Moves, selects, permutations, slides, classes and conversions. -/

namespace Sys2Proof.Machine

/-! ## The push that a slide may owe (R199, R209) -/

theorem firstPsn_zeroVec : firstPsn 0 zeroVec = none := rfl

/-- A push of zeros faults only for its port or its address, and so faults with any other vector too. -/
theorem pushPort_trap_of_zeroVec {s : State} {ci q : Nat} {x : Trap} (h : pushPort s ci q zeroVec = .trap x) (v : List Lane) :
    pushPort s ci q v = .trap x := by
  revert h
  unfold pushPort
  dsimp only
  rw [firstPsn_zeroVec]
  split
  case isTrue hinbound => exact id
  case isFalse houtbound =>
    split
    case isTrue hpast => nofun
    case isFalse hruns =>
      split
      case isTrue hlocal =>
        split
        · exact id
        · split <;> nofun
      case isFalse hglobal =>
        split
        · exact id
        · dsimp only
          split
          · nofun
          · split <;> nofun

/-- Where elements can be written, no push faults. -/
theorem pushTrap_none {e : Env} {s w : State} {n wd : Nat} {es : List (Option Elem)} (hw : vecWrite e s n wd es = some w) :
    pushTrap e s n = none := by
  unfold pushTrap
  unfold vecWrite at hw
  revert hw
  rcases portOf e.rd n with _ | q
  · exact fun _ => rfl
  · dsimp only
    intro hw
    split
    · next x hx =>
      rw [pushPort_trap_of_zeroVec hx] at hw
      cases hw
    · rfl

/-- Elements slid by their distance (R199). -/
theorem slideElems_eq (n k : Nat) (up rot : BitVec 1) (l : List Elem) :
    slideElems n k (up == 1) (rot == 1) l = (List.range n).map fun (i : Nat) =>
      let j : Int := if up = 1 then (i : Int) - k else (i : Int) + k
      some (if rot = 1 then nth (0, false) l (j % (n : Int)).toNat else if 0 ≤ j ∧ j < n then nth (0, false) l j.toNat else (0, false)) := by
  simp only [slideElems, beq_iff_eq]

/-! ## Slides and conversions (R199, R201, R202) -/

section Ends

variable {e : Env} {s u w : State} {d a b : BitVec 6} {t : BitVec 4} {vs : List (List Lane)} {es : List (Option Elem)}

/-- A slide by a distance that is not poisoned (R199). -/
theorem slideV_done {rot up : BitVec 1} (hf : [d.toNat, a.toNat].any (mxHolds e.rd (getCore s e.ci)) = false) (hb : (e.x b).psn = false)
    (hs : vecSources e s [a.toNat] = some (vs, u))
    (ho : slideElems (elemCount t) (e.x b).val.toNat (up == 1) (rot == 1) (rawElems t (nth [] vs 0)) = es)
    (hw : vecWrite e u d.toNat (typeWidth t) es = some w) : slideV e s d a b rot up t = .done (addFlags w e.ci {}) := by
  refine kVec_done hf hs ?_
  rw [pushTrap_none hw]
  exact (consume_one hb _).trans (finishV_elems ho hw)

/-- A conversion of a group of registers, none of them a port (R201, R202). -/
theorem convertV_done {sat : BitVec 1} {ts : BitVec 4} {m : BitVec 3} {srcs dsts : List Nat} {k : Nat} {fl : Flg}
    (hsrcs : (List.range (if typeWidth t < typeWidth ts then cvtGroup ts t else 1)).map (fun i => a.toNat + i) = srcs)
    (hk : (if typeWidth ts < typeWidth t then cvtGroup ts t else 1) = k) (hdsts : (List.range k).map (fun i => d.toNat + i) = dsts)
    (hp : portsOf e.rd (if cvtGroup ts t = 1 then [] else if typeWidth t < typeWidth ts then srcs else dsts) = [])
    (hf : (dsts ++ srcs).any (mxHolds e.rd (getCore s e.ci)) = false) (hs : vecSources e s srcs = some (vs, u))
    (ho : convertElems ts t (modeOf e.rd.a m) (sat == 1) (vs.flatMap (elems ts)) = (es, fl))
    (hw : vecWrites e d.toNat (typeWidth t) (elemCount t) k u es = some w) :
    convertV e s d a sat t m ts = .done (addFlags w e.ci (fl.or { subst := ts == 13 || ts == 14 })) := by
  subst hsrcs hk hdsts
  unfold convertV
  dsimp only
  rw [hp]
  refine kVec_done hf hs ?_
  rw [List.length_map, List.length_range, ho]
  exact storeGroup_write _ hw

end Ends

/-- Settles O27: each form places the elements of its sources, and only the conversion computes any. -/
theorem vectorMoves : Obligations.VectorMoves := by
  unfold Obligations.VectorMoves
  intro s u w d a b m t ts rot up sat vs es fl e on free n v
  refine ⟨?moves, fun h hf hs hc hw => ?vclass, ?vmov, fun h hf hb hs => ?vslide, ?vcvt⟩
  case moves =>
    repeat rw [List.forall_mem_cons]
    exact ⟨exec_placeV (exec_vsel d a b m t s), exec_placeV (exec_vperm d a b m t s), exec_placeV (exec_vzipLo d a b t s),
      exec_placeV (exec_vzipHi d a b t s), exec_placeV (exec_vuzpEv d a b t s), exec_placeV (exec_vuzpOd d a b t s), List.forall_mem_nil _⟩
  case vclass =>
    subst hc
    exact exec_kVec (exec_vclass d a m t s) h hf hs (finishV_elems rfl hw)
  case vmov => exact exec_placeV (exec_vmov d a m t s)
  case vslide =>
    intro k ho hw
    exact exec_completes (exec_vslide d a b rot up t s) h
      (slideV_done (any_mxHolds hf) hb hs ((slideElems_eq ..).trans ho) hw)
  case vcvt =>
    intro g srcs k dsts h hp hf hs ho hw
    exact exec_completes (exec_vcvt d a sat t m ts s) h (convertV_done rfl rfl rfl hp (any_mxHolds hf) hs ho hw)

end Sys2Proof.Machine
end

section
/-! O28. Compares into masks, and the mask forms. -/

namespace Sys2Proof.Machine

/-- A mask register written, m0 by its field (R61). -/
theorem setMask_toNat (s : State) (ci : Nat) (d : BitVec 6) (v : BitVec 256) :
    setMask s ci d.toNat v = if d = 0 then s else modArch s ci fun a => { a with masks := vset a.masks d.toNat v } := by
  unfold setMask
  exact if_congr (BitVec.toNat_inj (y := 0)) rfl rfl

section Masks

variable {i : Instr} {s u w : State} {d a b : BitVec 6} {m : BitVec 3} {t : BitVec 4}

/-- A compare that issues writes its mask and sets its flags (R195). -/
theorem exec_compareV {code k : Nat} {vs : List (List Lane)} {fl : Flg}
    (hi : exec i s = issueI (encodeNat i) [] s fun e s => compareV e s code d a b m t) (h : MayIssue (encodeNat i) [] 0 tkNone s) :
    let e := issueEnv tkNone s
    let on := maskBit e.rd.a m.toNat
    mxHolds e.rd (getCore s s.focusCore) a.toNat = false → mxHolds e.rd (getCore s s.focusCore) b.toNat = false →
      vecSources e s [a.toNat, b.toNat] = some (vs, u) → activePsn on 0 (elems t (nth [] vs 0)) (elems t (nth [] vs 1)) = none →
      cmpElems on t code 0 (elems t (nth [] vs 0)) (elems t (nth [] vs 1)) = (k, fl) →
      exec i s = .next (goOn tkNone s (addFlags (if d = 0 then u else modArch u s.focusCore fun ar =>
        { ar with masks := vset ar.masks d.toNat (BitVec.ofNat 256 k) }) s.focusCore fl)) := by
  intro e on ha hb hs hp ho
  rw [← setMask_toNat]
  exact exec_completes hi h (compareV_done (any_mxHolds (List.forall_mem_cons.mpr ⟨ha, List.forall_mem_singleton.mpr hb⟩)) hs hp ho)

/-- A word that only writes a mask register (R206). -/
theorem exec_setMask {sem : Env → State → Res} {v : BitVec 256} (hi : exec i s = issueI (encodeNat i) [] s sem)
    (h : MayIssue (encodeNat i) [] 0 tkNone s) (hv : sem (issueEnv tkNone s) s = .done (setMask s s.focusCore d.toNat v)) :
    exec i s = .next (goOn tkNone s (if d = 0 then s else modArch s s.focusCore fun ar => { ar with masks := vset ar.masks d.toNat v })) := by
  rw [← setMask_toNat]
  exact exec_completes hi h hv

end Masks

/-- Settles O28: each compare and each mask form writes one mask, register or vector. -/
theorem maskResults : Obligations.MaskResults := by
  unfold Obligations.MaskResults
  intro s u w d a b m t vs es k fl e on put mv
  refine ⟨?compares, ?logic, fun h ha => ?mlen, fun h => ?mpopc, fun h => ?mfirst, fun h hf hes hw => ?mtov⟩
  case compares =>
    repeat rw [List.forall_mem_cons]
    exact ⟨exec_compareV (exec_vcmpeq d a b m t s), exec_compareV (exec_vcmplt d a b m t s), exec_compareV (exec_vcmple d a b m t s),
      exec_compareV (exec_vcmpne d a b m t s), List.forall_mem_nil _⟩
  case logic =>
    repeat rw [List.forall_mem_cons]
    exact ⟨fun h => exec_setMask (exec_mand d a b s) h rfl, fun h => exec_setMask (exec_mor d a b s) h rfl,
      fun h => exec_setMask (exec_mxor d a b s) h rfl, fun h => exec_setMask (exec_mandn d a b s) h rfl, List.forall_mem_nil _⟩
  case mlen => exact exec_setMask (exec_mlen d a s) h (consume_one ha _)
  case mpopc => exact exec_completes (exec_mpopc d a s) h rfl
  case mfirst => exact exec_completes (exec_mfirst d a s) h rfl
  case mtov =>
    subst hes
    exact exec_kVec (exec_mtov d a s) h (List.forall_mem_singleton.mpr hf) rfl (storeE_write hw)

end Sys2Proof.Machine
end

section
/-! O29. Reductions, scans, scalars into and out of vectors, and the views. -/

namespace Sys2Proof.Machine

/-! ## Reductions and scans (R203 to R205) -/

section Reductions

variable {i : Instr} {s u w : State} {d a : BitVec 6} {m : BitVec 3} {t : BitVec 4} {vs : List (List Lane)} {es : List (Option Elem)} {fl : Flg}

/-- A reduction that issues writes its value into element 0, and +0 into the others (R204). -/
theorem exec_reduceV {code : Nat} (hi : exec i s = issueI (encodeNat i) [] s fun e s => reduceV e s code d a m t)
    (h : MayIssue (encodeNat i) [] 0 tkNone s) :
    let e := issueEnv tkNone s
    let on := maskBit e.rd.a m.toNat
    let x := elems t (nth [] vs 0)
    (∀ x ∈ [d, a], mxHolds e.rd (getCore s s.focusCore) x.toNat = false) → vecSources e s [a.toNat] = some (vs, u) →
      let r := treeRun (redOp t (frmMode e.rd.a) code) (topBit (elemCount t)) (activeData on 0 x) {}
      (if (activePsn on 0 x x).isSome then (firstOnly (elemCount t) (poisonElem t), ({} : Flg))
        else (firstOnly (elemCount t) ((match r.1 with | some y :: _ => y | _ => redIdentity t code), false), r.2)) = (es, fl) →
      vecWrite e u d.toNat (typeWidth t) es = some w → exec i s = .next (goOn tkNone s (addFlags w s.focusCore fl)) :=
  fun hf hs ho hw => exec_completes hi h (reduceV_done (any_mxHolds_toNat hf) hs ho hw)

/-- A scan that issues writes the running values (R205). -/
theorem exec_scanV {code : Nat} (hi : exec i s = issueI (encodeNat i) [] s fun e s => scanV e s code d a m t)
    (h : MayIssue (encodeNat i) [] 0 tkNone s) :
    let e := issueEnv tkNone s
    (∀ x ∈ [d, a], mxHolds e.rd (getCore s s.focusCore) x.toNat = false) → vecSources e s [a.toNat] = some (vs, u) →
      scanElems (maskBit e.rd.a m.toNat) (poisonElem t) (redOp t (frmMode e.rd.a) code) 0 none false (elems t (nth [] vs 0)) = (es, fl) →
      vecWrite e u d.toNat (typeWidth t) es = some w → exec i s = .next (goOn tkNone s (addFlags w s.focusCore fl)) :=
  fun hf hs ho hw => exec_completes hi h (scanV_done (any_mxHolds_toNat hf) hs ho hw)

end Reductions

/-! ## A scalar into an element (R208) -/

/-- An insertion at a place that is not poisoned, into a register that is no port. -/
theorem insertV_done {e : Env} {s w : State} {d a b : BitVec 6} {t : BitVec 4} {es : List (Option Elem)}
    (hf : [d.toNat].any (mxHolds e.rd (getCore s e.ci)) = false) (hb : (e.x b).psn = false) (hp : portOf e.rd d.toNat = none)
    (ho : onePlace (elemCount t) ((e.x b).val.toNat % elemCount t) ((e.x a).val.toNat % 2 ^ typeWidth t, (e.x a).psn) = es)
    (hw : vecWrite e s d.toNat (typeWidth t) es = some w) : insertV e s d a b t = .done (addFlags w e.ci {}) := by
  unfold insertV
  rw [hp]
  exact kVec_done hf rfl ((consume_one hb _).trans (finishV_elems ho hw))

/-! ## The views (R64) -/

theorem putVview_fields (a : Arch) (v : Word) : putVview a v = { a with vbase := v.extractLsb' 8 11, vrot := v.extractLsb' 24 6 } := by
  simp only [putVview, ofNat_fieldOf]

theorem putAview_fields (a : Arch) (v : Word) : putAview a v = { a with abase := v.extractLsb' 12 7 } := by
  simp only [putAview, ofNat_fieldOf]

/-- A word that writes fields of a view from a register that is not poisoned. -/
theorem exec_view {i : Instr} {s : State} {a : BitVec 6} {tk : Tk} {f : Arch → Word → Arch} {g : Arch → Arch}
    (hi : exec i s = issueE (encodeNat i) [] tk s fun e s => consume e [(a, 4)] (.done (modArch s e.ci fun ar => f ar (e.x a).val)))
    (hg : ∀ ar, f ar ((issueEnv tk s).x a).val = g ar) (h : MayIssue (encodeNat i) [] 0 tk s)
    (ha : ((issueEnv tk s).x a).psn = false) :
    exec i s = .next (goOn tk s (modArch (issued tk s) s.focusCore g)) := by
  obtain rfl := funext hg
  exact execE_completes hi h (consume_one ha _)

/-- Settles O29: each reduction and scan writes what its operation gives, each scalar form moves its elements, and a view its fields. -/
theorem reductionsAndScalars : Obligations.ReductionsAndScalars := by
  unfold Obligations.ReductionsAndScalars
  intro s u w d a b m t tk vs es fl e on free x op n first
  refine ⟨?reductions, fun h hf hs ho hw => ?vredSumw, ?scans, fun h hf ho hw => ?vsplat, fun h hf hb hs => ?vext,
    fun h hf hb hp ho hw => ?vins, fun h ha => ?vview, fun h ha => ?aview⟩
  case reductions =>
    repeat rw [List.forall_mem_cons]
    exact ⟨exec_reduceV (exec_vredSum d a m t s), exec_reduceV (exec_vredMin d a m t s), exec_reduceV (exec_vredMax d a m t s),
      exec_reduceV (exec_vredAnd d a m t s), exec_reduceV (exec_vredOr d a m t s), exec_reduceV (exec_vredXor d a m t s),
      List.forall_mem_nil _⟩
  case vredSumw =>
    subst ho
    exact exec_kVec (exec_vredSumw d a m t s) h (forall_mxHolds_toNat hf) hs (storeE_write hw)
  case scans =>
    repeat rw [List.forall_mem_cons]
    exact ⟨exec_scanV (exec_vscanSum d a m t s), exec_scanV (exec_vscanMin d a m t s), exec_scanV (exec_vscanMax d a m t s),
      List.forall_mem_nil _⟩
  case vsplat => exact exec_placeV (vs := []) (exec_vsplat d a m t s) h (forall_mxHolds_toNat hf) rfl ho hw
  case vext => exact exec_kVec (exec_vext d a b t s) h (forall_mxHolds_toNat hf) hs (consume_one hb _)
  case vins =>
    exact exec_completes (exec_vins d a b t s) h (insertV_done (any_mxHolds_toNat hf) hb hp ho hw)
  case vview => exact exec_view (exec_vview a tk s) (putVview_fields · _) h ha
  case aview => exact exec_view (exec_aview a tk s) (putAview_fields · _) h ha

end Sys2Proof.Machine
end

section
/-! SUPPORT for O30 to O32. What the words of the engines of K share: tables in the scratchpad, handles, and literals. -/

namespace Sys2Proof.Machine

/-! ## Operands that an engine reads -/

/-- The words of an aligned table are as many as it has (R137). -/
theorem markedWord_aligned {c : Core} {o : Word} (k : Nat) (ho : o.toNat % 4 = 0) : markedWord c o (4 * k) = firstMarked c (o.toNat / 4) k := by
  rw [markedWord, show (o.toNat + 4 * k + 3) / 4 - o.toNat / 4 = k by omega]

/-- Registers of which none is poisoned raise no trap (R102). -/
theorem poisonTrap_none {e : Env} {l : List (BitVec 6 × Nat)} (h : ∀ p ∈ l, (e.x p.1).psn = false) : poisonTrap e l = none := by
  induction l with
  | nil => rfl
  | cons p l ih =>
    obtain ⟨hp, hl⟩ := List.forall_mem_cons.mp h
    exact (if_neg (Bool.eq_false_iff.mp hp)).trans (ih hl)

/-- A meaning that consumes a register and the next one, neither of them poisoned. -/
theorem consumeN_next {e : Env} {x : BitVec 6} {j k : Nat} (hx : (e.x x).psn = false) (hk : (e.xk x 1).psn = false) (r : Res) :
    consumeN e [(x.toNat, j), (x.toNat + 1, k)] r = r := by
  unfold Env.x at hx
  unfold Env.xk at hk
  simp [consumeN, poisonTrapN, hx, hk]

/-- A meaning on a handle below 512 that is not poisoned. -/
theorem onHandle_named {e : Env} {y : BitVec 6} {k : Nat → Res} (hy : (e.x y).psn = false) (hv : (e.x y).val.toNat < 512) :
    onHandle e y k = k (e.x y).val.toNat :=
  (consume_one hy _).trans (if_neg (Nat.not_le.mpr hv))

/-- A count of a truth value is the count or nothing. -/
theorem mul_b2n (n : Nat) (b : Bool) : n * b2n b = if b then n else 0 := by
  rw [b2n, mul_ite, mul_one, mul_zero]

/-- A `vigil` that queues its check goes on past its literal (R71). -/
theorem execE_pastLiteral {i : Instr} {dsts : List (BitVec 6)} {tk : Tk} {s t : State} {sem : Env → State → Res}
    (hi : exec i s = issueE (encodeNat i) dsts tk s sem) (h : MayIssue (encodeNat i) dsts 0 tk s)
    (hs : sem (issueEnv tk s) (issued tk s) = .lit t) : exec i s = .next (goPastLiteral s t) :=
  hi.trans (issue_lit h hs)

end Sys2Proof.Machine
end

section
/-! O30. The tile words. -/

namespace Sys2Proof.Machine

/-! ## Changes of a tile (R215) -/

/-- Whether a tile may change: it holds still, and no operation that waits or runs names it. -/
def TileFree (e : Env) (s : State) (h : Nat) : Prop :=
  ((tileOf e.rd.a h).st = .empty ∨ (tileOf e.rd.a h).st = .ready) ∧ handleBusy (getCore s e.ci) h = false

/-- Whether a change of a tile waits: the tile fills, drains by an earlier region, or is named. -/
def TileAwaited (e : Env) (s : State) (h : Nat) : Prop :=
  (tileOf e.rd.a h).st = .filling ∨ ((tileOf e.rd.a h).st = .draining ∧ ownCopy e.rd h = false) ∨
    (((tileOf e.rd.a h).st = .empty ∨ (tileOf e.rd.a h).st = .ready) ∧ handleBusy (getCore s e.ci) h = true)

section Redefine

variable {e : Env} {s : State} {h : Nat} {f : Arch → Arch}

/-- A tile that holds still changes unless an operation names it. -/
theorem redefine_still (hst : (tileOf e.rd.a h).st = .empty ∨ (tileOf e.rd.a h).st = .ready) :
    redefine e s h f = if handleBusy (getCore s e.ci) h then .stall else .done (modArch s e.ci f) := by
  unfold redefine
  rcases hst with hst | hst <;> rw [hst]

theorem redefine_free (hf : TileFree e s h) : redefine e s h f = .done (modArch s e.ci f) := by
  obtain ⟨hst, hb⟩ := hf
  exact (redefine_still hst).trans (if_neg (Bool.eq_false_iff.mp hb))

theorem redefine_awaited (hw : TileAwaited e s h) : redefine e s h f = .stall := by
  rcases hw with hst | ⟨hst, ho⟩ | ⟨hst, hb⟩
  · unfold redefine
    rw [hst]
  · unfold redefine
    rw [hst]
    exact if_neg (Bool.eq_false_iff.mp ho)
  · exact (redefine_still hst).trans (if_pos hb)

end Redefine

/-! ## The words (R218) -/

section Words

variable {i : Instr} {s : State} {tk : Tk} {x y : BitVec 6}

/-- A word that changes a tile does so, or waits. -/
theorem exec_redefines {h : Nat} {f : Arch → Arch} {sem : Env → State → Res} (hi : exec i s = issueE (encodeNat i) [] tk s sem)
    (hm : MayIssue (encodeNat i) [] 0 tk s) (hs : sem (issueEnv tk s) (issued tk s) = redefine (issueEnv tk s) (issued tk s) h f) :
    (TileFree (issueEnv tk s) (issued tk s) h → exec i s = .next (goOn tk s (modArch (issued tk s) s.focusCore f))) ∧
      (TileAwaited (issueEnv tk s) (issued tk s) h → exec i s = .next (goWait s)) :=
  ⟨fun hf => execE_completes hi hm (hs.trans (redefine_free hf)), fun hw => execE_waits hi hm (hs.trans (redefine_awaited hw))⟩

/-- A meaning on a tile that is defined. -/
theorem onTile_defined {e : Env} {k : Nat → Tile → Res} (hy : (e.x y).psn = false) (hv : (e.x y).val.toNat < 512)
    (ht : (tileOf e.rd.a (e.x y).val.toNat).v = true) : onTile e y k = k (e.x y).val.toNat (tileOf e.rd.a (e.x y).val.toNat) :=
  (onHandle_named hy hv).trans (if_pos ht)

/-- `tdef` of a well-formed descriptor changes its tile, or waits. -/
theorem exec_tdef_redefines (hm : MayIssue (encodeNat (.tdef x y tk)) [] 0 tk s) :
    let e := issueEnv tk s
    let u := issued tk s
    let c := getCore u s.focusCore
    let o := (e.x x).val
    let v := (e.x y).val
    let d := scrDesc c o.toNat
    (e.x y).psn = false → v.toNat < 512 → (e.x x).psn = false → o.toNat % 32 = 0 → o.toNat + 32 ≤ plain e.rd.a →
      firstMarked c (o.toNat / 4) 8 = none → tMalformed e.rd.a d = false → (tQuant d = true → fenBit u (partOf e.rd) 1 = true) →
      (TileFree e u v.toNat → exec (.tdef x y tk) s = .next (goOn tk s (modArch u s.focusCore fun a =>
        putTile a v.toNat { desc := d, v := true, st := .empty }))) ∧
      (TileAwaited e u v.toNat → exec (.tdef x y tk) s = .next (goWait s)) := by
  intro e u c o v d hy hv hx ho hp hmark hd hq
  refine exec_redefines (exec_tdef x y tk s) hm ((consume_two hy hx _).trans ?_)
  have hmarked : markedWord c o 32 = none := (markedWord_aligned 8 (by omega)).trans hmark
  have hbad : (tMalformed e.rd.a d || (tQuant d && !fenBit u (partOf e.rd) 1)) = false := by
    simpa [hd] using hq
  change (match markedWord c o 32 with | some m => _ | none => _) = _
  rw [hmarked]
  refine (if_neg (not_not.mpr ho)).trans ?_
  rw [localFault_none (by decide) hp]
  exact (if_neg (Nat.not_le.mpr hv)).trans (if_neg (Bool.eq_false_iff.mp hbad))

/-- The fields that `tstat` reads. -/
theorem tileWord_fields (t : Tile) :
    tileWord t = BitVec.ofNat 64 (tileCode t.st + (if t.v then 4 else 0) + (if tFetch t.desc then 8 else 0) + 16 * tType t.desc +
      512 * (tRows t.desc - 1) + 2097152 * (tCols t.desc - 1)) := by
  rw [tileWord, mul_b2n, mul_b2n]
  rfl

end Words

/-- Settles O30: each word is on a named handle, and the two that change a tile share when they wait. -/
theorem tileResults : Obligations.TileResults := by
  unfold Obligations.TileResults
  intro s x y tk e u c o v d t put set named freed waits
  refine ⟨fun hm ⟨hy, hv⟩ => exec_tdef_redefines hm hy hv, fun hm ⟨hy, hv⟩ ht => ⟨fun hst => ?validEmpty, fun hst => ?validReady⟩,
    fun hm ⟨hy, hv⟩ ht => ?tinval, fun hm ⟨hy, hv⟩ => ?tstat, fun hm ⟨hy, hv⟩ ht => ⟨fun hst => ?waitReady, fun hst => ?waitOther⟩⟩
  case validEmpty =>
    refine execE_completes (exec_tvalid y tk s) hm ((onTile_defined hy hv ht).trans ?_)
    change (match t.st with | .empty => _ | .ready => _ | _ => _) = _
    rw [hst]
    rfl
  case validReady =>
    refine execE_completes (exec_tvalid y tk s) hm ((onTile_defined hy hv ht).trans ?_)
    change (match t.st with | .empty => _ | .ready => _ | _ => _) = _
    rw [hst]
  case tinval => exact exec_redefines (exec_tinval y tk s) hm (onTile_defined hy hv ht)
  case tstat =>
    refine execE_completes (exec_tstat x y tk s) hm ((onHandle_named hy hv).trans ?_)
    rw [tileWord_fields]
    rfl
  case waitReady => exact execE_completes (exec_twait y tk s) hm ((onTile_defined hy hv ht).trans (if_pos hst))
  case waitOther =>
    obtain ⟨hready, hdrains⟩ : t.st ≠ .ready ∧ t.st ≠ .draining := by rcases hst with hst | hst <;> rw [hst] <;> decide
    exact execE_waits (exec_twait y tk s) hm
      ((onTile_defined hy hv ht).trans ((if_neg hready).trans (if_neg fun ⟨hd, _⟩ => hdrains hd)))

end Sys2Proof.Machine
end

section
/-! O31. The words of the matrix queue. -/

namespace Sys2Proof.Machine

/-! ## The queue (R219 to R222, R226, R228) -/

section Words

variable {i : Instr} {s : State} {tk : Tk} {x y : BitVec 6}

/-- A word of the queue enters its operation while there is room. -/
theorem exec_enters {sem : Env → State → Res} {k : MxKind} {m : BitVec 3}
    (hi : exec i s = issueE (encodeNat i) [] tk s fun e s => withRoom e s (sem e s)) (h : MayIssue (encodeNat i) [] 0 tk s)
    (hr : (getCore (issued tk s) s.focusCore).mxq.length < 4)
    (hs : sem (issueEnv tk s) (issued tk s) = .later (enterMx (issueEnv tk s) (issued tk s) k m)) :
    exec i s = .next (goLater s (enterMx (issueEnv tk s) (issued tk s) k m)) :=
  execE_later hi h ((if_neg (Nat.not_le.mpr hr)).trans hs)

/-- It waits while the queue is full. -/
theorem exec_queueFull {sem : Env → State → Res} (hi : exec i s = issueE (encodeNat i) [] tk s fun e s => withRoom e s (sem e s))
    (h : MayIssue (encodeNat i) [] 0 tk s) (hl : 4 ≤ (getCore (issued tk s) s.focusCore).mxq.length) : exec i s = .next (goWait s) :=
  execE_waits hi h (if_pos hl)

/-- `mxnest` enters the nest of a table that is well formed. -/
theorem exec_mxnest_enters (h : MayIssue (encodeNat (.mxnest y tk)) [] 0 tk s) :
    let e := issueEnv tk s
    let u := issued tk s
    let c := getCore u s.focusCore
    let o := (e.x y).val
    let t := nestTable c o.toNat
    c.mxq.length < 4 → (e.x y).psn = false → o.toNat % 16 = 0 → o.toNat + 128 ≤ plain e.rd.a →
      firstMarked c (o.toNat / 4) 32 = none → nestBad t = false →
      exec (.mxnest y tk) s = .next (goLater s (enterMx e u (.nest t o.toNat) (modeCode e.rd.a (BitVec.ofNat 3 (nestField t 0 38 3))))) := by
  intro e u c o t hr hy ho hp hmark hbad
  refine exec_enters (exec_mxnest y tk s) h hr ((consume_one hy _).trans ?_)
  have hmarked : markedWord c o 128 = none := (markedWord_aligned 32 (by omega)).trans hmark
  change (match markedWord c o 128 with | some m => _ | none => _) = _
  rw [hmarked]
  refine (if_neg (not_not.mpr ho)).trans ?_
  rw [localFault_none (by decide) hp]
  exact if_neg (Bool.eq_false_iff.mp hbad)

end Words

/-- The fields that `mxstat` reads. -/
theorem mxWord_fields (c : Core) :
    mxWord c = BitVec.ofNat 64 (c.mxq.length + (if c.mxq.head?.any isArmed then 8 else 0) + (if bitOf c.mxrow 63 then 16 else 0)) := by
  rw [mxWord, mul_b2n, mul_b2n]

/-- Settles O31: the four words that enter an operation share their room; the others read the queue. -/
theorem matrixResults : Obligations.MatrixResults := by
  unfold Obligations.MatrixResults
  intro s x y m n tk e u c o room enter mode table
  refine ⟨exec_mxnest_enters, fun h => execE_completes (exec_mxgo tk s) h rfl,
    fun h => ⟨fun hq => ?empty, fun hq => ?occupied⟩, fun h => ?mxstat, fun h hr hy hv => ?mxdrain,
    fun h hr => exec_enters (exec_mxzero x tk s) h hr rfl, fun h hr hx hy hvx hvy => ?mxmma, ?full⟩
  case empty => exact execE_completes (exec_mxwait tk s) h (if_pos (List.isEmpty_iff.mpr hq))
  case occupied => exact execE_waits (exec_mxwait tk s) h (if_neg fun hn => hq (List.isEmpty_iff.mp hn))
  case mxstat =>
    refine execE_completes (exec_mxstat x tk s) h ?_
    rw [mxWord_fields]
    rfl
  case mxdrain => exact exec_enters (exec_mxdrain x y m tk s) h hr (onHandle_named hy hv)
  case mxmma =>
    exact exec_enters (exec_mxmma x y n tk s) h hr
      ((consume_two hx hy _).trans ((if_neg (Nat.not_le.mpr hvx)).trans (if_neg (Nat.not_le.mpr hvy))))
  case full =>
    repeat rw [List.forall_mem_cons]
    exact ⟨exec_queueFull (exec_mxdrain x y m tk s), exec_queueFull (exec_mxzero x tk s), exec_queueFull (exec_mxmma x y n tk s),
      exec_queueFull (exec_mxnest y tk s), List.forall_mem_nil _⟩

end Sys2Proof.Machine
end

section
/-! O32. Walks and checks where they issue. -/

namespace Sys2Proof.Machine

/-! ## Walks (R232, R233) -/

/-- A walk that issues is taken by the idle walker, and waits for one that runs. -/
theorem exec_walk {i : Instr} {s : State} {tk : Tk} {x : BitVec 6} {op : Nat}
    (hi : exec i s = issueE (encodeNat i) [] tk s fun e s => walkWord e s x op) (h : MayIssue (encodeNat i) [] 0 tk s) :
    let e := issueEnv tk s
    let u := issued tk s
    let c := getCore u s.focusCore
    let o := (e.xk x 1).val
    (c.walk = none → (e.x x).psn = false → (e.xk x 1).psn = false → o.toNat % (if op = 7 then 4 else 8) = 0 →
        o.toNat + (if op = 7 then 1024 else 8) ≤ plain e.rd.a → walkBad (e.x x).val = false →
      exec i s = .next (goLater s (modCore u s.focusCore fun c =>
        { c with walk := some { op := op, ctrl := (e.x x).val, off := o.toNat, push := e.pout, stopped := false, counts := none } }))) ∧
    (c.walk ≠ none → exec i s = .next (goWait s)) := by
  intro e u c o
  refine ⟨fun hw hx hk ho hp hb => execE_later hi h ?taken, fun hw => execE_waits hi h ?waits⟩
  case taken =>
    have hidle : ¬ c.walk.isSome = true := by rw [hw]; decide
    have hn : 0 < if op = 7 then 1024 else 8 := by split <;> decide
    refine (if_neg hidle).trans ((consumeN_next hx hk _).trans ((if_neg (not_not.mpr ho)).trans ?_))
    rw [localFault_none hn hp]
    exact if_neg (Bool.eq_false_iff.mp hb)
  case waits => exact if_pos (Option.isSome_iff_ne_none.mpr hw)

/-! ## Checks (R71, R275, R276) -/

/-- Whether a check may use the tile that a register names. -/
def TileUsable (e : Env) (r : BitVec 6) : Prop :=
  (e.x r).psn = false ∧ (e.x r).val.toNat < 512 ∧ (tileOf e.rd.a (e.x r).val.toNat).v = true ∧
    tOver e.rd.a (tileOf e.rd.a (e.x r).val.toNat).desc = false ∧ tileReadable (tileOf e.rd.a (e.x r).val.toNat) = true

/-- The handles that a check names. -/
def vigilHandles (e : Env) (regs : List (BitVec 6)) : List Nat := (regs.map fun r => (e.x r).val).map BitVec.toNat

section Vigil

variable {e : Env} {s : State} {regs : List (BitVec 6)}

/-- A fact about each register's handle is one about each handle. -/
theorem forall_vigilHandles {p : Nat → Prop} (h : ∀ r ∈ regs, p (e.x r).val.toNat) : ∀ v ∈ vigilHandles e regs, p v := by
  simpa [vigilHandles] using h

/-- Tiles that are defined and lie below PLAIN. -/
theorem vigilUse_none {a : Arch} {l : List Nat} (hv : ∀ h ∈ l, (tileOf a h).v = true) (ho : ∀ h ∈ l, tOver a (tileOf a h).desc = false) :
    vigilUse a l = none := by
  rw [vigilUse, List.find?_eq_none.mpr fun h hh => by simp [hv h hh], List.find?_eq_none.mpr fun h hh => by simp [ho h hh]]
  rfl

/-- A check on usable tiles of its shape is queued behind the earlier ones. -/
theorem vigilWord_queues {w kind : Nat} {lit : Word32} (hl : literalOutside e = false) (hu : ∀ r ∈ regs, TileUsable e r)
    (hs : vigilShape e.rd.a kind (nth 0 (vigilHandles e regs) 0) (nth 0 (vigilHandles e regs) 1) = none) :
    vigilWord e s w kind regs lit = .lit (modCore s e.ci fun c => { c with vigils := c.vigils ++
      [{ kind := kind, ha := nth 0 (vigilHandles e regs) 0, hb := nth 0 (vigilHandles e regs) 1, crc := lit, push := e.pout }] }) := by
  simp only [TileUsable, forall₂_and] at hu
  obtain ⟨hpsn, hlow, hdefined, hover, hreadable⟩ := hu
  have hclean : poisonTrap e (regs.map fun r => (r, 4)) = none := poisonTrap_none (List.forall_mem_map.mpr hpsn)
  have hrange : ((regs.map fun r => (e.x r).val).find? fun v => decide (512 ≤ v.toNat)) = none :=
    List.find?_eq_none.mpr (List.forall_mem_map.mpr fun r hr => by simpa using hlow r hr)
  have huse : vigilUse e.rd.a (vigilHandles e regs) = none := vigilUse_none (forall_vigilHandles hdefined) (forall_vigilHandles hover)
  have hread : (vigilHandles e regs).find? (fun h => !tileReadable (tileOf e.rd.a h)) = none :=
    List.find?_eq_none.mpr (forall_vigilHandles fun r hr => by simp [hreadable r hr])
  unfold vigilHandles at *
  simp only [vigilWord, hl, Bool.false_eq_true, if_false, consume_clean hclean, hrange, huse, hs, hread]

end Vigil

/-- Settles O32: the walks share their issue, and so do the checks. -/
theorem walkAndVigilIssue : Obligations.WalkAndVigilIssue := by
  unfold Obligations.WalkAndVigilIssue
  intro s x y tk lit e u c v o pout tile usable queue
  refine ⟨?walks, fun h hl hx hy hs => ?mx, fun h hl hx hs => ?vec, fun h hl hx => ?rd⟩
  case walks =>
    repeat rw [List.forall_mem_cons]
    exact ⟨exec_walk (exec_walkAdd x tk s), exec_walk (exec_walkMin x tk s), exec_walk (exec_walkMax x tk s), exec_walk (exec_walkAnd x tk s),
      exec_walk (exec_walkOr x tk s), exec_walk (exec_walkXor x tk s), exec_walk (exec_walkPopc x tk s), exec_walk (exec_walkHist x tk s),
      List.forall_mem_nil _⟩
  case mx =>
    exact execE_pastLiteral (exec_vigilMx x y tk lit s) h
      (vigilWord_queues hl (List.forall_mem_cons.mpr ⟨hx, List.forall_mem_singleton.mpr hy⟩) hs)
  case vec => exact execE_pastLiteral (exec_vigilVec x tk lit s) h (vigilWord_queues hl (List.forall_mem_singleton.mpr hx) hs)
  case rd => exact execE_pastLiteral (exec_vigilRd x tk lit s) h (vigilWord_queues hl (List.forall_mem_singleton.mpr hx) rfl)

end Sys2Proof.Machine
end

section
/-! SUPPORT for O18, O19, O36 and O37. What the words of transfers and synchronisation share: references, and entries of the commit buffer. -/

namespace Sys2Proof.Machine

/-- A word with token fields that raises a cause. -/
theorem execE_raises {i : Instr} {dsts : List (BitVec 6)} {tk : Tk} {s : State} {sem : Env → State → Res} {t : Trap}
    (hi : exec i s = issueE (encodeNat i) dsts tk s sem) (h : MayIssue (encodeNat i) dsts 0 tk s)
    (hs : sem (issueEnv tk s) (issued tk s) = .raise t) : exec i s = .next (goTrap s t) :=
  hi.trans (issue_raise h hs)

/-- A well-formed reference to a hurdle of the issuing core (R245, R246). -/
def LocalHurdle (v : Word) : Prop := refMalformed v = false ∧ bitOf v 27 = false ∧ bitOf v 23 = false

/-- A reference names the hurdle in its low ten bits. -/
theorem refHurdle_eq (v : Word) : refHurdle v = v.toNat % 1024 := by
  rw [refHurdle, fieldOf, pow_zero, Nat.div_one]
  rfl

section Reference

variable {v : Word} (h : LocalHurdle v)
include h

theorem LocalHurdle.not_refBad (e : Env) (s : State) : refBad e s v = false := by
  obtain ⟨hm, hp, -⟩ := h
  rw [refBad, hm, hp]
  rfl

theorem LocalHurdle.refLocal_eq : refLocal v = true := by
  obtain ⟨-, hp, hd⟩ := h
  rw [refLocal, hp, hd]
  rfl

/-- A meaning on a local hurdle. -/
theorem LocalHurdle.localRef_eq (e : Env) (s : State) (r : Res) : localRef e s v r = r := by
  rw [localRef, h.not_refBad, h.refLocal_eq]
  rfl

end Reference

/-- An entry whose sectors the commit buffer has is recorded at its end (R250). -/
theorem enterOr_room {e : Env} {s : State} {z : CEntry} (h : sectorsUsed (getCore s e.ci).cbuf + sectorsOf z ≤ 2048) :
    enterOr e s z = .done (modCore s e.ci fun c => { c with cbuf := (getCore s e.ci).cbuf ++ [z] }) := by
  rw [enterOr, enterEntry, if_pos h]

end Sys2Proof.Machine
end

section
/-! O18. The hurdle words. -/

namespace Sys2Proof.Machine

section Words

variable {s : State} {tk : Tk} {x y : BitVec 6}

/-- Whether a phase count has reached the phase that `hwait` awaits, modulo 2^16 (R247). -/
def PhaseReached (p : BitVec 16) (w : Word) : Prop := p - w.setWidth 16 < 0x8000#16

theorem phaseReached_iff (p : BitVec 16) (w : Word) : PhaseReached p w ↔ (p.toNat + 65536 - w.toNat % 65536) % 65536 < 32768 := by
  rw [PhaseReached, BitVec.lt_def, BitVec.toNat_sub, BitVec.toNat_setWidth]
  have hp := p.isLt
  have h8 : (0x8000#16).toNat = 32768 := rfl
  rw [h8]
  omega

/-- A wait that is over applies every queued invalidation (R173, R248). -/
theorem acquire_eq (c : Core) : acquire c = { c with invq := [], l1 := c.l1.filter fun l => !c.invq.any fun i => i.line == l.line } := by
  rw [acquire, applyInvals_eq]
  simp only [Bool.not_true, List.filter_false, Bool.true_and]

/-- `hwait` on a local reference acquires once its phase has been reached, and waits until then. -/
theorem exec_hwait_ends (h : MayIssue (encodeNat (.hwait x y tk)) [] 0 tk s) :
    let e := issueEnv tk s
    let v := (e.x x).val
    let reached := PhaseReached (hurdleOf e.rd.a (v.toNat % 1024)).phcnt (e.x y).val
    (e.x x).psn = false → (e.x y).psn = false → LocalHurdle v →
      (reached → exec (.hwait x y tk) s = .next (goOn tk s (modCore (issued tk s) s.focusCore acquire))) ∧
        (¬ reached → exec (.hwait x y tk) s = .next (goWait s)) := by
  intro e v reached hx hy hv
  simp only [reached, ← refHurdle_eq]
  have hsem (r : Res) : consume e [(x, 4), (y, 1)] (localRef e (issued tk s) v r) = r := (consume_two hx hy _).trans (hv.localRef_eq ..)
  exact ⟨fun hr => execE_completes (exec_hwait x y tk s) h ((hsem _).trans (if_pos hr)),
    fun hr => execE_waits (exec_hwait x y tk s) h ((hsem _).trans (if_neg hr))⟩

/-- The fields that `hstat` reads. -/
theorem hurdleWord_fields (z : Hurdle) :
    hurdleWord z = BitVec.ofNat 64 ((if z.target = 0 then 0 else 2 ^ 48) + z.phcnt.toNat * 2 ^ 32 + z.count % 2 ^ 32) := by
  rw [hurdleWord, b2n]
  by_cases h : z.target = 0 <;> simp [h]

/-- An arrival of zero under a reference that may be used does nothing. -/
theorem arriveRef_zero {e : Env} {v : Word} (hb : refBad e s v = false) : arriveRef e s v 0 = .done s := by
  rw [arriveRef, hb]
  rfl

/-- A local arrival is made at once, or left to the end of its bundle. -/
theorem arriveRef_local {e : Env} {v : Word} {n : Nat} (hv : LocalHurdle v) (hn : n ≠ 0) :
    arriveRef e s v n = .done (arriveHere e s (v.toNat % 1024) n) := by
  rw [arriveRef, hv.not_refBad, hv.refLocal_eq, if_neg hn, refHurdle_eq]
  rfl

/-- A remote arrival is recorded. -/
theorem arriveRef_remote {e : Env} {v : Word} {n : Nat} (hb : refBad e s v = false) (hr : (bitOf v 27 || bitOf v 23) = true) (hn : n ≠ 0)
    (hroom : sectorsUsed (getCore s e.ci).cbuf < 2048) :
    arriveRef e s v n = .done (modCore s e.ci fun c => { c with cbuf := (getCore s e.ci).cbuf ++ [.arrive v n] }) := by
  have hl : refLocal v = false := by rw [refLocal, ← Bool.not_or, hr]; rfl
  rw [arriveRef, hb, hl, if_neg hn]
  exact enterOr_room hroom

/-- The count of `harrive`: 1 without a count register (R247). -/
def arrivalCount (e : Env) (y : BitVec 6) : Nat := if y = 0 then 1 else (e.x y).val.toNat % 2 ^ 32

/-- `harrive` of operands that are not poisoned is an arrival of its count. -/
theorem exec_harrive_arrives {t : State} (h : MayIssue (encodeNat (.harrive x y tk)) [] 0 tk s) :
    let e := issueEnv tk s
    (e.x x).psn = false → (y ≠ 0 → (e.x y).psn = false) → arriveRef e (issued tk s) (e.x x).val (arrivalCount e y) = .done t →
      exec (.harrive x y tk) s = .next (goOn tk s t) := by
  intro e hx hy ht
  refine execE_completes (exec_harrive x y tk s) h ?_
  by_cases h0 : y = 0
  · rw [arrivalCount, if_pos h0] at ht
    exact (if_pos h0).trans ((consume_one hx _).trans ht)
  · rw [arrivalCount, if_neg h0] at ht
    exact (if_neg h0).trans ((consume_two hx (hy h0) _).trans ht)

/-- One poisoned register in both roles of a word is consumed with the lower detail (R269). -/
theorem exec_poisonedTwice {i : Instr} {sem : Env → State → Res} {r : Res} {j k d : Nat}
    (hi : exec i s = issueE (encodeNat i) [] tk s sem) (hs : sem (issueEnv tk s) (issued tk s) = consume (issueEnv tk s) [(x, j), (x, k)] r)
    (hd : min j k = d) (h : MayIssue (encodeNat i) [] 0 tk s) (hx : ((issueEnv tk s).x x).psn = true) :
    exec i s = .next (goTrap s (mkTrap 0x20 d (BitVec.ofNat 64 x.toNat))) :=
  execE_raises hi h (hs.trans (consume_poison (by simp [poisonTrap, hx, lowestDetail, hd])))

/-- x0 holds no poison. -/
theorem ne_zero_of_psn {e : Env} (hx : (e.x x).psn = true) : x ≠ 0 := by
  rintro rfl
  have h0 : (e.x 0).psn = false := rfl
  exact absurd (h0.symm.trans hx) (by decide)

end Words

/-- Settles O18: a word on a local reference ends as its meaning says, and an arrival by where its reference leads. -/
theorem hurdleResults : Obligations.HurdleResults := by
  unfold Obligations.HurdleResults
  intro s x y tk e u v w loc aim hur
  refine ⟨fun h hx hy hv => ?hinit, fun h hx hy => ?harrive, fun h hx hy hv => ?hwait, ?poison, fun h hy hv => ?hstat⟩
  case hinit =>
    refine execE_completes (exec_hinit x y tk s) h ((consume_two hx hy _).trans ((LocalHurdle.localRef_eq hv ..).trans ?_))
    rw [refHurdle_eq]
    rfl
  case harrive =>
    have harrives {t : State} (ht : arriveRef e u v (arrivalCount e y) = .done t) := exec_harrive_arrives h hx hy ht
    refine ⟨fun hv hn => harrives (arriveRef_local hv hn), fun hb hn => harrives ?zero,
      fun hb hr hn hroom => harrives (arriveRef_remote hb hr hn hroom)⟩
    case zero =>
      rw [show arrivalCount e y = 0 from hn]
      exact arriveRef_zero hb
  case hwait =>
    intro waited
    have hreached : waited = true ↔ PhaseReached (hur v).phcnt w := decide_eq_true_iff.trans (phaseReached_iff ..).symm
    obtain ⟨hacquires, hwaits⟩ := exec_hwait_ends h hx hy hv
    refine ⟨fun hw => ?_, fun hw => hwaits (mt hreached.mpr (Bool.eq_false_iff.mp hw))⟩
    rw [hacquires (hreached.mp hw), show acquire = _ from funext acquire_eq]
  case poison =>
    repeat rw [List.forall_mem_cons]
    exact ⟨exec_poisonedTwice (exec_hinit x x tk s) rfl rfl,
      fun h hx => exec_poisonedTwice (exec_harrive x x tk s) (if_neg (ne_zero_of_psn hx)) rfl h hx,
      exec_poisonedTwice (exec_hwait x x tk s) rfl rfl, exec_poisonedTwice (exec_sigadd x x tk s) rfl rfl,
      exec_poisonedTwice (exec_ringpost x x tk s) rfl rfl, List.forall_mem_nil _⟩
  case hstat =>
    refine execE_completes (exec_hstat x y tk s) h ((consume_one hy _).trans ((LocalHurdle.localRef_eq hv ..).trans ?_))
    rw [refHurdle_eq, hurdleWord_fields]
    rfl

end Sys2Proof.Machine
end

section
/-! O19. Chain words, posts and result slots. -/

namespace Sys2Proof.Machine

section Words

variable {i : Instr} {s : State} {tk : Tk} {x y : BitVec 6}

/-- A word that records one entry, for which the commit buffer has room. -/
theorem exec_records {z : CEntry} {sem : Env → State → Res} (hi : exec i s = issueE (encodeNat i) [] tk s sem)
    (h : MayIssue (encodeNat i) [] 0 tk s) (hs : sem (issueEnv tk s) (issued tk s) = enterOr (issueEnv tk s) (issued tk s) z)
    (hroom : sectorsUsed (getCore (issued tk s) s.focusCore).cbuf + sectorsOf z ≤ 2048) :
    let c := getCore (issued tk s) s.focusCore
    exec i s = .next (goOn tk s (modCore (issued tk s) s.focusCore fun k => { k with cbuf := c.cbuf ++ [z] })) :=
  execE_completes hi h (hs.trans (enterOr_room hroom))

/-- `qpost` records a packet that the scratchpad holds unmarked, for a queue that there is (R250). -/
theorem exec_qpost_records (h : MayIssue (encodeNat (.qpost x y tk)) [] 0 tk s) :
    let e := issueEnv tk s
    let c := getCore (issued tk s) s.focusCore
    let v := (e.x x).val
    let w := (e.x y).val
    (e.x x).psn = false → (e.x y).psn = false → v.toNat % 64 = 0 → v.toNat + 64 ≤ plain e.rd.a → w.toNat % 65536 < 64 →
      firstMarked e.rd (v.toNat / 4) 16 = none → sectorsUsed c.cbuf + 2 ≤ 2048 →
      exec (.qpost x y tk) s = .next (goOn tk s (modCore (issued tk s) s.focusCore fun k =>
        { k with cbuf := c.cbuf ++ [.post (w.toNat % 65536) (packetAt e.rd v.toNat)] })) := by
  intro e c v w hx hy hal hlow hq hmark hroom
  refine exec_records (exec_qpost x y tk s) h ((consume_two hx hy _).trans ((if_neg (not_not.mpr hal)).trans ?_)) hroom
  rw [localFault_none (by decide) hlow]
  refine (if_neg (Nat.not_le.mpr hq)).trans ?_
  rw [hmark]
  rfl

/-- `ares` and `aresh` read their half of a result that has come, and wait for one that is pending. -/
theorem exec_readResult {lo : Nat} (hi : exec i s = issueE (encodeNat i) [x] tk s fun e s => readResult e s x y lo)
    (h : MayIssue (encodeNat i) [x] 0 tk s) :
    let e := issueEnv tk s
    let k := vget e.rd.a.res ResSlot.zero y.toNat
    (k.pend = false → exec i s = .next (goOn tk s (setX e (issued tk s) x (BitVec.ofNat 64 (k.val.toNat / 2 ^ lo % 2 ^ 64)) k.psn))) ∧
      (k.pend = true → exec i s = .next (goWait s)) :=
  ⟨fun hp => execE_completes hi h (if_neg (Bool.eq_false_iff.mp hp)), fun hp => execE_waits hi h (if_pos hp)⟩

end Words

/-- The fields that `chain.stat` reads. -/
theorem chainWord_fields (c : Core) (k : Nat) :
    let x := chainOf c k
    chainWord c k = BitVec.ofNat 64 (x.cpc.toNat / 32 % 2 ^ 51 * 32 + (if kickPending c k then 8 else 0) + chainCode x.st) := by
  rw [chainWord, Nat.mul_comm (b2n _), mul_b2n]
  rfl

/-- A slot told to stop loses every kick that is pending for it (R251). -/
theorem stopSlot_eq (c : Core) (k : Nat) {p : CEntry → Bool} (hp : ∀ z, (!z.isKickOf k) = p z) : stopSlot c k =
    { c with chains := vset c.chains k (stopChain (chainOf c k)), cbuf := c.cbuf.filter p, departing := c.departing.filter fun z => p z.entry } := by
  obtain rfl : (fun z : CEntry => !z.isKickOf k) = p := funext hp
  rfl

/-- Settles O19: a word that records waits for nothing but its checks; a stop, a status and a result are each one read or write. -/
theorem chainAndPostResults : Obligations.ChainAndPostResults := by
  unfold Obligations.ChainAndPostResults
  intro s x y tk e u c v w enter
  refine ⟨fun h hy hal hk hroom => ?kick, fun h => ?stop, fun h => ?stat, exec_qpost_records, fun h hx hy hv hroom => ?sigadd,
    fun h hx hy hv hroom => ?ringpost, ?results⟩
  case kick =>
    exact exec_records (exec_chainKick x y tk s) h
      ((consume_one hy _).trans ((if_neg (not_not.mpr hal)).trans (if_neg (Bool.eq_false_iff.mp hk)))) hroom
  case stop =>
    refine execE_completes (exec_chainStop x tk s) h (congrArg (Res.done <| modCore u s.focusCore ·) (funext fun k => ?_))
    exact stopSlot_eq k x.toNat fun z => by cases z <;> rfl
  case stat =>
    refine execE_completes (exec_chainStat x y tk s) h ?_
    rw [chainWord_fields]
    rfl
  case sigadd => exact exec_records (exec_sigadd x y tk s) h ((consume_two hx hy _).trans (if_neg (Nat.not_le.mpr hv))) hroom
  case ringpost => exact exec_records (exec_ringpost x y tk s) h ((consume_two hx hy _).trans (if_neg (Nat.not_le.mpr hv))) hroom
  case results =>
    repeat rw [List.forall_mem_cons]
    exact ⟨exec_readResult (exec_ares x y tk s), exec_readResult (exec_aresh x y tk s), List.forall_mem_nil _⟩

end Sys2Proof.Machine
end

section
/-! O37. The atomics at both scopes. -/

namespace Sys2Proof.Machine

/-! ## Registers named by number -/

/-- Registers named by number of which none is poisoned raise no trap. -/
theorem poisonTrapN_none {e : Env} {l : List (Nat × Nat)} (h : ∀ p ∈ l, (rdReg e.rd p.1).psn = false) : poisonTrapN e l = none := by
  induction l with
  | nil => rfl
  | cons p l ih =>
    obtain ⟨hp, hl⟩ := List.forall_mem_cons.mp h
    exact (if_neg (Bool.eq_false_iff.mp hp)).trans (ih hl)

/-- A meaning that consumes registers named by number, none of them poisoned. -/
theorem consumeN_clean {e : Env} {l : List (Nat × Nat)} (h : ∀ p ∈ l, (rdReg e.rd p.1).psn = false) (r : Res) : consumeN e l r = r := by
  rw [consumeN, poisonTrapN_none h]

/-! ## The words (R254, R255) -/

/-- The `m` registers from x(a) on. -/
def dataRegs (x : BitVec 6) (m : Nat) : List Nat := (List.range m).map fun k => x.toNat + k

/-- An atomic on `size` bytes at x(b) with `m` data registers passes its checks: its line is on a target at a physical address. -/
structure AmoReady (e : Env) (s : State) (x y : BitVec 6) (m size : Nat) (tg : Target) (pa : Nat) : Prop where
  address : (e.x y).psn = false
  aligned : (e.x y).val.toNat % size = 0
  data : ∀ k < m, (e.xk x k).psn = false
  slot : (getCore s e.ci).a.nextRes < 16
  access : transAccess s e.ci (e.x y).val .write 3 = .ok (tg, pa)

namespace AmoReady

variable {e : Env} {s : State} {x y : BitVec 6} {m size : Nat} {tg : Target} {pa : Nat} {op : AmoOp} {cmp val : BitVec 128}
  (h : AmoReady e s x y m size tg pa)
include h

/-- Its data registers are not poisoned. -/
theorem consumeN_eq (r : Res) : consumeN e ((dataRegs x m).map fun k => (k, 2)) r = r := by
  refine consumeN_clean (List.forall_mem_map.mpr (List.forall_mem_map.mpr fun k hk => ?_)) r
  exact h.data k (List.mem_range.mp hk)

/-- With scope bit 0 it is entered in the commit buffer, and its result slot waits. -/
theorem amoWord_enters {core : Bool} (hcore : core = false) (hw : amoWindow tg op size false (e.x y).val = none)
    (hroom : sectorsUsed (getCore s e.ci).cbuf < 2048) :
    amoWord e s y (dataRegs x m) core op size cmp val = .done (modCore s e.ci fun k =>
      { k with cbuf := (getCore s e.ci).cbuf ++ [.atomic pa (e.x y).val op size cmp val (getCore s e.ci).a.nextRes], a := awaitSlot k.a }) := by
  subst hcore
  have henter : enterEntry (getCore s e.ci).cbuf (.atomic pa (e.x y).val op size cmp val (getCore s e.ci).a.nextRes) = some _ := if_pos hroom
  rw [amoWord, consume_one h.address, if_neg (not_not.mpr h.aligned), h.consumeN_eq, if_neg (Nat.not_le.mpr h.slot), h.access]
  simp only [hw, henter, Bool.false_eq_true, if_false]

/-- With scope bit 1 it is performed at the core, on a line of device memory. -/
theorem amoWord_core {core : Bool} {d : Nat} (hcore : core = true) (hd : tg = .dev d) : amoWord e s y (dataRegs x m) core op size cmp val =
    amoCore e s tg pa (e.x y).val op size cmp val := by
  subst hcore hd
  rw [amoWord, consume_one h.address, if_neg (not_not.mpr h.aligned), h.consumeN_eq, if_neg (Nat.not_le.mpr h.slot), h.access]
  simp only [amoWindow, if_true]

end AmoReady

section CoreScope

variable {e : Env} {s s1 : State} {tg : Target} {pa : Nat} {a : Word} {op : AmoOp} {size : Nat} {cmp val : BitVec 128} {b : List Byte}

/-- The state once the old value of an atomic has been written to its result slot. -/
def resultTaken (s : State) (ci : Nat) (b : List Byte) : State := modArch s ci fun ar => takeSlot ar (BitVec.ofNat 128 (leNat b)) false false

variable (hp : pinnedByOther s e.ci pa = false)
  (hread : readLoad (modArch s e.ci fun ar => { ar with pins := pinLine ar.pins (pa / 128) }) e.ci a tg pa size = (s1, b, false))
include hp hread

/-- A compare that fails writes nothing. -/
theorem amoCore_keeps (hn : amoNew op size (leNat b) cmp.toNat val.toNat = none) :
    amoCore e s tg pa a op size cmp val = .done (resultTaken s1 e.ci b) := by
  simp only [amoCore, hp, hread, hn, Bool.false_eq_true, if_false]
  rfl

/-- A new value is entered as a store. -/
theorem amoCore_stores {v : Nat} {b' : List CEntry} (hn : amoNew op size (leNat b) cmp.toNat val.toNat = some v)
    (hb : enterStores (getCore s1 e.ci).cbuf [(pa, a, natBytes size v)] = some b') :
    amoCore e s tg pa a op size cmp val = .done (resultTaken (modCore s1 e.ci fun k => { k with cbuf := b' }) e.ci b) := by
  simp only [amoCore, hp, hread, hn, enterAll_some hb, Bool.false_eq_true, if_false]
  rfl

end CoreScope

/-- An atomic that passes its checks ends at its scope. -/
theorem exec_atomic {i : Instr} {s : State} {tk : Tk} {x y : BitVec 6} {c : BitVec 1} {m size : Nat} {op : AmoOp} {cmp val : Env → BitVec 128}
    {tg : Target} {pa : Nat}
    (hi : exec i s = issueE (encodeNat i) [] tk s fun e s => amoWord e s y (dataRegs x m) (c == 1) op size (cmp e) (val e)) :
    let e := issueEnv tk s
    let u := issued tk s
    let a := (e.x y).val
    MayIssue (encodeNat i) [] 0 tk s → (e.x y).psn = false → a.toNat % size = 0 → (∀ k < m, (e.xk x k).psn = false) →
      (getCore u s.focusCore).a.nextRes < 16 → transAccess u s.focusCore a .write 3 = .ok (tg, pa) →
    (c = 0 → amoWindow tg op size false a = none → sectorsUsed (getCore u s.focusCore).cbuf < 2048 →
      exec i s = .next (goOn tk s (modCore u s.focusCore fun k =>
        { k with cbuf := (getCore u s.focusCore).cbuf ++ [.atomic pa a op size (cmp e) (val e) (getCore u s.focusCore).a.nextRes],
                 a := awaitSlot k.a }))) ∧
    (∀ d s1 b, c = 1 → tg = .dev d → pinnedByOther u s.focusCore pa = false →
        readLoad (modArch u s.focusCore fun ar => { ar with pins := pinLine ar.pins (pa / 128) }) s.focusCore a tg pa size = (s1, b, false) →
      (amoNew op size (leNat b) (cmp e).toNat (val e).toNat = none → exec i s = .next (goOn tk s (resultTaken s1 s.focusCore b))) ∧
      (∀ v b', amoNew op size (leNat b) (cmp e).toNat (val e).toNat = some v →
          enterStores (getCore s1 s.focusCore).cbuf [(pa, a, natBytes size v)] = some b' →
        exec i s = .next (goOn tk s (resultTaken (modCore s1 s.focusCore fun k => { k with cbuf := b' }) s.focusCore b)))) := by
  intro e u a h ha hal hx hn ht
  have ready : AmoReady e u x y m size tg pa := ⟨ha, hal, hx, hn, ht⟩
  refine ⟨fun hc hw hroom => ?enters, fun d s1 b hc hd hp hread => ⟨fun hv => ?keeps, fun v b' hv hb => ?stores⟩⟩
  case enters => exact execE_completes hi h (ready.amoWord_enters (beq_eq_false_iff_ne.mpr (by rw [hc]; decide)) hw hroom)
  case keeps => exact execE_completes hi h ((ready.amoWord_core (beq_iff_eq.mpr hc) hd).trans (amoCore_keeps (e := e) hp hread hv))
  case stores => exact execE_completes hi h ((ready.amoWord_core (beq_iff_eq.mpr hc) hd).trans (amoCore_stores (e := e) hp hread hv hb))

/-- The new values of operands that fit the size (R255). -/
theorem amoNew_values {size old cmp val : Nat} (hcmp : cmp < 2 ^ (8 * size)) (hval : val < 2 ^ (8 * size)) :
    amoNew .add size old cmp val = some ((old + val) % 2 ^ (8 * size)) ∧ amoNew .and size old cmp val = some (Nat.land old val) ∧
      amoNew .or size old cmp val = some (Nat.lor old val) ∧ amoNew .xor size old cmp val = some (Nat.xor old val) ∧
      amoNew .maxu size old cmp val = some (max old val) ∧ amoNew .swap size old cmp val = some val ∧
      (old = cmp → amoNew .cas size old cmp val = some val) ∧ (old ≠ cmp → amoNew .cas size old cmp val = none) ∧
      amoNew .max size old cmp val = some (if sintOf (8 * size) old < sintOf (8 * size) val then val else old) := by
  simp +contextual only [amoNew, Nat.mod_eq_of_lt hcmp, Nat.mod_eq_of_lt hval, if_true, if_false, implies_true, and_self]

/-- Settles O37: the nine words share their checks and their two scopes. -/
theorem atomicResults : Obligations.AtomicResults := by
  unfold Obligations.AtomicResults
  intro s x y c z tk tg pa e u a n one two rows
  refine ⟨?words, fun size old cmp val _ hcmp hval => amoNew_values hcmp hval⟩
  case words =>
    have single {op : AmoOp} {i : Instr} (hi : exec i s = issueE (encodeNat i) [] tk s fun e s => amoOne e s x y c z op) :=
      exec_atomic (m := 1) (size := n) (cmp := fun _ => 0) (val := fun e => (e.x x).val.setWidth 128) (tg := tg) (pa := pa) hi
    simp only [rows]
    repeat rw [List.forall_mem_cons]
    exact ⟨single (exec_amoAdd x y c z tk s), single (exec_amoAnd x y c z tk s), single (exec_amoOr x y c z tk s),
      single (exec_amoXor x y c z tk s), single (exec_amoMax x y c z tk s), single (exec_amoMaxu x y c z tk s),
      single (exec_amoSwap x y c z tk s),
      exec_atomic (m := 2) (cmp := fun e => (e.x x).val.setWidth 128) (val := fun e => (e.xk x 1).val.setWidth 128) (exec_amoCasD x y c tk s),
      exec_atomic (m := 4) (cmp := fun e => pairVal e x 0) (val := fun e => pairVal e x 2) (exec_amoCasQ x y c tk s),
      List.forall_mem_nil _⟩

end Sys2Proof.Machine
end

section
/-! O36. Copies where they are issued. -/

namespace Sys2Proof.Machine

/-! ## Operands (R236) -/

theorem mem_insertRef {y : Nat} {p : Nat × Nat} (l : List (Nat × Nat)) (h : p ∈ insertRef y l) : p = (y, 4) ∨ p ∈ l := by
  induction l with
  | nil => exact Or.inl (List.mem_singleton.mp h)
  | cons q l ih =>
    unfold insertRef at h
    split at h
    · exact List.mem_cons.mp h
    · rcases List.mem_cons.mp h with rfl | h
      · exact Or.inr List.mem_cons_self
      · exact (ih h).imp_right (List.mem_cons_of_mem q)

/-- The hurdle that a copy names: none with x0 as its reference. -/
def copyHurdle (e : Env) (y : BitVec 6) : Option Nat := if y = 0 then none else some ((e.x y).val.toNat % 1024)

/-- The `n` operand registers of a copy are not poisoned, and its reference is that of a local hurdle. -/
def CopyClean (e : Env) (x y : BitVec 6) (n : Nat) : Prop :=
  (∀ k < n, (e.xk x k).psn = false) ∧ (y ≠ 0 → (e.x y).psn = false ∧ LocalHurdle (e.x y).val)

section Operands

variable {e : Env} {s : State} {x y : BitVec 6} {n d : Nat}

/-- The registers of a copy are those from its first on. -/
theorem copyRegs_clean (h : ∀ k < n + 2, (e.xk x k).psn = false) : ∀ p ∈ copyRegs x d n, (rdReg e.rd p.1).psn = false := by
  refine List.forall_mem_append.mpr ⟨?_, List.forall_mem_map.mpr fun k hk => ?_⟩
  · repeat rw [List.forall_mem_cons]
    exact ⟨h 0 (by omega), h 1 (by omega), List.forall_mem_nil _⟩
  · rw [Nat.add_assoc]
    exact h (2 + k) (by have := List.mem_range.mp hk; omega)

/-- A copy whose operands are clean goes on with its hurdle. -/
theorem copyOperands_clean (h : CopyClean e x y (n + 2)) (k : Option Nat → Res) :
    copyOperands e s y (copyRegs x d n) k = k (copyHurdle e y) := by
  obtain ⟨hx, hy⟩ := h
  have hregs := copyRegs_clean (d := d) hx
  rw [copyOperands, copyHurdle]
  by_cases h0 : y = 0
  · rw [if_pos h0, if_pos h0, consumeN_clean hregs]
  · obtain ⟨hp, hv⟩ := hy h0
    rw [if_neg h0, if_neg h0, consumeN_clean, hv.localRef_eq, refHurdle_eq]
    intro p hmem
    rcases mem_insertRef _ hmem with rfl | hmem
    · exact hp
    · exact hregs p hmem

end Operands

/-! ## Rows (R236) -/

/-- A length within its limits. -/
theorem lengthOk_iff {n lim : Nat} : lengthOk n lim = true ↔ 4 ≤ n ∧ n ≤ lim ∧ n % 4 = 0 := by
  simp [lengthOk, and_assoc]

/-- A pitch within its limits. -/
theorem pitchOk_iff {p n : Nat} : pitchOk p n = true ↔ n ≤ p ∧ p % 4 = 0 := by
  simp [pitchOk]

/-- Aligned rows below PLAIN. -/
theorem rangeFault_none {a : Arch} {r : Rows} (ho : r.off.toNat % 4 = 0) (hg : r.gaddr.toNat % 4 = 0) (hn : 0 < r.bytes)
    (h : ∀ k < r.rows, (r.off + BitVec.ofNat 64 (k * r.lpitch)).toNat + r.bytes ≤ plain a) : rangeFault a r = none := by
  have hrows : (List.range r.rows).findSome? (fun k => localFault a (r.off + BitVec.ofNat 64 (k * r.lpitch)) r.bytes) = none :=
    List.findSome?_eq_none_iff.mpr fun k hk => localFault_none hn (h k (List.mem_range.mp hk))
  rw [rangeFault, if_neg (not_not.mpr ho), if_neg (not_not.mpr hg), hrows]
  rfl

section Rows

variable {e : Env} {x : BitVec 6}

/-- The row of a linear copy. -/
theorem linearRows_ok :
    let off := (e.x x).val
    let g := (e.xk x 1).val
    let n := (e.xk x 2).val.toNat
    off.toNat % 4 = 0 ∧ g.toNat % 4 = 0 ∧ 4 ≤ n ∧ n ≤ 8388608 ∧ n % 4 = 0 ∧ off.toNat + n ≤ plain e.rd.a →
      linearRows e x = .ok { rows := 1, bytes := n, off := off, gaddr := g, lpitch := 0, gpitch := 0 } := by
  intro off g n ⟨ho, hg, hmin, hmax, hn, hp⟩
  have hrow : ∀ k < 1, (off + BitVec.ofNat 64 (k * 0)).toNat + n ≤ plain e.rd.a := fun k _ => by
    rw [Nat.mul_zero, BitVec.add_zero]
    exact hp
  rw [linearRows, if_pos (lengthOk_iff.mpr ⟨hmin, hmax, hn⟩), rangeFault_none ho hg (Nat.lt_of_lt_of_le (by decide) hmin) hrow]

/-- The two halves of a dword. -/
theorem fieldOf_low (v : Word) : fieldOf v 0 32 = v.toNat % 2 ^ 32 := by
  rw [fieldOf, pow_zero, Nat.div_one]

theorem fieldOf_high (v : Word) : fieldOf v 32 32 = v.toNat / 2 ^ 32 :=
  Nat.mod_eq_of_lt (Nat.div_lt_of_lt_mul v.isLt)

/-- The rows of a 2D copy. -/
theorem planeRows_ok :
    let off := (e.x x).val
    let g := (e.xk x 1).val
    let n := (e.xk x 2).val.toNat
    let p := (e.xk x 3).val.toNat
    let r : Rows := { rows := n / 2 ^ 32, bytes := n % 2 ^ 32, off := off, gaddr := g, lpitch := p / 2 ^ 32, gpitch := p % 2 ^ 32 }
    off.toNat % 4 = 0 ∧ g.toNat % 4 = 0 ∧ 1 ≤ r.rows ∧ r.rows ≤ 4096 ∧ 4 ≤ r.bytes ∧ r.bytes ≤ 65536 ∧ r.bytes % 4 = 0 ∧
      r.bytes ≤ r.lpitch ∧ r.lpitch % 4 = 0 ∧ r.bytes ≤ r.gpitch ∧ r.gpitch % 4 = 0 ∧
      (∀ k < r.rows, (off + BitVec.ofNat 64 (k * r.lpitch)).toNat + r.bytes ≤ plain e.rd.a) → planeRows e x = .ok r := by
  intro off g n p r ⟨ho, hg, hr, hrmax, hmin, hmax, hn, hl, hl4, hgp, hgp4, hp⟩
  have hlen : (decide (1 ≤ r.rows) && decide (r.rows ≤ 4096) && lengthOk r.bytes 65536) = true := by
    rw [decide_eq_true hr, decide_eq_true hrmax, lengthOk_iff.mpr ⟨hmin, hmax, hn⟩]
    rfl
  have hpitch : (pitchOk r.lpitch r.bytes && pitchOk r.gpitch r.bytes) = true := by
    rw [pitchOk_iff.mpr ⟨hl, hl4⟩, pitchOk_iff.mpr ⟨hgp, hgp4⟩]
    rfl
  have hrange : rangeFault e.rd.a r = none := rangeFault_none ho hg (Nat.lt_of_lt_of_le (by decide) hmin) hp
  simp only [planeRows, fieldOf_low, fieldOf_high]
  change (match (if !(decide (1 ≤ r.rows) && decide (r.rows ≤ 4096) && lengthOk r.bytes 65536) then _
    else if !(pitchOk r.lpitch r.bytes && pitchOk r.gpitch r.bytes) then _ else rangeFault e.rd.a r) with | some t => _ | none => _) = _
  rw [hlen, hpitch, hrange]
  rfl

/-- The rows of the image of a tile that is defined. -/
theorem tileRows_ok {rows rb lp gp : Nat} :
    let off := (e.x x).val
    let g := (e.xk x 1).val
    let t := tileOf e.rd.a off.toNat
    off.toNat < 512 → t.v = true → tMalformed e.rd.a t.desc = false →
      tImage t.desc ((e.xk x 2).val.toNat % 2 ^ 32) = (rows, rb, lp, gp) → (tQuant t.desc = true ∨ rb ≤ gp ∧ gp % 4 = 0) → g.toNat % 4 = 0 →
      tileRows e x = .ok { rows := rows, bytes := rb, off := BitVec.ofNat 64 (tBase t.desc), gaddr := g, lpitch := lp, gpitch := gp } := by
  intro off g t hoff hv hd himage hq hg
  have hpitch : (!tQuant t.desc && !pitchOk gp rb) = false := by
    rcases hq with hq | hq
    · rw [hq]
      rfl
    · rw [pitchOk_iff.mpr hq, Bool.not_true, Bool.and_false]
  rw [← fieldOf_low] at himage
  change tImage (tileOf e.rd.a (e.x x).val.toNat).desc _ = _ at himage
  simp only [tileRows, himage]
  rw [if_neg (Nat.not_le.mpr hoff), hv, hd, hpitch, if_neg (not_not.mpr hg)]
  rfl

end Rows

/-! ## The transfer engine and the commit buffer (R237, R238) -/

section Queues

variable {e : Env} {s : State} {z : Copy}

theorem startIn_room (h : (getCore s e.ci).copies.length < 16) : startIn e s z = .later (modCore s e.ci fun c => queueCopy c z) :=
  if_neg (Nat.not_le.mpr h)

/-- So is it in a core whose queue an update has left. -/
theorem startIn_update {f : Core → Core} (hf : ∀ c, (f c).copies = c.copies) (h : (getCore s e.ci).copies.length < 16) :
    startIn e (modCore s e.ci f) z = .later (modCore s e.ci fun c => queueCopy (f c) z) := by
  have hroom : (getCore (modCore s e.ci f) e.ci).copies.length < 16 := by
    by_cases hci : e.ci < 72
    · rwa [getCore_modCore_self s f hci, hf]
    · rwa [modCore, putCore_none s _ (Nat.not_lt.mp hci)]
  rw [startIn_room hroom, modCore_modCore]

/-- The tag of a tile image is bits 47:16 of its address (R355). -/
theorem noteTag_eq (c : Core) (g : Word) : noteTag c g = { c with
    tags := (BitVec.ofNat 32 (g.toNat / 2 ^ 16 % 2 ^ 32) :: c.tags.filter (· != BitVec.ofNat 32 (g.toNat / 2 ^ 16 % 2 ^ 32))).take 16 } := rfl

/-- The core once an outbound copy has been recorded. -/
def recordedCopy (s : State) (ci : Nat) (z : Copy) (c : Core) : Core :=
  { c with cbuf := c.cbuf ++ [.copy { z with homes := homesOf s ci (wrapOrder z.gaddr (touchPoints z)) }], nextCopy := c.nextCopy + 1 }

/-- Every place that an outbound copy writes may be written. -/
def CopyWritable (s : State) (ci : Nat) (z : Copy) : Prop := globalFault s ci .write 2 (wrapOrder z.gaddr (touchPoints z)) = none

theorem recordOut_room {k : State → State} (hw : CopyWritable s e.ci z) (h : ((getCore s e.ci).cbuf.filter CEntry.isCopy).length < 32) :
    recordOut e s z k = .later (k (modCore s e.ci (recordedCopy s e.ci z))) := by
  unfold CopyWritable at hw
  rw [recordOut, hw]
  exact if_neg (Nat.not_le.mpr h)

end Queues

/-! ## The words (R237 to R239) -/

section Words

variable {i : Instr} {s : State} {tk : Tk} {x y : BitVec 6} {d n : Nat} {rows : Env → Except Trap Rows} {r : Rows}
  (h : MayIssue (encodeNat i) [] 0 tk s) (hc : CopyClean (issueEnv tk s) x y (n + 2)) (hr : rows (issueEnv tk s) = .ok r)
include h hc hr

/-- An inbound copy is queued. -/
theorem exec_copyIn_queues (hi : exec i s = issueE (encodeNat i) [] tk s fun e s => copyIn e s y (copyRegs x d n) (rows e))
    (hroom : (getCore (issued tk s) s.focusCore).copies.length < 16) : exec i s = .next (goLater s (modCore (issued tk s) s.focusCore fun c =>
      queueCopy c (newCopy (issueEnv tk s) (issued tk s) false r (copyHurdle (issueEnv tk s) y) none))) := by
  refine execE_later hi h ((copyOperands_clean hc _).trans ?_)
  rw [hr]
  exact startIn_room hroom

/-- An outbound copy is recorded. -/
theorem exec_copyOut_records (hi : exec i s = issueE (encodeNat i) [] tk s fun e s => copyOut e s y (copyRegs x d n) (rows e)) :
    let z := newCopy (issueEnv tk s) (issued tk s) true r (copyHurdle (issueEnv tk s) y) none
    CopyWritable (issued tk s) s.focusCore z → ((getCore (issued tk s) s.focusCore).cbuf.filter CEntry.isCopy).length < 32 →
      exec i s = .next (goLater s (modCore (issued tk s) s.focusCore (recordedCopy (issued tk s) s.focusCore z))) := by
  intro z hw hroom
  refine execE_later hi h ((copyOperands_clean hc _).trans ?_)
  rw [hr]
  exact recordOut_room hw hroom

end Words

section Tiles

variable {e : Env} {s : State} {x y : BitVec 6} {r : Rows} (hc : CopyClean e x y 3) (hr : tileRows e x = .ok r)
include hc hr

/-- A tile that holds still is filled (R215). -/
theorem copyTileIn_fills :
    let k := (e.x x).val.toNat
    let st := (tileOf (getCore s e.ci).a k).st
    (st = .empty ∨ st = .ready) → (getCore s e.ci).copies.length < 16 → copyTileIn e s x y = .later (modCore s e.ci fun c =>
      queueCopy (noteTag { c with a := setTileSt c.a k .filling } r.gaddr) (newCopy e s false r (copyHurdle e y) (some k))) := by
  intro k st hst hroom
  rw [copyTileIn, copyOperands_clean hc, hr]
  change (match st with | .filling => _ | .draining => _ | _ => _) = _
  rcases hst with hst | hst <;> rw [hst] <;> exact startIn_update (fun _ => rfl) hroom

/-- A tile that holds still or drains is drained (R215). -/
theorem copyTileOut_drains :
    let k := (e.x x).val.toNat
    let st := (tileOf (getCore s e.ci).a k).st
    let z := newCopy e s true r (copyHurdle e y) (some k)
    (st = .ready ∨ st = .draining) → CopyWritable s e.ci z → ((getCore s e.ci).cbuf.filter CEntry.isCopy).length < 32 →
      copyTileOut e s x y = .later (modCore s e.ci fun c => { recordedCopy s e.ci z c with a := setTileSt c.a k .draining }) := by
  intro k st z hst hw hroom
  have hrecord : recordOut e s z (fun s => modArch s e.ci fun a => setTileSt a k .draining) = .later (modCore s e.ci fun c =>
      { recordedCopy s e.ci z c with a := setTileSt c.a k .draining }) := by
    rw [recordOut_room hw hroom, modArch, modCore_modCore]
    rfl
  rw [copyTileOut, copyOperands_clean hc, hr]
  change (match st with | .empty => _ | .filling => _ | _ => _) = _
  rcases hst with hst | hst <;> rw [hst] <;> exact hrecord

end Tiles

/-- Settles O36: the words share their operands, and end with the queue or with the commit buffer. -/
theorem copyResults : Obligations.CopyResults := by
  unfold Obligations.CopyResults
  intro s x y tk e u c off g v p clean named room recorded queued writable entered line lineOk plane planeOk tile now
  refine ⟨?inbound, ?outbound, fun rows rb lp gp hoff hv hd himage hq hg hc => ?tiles⟩
  case inbound =>
    repeat rw [List.forall_mem_cons]
    exact ⟨fun h hc hr => exec_copyIn_queues h hc (linearRows_ok hr) (exec_cpin x y tk s),
      fun h hc hr => exec_copyIn_queues h hc (planeRows_ok hr) (exec_cpin2d x y tk s), List.forall_mem_nil _⟩
  case outbound =>
    repeat rw [List.forall_mem_cons]
    exact ⟨fun h hc hr => exec_copyOut_records h hc (linearRows_ok hr) (exec_cpout x y tk s),
      fun h hc hr => exec_copyOut_records h hc (planeRows_ok hr) (exec_cpout2d x y tk s), List.forall_mem_nil _⟩
  case tiles =>
    intro image
    have hr : tileRows e x = .ok image := tileRows_ok hoff hv hd himage hq hg
    refine ⟨fun h hst hroom => (execE_later (exec_cpinT x y tk s) h (copyTileIn_fills (e := e) (s := u) hc hr hst hroom)).trans ?fills,
      fun h hst hw hroom => execE_later (exec_cpoutT x y tk s) h (copyTileOut_drains (e := e) (s := u) hc hr hst hw hroom)⟩
    case fills =>
      refine congrArg (fun f => Host.Outcome.next (goLater s (modCore u s.focusCore f))) (funext fun k => ?_)
      exact congrArg (queueCopy · (newCopy e u false image named (some off.toNat))) (noteTag_eq ..)

end Sys2Proof.Machine
end

section
/-! O46. What leaves a core after a commit, and what comes back to it. -/

namespace Sys2Proof.Machine

/-- A step of an agent that exists, at a core whose switched-out units have no work of their own there. -/
theorem pastStep {s : State} {ci : Nat} (hci : ci < 72) (hh : NoPast s ci) (has : State → Bool) (f : State → State) :
    (if 72 ≤ ci then .fault .noSuchAgent else .next (withPast s ci has f) : Host.Outcome State Fault Refusal) = .next (f s) :=
  (agentStep hci _).trans (congrArg _ (withPast_here hh has f))

/-! ## Posts (R248, R249, R343) -/

/-- Whether a released post waits for outbound copies before it. -/
def heldByCopies (c : Core) (x : Departing) : Bool := (c.copies ++ c.backlog).any fun y => y.outb && y.slot.isNone && decide (y.id < x.after)

section Posts

variable {s : State} {ci : Nat}

section Head

variable {c : Core} {x : Departing} {r : List Departing} (hd : c.departing = x :: r)
include hd

theorem headPost_held (h : heldByCopies c x = true) : headPost c = none := by
  unfold heldByCopies at h
  simp only [headPost, hd, h, Bool.not_true, Bool.and_false, Bool.false_eq_true, if_false]

theorem headPost_leaves (hrun : copiesRun c = true) (h : heldByCopies c x = false) : headPost c = some x.entry := by
  unfold heldByCopies at h
  simp only [headPost, hd, h, hrun, Bool.not_false, Bool.and_self, if_true]

end Head

/-- With no post at the head nothing leaves. -/
theorem departPost_none (h : headPost (getCore s ci) = none) : departPost s ci = s := by
  simp only [departPost, h]

theorem deliverPost_none (h : headPost (getCore s ci) = none) : deliverPost s ci = s := by
  simp only [deliverPost, h]

theorem departPost_sigadd {i : Nat} {v : Word} (h : headPost (getCore s ci) = some (.sigadd i v)) :
    departPost s ci = addSignal (putCore s ci (popPost (getCore s ci))) (partOf (getCore s ci)) i v := by
  simp only [departPost, h]

theorem departPost_ringadd {i : Nat} {v : Word} (h : headPost (getCore s ci) = some (.ringadd i v)) :
    departPost s ci = addCounter (putCore s ci (popPost (getCore s ci))) (partOf (getCore s ci)) i v := by
  simp only [departPost, h]

theorem departPost_kick {k : Nat} {a : Word} (h : headPost (getCore s ci) = some (.kick k a)) :
    departPost s ci = modChain (putCore s ci (popPost (getCore s ci))) ci k (kickChain · a) := by
  simp only [departPost, h]

theorem departPost_arrive {v : Word} {n : Nat} (h : headPost (getCore s ci) = some (.arrive v n)) : departPost s ci = sendArrival s ci v n := by
  simp only [departPost, h]

/-- The core that a reference names (R246). -/
def refCore (v : Word) : Nat := 36 * (v.toNat / 2 ^ 22 % 2) + v.toNat / 2 ^ 16 % 2 ^ 6

section Arrival

variable {v : Word} {n : Nat} {u : UnitInfo} (hu : (getCore s ci).unit = some u)
include hu

/-- An arrival for a core of the package reaches that core's list. -/
theorem sendArrival_core (hv : bitOf v 27 = false) : sendArrival s ci v n = modCore (putCore s ci (popPost (getCore s ci))) (refCore v)
    fun e => { e with arrivals := e.arrivals ++ [(v.toNat % 1024, n, identOf u)] } := by
  simp only [sendArrival, hv, hu, refHurdle_eq, Bool.false_eq_true, if_false]
  rfl

/-- One for a peer leaves on an open port. -/
theorem sendArrival_tether {q : Nat} (hv : bitOf v 27 = true) (hp : peerWritesDone (getCore s ci) = true) (hq : openPort s (dieOf ci) = some q) :
    let c := getCore s ci
    sendArrival s ci v n = { putCore s ci { popPost c with outst := c.outst ++ [.peerArrive (v.toNat / 2 ^ 24 % 2 ^ 3) q] } with
      outbox := s.outbox ++ [.tetherArrive (v.toNat / 2 ^ 24 % 2 ^ 3) (refCore v) (v.toNat % 1024) n (identOf u)] } := by
  simp only [sendArrival, hv, hu, hp, hq, refHurdle_eq, Bool.not_true, Bool.false_eq_true, if_false, if_true]
  rfl

end Arrival

/-- It waits for the peer writes before it. -/
theorem sendArrival_waits {v : Word} {n : Nat} (hv : bitOf v 27 = true) (hp : peerWritesDone (getCore s ci) = false) : sendArrival s ci v n = s := by
  simp only [sendArrival, hv, hp, Bool.not_false, if_true]

/-- With no port open it is refused (R371). -/
theorem sendArrival_refused {v : Word} {n : Nat} (hv : bitOf v 27 = true) (hp : peerWritesDone (getCore s ci) = true)
    (hq : openPort s (dieOf ci) = none) :
    sendArrival s ci v n = refusedBy (putCore s ci (popPost (getCore s ci))) ci (v.toNat / 2 ^ 24 % 2 ^ 3) v := by
  simp only [sendArrival, hv, hp, hq, Bool.not_true, Bool.false_eq_true, if_false, if_true]
  rfl

section Packet

variable {q : Nat} {p : Packet} {t : State} (h : headPost (getCore s ci) = some (.post q p))
include h

/-- A packet waits where its producer would be told to retry. -/
theorem deliverPost_waits (hd : deliver s (partOf (getCore s ci)) q p = (t, .retry) ∨ deliver s (partOf (getCore s ci)) q p = (t, .pinned)) :
    deliverPost s ci = t := by
  rcases hd with hd | hd <;> simp only [deliverPost, h, hd]

/-- Any other answer takes it off the list. -/
theorem deliverPost_leaves {a : Accept} (ha : a ≠ .retry ∧ a ≠ .pinned) (hd : deliver s (partOf (getCore s ci)) q p = (t, a)) :
    deliverPost s ci = modCore t ci popPost := by
  obtain ⟨hr, hp⟩ := ha
  cases a with
  | retry => exact absurd rfl hr
  | pinned => exact absurd rfl hp
  | accepted | abort | unsupported => simp only [deliverPost, h, hd]

end Packet

end Posts

/-! ## Results, acknowledgements and refusals (R178, R184, R255, R256) -/

/-- The oldest operation of a kind on its way, at a core that is not frozen. -/
theorem takeOut_first {c : Core} {f : Outstanding → Bool} {o : Outstanding} (hf : c.freeze = none) (h : c.outst.find? f = some o) :
    takeOut c f = some (o, { c with outst := c.outst.erase o }) := by
  simp only [takeOut, hf, h, Option.isSome_none, Bool.false_eq_true, if_false]

section Results

variable {s : State} {ci : Nat} {c : Core}

theorem hostResult_value {k : Nat} {v : BitVec 128} (h : takeOut (getCore s ci) Outstanding.isHost = some (.hostAtomic k v, c)) :
    hostResult s ci false = putCore s ci (writeResult c k v false) := by
  simp only [hostResult, h, Bool.false_eq_true, if_false]

theorem hostResult_error {k : Nat} {v : BitVec 128} (h : takeOut (getCore s ci) Outstanding.isHost = some (.hostAtomic k v, c)) :
    hostResult s ci true = logErr (putCore s ci (writeResult c k 0 true)) (partOf c) ci ((openWord s 5).toNat % 64) 0 none none 0 := by
  simp only [hostResult, h, if_true]

theorem homeResult_home {k : Nat} {v : BitVec 128} {p : Bool}
    (h : takeOut (getCore s ci) Outstanding.isAtomic = some (.homeAtomic k v p, c)) : homeResult s ci = putCore s ci (writeResult c k v p) := by
  simp only [homeResult, h]

theorem homeResult_peer {m q k : Nat} {v : BitVec 128} {p : Bool}
    (h : takeOut (getCore s ci) Outstanding.isAtomic = some (.peerAtomic m q k v p, c)) : homeResult s ci = putCore s ci (writeResult c k v p) := by
  simp only [homeResult, h]

theorem ackWrite_takes {o : Outstanding} (h : takeOut (getCore s ci) Outstanding.isPeerWrite = some (o, c)) :
    ackWrite s ci = putCore (performPeer s o) ci c := by
  simp only [ackWrite, h]

theorem refuseWrite_takes {o : Outstanding} (h : takeOut (getCore s ci) Outstanding.refusable = some (o, c)) :
    refuseWrite s ci = refuseOne (putCore s ci c) ci o := by
  simp only [refuseWrite, h]

/-- A refusal puts an error status into the unit's completion and leaves a record (R256, R372). -/
theorem refusedBy_putCore (hci : ci < 72) (m : Nat) (a : Word) : refusedBy (putCore s ci c) ci m a =
    logErr (putCore s ci { c with unit := c.unit.map fun u => { u with err := some (0x36, m) } }) (partOf c) ci 0x36 m (some a) none 0 := by
  rw [refusedBy, modCore, getCore_putCore_self s c hci, putCore_putCore]

/-- Whether an operation on its way is a write to a member that the member has not performed. -/
def pendingWrite (m : Nat) (o : Outstanding) : Bool :=
  match o with
  | .peerWrite n _ _ _ _ false => n == m
  | _ => false

/-- Once a peer has performed what a core has sent, no write to it is pending. -/
theorem pendingWrite_landPeer (hci : ci < 72) (m : Nat) : (getCore (landPeer s ci m) ci).outst.any (pendingWrite m) = false := by
  rw [landPeer, getCore_modCore_self _ _ hci]
  simp only [List.any_map, List.any_eq_false, Function.comp_apply]
  intro o _
  cases o with
  | peerWrite n q k b psn d =>
    by_cases hn : n = m
    · simp [writesTo, performedOut, pendingWrite, hn]
    · cases d <;> simp [writesTo, pendingWrite, hn]
  | _ => exact Bool.false_ne_true

end Results

/-! ## Arrivals from other cores (R127, R248, R335) -/

section Arrivals

variable {s : State} {ci : Nat} (hf : (getCore s ci).freeze = none)
include hf

/-- An arrival of the launch or gang of the unit that a core holds is made there. -/
theorem remoteArrival_mine {h n : Nat} {u : UnitInfo} {r : List (Nat × Nat × Nat)} (ha : (getCore s ci).arrivals = (h, n, identOf u) :: r)
    (hu : (getCore s ci).unit = some u) (hrun : (getCore s ci).run ≠ .retired) :
    remoteArrival s ci = modCore (putCore s ci { getCore s ci with arrivals := r, resends := Sparse.put 0 (getCore s ci).resends 1 0 }) ci
      fun e => arriveExt e h n := by
  have hret : ((getCore s ci).run == .retired) = false := beq_eq_false_iff_ne.mpr hrun
  simp only [remoteArrival, sentOn, hf, ha, hu, hret, arrivalWaits, Option.isSome_none, Bool.false_and, beq_self_eq_true,
    Bool.false_eq_true, if_false, if_true]

section Request

variable {j : UnitRef} {p : Bool} {r : List (UnitRef × Bool)} (hi : (getCore s ci).inbox = (j, p) :: r)
include hi

/-- A steal request is taken, or refused at once. -/
theorem stealArrives_eq :
    let c := getCore s ci
    let t := putCore s ci (sentOn { c with inbox := r } 6)
    stealArrives s ci = if sameLaunch c j && c.a.req.isNone && takesSteals c.run then
        modCore t ci fun e => { e with a := { e.a with req := some j }, ext := e.ext ++ [.request j] }
      else sendAnswer t j none := by
  simp only [stealArrives, hf, hi, Option.isSome_none, Bool.false_eq_true, if_false]

end Request

end Arrivals

/-! ## Answers to steal requests (R127, R335) -/

/-- A held answer goes to the first unit of a list that awaits it. -/
theorem holdAnswer_first {u : UnitRef} {ev : ExtEv} {y : Switched} {p q : List Switched} (hp : ∀ w ∈ p, awaitsAnswer u w = false)
    (hy : awaitsAnswer u y = true) (hroom : y.held.length < 4096) :
    holdAnswer u ev (p ++ y :: q) = (p ++ { y with held := y.held ++ [ev] } :: q, 0) := by
  induction p with
  | nil =>
    obtain ⟨k, hk⟩ := Nat.exists_eq_add_of_lt hroom
    have htake : 4096 - y.held.length = k + 1 := by omega
    simp [holdAnswer, hy, holdEvents, htake]
  | cons w p ih =>
    obtain ⟨hw, hp⟩ := List.forall_mem_cons.mp hp
    simp [holdAnswer, hw, ih hp]

/-- The state once the next answer has been taken off a core's list. -/
def answerTaken (s : State) (ci : Nat) (r : List (UnitRef × Option (Word × Word))) : State :=
  putCore s ci (sentOn { getCore s ci with answers := r } 7)

section Answers

variable {s : State} {ci : Nat} {u : UnitRef} {z : Option (Word × Word)} {r : List (UnitRef × Option (Word × Word))} {grant : Bool}
  (hf : (getCore s ci).freeze = none) (ha : (getCore s ci).answers = (u, z) :: r)
include hf ha

/-- The next answer waits for the step of its kind. -/
theorem stealAnswer_other (hz : z.isSome ≠ grant) : stealAnswer s ci grant = s := by
  simp only [stealAnswer, hf, ha, Option.isSome_none, Bool.false_eq_true, if_false, bne_iff_ne.mpr hz, if_true]

section Mine

variable (hz : z.isSome = grant) (hm : holdsUnit (getCore s ci) u = true)
include hz hm

/-- At a retired core it waits for the adoption of the unit. -/
theorem stealAnswer_retired (hrun : (getCore s ci).run = .retired) : stealAnswer s ci grant = s := by
  simp only [stealAnswer, hf, ha, hz, hm, hrun, Option.isSome_none, bne_self_eq_false, beq_self_eq_true, Bool.false_eq_true, if_false, if_true]

theorem stealAnswer_mine (hrun : (getCore s ci).run ≠ .retired) :
    stealAnswer s ci grant = modCore (answerTaken s ci r) ci fun c => installAnswer c (answerEvent z) := by
  simp only [stealAnswer, answerTaken, hf, ha, hz, hm, beq_eq_false_iff_ne.mpr hrun, Option.isSome_none, bne_self_eq_false,
    Bool.false_eq_true, if_false, if_true]

/-- It is dropped where no request awaits it (log 56). -/
theorem stealAnswer_dropped (hci : ci < 72) (hrun : (getCore s ci).run ≠ .retired) (hp : (getCore s ci).a.pend = false) :
    stealAnswer s ci grant = answerTaken s ci r := by
  rw [stealAnswer_mine hf ha hz hm hrun, answerTaken, modCore, getCore_putCore_self s _ hci, installAnswer]
  exact (congrArg _ (if_neg (Bool.eq_false_iff.mp hp))).trans (putCore_putCore ..)

/-- It is installed where a request awaits it. -/
theorem stealAnswer_installs (hci : ci < 72) (hrun : (getCore s ci).run ≠ .retired) (hp : (getCore s ci).a.pend = true) :
    stealAnswer s ci grant = modCore (answerTaken s ci r) ci fun c =>
      { applyExt c (answerEvent z) with ext := (applyExt c (answerEvent z)).ext ++ [answerEvent z] } := by
  rw [stealAnswer_mine hf ha hz hm hrun, answerTaken, modCore, modCore, getCore_putCore_self s _ hci, installAnswer]
  exact congrArg _ (if_pos hp)

theorem stealAnswer_grants {lo hi : Word} (hci : ci < 72) (hrun : (getCore s ci).run ≠ .retired) (hp : (getCore s ci).a.pend = true)
    (hw : z = some (lo, hi)) : stealAnswer s ci grant = modCore (answerTaken s ci r) ci fun c =>
      { c with ext := c.ext ++ [.grantGot lo hi], a := { c.a with rcur := lo, rend := hi, grant := true, pend := false } } := by
  subst hw
  exact stealAnswer_installs hf ha hz hm hci hrun hp

theorem stealAnswer_refuses (hci : ci < 72) (hrun : (getCore s ci).run ≠ .retired) (hp : (getCore s ci).a.pend = true) (hw : z = none) :
    stealAnswer s ci grant = modCore (answerTaken s ci r) ci fun c =>
      { c with ext := c.ext ++ [.stealRefused], a := { c.a with refused := true, pend := false } } := by
  subst hw
  exact stealAnswer_installs hf ha hz hm hci hrun hp

end Mine

section Elsewhere

variable (hz : z.isSome = grant) (hm : holdsUnit (getCore s ci) u = false)
include hz hm

/-- It is held for its unit where that is switched out and awaits it. -/
theorem stealAnswer_held {ev : ExtEv} {p q : List Switched} {y : Switched} (hev : answerEvent z = ev)
    (hout : (getPart s u.part).switched = p ++ y :: q)
    (hp : ∀ w ∈ p, awaitsAnswer u w = false) (hy : awaitsAnswer u y = true) (hroom : y.held.length < 4096) :
    stealAnswer s ci grant = discardMany (modPart (answerTaken s ci r) u.part fun e =>
      { e with switched := p ++ { y with held := y.held ++ [ev] } :: q }) u.part 0 := by
  subst hev
  have hany : (p ++ y :: q).any (awaitsAnswer u) = true := by simp [hy]
  simp only [stealAnswer, answerTaken, hf, ha, hz, hm, hout, hany, holdAnswer_first hp hy hroom, Option.isSome_none, bne_self_eq_false,
    Bool.false_eq_true, if_false, if_true]

variable (hout : (getPart s u.part).switched.any (awaitsAnswer u) = false)
include hout

/-- It is sent on to the core that holds its unit by now. -/
theorem stealAnswer_sentOn {j : Nat} (hj : unitAt s u = some j) (hold : holdsUnit (getCore s j) u = true) :
    stealAnswer s ci grant = sendAnswer (answerTaken s ci r) u z := by
  simp only [stealAnswer, answerTaken, hf, ha, hz, hm, hout, hj, hold, Option.isSome_none, Option.any_some, bne_self_eq_false, Bool.false_eq_true,
    if_false, if_true]

/-- With no such core it is dropped (log 56). -/
theorem stealAnswer_lost (hj : ∀ j, unitAt s u = some j → holdsUnit (getCore s j) u = false) : stealAnswer s ci grant = answerTaken s ci r := by
  have hany : (unitAt s u).any (fun j => holdsUnit (getCore s j) u) = false := by
    cases h : unitAt s u with
    | none => rfl
    | some j => exact hj j h
  simp only [stealAnswer, answerTaken, hf, ha, hz, hm, hout, hany, Option.isSome_none, bne_self_eq_false, Bool.false_eq_true, if_false]

end Elsewhere

end Answers

/-- A unit that a core holds is at a core that holds it. -/
theorem unitAt_of_holdsUnit {s : State} {u : UnitRef} {j : Nat} (hj : j < 72) (h : holdsUnit (getCore s j) u = true) :
    ∃ i, unitAt s u = some i ∧ holdsUnit (getCore s i) u = true := by
  cases hfind : (List.range 72).find? fun i => holdsUnit (getCore s i) u with
  | none => exact absurd h (by simpa using List.find?_eq_none.mp hfind j (List.mem_range.mpr hj))
  | some i => exact ⟨i, by rw [unitAt, hfind], List.find?_some (p := fun i => holdsUnit (getCore s i) u) hfind⟩

theorem sendAnswer_at {s : State} {u : UnitRef} {j : Nat} (h : unitAt s u = some j) (z : Option (Word × Word)) :
    sendAnswer s u z = modCore s j fun e => { e with answers := e.answers ++ [(u, z)] } := by
  rw [sendAnswer, h]

/-- Settles O46: each step is one of its cases. -/
theorem departureEvents : Obligations.DepartureEvents := by
  unfold Obligations.DepartureEvents
  intro s ci hci c part up here
  refine ⟨fun x r hh hd hrun hup => ?posts, fun hh hf => ?back⟩
  case posts =>
    intro early left s1
    have hfw : firmwareUp s ci = true := by rw [firmwareUp, hup]; rfl
    have hpost : exec (.postDeparture ci) s = .next (departPost s ci) := (pastStep hci hh _ _).trans (congrArg _ (if_pos hfw))
    have hpacket : exec (.qpostDelivery ci) s = .next (deliverPost s ci) := (pastStep hci hh _ _).trans (congrArg _ (if_pos hfw))
    have head {y : CEntry} (he : early = false) (hy : x.entry = y) : headPost c = some y := hy ▸ headPost_leaves hd hrun he
    refine ⟨fun he => ?early, fun i v he hy => hpost.trans (congrArg _ (departPost_sigadd (head he hy))),
      fun i v he hy => hpost.trans (congrArg _ (departPost_ringadd (head he hy))),
      fun k a he hy => hpost.trans (congrArg _ (departPost_kick (head he hy))),
      fun v n u he hy hu hv => hpost.trans (congrArg _ ((departPost_arrive (head he hy)).trans (sendArrival_core hu hv))),
      fun v n u he hy hu hv => ?peer, fun q p s2 he hy => ?packet⟩
    case early =>
      have hnone : headPost c = none := headPost_held hd he
      exact ⟨hpost.trans (congrArg _ (departPost_none hnone)), hpacket.trans (congrArg _ (deliverPost_none hnone))⟩
    case peer =>
      have harrive {t : State} (ht : sendArrival s ci v n = t) : exec (.postDeparture ci) s = .next t :=
        hpost.trans (congrArg _ ((departPost_arrive (head he hy)).trans ht))
      exact ⟨fun hp => harrive (sendArrival_waits hv hp), fun q hp hq => harrive (sendArrival_tether hu hv hp hq),
        fun hp hq => harrive (sendArrival_refused hv hp hq)⟩
    case packet =>
      have hleaves {a : Accept} (ha : a ≠ .retry ∧ a ≠ .pinned) (hd : deliver s part q p = (s2, a)) :=
        hpacket.trans (congrArg _ (deliverPost_leaves (head he hy) ha hd))
      refine ⟨fun hd => hpacket.trans (congrArg _ (deliverPost_waits (head he hy) hd)), ?_⟩
      repeat rw [List.forall_mem_cons]
      exact ⟨hleaves (by decide), hleaves (by decide), hleaves (by decide), List.forall_mem_nil _⟩
  case back =>
    intro got put
    have taken {f : Outstanding → Bool} {o : Outstanding} (ho : c.outst.find? f = some o) : takeOut c f = some (o, got o) := takeOut_first hf ho
    refine ⟨fun k v ho => ⟨(pastStep hci hh _ _).trans (congrArg _ (hostResult_value (taken ho))),
        (pastStep hci hh _ _).trans (congrArg _ (hostResult_error (taken ho)))⟩,
      fun k v p ho => (pastStep hci hh _ _).trans (congrArg _ (homeResult_home (taken ho))),
      fun m q k v p ho => (pastStep hci hh _ _).trans (congrArg _ (homeResult_peer (taken ho))), ?peers,
      fun h n u r ha hu hrun => (agentStep hci _).trans (congrArg _ (remoteArrival_mine hf ha hu hrun)), fun j p r hi => ?request,
      fun u z r ha => ?answer, fun u z => ⟨fun j hj => sendAnswer_at hj z, fun j hj => unitAt_of_holdsUnit hj⟩⟩
    case peers =>
      intro refused
      have hack {o : Outstanding} (ho : c.outst.find? Outstanding.isPeerWrite = some o) :
          exec (.peerWriteAck ci) s = .next (putCore (performPeer s o) ci (got o)) :=
        (pastStep hci hh _ _).trans (congrArg _ (ackWrite_takes (taken ho)))
      have hrefused {o : Outstanding} (ho : c.outst.find? Outstanding.refusable = some o) :
          exec (.peerRefused ci) s = .next (refuseOne (putCore s ci (got o)) ci o) :=
        (pastStep hci hh _ _).trans (congrArg _ (refuseWrite_takes (taken ho)))
      refine ⟨fun m q k b psn d ho => (hack ho).trans ?_, fun m q k b psn ho => (hrefused ho).trans (congrArg _ (refusedBy_putCore hci ..)),
        fun m q ho => hack ho, fun m q ho => (hrefused ho).trans (congrArg _ (refusedBy_putCore hci ..)), fun m q k b psn d => rfl,
        pendingWrite_landPeer hci⟩
      cases d <;> rfl
    case request =>
      intro s1
      have harr : exec (.stealRequestArrival ci) s = .next (stealArrives s ci) := agentStep hci _
      refine ⟨fun hl hreq ht => harr.trans (congrArg _ ((stealArrives_eq hf hi).trans (if_pos ?_))),
        fun hno => harr.trans (congrArg _ ((stealArrives_eq hf hi).trans (if_neg (Bool.eq_false_iff.mp hno))))⟩
      change (sameLaunch c j && c.a.req.isNone && takesSteals c.run) = true
      rw [hl, hreq, ht]
      rfl
    case answer =>
      intro s1 ev out i hi
      have hstep : exec i.1 s = .next (stealAnswer s ci i.2) := by
        rcases List.mem_pair.mp hi with rfl | rfl <;> exact agentStep hci _
      have ends {t : State} (ht : stealAnswer s ci i.2 = t) : exec i.1 s = .next t := hstep.trans (congrArg _ ht)
      have htaken : answerTaken s ci r = s1 := rfl
      refine ⟨fun hz => ends (stealAnswer_other hf ha hz), fun hz hm => ?mine,
        fun p y q hz hm hout hp hy hroom => ends (htaken ▸ stealAnswer_held hf ha hz hm rfl hout hp hy hroom), fun hz hm hout => ?away⟩
      case mine =>
        refine ⟨fun hrun => ends (stealAnswer_retired hf ha hz hm hrun), fun hrun hp => ends (stealAnswer_dropped hf ha hz hm hci hrun hp),
          fun lo hi hrun hp hw => ?grant, fun hrun hp hw => ?refusal⟩
        case grant =>
          subst hw
          exact ends (htaken ▸ stealAnswer_grants hf ha hz hm hci hrun hp rfl)
        case refusal =>
          subst hw
          exact ends (htaken ▸ stealAnswer_refuses hf ha hz hm hci hrun hp rfl)
      case away =>
        exact ⟨fun j hj hold => ends (htaken ▸ stealAnswer_sentOn hf ha hz hm hout hj hold),
          fun j hj hold => ends (stealAnswer_lost hf ha hz hm hout fun k hk => Option.some.inj (hj.symm.trans hk) ▸ hold),
          fun hj => ends (stealAnswer_lost hf ha hz hm hout fun k hk => nomatch hj.symm.trans hk)⟩

end Sys2Proof.Machine
end

section
/-! O47. Detected errors, replay and retirement, adoption, and the units of failed cores and dies. -/

namespace Sys2Proof.Machine

/-! ## The region run again (R259, R263) -/

/-- An arrival applied again changes only the architectural state. -/
theorem applyExt_eq (c : Core) (x : ExtEv) : ∃ a, applyExt c x = { c with a := a } := by
  cases x with
  | tileDone h =>
    unfold applyExt
    dsimp only
    split
    · exact ⟨c.a, rfl⟩
    · exact ⟨_, rfl⟩
  | _ => exact ⟨_, rfl⟩

theorem applyExts_eq (l : List ExtEv) (c : Core) : ∃ a, l.foldl applyExt c = { c with a := a } := by
  refine List.foldlRecOn (motive := fun d : Core => ∃ a, d = { c with a := a }) l applyExt ⟨c.a, rfl⟩ fun d hd x _ => ?_
  obtain ⟨a, rfl⟩ := hd
  exact applyExt_eq _ x

/-- A restore changes the architectural state and the FIFOs. -/
theorem restoreSnap_eq (c : Core) : ∃ a f, restoreSnap c = { c with a := a, fifos := f } := by
  obtain ⟨a, ha⟩ := applyExts_eq c.ext { c with a := c.snap }
  exact ⟨a, _, congrArg rewindFifos ha⟩

/-- Without arrivals since the snapshot a restore gives the snapshot. -/
theorem restoreSnap_quiet {c : Core} (h : c.ext = []) : (restoreSnap c).a = c.snap := by
  rw [restoreSnap, h]
  rfl

/-- A discarded region leaves no copy of its own but among those that wait for a place. -/
theorem discardRegion_copies {c : Core} {x : Copy} (hx : x ∈ (discardRegion c).copies) (ho : x.open_ = true) : x ∈ c.backlog := by
  rcases List.mem_append.mp hx with h | h
  · exact absurd ho (by simpa using (List.mem_filter.mp h).2)
  · exact List.mem_of_mem_take h

theorem getCore_logErr (s : State) (p c x d : Nat) (a b : Option Word) (e i : Nat) :
    getCore (logErr s p c x d a b e) i = getCore s i := rfl

section Replay

variable {s : State} {ci : Nat} (src : Nat)

/-- The core of a region that runs again, its attempt counted (R263). -/
def nextAttempt (c : Core) : Core :=
  restoreSnap { discardRegion c with rtryCount := c.rtryCount + 1, rtryTotal := min (c.rtryTotal + 1) 65535 }

theorem nextAttempt_eq (c : Core) : ∃ a f, nextAttempt c =
    { discardRegion c with a := a, fifos := f, rtryCount := c.rtryCount + 1, rtryTotal := min (c.rtryTotal + 1) 65535 } :=
  restoreSnap_eq _

theorem replayRegion_again (hci : ci < 72) (h : (getCore s ci).rtryCount < (getCore s ci).rtryMax) : replayRegion s ci src =
    putCore (logErr (putCore s ci (discardRegion (getCore s ci))) (partOf (getCore s ci)) ci 0x21 src none none 0) ci
      (nextAttempt (getCore s ci)) := by
  have hself : getCore (logErr (putCore s ci (discardRegion (getCore s ci))) (partOf (getCore s ci)) ci 0x21 src none none 0) ci =
      discardRegion (getCore s ci) := getCore_putCore_self s _ hci
  rw [replayRegion, if_neg (Nat.not_le.mpr h), modCore, hself]
  rfl

theorem replayRegion_last (h : (getCore s ci).rtryMax ≤ (getCore s ci).rtryCount) : replayRegion s ci src =
    retireCore (logErr (putCore s ci (discardRegion (getCore s ci))) (partOf (getCore s ci)) ci 0x21 src none none 0) ci src :=
  if_pos h

theorem getCore_retireCore_self (s : State) (hci : ci < 72) :
    getCore (retireCore s ci src) ci = { discardRegion (getCore s ci) with run := .retired } :=
  getCore_modCore_self s (fun c => { discardRegion c with run := .retired }) hci

theorem mem_retiredCores_retireCore (s : State) (ci : Nat) : ci ∈ (retireCore s ci src).retiredCores :=
  List.contains_iff_mem.mp (contains_natInsert ci s.retiredCores)

theorem getCore_replayRegion_ne (hci : ci < 72) (h : (getCore s ci).rtryCount < (getCore s ci).rtryMax) {k : Nat} (hk : k ≠ ci) :
    getCore (replayRegion s ci src) k = getCore s k := by
  rw [replayRegion_again src hci h, getCore_putCore_ne _ _ hk.symm]
  exact getCore_putCore_ne s _ hk.symm

end Replay

/-! ## Detected errors (R263, R264) -/

section Detected

variable {s : State} {ci src : Nat} (hsrc : src ≤ 5) (hrun : (getCore s ci).run = .running) (hu : (getCore s ci).unit.isSome = true)
include hsrc hrun hu

theorem detectError_replays (hf : (getCore s ci).freeze = none) : detectError s ci src = replayError s ci src := by
  simp [detectError, hrun, hu, hf, hsrc]

/-- On a frozen core it waits, with the source of the first report (R264). -/
theorem detectError_waits {f : Freeze} (hf : (getCore s ci).freeze = some f) :
    detectError s ci src = putCore s ci { getCore s ci with freeze := some { f with err := some (f.err.getD src) } } := by
  simp [detectError, hrun, hu, hf, hsrc]

end Detected

/-! ## Errors outside any region (R262) -/

section Outside

variable {s : State} {ci piece : Nat}

theorem pastUnit_here (h : NoPast s ci) (has : State → Bool) : pastUnit s ci has = none := by
  unfold pastUnit
  split
  · rfl
  · refine List.findSome?_eq_none_iff.mpr fun p hp => Option.map_eq_none_iff.mpr (List.find?_eq_none.mpr fun y hy => ?_)
    simp [h p (List.mem_range.mp hp) y hy]

theorem exec_outOfRegionError_here (hci : ci < 72) (h : NoPast s ci) :
    exec (.outOfRegionError ⟨ci, piece⟩) s = .next (outsideError s ci piece) :=
  (pastStep hci h _ _).trans (by rw [pastUnit_here h]; rfl)

/-- The pieces of work outside any region, by their number. -/
theorem outsideWork_iff (c : Core) (piece : Nat) : outsideWork c piece = true ↔ copiesRun c = true ∧
    (if piece = 0 then c.departing ≠ [] else if piece = 1 then c.arrivals ≠ []
      else if piece < 6 then chainLive (chainOf c (piece - 2)) = true else if piece = 6 then c.inbox ≠ [] else if piece = 7 then c.answers ≠ []
      else ∃ x ∈ c.copies, x.open_ = false ∧ 8 + x.id = piece) := by
  rw [outsideWork, Bool.and_eq_true]
  refine and_congr_right fun _ => ?_
  by_cases h0 : piece = 0
  · simp [h0]
  by_cases h1 : piece = 1
  · simp [h1]
  by_cases h6 : piece = 6
  · simp [h6]
  by_cases h7 : piece = 7
  · simp [h7]
  by_cases hchain : piece < 6
  · simp [h0, h1, h6, h7, hchain]
  · simp [h0, h1, h6, h7, hchain, copyKey]

theorem outsideError_idle (h : outsideWork (getCore s ci) piece ≠ true) : outsideError s ci piece = s := by
  simp [outsideError, h]

theorem outsideError_again (h : outsideWork (getCore s ci) piece = true) (hn : Sparse.get 0 (getCore s ci).resends piece < 3) :
    outsideError s ci piece =
      putCore s ci { getCore s ci with resends := Sparse.put 0 (getCore s ci).resends piece (Sparse.get 0 (getCore s ci).resends piece + 1) } := by
  simp [outsideError, h, hn]

/-- The fourth failure retires the core. -/
theorem outsideError_last (h : outsideWork (getCore s ci) piece = true) (hn : 3 ≤ Sparse.get 0 (getCore s ci).resends piece) :
    outsideError s ci piece = outsideFail s ci piece := by
  simp [outsideError, h, Nat.not_lt.mpr hn]

end Outside

/-! ## Units of retired cores (R270, R271, R278) -/

section Units

variable {s : State} {ci : Nat} {u : UnitInfo}

/-- A retired core's unit goes to a free core of its die. -/
theorem adoptUnit_near {j : Nat} (hrun : (getCore s ci).run = .retired) (hu : (getCore s ci).unit = some u)
    (hj : (freeCores s u.part (dieOf ci)).contains j = true) :
    let c := getCore s ci
    adoptUnit s ci j = noteClaim s (modCore (putCore s ci { c with
        unit := none, copies := [], backlog := [], departing := [], outst := [], adopter := some j }) j fun d =>
      loadImage { d with scratch := (adoptImage c).scratch, badScr := [] } (adoptImage c)) j := by
  have hne : (freeCores s u.part (dieOf ci)).isEmpty = false :=
    List.isEmpty_eq_false_iff.mpr (List.ne_nil_of_mem (List.contains_iff_mem.mp hj))
  simp only [adoptUnit, hrun, hu, hj, hne, beq_self_eq_true, Bool.false_and, Bool.true_or, Bool.false_eq_true, if_true, if_false]

/-- An error in the snapshot store of a core that is not retired (R272). -/
theorem snapshotLost_fails (hrun : (getCore s ci).run ≠ .retired) (hu : (getCore s ci).unit = some u) :
    snapshotLost s ci = failUnit (modCore (refuseTaken (retireCore (withdraw s u.part ci) ci 0) (getCore s ci)) ci fun e => { leftCore e with
      run := .retired, freeze := none, moved := some (refOf u) }) ci u true 0x22 0 false := by
  simp only [snapshotLost, hu, beq_eq_false_iff_ne.mpr hrun, Bool.false_eq_true, if_false]

section Fail

variable {usable : Bool} {cause detail : Nat} {record : Bool}

theorem failUnit_resumes {r : Durable} (hus : usable = true) (hr : durableOf (getPart s u.part) u = some r) :
    failUnit s ci u usable cause detail record = putAside s (recordImage s r u) ci := by
  simp only [failUnit, hus, hr, if_true]

variable (hno : ∀ r, usable = true → durableOf (getPart s u.part) u ≠ some r)
include hno

theorem no_record : (if usable then durableOf (getPart s u.part) u else none) = none := by
  cases usable with
  | false => rfl
  | true => exact Option.eq_none_iff_forall_ne_some.mpr fun r => hno r rfl

theorem failUnit_requeues (hc : u.committed = false) : failUnit s ci u usable cause detail record = requeueUnit s ci u := by
  simp only [failUnit, no_record hno, hc, Bool.not_false, if_true]

theorem failUnit_ends (hc : u.committed = true) : failUnit s ci u usable cause detail record =
    unitEnded (if record then logErr s u.part ci cause detail none none 0 else s) u ci cause detail := by
  simp only [failUnit, no_record hno, hc, Bool.not_true, Bool.false_eq_true, if_false]

end Fail

/-- The index under which a unit is entered again: of a standing launch, that of its item (R356). -/
def requeueIndex (l : Launch) (u : UnitInfo) : Nat :=
  match (if l.standing then l.items.find? fun x => x.1 % pUnits l.pkt == u.index else none) with
  | some x => x.1
  | none => u.index

/-- The unit of a launch that no cancel has reached is a candidate again. -/
theorem requeueUnit_open {l : Launch} (hl : launchOf (getPart s u.part) u.launch = some l) (hc : l.cancelled = none) :
    let n := requeueIndex l u
    let s1 := modLaunch s u.part l.id fun x => { x with todo := natInsert n x.todo, live := x.live.erase u.index }
    requeueUnit s ci u = pushCands s1 [{ candOf s1 u.part l n with arrive := u.arrive, cosched := false }] := by
  simp only [requeueUnit, hl, hc]
  rfl

/-- The image of a durable record has its tiles EMPTY, with their descriptors (R273). -/
theorem recordImage_tiles (r : Durable) : let i := recordImage s r u
    (∀ x ∈ i.a.tiles, x.2.st = .empty) ∧ i.a.tiles.map (fun x => (x.1, x.2.desc)) = r.snap.tiles.map fun x => (x.1, x.2.desc) := by
  refine ⟨fun x hx => ?_, List.map_map⟩
  obtain ⟨y, -, rfl⟩ := List.mem_map.mp hx
  rfl

end Units

/-! ## A failed die (R271) -/

/-- What a function does not read of an element, a change of every element leaves. -/
theorem vget_vmap_of {α β : Type} {n : Nat} {f : α → α} {g : α → β} (h : ∀ x, g (f x) = g x) (v : Vector α n) (d : α) (i : Nat) :
    g (vget (vmap f v) d i) = g (vget v d i) := by
  by_cases hi : i < n
  · simp [vget, vmap, hi, h]
  · simp [vget, hi]

/-- What the work at the homes of memory leaves of a core and a die: the unit, the architectural state, and whether the die is up. -/
def carried (i d : Nat) (s : State) : Option UnitInfo × Arch × Bool := ((getCore s i).unit, (getCore s i).a, (getDie s d).up)

section Carried

variable {i d : Nat}

theorem up_modDie (s : State) (e : Nat) {f : Die → Die} (h : e = d → ∀ x, (f x).up = x.up) : (getDie (modDie s e f) d).up = (getDie s d).up := by
  by_cases he : e = d
  · subst he
    by_cases hlt : e < 2
    · rw [getDie_modDie_self s f hlt, h rfl]
    · simp [modDie, putDie, getDie, vset, hlt]
  · rw [modDie, getDie_putDie_ne _ _ he]

theorem carried_modDie (s : State) (e : Nat) {f : Die → Die} (h : e = d → ∀ x, (f x).up = x.up) :
    carried i d (modDie s e f) = carried i d s := by
  rw [carried, up_modDie s e h]
  rfl

@[simp] theorem carried_modDc (s : State) (e : Nat) (f : List DcLine → List DcLine) : carried i d (modDc s e f) = carried i d s :=
  carried_modDie s e fun _ _ => rfl

/-- A change of every core that leaves units and architectural state. -/
theorem carried_mapCores (s : State) {f : Core → Core} (h : ∀ c, ((f c).unit, (f c).a) = (c.unit, c.a)) :
    carried i d { s with cores := vmap f s.cores } = carried i d s :=
  congrArg (fun x : Option UnitInfo × Arch => (x.1, x.2, (getDie s d).up)) (vget_vmap_of (g := fun c : Core => (c.unit, c.a)) h s.cores Core.zero i)

/-- A change of every die that leaves whether it is up. -/
theorem carried_mapDies (s : State) {f : Die → Die} (h : ∀ x, (f x).up = x.up) :
    carried i d { s with dies := vmap f s.dies } = carried i d s :=
  congrArg (fun x => ((getCore s i).unit, (getCore s i).a, x)) (vget_vmap_of (g := Die.up) h s.dies Die.zero d)

/-- Steps that leave them leave them together. -/
theorem carried_foldl {α : Type} {f : State → α → State} (h : ∀ s x, carried i d (f s x) = carried i d s) (l : List α) :
    ∀ s, carried i d (l.foldl f s) = carried i d s := by
  induction l with
  | nil => exact fun s => rfl
  | cons x l ih => exact fun s => (ih _).trans (h s x)

@[simp] theorem carried_countMismatch (s : State) (p c : Nat) : carried i d (countMismatch s p c) = carried i d s := by
  unfold countMismatch
  dsimp only
  split <;> rfl

@[simp] theorem carried_spoil (t : State) (x : List Nat) (y : Sparse (Option SectorFault)) :
    carried i d { t with poisoned := x, faulty := y } = carried i d t := rfl

@[simp] theorem carried_logErr (s : State) (p c x e : Nat) (a b : Option Word) (n : Nat) :
    carried i d (logErr s p c x e a b n) = carried i d s := rfl

@[simp] theorem carried_readSector (s : State) (p c pa : Nat) (va : Word) : carried i d (readSector s p c pa va).1 = carried i d s := by
  unfold readSector
  dsimp only
  split
  · rfl
  · split
    · rfl
    · simp
    · split
      · simp
      · rfl
    · split
      · simp
      · rfl

@[simp] theorem carried_writeBack (s : State) (e sec : Nat) : carried i d (writeBack s e sec) = carried i d s := by
  have stored (t : State) (x : List Nat) (y : Sparse (Option SectorFault)) (z : Sparse Nat) :
      carried i d { t with poisoned := x, faulty := y, sectorTags := z } = carried i d t := rfl
  unfold writeBack
  dsimp only
  split
  · rw [stored, carried_modDc]
    split
    · rfl
    · exact carried_readSector ..
  · rfl

@[simp] theorem carried_dcOthers (s : State) (e p sec : Nat) : carried i d (dcOthers s e p sec) = carried i d s := by
  unfold dcOthers
  split
  · simp [dcDrop]
  · rfl

@[simp] theorem carried_dcPut (s : State) (e : Nat) (l : DcLine) : carried i d (dcPut s e l) = carried i d s := by
  unfold dcPut
  dsimp only
  split <;> simp

/-- A request for a line by an agent that is no core. -/
@[simp] theorem carried_touchLine (s : State) (p c pa : Nat) (va : Word) : carried i d (touchLine s p c none pa va).1 = carried i d s := by
  have hclean : carried i d (cleanStash s none (pa / 128)) = carried i d s := carried_mapCores s fun _ => rfl
  unfold touchLine
  dsimp only
  split
  · rfl
  · split <;> simp [hclean]

@[simp] theorem carried_queueInval (s : State) (line : Nat) : carried i d (queueInval s none line) = carried i d s := by
  refine carried_mapCores s fun c => ?_
  dsimp only
  split <;> rfl

/-- A write at the home by an agent that is no core. -/
@[simp] theorem carried_devWrite (s : State) (p pa : Nat) (va : Word) (b : List Byte) (m : BitVec 32) (whole : Bool) :
    carried i d (devWrite s none p pa va b m whole) = carried i d s := by
  have stored (t : State) (y : Sparse Byte) : carried i d { t with mem := y } = carried i d t := rfl
  unfold devWrite
  dsimp only
  split
  · rfl
  · rw [stored, carried_modDc]
    split
    · exact carried_queueInval ..
    · split <;> simp

@[simp] theorem carried_applyRecords (s : State) (p : Nat) : carried i d (applyRecords s p) = carried i d s :=
  carried_foldl (fun t (r : Durable) => carried_foldl (fun _ _ => carried_devWrite ..) r.stores t) _ s

@[simp] theorem carried_dropLost (s : State) (e : Nat) : carried i d (dropLost s e) = carried i d s :=
  carried_mapCores s fun _ => rfl

@[simp] theorem carried_dropCands (s : State) (f : Cand → Bool) : carried i d (dropCands s f) = carried i d s :=
  carried_mapDies s fun _ => rfl

@[simp] theorem carried_spoilCache (s : State) (l : List DcLine) : carried i d (spoilCache s l) = carried i d s := rfl

/-- A die that goes down. -/
theorem carried_downDie (s : State) (hd : d < 2) {f : Die → Die} (hf : ∀ x, (f x).up = false) :
    carried i d (modDie s d f) = ((getCore s i).unit, (getCore s i).a, false) := by
  rw [carried, getDie_modDie_self s f hd, hf]
  rfl

end Carried

/-- The state with the cores of a die cleared. -/
def clearCores (s : State) (d : Nat) : State := (List.range 36).foldl (fun s i => putCore s (36 * d + i) Core.zero) s

theorem getCore_clearCores_ne (s : State) {d k : Nat} (h : k / 36 ≠ d) : getCore (clearCores s d) k = getCore s k := by
  refine List.foldlRecOn (motive := fun t => getCore t k = getCore s k) _ _ rfl fun t ht i hi => ?_
  have hi := List.mem_range.mp hi
  exact (getCore_putCore_ne t _ (by omega)).trans ht

theorem getCore_clearList {d i : Nat} (hk : 36 * d + i < 72) (l : List Nat) : ∀ s, i ∈ l ∨ getCore s (36 * d + i) = Core.zero →
    getCore (l.foldl (fun s i => putCore s (36 * d + i) Core.zero) s) (36 * d + i) = Core.zero := by
  induction l with
  | nil => exact fun s h => h.resolve_left List.not_mem_nil
  | cons j l ih =>
    intro s h
    by_cases hj : j = i
    · subst hj
      exact ih _ (.inr (getCore_putCore_self s _ hk))
    · have hne : 36 * d + j ≠ 36 * d + i := by omega
      refine ih _ (h.imp (fun hi => (List.mem_cons.mp hi).resolve_left fun he => hj he.symm) fun hz => ?_)
      rw [getCore_putCore_ne _ _ hne, hz]

theorem getCore_clearCores_self (s : State) {d i : Nat} (hd : d < 2) (hi : i < 36) : getCore (clearCores s d) (36 * d + i) = Core.zero :=
  getCore_clearList (by omega) _ s (.inl (List.mem_range.mpr hi))

theorem cores_modParts (f : Part → Part) (l : List Nat) (s : State) : (l.foldl (fun s p => modPart s p f) s).cores = s.cores :=
  List.foldlRecOn (motive := fun t : State => t.cores = s.cores) l _ rfl fun _ ht _ _ => ht

/-- The units that the cores of a die hold. -/
def dieUnits (s : State) (d : Nat) : List (Nat × UnitInfo) :=
  (List.range 36).filterMap fun i => (getCore s (36 * d + i)).unit.map fun u => (36 * d + i, u)

/-- With no unit switched out, a failed die's cores are cleared, it goes down, and each unit that its cores held is handled. -/
theorem failDie_units {s : State} {d : Nat} (hd : d < 2) (hnone : ∀ p < 8, (getPart s p).switched = []) : ∃ t : State,
    failDie s d = (dieUnits s d).foldl (fun z x => failUnit z x.1 x.2 (!bitOf x.2.localw d) 0x25 d true) t ∧
    ∀ i, carried i d t = ((getCore (clearCores s d) i).unit, (getCore (clearCores s d) i).a, false) := by
  have hgone : ((List.range 8).flatMap fun p => ((getPart s p).switched.filter fun x => dieOf x.core == d).filterMap fun x =>
      x.image.unit.map fun u => (x.core, u)) = [] := by
    refine List.flatMap_eq_nil_iff.mpr fun p hp => ?_
    rw [hnone p (List.mem_range.mp hp)]
    rfl
  unfold failDie
  dsimp only
  rw [hgone, List.append_nil]
  refine ⟨_, rfl, fun i => ?_⟩
  rw [carried_foldl carried_applyRecords, carried_spoilCache, carried_dropLost, carried_dropCands]
  refine (carried_modDie _ _ ?_).trans ((carried_downDie _ hd ?_).trans ?_)
  · exact fun _ _ => rfl
  · exact fun _ => rfl
  · rw [getCore, cores_modParts]
    rfl

/-- Settles O47: each clause is one of the lemmas above. -/
theorem errorEvents : Obligations.ErrorEvents := by
  unfold Obligations.ErrorEvents
  intro s ci j src hci hj c
  refine ⟨fun hsrc hrun hu hf => ?replays, fun f hsrc hrun hu hf => ?waits, fun hlt => ?again, fun hle => ?last, fun piece hh => ?outside,
    fun u hrun hu hfree => ?adoption, fun u hrun hu => ?snapshot, fun t i u usable cause detail record => ?table, fun t r u => ?record,
    fun hd hnone => ?die, fun u l hl hc => requeueUnit_open hl hc, fun hd hup hother => ?failover⟩
  case replays => exact (agentStep hci _).trans (congrArg _ (detectError_replays hsrc hrun hu hf))
  case waits => exact (agentStep hci _).trans (congrArg _ (detectError_waits hsrc hrun hu hf))
  case again =>
    intro r c'
    have hr : r = _ := replayRegion_again src hci hlt
    have hself : c' = nextAttempt c := (congrArg (getCore · ci) hr).trans (getCore_putCore_self _ _ hci)
    have hquiet : c.ext = [] → c'.a = c.snap := fun h => (congrArg Core.a hself).trans (restoreSnap_quiet h)
    have hmem : r.mem = s.mem := (congrArg State.mem hr :)
    obtain ⟨a, f, heq⟩ := nextAttempt_eq c
    have hc' := hself.trans heq
    clear_value c'
    subst hc'
    exact ⟨rfl, rfl, rfl, rfl, rfl, rfl, rfl, rfl, rfl, fun x hx ho => discardRegion_copies hx ho, hquiet, hmem,
      fun k hk => getCore_replayRegion_ne src hci hlt hk⟩
  case last =>
    intro r
    have hr : r = _ := replayRegion_last src hle
    have hself : getCore r ci = { discardRegion (discardRegion c) with run := .retired } := by
      rw [hr, getCore_retireCore_self src _ hci, getCore_logErr, getCore_putCore_self s _ hci]
    rw [hself, hr]
    exact ⟨rfl, rfl, rfl, mem_retiredCores_retireCore src _ ci, rfl⟩
  case outside =>
    intro work n src
    have hexec {t : State} (ht : outsideError s ci piece = t) : exec (.outOfRegionError ⟨ci, piece⟩) s = .next t :=
      (exec_outOfRegionError_here hci hh).trans (congrArg _ ht)
    have hwork : outsideWork c piece = true ↔ work := outsideWork_iff c piece
    exact ⟨fun h => hexec (outsideError_idle (mt hwork.mp h)), fun h hn => hexec (outsideError_again (hwork.mpr h) hn),
      fun h hn => hexec (outsideError_last (hwork.mpr h) hn)⟩
  case adoption =>
    intro old s1
    exact Eq.trans (if_neg (not_or.mpr ⟨Nat.not_le.mpr hci, Nat.not_le.mpr hj⟩)) (congrArg _ (adoptUnit_near hrun hu hfree))
  case snapshot => exact (agentStep hci _).trans (congrArg _ (snapshotLost_fails hrun hu))
  case table => exact ⟨fun r => failUnit_resumes, failUnit_requeues, failUnit_ends⟩
  case record =>
    obtain ⟨hempty, hdesc⟩ := recordImage_tiles (s := t) (u := u) r
    exact ⟨rfl, rfl, rfl, rfl, hempty, hdesc, rfl, rfl, rfl⟩
  case die =>
    obtain ⟨t, ht, hhold⟩ := failDie_units hd hnone
    refine ⟨t, ht, congrArg (·.2.2) (hhold 0), fun i hi => ?_, fun k _ hk => ?_⟩
    · exact (congrArg Prod.fst (hhold _)).trans (congrArg Core.unit (getCore_clearCores_self s hd hi))
    · have hkept := hhold k
      rw [getCore_clearCores_ne s hk] at hkept
      exact ⟨congrArg Prod.fst hkept, congrArg (·.2.1.regs) hkept⟩
  case failover =>
    refine Eq.trans (if_neg (Nat.not_le.mpr hd)) (congrArg _ (if_pos ?_))
    rw [hup, hother]
    rfl

end Sys2Proof.Machine
end

section
/-! O43. Steps of the Almanac and of the Shepherd. -/

namespace Sys2Proof.Machine

/-! ## The Almanac's queue (R294) -/

/-- The state after the head of the Almanac queue has taken its next slot and left core `c`. -/
def almAdvance (s : State) (ci : Nat) (x : AlmOp) (r : List AlmOp) (c : Core) : State :=
  if x.at_ + 1 < x.count then putCore s ci { c with almq := { x with at_ := x.at_ + 1 } :: r }
  else putCore s ci (completePush { c with almq := r } x.push false)

section Queue

variable {s : State} {ci : Nat} {x : AlmOp} {r : List AlmOp} (hci : ci < 72) (hrun : enginesRun (getCore s ci) = true)
  (hq : (getCore s ci).almq = x :: r) (hs : x.stopped = false)
include hci hrun hq hs

theorem exec_almanacStep_acts {c : Core} (h : almSlotStep (getCore s ci) x (x.first + x.at_) = .ok c) :
    exec (.almanacStep ci) s = .next (almAdvance s ci x r c) := by
  refine (agentStep hci (almRun s ci)).trans (congrArg _ ?_)
  simp [almRun, almAdvance, hrun, hq, hs, h]

theorem exec_almanacStep_stops {t : Trap} (h : almSlotStep (getCore s ci) x (x.first + x.at_) = .error t) :
    exec (.almanacStep ci) s =
      .next (putCore s ci (addEngTrap { getCore s ci with almq := { x with stopped := true } :: r } t)) := by
  refine (agentStep hci (almRun s ci)).trans (congrArg _ ?_)
  simp [almRun, hrun, hq, hs, h]

end Queue

theorem almSlotStep_skips {c : Core} {k : Nat} (x : AlmOp) (h : almLive (almOf c.a k) = false) : almSlotStep c x k = .ok c := by
  simp [almSlotStep, h]

section Slot

variable {c : Core} {x : AlmOp} {k : Nat} {m : List Word} (hlive : almLive (almOf c.a k) = true)
  (hm : vget c.a.methods none (almOf c.a k).meth = some m) (ha : almActs x (almOf c.a k) m = true)
include hlive hm ha

theorem almSlotStep_stage (hk : x.kind = 0) : almSlotStep c x k = almStage c x k (almOf c.a k) m := by
  simp [almSlotStep, hlive, hm, ha, hk]

theorem almSlotStep_error (hk : x.kind = 1) : almSlotStep c x k = almError c k (almOf c.a k) m := by
  simp [almSlotStep, hlive, hm, ha, hk]

theorem almSlotStep_decision (hk : x.kind = 2) :
    almSlotStep c x k = .ok { c with a := putAlm c.a k (almDecide m (almOf c.a k)) } := by
  simp [almSlotStep, hlive, hm, ha, hk]

end Slot

/-! ## Methods (R279) -/

theorem methAb_iff (m : List Word) : methAb m = true ↔ (nth 0 m 0).toNat / 2 ^ 3 % 2 = 1 := beq_iff_eq

theorem methStages_eq (m : List Word) : methStages m = (nth 0 m 0).toNat % 2 ^ 3 :=
  congrArg (· % 2 ^ 3) (Nat.div_one (nth 0 m 0).toNat)

/-! ## A stage (R288) -/

/-- The columns of a stage's row that count; an Adams–Bashforth stage has none. -/
def stageCols (m : List Word) (y : AlmSlot) : List Nat := if methAb m then [] else almCols m y.sidx

/-- The elements of a stage written, each before the next one is read. -/
def stageElems (c : Core) (y : AlmSlot) (m : List Word) : Core :=
  (List.range (almCount c.a y.tx)).foldl (fun c e =>
    almPut c y.ty e (if methAb m then almElem c y.tx e else almPoison (almSum c e (almElem c y.tx e)
      ((stageCols m y).map fun j => (nth 0 y.tk j, toF32Product y.h.toNat (methA m y.sidx j)))))) c

/-- The time of a stage. -/
def stageTime (y : AlmSlot) (m : List Word) : Nat :=
  if methAb m then y.t.toNat else dAdd y.t.toNat (dMul (methF m (8 + y.sidx)) y.h.toNat)

/-- A stage formed: its elements, its time in the scratchpad, and its slot. -/
def stageCore (c : Core) (x : AlmOp) (k : Nat) (y : AlmSlot) (m : List Word) : Core :=
  let c1 := scrStore (stageElems c y m) (x.off + 8 * (k - x.first)) (natBytes 8 (stageTime y m)) false
  { c1 with a := putAlm c1.a k { y with sidx := y.sidx + 1, st := .run } }

theorem almStage_forms {c : Core} {y : AlmSlot} {m : List Word} (x : AlmOp) (k : Nat)
    (hr : ∀ h ∈ y.tx :: (stageCols m y).map (nth 0 y.tk), almTileFault c.a y.tx h false = none)
    (hw : almTileFault c.a y.tx y.ty true = none) : almStage c x k y m = .ok (stageCore c x k y m) := by
  have hread := List.findSome?_eq_none_iff.mpr hr
  unfold stageCols at hread
  simp only [almStage, hread, hw]
  rfl

/-! ## An error norm (R290) -/

/-- The terms of an Adams–Bashforth error step of order `p`. -/
def abTerms (y : AlmSlot) (p : Nat) : List (Nat × Nat × Nat) :=
  let b := abCoefs y.h.toNat y.hh1.toNat y.hh2.toNat p
  let bh := if p = 1 then b else abCoefs y.h.toNat y.hh1.toNat y.hh2.toNat (p - 1)
  (List.range p).map fun j => (nth 0 y.th j, nth 0 b j, nth 0 bh j)

theorem errTerms_eq (m : List Word) (y : AlmSlot) : errTerms m y =
    if methAb m then abTerms y (min (methOrder m) (1 + y.hcnt))
    else (List.range (methStages m)).map fun j => (nth 0 y.tk j, methF m (15 + j), methF m (22 + j)) := by
  by_cases hab : methAb m = true
  · simp only [errTerms, abOrder, hab, if_true]
    rfl
  · rw [errTerms, if_neg hab, if_neg hab]

/-- The terms of an error step that count: those with a coefficient that is not zero. -/
def errUsed (m : List Word) (y : AlmSlot) : List (Nat × Nat × Nat) :=
  (errTerms m y).filter fun t => !dZero t.2.1 || !dZero t.2.2

/-- The derivatives of the solution whose coefficients are `f`, with their weights. -/
def errWeightsOf (m : List Word) (y : AlmSlot) (f : Nat × Nat × Nat → Nat) : List (Nat × Nat) :=
  ((errUsed m y).filter fun t => !dZero (f t)).map fun t => (t.1, toF32Product y.h.toNat (f t))

theorem errWeights_used (m : List Word) (y : AlmSlot) (f : Nat × Nat × Nat → Nat) :
    errWeights y.h.toNat ((errUsed m y).map fun t => (t.1, f t)) = errWeightsOf m y f := by
  rw [errWeights, List.filter_map, List.map_map]
  rfl

/-- The loop of an error step. -/
def errLoop (c : Core) (y : AlmSlot) (m : List Word) : ErrRun :=
  (List.range (almCount c.a y.tx)).foldl (errElem m y (errWeightsOf m y (·.2.1)) (errWeightsOf m y (·.2.2)))
    { core := c, sum := 0, psn := false }

/-- The slot after an error step whose loop left `r`, for `n` elements. -/
def errSlot (y : AlmSlot) (m : List Word) (r : ErrRun) (n : Nat) : AlmSlot :=
  { y with lasterr := BitVec.ofNat 64 (if r.psn then fF64.cnan else errNorm r.sum n), psn := y.psn || r.psn, peff := abOrder m y
           tx := y.trb, trb := y.tx, errv := true }

/-- An error step made: its loop, then its slot. -/
def errCore (c : Core) (k : Nat) (y : AlmSlot) (m : List Word) : Core :=
  let r := errLoop c y m
  { r.core with a := putAlm r.core.a k (errSlot y m r (almCount c.a y.tx)) }

theorem almError_measures {c : Core} {y : AlmSlot} {m : List Word} (k : Nat)
    (hr : ∀ h ∈ y.tx :: (errUsed m y).map (·.1), almTileFault c.a y.tx h false = none)
    (hw : almTileFault c.a y.tx y.trb true = none) : almError c k y m = .ok (errCore c k y m) := by
  have hread := List.findSome?_eq_none_iff.mpr hr
  unfold errUsed at hread
  simp only [almError, hread, hw]
  rw [errCore, errLoop, ← errWeights_used, ← errWeights_used]
  rfl

/-! ## A decision (R291) -/

/-- The slot of an accepted step with its history turned. -/
def acceptTurned (m : List Word) (y : AlmSlot) : AlmSlot :=
  if methAb m then
    { y with th := nth 0 y.th (methOrder m - 1) :: (y.th.take (methOrder m - 1) ++ y.th.drop (methOrder m))
             hh2 := y.hh1, hh1 := y.h, hcnt := min (y.hcnt + 1) (methOrder m - 1) }
  else y

/-- The slot of an accepted step before the clip rule. -/
def acceptTaken (m : List Word) (y : AlmSlot) (fac : Nat) : AlmSlot :=
  { acceptTurned m y with
    t := if y.clip then y.tend else BitVec.ofNat 64 (dAdd y.t.toNat y.h.toNat)
    st := if y.clip then .done else .accepted
    h := BitVec.ofNat 64 (dMul y.h.toNat fac), nacc := min (y.nacc + 1) 65535, sidx := 0, errv := false }

/-- A clipped step ends the slot; the clip rule is for any other. -/
theorem almAccept_eq (m : List Word) (y : AlmSlot) (fac : Nat) :
    almAccept m y fac = if y.clip then acceptTaken m y fac else clipRule (acceptTaken m y fac) := by
  cases hc : y.clip <;> simp [almAccept, acceptTaken, acceptTurned, hc]

/-! ## The Shepherd (R303, R304) -/

section Shepherd

variable {s : State} {ci k : Nat} (hci : ci < 72) (hrun : enginesRun (getCore s ci) = true)
include hci hrun

theorem exec_shepherdOperation_starts (hn : (getCore s ci).shrun = .none)
    (hk : (List.range 16).find? (fun k => (shOf (getCore s ci).snap k).st == .train || (shOf (getCore s ci).snap k).st == .candidate) = some k) :
    exec (.shepherdOperation ci) s = .next (putCore s ci { getCore s ci with shrun := .running k }) := by
  refine (agentStep hci (shepherdRun s ci)).trans (congrArg _ ?_)
  simp only [shepherdRun, hrun, hn, hk]
  rfl

theorem exec_shepherdOperation_trains (hr : (getCore s ci).shrun = .running k) (hst : (shOf (getCore s ci).snap k).st = .train) :
    exec (.shepherdOperation ci) s = .next (putCore s ci
      { getCore s ci with shrun := .trained k (shTrain (getCore s ci) (shOf (getCore s ci).snap k)) }) := by
  refine (agentStep hci (shepherdRun s ci)).trans (congrArg _ ?_)
  simp only [shepherdRun, hrun, hr, hst]
  rfl

theorem exec_shepherdOperation_validates (hr : (getCore s ci).shrun = .running k) (hst : (shOf (getCore s ci).snap k).st = .candidate) :
    exec (.shepherdOperation ci) s = .next (putCore s ci
      (let v := shValidate { getCore s ci with a := (getCore s ci).snap } (shOf (getCore s ci).snap k)
       { getCore s ci with shrun := .validated k v.1 v.2 })) := by
  refine (agentStep hci (shepherdRun s ci)).trans (congrArg _ ?_)
  simp only [shepherdRun, hrun, hr, hst]
  rfl

end Shepherd

/-- The errors of the held-out pairs. -/
def heldOutErrors (c : Core) (d : BitVec 256) : List Nat :=
  (List.range 32).map fun j => let p := shPair c d (8 * j + 7); shErr (shForward c d p.1) p.2

/-- EMEAN over a list of errors, begun with the first. -/
def runningMean (es : List Nat) : Nat := (es.drop 1).foldl shMean (nth 0 es 0)

theorem shValidate_eq (c : Core) (x : ShSlot) : shValidate c x =
    ((heldOutErrors c x.decl).all (fun e => rLe e c.a.shmaxe.toNat) && rLe (runningMean (heldOutErrors c x.decl)) c.a.shmean.toNat,
      BitVec.ofNat 32 (runningMean (heldOutErrors c x.decl))) := rfl

/-- Settles O43: the clauses of a slot are the lemmas above, with the model's tests of the method's type written out. -/
theorem almanacAndShepherdEvents : Obligations.AlmanacAndShepherdEvents := by
  unfold Obligations.AlmanacAndShepherdEvents
  intro s ci hci c runs
  refine ⟨fun x r hrun hq hs => ?slot, fun x r t hrun hq hs ht => exec_almanacStep_stops hci hrun hq hs ht,
    fun _ _ _ => ⟨rfl, rfl, rfl⟩, fun k hrun hn hk => exec_shepherdOperation_starts hci hrun hn hk,
    fun k hrun hr hst => exec_shepherdOperation_trains hci hrun hr hst, fun k hrun hr hst => ?validates,
    fun _ _ _ _ _ _ _ _ _ _ _ => ⟨rfl, rfl, rfl, rfl, rfl⟩⟩
  case validates =>
    refine (exec_shepherdOperation_validates hci hrun hr hst).trans ?_
    rw [shValidate_eq]
    rfl
  case slot =>
    intro k y after
    have acts {c1 : Core} (h : almSlotStep c x k = .ok c1) : exec (.almanacStep ci) s = .next (after c1) :=
      exec_almanacStep_acts hci hrun hq hs h
    refine ⟨fun hlive => acts (almSlotStep_skips x hlive), fun m hlive hm hact => ?_⟩
    intro ab stages order w sum poison elems reads writes
    refine ⟨?stage, ?error, ?decision⟩
    case stage =>
      intro js weights c1 tau c2 hk hr hw
      have hjs : js = stageCols m y := by
        simp only [stageCols, methAb_iff]
        rfl
      have hc1 : c1 = stageElems c y m := by
        simp only [stageElems, methAb_iff, ← hjs]
        rfl
      have htau : tau = stageTime y m := by
        simp only [stageTime, methAb_iff]
        rfl
      have hstage : almStage c x k y m = .ok { c2 with a := putAlm c2.a k { y with sidx := y.sidx + 1, st := .run } } := by
        rw [almStage_forms x k (hjs ▸ hr) hw, stageCore, ← hc1, ← htau]
      exact acts ((almSlotStep_stage hlive hm hact hk).trans hstage)
    case error =>
      intro p b bh all used weights square r norm hk hr hw
      have hall : all = errTerms m y := by
        simp only [errTerms_eq, methAb_iff, methStages_eq]
        rfl
      have hused : used = errUsed m y := congrArg (List.filter _) hall
      have hweights : weights = errWeightsOf m y := by
        funext f
        exact congrArg (fun l : List (Nat × Nat × Nat) => (l.filter _).map _) hused
      have hr' : r = errLoop c y m := by
        rw [errLoop, ← hweights]
        rfl
      have hp : (if ab then p else 0) = abOrder m y := by
        simp only [abOrder, methAb_iff]
        rfl
      have hn : norm = errNorm r.sum (almCount c.a y.tx) := congrArg (errNorm r.sum) List.length_range
      have herror : almError c k y m = .ok { r.core with
          a := putAlm r.core.a k { y with lasterr := BitVec.ofNat 64 (if r.psn then fF64.cnan else norm), psn := y.psn || r.psn
                                          peff := if ab then p else 0, tx := y.trb, trb := y.tx, errv := true } } := by
        rw [almError_measures k (hused ▸ hr) hw, errCore, errSlot, ← hr', ← hp, ← hn]
      exact acts ((almSlotStep_error hlive hm hact hk).trans herror)
    case decision =>
      intro err fac turned taken back z hk
      have hfac : fac = almFactor m y := by
        simp only [almFactor, Bool.and_eq_true, methAb_iff, beq_iff_eq]
        rfl
      have hturned : turned = acceptTurned m y := by
        simp only [acceptTurned, methAb_iff]
        rfl
      have htaken : taken = acceptTaken m y fac := by
        rw [acceptTaken, ← hturned]
      have hz : almDecide m y = z := by
        simp only [almDecide, almAccept_eq, almReject, ← hfac, ← htaken, methAb_iff]
        rfl
      exact acts ((almSlotStep_decision hlive hm hact hk).trans (by rw [hz]))

end Sys2Proof.Machine
end

section
/-! SUPPORT for O55. The memories of a state, and what it is for them, for the end of a word and for a step to be in canonical form (log 2). -/

namespace Sys2Proof.Machine

/-- The three memories of a state: the device's, the host's, and the peers'. -/
def State.memories (s : State) : List Host.Cell × List Host.Cell × List Host.Cell := (s.mem, s.hostMem, s.peerMem)

/-- Memories of which each is in canonical form (log 2). -/
def Canonical (m : List Host.Cell × List Host.Cell × List Host.Cell) : Prop :=
  Memory.wf m.1 = true ∧ Memory.wf m.2.1 = true ∧ Memory.wf m.2.2 = true

theorem memWf_iff (s : State) : s.memWf = true ↔ Canonical s.memories := by
  simp [State.memWf, Canonical, State.memories, and_assoc]

/-- The memories of a state whose fields are written out, as an update of fields writes them. -/
@[simp] theorem memories_mk {cores dies parts mem poisoned sectorTags faulty hostMem hostPoison peerMem peerPoison dtime mirroredGiB mirroredNext
    slew slewAcc boostAt powerCeiling workLimit intthr mismatches alarm keysValid attKey keyEpoch retiredCores minVersion flashValid flashVersion
    fwImage doorbells ldLast ldDone msixPending msixLast outbox corrected apertures timeMaster waiting accesses agenda focusCore focusCl bundle
    tick} :
    (State.mk cores dies parts mem poisoned sectorTags faulty hostMem hostPoison peerMem peerPoison dtime mirroredGiB mirroredNext
      slew slewAcc boostAt powerCeiling workLimit intthr mismatches alarm keysValid attKey keyEpoch retiredCores minVersion flashValid flashVersion
      fwImage doorbells ldLast ldDone msixPending msixLast outbox corrected apertures timeMaster waiting accesses agenda focusCore focusCl bundle
      tick).memories = (mem, hostMem, peerMem) := rfl

@[simp] theorem memories_eta (s : State) : (s.mem, s.hostMem, s.peerMem) = s.memories := rfl

theorem memories_foldl {α : Type} {f : State → α → State} (hf : ∀ s x, (f s x).memories = s.memories) (l : List α) :
    ∀ s, (l.foldl f s).memories = s.memories := by
  induction l with
  | nil => exact fun _ => rfl
  | cons x r ih => exact fun s => (ih _).trans (hf s x)

theorem canonical_foldl {α : Type} {f : State → α → State} (hf : ∀ s x, Canonical s.memories → Canonical (f s x).memories) (l : List α) :
    ∀ s, Canonical s.memories → Canonical (l.foldl f s).memories := by
  induction l with
  | nil => exact fun _ h => h
  | cons x r ih => exact fun s h => ih _ (hf s x h)

/-- The memories that the end of a word's meaning leaves are in canonical form. -/
def Res.Canonical : Res → Prop
  | .done s | .later s | .lit s | .jump s _ | .set s => Machine.Canonical s.memories
  | .stall | .retry | .raise _ => True

/-- The memories that a step leaves are in canonical form. -/
def NextCanonical : Host.Outcome State Fault Refusal → Prop
  | .next s => Canonical s.memories
  | .fault _ | .refused _ => True

@[simp] theorem canonical_done (s : State) : (Res.done s).Canonical ↔ Canonical s.memories := Iff.rfl
@[simp] theorem canonical_later (s : State) : (Res.later s).Canonical ↔ Canonical s.memories := Iff.rfl
@[simp] theorem canonical_lit (s : State) : (Res.lit s).Canonical ↔ Canonical s.memories := Iff.rfl
@[simp] theorem canonical_jump (s : State) (a : Word) : (Res.jump s a).Canonical ↔ Canonical s.memories := Iff.rfl
@[simp] theorem canonical_set (s : State) : (Res.set s).Canonical ↔ Canonical s.memories := Iff.rfl
@[simp] theorem canonical_stall : Res.stall.Canonical := trivial
@[simp] theorem canonical_retry : Res.retry.Canonical := trivial
@[simp] theorem canonical_raise (t : Trap) : (Res.raise t).Canonical := trivial
@[simp] theorem nextCanonical_next (s : State) : NextCanonical (.next s) ↔ Canonical s.memories := Iff.rfl
@[simp] theorem nextCanonical_fault (f : Fault) : NextCanonical (.fault f) := trivial
@[simp] theorem nextCanonical_refused (f : Refusal) : NextCanonical (.refused f) := trivial

/-- The memories that a piece of a copy leaves are in canonical form. -/
def Moved.Canonical : Moved → Prop
  | .ok s _ => Machine.Canonical s.memories
  | .fault _ | .retry => True

/-- The memories that a push or a pop leaves are in canonical form. -/
def Ported.Canonical : Ported → Prop
  | .ok s _ => Machine.Canonical s.memories
  | .wait | .trap _ | .over => True

/-- The memories that the pops of a word's sources leave, or the end of the word that they lead to, are in canonical form. -/
def PopsCanonical : Except Res (State × List (Nat × List Lane)) → Prop
  | .ok x => Canonical x.1.memories
  | .error r => r.Canonical

/-- What an event of a core does, where it is no fault. -/
theorem coreEvent_canonical {n : Nat} {t : State} (h : Canonical t.memories) :
    NextCanonical (if 72 ≤ n then .fault .noSuchAgent else .next t) := by
  split
  · trivial
  · exact h

end Sys2Proof.Machine
end

section
/-! SUPPORT for O55. What the functions of Machine/Ops.lean leave of the memories. -/

namespace Sys2Proof.Machine

@[simp] theorem putCore_memories (s : State) (i : Nat) (c : Core) : (putCore s i c).memories = s.memories := by
  simp [putCore]

@[simp] theorem modCore_memories (s : State) (i : Nat) (f : Core → Core) : (modCore s i f).memories = s.memories := by
  simp [modCore]

@[simp] theorem modArch_memories (s : State) (i : Nat) (f : Arch → Arch) : (modArch s i f).memories = s.memories := by
  simp [modArch]

@[simp] theorem putPart_memories (s : State) (p : Nat) (x : Part) : (putPart s p x).memories = s.memories := by
  simp [putPart]

@[simp] theorem modPart_memories (s : State) (p : Nat) (f : Part → Part) : (modPart s p f).memories = s.memories := by
  simp [modPart]

@[simp] theorem putDie_memories (s : State) (d : Nat) (x : Die) : (putDie s d x).memories = s.memories := by
  simp [putDie]

@[simp] theorem modDie_memories (s : State) (d : Nat) (f : Die → Die) : (modDie s d f).memories = s.memories := by
  simp [modDie]

@[simp] theorem logErr_memories (s : State) (part core cause detail : Nat) (addr aux : Option Word) (eccst : Nat) :
    (logErr s part core cause detail addr aux eccst).memories = s.memories := by
  simp [logErr]

@[simp] theorem unpin_memories (s : State) (ci : Nat) : (unpin s ci).memories = s.memories := by
  simp [unpin]

@[simp] theorem raise_canonical (cause detail : Nat) (tval : Word) : (raise cause detail tval).Canonical := by
  simp [raise]

@[simp] theorem setX_memories (e : Env) (s : State) (i : BitVec 6) (v : Word) (psn : Bool) : (setX e s i v psn).memories = s.memories := by
  simp [setX]

@[simp] theorem setFlag_memories (e : Env) (s : State) (i : Nat) (b : Bool) : (setFlag e s i b).memories = s.memories := by
  simp [setFlag]

@[simp] theorem withdraw_memories (s : State) (part ci : Nat) : (withdraw s part ci).memories = s.memories := by
  simp [withdraw]

@[simp] theorem endUnitAux_memories (s : State) (ci cause detail : Nat) (tval aux : Option Word) :
    (endUnitAux s ci cause detail tval aux).memories = s.memories := by
  simp [endUnitAux]

@[simp] theorem endUnit_memories (s : State) (ci cause detail : Nat) (tval : Option Word) :
    (endUnit s ci cause detail tval).memories = s.memories := by
  simp [endUnit]

@[simp] theorem leaveMasks_memories (s : State) (ci : Nat) : (leaveMasks s ci).memories = s.memories := by
  simp [leaveMasks]

@[simp] theorem markRetired_memories (s : State) (ci : Nat) : (markRetired s ci).memories = s.memories := by
  simp [markRetired]

@[simp] theorem stopCore_memories (s : State) (ci : Nat) : (stopCore s ci).memories = s.memories := by
  simp [stopCore]

@[simp] theorem retireCore_memories (s : State) (ci src : Nat) : (retireCore s ci src).memories = s.memories := by
  simp [retireCore]

@[simp] theorem replayRegion_memories (s : State) (ci src : Nat) : (replayRegion s ci src).memories = s.memories := by
  unfold replayRegion
  dsimp only
  (repeat' split) <;> simp

@[simp] theorem dropBundle_memories (s : State) (ci : Nat) : (dropBundle s ci).memories = s.memories := by
  simp [dropBundle]

@[simp] theorem undoBundle_memories (s : State) (ci : Nat) : (undoBundle s ci).memories = s.memories := by
  unfold undoBundle
  split <;> rfl

@[simp] theorem enterHandler_memories (s : State) (ci : Nat) (cl : Cluster) (t : Trap) :
    (enterHandler s ci cl t).memories = s.memories := by
  simp [enterHandler]

@[simp] theorem noteTrap_memories (s : State) (ci : Nat) (cl : Cluster) (t : Trap) : (noteTrap s ci cl t).memories = s.memories := by
  simp [noteTrap]

@[simp] theorem takeTrap_memories (s : State) (ci : Nat) (cl : Cluster) (t : Trap) : (takeTrap s ci cl t).memories = s.memories := by
  unfold takeTrap
  dsimp only
  (repeat' split) <;> simp

@[simp] theorem transfer_canonical (e : Env) (s : State) (t : Word) (h : Canonical s.memories) : (transfer e s t).Canonical := by
  unfold transfer
  split <;> simp [h]

@[simp] theorem noteLiteral_memories (s : State) (e : Env) : (noteLiteral s e).memories = s.memories := by
  simp [noteLiteral]

theorem conclude_canonical (s0 : State) (e : Env) (r : Res) (h : Canonical s0.memories) (hr : r.Canonical) :
    NextCanonical (conclude s0 e r) := by
  unfold conclude
  cases s0.bundle <;> cases r <;> simpa using ‹_›

theorem issue_canonical {w : Nat} {dsts : List (BitVec 6)} {g : BitVec 3} {tk : Tk} {s : State} {sem : Env → State → Res}
    (hsem : ∀ e t, Canonical t.memories → (sem e t).Canonical) (h : Canonical s.memories) : NextCanonical (issue w dsts g tk s sem) := by
  unfold issue
  dsimp only
  split
  · exact conclude_canonical _ _ _ h trivial
  · split
    · exact conclude_canonical _ _ _ h trivial
    · split
      · exact conclude_canonical _ _ _ h h
      · have hr := hsem { envOf s with pout := pushPair (envOf s).cl tk.tkout.toNat }
          (modArch s (envOf s).ci fun a => holdTok (popTok a (popPair (envOf s).cl tk.tkin.toNat)) (pushPair (envOf s).cl tk.tkout.toNat)) h
        split
        · next hs => exact conclude_canonical _ _ _ h (show Canonical _ from (congrArg Res.Canonical hs).mp hr)
        · exact conclude_canonical _ _ _ h hr

end Sys2Proof.Machine
end

section
/-! SUPPORT for O55. What the functions of Machine/Mem.lean leave of the memories. -/

namespace Sys2Proof.Machine

@[simp] theorem countMismatch_memories (s : State) (part core : Nat) : (countMismatch s part core).memories = s.memories := by
  unfold countMismatch
  dsimp only
  (repeat' split) <;> simp

@[simp] theorem readSector_memories (s : State) (part core pa : Nat) (va : Word) :
    (readSector s part core pa va).1.memories = s.memories := by
  unfold readSector
  dsimp only
  (repeat' split) <;> simp

@[simp] theorem modDc_memories (s : State) (d : Nat) (f : List DcLine → List DcLine) : (modDc s d f).memories = s.memories := by
  simp [modDc]

@[simp] theorem writeBack_memories (s : State) (d sec : Nat) : (writeBack s d sec).memories = s.memories := by
  unfold writeBack
  dsimp only
  (repeat' split) <;> simp

@[simp] theorem dcDrop_memories (s : State) (d sec : Nat) : (dcDrop s d sec).memories = s.memories := by
  simp [dcDrop]

@[simp] theorem dcOthers_memories (s : State) (d part sec : Nat) : (dcOthers s d part sec).memories = s.memories := by
  unfold dcOthers
  split <;> simp

@[simp] theorem dcPut_memories (s : State) (d : Nat) (l : DcLine) : (dcPut s d l).memories = s.memories := by
  unfold dcPut
  dsimp only
  (repeat' split) <;> simp

@[simp] theorem cleanStash_memories (s : State) (ci : Option Nat) (line : Nat) : (cleanStash s ci line).memories = s.memories := by
  unfold cleanStash
  split <;> rfl

@[simp] theorem touchLine_memories (s : State) (part core : Nat) (ci : Option Nat) (pa : Nat) (va : Word) :
    (touchLine s part core ci pa va).1.memories = s.memories := by
  unfold touchLine
  dsimp only
  (repeat' split) <;> simp

@[simp] theorem touchSector_memories (s : State) (part core : Nat) (ci : Option Nat) (pa n : Nat) (va : Word) :
    (touchSector s part core ci pa n va).1.memories = s.memories := by
  simp [touchSector]

@[simp] theorem queueInval_memories (s : State) (ci : Option Nat) (line : Nat) : (queueInval s ci line).memories = s.memories := by
  unfold queueInval
  split <;> rfl

@[simp] theorem devWrite_canonical (s : State) (ci : Option Nat) (part pa : Nat) (va : Word) (bytes : List Byte) (psn : BitVec 32) (whole : Bool)
    (h : Canonical s.memories) : Canonical (devWrite s ci part pa va bytes psn whole).memories := by
  unfold devWrite
  split
  · exact h
  · dsimp only
    have hw : ∀ t : State, t.memories = s.memories → Canonical ({ t with mem := memWrite t.mem pa bytes } : State).memories := by
      intro t ht
      rw [← ht] at h
      exact ⟨memWrite_wf h.1 _ _, h.2.1, h.2.2⟩
    apply hw
    (repeat' split) <;> simp

@[simp] theorem stashStore_memories (s : State) (ci : Nat) (va : Word) (pa : Nat) : (stashStore s ci va pa).memories = s.memories := by
  unfold stashStore
  dsimp only
  (repeat' split) <;> simp

@[simp] theorem refusedBy_memories (s : State) (ci m : Nat) (addr : Word) : (refusedBy s ci m addr).memories = s.memories := by
  simp [refusedBy]

@[simp] theorem performPeer_canonical (s : State) (o : Outstanding) (h : Canonical s.memories) : Canonical (performPeer s o).memories := by
  unfold performPeer
  split
  · exact ⟨h.1, h.2.1, memWrite_wf h.2.2 _ _⟩
  · exact h

@[simp] theorem landPeer_canonical (s : State) (ci m : Nat) (h : Canonical s.memories) : Canonical (landPeer s ci m).memories :=
  canonical_foldl performPeer_canonical _ s h

@[simp] theorem windowRead_canonical (s : State) (ci : Nat) (t : Target) (n : Nat) (h : Canonical s.memories) :
    Canonical (windowRead s ci t n).1.memories := by
  unfold windowRead
  dsimp only
  (repeat' split) <;> simp [h]

@[simp] theorem windowWrite_canonical (s : State) (ci : Nat) (t : Target) (bytes : List Byte) (pm : List Bool) (h : Canonical s.memories) :
    Canonical (windowWrite s ci t bytes pm).memories := by
  unfold windowWrite
  cases t with
  | dev pa => exact h
  | host w o => exact ⟨h.1, memWrite_wf h.2.1 _ _, h.2.2⟩
  | peer w o =>
    dsimp only
    split <;> simpa using h

@[simp] theorem expireInvals_memories (s : State) (ci : Nat) : (expireInvals s ci).memories = s.memories := by
  unfold expireInvals
  split <;> rfl

@[simp] theorem readLoad_canonical (s0 : State) (ci : Nat) (va : Word) (t : Target) (pa n : Nat) (h : Canonical s0.memories) :
    Canonical (readLoad s0 ci va t pa n).1.memories := by
  unfold readLoad
  dsimp only
  (repeat' split) <;> simp [h]

@[simp] theorem readCommitted_canonical (s : State) (ci : Nat) (va : Word) (t : Target) (n : Nat) (h : Canonical s.memories) :
    Canonical (readCommitted s ci va t n).1.memories := by
  unfold readCommitted
  dsimp only
  (repeat' split) <;> simp [h]

end Sys2Proof.Machine
end

section
/-! SUPPORT for O55. What the functions of Machine/Flags.lean leave of the memories. -/

namespace Sys2Proof.Machine

@[simp] theorem addFlags_memories (s : State) (ci : Nat) (f : Flg) : (addFlags s ci f).memories = s.memories := by
  simp [addFlags]

end Sys2Proof.Machine
end

section
/-! SUPPORT for O55. What the functions of Machine/Operands.lean leave of the memories. -/

namespace Sys2Proof.Machine

theorem issueA_canonical {w : Nat} {dsts : List (BitVec 6)} {g : BitVec 3} {s : State} {sem : Env → State → Res}
    (hsem : ∀ e t, Canonical t.memories → (sem e t).Canonical) (h : Canonical s.memories) : NextCanonical (issueA w dsts g s sem) :=
  issue_canonical hsem h

theorem issueI_canonical {w : Nat} {dsts : List (BitVec 6)} {s : State} {sem : Env → State → Res}
    (hsem : ∀ e t, Canonical t.memories → (sem e t).Canonical) (h : Canonical s.memories) : NextCanonical (issueI w dsts s sem) :=
  issue_canonical hsem h

theorem issueE_canonical {w : Nat} {dsts : List (BitVec 6)} {tk : Tk} {s : State} {sem : Env → State → Res}
    (hsem : ∀ e t, Canonical t.memories → (sem e t).Canonical) (h : Canonical s.memories) : NextCanonical (issueE w dsts tk s sem) :=
  issue_canonical hsem h

@[simp] theorem consume_canonical {e : Env} {l : List (BitVec 6 × Nat)} {r : Res} (hr : r.Canonical) : (consume e l r).Canonical := by
  unfold consume
  split
  · trivial
  · exact hr

@[simp] theorem consumeN_canonical {e : Env} {l : List (Nat × Nat)} {r : Res} (hr : r.Canonical) : (consumeN e l r).Canonical := by
  unfold consumeN
  split
  · trivial
  · exact hr

@[simp] theorem unaryX_canonical (e : Env) (s : State) (d a : BitVec 6) (f : Word → Word) (h : Canonical s.memories) :
    (unaryX e s d a f).Canonical := by
  unfold unaryX
  split <;> simp [h]

@[simp] theorem binaryX_canonical (e : Env) (s : State) (d a b : BitVec 6) (f : Word → Word → Word) (h : Canonical s.memories) :
    (binaryX e s d a b f).Canonical := by
  unfold binaryX
  split <;> simp [h]

@[simp] theorem divideX_canonical (e : Env) (s : State) (d a b : BitVec 6) (f : Word → Word → Word × Bool) (h : Canonical s.memories) :
    (divideX e s d a b f).Canonical := by
  unfold divideX
  split <;> simp [h]

@[simp] theorem compareX_canonical (e : Env) (s : State) (code : Nat) (d a b : BitVec 6) (h : Canonical s.memories) :
    (compareX e s code d a b).Canonical := by
  simp [compareX, h]

@[simp] theorem compareI_canonical (e : Env) (s : State) (code : Nat) (f : BitVec 3) (a : BitVec 6) (i : BitVec 13)
    (h : Canonical s.memories) :
    (compareI e s code f a i).Canonical := by
  simp [compareI, h]

@[simp] theorem flagLogic_canonical (e : Env) (s : State) (d a b : BitVec 6) (f : Bool → Bool → Bool) (h : Canonical s.memories) :
    (flagLogic e s d a b f).Canonical := by
  simp [flagLogic, h]

@[simp] theorem setF_canonical (e : Env) (s : State) (f : Fmt) (d : BitVec 6) (psn : Bool) (r : Nat × Flg) (h : Canonical s.memories) :
    (setF e s f d psn r).Canonical := by
  unfold setF
  split <;> simp [h]

@[simp] theorem unaryF_canonical (e : Env) (s : State) (f : Fmt) (d a : BitVec 6) (op : Nat → Nat × Flg) (h : Canonical s.memories) :
    (unaryF e s f d a op).Canonical := by
  simp [unaryF, h]

@[simp] theorem binaryF_canonical (e : Env) (s : State) (f : Fmt) (d a b : BitVec 6) (op : Nat → Nat → Nat × Flg)
    (h : Canonical s.memories) :
    (binaryF e s f d a b op).Canonical := by
  simp [binaryF, h]

@[simp] theorem compareF_canonical (e : Env) (s : State) (f : Fmt) (code : Nat) (d a b : BitVec 6) (h : Canonical s.memories) :
    (compareF e s f code d a b).Canonical := by
  unfold compareF
  (repeat' split) <;> simp [h]

@[simp] theorem convertToInt_canonical (e : Env) (s : State) (f : Fmt) (signed : Bool) (w : Nat) (d a : BitVec 6) (m : BitVec 3)
    (h : Canonical s.memories) :
    (convertToInt e s f signed w d a m).Canonical := by
  unfold convertToInt
  split <;> simp [h]

@[simp] theorem convertOfInt_canonical (e : Env) (s : State) (f : Fmt) (signed : Bool) (d a : BitVec 6) (m : BitVec 3)
    (h : Canonical s.memories) :
    (convertOfInt e s f signed d a m).Canonical := by
  simp [convertOfInt, h]

@[simp] theorem kindF_canonical (e : Env) (s : State) (f : Fmt) (d a : BitVec 6) (h : Canonical s.memories) :
    (kindF e s f d a).Canonical := by
  simp [kindF, h]

end Sys2Proof.Machine
end

section
/-! SUPPORT for O55. What the functions of Machine/Tile.lean leave of the memories. -/

namespace Sys2Proof.Machine

@[simp] theorem readRuns_canonical (ci : Nat) (l : List (Word × Nat)) :
    ∀ s : State, Canonical s.memories → Canonical (readRuns s ci l).1.memories := by
  induction l with
  | nil => exact fun _ h => h
  | cons x r ih =>
    intro s h
    unfold readRuns
    split
    · exact h
    · exact ih _ (readCommitted_canonical s ci _ _ _ h)

@[simp] theorem partOut_canonical (s : State) (ci : Nat) (k : AccessKind) (va : Word) (b : List (Byte × Bool)) (h : Canonical s.memories) :
    Canonical (partOut s ci k va b).memories := by
  unfold partOut
  split <;> simp [h]

@[simp] theorem writeRuns_canonical (ci : Nat) (k : AccessKind) (l : List (Word × Nat)) :
    ∀ (s : State) (b : List (Byte × Bool)), Canonical s.memories → Canonical (writeRuns s ci k l b).memories := by
  induction l with
  | nil => exact fun _ _ h => h
  | cons x r ih => exact fun s b h => ih _ _ (partOut_canonical s ci k x.1 (b.take x.2) h)

theorem movePieceIn_canonical (s : State) (ci : Nat) (x : Copy) (h : Canonical s.memories) : (movePieceIn s ci x).Canonical := by
  unfold movePieceIn
  dsimp only
  split
  · trivial
  · trivial
  · exact readRuns_canonical _ _ _ h

theorem movePieceIn_ok {s t : State} {ci : Nat} {x : Copy} {b : List (Byte × Bool)} (h : Canonical s.memories)
    (ht : movePieceIn s ci x = .ok t b) : Canonical t.memories :=
  (congrArg Moved.Canonical ht).mp (movePieceIn_canonical s ci x h)

theorem movePieceOut_canonical (s : State) (ci : Nat) (x : Copy) (k : AccessKind) (attr : Nat) (h : Canonical s.memories) :
    (movePieceOut s ci x k attr).Canonical := by
  unfold movePieceOut
  dsimp only
  split
  · trivial
  · trivial
  · exact writeRuns_canonical _ _ _ _ _ h

theorem movePieceOut_ok {s t : State} {ci : Nat} {x : Copy} {k : AccessKind} {attr : Nat} {b : List (Byte × Bool)} (h : Canonical s.memories)
    (ht : movePieceOut s ci x k attr = .ok t b) : Canonical t.memories :=
  (congrArg Moved.Canonical ht).mp (movePieceOut_canonical s ci x k attr h)

@[simp] theorem moveAllOut_canonical (ci : Nat) (fuel : Nat) :
    ∀ (s : State) (x : Copy), Canonical s.memories → Canonical (moveAllOut s ci x fuel).memories := by
  induction fuel with
  | zero => exact fun _ _ h => h
  | succ fuel ih =>
    intro s x h
    unfold moveAllOut
    split
    · exact h
    · dsimp only
      split
      · next ht => exact ih _ _ (movePieceOut_ok h ht)
      · exact ih _ _ h

end Sys2Proof.Machine
end

section
/-! SUPPORT for O55. What the functions of Machine/Commit.lean leave of the memories. -/

namespace Sys2Proof.Machine

@[simp] theorem sendAnswer_memories (s : State) (u : UnitRef) (x : Option (Word × Word)) : (sendAnswer s u x).memories = s.memories := by
  unfold sendAnswer
  split <;> rfl

@[simp] theorem lostTraffic_memories (s : State) (ci pa : Nat) (va : Word) : (lostTraffic s ci pa va).memories = s.memories := by
  unfold lostTraffic
  split <;> rfl

@[simp] theorem performAtomic_canonical (s : State) (ci pa : Nat) (va : Word) (op : AmoOp) (size : Nat) (cmp val : BitVec 128) (slot : Nat)
    (h : Canonical s.memories) : Canonical (performAtomic s ci pa va op size cmp val slot).memories := by
  have hp := fun m => landPeer_canonical s ci m h
  unfold performAtomic
  dsimp only
  split
  · split
    · exact ⟨h.1, memWrite_wf h.2.1 _ _, h.2.2⟩
    · exact h
  · split
    · split
      · exact hp _
      · split
        · exact ⟨(hp _).1, (hp _).2.1, memWrite_wf (hp _).2.2 _ _⟩
        · exact hp _
    · simpa using h
  · simpa using h
  · split
    · simpa using h
    · split <;> simp [h]

@[simp] theorem releaseSector_canonical (s : State) (ci : Nat) (b : List CEntry) (pa : Nat) (va : Word) (m : Sparse (Option Byte))
    (h : Canonical s.memories) : Canonical (releaseSector s ci b pa va m).memories := by
  refine canonical_foldl (fun t x ht => ?_) _ s h
  dsimp only
  split <;> simp [ht]

@[simp] theorem releaseAll_canonical (ci : Nat) (all l : List CEntry) :
    ∀ s : State, Canonical s.memories → Canonical (releaseAll s ci all l).memories := by
  induction l with
  | nil => exact fun _ h => h
  | cons x r ih =>
    intro s h
    refine ih _ ?_
    cases x <;> simp [h]

@[simp] theorem sendSteals_memories (ci : Nat) (l : List CEntry) : ∀ s : State, (sendSteals s ci l).memories = s.memories := by
  induction l with
  | nil => exact fun _ => rfl
  | cons x r ih =>
    intro s
    cases x with
    | steal prev =>
      refine (ih _).trans ?_
      split <;> simp
    | _ => exact ih s

@[simp] theorem commitRegion_canonical (s : State) (ci : Nat) (resume durable : Bool) (h : Canonical s.memories) :
    Canonical (commitRegion s ci resume durable).memories := by
  simp [commitRegion, h]

@[simp] theorem armedTrap_memories (s : State) (ci off : Nat) : (armedTrap s ci off).memories = s.memories := by
  simp [armedTrap]

theorem tryCommit_canonical {s : State} {ci : Nat} {free : Bool} {commit : State → State} (hc : Canonical (commit s).memories)
    (h : Canonical s.memories) : Canonical (tryCommit s ci free commit).memories := by
  unfold tryCommit
  dsimp only
  split
  · simpa using h
  · (repeat' split) <;> assumption

@[simp] theorem commitDurable_canonical (s : State) (ci first count : Nat) (h : Canonical s.memories) :
    Canonical (commitDurable s ci first count).memories := by
  have hc := canonical_foldl (fun t x ht => moveAllOut_canonical ci (pieceBound x) t x ht) (imagesOf (getCore s ci).a first count) _
    (commitRegion_canonical s ci true true h)
  unfold commitDurable
  dsimp only
  split
  · exact hc
  · exact hc

@[simp] theorem commitEnd_canonical (s : State) (ci : Nat) (h : Canonical s.memories) : Canonical (commitEnd s ci).memories :=
  commitRegion_canonical (modArch s ci stopStreams) ci false false h

@[simp] theorem settleWaits_canonical (s : State) (ci : Nat) (h : Canonical s.memories) : Canonical (settleWaits s ci).memories := by
  have hif (b : Bool) {t : State} (ht : Canonical t.memories) : Canonical (if b then t else s).memories := by
    split
    · exact ht
    · exact h
  unfold settleWaits
  dsimp only
  generalize vget (getCore s ci).a.clst .run 0 = w
  cases w with
  | atJoin t => exact hif _ h
  | atEnd => exact hif _ (tryCommit_canonical (commitEnd_canonical s ci h) h)
  | atCommit => exact hif _ (tryCommit_canonical (commitRegion_canonical s ci true false h) h)
  | atCommitD => exact hif _ (tryCommit_canonical (commitDurable_canonical s ci _ _ h) h)
  | _ => exact h

@[simp] theorem holdAt_canonical (e : Env) (s : State) (st : ClSt) (h : Canonical s.memories) : (holdAt e s st).Canonical := by
  unfold holdAt
  dsimp only
  split
  · exact settleWaits_canonical _ _ h
  · exact h

@[simp] theorem notInHandler_canonical {e : Env} {maj : Nat} {r : Res} (hr : r.Canonical) : (notInHandler e maj r).Canonical := by
  unfold notInHandler
  split
  · trivial
  · exact hr

end Sys2Proof.Machine
end

section
/-! SUPPORT for O55. What the functions of Machine/Port.lean leave of the memories. -/

namespace Sys2Proof.Machine

@[simp] theorem overflow_canonical (s : State) (detail : Nat) : (overflow s detail).Canonical := trivial

theorem popPort_canonical (s : State) (ci q : Nat) (h : Canonical s.memories) : (popPort s ci q).Canonical := by
  unfold popPort
  dsimp only
  (repeat' split) <;> trivial

theorem popPort_ok {s t : State} {ci q : Nat} {v : List Lane} (h : Canonical s.memories) (ht : popPort s ci q = .ok t v) :
    Canonical t.memories :=
  (congrArg Ported.Canonical ht).mp (popPort_canonical s ci q h)

theorem pushPort_canonical (s : State) (ci q : Nat) (v : List Lane) (h : Canonical s.memories) : (pushPort s ci q v).Canonical := by
  unfold pushPort
  dsimp only
  (repeat' split) <;> trivial

theorem pushPort_ok {s t : State} {ci q : Nat} {v w : List Lane} (h : Canonical s.memories) (ht : pushPort s ci q v = .ok t w) :
    Canonical t.memories :=
  (congrArg Ported.Canonical ht).mp (pushPort_canonical s ci q v h)

theorem popAll_canonical (ci : Nat) (l : List Nat) : ∀ s : State, Canonical s.memories → PopsCanonical (popAll s ci l) := by
  induction l with
  | nil => exact fun _ h => h
  | cons q r ih =>
    intro s h
    unfold popAll
    split
    · trivial
    · trivial
    · trivial
    · next ht =>
      have hr := ih _ (popPort_ok h ht)
      split
      · next he => exact (congrArg PopsCanonical he).mp hr
      · next ho => exact (congrArg PopsCanonical ho).mp hr

theorem withV_canonical {e : Env} {s : State} {ns : List Nat} {k : List (List Lane) → State → Res}
    (hk : ∀ vs t, Canonical t.memories → (k vs t).Canonical) (h : Canonical s.memories) : (withV e s ns k).Canonical := by
  have hp := popAll_canonical e.ci (portsOf e.rd ns) s h
  unfold withV
  split
  · next hr => exact (congrArg PopsCanonical hr).mp hp
  · next ht => exact hk _ _ ((congrArg PopsCanonical ht).mp hp)

theorem storeV_canonical {e : Env} {s : State} {n : Nat} {v : List Lane} {on : Nat → Bool} {k : State → Res}
    (hk : ∀ t, Canonical t.memories → (k t).Canonical) (h : Canonical s.memories) : (storeV e s n v on k).Canonical := by
  unfold storeV
  split
  · exact hk _ h
  · split
    · trivial
    · trivial
    · trivial
    · next ht => exact hk _ (pushPort_ok h ht)

end Sys2Proof.Machine
end

section
/-! SUPPORT for O55. What the functions of Machine/Memory.lean leave of the memories. -/

namespace Sys2Proof.Machine

@[simp] theorem loadGlobal_canonical (s : State) (ci : Nat) (a : Word) (n : Nat) (h : Canonical s.memories) :
    Canonical (loadGlobal s ci a n).1.memories := by
  unfold loadGlobal
  split <;> simp [h]

theorem enterAll_canonical {e : Env} {s : State} {l : List StorePiece} {k : State → Res} (hk : ∀ t, Canonical t.memories → (k t).Canonical)
    (h : Canonical s.memories) : (enterAll e s l k).Canonical := by
  unfold enterAll
  split
  · simp
  · exact hk _ h

@[simp] theorem finishLoad_canonical (e : Env) (s : State) (d a : BitVec 6) (p u : BitVec 1) (n : Nat) (b : List Byte) (mark : Bool)
    (h : Canonical s.memories) :
    (finishLoad e s d a p u n b mark).Canonical := by
  unfold finishLoad
  (repeat' split) <;> simp [h]

@[simp] theorem loadScalar_canonical (e : Env) (s : State) (sp : Space) (d a : BitVec 6) (p u : BitVec 1) (sz : BitVec 2)
    (h : Canonical s.memories) : (loadScalar e s sp d a p u sz).Canonical := by
  have hl (v : Word) (n : Nat) := loadGlobal_canonical s e.ci v n h
  refine consume_canonical ?_
  split
  · trivial
  · cases sp <;> (dsimp only; (repeat' split) <;> simp [h, hl])

@[simp] theorem finishStore_canonical (e : Env) (s : State) (a : BitVec 6) (p : BitVec 1) (n : Nat) (h : Canonical s.memories) :
    (finishStore e s a p n).Canonical := by
  unfold finishStore
  split <;> simp [h]

@[simp] theorem storeScalar_canonical (e : Env) (s : State) (sp : Space) (d a : BitVec 6) (p : BitVec 1) (sz : BitVec 2)
    (h : Canonical s.memories) : (storeScalar e s sp d a p sz).Canonical := by
  refine consume_canonical ?_
  split
  · trivial
  · cases sp with
    | global =>
      dsimp only
      split
      · trivial
      · exact consume_canonical (enterAll_canonical (fun t ht => finishStore_canonical e t a p _ ht) h)
    | _ =>
      dsimp only
      split <;> simp [h]

@[simp] theorem execLdG_canonical (x y : BitVec 6) (p u : BitVec 1) (sf : BitVec 2) (tk : Tk) (s : State) (h : Canonical s.memories) :
    NextCanonical (execLdG x y p u sf tk s) :=
  issueE_canonical (fun _ _ ht => by simp [ht]) h

@[simp] theorem execLdL_canonical (x y : BitVec 6) (p u : BitVec 1) (sf : BitVec 2) (tk : Tk) (s : State) (h : Canonical s.memories) :
    NextCanonical (execLdL x y p u sf tk s) :=
  issueE_canonical (fun _ _ ht => by simp [ht]) h

@[simp] theorem execStG_canonical (x y : BitVec 6) (p : BitVec 1) (sf : BitVec 2) (tk : Tk) (s : State) (h : Canonical s.memories) :
    NextCanonical (execStG x y p sf tk s) :=
  issueE_canonical (fun _ _ ht => by simp [ht]) h

@[simp] theorem execStL_canonical (x y : BitVec 6) (p : BitVec 1) (sf : BitVec 2) (tk : Tk) (s : State) (h : Canonical s.memories) :
    NextCanonical (execStL x y p sf tk s) :=
  issueE_canonical (fun _ _ ht => by simp [ht]) h

@[simp] theorem loadLaneG_canonical (s : State) (ci : Nat) (a : Word) (h : Canonical s.memories) :
    Canonical (loadLaneG s ci a).1.memories := by
  simp [loadLaneG, h]

@[simp] theorem loadLanesG_canonical (ci : Nat) (l : List (Nat × Word)) :
    ∀ (s : State) (v : List Lane), Canonical s.memories → Canonical (loadLanesG s ci v l).1.memories := by
  induction l with
  | nil => exact fun _ _ h => h
  | cons x r ih => exact fun s v h => ih _ _ (loadLaneG_canonical s ci x.2 h)

@[simp] theorem loadVector_canonical (e : Env) (s : State) (sp : Space) (d a : BitVec 6) (p : BitVec 1) (m : BitVec 3)
    (h : Canonical s.memories) : (loadVector e s sp d a p m).Canonical := by
  have hput {t : State} (ht : Canonical t.memories) (v : List Lane) :
      (storeV e t d.toNat v (maskBit e.rd.a m.toNat) fun t => finishStore e t a p 256).Canonical :=
    storeV_canonical (fun u hu => finishStore_canonical e u a p 256 hu) ht
  refine consume_canonical ?_
  split
  · trivial
  · cases sp with
    | global =>
      dsimp only
      split
      · trivial
      · split
        · trivial
        · exact hput (loadLanesG_canonical _ _ _ _ h) _
    | _ =>
      dsimp only
      split
      · trivial
      · exact hput h _

@[simp] theorem storeVector_canonical (e : Env) (s : State) (sp : Space) (d a : BitVec 6) (p : BitVec 1) (m : BitVec 3)
    (h : Canonical s.memories) : (storeVector e s sp d a p m).Canonical := by
  refine consume_canonical ?_
  split
  · trivial
  · refine withV_canonical (fun vs t ht => ?_) h
    cases sp with
    | global =>
      dsimp only
      split
      · trivial
      · split
        · trivial
        · exact enterAll_canonical (fun u hu => finishStore_canonical e u a p _ hu) ht
    | _ =>
      dsimp only
      split <;> simp [ht]

@[simp] theorem execVldG_canonical (x y : BitVec 6) (p : BitVec 1) (m : BitVec 3) (tk : Tk) (s : State) (h : Canonical s.memories) :
    NextCanonical (execVldG x y p m tk s) :=
  issueE_canonical (fun _ _ ht => by simp [ht]) h

@[simp] theorem execVldL_canonical (x y : BitVec 6) (p : BitVec 1) (m : BitVec 3) (tk : Tk) (s : State) (h : Canonical s.memories) :
    NextCanonical (execVldL x y p m tk s) :=
  issueE_canonical (fun _ _ ht => by simp [ht]) h

@[simp] theorem execVstG_canonical (x y : BitVec 6) (p : BitVec 1) (m : BitVec 3) (tk : Tk) (s : State) (h : Canonical s.memories) :
    NextCanonical (execVstG x y p m tk s) :=
  issueE_canonical (fun _ _ ht => by simp [ht]) h

@[simp] theorem execVstL_canonical (x y : BitVec 6) (p : BitVec 1) (m : BitVec 3) (tk : Tk) (s : State) (h : Canonical s.memories) :
    NextCanonical (execVstL x y p m tk s) :=
  issueE_canonical (fun _ _ ht => by simp [ht]) h

@[simp] theorem portNamed_canonical (e : Env) (s : State) (q : Nat) : (portNamed e s q).Canonical := trivial

@[simp] theorem gatherV_canonical (e : Env) (s : State) (d a : BitVec 6) (loc one : BitVec 1) (m : BitVec 3) (h : Canonical s.memories) :
    (gatherV e s d a loc one m).Canonical := by
  unfold gatherV
  dsimp only
  (repeat' split) <;> simp [h]

@[simp] theorem scatterV_canonical (e : Env) (s : State) (d a : BitVec 6) (loc one : BitVec 1) (m : BitVec 3) (h : Canonical s.memories) :
    (scatterV e s d a loc one m).Canonical := by
  unfold scatterV
  split
  · exact portNamed_canonical ..
  · refine consume_canonical ?_
    split
    · trivial
    · split
      · exact h
      · split
        · trivial
        · exact enterAll_canonical (fun _ hu => hu) h

@[simp] theorem execGath_canonical (x y : BitVec 6) (ef c : BitVec 1) (m : BitVec 3) (tk : Tk) (s : State) (h : Canonical s.memories) :
    NextCanonical (execGath x y ef c m tk s) :=
  issueE_canonical (fun _ _ ht => by simp [ht]) h

@[simp] theorem execScat_canonical (x y : BitVec 6) (ef c : BitVec 1) (m : BitVec 3) (tk : Tk) (s : State) (h : Canonical s.memories) :
    NextCanonical (execScat x y ef c m tk s) :=
  issueE_canonical (fun _ _ ht => by simp [ht]) h

@[simp] theorem reachMark_memories (s : State) (w : Nat) (tk : Tk) : (reachMark s w tk).memories = s.memories := by
  unfold reachMark
  dsimp only
  (repeat' split) <;> simp

@[simp] theorem markWord_canonical (e : Env) (s : State) (h : Canonical s.memories) : (markWord e s).Canonical := by
  unfold markWord
  dsimp only
  (repeat' split) <;> simp [h]

@[simp] theorem execMarkL_canonical (tk : Tk) (s : State) (h : Canonical s.memories) : NextCanonical (execMarkL tk s) :=
  issueE_canonical (fun _ _ ht => by simp [ht]) (by simpa using h)

@[simp] theorem execMarkS_canonical (tk : Tk) (s : State) (h : Canonical s.memories) : NextCanonical (execMarkS tk s) :=
  issueE_canonical (fun _ _ ht => by simp [ht]) (by simpa using h)

@[simp] theorem prefetch_memories (s : State) (ci : Nat) (va : Word) (pa : Nat) : (prefetch s ci va pa).memories = s.memories := by
  unfold prefetch
  dsimp only
  (repeat' split) <;> simp

@[simp] theorem execPrefG_canonical (y : BitVec 6) (tk : Tk) (s : State) (h : Canonical s.memories) : NextCanonical (execPrefG y tk s) := by
  refine issueE_canonical (fun e t ht => ?_) h
  dsimp only
  (repeat' split) <;> simp [ht]

@[simp] theorem execSsize_canonical (y : BitVec 6) (tk : Tk) (s : State) (h : Canonical s.memories) : NextCanonical (execSsize y tk s) := by
  refine issueE_canonical (fun e t ht => ?_) h
  dsimp only
  (repeat' split) <;> simp [ht]

@[simp] theorem onWindow_memories (s : State) (ci w : Nat) (f : StashLine → Option StashLine) :
    (onWindow s ci w f).memories = s.memories := by
  unfold onWindow
  split <;> rfl

@[simp] theorem unmapWindow_memories (s : State) (ci w : Nat) : (unmapWindow s ci w).memories = s.memories := by
  simp [unmapWindow]

@[simp] theorem execSmap_canonical (x y : BitVec 6) (tk : Tk) (s : State) (h : Canonical s.memories) :
    NextCanonical (execSmap x y tk s) := by
  refine issueE_canonical (fun e t ht => ?_) h
  dsimp only
  (repeat' split) <;> simp [ht]

@[simp] theorem execSunmap_canonical (x : BitVec 6) (tk : Tk) (s : State) (h : Canonical s.memories) : NextCanonical (execSunmap x tk s) :=
  issueE_canonical (fun _ _ ht => by simp [ht]) h

@[simp] theorem execSflush_canonical (x : BitVec 6) (tk : Tk) (s : State) (h : Canonical s.memories) : NextCanonical (execSflush x tk s) :=
  issueE_canonical (fun _ _ ht => by simp [ht]) h

@[simp] theorem execSinval_canonical (x : BitVec 6) (tk : Tk) (s : State) (h : Canonical s.memories) : NextCanonical (execSinval x tk s) :=
  issueE_canonical (fun _ _ ht => by simp [ht]) h

@[simp] theorem fenceWord_canonical (e : Env) (s : State) (scope : Nat) (h : Canonical s.memories) : (fenceWord e s scope).Canonical := by
  unfold fenceWord
  (repeat' split) <;> simp [h]

@[simp] theorem execFenceCore_canonical (g : BitVec 3) (s : State) (h : Canonical s.memories) : NextCanonical (execFenceCore g s) :=
  issueA_canonical (fun _ _ ht => by simp [ht]) h

@[simp] theorem execFenceDie_canonical (g : BitVec 3) (s : State) (h : Canonical s.memories) : NextCanonical (execFenceDie g s) :=
  issueA_canonical (fun _ _ ht => by simp [ht]) h

@[simp] theorem execFencePkg_canonical (g : BitVec 3) (s : State) (h : Canonical s.memories) : NextCanonical (execFencePkg g s) :=
  issueA_canonical (fun _ _ ht => by simp [ht]) h

@[simp] theorem execFenceSys_canonical (g : BitVec 3) (s : State) (h : Canonical s.memories) : NextCanonical (execFenceSys g s) :=
  issueA_canonical (fun _ _ ht => by simp [ht]) h

@[simp] theorem execInvalidationApply_canonical (core : Nat) (s : State) (h : Canonical s.memories) :
    NextCanonical (execInvalidationApply core s) := by
  unfold execInvalidationApply
  split <;> simp [h]

@[simp] theorem readTables_memories (part core : Nat) (va aux : Word) (fuel : Nat) :
    ∀ (s : State) (l t : Nat), (readTables s part core va aux fuel l t).memories = s.memories := by
  induction fuel with
  | zero => exact fun _ _ _ => rfl
  | succ fuel ih =>
    intro s l t
    unfold readTables
    dsimp only
    split
    · simp
    · rw [ih, touchSector_memories]

@[simp] theorem readWalkAs_memories (s : State) (die part core : Nat) (asn : BitVec 16) (va aux : Word) :
    (readWalkAs s die part core asn va aux).memories = s.memories := by
  unfold readWalkAs
  dsimp only
  (repeat' split) <;> simp

@[simp] theorem readWalk_memories (s : State) (core : Nat) (va : Word) : (readWalk s core va).memories = s.memories := by
  simp [readWalk]

@[simp] theorem walkFill_memories (s : State) (core : Nat) (va : Word) (k : AccessKind) : (walkFill s core va k).memories = s.memories := by
  unfold walkFill
  dsimp only
  (repeat' split) <;> simp

@[simp] theorem execTranslationWalk_canonical (core : Nat) (va : BitVec 64) (k : AccessKind) (s : State) (h : Canonical s.memories) :
    NextCanonical (execTranslationWalk core va k s) := by
  unfold execTranslationWalk
  split <;> simp [h]

@[simp] theorem noteFetch_memories (s : State) (ci : Nat) (cl : Cluster) (va : Word) : (noteFetch s ci cl va).memories = s.memories := by
  unfold noteFetch
  dsimp only
  (repeat' split) <;> simp

end Sys2Proof.Machine
end

section
/-! SUPPORT for O55. What the functions of Machine/Drove.lean leave of the memories. -/

namespace Sys2Proof.Machine

@[simp] theorem modQueue_memories (s : State) (part q : Nat) (f : Queue → Queue) : (modQueue s part q f).memories = s.memories := by
  simp [modQueue]

@[simp] theorem modRing_memories (s : State) (part r : Nat) (f : Ring → Ring) : (modRing s part r f).memories = s.memories := by
  simp [modRing]

@[simp] theorem wakeQueue_memories (s : State) (part q : Nat) : (wakeQueue s part q).memories = s.memories := by
  unfold wakeQueue
  split <;> rfl

@[simp] theorem wakeNamed_memories (s : State) (part : Nat) (f : Packet → Bool) : (wakeNamed s part f).memories = s.memories := by
  refine memories_foldl (fun t q => ?_) _ s
  (repeat' split) <;> simp

@[simp] theorem addSignal_memories (s : State) (part i : Nat) (v : Word) : (addSignal s part i v).memories = s.memories := by
  simp [addSignal]

@[simp] theorem addCounter_memories (s : State) (part i : Nat) (v : Word) : (addCounter s part i v).memories = s.memories := by
  simp [addCounter]

@[simp] theorem releaseItems_memories (part r : Nat) (n : Nat) : ∀ s : State, (releaseItems s part r n).memories = s.memories := by
  induction n with
  | zero => exact fun _ => rfl
  | succ n ih =>
    intro s
    unfold releaseItems
    dsimp only
    split
    · simp [ih]
    · rfl

@[simp] theorem finishItem_memories (s : State) (part r n : Nat) : (finishItem s part r n).memories = s.memories := by
  simp [finishItem]

@[simp] theorem publishItems_memories (part r n : Nat) : ∀ s : State, (publishItems s part r n).memories = s.memories := by
  induction n with
  | zero => exact fun _ => rfl
  | succ n ih =>
    intro s
    unfold publishItems
    dsimp only
    split
    · simp [ih]
    · rfl

@[simp] theorem outputItem_memories (s : State) (part r m : Nat) (dropped : Bool) :
    (outputItem s part r m dropped).memories = s.memories := by
  simp [outputItem]

@[simp] theorem refuseOutput_memories (s : State) (part r m : Nat) : (refuseOutput s part r m).memories = s.memories := by
  simp [refuseOutput]

@[simp] theorem dropOld_memories (s : State) (part r c : Nat) : (dropOld s part r c).memories = s.memories := by
  unfold dropOld
  dsimp only
  (repeat' split) <;> simp

@[simp] theorem dropNew_memories (s : State) (part r n : Nat) : (dropNew s part r n).memories = s.memories := by
  simp [dropNew]

@[simp] theorem dropCands_memories (s : State) (f : Cand → Bool) : (dropCands s f).memories = s.memories := by
  simp [dropCands]

@[simp] theorem dropResume_memories (s : State) (part launch index : Nat) : (dropResume s part launch index).memories = s.memories := by
  simp [dropResume]

@[simp] theorem queueWalk_memories (s : State) (part : Nat) (x : Queue) (va : Word) : (queueWalk s part x va).memories = s.memories := by
  simp [queueWalk]

@[simp] theorem queueFault_memories (s : State) (part q : Nat) (va : Word) : (queueFault s part q va).memories = s.memories := by
  simp [queueFault]

@[simp] theorem deliver_canonical (s : State) (part q : Nat) (p : Packet) (h : Canonical s.memories) :
    Canonical (deliver s part q p).1.memories := by
  unfold deliver
  dsimp only
  (repeat' split) <;> simp [h]

end Sys2Proof.Machine
end

section
/-! SUPPORT for O55. What the functions of Machine/Region.lean leave of the memories. -/

namespace Sys2Proof.Machine

@[simp] theorem enterOr_canonical (e : Env) (s : State) (x : CEntry) (h : Canonical s.memories) : (enterOr e s x).Canonical := by
  unfold enterOr
  split <;> simp [h]

@[simp] theorem execCommit_canonical (s : State) (h : Canonical s.memories) : NextCanonical (execCommit s) :=
  issueA_canonical (fun _ _ ht => by simp [ht]) h

@[simp] theorem execCommitD_canonical (a b : BitVec 6) (s : State) (h : Canonical s.memories) : NextCanonical (execCommitD a b s) := by
  refine issueI_canonical (fun e t ht => ?_) h
  refine notInHandler_canonical (consume_canonical ?_)
  (repeat' split) <;> simp [ht]

@[simp] theorem execReplay_canonical (g : BitVec 3) (s : State) (h : Canonical s.memories) : NextCanonical (execReplay g s) :=
  issueA_canonical (fun _ _ _ => by simp) h

@[simp] theorem localRef_canonical {e : Env} {s : State} {v : Word} {r : Res} (hr : r.Canonical) : (localRef e s v r).Canonical := by
  unfold localRef
  (repeat' split) <;> simp [hr]

@[simp] theorem execHinit_canonical (x y : BitVec 6) (tk : Tk) (s : State) (h : Canonical s.memories) :
    NextCanonical (execHinit x y tk s) :=
  issueE_canonical (fun _ _ ht => by simp [ht]) h

@[simp] theorem arriveHere_memories (e : Env) (s : State) (h n : Nat) : (arriveHere e s h n).memories = s.memories := by
  unfold arriveHere
  split <;> rfl

@[simp] theorem arriveRef_canonical (e : Env) (s : State) (v : Word) (n : Nat) (h : Canonical s.memories) :
    (arriveRef e s v n).Canonical := by
  unfold arriveRef
  (repeat' split) <;> simp [h]

@[simp] theorem execHarrive_canonical (x y : BitVec 6) (tk : Tk) (s : State) (h : Canonical s.memories) :
    NextCanonical (execHarrive x y tk s) := by
  refine issueE_canonical (fun e t ht => ?_) h
  split <;> simp [ht]

@[simp] theorem execHwait_canonical (x y : BitVec 6) (tk : Tk) (s : State) (h : Canonical s.memories) :
    NextCanonical (execHwait x y tk s) := by
  refine issueE_canonical (fun e t ht => ?_) h
  dsimp only
  (repeat' split) <;> simp [ht]

@[simp] theorem execHstat_canonical (x y : BitVec 6) (tk : Tk) (s : State) (h : Canonical s.memories) :
    NextCanonical (execHstat x y tk s) :=
  issueE_canonical (fun _ _ ht => by simp [ht]) h

@[simp] theorem execChainKick_canonical (x y : BitVec 6) (tk : Tk) (s : State) (h : Canonical s.memories) :
    NextCanonical (execChainKick x y tk s) := by
  refine issueE_canonical (fun e t ht => ?_) h
  dsimp only
  (repeat' split) <;> simp [ht]

@[simp] theorem execChainStop_canonical (x : BitVec 6) (tk : Tk) (s : State) (h : Canonical s.memories) :
    NextCanonical (execChainStop x tk s) :=
  issueE_canonical (fun _ _ ht => by simp [ht]) h

@[simp] theorem execChainStat_canonical (x y : BitVec 6) (tk : Tk) (s : State) (h : Canonical s.memories) :
    NextCanonical (execChainStat x y tk s) :=
  issueE_canonical (fun _ _ ht => by simp [ht]) h

@[simp] theorem execQpost_canonical (x y : BitVec 6) (tk : Tk) (s : State) (h : Canonical s.memories) :
    NextCanonical (execQpost x y tk s) := by
  refine issueE_canonical (fun e t ht => ?_) h
  dsimp only
  (repeat' split) <;> simp [ht]

@[simp] theorem execSigadd_canonical (x y : BitVec 6) (tk : Tk) (s : State) (h : Canonical s.memories) :
    NextCanonical (execSigadd x y tk s) := by
  refine issueE_canonical (fun e t ht => ?_) h
  dsimp only
  (repeat' split) <;> simp [ht]

@[simp] theorem execRingpost_canonical (x y : BitVec 6) (tk : Tk) (s : State) (h : Canonical s.memories) :
    NextCanonical (execRingpost x y tk s) := by
  refine issueE_canonical (fun e t ht => ?_) h
  dsimp only
  (repeat' split) <;> simp [ht]

@[simp] theorem readResult_canonical (e : Env) (s : State) (d k : BitVec 6) (lo : Nat) (h : Canonical s.memories) :
    (readResult e s d k lo).Canonical := by
  unfold readResult
  dsimp only
  (repeat' split) <;> simp [h]

@[simp] theorem execAres_canonical (x y : BitVec 6) (tk : Tk) (s : State) (h : Canonical s.memories) : NextCanonical (execAres x y tk s) :=
  issueE_canonical (fun _ _ ht => by simp [ht]) h

@[simp] theorem execAresh_canonical (x y : BitVec 6) (tk : Tk) (s : State) (h : Canonical s.memories) :
    NextCanonical (execAresh x y tk s) :=
  issueE_canonical (fun _ _ ht => by simp [ht]) h

end Sys2Proof.Machine
end

section
/-! SUPPORT for O55. What the functions of Machine/Stream.lean leave of the memories. -/

namespace Sys2Proof.Machine

theorem stopped_canonical {e : Env} {s : State} {q : Nat} {k : State → Res} (hk : ∀ t, Canonical t.memories → (k t).Canonical)
    (h : Canonical s.memories) : (stopped e s q k).Canonical := by
  unfold stopped
  dsimp only
  split
  · trivial
  · exact hk _ h

theorem stoppedIfRunning_canonical {e : Env} {s : State} {q : Nat} {k : State → Res} (hk : ∀ t, Canonical t.memories → (k t).Canonical)
    (h : Canonical s.memories) : (stoppedIfRunning e s q k).Canonical := by
  unfold stoppedIfRunning
  split
  · exact stopped_canonical hk h
  · exact hk _ h

@[simp] theorem modStream_memories (s : State) (ci q : Nat) (f : Stream → Stream) : (modStream s ci q f).memories = s.memories := by
  simp [modStream]

@[simp] theorem configure_canonical (e : Env) (s : State) (q a : BitVec 6) (detail : Nat) (f : Word → Stream → Stream)
    (h : Canonical s.memories) : (configure e s q a detail f).Canonical :=
  consume_canonical (stoppedIfRunning_canonical (fun _ ht => ht) h)

@[simp] theorem streamBase_canonical (e : Env) (s : State) (q a : BitVec 6) (h : Canonical s.memories) :
    (streamBase e s q a).Canonical := by
  simp [streamBase, h]

@[simp] theorem streamDim_canonical (e : Env) (s : State) (q a : BitVec 6) (k : Nat) (h : Canonical s.memories) :
    (streamDim e s q a k).Canonical := by
  simp [streamDim, h]

@[simp] theorem streamMode_canonical (e : Env) (s : State) (q a : BitVec 6) (h : Canonical s.memories) :
    (streamMode e s q a).Canonical := by
  simp [streamMode, h]

@[simp] theorem streamBind_canonical (e : Env) (s : State) (q : BitVec 6) (b : Bool) (h : Canonical s.memories) :
    (streamBind e s q b).Canonical := by
  simp [streamBind, h]

@[simp] theorem streamStart_canonical (e : Env) (s : State) (q : BitVec 6) (h : Canonical s.memories) : (streamStart e s q).Canonical := by
  unfold streamStart
  split
  · trivial
  · refine stopped_canonical (fun t ht => ?_) h
    dsimp only
    split <;> exact ht

@[simp] theorem streamStop_canonical (e : Env) (s : State) (q : BitVec 6) (h : Canonical s.memories) : (streamStop e s q).Canonical :=
  stopped_canonical (fun _ ht => ht) h

@[simp] theorem streamSeek_canonical (e : Env) (s : State) (q a : BitVec 6) (h : Canonical s.memories) : (streamSeek e s q a).Canonical :=
  consume_canonical (stopped_canonical (fun _ ht => ht) h)

@[simp] theorem streamPos_canonical (e : Env) (s : State) (q d : BitVec 6) (h : Canonical s.memories) : (streamPos e s q d).Canonical := by
  simp [streamPos, h]

@[simp] theorem execSbaseL_canonical (x y : BitVec 6) (tk : Tk) (s : State) (h : Canonical s.memories) :
    NextCanonical (execSbaseL x y tk s) :=
  issueE_canonical (fun _ _ ht => by simp [ht]) h

@[simp] theorem execSdim0L_canonical (x y : BitVec 6) (tk : Tk) (s : State) (h : Canonical s.memories) :
    NextCanonical (execSdim0L x y tk s) :=
  issueE_canonical (fun _ _ ht => by simp [ht]) h

@[simp] theorem execSdim1L_canonical (x y : BitVec 6) (tk : Tk) (s : State) (h : Canonical s.memories) :
    NextCanonical (execSdim1L x y tk s) :=
  issueE_canonical (fun _ _ ht => by simp [ht]) h

@[simp] theorem execSdim2L_canonical (x y : BitVec 6) (tk : Tk) (s : State) (h : Canonical s.memories) :
    NextCanonical (execSdim2L x y tk s) :=
  issueE_canonical (fun _ _ ht => by simp [ht]) h

@[simp] theorem execSmodeL_canonical (x y : BitVec 6) (tk : Tk) (s : State) (h : Canonical s.memories) :
    NextCanonical (execSmodeL x y tk s) :=
  issueE_canonical (fun _ _ ht => by simp [ht]) h

@[simp] theorem execSbindL_canonical (x : BitVec 6) (tk : Tk) (s : State) (h : Canonical s.memories) : NextCanonical (execSbindL x tk s) :=
  issueE_canonical (fun _ _ ht => by simp [ht]) h

@[simp] theorem execSunbindL_canonical (x : BitVec 6) (tk : Tk) (s : State) (h : Canonical s.memories) :
    NextCanonical (execSunbindL x tk s) :=
  issueE_canonical (fun _ _ ht => by simp [ht]) h

@[simp] theorem execSstartL_canonical (x : BitVec 6) (tk : Tk) (s : State) (h : Canonical s.memories) :
    NextCanonical (execSstartL x tk s) :=
  issueE_canonical (fun _ _ ht => by simp [ht]) h

@[simp] theorem execSstopL_canonical (x : BitVec 6) (tk : Tk) (s : State) (h : Canonical s.memories) : NextCanonical (execSstopL x tk s) :=
  issueE_canonical (fun _ _ ht => by simp [ht]) h

@[simp] theorem execSseekL_canonical (x y : BitVec 6) (tk : Tk) (s : State) (h : Canonical s.memories) :
    NextCanonical (execSseekL x y tk s) :=
  issueE_canonical (fun _ _ ht => by simp [ht]) h

@[simp] theorem execSposL_canonical (x y : BitVec 6) (tk : Tk) (s : State) (h : Canonical s.memories) :
    NextCanonical (execSposL x y tk s) :=
  issueE_canonical (fun _ _ ht => by simp [ht]) h

@[simp] theorem execSbaseS_canonical (x y : BitVec 6) (tk : Tk) (s : State) (h : Canonical s.memories) :
    NextCanonical (execSbaseS x y tk s) :=
  issueE_canonical (fun _ _ ht => by simp [ht]) h

@[simp] theorem execSdim0S_canonical (x y : BitVec 6) (tk : Tk) (s : State) (h : Canonical s.memories) :
    NextCanonical (execSdim0S x y tk s) :=
  issueE_canonical (fun _ _ ht => by simp [ht]) h

@[simp] theorem execSdim1S_canonical (x y : BitVec 6) (tk : Tk) (s : State) (h : Canonical s.memories) :
    NextCanonical (execSdim1S x y tk s) :=
  issueE_canonical (fun _ _ ht => by simp [ht]) h

@[simp] theorem execSdim2S_canonical (x y : BitVec 6) (tk : Tk) (s : State) (h : Canonical s.memories) :
    NextCanonical (execSdim2S x y tk s) :=
  issueE_canonical (fun _ _ ht => by simp [ht]) h

@[simp] theorem execSmodeS_canonical (x y : BitVec 6) (tk : Tk) (s : State) (h : Canonical s.memories) :
    NextCanonical (execSmodeS x y tk s) :=
  issueE_canonical (fun _ _ ht => by simp [ht]) h

@[simp] theorem execSbindS_canonical (x : BitVec 6) (tk : Tk) (s : State) (h : Canonical s.memories) : NextCanonical (execSbindS x tk s) :=
  issueE_canonical (fun _ _ ht => by simp [ht]) h

@[simp] theorem execSunbindS_canonical (x : BitVec 6) (tk : Tk) (s : State) (h : Canonical s.memories) :
    NextCanonical (execSunbindS x tk s) :=
  issueE_canonical (fun _ _ ht => by simp [ht]) h

@[simp] theorem execSstartS_canonical (x : BitVec 6) (tk : Tk) (s : State) (h : Canonical s.memories) :
    NextCanonical (execSstartS x tk s) :=
  issueE_canonical (fun _ _ ht => by simp [ht]) h

@[simp] theorem execSstopS_canonical (x : BitVec 6) (tk : Tk) (s : State) (h : Canonical s.memories) : NextCanonical (execSstopS x tk s) :=
  issueE_canonical (fun _ _ ht => by simp [ht]) h

@[simp] theorem execSseekS_canonical (x y : BitVec 6) (tk : Tk) (s : State) (h : Canonical s.memories) :
    NextCanonical (execSseekS x y tk s) :=
  issueE_canonical (fun _ _ ht => by simp [ht]) h

@[simp] theorem execSposS_canonical (x y : BitVec 6) (tk : Tk) (s : State) (h : Canonical s.memories) :
    NextCanonical (execSposS x y tk s) :=
  issueE_canonical (fun _ _ ht => by simp [ht]) h

@[simp] theorem execJeos_canonical (n : BitVec 3) (o : BitVec 22) (s : State) (h : Canonical s.memories) :
    NextCanonical (execJeos n o s) := by
  refine issueA_canonical (fun e t ht => ?_) h
  split <;> simp [ht]

@[simp] theorem readParts_canonical (ci : Nat) (l : List (Word × Nat)) :
    ∀ s : State, Canonical s.memories → Canonical (readParts s ci l).1.memories := by
  induction l with
  | nil => exact fun _ h => h
  | cons x r ih =>
    intro s h
    unfold readParts
    split
    · exact h
    · exact ih _ (readCommitted_canonical s ci _ _ _ h)

@[simp] theorem failFetch_memories (s : State) (ci q : Nat) (t : Trap) : (failFetch s ci q t).memories = s.memories := by
  simp [failFetch]

@[simp] theorem streamFetch_canonical (s : State) (ci q : Nat) (h : Canonical s.memories) : Canonical (streamFetch s ci q).memories := by
  unfold streamFetch
  dsimp only
  (repeat' split) <;> simp [h]

@[simp] theorem execStreamFetch_canonical (core q : Nat) (s : State) (h : Canonical s.memories) :
    NextCanonical (execStreamFetch core q s) := by
  unfold execStreamFetch
  split <;> simp [h]

@[simp] theorem streamWrite_memories (s : State) (ci q : Nat) : (streamWrite s ci q).memories = s.memories := by
  unfold streamWrite
  dsimp only
  (repeat' split) <;> simp

@[simp] theorem execStreamOutboundWrite_canonical (core q : Nat) (s : State) (h : Canonical s.memories) :
    NextCanonical (execStreamOutboundWrite core q s) := by
  unfold execStreamOutboundWrite
  split <;> simp [h]

end Sys2Proof.Machine
end

section
/-! SUPPORT for O55. What the functions of Machine/Transfer.lean leave of the memories. -/

namespace Sys2Proof.Machine

theorem copyOperands_canonical {e : Env} {s : State} {y : BitVec 6} {l : List (Nat × Nat)} {k : Option Nat → Res} (hk : ∀ o, (k o).Canonical) :
    (copyOperands e s y l k).Canonical := by
  unfold copyOperands
  split <;> simp [hk]

@[simp] theorem startIn_canonical (e : Env) (s : State) (x : Copy) (h : Canonical s.memories) : (startIn e s x).Canonical := by
  unfold startIn
  split <;> simp [h]

theorem recordOut_canonical {e : Env} {s : State} {x : Copy} {k : State → State} (hk : ∀ t, Canonical t.memories → Canonical (k t).memories)
    (h : Canonical s.memories) : (recordOut e s x k).Canonical := by
  unfold recordOut
  dsimp only
  split
  · trivial
  · split
    · simp
    · exact hk _ h

@[simp] theorem copyIn_canonical (e : Env) (s : State) (y : BitVec 6) (l : List (Nat × Nat)) (r : Except Trap Rows) (h : Canonical s.memories) :
    (copyIn e s y l r).Canonical := by
  refine copyOperands_canonical fun o => ?_
  cases r <;> simp [h]

@[simp] theorem copyOut_canonical (e : Env) (s : State) (y : BitVec 6) (l : List (Nat × Nat)) (r : Except Trap Rows) (h : Canonical s.memories) :
    (copyOut e s y l r).Canonical := by
  refine copyOperands_canonical fun o => ?_
  cases r with
  | error t => trivial
  | ok r => exact recordOut_canonical (fun _ ht => ht) h

@[simp] theorem copyTileIn_canonical (e : Env) (s : State) (x y : BitVec 6) (h : Canonical s.memories) :
    (copyTileIn e s x y).Canonical := by
  refine copyOperands_canonical fun o => ?_
  split
  · trivial
  · dsimp only
    (repeat' split) <;> simp [h]

@[simp] theorem copyTileOut_canonical (e : Env) (s : State) (x y : BitVec 6) (h : Canonical s.memories) :
    (copyTileOut e s x y).Canonical := by
  refine copyOperands_canonical fun o => ?_
  split
  · trivial
  · dsimp only
    split
    · trivial
    · trivial
    · exact recordOut_canonical (fun _ ht => ht) h

@[simp] theorem execCpin_canonical (x y : BitVec 6) (tk : Tk) (s : State) (h : Canonical s.memories) : NextCanonical (execCpin x y tk s) :=
  issueE_canonical (fun _ _ ht => by simp [ht]) h

@[simp] theorem execCpin2d_canonical (x y : BitVec 6) (tk : Tk) (s : State) (h : Canonical s.memories) :
    NextCanonical (execCpin2d x y tk s) :=
  issueE_canonical (fun _ _ ht => by simp [ht]) h

@[simp] theorem execCpinT_canonical (x y : BitVec 6) (tk : Tk) (s : State) (h : Canonical s.memories) :
    NextCanonical (execCpinT x y tk s) :=
  issueE_canonical (fun _ _ ht => by simp [ht]) h

@[simp] theorem execCpout_canonical (x y : BitVec 6) (tk : Tk) (s : State) (h : Canonical s.memories) :
    NextCanonical (execCpout x y tk s) :=
  issueE_canonical (fun _ _ ht => by simp [ht]) h

@[simp] theorem execCpout2d_canonical (x y : BitVec 6) (tk : Tk) (s : State) (h : Canonical s.memories) :
    NextCanonical (execCpout2d x y tk s) :=
  issueE_canonical (fun _ _ ht => by simp [ht]) h

@[simp] theorem execCpoutT_canonical (x y : BitVec 6) (tk : Tk) (s : State) (h : Canonical s.memories) :
    NextCanonical (execCpoutT x y tk s) :=
  issueE_canonical (fun _ _ ht => by simp [ht]) h

@[simp] theorem amoCore_canonical (e : Env) (s : State) (tg : Target) (pa : Nat) (a : Word) (op : AmoOp) (size : Nat) (cmp val : BitVec 128)
    (h : Canonical s.memories) : (amoCore e s tg pa a op size cmp val).Canonical := by
  have hr (f : Arch → Arch) := readLoad_canonical (modArch s e.ci f) e.ci a tg pa size h
  unfold amoCore
  dsimp only
  split
  · trivial
  · split
    · exact hr _
    · split
      · exact hr _
      · exact enterAll_canonical (fun _ ht => ht) (hr _)

@[simp] theorem amoWord_canonical (e : Env) (s : State) (b : BitVec 6) (regs : List Nat) (core : Bool) (op : AmoOp) (size : Nat)
    (cmp val : BitVec 128) (h : Canonical s.memories) : (amoWord e s b regs core op size cmp val).Canonical := by
  refine consume_canonical ?_
  split
  · trivial
  · refine consumeN_canonical ?_
    split
    · trivial
    · split
      · trivial
      · (repeat' split) <;> simp [h]

@[simp] theorem amoOne_canonical (e : Env) (s : State) (x y : BitVec 6) (c z : BitVec 1) (op : AmoOp) (h : Canonical s.memories) :
    (amoOne e s x y c z op).Canonical := by
  simp [amoOne, h]

@[simp] theorem execAmoAdd_canonical (x y : BitVec 6) (c z : BitVec 1) (tk : Tk) (s : State) (h : Canonical s.memories) :
    NextCanonical (execAmoAdd x y c z tk s) :=
  issueE_canonical (fun _ _ ht => by simp [ht]) h

@[simp] theorem execAmoAnd_canonical (x y : BitVec 6) (c z : BitVec 1) (tk : Tk) (s : State) (h : Canonical s.memories) :
    NextCanonical (execAmoAnd x y c z tk s) :=
  issueE_canonical (fun _ _ ht => by simp [ht]) h

@[simp] theorem execAmoOr_canonical (x y : BitVec 6) (c z : BitVec 1) (tk : Tk) (s : State) (h : Canonical s.memories) :
    NextCanonical (execAmoOr x y c z tk s) :=
  issueE_canonical (fun _ _ ht => by simp [ht]) h

@[simp] theorem execAmoXor_canonical (x y : BitVec 6) (c z : BitVec 1) (tk : Tk) (s : State) (h : Canonical s.memories) :
    NextCanonical (execAmoXor x y c z tk s) :=
  issueE_canonical (fun _ _ ht => by simp [ht]) h

@[simp] theorem execAmoMax_canonical (x y : BitVec 6) (c z : BitVec 1) (tk : Tk) (s : State) (h : Canonical s.memories) :
    NextCanonical (execAmoMax x y c z tk s) :=
  issueE_canonical (fun _ _ ht => by simp [ht]) h

@[simp] theorem execAmoMaxu_canonical (x y : BitVec 6) (c z : BitVec 1) (tk : Tk) (s : State) (h : Canonical s.memories) :
    NextCanonical (execAmoMaxu x y c z tk s) :=
  issueE_canonical (fun _ _ ht => by simp [ht]) h

@[simp] theorem execAmoSwap_canonical (x y : BitVec 6) (c z : BitVec 1) (tk : Tk) (s : State) (h : Canonical s.memories) :
    NextCanonical (execAmoSwap x y c z tk s) :=
  issueE_canonical (fun _ _ ht => by simp [ht]) h

@[simp] theorem execAmoCasD_canonical (x y : BitVec 6) (c : BitVec 1) (tk : Tk) (s : State) (h : Canonical s.memories) :
    NextCanonical (execAmoCasD x y c tk s) :=
  issueE_canonical (fun _ _ ht => by simp [ht]) h

@[simp] theorem execAmoCasQ_canonical (x y : BitVec 6) (c : BitVec 1) (tk : Tk) (s : State) (h : Canonical s.memories) :
    NextCanonical (execAmoCasQ x y c tk s) :=
  issueE_canonical (fun _ _ ht => by simp [ht]) h

@[simp] theorem freezeCore_memories (s0 : State) (ci : Nat) (t : Trap) (copy slot : Option Nat) :
    (freezeCore s0 ci t copy slot).memories = s0.memories := by
  unfold freezeCore
  split <;> simp

@[simp] theorem dropRequest_memories (s : State) (ci : Nat) : (dropRequest s ci).memories = s.memories := by
  unfold dropRequest
  split <;> rfl

@[simp] theorem thaw_memories (s : State) (ci : Nat) : (thaw s ci).memories = s.memories := by
  simp [thaw]

@[simp] theorem sourceRecord_memories (s : State) (ci src : Nat) : (sourceRecord s ci src).memories = s.memories := by
  unfold sourceRecord
  (repeat' split) <;> rfl

@[simp] theorem replayError_memories (s : State) (ci src : Nat) : (replayError s ci src).memories = s.memories := by
  simp [replayError]

@[simp] theorem freezeResumed_memories (s : State) (ci : Nat) : (freezeResumed s ci).memories = s.memories := by
  unfold freezeResumed
  split <;> simp

@[simp] theorem freezeFailed_memories (s : State) (ci : Nat) (f : Freeze) : (freezeFailed s ci f).memories = s.memories := by
  simp [freezeFailed]

@[simp] theorem freezeEnd_memories (s : State) (ci : Nat) : (freezeEnd s ci).memories = s.memories := by
  unfold freezeEnd
  (repeat' split) <;> simp

@[simp] theorem discardMany_memories (s : State) (part n : Nat) : (discardMany s part n).memories = s.memories := by
  simp [discardMany]

@[simp] theorem dropSwitched_memories (s : State) (part : Nat) (x : Switched) : (dropSwitched s part x).memories = s.memories := by
  unfold dropSwitched
  split <;> rfl

@[simp] theorem lendState_memories (s : State) (ci : Nat) (x : Switched) : (lendState s ci x).memories = s.memories := by
  simp [lendState]

theorem withPast_canonical {s : State} {ci : Nat} {has : State → Bool} {f : State → State}
    (hf : ∀ t, Canonical t.memories → Canonical (f t).memories) (h : Canonical s.memories) : Canonical (withPast s ci has f).memories := by
  unfold withPast
  split
  · exact hf s h
  · next p x _ =>
    have ht : Canonical (f (lendState s ci x)).memories := hf _ h
    dsimp only
    split <;> simpa using ht

theorem withPast_memories {s : State} {ci : Nat} {has : State → Bool} {f : State → State} (hf : ∀ t, (f t).memories = t.memories) :
    (withPast s ci has f).memories = s.memories := by
  unfold withPast
  split
  · exact hf s
  · next p x _ =>
    have ht : (f (lendState s ci x)).memories = s.memories := hf _
    dsimp only
    split <;> simpa using ht

@[simp] theorem landPiece_canonical (s : State) (ci : Nat) (h : Canonical s.memories) : Canonical (landPiece s ci).memories := by
  unfold landPiece
  split
  · exact h
  · split
    · simpa using h
    · exact h
    · next ht =>
      have hm := movePieceIn_ok h ht
      exact hm

@[simp] theorem execCopyPieceLand_canonical (core : Nat) (s : State) (h : Canonical s.memories) :
    NextCanonical (execCopyPieceLand core s) := by
  unfold execCopyPieceLand
  split <;> simp [h]

@[simp] theorem writePiece_canonical (s : State) (ci : Nat) (h : Canonical s.memories) : Canonical (writePiece s ci).memories := by
  unfold writePiece
  split
  · exact h
  · split
    · simpa using h
    · exact h
    · next ht =>
      have hm := movePieceOut_ok h ht
      exact hm

@[simp] theorem execOutboundCopyExecute_canonical (core : Nat) (s : State) (h : Canonical s.memories) :
    NextCanonical (execOutboundCopyExecute core s) :=
  coreEvent_canonical (withPast_canonical (fun _ ht => writePiece_canonical _ _ ht) h)

@[simp] theorem completeOut_memories (s : State) (ci : Nat) : (completeOut s ci).memories = s.memories := by
  unfold completeOut
  split <;> rfl

@[simp] theorem execOutboundCopyComplete_canonical (core : Nat) (s : State) (h : Canonical s.memories) :
    NextCanonical (execOutboundCopyComplete core s) :=
  coreEvent_canonical (withPast_canonical (fun _ ht => by simpa using ht) h)

@[simp] theorem findFault_memories (s : State) (ci : Nat) : (findFault s ci).memories = s.memories := by
  unfold findFault
  split <;> simp

@[simp] theorem execCopyFreeze_canonical (core : Nat) (s : State) (h : Canonical s.memories) : NextCanonical (execCopyFreeze core s) :=
  coreEvent_canonical (withPast_canonical (fun _ ht => by simpa using ht) h)

@[simp] theorem execFreezeResume_canonical (core : Nat) (s : State) (h : Canonical s.memories) : NextCanonical (execFreezeResume core s) :=
  coreEvent_canonical (withPast_canonical (fun _ ht => by split <;> simp [ht]) h)

@[simp] theorem execFreezeUnresolvable_canonical (core : Nat) (s : State) (h : Canonical s.memories) :
    NextCanonical (execFreezeUnresolvable core s) :=
  coreEvent_canonical (withPast_canonical (fun _ ht => by split <;> simp [ht]) h)

@[simp] theorem modChain_memories (s : State) (ci k : Nat) (f : Chain → Chain) : (modChain s ci k f).memories = s.memories := by
  simp [modChain]

@[simp] theorem chainFault_memories (s : State) (ci k cause detail off : Nat) :
    (chainFault s ci k cause detail off).memories = s.memories := by
  simp [chainFault]

theorem afterCopies_memories {s : State} {ci k : Nat} {f : State → State} {next : Chain → Chain} (hf : (f s).memories = s.memories) :
    (afterCopies s ci k f next).memories = s.memories := by
  unfold afterCopies
  split <;> simp [hf]

@[simp] theorem chainCopyRun_memories (s : State) (ci k : Nat) (x : Entry) : (chainCopyRun s ci k x).memories = s.memories := by
  unfold chainCopyRun
  dsimp only
  (repeat' split) <;> simp

@[simp] theorem chainWaitRun_memories (s : State) (ci k : Nat) (x : Entry) : (chainWaitRun s ci k x).memories = s.memories := by
  unfold chainWaitRun
  dsimp only
  (repeat' split) <;> simp

@[simp] theorem chainSkip_memories (s : State) (ci k r n : Nat) (x : Entry) : (chainSkip s ci k r n x).memories = s.memories := by
  unfold chainSkip
  dsimp only
  (repeat' split) <;> simp [afterCopies_memories]

@[simp] theorem chainEffect_memories (s : State) (ci k : Nat) (x : Entry) : (chainEffect s ci k x).memories = s.memories := by
  unfold chainEffect
  dsimp only
  split <;> simp [afterCopies_memories]

@[simp] theorem chainStep_canonical (s : State) (ci k op : Nat) (h : Canonical s.memories) : Canonical (chainStep s ci k op).memories := by
  unfold chainStep
  dsimp only
  (repeat' split) <;> simp [h]

@[simp] theorem chainEvent_canonical (s : State) (core slot op : Nat) (h : Canonical s.memories) :
    NextCanonical (chainEvent s core slot op) := by
  unfold chainEvent
  split <;> simp [h]

@[simp] theorem execChainEnd_canonical (core slot : Nat) (s : State) (h : Canonical s.memories) :
    NextCanonical (execChainEnd core slot s) := by
  simp [execChainEnd, h]

@[simp] theorem execChainCopy_canonical (core slot : Nat) (s : State) (h : Canonical s.memories) :
    NextCanonical (execChainCopy core slot s) := by
  simp [execChainCopy, h]

@[simp] theorem execChainCopy2d_canonical (core slot : Nat) (s : State) (h : Canonical s.memories) :
    NextCanonical (execChainCopy2d core slot s) := by
  simp [execChainCopy2d, h]

@[simp] theorem execChainWait_canonical (core slot : Nat) (s : State) (h : Canonical s.memories) :
    NextCanonical (execChainWait core slot s) := by
  simp [execChainWait, h]

@[simp] theorem execChainPost_canonical (core slot : Nat) (s : State) (h : Canonical s.memories) :
    NextCanonical (execChainPost core slot s) := by
  simp [execChainPost, h]

@[simp] theorem execChainLink_canonical (core slot : Nat) (s : State) (h : Canonical s.memories) :
    NextCanonical (execChainLink core slot s) := by
  simp [execChainLink, h]

@[simp] theorem execChainFlag_canonical (core slot : Nat) (s : State) (h : Canonical s.memories) :
    NextCanonical (execChainFlag core slot s) := by
  simp [execChainFlag, h]

@[simp] theorem execChainArrive_canonical (core slot : Nat) (s : State) (h : Canonical s.memories) :
    NextCanonical (execChainArrive core slot s) := by
  simp [execChainArrive, h]

@[simp] theorem startPending_memories (s : State) (ci k : Nat) : (startPending s ci k).memories = s.memories := by
  unfold startPending
  dsimp only
  (repeat' split) <;> simp

@[simp] theorem execPendingKickStart_canonical (core slot : Nat) (s : State) (h : Canonical s.memories) :
    NextCanonical (execPendingKickStart core slot s) := by
  unfold execPendingKickStart
  split <;> simp [h]

@[simp] theorem sendArrival_memories (s : State) (ci : Nat) (v : Word) (n : Nat) : (sendArrival s ci v n).memories = s.memories := by
  unfold sendArrival
  dsimp only
  (repeat' split) <;> simp

@[simp] theorem departPost_memories (s : State) (ci : Nat) : (departPost s ci).memories = s.memories := by
  unfold departPost
  dsimp only
  (repeat' split) <;> simp

@[simp] theorem execPostDeparture_canonical (core : Nat) (s : State) (h : Canonical s.memories) :
    NextCanonical (execPostDeparture core s) :=
  coreEvent_canonical (withPast_canonical (fun _ ht => by split <;> simp [ht]) h)

@[simp] theorem deliverPost_canonical (s : State) (ci : Nat) (h : Canonical s.memories) : Canonical (deliverPost s ci).memories := by
  unfold deliverPost
  dsimp only
  split
  · next q pkt _ =>
    have hd := deliver_canonical s (partOf (getCore s ci)) q pkt h
    split
    · next hs => rwa [hs] at hd
    · next hs => rwa [hs] at hd
    · next hs => rw [hs] at hd; simpa using hd
  · exact h

@[simp] theorem execQpostDelivery_canonical (core : Nat) (s : State) (h : Canonical s.memories) :
    NextCanonical (execQpostDelivery core s) :=
  coreEvent_canonical (withPast_canonical (fun _ ht => by split <;> simp [ht]) h)

@[simp] theorem hostResult_memories (s : State) (ci : Nat) (err : Bool) : (hostResult s ci err).memories = s.memories := by
  unfold hostResult
  (repeat' split) <;> rfl

@[simp] theorem execHostAtomicopCompletion_canonical (core : Nat) (err : Bool) (s : State) (h : Canonical s.memories) :
    NextCanonical (execHostAtomicopCompletion core err s) :=
  coreEvent_canonical (withPast_canonical (fun _ ht => by simp [ht]) h)

@[simp] theorem homeResult_memories (s : State) (ci : Nat) : (homeResult s ci).memories = s.memories := by
  unfold homeResult
  split <;> rfl

@[simp] theorem execPeerAtomicCompletion_canonical (core : Nat) (s : State) (h : Canonical s.memories) :
    NextCanonical (execPeerAtomicCompletion core s) :=
  coreEvent_canonical (withPast_canonical (fun _ ht => by simp [ht]) h)

@[simp] theorem ackWrite_canonical (s : State) (ci : Nat) (h : Canonical s.memories) : Canonical (ackWrite s ci).memories := by
  unfold ackWrite
  split <;> simp [h]

@[simp] theorem execPeerWriteAck_canonical (core : Nat) (s : State) (h : Canonical s.memories) : NextCanonical (execPeerWriteAck core s) :=
  coreEvent_canonical (withPast_canonical (fun _ ht => by simp [ht]) h)

@[simp] theorem refuseOne_memories (s : State) (ci : Nat) (o : Outstanding) : (refuseOne s ci o).memories = s.memories := by
  unfold refuseOne
  split <;> rfl

@[simp] theorem refuseWrite_memories (s : State) (ci : Nat) : (refuseWrite s ci).memories = s.memories := by
  unfold refuseWrite
  split <;> simp

@[simp] theorem execPeerRefused_canonical (core : Nat) (s : State) (h : Canonical s.memories) : NextCanonical (execPeerRefused core s) :=
  coreEvent_canonical (withPast_canonical (fun _ ht => by simp [ht]) h)

@[simp] theorem discardArrival_memories (s : State) (part : Nat) : (discardArrival s part).memories = s.memories := by
  simp [discardArrival]

@[simp] theorem remoteArrival_memories (s : State) (ci : Nat) : (remoteArrival s ci).memories = s.memories := by
  unfold remoteArrival
  dsimp only
  (repeat' split) <;> simp

@[simp] theorem execRemoteHurdleArrival_canonical (core : Nat) (s : State) (h : Canonical s.memories) :
    NextCanonical (execRemoteHurdleArrival core s) := by
  unfold execRemoteHurdleArrival
  split <;> simp [h]

@[simp] theorem stealArrives_memories (s : State) (ci : Nat) : (stealArrives s ci).memories = s.memories := by
  unfold stealArrives
  dsimp only
  (repeat' split) <;> simp

@[simp] theorem execStealRequestArrival_canonical (core : Nat) (s : State) (h : Canonical s.memories) :
    NextCanonical (execStealRequestArrival core s) := by
  unfold execStealRequestArrival
  split <;> simp [h]

@[simp] theorem stealAnswer_memories (s : State) (ci : Nat) (grant : Bool) : (stealAnswer s ci grant).memories = s.memories := by
  unfold stealAnswer
  dsimp only
  (repeat' split) <;> simp

@[simp] theorem execStealGrant_canonical (core : Nat) (s : State) (h : Canonical s.memories) : NextCanonical (execStealGrant core s) := by
  unfold execStealGrant
  split <;> simp [h]

@[simp] theorem execStealRefusal_canonical (core : Nat) (s : State) (h : Canonical s.memories) :
    NextCanonical (execStealRefusal core s) := by
  unfold execStealRefusal
  split <;> simp [h]

@[simp] theorem detectError_memories (s : State) (ci src : Nat) : (detectError s ci src).memories = s.memories := by
  unfold detectError
  dsimp only
  (repeat' split) <;> simp

@[simp] theorem execDetectedErrorReplay_canonical (core src : Nat) (s : State) (h : Canonical s.memories) :
    NextCanonical (execDetectedErrorReplay core src s) := by
  unfold execDetectedErrorReplay
  split <;> simp [h]

@[simp] theorem outsideFail_memories (s : State) (ci piece : Nat) : (outsideFail s ci piece).memories = s.memories := by
  simp [outsideFail]

@[simp] theorem outsideError_memories (s : State) (ci piece : Nat) : (outsideError s ci piece).memories = s.memories := by
  unfold outsideError
  dsimp only
  (repeat' split) <;> simp

@[simp] theorem execOutOfRegionError_canonical (w : OutWork) (s : State) (h : Canonical s.memories) :
    NextCanonical (execOutOfRegionError w s) :=
  coreEvent_canonical (withPast_canonical (fun _ ht => by split <;> simp [ht]) h)

end Sys2Proof.Machine
end

section
/-! SUPPORT for O55. What the functions of Machine/Scalar.lean leave of the memories. -/

namespace Sys2Proof.Machine

@[simp] theorem execAdd_canonical (d a b : BitVec 6) (g : BitVec 3) (s : State) (h : Canonical s.memories) :
    NextCanonical (execAdd d a b g s) :=
  issueA_canonical (fun _ _ ht => by simp [ht]) h

@[simp] theorem execSub_canonical (d a b : BitVec 6) (g : BitVec 3) (s : State) (h : Canonical s.memories) :
    NextCanonical (execSub d a b g s) :=
  issueA_canonical (fun _ _ ht => by simp [ht]) h

@[simp] theorem execAnd_canonical (d a b : BitVec 6) (g : BitVec 3) (s : State) (h : Canonical s.memories) :
    NextCanonical (execAnd d a b g s) :=
  issueA_canonical (fun _ _ ht => by simp [ht]) h

@[simp] theorem execOr_canonical (d a b : BitVec 6) (g : BitVec 3) (s : State) (h : Canonical s.memories) :
    NextCanonical (execOr d a b g s) :=
  issueA_canonical (fun _ _ ht => by simp [ht]) h

@[simp] theorem execXor_canonical (d a b : BitVec 6) (g : BitVec 3) (s : State) (h : Canonical s.memories) :
    NextCanonical (execXor d a b g s) :=
  issueA_canonical (fun _ _ ht => by simp [ht]) h

@[simp] theorem execSll_canonical (d a b : BitVec 6) (g : BitVec 3) (s : State) (h : Canonical s.memories) :
    NextCanonical (execSll d a b g s) :=
  issueA_canonical (fun _ _ ht => by simp [ht]) h

@[simp] theorem execSrl_canonical (d a b : BitVec 6) (g : BitVec 3) (s : State) (h : Canonical s.memories) :
    NextCanonical (execSrl d a b g s) :=
  issueA_canonical (fun _ _ ht => by simp [ht]) h

@[simp] theorem execSra_canonical (d a b : BitVec 6) (g : BitVec 3) (s : State) (h : Canonical s.memories) :
    NextCanonical (execSra d a b g s) :=
  issueA_canonical (fun _ _ ht => by simp [ht]) h

@[simp] theorem execMul_canonical (d a b : BitVec 6) (g : BitVec 3) (s : State) (h : Canonical s.memories) :
    NextCanonical (execMul d a b g s) :=
  issueA_canonical (fun _ _ ht => by simp [ht]) h

@[simp] theorem execMulhiS_canonical (d a b : BitVec 6) (g : BitVec 3) (s : State) (h : Canonical s.memories) :
    NextCanonical (execMulhiS d a b g s) :=
  issueA_canonical (fun _ _ ht => by simp [ht]) h

@[simp] theorem execMulhiU_canonical (d a b : BitVec 6) (g : BitVec 3) (s : State) (h : Canonical s.memories) :
    NextCanonical (execMulhiU d a b g s) :=
  issueA_canonical (fun _ _ ht => by simp [ht]) h

@[simp] theorem execQuotS_canonical (d a b : BitVec 6) (g : BitVec 3) (s : State) (h : Canonical s.memories) :
    NextCanonical (execQuotS d a b g s) :=
  issueA_canonical (fun _ _ ht => by simp [ht]) h

@[simp] theorem execQuotU_canonical (d a b : BitVec 6) (g : BitVec 3) (s : State) (h : Canonical s.memories) :
    NextCanonical (execQuotU d a b g s) :=
  issueA_canonical (fun _ _ ht => by simp [ht]) h

@[simp] theorem execRmdrS_canonical (d a b : BitVec 6) (g : BitVec 3) (s : State) (h : Canonical s.memories) :
    NextCanonical (execRmdrS d a b g s) :=
  issueA_canonical (fun _ _ ht => by simp [ht]) h

@[simp] theorem execRmdrU_canonical (d a b : BitVec 6) (g : BitVec 3) (s : State) (h : Canonical s.memories) :
    NextCanonical (execRmdrU d a b g s) :=
  issueA_canonical (fun _ _ ht => by simp [ht]) h

@[simp] theorem execAddi_canonical (d a : BitVec 6) (i : BitVec 13) (s : State) (h : Canonical s.memories) :
    NextCanonical (execAddi d a i s) :=
  issueA_canonical (fun _ _ ht => by simp [ht]) h

@[simp] theorem execAndi_canonical (d a : BitVec 6) (i : BitVec 13) (s : State) (h : Canonical s.memories) :
    NextCanonical (execAndi d a i s) :=
  issueA_canonical (fun _ _ ht => by simp [ht]) h

@[simp] theorem execOri_canonical (d a : BitVec 6) (i : BitVec 13) (s : State) (h : Canonical s.memories) :
    NextCanonical (execOri d a i s) :=
  issueA_canonical (fun _ _ ht => by simp [ht]) h

@[simp] theorem execXori_canonical (d a : BitVec 6) (i : BitVec 13) (s : State) (h : Canonical s.memories) :
    NextCanonical (execXori d a i s) :=
  issueA_canonical (fun _ _ ht => by simp [ht]) h

@[simp] theorem execSlli_canonical (d a sf : BitVec 6) (s : State) (h : Canonical s.memories) : NextCanonical (execSlli d a sf s) :=
  issueA_canonical (fun _ _ ht => by simp [ht]) h

@[simp] theorem execSrli_canonical (d a sf : BitVec 6) (s : State) (h : Canonical s.memories) : NextCanonical (execSrli d a sf s) :=
  issueA_canonical (fun _ _ ht => by simp [ht]) h

@[simp] theorem execSrai_canonical (d a sf : BitVec 6) (s : State) (h : Canonical s.memories) : NextCanonical (execSrai d a sf s) :=
  issueA_canonical (fun _ _ ht => by simp [ht]) h

@[simp] theorem execHimm_canonical (d : BitVec 6) (i : BitVec 19) (s : State) (h : Canonical s.memories) :
    NextCanonical (execHimm d i s) :=
  issueA_canonical (fun _ _ ht => by simp [ht]) h

@[simp] theorem execAdpc_canonical (d : BitVec 6) (i : BitVec 19) (s : State) (h : Canonical s.memories) :
    NextCanonical (execAdpc d i s) :=
  issueA_canonical (fun _ _ ht => by simp [ht]) h

@[simp] theorem execCmpEq_canonical (d a b : BitVec 6) (g : BitVec 3) (s : State) (h : Canonical s.memories) :
    NextCanonical (execCmpEq d a b g s) :=
  issueA_canonical (fun _ _ ht => by simp [ht]) h

@[simp] theorem execCmpNe_canonical (d a b : BitVec 6) (g : BitVec 3) (s : State) (h : Canonical s.memories) :
    NextCanonical (execCmpNe d a b g s) :=
  issueA_canonical (fun _ _ ht => by simp [ht]) h

@[simp] theorem execCmpLt_canonical (d a b : BitVec 6) (g : BitVec 3) (s : State) (h : Canonical s.memories) :
    NextCanonical (execCmpLt d a b g s) :=
  issueA_canonical (fun _ _ ht => by simp [ht]) h

@[simp] theorem execCmpGe_canonical (d a b : BitVec 6) (g : BitVec 3) (s : State) (h : Canonical s.memories) :
    NextCanonical (execCmpGe d a b g s) :=
  issueA_canonical (fun _ _ ht => by simp [ht]) h

@[simp] theorem execCmpLtu_canonical (d a b : BitVec 6) (g : BitVec 3) (s : State) (h : Canonical s.memories) :
    NextCanonical (execCmpLtu d a b g s) :=
  issueA_canonical (fun _ _ ht => by simp [ht]) h

@[simp] theorem execCmpGeu_canonical (d a b : BitVec 6) (g : BitVec 3) (s : State) (h : Canonical s.memories) :
    NextCanonical (execCmpGeu d a b g s) :=
  issueA_canonical (fun _ _ ht => by simp [ht]) h

@[simp] theorem execFlAnd_canonical (d a b : BitVec 6) (g : BitVec 3) (s : State) (h : Canonical s.memories) :
    NextCanonical (execFlAnd d a b g s) :=
  issueA_canonical (fun _ _ ht => by simp [ht]) h

@[simp] theorem execFlOr_canonical (d a b : BitVec 6) (g : BitVec 3) (s : State) (h : Canonical s.memories) :
    NextCanonical (execFlOr d a b g s) :=
  issueA_canonical (fun _ _ ht => by simp [ht]) h

@[simp] theorem execFlXor_canonical (d a b : BitVec 6) (g : BitVec 3) (s : State) (h : Canonical s.memories) :
    NextCanonical (execFlXor d a b g s) :=
  issueA_canonical (fun _ _ ht => by simp [ht]) h

@[simp] theorem execFlAndn_canonical (d a b : BitVec 6) (g : BitVec 3) (s : State) (h : Canonical s.memories) :
    NextCanonical (execFlAndn d a b g s) :=
  issueA_canonical (fun _ _ ht => by simp [ht]) h

@[simp] theorem execFlRd_canonical (d : BitVec 6) (g : BitVec 3) (s : State) (h : Canonical s.memories) : NextCanonical (execFlRd d g s) :=
  issueA_canonical (fun _ _ ht => by simp [ht]) h

@[simp] theorem execFlWr_canonical (a : BitVec 6) (g : BitVec 3) (s : State) (h : Canonical s.memories) : NextCanonical (execFlWr a g s) :=
  issueA_canonical (fun _ _ ht => by simp [ht]) h

@[simp] theorem execCmpiEq_canonical (f : BitVec 3) (a : BitVec 6) (i : BitVec 13) (s : State) (h : Canonical s.memories) :
    NextCanonical (execCmpiEq f a i s) :=
  issueA_canonical (fun _ _ ht => by simp [ht]) h

@[simp] theorem execCmpiNe_canonical (f : BitVec 3) (a : BitVec 6) (i : BitVec 13) (s : State) (h : Canonical s.memories) :
    NextCanonical (execCmpiNe f a i s) :=
  issueA_canonical (fun _ _ ht => by simp [ht]) h

@[simp] theorem execCmpiLt_canonical (f : BitVec 3) (a : BitVec 6) (i : BitVec 13) (s : State) (h : Canonical s.memories) :
    NextCanonical (execCmpiLt f a i s) :=
  issueA_canonical (fun _ _ ht => by simp [ht]) h

@[simp] theorem execCmpiGe_canonical (f : BitVec 3) (a : BitVec 6) (i : BitVec 13) (s : State) (h : Canonical s.memories) :
    NextCanonical (execCmpiGe f a i s) :=
  issueA_canonical (fun _ _ ht => by simp [ht]) h

@[simp] theorem execCmpiLtu_canonical (f : BitVec 3) (a : BitVec 6) (i : BitVec 13) (s : State) (h : Canonical s.memories) :
    NextCanonical (execCmpiLtu f a i s) :=
  issueA_canonical (fun _ _ ht => by simp [ht]) h

@[simp] theorem execCmpiGeu_canonical (f : BitVec 3) (a : BitVec 6) (i : BitVec 13) (s : State) (h : Canonical s.memories) :
    NextCanonical (execCmpiGeu f a i s) :=
  issueA_canonical (fun _ _ ht => by simp [ht]) h

@[simp] theorem execFaddF64_canonical (d a b : BitVec 6) (g : BitVec 3) (s : State) (h : Canonical s.memories) :
    NextCanonical (execFaddF64 d a b g s) :=
  issueA_canonical (fun _ _ ht => by simp [ht]) h

@[simp] theorem execFsubF64_canonical (d a b : BitVec 6) (g : BitVec 3) (s : State) (h : Canonical s.memories) :
    NextCanonical (execFsubF64 d a b g s) :=
  issueA_canonical (fun _ _ ht => by simp [ht]) h

@[simp] theorem execFmulF64_canonical (d a b : BitVec 6) (g : BitVec 3) (s : State) (h : Canonical s.memories) :
    NextCanonical (execFmulF64 d a b g s) :=
  issueA_canonical (fun _ _ ht => by simp [ht]) h

@[simp] theorem execFdivF64_canonical (d a b : BitVec 6) (g : BitVec 3) (s : State) (h : Canonical s.memories) :
    NextCanonical (execFdivF64 d a b g s) :=
  issueA_canonical (fun _ _ ht => by simp [ht]) h

@[simp] theorem execFsqrtF64_canonical (d a : BitVec 6) (g : BitVec 3) (s : State) (h : Canonical s.memories) :
    NextCanonical (execFsqrtF64 d a g s) :=
  issueA_canonical (fun _ _ ht => by simp [ht]) h

@[simp] theorem execFminF64_canonical (d a b : BitVec 6) (g : BitVec 3) (s : State) (h : Canonical s.memories) :
    NextCanonical (execFminF64 d a b g s) :=
  issueA_canonical (fun _ _ ht => by simp [ht]) h

@[simp] theorem execFmaxF64_canonical (d a b : BitVec 6) (g : BitVec 3) (s : State) (h : Canonical s.memories) :
    NextCanonical (execFmaxF64 d a b g s) :=
  issueA_canonical (fun _ _ ht => by simp [ht]) h

@[simp] theorem fusedX_canonical (e : Env) (s : State) (f : Fmt) (d a b : BitVec 6) (h : Canonical s.memories) :
    (fusedX e s f d a b).Canonical := by
  simp [fusedX, h]

@[simp] theorem execFmacF64_canonical (d a b : BitVec 6) (g : BitVec 3) (s : State) (h : Canonical s.memories) :
    NextCanonical (execFmacF64 d a b g s) :=
  issueA_canonical (fun _ _ ht => by simp [ht]) h

@[simp] theorem execFcmpEqF64_canonical (d a b : BitVec 6) (g : BitVec 3) (s : State) (h : Canonical s.memories) :
    NextCanonical (execFcmpEqF64 d a b g s) :=
  issueA_canonical (fun _ _ ht => by simp [ht]) h

@[simp] theorem execFcmpLtF64_canonical (d a b : BitVec 6) (g : BitVec 3) (s : State) (h : Canonical s.memories) :
    NextCanonical (execFcmpLtF64 d a b g s) :=
  issueA_canonical (fun _ _ ht => by simp [ht]) h

@[simp] theorem execFcmpLeF64_canonical (d a b : BitVec 6) (g : BitVec 3) (s : State) (h : Canonical s.memories) :
    NextCanonical (execFcmpLeF64 d a b g s) :=
  issueA_canonical (fun _ _ ht => by simp [ht]) h

@[simp] theorem execScvtF64F32_canonical (d a : BitVec 6) (m g : BitVec 3) (s : State) (h : Canonical s.memories) :
    NextCanonical (execScvtF64F32 d a m g s) :=
  issueA_canonical (fun _ _ ht => by simp [ht]) h

@[simp] theorem execScvtF64I64_canonical (d a : BitVec 6) (m g : BitVec 3) (s : State) (h : Canonical s.memories) :
    NextCanonical (execScvtF64I64 d a m g s) :=
  issueA_canonical (fun _ _ ht => by simp [ht]) h

@[simp] theorem execScvtF64Ui64_canonical (d a : BitVec 6) (m g : BitVec 3) (s : State) (h : Canonical s.memories) :
    NextCanonical (execScvtF64Ui64 d a m g s) :=
  issueA_canonical (fun _ _ ht => by simp [ht]) h

@[simp] theorem execScvtI64F64_canonical (d a : BitVec 6) (m g : BitVec 3) (s : State) (h : Canonical s.memories) :
    NextCanonical (execScvtI64F64 d a m g s) :=
  issueA_canonical (fun _ _ ht => by simp [ht]) h

@[simp] theorem execScvtUi64F64_canonical (d a : BitVec 6) (m g : BitVec 3) (s : State) (h : Canonical s.memories) :
    NextCanonical (execScvtUi64F64 d a m g s) :=
  issueA_canonical (fun _ _ ht => by simp [ht]) h

@[simp] theorem execScvtI32F64_canonical (d a : BitVec 6) (m g : BitVec 3) (s : State) (h : Canonical s.memories) :
    NextCanonical (execScvtI32F64 d a m g s) :=
  issueA_canonical (fun _ _ ht => by simp [ht]) h

@[simp] theorem execFkindF64_canonical (d a : BitVec 6) (g : BitVec 3) (s : State) (h : Canonical s.memories) :
    NextCanonical (execFkindF64 d a g s) :=
  issueA_canonical (fun _ _ ht => by simp [ht]) h

@[simp] theorem execFabsF64_canonical (d a : BitVec 6) (g : BitVec 3) (s : State) (h : Canonical s.memories) :
    NextCanonical (execFabsF64 d a g s) :=
  issueA_canonical (fun _ _ ht => by simp [ht]) h

@[simp] theorem execFnegF64_canonical (d a : BitVec 6) (g : BitVec 3) (s : State) (h : Canonical s.memories) :
    NextCanonical (execFnegF64 d a g s) :=
  issueA_canonical (fun _ _ ht => by simp [ht]) h

@[simp] theorem execFmsgnF64_canonical (d a b : BitVec 6) (g : BitVec 3) (s : State) (h : Canonical s.memories) :
    NextCanonical (execFmsgnF64 d a b g s) :=
  issueA_canonical (fun _ _ ht => by simp [ht]) h

@[simp] theorem execFaddF32_canonical (d a b : BitVec 6) (g : BitVec 3) (s : State) (h : Canonical s.memories) :
    NextCanonical (execFaddF32 d a b g s) :=
  issueA_canonical (fun _ _ ht => by simp [ht]) h

@[simp] theorem execFsubF32_canonical (d a b : BitVec 6) (g : BitVec 3) (s : State) (h : Canonical s.memories) :
    NextCanonical (execFsubF32 d a b g s) :=
  issueA_canonical (fun _ _ ht => by simp [ht]) h

@[simp] theorem execFmulF32_canonical (d a b : BitVec 6) (g : BitVec 3) (s : State) (h : Canonical s.memories) :
    NextCanonical (execFmulF32 d a b g s) :=
  issueA_canonical (fun _ _ ht => by simp [ht]) h

@[simp] theorem execFdivF32_canonical (d a b : BitVec 6) (g : BitVec 3) (s : State) (h : Canonical s.memories) :
    NextCanonical (execFdivF32 d a b g s) :=
  issueA_canonical (fun _ _ ht => by simp [ht]) h

@[simp] theorem execFsqrtF32_canonical (d a : BitVec 6) (g : BitVec 3) (s : State) (h : Canonical s.memories) :
    NextCanonical (execFsqrtF32 d a g s) :=
  issueA_canonical (fun _ _ ht => by simp [ht]) h

@[simp] theorem execFminF32_canonical (d a b : BitVec 6) (g : BitVec 3) (s : State) (h : Canonical s.memories) :
    NextCanonical (execFminF32 d a b g s) :=
  issueA_canonical (fun _ _ ht => by simp [ht]) h

@[simp] theorem execFmaxF32_canonical (d a b : BitVec 6) (g : BitVec 3) (s : State) (h : Canonical s.memories) :
    NextCanonical (execFmaxF32 d a b g s) :=
  issueA_canonical (fun _ _ ht => by simp [ht]) h

@[simp] theorem execFmacF32_canonical (d a b : BitVec 6) (g : BitVec 3) (s : State) (h : Canonical s.memories) :
    NextCanonical (execFmacF32 d a b g s) :=
  issueA_canonical (fun _ _ ht => by simp [ht]) h

@[simp] theorem execFcmpEqF32_canonical (d a b : BitVec 6) (g : BitVec 3) (s : State) (h : Canonical s.memories) :
    NextCanonical (execFcmpEqF32 d a b g s) :=
  issueA_canonical (fun _ _ ht => by simp [ht]) h

@[simp] theorem execFcmpLtF32_canonical (d a b : BitVec 6) (g : BitVec 3) (s : State) (h : Canonical s.memories) :
    NextCanonical (execFcmpLtF32 d a b g s) :=
  issueA_canonical (fun _ _ ht => by simp [ht]) h

@[simp] theorem execFcmpLeF32_canonical (d a b : BitVec 6) (g : BitVec 3) (s : State) (h : Canonical s.memories) :
    NextCanonical (execFcmpLeF32 d a b g s) :=
  issueA_canonical (fun _ _ ht => by simp [ht]) h

@[simp] theorem execScvtF32F64_canonical (d a : BitVec 6) (m g : BitVec 3) (s : State) (h : Canonical s.memories) :
    NextCanonical (execScvtF32F64 d a m g s) :=
  issueA_canonical (fun _ _ ht => by simp [ht]) h

@[simp] theorem execScvtF32I64_canonical (d a : BitVec 6) (m g : BitVec 3) (s : State) (h : Canonical s.memories) :
    NextCanonical (execScvtF32I64 d a m g s) :=
  issueA_canonical (fun _ _ ht => by simp [ht]) h

@[simp] theorem execScvtF32Ui64_canonical (d a : BitVec 6) (m g : BitVec 3) (s : State) (h : Canonical s.memories) :
    NextCanonical (execScvtF32Ui64 d a m g s) :=
  issueA_canonical (fun _ _ ht => by simp [ht]) h

@[simp] theorem execScvtI64F32_canonical (d a : BitVec 6) (m g : BitVec 3) (s : State) (h : Canonical s.memories) :
    NextCanonical (execScvtI64F32 d a m g s) :=
  issueA_canonical (fun _ _ ht => by simp [ht]) h

@[simp] theorem execScvtUi64F32_canonical (d a : BitVec 6) (m g : BitVec 3) (s : State) (h : Canonical s.memories) :
    NextCanonical (execScvtUi64F32 d a m g s) :=
  issueA_canonical (fun _ _ ht => by simp [ht]) h

@[simp] theorem execScvtI32F32_canonical (d a : BitVec 6) (m g : BitVec 3) (s : State) (h : Canonical s.memories) :
    NextCanonical (execScvtI32F32 d a m g s) :=
  issueA_canonical (fun _ _ ht => by simp [ht]) h

@[simp] theorem execFkindF32_canonical (d a : BitVec 6) (g : BitVec 3) (s : State) (h : Canonical s.memories) :
    NextCanonical (execFkindF32 d a g s) :=
  issueA_canonical (fun _ _ ht => by simp [ht]) h

@[simp] theorem execFabsF32_canonical (d a : BitVec 6) (g : BitVec 3) (s : State) (h : Canonical s.memories) :
    NextCanonical (execFabsF32 d a g s) :=
  issueA_canonical (fun _ _ ht => by simp [ht]) h

@[simp] theorem execFnegF32_canonical (d a : BitVec 6) (g : BitVec 3) (s : State) (h : Canonical s.memories) :
    NextCanonical (execFnegF32 d a g s) :=
  issueA_canonical (fun _ _ ht => by simp [ht]) h

@[simp] theorem execFmsgnF32_canonical (d a b : BitVec 6) (g : BitVec 3) (s : State) (h : Canonical s.memories) :
    NextCanonical (execFmsgnF32 d a b g s) :=
  issueA_canonical (fun _ _ ht => by simp [ht]) h

@[simp] theorem csrUpdate_canonical (e : Env) (s : State) (d a : BitVec 6) (c : BitVec 10) (f : Word → Word → Word)
    (h : Canonical s.memories) :
    (csrUpdate e s d a c f).Canonical := by
  simp [csrUpdate, h]

@[simp] theorem execCsrrd_canonical (d : BitVec 6) (c : BitVec 10) (s : State) (h : Canonical s.memories) :
    NextCanonical (execCsrrd d c s) :=
  issueA_canonical (fun _ _ ht => by simp [ht]) h

@[simp] theorem execCsrwr_canonical (d a : BitVec 6) (c : BitVec 10) (s : State) (h : Canonical s.memories) :
    NextCanonical (execCsrwr d a c s) :=
  issueA_canonical (fun _ _ ht => by simp [ht]) h

@[simp] theorem execCsrset_canonical (d a : BitVec 6) (c : BitVec 10) (s : State) (h : Canonical s.memories) :
    NextCanonical (execCsrset d a c s) :=
  issueA_canonical (fun _ _ ht => by simp [ht]) h

@[simp] theorem execCsrclr_canonical (d a : BitVec 6) (c : BitVec 10) (s : State) (h : Canonical s.memories) :
    NextCanonical (execCsrclr d a c s) :=
  issueA_canonical (fun _ _ ht => by simp [ht]) h

@[simp] theorem execPset_canonical (d a : BitVec 6) (g : BitVec 3) (s : State) (h : Canonical s.memories) :
    NextCanonical (execPset d a g s) :=
  issueA_canonical (fun _ _ ht => by simp [ht]) h

@[simp] theorem execPclr_canonical (d a : BitVec 6) (g : BitVec 3) (s : State) (h : Canonical s.memories) :
    NextCanonical (execPclr d a g s) :=
  issueA_canonical (fun _ _ ht => by simp [ht]) h

@[simp] theorem execPtest_canonical (d a : BitVec 6) (g : BitVec 3) (s : State) (h : Canonical s.memories) :
    NextCanonical (execPtest d a g s) :=
  issueA_canonical (fun _ _ ht => by simp [ht]) h

@[simp] theorem execHint_canonical (h : BitVec 27) (s : State) (hc : Canonical s.memories) : NextCanonical (execHint h s) :=
  issueI_canonical (fun _ _ ht => ht) hc

@[simp] theorem emulWord_canonical (e : Env) (s : State) (w : Nat) : (emulWord e s w).Canonical := by
  simp [emulWord]

@[simp] theorem execEmulMajor7c_canonical (x : BitVec 25) (s : State) (h : Canonical s.memories) : NextCanonical (execEmulMajor7c x s) :=
  issueA_canonical (fun _ _ _ => by simp) h

@[simp] theorem execEmulMajor7d_canonical (x : BitVec 25) (s : State) (h : Canonical s.memories) : NextCanonical (execEmulMajor7d x s) :=
  issueA_canonical (fun _ _ _ => by simp) h

@[simp] theorem execEmulMajor7e_canonical (x : BitVec 25) (s : State) (h : Canonical s.memories) : NextCanonical (execEmulMajor7e x s) :=
  issueA_canonical (fun _ _ _ => by simp) h

@[simp] theorem execUndefinedMajor_canonical (w : BitVec 32) (s : State) (h : Canonical s.memories) :
    NextCanonical (execUndefinedMajor w s) :=
  issueA_canonical (fun _ _ _ => by simp) h

end Sys2Proof.Machine
end

section
/-! SUPPORT for O55. What the functions of Machine/Vector.lean leave of the memories. -/

namespace Sys2Proof.Machine

theorem storeE_canonical {e : Env} {s : State} {n w : Nat} {es : List (Option Elem)} {k : State → Res}
    (hk : ∀ t, Canonical t.memories → (k t).Canonical) (h : Canonical s.memories) : (storeE e s n w es k).Canonical := by
  unfold storeE
  split
  · exact hk _ h
  · split
    · trivial
    · trivial
    · trivial
    · next ht => exact hk _ (pushPort_ok h ht)

theorem kVec_canonical {e : Env} {s : State} {names srcs : List Nat} {k : List (List Lane) → State → Res}
    (hk : ∀ vs t, Canonical t.memories → (k vs t).Canonical) (h : Canonical s.memories) : (kVec e s names srcs k).Canonical := by
  unfold kVec
  split
  · trivial
  · exact withV_canonical hk h

@[simp] theorem portMisused_canonical (e : Env) (s : State) (q : Nat) : (portMisused e s q).Canonical := trivial

@[simp] theorem finishV_canonical (e : Env) (s : State) (d : BitVec 6) (t : BitVec 4) (r : List (Option Elem) × Flg) (h : Canonical s.memories) :
    (finishV e s d t r).Canonical :=
  storeE_canonical (fun _ ht => ht) h

@[simp] theorem binaryV_canonical (e : Env) (s : State) (d a b : BitVec 6) (m : BitVec 3) (t : BitVec 4) (op : ElemOp)
    (h : Canonical s.memories) : (binaryV e s d a b m t op).Canonical :=
  kVec_canonical (fun _ _ ht => finishV_canonical _ _ _ _ _ ht) h

@[simp] theorem fusedV_canonical (e : Env) (s : State) (d a b : BitVec 6) (m : BitVec 3) (t : BitVec 4) (op : ElemOp) (h : Canonical s.memories) :
    (fusedV e s d a b m t op).Canonical := by
  refine kVec_canonical (fun vs u hu => ?_) h
  split <;> simp [hu]

@[simp] theorem unaryV_canonical (e : Env) (s : State) (d a : BitVec 6) (m : BitVec 3) (t : BitVec 4) (op : Nat → Nat × Flg)
    (h : Canonical s.memories) : (unaryV e s d a m t op).Canonical :=
  kVec_canonical (fun _ _ ht => finishV_canonical _ _ _ _ _ ht) h

@[simp] theorem execVadd_canonical (d a b : BitVec 6) (m : BitVec 3) (t : BitVec 4) (s : State) (h : Canonical s.memories) :
    NextCanonical (execVadd d a b m t s) :=
  issueA_canonical (fun _ _ ht => by simp [ht]) h

@[simp] theorem execVsub_canonical (d a b : BitVec 6) (m : BitVec 3) (t : BitVec 4) (s : State) (h : Canonical s.memories) :
    NextCanonical (execVsub d a b m t s) :=
  issueA_canonical (fun _ _ ht => by simp [ht]) h

@[simp] theorem execVmul_canonical (d a b : BitVec 6) (m : BitVec 3) (t : BitVec 4) (s : State) (h : Canonical s.memories) :
    NextCanonical (execVmul d a b m t s) :=
  issueA_canonical (fun _ _ ht => by simp [ht]) h

@[simp] theorem execVfma_canonical (d a b : BitVec 6) (m : BitVec 3) (t : BitVec 4) (s : State) (h : Canonical s.memories) :
    NextCanonical (execVfma d a b m t s) :=
  issueA_canonical (fun _ _ ht => by simp [ht]) h

@[simp] theorem execVfms_canonical (d a b : BitVec 6) (m : BitVec 3) (t : BitVec 4) (s : State) (h : Canonical s.memories) :
    NextCanonical (execVfms d a b m t s) :=
  issueA_canonical (fun _ _ ht => by simp [ht]) h

@[simp] theorem execVfnma_canonical (d a b : BitVec 6) (m : BitVec 3) (t : BitVec 4) (s : State) (h : Canonical s.memories) :
    NextCanonical (execVfnma d a b m t s) :=
  issueA_canonical (fun _ _ ht => by simp [ht]) h

@[simp] theorem execVmin_canonical (d a b : BitVec 6) (m : BitVec 3) (t : BitVec 4) (s : State) (h : Canonical s.memories) :
    NextCanonical (execVmin d a b m t s) :=
  issueA_canonical (fun _ _ ht => by simp [ht]) h

@[simp] theorem execVmax_canonical (d a b : BitVec 6) (m : BitVec 3) (t : BitVec 4) (s : State) (h : Canonical s.memories) :
    NextCanonical (execVmax d a b m t s) :=
  issueA_canonical (fun _ _ ht => by simp [ht]) h

@[simp] theorem execVdiv_canonical (d a b : BitVec 6) (m : BitVec 3) (t : BitVec 4) (s : State) (h : Canonical s.memories) :
    NextCanonical (execVdiv d a b m t s) :=
  issueA_canonical (fun _ _ ht => by simp [ht]) h

@[simp] theorem execVand_canonical (d a b : BitVec 6) (m : BitVec 3) (t : BitVec 4) (s : State) (h : Canonical s.memories) :
    NextCanonical (execVand d a b m t s) :=
  issueA_canonical (fun _ _ ht => by simp [ht]) h

@[simp] theorem execVor_canonical (d a b : BitVec 6) (m : BitVec 3) (t : BitVec 4) (s : State) (h : Canonical s.memories) :
    NextCanonical (execVor d a b m t s) :=
  issueA_canonical (fun _ _ ht => by simp [ht]) h

@[simp] theorem execVxor_canonical (d a b : BitVec 6) (m : BitVec 3) (t : BitVec 4) (s : State) (h : Canonical s.memories) :
    NextCanonical (execVxor d a b m t s) :=
  issueA_canonical (fun _ _ ht => by simp [ht]) h

@[simp] theorem execVsll_canonical (d a b : BitVec 6) (m : BitVec 3) (t : BitVec 4) (s : State) (h : Canonical s.memories) :
    NextCanonical (execVsll d a b m t s) :=
  issueA_canonical (fun _ _ ht => by simp [ht]) h

@[simp] theorem execVsrl_canonical (d a b : BitVec 6) (m : BitVec 3) (t : BitVec 4) (s : State) (h : Canonical s.memories) :
    NextCanonical (execVsrl d a b m t s) :=
  issueA_canonical (fun _ _ ht => by simp [ht]) h

@[simp] theorem execVsra_canonical (d a b : BitVec 6) (m : BitVec 3) (t : BitVec 4) (s : State) (h : Canonical s.memories) :
    NextCanonical (execVsra d a b m t s) :=
  issueA_canonical (fun _ _ ht => by simp [ht]) h

@[simp] theorem execVadds_canonical (d a b : BitVec 6) (m : BitVec 3) (t : BitVec 4) (s : State) (h : Canonical s.memories) :
    NextCanonical (execVadds d a b m t s) :=
  issueA_canonical (fun _ _ ht => by simp [ht]) h

@[simp] theorem execVsubs_canonical (d a b : BitVec 6) (m : BitVec 3) (t : BitVec 4) (s : State) (h : Canonical s.memories) :
    NextCanonical (execVsubs d a b m t s) :=
  issueA_canonical (fun _ _ ht => by simp [ht]) h

@[simp] theorem execVmulh_canonical (d a b : BitVec 6) (m : BitVec 3) (t : BitVec 4) (s : State) (h : Canonical s.memories) :
    NextCanonical (execVmulh d a b m t s) :=
  issueA_canonical (fun _ _ ht => by simp [ht]) h

@[simp] theorem execVabsd_canonical (d a b : BitVec 6) (m : BitVec 3) (t : BitVec 4) (s : State) (h : Canonical s.memories) :
    NextCanonical (execVabsd d a b m t s) :=
  issueA_canonical (fun _ _ ht => by simp [ht]) h

@[simp] theorem execVavg_canonical (d a b : BitVec 6) (m : BitVec 3) (t : BitVec 4) (s : State) (h : Canonical s.memories) :
    NextCanonical (execVavg d a b m t s) :=
  issueA_canonical (fun _ _ ht => by simp [ht]) h

@[simp] theorem setMask_memories (s : State) (ci n : Nat) (v : BitVec 256) : (setMask s ci n v).memories = s.memories := by
  unfold setMask
  split <;> rfl

@[simp] theorem compareV_canonical (e : Env) (s : State) (code : Nat) (d a b : BitVec 6) (m : BitVec 3) (t : BitVec 4) (h : Canonical s.memories) :
    (compareV e s code d a b m t).Canonical := by
  refine kVec_canonical (fun vs u hu => ?_) h
  dsimp only
  split <;> simp [hu]

@[simp] theorem execVcmpeq_canonical (d a b : BitVec 6) (m : BitVec 3) (t : BitVec 4) (s : State) (h : Canonical s.memories) :
    NextCanonical (execVcmpeq d a b m t s) :=
  issueA_canonical (fun _ _ ht => by simp [ht]) h

@[simp] theorem execVcmplt_canonical (d a b : BitVec 6) (m : BitVec 3) (t : BitVec 4) (s : State) (h : Canonical s.memories) :
    NextCanonical (execVcmplt d a b m t s) :=
  issueA_canonical (fun _ _ ht => by simp [ht]) h

@[simp] theorem execVcmple_canonical (d a b : BitVec 6) (m : BitVec 3) (t : BitVec 4) (s : State) (h : Canonical s.memories) :
    NextCanonical (execVcmple d a b m t s) :=
  issueA_canonical (fun _ _ ht => by simp [ht]) h

@[simp] theorem execVcmpne_canonical (d a b : BitVec 6) (m : BitVec 3) (t : BitVec 4) (s : State) (h : Canonical s.memories) :
    NextCanonical (execVcmpne d a b m t s) :=
  issueA_canonical (fun _ _ ht => by simp [ht]) h

@[simp] theorem moveV_canonical (e : Env) (s : State) (d : BitVec 6) (srcs : List (BitVec 6)) (t : BitVec 4)
    (f : List Elem → List Elem → List (Option Elem)) (h : Canonical s.memories) : (moveV e s d srcs t f).Canonical :=
  kVec_canonical (fun _ _ ht => finishV_canonical _ _ _ _ _ ht) h

@[simp] theorem execVsel_canonical (d a b : BitVec 6) (m : BitVec 3) (t : BitVec 4) (s : State) (h : Canonical s.memories) :
    NextCanonical (execVsel d a b m t s) :=
  issueA_canonical (fun _ _ ht => by simp [ht]) h

@[simp] theorem execVperm_canonical (d a b : BitVec 6) (m : BitVec 3) (t : BitVec 4) (s : State) (h : Canonical s.memories) :
    NextCanonical (execVperm d a b m t s) :=
  issueI_canonical (fun _ _ ht => kVec_canonical (fun _ _ hu => finishV_canonical _ _ _ _ _ hu) ht) h

@[simp] theorem execVzipLo_canonical (d a b : BitVec 6) (t : BitVec 4) (s : State) (h : Canonical s.memories) :
    NextCanonical (execVzipLo d a b t s) :=
  issueA_canonical (fun _ _ ht => by simp [ht]) h

@[simp] theorem execVzipHi_canonical (d a b : BitVec 6) (t : BitVec 4) (s : State) (h : Canonical s.memories) :
    NextCanonical (execVzipHi d a b t s) :=
  issueA_canonical (fun _ _ ht => by simp [ht]) h

@[simp] theorem execVuzpEv_canonical (d a b : BitVec 6) (t : BitVec 4) (s : State) (h : Canonical s.memories) :
    NextCanonical (execVuzpEv d a b t s) :=
  issueA_canonical (fun _ _ ht => by simp [ht]) h

@[simp] theorem execVuzpOd_canonical (d a b : BitVec 6) (t : BitVec 4) (s : State) (h : Canonical s.memories) :
    NextCanonical (execVuzpOd d a b t s) :=
  issueA_canonical (fun _ _ ht => by simp [ht]) h

@[simp] theorem slideV_canonical (e : Env) (s : State) (d a b : BitVec 6) (rot up : BitVec 1) (t : BitVec 4) (h : Canonical s.memories) :
    (slideV e s d a b rot up t).Canonical := by
  refine kVec_canonical (fun vs u hu => ?_) h
  split
  · trivial
  · exact consume_canonical (finishV_canonical _ _ _ _ _ hu)

@[simp] theorem execVslide_canonical (d a b : BitVec 6) (r n : BitVec 1) (t : BitVec 4) (s : State) (h : Canonical s.memories) :
    NextCanonical (execVslide d a b r n t s) :=
  issueA_canonical (fun _ _ ht => by simp [ht]) h

@[simp] theorem execVabs_canonical (d a : BitVec 6) (m : BitVec 3) (t : BitVec 4) (s : State) (h : Canonical s.memories) :
    NextCanonical (execVabs d a m t s) :=
  issueA_canonical (fun _ _ ht => by simp [ht]) h

@[simp] theorem execVneg_canonical (d a : BitVec 6) (m : BitVec 3) (t : BitVec 4) (s : State) (h : Canonical s.memories) :
    NextCanonical (execVneg d a m t s) :=
  issueA_canonical (fun _ _ ht => by simp [ht]) h

@[simp] theorem execVsqrt_canonical (d a : BitVec 6) (m : BitVec 3) (t : BitVec 4) (s : State) (h : Canonical s.memories) :
    NextCanonical (execVsqrt d a m t s) :=
  issueA_canonical (fun _ _ ht => by simp [ht]) h

@[simp] theorem execVrecip_canonical (d a : BitVec 6) (m : BitVec 3) (t : BitVec 4) (s : State) (h : Canonical s.memories) :
    NextCanonical (execVrecip d a m t s) :=
  issueA_canonical (fun _ _ ht => by simp [ht]) h

@[simp] theorem execVrsqrt_canonical (d a : BitVec 6) (m : BitVec 3) (t : BitVec 4) (s : State) (h : Canonical s.memories) :
    NextCanonical (execVrsqrt d a m t s) :=
  issueA_canonical (fun _ _ ht => by simp [ht]) h

@[simp] theorem execVnot_canonical (d a : BitVec 6) (m : BitVec 3) (t : BitVec 4) (s : State) (h : Canonical s.memories) :
    NextCanonical (execVnot d a m t s) :=
  issueA_canonical (fun _ _ ht => by simp [ht]) h

@[simp] theorem execVclz_canonical (d a : BitVec 6) (m : BitVec 3) (t : BitVec 4) (s : State) (h : Canonical s.memories) :
    NextCanonical (execVclz d a m t s) :=
  issueA_canonical (fun _ _ ht => by simp [ht]) h

@[simp] theorem execVpopc_canonical (d a : BitVec 6) (m : BitVec 3) (t : BitVec 4) (s : State) (h : Canonical s.memories) :
    NextCanonical (execVpopc d a m t s) :=
  issueA_canonical (fun _ _ ht => by simp [ht]) h

@[simp] theorem execVrint_canonical (d a : BitVec 6) (m : BitVec 3) (t : BitVec 4) (s : State) (h : Canonical s.memories) :
    NextCanonical (execVrint d a m t s) :=
  issueA_canonical (fun _ _ ht => by simp [ht]) h

@[simp] theorem classV_canonical (e : Env) (s : State) (d : BitVec 6) (t : BitVec 4) (es : List (Option Elem)) (h : Canonical s.memories) :
    (classV e s d t es).Canonical := by
  refine finishV_canonical _ _ _ _ _ ?_
  split
  · exact h
  · exact h

@[simp] theorem execVclass_canonical (d a : BitVec 6) (m : BitVec 3) (t : BitVec 4) (s : State) (h : Canonical s.memories) :
    NextCanonical (execVclass d a m t s) :=
  issueI_canonical (fun _ _ ht => kVec_canonical (fun _ _ hu => classV_canonical _ _ _ _ _ hu) ht) h

@[simp] theorem execVmov_canonical (d a : BitVec 6) (m : BitVec 3) (t : BitVec 4) (s : State) (h : Canonical s.memories) :
    NextCanonical (execVmov d a m t s) :=
  issueA_canonical (fun _ _ ht => by simp [ht]) h

theorem storeGroup_canonical {e : Env} {w n : Nat} {k : State → Res} (hk : ∀ t, Canonical t.memories → (k t).Canonical) (g : Nat) :
    ∀ (d : Nat) (s : State) (es : List (Option Elem)), Canonical s.memories → (storeGroup e d w n k g s es).Canonical := by
  induction g with
  | zero => exact fun _ s _ h => hk s h
  | succ g ih => exact fun d s es h => storeE_canonical (fun t ht => ih _ t _ ht) h

@[simp] theorem convertV_canonical (e : Env) (s : State) (d a : BitVec 6) (sat : BitVec 1) (td : BitVec 4) (m : BitVec 3) (ts : BitVec 4)
    (h : Canonical s.memories) : (convertV e s d a sat td m ts).Canonical := by
  unfold convertV
  dsimp only
  split
  · exact portMisused_canonical ..
  · refine kVec_canonical (fun _ u hu => ?_) h
    refine storeGroup_canonical (fun t ht => ?_) _ _ _ _ hu
    exact ht

@[simp] theorem execVcvt_canonical (d a : BitVec 6) (sf : BitVec 1) (u : BitVec 4) (m : BitVec 3) (t : BitVec 4) (s : State)
    (h : Canonical s.memories) :
    NextCanonical (execVcvt d a sf u m t s) :=
  issueA_canonical (fun _ _ ht => by simp [ht]) h

@[simp] theorem reduceV_canonical (e : Env) (s : State) (code : Nat) (d a : BitVec 6) (m : BitVec 3) (t : BitVec 4) (h : Canonical s.memories) :
    (reduceV e s code d a m t).Canonical := by
  refine kVec_canonical (fun vs u hu => ?_) h
  dsimp only
  split <;> simp [hu]

@[simp] theorem execVredSum_canonical (d a : BitVec 6) (m : BitVec 3) (t : BitVec 4) (s : State) (h : Canonical s.memories) :
    NextCanonical (execVredSum d a m t s) :=
  issueA_canonical (fun _ _ ht => by simp [ht]) h

@[simp] theorem execVredMin_canonical (d a : BitVec 6) (m : BitVec 3) (t : BitVec 4) (s : State) (h : Canonical s.memories) :
    NextCanonical (execVredMin d a m t s) :=
  issueA_canonical (fun _ _ ht => by simp [ht]) h

@[simp] theorem execVredMax_canonical (d a : BitVec 6) (m : BitVec 3) (t : BitVec 4) (s : State) (h : Canonical s.memories) :
    NextCanonical (execVredMax d a m t s) :=
  issueA_canonical (fun _ _ ht => by simp [ht]) h

@[simp] theorem execVredAnd_canonical (d a : BitVec 6) (m : BitVec 3) (t : BitVec 4) (s : State) (h : Canonical s.memories) :
    NextCanonical (execVredAnd d a m t s) :=
  issueA_canonical (fun _ _ ht => by simp [ht]) h

@[simp] theorem execVredOr_canonical (d a : BitVec 6) (m : BitVec 3) (t : BitVec 4) (s : State) (h : Canonical s.memories) :
    NextCanonical (execVredOr d a m t s) :=
  issueA_canonical (fun _ _ ht => by simp [ht]) h

@[simp] theorem execVredXor_canonical (d a : BitVec 6) (m : BitVec 3) (t : BitVec 4) (s : State) (h : Canonical s.memories) :
    NextCanonical (execVredXor d a m t s) :=
  issueA_canonical (fun _ _ ht => by simp [ht]) h

@[simp] theorem sumWide_canonical (e : Env) (s : State) (d a : BitVec 6) (m : BitVec 3) (t : BitVec 4) (h : Canonical s.memories) :
    (sumWide e s d a m t).Canonical :=
  kVec_canonical (fun _ _ hu => storeE_canonical (fun _ ht => ht) hu) h

@[simp] theorem execVredSumw_canonical (d a : BitVec 6) (m : BitVec 3) (t : BitVec 4) (s : State) (h : Canonical s.memories) :
    NextCanonical (execVredSumw d a m t s) :=
  issueA_canonical (fun _ _ ht => by simp [ht]) h

@[simp] theorem scanV_canonical (e : Env) (s : State) (code : Nat) (d a : BitVec 6) (m : BitVec 3) (t : BitVec 4) (h : Canonical s.memories) :
    (scanV e s code d a m t).Canonical :=
  kVec_canonical (fun _ _ ht => finishV_canonical _ _ _ _ _ ht) h

@[simp] theorem execVscanSum_canonical (d a : BitVec 6) (m : BitVec 3) (t : BitVec 4) (s : State) (h : Canonical s.memories) :
    NextCanonical (execVscanSum d a m t s) :=
  issueA_canonical (fun _ _ ht => by simp [ht]) h

@[simp] theorem execVscanMin_canonical (d a : BitVec 6) (m : BitVec 3) (t : BitVec 4) (s : State) (h : Canonical s.memories) :
    NextCanonical (execVscanMin d a m t s) :=
  issueA_canonical (fun _ _ ht => by simp [ht]) h

@[simp] theorem execVscanMax_canonical (d a : BitVec 6) (m : BitVec 3) (t : BitVec 4) (s : State) (h : Canonical s.memories) :
    NextCanonical (execVscanMax d a m t s) :=
  issueA_canonical (fun _ _ ht => by simp [ht]) h

@[simp] theorem maskLogic_canonical (e : Env) (s : State) (d a b : BitVec 6) (f : BitVec 256 → BitVec 256 → BitVec 256)
    (h : Canonical s.memories) :
    (maskLogic e s d a b f).Canonical := by
  simp [maskLogic, h]

@[simp] theorem execMand_canonical (d a b : BitVec 6) (s : State) (h : Canonical s.memories) : NextCanonical (execMand d a b s) :=
  issueA_canonical (fun _ _ ht => by simp [ht]) h

@[simp] theorem execMor_canonical (d a b : BitVec 6) (s : State) (h : Canonical s.memories) : NextCanonical (execMor d a b s) :=
  issueA_canonical (fun _ _ ht => by simp [ht]) h

@[simp] theorem execMxor_canonical (d a b : BitVec 6) (s : State) (h : Canonical s.memories) : NextCanonical (execMxor d a b s) :=
  issueA_canonical (fun _ _ ht => by simp [ht]) h

@[simp] theorem execMandn_canonical (d a b : BitVec 6) (s : State) (h : Canonical s.memories) : NextCanonical (execMandn d a b s) :=
  issueA_canonical (fun _ _ ht => by simp [ht]) h

@[simp] theorem execMlen_canonical (d a : BitVec 6) (s : State) (h : Canonical s.memories) : NextCanonical (execMlen d a s) :=
  issueA_canonical (fun _ _ ht => by simp [ht]) h

@[simp] theorem execMpopc_canonical (d a : BitVec 6) (s : State) (h : Canonical s.memories) : NextCanonical (execMpopc d a s) :=
  issueA_canonical (fun _ _ ht => by simp [ht]) h

@[simp] theorem execMfirst_canonical (d a : BitVec 6) (s : State) (h : Canonical s.memories) : NextCanonical (execMfirst d a s) :=
  issueA_canonical (fun _ _ ht => by simp [ht]) h

@[simp] theorem execMtov_canonical (d a : BitVec 6) (s : State) (h : Canonical s.memories) : NextCanonical (execMtov d a s) :=
  issueI_canonical (fun _ _ ht => kVec_canonical (fun _ _ hu => storeE_canonical (k := fun s => .done s) (fun _ hv => hv) hu) ht) h

@[simp] theorem execVsplat_canonical (d a : BitVec 6) (m : BitVec 3) (t : BitVec 4) (s : State) (h : Canonical s.memories) :
    NextCanonical (execVsplat d a m t s) :=
  issueI_canonical (fun _ _ ht => kVec_canonical (fun _ _ hu => finishV_canonical _ _ _ _ _ hu) ht) h

@[simp] theorem extractV_canonical (e : Env) (s : State) (d a b : BitVec 6) (t : BitVec 4) (h : Canonical s.memories) :
    (extractV e s d a b t).Canonical :=
  kVec_canonical (fun _ u hu => consume_canonical (show Canonical u.memories from hu)) h

@[simp] theorem execVext_canonical (d a b : BitVec 6) (t : BitVec 4) (s : State) (h : Canonical s.memories) :
    NextCanonical (execVext d a b t s) :=
  issueA_canonical (fun _ _ ht => by simp [ht]) h

@[simp] theorem insertV_canonical (e : Env) (s : State) (d a b : BitVec 6) (t : BitVec 4) (h : Canonical s.memories) :
    (insertV e s d a b t).Canonical := by
  unfold insertV
  split
  · simp
  · exact kVec_canonical (fun _ u hu => consume_canonical (finishV_canonical _ _ _ _ _ hu)) h

@[simp] theorem execVins_canonical (d a b : BitVec 6) (t : BitVec 4) (s : State) (h : Canonical s.memories) :
    NextCanonical (execVins d a b t s) :=
  issueA_canonical (fun _ _ ht => by simp [ht]) h

@[simp] theorem execVview_canonical (x : BitVec 6) (tk : Tk) (s : State) (h : Canonical s.memories) : NextCanonical (execVview x tk s) :=
  issueE_canonical (fun _ _ ht => by simp [ht]) h

@[simp] theorem execAview_canonical (x : BitVec 6) (tk : Tk) (s : State) (h : Canonical s.memories) : NextCanonical (execAview x tk s) :=
  issueE_canonical (fun _ _ ht => by simp [ht]) h

end Sys2Proof.Machine
end

section
/-! SUPPORT for O55. What the functions of Machine/Matrix.lean leave of the memories. -/

namespace Sys2Proof.Machine

@[simp] theorem onHandle_canonical {e : Env} {y : BitVec 6} {k : Nat → Res} (hk : ∀ n, (k n).Canonical) : (onHandle e y k).Canonical := by
  refine consume_canonical ?_
  split <;> simp [hk]

@[simp] theorem onTile_canonical {e : Env} {y : BitVec 6} {k : Nat → Tile → Res} (hk : ∀ n t, (k n t).Canonical) :
    (onTile e y k).Canonical := by
  refine onHandle_canonical fun n => ?_
  dsimp only
  split <;> simp [hk]

@[simp] theorem redefine_canonical (e : Env) (s : State) (k : Nat) (f : Arch → Arch) (h : Canonical s.memories) :
    (redefine e s k f).Canonical := by
  unfold redefine
  dsimp only
  (repeat' split) <;> simp [h]

@[simp] theorem execTdef_canonical (x y : BitVec 6) (tk : Tk) (s : State) (h : Canonical s.memories) :
    NextCanonical (execTdef x y tk s) := by
  refine issueE_canonical (fun e t ht => ?_) h
  dsimp only
  (repeat' split) <;> simp [ht]

@[simp] theorem execTvalid_canonical (y : BitVec 6) (tk : Tk) (s : State) (h : Canonical s.memories) :
    NextCanonical (execTvalid y tk s) := by
  refine issueE_canonical (fun e t ht => ?_) h
  refine onTile_canonical fun k z => ?_
  split <;> simp [ht]

@[simp] theorem execTinval_canonical (y : BitVec 6) (tk : Tk) (s : State) (h : Canonical s.memories) : NextCanonical (execTinval y tk s) :=
  issueE_canonical (fun _ _ ht => by simp [ht]) h

@[simp] theorem execTstat_canonical (x y : BitVec 6) (tk : Tk) (s : State) (h : Canonical s.memories) :
    NextCanonical (execTstat x y tk s) :=
  issueE_canonical (fun _ _ ht => by simp [ht]) h

@[simp] theorem execTwait_canonical (y : BitVec 6) (tk : Tk) (s : State) (h : Canonical s.memories) : NextCanonical (execTwait y tk s) := by
  refine issueE_canonical (fun e t ht => ?_) h
  refine onTile_canonical fun k z => ?_
  (repeat' split) <;> simp [ht]

@[simp] theorem enterMx_memories (e : Env) (s : State) (k : MxKind) (m : BitVec 3) : (enterMx e s k m).memories = s.memories := by
  simp [enterMx]

@[simp] theorem withRoom_canonical {e : Env} {s : State} {r : Res} (hr : r.Canonical) : (withRoom e s r).Canonical := by
  unfold withRoom
  split <;> simp [hr]

@[simp] theorem execMxnest_canonical (y : BitVec 6) (tk : Tk) (s : State) (h : Canonical s.memories) :
    NextCanonical (execMxnest y tk s) := by
  refine issueE_canonical (fun e t ht => ?_) h
  dsimp only
  (repeat' split) <;> simp [ht]

@[simp] theorem execMxgo_canonical (tk : Tk) (s : State) (h : Canonical s.memories) : NextCanonical (execMxgo tk s) :=
  issueE_canonical (fun _ _ ht => by simp [ht]) h

@[simp] theorem execMxwait_canonical (tk : Tk) (s : State) (h : Canonical s.memories) : NextCanonical (execMxwait tk s) := by
  refine issueE_canonical (fun e t ht => ?_) h
  split <;> simp [ht]

@[simp] theorem execMxstat_canonical (x : BitVec 6) (tk : Tk) (s : State) (h : Canonical s.memories) : NextCanonical (execMxstat x tk s) :=
  issueE_canonical (fun _ _ ht => by simp [ht]) h

@[simp] theorem execMxdrain_canonical (x y : BitVec 6) (m : BitVec 3) (tk : Tk) (s : State) (h : Canonical s.memories) :
    NextCanonical (execMxdrain x y m tk s) :=
  issueE_canonical (fun _ _ ht => by simp [ht]) h

@[simp] theorem execMxzero_canonical (x : BitVec 6) (tk : Tk) (s : State) (h : Canonical s.memories) : NextCanonical (execMxzero x tk s) :=
  issueE_canonical (fun _ _ ht => by simp [ht]) h

@[simp] theorem execMxmma_canonical (x y : BitVec 6) (n : BitVec 3) (tk : Tk) (s : State) (h : Canonical s.memories) :
    NextCanonical (execMxmma x y n tk s) := by
  refine issueE_canonical (fun e t ht => ?_) h
  dsimp only
  (repeat' split) <;> simp [ht]

@[simp] theorem fetchPiece_canonical (s : State) (ci k : Nat) (h : Canonical s.memories) : Canonical (fetchPiece s ci k).memories := by
  unfold fetchPiece
  dsimp only
  split
  · exact h
  · split
    · exact h
    · split
      · exact h
      · exact h
      · next ht =>
        have hm := movePieceIn_ok h ht
        exact hm

@[simp] theorem execFetcherCopy_canonical (core h : Nat) (s : State) (hc : Canonical s.memories) :
    NextCanonical (execFetcherCopy core h s) :=
  coreEvent_canonical (fetchPiece_canonical _ _ _ hc)

@[simp] theorem mxAwait_memories (s : State) (ci : Nat) (x : MxOp) : (mxAwait s ci x).memories = s.memories := by
  simp [mxAwait]

@[simp] theorem mxBegin_memories (s : State) (ci : Nat) (x : MxOp) : (mxBegin s ci x).memories = s.memories := by
  unfold mxBegin
  dsimp only
  (repeat' split) <;> simp

@[simp] theorem mxRows_memories (s : State) (ci : Nat) (x : MxOp) : (mxRows s ci x).memories = s.memories := by
  unfold mxRows
  dsimp only
  (repeat' split) <;> simp

@[simp] theorem mxDrain_memories (s : State) (ci : Nat) (x : MxOp) (n h : Nat) (m : BitVec 3) (shape : Option (Nat × Nat))
    (k : Core → MxOp → Core) :
    (mxDrain s ci x n h m shape k).memories = s.memories := by
  unfold mxDrain
  dsimp only
  (repeat' split) <;> simp

@[simp] theorem matrixRun_memories (s : State) (ci : Nat) : (matrixRun s ci).memories = s.memories := by
  unfold matrixRun
  dsimp only
  (repeat' split) <;> simp

@[simp] theorem execMatrixOpRun_canonical (core : Nat) (s : State) (h : Canonical s.memories) : NextCanonical (execMatrixOpRun core s) := by
  unfold execMatrixOpRun
  split <;> simp [h]

@[simp] theorem walkWord_canonical (e : Env) (s : State) (x : BitVec 6) (op : Nat) (h : Canonical s.memories) :
    (walkWord e s x op).Canonical := by
  unfold walkWord
  dsimp only
  (repeat' split) <;> simp [h]

@[simp] theorem execWalkAdd_canonical (x : BitVec 6) (tk : Tk) (s : State) (h : Canonical s.memories) :
    NextCanonical (execWalkAdd x tk s) :=
  issueE_canonical (fun _ _ ht => by simp [ht]) h

@[simp] theorem execWalkMin_canonical (x : BitVec 6) (tk : Tk) (s : State) (h : Canonical s.memories) :
    NextCanonical (execWalkMin x tk s) :=
  issueE_canonical (fun _ _ ht => by simp [ht]) h

@[simp] theorem execWalkMax_canonical (x : BitVec 6) (tk : Tk) (s : State) (h : Canonical s.memories) :
    NextCanonical (execWalkMax x tk s) :=
  issueE_canonical (fun _ _ ht => by simp [ht]) h

@[simp] theorem execWalkAnd_canonical (x : BitVec 6) (tk : Tk) (s : State) (h : Canonical s.memories) :
    NextCanonical (execWalkAnd x tk s) :=
  issueE_canonical (fun _ _ ht => by simp [ht]) h

@[simp] theorem execWalkOr_canonical (x : BitVec 6) (tk : Tk) (s : State) (h : Canonical s.memories) : NextCanonical (execWalkOr x tk s) :=
  issueE_canonical (fun _ _ ht => by simp [ht]) h

@[simp] theorem execWalkXor_canonical (x : BitVec 6) (tk : Tk) (s : State) (h : Canonical s.memories) :
    NextCanonical (execWalkXor x tk s) :=
  issueE_canonical (fun _ _ ht => by simp [ht]) h

@[simp] theorem execWalkPopc_canonical (x : BitVec 6) (tk : Tk) (s : State) (h : Canonical s.memories) :
    NextCanonical (execWalkPopc x tk s) :=
  issueE_canonical (fun _ _ ht => by simp [ht]) h

@[simp] theorem execWalkHist_canonical (x : BitVec 6) (tk : Tk) (s : State) (h : Canonical s.memories) :
    NextCanonical (execWalkHist x tk s) :=
  issueE_canonical (fun _ _ ht => by simp [ht]) h

@[simp] theorem walkStep_memories (s : State) (ci : Nat) : (walkStep s ci).memories = s.memories := by
  unfold walkStep
  dsimp only
  (repeat' split) <;> simp

@[simp] theorem execWalkRun_canonical (core : Nat) (s : State) (h : Canonical s.memories) : NextCanonical (execWalkRun core s) := by
  unfold execWalkRun
  split <;> simp [h]

@[simp] theorem vigilWord_canonical (e : Env) (s : State) (w kind : Nat) (regs : List (BitVec 6)) (lit : Word32)
    (h : Canonical s.memories) :
    (vigilWord e s w kind regs lit).Canonical := by
  unfold vigilWord
  dsimp only
  (repeat' split) <;> simp [h]

@[simp] theorem execVigilMx_canonical (x y : BitVec 6) (tk : Tk) (lit : BitVec 32) (s : State) (h : Canonical s.memories) :
    NextCanonical (execVigilMx x y tk lit s) :=
  issueE_canonical (fun _ _ ht => by simp [ht]) h

@[simp] theorem execVigilVec_canonical (x : BitVec 6) (tk : Tk) (lit : BitVec 32) (s : State) (h : Canonical s.memories) :
    NextCanonical (execVigilVec x tk lit s) :=
  issueE_canonical (fun _ _ ht => by simp [ht]) h

@[simp] theorem execVigilRd_canonical (x : BitVec 6) (tk : Tk) (lit : BitVec 32) (s : State) (h : Canonical s.memories) :
    NextCanonical (execVigilRd x tk lit s) :=
  issueE_canonical (fun _ _ ht => by simp [ht]) h

@[simp] theorem vigilRun_memories (s : State) (ci : Nat) : (vigilRun s ci).memories = s.memories := by
  unfold vigilRun
  dsimp only
  (repeat' split) <;> simp

@[simp] theorem execVigilCheck_canonical (core : Nat) (s : State) (h : Canonical s.memories) : NextCanonical (execVigilCheck core s) := by
  unfold execVigilCheck
  split <;> simp [h]

end Sys2Proof.Machine
end

section
/-! SUPPORT for O55. What the functions of Machine/Almanac.lean leave of the memories. -/

namespace Sys2Proof.Machine

@[simp] theorem almNow_canonical {e : Env} {s : State} {r : Res} (hr : r.Canonical) : (almNow e s r).Canonical := by
  unfold almNow
  split <;> simp [hr]

@[simp] theorem almFault_canonical (detail : Nat) (v : Word) : (almFault detail v).Canonical := by
  simp [almFault]

@[simp] theorem almTable_canonical {e : Env} {s : State} {o : Word} {n : Nat} {k : List Word → Res} (hk : ∀ l, (k l).Canonical) :
    (almTable e s o n k).Canonical := by
  unfold almTable
  dsimp only
  (repeat' split) <;> simp [hk]

@[simp] theorem execAmdef_canonical (x y : BitVec 6) (tk : Tk) (s : State) (h : Canonical s.memories) :
    NextCanonical (execAmdef x y tk s) := by
  refine issueE_canonical (fun e t ht => ?_) h
  refine almNow_canonical (consume_canonical (almTable_canonical fun m => ?_))
  (repeat' split) <;> simp [ht]

@[simp] theorem execAset_canonical (x y : BitVec 6) (tk : Tk) (s : State) (h : Canonical s.memories) :
    NextCanonical (execAset x y tk s) := by
  refine issueE_canonical (fun e t ht => ?_) h
  refine almNow_canonical (consume_canonical (almTable_canonical fun d => ?_))
  dsimp only
  (repeat' split) <;> simp [ht]

@[simp] theorem almQueue_canonical (e : Env) (s : State) (x : BitVec 6) (kind off : Nat) (h : Canonical s.memories) :
    (almQueue e s x kind off).Canonical := by
  unfold almQueue
  split <;> simp [h]

@[simp] theorem almRoom_canonical {e : Env} {s : State} {r : Res} (hr : r.Canonical) : (almRoom e s r).Canonical := by
  unfold almRoom
  split <;> simp [hr]

@[simp] theorem execAstage_canonical (x y : BitVec 6) (tk : Tk) (s : State) (h : Canonical s.memories) :
    NextCanonical (execAstage x y tk s) := by
  refine issueE_canonical (fun e t ht => ?_) h
  refine almRoom_canonical (consume_canonical ?_)
  (repeat' split) <;> simp [ht]

@[simp] theorem execAerr_canonical (x : BitVec 6) (tk : Tk) (s : State) (h : Canonical s.memories) : NextCanonical (execAerr x tk s) :=
  issueE_canonical (fun _ _ ht => almRoom_canonical (consume_canonical (almQueue_canonical _ _ _ _ _ ht))) h

@[simp] theorem execAdec_canonical (x : BitVec 6) (tk : Tk) (s : State) (h : Canonical s.memories) : NextCanonical (execAdec x tk s) :=
  issueE_canonical (fun _ _ ht => almRoom_canonical (consume_canonical (almQueue_canonical _ _ _ _ _ ht))) h

@[simp] theorem almSelect_canonical {e : Env} {v : Word} {takes : Nat → Bool} {k : Nat → Nat → AlmSlot → Res}
    (hk : ∀ i f y, (k i f y).Canonical) : (almSelect e v takes k).Canonical := by
  unfold almSelect
  dsimp only
  (repeat' split) <;> simp [hk]

@[simp] theorem execAget_canonical (x y : BitVec 6) (tk : Tk) (s : State) (h : Canonical s.memories) :
    NextCanonical (execAget x y tk s) := by
  refine issueE_canonical (fun e t ht => ?_) h
  exact almNow_canonical (consume_canonical (almSelect_canonical fun _ _ _ => by simp [ht]))

@[simp] theorem execAput_canonical (x y : BitVec 6) (tk : Tk) (s : State) (h : Canonical s.memories) :
    NextCanonical (execAput x y tk s) := by
  refine issueE_canonical (fun e t ht => ?_) h
  refine almNow_canonical (consume_canonical (almSelect_canonical fun k f z => ?_))
  dsimp only
  (repeat' split) <;> simp [ht]

@[simp] theorem onRange_canonical {e : Env} {s : State} {r : BitVec 6} {k : List Nat → Res} (hk : ∀ l, (k l).Canonical) :
    (onRange e s r k).Canonical := by
  refine almNow_canonical (consume_canonical ?_)
  split <;> simp [hk]

@[simp] theorem execAstat_canonical (x y : BitVec 6) (tk : Tk) (s : State) (h : Canonical s.memories) :
    NextCanonical (execAstat x y tk s) :=
  issueE_canonical (fun _ _ ht => by simp [ht]) h

@[simp] theorem execAoff_canonical (x : BitVec 6) (tk : Tk) (s : State) (h : Canonical s.memories) : NextCanonical (execAoff x tk s) :=
  issueE_canonical (fun _ _ ht => by simp [ht]) h

@[simp] theorem execAwait_canonical (tk : Tk) (s : State) (h : Canonical s.memories) : NextCanonical (execAwait tk s) :=
  issueE_canonical (fun _ _ ht => by simp [ht]) h

@[simp] theorem almRun_memories (s : State) (ci : Nat) : (almRun s ci).memories = s.memories := by
  unfold almRun
  dsimp only
  (repeat' split) <;> simp

@[simp] theorem execAlmanacStep_canonical (core : Nat) (s : State) (h : Canonical s.memories) : NextCanonical (execAlmanacStep core s) := by
  unfold execAlmanacStep
  split <;> simp [h]

end Sys2Proof.Machine
end

section
/-! SUPPORT for O55. What the functions of Machine/Control.lean leave of the memories. -/

namespace Sys2Proof.Machine

@[simp] theorem execBr_canonical (f : BitVec 3) (o : BitVec 22) (s : State) (h : Canonical s.memories) : NextCanonical (execBr f o s) := by
  refine issueA_canonical (fun e t ht => ?_) h
  split <;> simp [ht]

@[simp] theorem execBrn_canonical (f : BitVec 3) (o : BitVec 22) (s : State) (h : Canonical s.memories) :
    NextCanonical (execBrn f o s) := by
  refine issueA_canonical (fun e t ht => ?_) h
  split <;> simp [ht]

@[simp] theorem execCall_canonical (f : BitVec 3) (o : BitVec 22) (s : State) (h : Canonical s.memories) :
    NextCanonical (execCall f o s) := by
  refine issueA_canonical (fun e t ht => ?_) h
  split <;> simp [ht]

@[simp] theorem execJmpr_canonical (d a : BitVec 6) (g : BitVec 3) (s : State) (h : Canonical s.memories) :
    NextCanonical (execJmpr d a g s) :=
  issueA_canonical (fun _ _ ht => by simp [ht]) h

@[simp] theorem startRep_canonical (e : Env) (s : State) (n : BitVec 8) (h : Canonical s.memories) : (startRep e s n).Canonical := by
  simp [startRep, h]

@[simp] theorem execRep_canonical (n : BitVec 8) (f sf : BitVec 4) (s : State) (h : Canonical s.memories) :
    NextCanonical (execRep n f sf s) :=
  issueA_canonical (fun _ _ ht => by simp [ht]) h

@[simp] theorem startLoop_canonical (e : Env) (s : State) (lv : Nat) (a : BitVec 6) (i : BitVec 13) (h : Canonical s.memories) :
    (startLoop e s lv a i).Canonical := by
  unfold startLoop
  dsimp only
  (repeat' split) <;> simp [h]

@[simp] theorem clearLoop_canonical (e : Env) (s : State) (lv : Nat) (h : Canonical s.memories) : (clearLoop e s lv).Canonical := by
  simp [clearLoop, h]

@[simp] theorem execLoopO_canonical (a : BitVec 6) (i : BitVec 13) (s : State) (h : Canonical s.memories) :
    NextCanonical (execLoopO a i s) :=
  issueA_canonical (fun _ _ ht => by simp [ht]) h

@[simp] theorem execLoopI_canonical (a : BitVec 6) (i : BitVec 13) (s : State) (h : Canonical s.memories) :
    NextCanonical (execLoopI a i s) :=
  issueA_canonical (fun _ _ ht => by simp [ht]) h

@[simp] theorem execLpclrO_canonical (s : State) (h : Canonical s.memories) : NextCanonical (execLpclrO s) :=
  issueA_canonical (fun _ _ ht => by simp [ht]) h

@[simp] theorem execLpclrI_canonical (s : State) (h : Canonical s.memories) : NextCanonical (execLpclrI s) :=
  issueA_canonical (fun _ _ ht => by simp [ht]) h

@[simp] theorem startSeq_canonical (e : Env) (s : State) (i a b : BitVec 6) (st : BitVec 4) (h : Canonical s.memories) :
    (startSeq e s i a b st).Canonical := by
  unfold startSeq
  dsimp only
  (repeat' split) <;> simp [h]

@[simp] theorem execLoopm_canonical (i a b : BitVec 6) (g : BitVec 3) (sf : BitVec 4) (s : State) (h : Canonical s.memories) :
    NextCanonical (execLoopm i a b g sf s) := by
  refine issueI_canonical (fun e t ht => ?_) h
  split
  · exact ht
  · exact notInHandler_canonical (consume_canonical (startSeq_canonical _ _ _ _ _ _ ht))

@[simp] theorem execFork_canonical (d a b : BitVec 6) (g : BitVec 3) (s : State) (h : Canonical s.memories) :
    NextCanonical (execFork d a b g s) := by
  refine issueA_canonical (fun e t ht => ?_) h
  split <;> simp [ht]

@[simp] theorem execJoin_canonical (o : BitVec 22) (s : State) (h : Canonical s.memories) : NextCanonical (execJoin o s) := by
  refine issueA_canonical (fun e t ht => ?_) h
  dsimp only
  (repeat' split) <;> simp [ht]

@[simp] theorem execEndOp_canonical (g : BitVec 3) (s : State) (h : Canonical s.memories) : NextCanonical (execEndOp g s) :=
  issueA_canonical (fun _ _ ht => by simp [ht]) h

@[simp] theorem setSync_memories (e : Env) (s : State) (n : BitVec 6) (b : Bool) : (setSync e s n b).memories = s.memories := by
  simp [setSync]

@[simp] theorem execYset_canonical (n : BitVec 6) (g : BitVec 3) (s : State) (h : Canonical s.memories) : NextCanonical (execYset n g s) :=
  issueA_canonical (fun _ _ ht => by simp [ht]) h

@[simp] theorem execYclr_canonical (n : BitVec 6) (g : BitVec 3) (s : State) (h : Canonical s.memories) : NextCanonical (execYclr n g s) :=
  issueA_canonical (fun _ _ ht => by simp [ht]) h

@[simp] theorem execYwait_canonical (n : BitVec 6) (g : BitVec 3) (s : State) (h : Canonical s.memories) :
    NextCanonical (execYwait n g s) := by
  refine issueA_canonical (fun e t ht => ?_) h
  split <;> simp [ht]

@[simp] theorem execYwaitc_canonical (n : BitVec 6) (g : BitVec 3) (s : State) (h : Canonical s.memories) :
    NextCanonical (execYwaitc n g s) := by
  refine issueA_canonical (fun e t ht => ?_) h
  split <;> simp [ht]

@[simp] theorem execYtas_canonical (d n : BitVec 6) (g : BitVec 3) (s : State) (h : Canonical s.memories) :
    NextCanonical (execYtas d n g s) :=
  issueA_canonical (fun _ _ ht => by simp [ht]) h

@[simp] theorem execYrd_canonical (d : BitVec 6) (g : BitVec 3) (s : State) (h : Canonical s.memories) : NextCanonical (execYrd d g s) :=
  issueA_canonical (fun _ _ ht => by simp [ht]) h

@[simp] theorem execTkpush_canonical (p : BitVec 6) (g : BitVec 3) (s : State) (h : Canonical s.memories) :
    NextCanonical (execTkpush p g s) := by
  refine issueA_canonical (fun e t ht => ?_) h
  dsimp only
  (repeat' split) <;> simp [ht]

@[simp] theorem execTkwait_canonical (p : BitVec 6) (g : BitVec 3) (s : State) (h : Canonical s.memories) :
    NextCanonical (execTkwait p g s) := by
  refine issueA_canonical (fun e t ht => ?_) h
  dsimp only
  (repeat' split) <;> simp [ht]

@[simp] theorem execTkcnt_canonical (d p : BitVec 6) (g : BitVec 3) (s : State) (h : Canonical s.memories) :
    NextCanonical (execTkcnt d p g s) :=
  issueA_canonical (fun _ _ ht => by simp [ht]) h

@[simp] theorem refuseSteal_memories (s : State) (owner : Nat) : (refuseSteal s owner).memories = s.memories := by
  unfold refuseSteal
  split <;> simp

@[simp] theorem execRset_canonical (a b : BitVec 6) (g : BitVec 3) (s : State) (h : Canonical s.memories) :
    NextCanonical (execRset a b g s) :=
  issueA_canonical (fun _ _ ht => by simp [ht]) h

@[simp] theorem answerSteal_memories (s : State) (owner : Nat) : (answerSteal s owner).memories = s.memories := by
  unfold answerSteal
  dsimp only
  (repeat' split) <;> simp

@[simp] theorem execRnext_canonical (d f : BitVec 6) (g : BitVec 3) (s : State) (h : Canonical s.memories) :
    NextCanonical (execRnext d f g s) := by
  refine issueA_canonical (fun e t ht => ?_) h
  dsimp only
  (repeat' split) <;> simp [ht]

@[simp] theorem execRsteal_canonical (r : BitVec 6) (g : BitVec 3) (s : State) (h : Canonical s.memories) :
    NextCanonical (execRsteal r g s) :=
  issueA_canonical (fun _ _ ht => by simp [ht]) h

@[simp] theorem execRstat_canonical (d : BitVec 6) (g : BitVec 3) (s : State) (h : Canonical s.memories) :
    NextCanonical (execRstat d g s) :=
  issueA_canonical (fun _ _ ht => by simp [ht]) h

end Sys2Proof.Machine
end

section
/-! SUPPORT for O55. What the functions of Machine/Shepherd.lean leave of the memories. -/

namespace Sys2Proof.Machine

@[simp] theorem shepFault_canonical (detail : Nat) (v : Word) : (shepFault detail v).Canonical := by
  simp [shepFault]

@[simp] theorem execShdecl_canonical (x y : BitVec 6) (tk : Tk) (s : State) (h : Canonical s.memories) :
    NextCanonical (execShdecl x y tk s) := by
  refine issueE_canonical (fun e t ht => ?_) h
  dsimp only
  (repeat' split) <;> simp [ht]

@[simp] theorem execShinv_canonical (x : BitVec 6) (tk : Tk) (s : State) (h : Canonical s.memories) : NextCanonical (execShinv x tk s) :=
  issueE_canonical (fun _ _ ht => by simp [ht]) h

@[simp] theorem shOpen_memories (s : State) (ci k : Nat) : (shOpen s ci k).memories = s.memories := by
  simp [shOpen]

@[simp] theorem shBegin_canonical (e : Env) (s : State) (k : Nat) (target : Option Word) (h : Canonical s.memories) :
    (shBegin e s k target).Canonical := by
  refine kVec_canonical (fun vs u hu => ?_) h
  dsimp only
  (repeat' split) <;> simp [hu]

@[simp] theorem execApxb_canonical (x : BitVec 6) (tk : Tk) (s : State) (h : Canonical s.memories) : NextCanonical (execApxb x tk s) := by
  refine issueE_canonical (fun e t ht => ?_) h
  dsimp only
  (repeat' split) <;> simp [ht]

@[simp] theorem execApxe_canonical (x : BitVec 6) (tk : Tk) (s : State) (h : Canonical s.memories) : NextCanonical (execApxe x tk s) := by
  refine issueE_canonical (fun e t ht => ?_) h
  dsimp only
  split
  · trivial
  · split
    · simp [ht]
    · refine kVec_canonical (fun vs u hu => ?_) (by simpa using ht)
      split
      · exact hu
      · simpa using hu

@[simp] theorem storeCopy_canonical {e : Env} {s : State} {x y : BitVec 6} {k : Nat → Nat → Nat → Res} (hk : ∀ o w n, (k o w n).Canonical) :
    (storeCopy e s x y k).Canonical := by
  refine consume_canonical ?_
  dsimp only
  (repeat' split) <;> simp [hk]

@[simp] theorem execShwld_canonical (x y : BitVec 6) (tk : Tk) (s : State) (h : Canonical s.memories) :
    NextCanonical (execShwld x y tk s) := by
  refine issueE_canonical (fun e t ht => ?_) h
  refine storeCopy_canonical fun o w n => ?_
  dsimp only
  (repeat' split) <;> simp [ht]

@[simp] theorem execShwst_canonical (x y : BitVec 6) (tk : Tk) (s : State) (h : Canonical s.memories) :
    NextCanonical (execShwst x y tk s) :=
  issueE_canonical (fun _ _ ht => by simp [ht]) h

@[simp] theorem execShstat_canonical (x y : BitVec 6) (tk : Tk) (s : State) (h : Canonical s.memories) :
    NextCanonical (execShstat x y tk s) :=
  issueE_canonical (fun _ _ ht => by simp [ht]) h

@[simp] theorem execShmean_canonical (x y : BitVec 6) (tk : Tk) (s : State) (h : Canonical s.memories) :
    NextCanonical (execShmean x y tk s) :=
  issueE_canonical (fun _ _ ht => by simp [ht]) h

@[simp] theorem shepherdRun_memories (s : State) (ci : Nat) : (shepherdRun s ci).memories = s.memories := by
  unfold shepherdRun
  dsimp only
  (repeat' split) <;> simp

@[simp] theorem execShepherdOperation_canonical (core : Nat) (s : State) (h : Canonical s.memories) :
    NextCanonical (execShepherdOperation core s) := by
  unfold execShepherdOperation
  split <;> simp [h]

end Sys2Proof.Machine
end

section
/-! SUPPORT for O55. What the functions of Machine/System.lean leave of the memories. -/

namespace Sys2Proof.Machine

@[simp] theorem returnWord_canonical (e : Env) (s : State) (w : Nat) (past : Bool) (h : Canonical s.memories) :
    (returnWord e s w past).Canonical := by
  unfold returnWord
  (repeat' split) <;> simp [h]

@[simp] theorem execTret_canonical (g : BitVec 3) (s : State) (h : Canonical s.memories) : NextCanonical (execTret g s) :=
  issueA_canonical (fun _ _ ht => by simp [ht]) h

@[simp] theorem execTretN_canonical (g : BitVec 3) (s : State) (h : Canonical s.memories) : NextCanonical (execTretN g s) :=
  issueA_canonical (fun _ _ ht => by simp [ht]) h

@[simp] theorem execUcall_canonical (g : BitVec 3) (s : State) (h : Canonical s.memories) : NextCanonical (execUcall g s) := by
  refine issueA_canonical (fun e t ht => ?_) h
  split <;> simp [ht]

@[simp] theorem execSvc_canonical (d a : BitVec 6) (g : BitVec 3) (s : State) (h : Canonical s.memories) :
    NextCanonical (execSvc d a g s) := by
  refine issueA_canonical (fun e t ht => ?_) h
  split <;> simp [ht]

@[simp] theorem answerSvc_memories (s : State) (ci : Nat) (ans : Option Word) : (answerSvc s ci ans).memories = s.memories := by
  unfold answerSvc
  dsimp only
  (repeat' split) <;> simp

@[simp] theorem execFaultServiceAnswer_canonical (core : Nat) (ans : Option (BitVec 64)) (s : State) (h : Canonical s.memories) :
    NextCanonical (execFaultServiceAnswer core ans s) := by
  unfold execFaultServiceAnswer
  (repeat' split) <;> simp [h]

@[simp] theorem execTlbinv_canonical (a b : BitVec 6) (g : BitVec 3) (s : State) (h : Canonical s.memories) :
    NextCanonical (execTlbinv a b g s) := by
  refine issueA_canonical (fun e t ht => ?_) h
  split <;> simp [ht]

@[simp] theorem sysFrame_memories (s : State) (ci : Nat) (f : TrapRegs → TrapRegs) : (sysFrame s ci f).memories = s.memories := by
  simp [sysFrame]

@[simp] theorem sysCsr_memories (s : State) (ci n : Nat) (v : Word) : (sysCsr s ci n v).memories = s.memories := by
  unfold sysCsr
  (repeat' split) <;> rfl

@[simp] theorem execScsrwr_canonical (a b : BitVec 6) (g : BitVec 3) (s : State) (h : Canonical s.memories) :
    NextCanonical (execScsrwr a b g s) := by
  refine issueA_canonical (fun e t ht => ?_) h
  dsimp only
  (repeat' split) <;> simp [ht]

@[simp] theorem changeSeg_canonical (s : State) (v : Word) (g : Seg) (h : Canonical s.memories) : (changeSeg s v g).Canonical := by
  unfold changeSeg
  dsimp only
  (repeat' split) <;> simp [h]

@[simp] theorem execSegset_canonical (a b : BitVec 6) (g : BitVec 3) (s : State) (h : Canonical s.memories) :
    NextCanonical (execSegset a b g s) := by
  refine issueA_canonical (fun e t ht => ?_) h
  dsimp only
  (repeat' split) <;> simp [ht]

@[simp] theorem execSegclr_canonical (a : BitVec 6) (g : BitVec 3) (s : State) (h : Canonical s.memories) :
    NextCanonical (execSegclr a g s) := by
  refine issueA_canonical (fun e t ht => ?_) h
  split <;> simp [ht]

@[simp] theorem execCtxout_canonical (a b : BitVec 6) (g : BitVec 3) (s : State) (h : Canonical s.memories) :
    NextCanonical (execCtxout a b g s) := by
  refine issueA_canonical (fun e t ht => ?_) h
  (repeat' split) <;> simp [ht]

@[simp] theorem modDomain_memories (s : State) (d dom : Nat) (f : Domain → Domain) : (modDomain s d dom f).memories = s.memories := by
  simp [modDomain]

@[simp] theorem noteClaim_memories (s t : State) (k : Nat) : (noteClaim s t k).memories = t.memories := by
  unfold noteClaim
  split <;> rfl

@[simp] theorem execCtxin_canonical (a b : BitVec 6) (g : BitVec 3) (s : State) (h : Canonical s.memories) :
    NextCanonical (execCtxin a b g s) := by
  refine issueA_canonical (fun e t ht => ?_) h
  (repeat' split) <;> simp [ht]

@[simp] theorem execAsset_canonical (a b : BitVec 6) (g : BitVec 3) (s : State) (h : Canonical s.memories) :
    NextCanonical (execAsset a b g s) :=
  issueA_canonical (fun _ _ ht => by simp [ht]) h

@[simp] theorem execPinfo_canonical (d a : BitVec 6) (g : BitVec 3) (s : State) (h : Canonical s.memories) :
    NextCanonical (execPinfo d a g s) :=
  issueA_canonical (fun _ _ ht => by simp [ht]) h

@[simp] theorem scrubPart_memories (s : State) (part : Nat) : (scrubPart s part).memories = s.memories := by
  refine memories_foldl (f := fun s i => if inMask (getPart _ part) i && (getCore s i).run == .halted then modCore s i scrubCore else s)
    (fun t i => ?_) (List.range 72) s
  split <;> simp

@[simp] theorem execPscrub_canonical (a : BitVec 6) (g : BitVec 3) (s : State) (h : Canonical s.memories) :
    NextCanonical (execPscrub a g s) :=
  issueA_canonical (fun _ _ ht => by simp [ht]) h

@[simp] theorem execErrrd_canonical (d a : BitVec 6) (g : BitVec 3) (s : State) (h : Canonical s.memories) :
    NextCanonical (execErrrd d a g s) :=
  issueA_canonical (fun _ _ ht => by simp [ht]) h

@[simp] theorem execHrmark_canonical (a : BitVec 6) (g : BitVec 3) (s : State) (h : Canonical s.memories) :
    NextCanonical (execHrmark a g s) := by
  refine issueA_canonical (fun e t ht => ?_) h
  split <;> simp [ht]

end Sys2Proof.Machine
end

section
/-! SUPPORT for O55. What the functions of Machine/Launch.lean leave of the memories. -/

namespace Sys2Proof.Machine

@[simp] theorem modLaunch_memories (s : State) (part id : Nat) (f : Launch → Launch) : (modLaunch s part id f).memories = s.memories := by
  simp [modLaunch]

@[simp] theorem pushCands_memories (s : State) (l : List Cand) : (pushCands s l).memories = s.memories :=
  memories_foldl (fun _ _ => modDie_memories _ _ _) l s

@[simp] theorem dropResv_memories (s : State) (key : Nat) : (dropResv s key).memories = s.memories := by
  simp [dropResv]

@[simp] theorem raiseMsix_memories (s : State) (func vector : Nat) : (raiseMsix s func vector).memories = s.memories := by
  unfold raiseMsix
  split <;> rfl

@[simp] theorem finishPacket_memories (s : State) (part q seq : Nat) : (finishPacket s part q seq).memories = s.memories := by
  unfold finishPacket
  dsimp only
  (repeat' split) <;> simp

@[simp] theorem readyNodes_memories (s : State) (d : Nat) : (readyNodes s d).memories = s.memories := by
  simp [readyNodes]

@[simp] theorem writeRecord_canonical (s : State) (part : Nat) (l : Launch) (h : Canonical s.memories) :
    Canonical (writeRecord s part l).memories := by
  unfold writeRecord
  split <;> simp [h]

@[simp] theorem completeLaunch_canonical (s : State) (part : Nat) (l : Launch) (h : Canonical s.memories) :
    Canonical (completeLaunch s part l).memories := by
  unfold completeLaunch
  dsimp only
  (repeat' split) <;> simp [h]

@[simp] theorem checkLaunch_canonical (s : State) (part id : Nat) (h : Canonical s.memories) :
    Canonical (checkLaunch s part id).memories := by
  unfold checkLaunch
  (repeat' split) <;> simp [h]

@[simp] theorem retryLaunches_canonical (s : State) (part q : Nat) (h : Canonical s.memories) :
    Canonical (retryLaunches s part q).memories :=
  canonical_foldl (fun _ _ ht => checkLaunch_canonical _ _ _ ht) _ s h

@[simp] theorem endItem_memories (s : State) (part : Nat) (l : Launch) (index cause : Nat) :
    (endItem s part l index cause).memories = s.memories := by
  unfold endItem
  (repeat' split) <;> simp

@[simp] theorem endRequeued_canonical (s : State) (part : Nat) (l : Launch) (h : Canonical s.memories) :
    Canonical (endRequeued s part l).memories := by
  unfold endRequeued
  split
  · exact h
  · refine canonical_foldl (fun t n ht => ?_) _ s h
    split <;> simp [ht]

@[simp] theorem failLaunch_canonical (s : State) (part : Nat) (l : Launch) (f : Nat × Nat × Nat × Nat) (h : Canonical s.memories) :
    Canonical (failLaunch s part l f).memories := by
  unfold failLaunch
  split <;> simp [h]

@[simp] theorem prefetchEntries_memories (s : State) (k : Nat) : (prefetchEntries s k).memories = s.memories := by
  unfold prefetchEntries
  simp
  (repeat' split) <;> simp

@[simp] theorem startUnit_memories (s : State) (part : Nat) (l : Launch) (k index arrive : Nat) (x1 x2 : Word) :
    (startUnit s part l k index arrive x1 x2).memories = s.memories := by
  simp [startUnit]

@[simp] theorem makeRoom_memories (s : State) (part r m : Nat) : (makeRoom s part r m).memories = s.memories := by
  unfold makeRoom
  dsimp only
  (repeat' split) <;> simp

@[simp] theorem skipItem_memories (s : State) (part : Nat) (l : Launch) : (skipItem s part l).memories = s.memories := by
  unfold skipItem
  split <;> simp

@[simp] theorem claimItem_memories (s : State) (part q : Nat) : (claimItem s part q).memories = s.memories := by
  unfold claimItem
  dsimp only
  (repeat' split) <;> simp

@[simp] theorem execStandingClaim_canonical (part q : Nat) (s : State) (h : Canonical s.memories) :
    NextCanonical (execStandingClaim part q s) := by
  unfold execStandingClaim
  split <;> simp [h]

@[simp] theorem bookItem_memories (s : State) (part : Nat) (l : Launch) (n : Nat) (out : Option Nat) :
    (bookItem s part l n out).memories = s.memories := by
  unfold bookItem
  (repeat' split) <;> simp

@[simp] theorem runItem_canonical {s : State} {part : Nat} {l : Launch} {k : Nat} {u : Cand} {n : Nat} {out : Option Nat} {book : State → State}
    (h : Canonical s.memories) (hb : ∀ t, Canonical t.memories → Canonical (book t).memories) :
    Canonical (runItem s part l k u n out book).memories := by
  unfold runItem
  dsimp only
  split
  · exact h
  · split
    · simp [h]
    · rw [startUnit_memories]
      exact hb _ (devWrite_canonical _ _ _ _ _ _ _ _ (by simpa using h))

@[simp] theorem startItem_canonical (s : State) (part : Nat) (l : Launch) (k : Nat) (u : Cand) (h : Canonical s.memories) :
    Canonical (startItem s part l k u).memories := by
  unfold startItem
  dsimp only
  split
  · exact runItem_canonical h fun t ht => by simpa using ht
  · split
    · simp [h]
    · exact runItem_canonical h fun t ht => by simpa using ht

@[simp] theorem placeImage_memories (s : State) (d : Nat) (i : Core) : (placeImage s d i).1.memories = s.memories := by
  unfold placeImage
  split <;> rfl

@[simp] theorem putAside_memories (s : State) (i : Core) (ci : Nat) : (putAside s i ci).memories = s.memories := by
  unfold putAside
  dsimp only
  (repeat' split) <;> simp

@[simp] theorem resumeUnit_memories (s : State) (k : Nat) (u : Cand) : (resumeUnit s k u).memories = s.memories := by
  unfold resumeUnit
  dsimp only
  (repeat' split) <;> simp

@[simp] theorem sendGang_memories (s : State) (g : Gang) (m : GangMsg) : (sendGang s g m).memories = s.memories := by
  simp [sendGang]

@[simp] theorem modGang_memories (s : State) (part id : Nat) (f : Gang → Gang) : (modGang s part id f).memories = s.memories := by
  simp [modGang]

@[simp] theorem reserveGang_memories (s : State) (part : Nat) (l : Launch) (g : Gang) : (reserveGang s part l g).memories = s.memories := by
  unfold reserveGang
  dsimp only
  (repeat' split) <;> simp

@[simp] theorem holdCores_memories (s : State) (key : Nat) (l : List Nat) : (holdCores s key l).memories = s.memories :=
  memories_foldl (fun _ _ => modDie_memories _ _ _) l s

@[simp] theorem startTogether_memories (s : State) (part : Nat) (l : Launch) (arrive : Nat) (cores : List Nat) :
    (startTogether s part l arrive cores).memories = s.memories := by
  refine (memories_foldl (fun _ _ => startUnit_memories _ _ _ _ _ _ _ _) _ _).trans ?_
  simp

@[simp] theorem startCosched_memories (s : State) (part : Nat) (l : Launch) (k : Nat) (u : Cand) :
    (startCosched s part l k u).memories = s.memories := by
  unfold startCosched
  dsimp only
  (repeat' split) <;> simp

@[simp] theorem startCand_canonical (s : State) (k : Nat) (u : Cand) (h : Canonical s.memories) : Canonical (startCand s k u).memories := by
  unfold startCand
  (repeat' split) <;> simp [h]

@[simp] theorem dispatchCore_canonical (s : State) (k : Nat) (h : Canonical s.memories) : Canonical (dispatchCore s k).memories := by
  unfold dispatchCore
  (repeat' split) <;> simp [h]

@[simp] theorem execDispatch_canonical (core : Nat) (s : State) (h : Canonical s.memories) : NextCanonical (execDispatch core s) := by
  unfold execDispatch
  split <;> simp [h]

@[simp] theorem execCandidateAged_canonical (part index : Nat) (s : State) (h : Canonical s.memories) :
    NextCanonical (execCandidateAged part index s) := by
  unfold execCandidateAged
  split <;> simp [h]

@[simp] theorem refuseTaken_memories (s : State) (c : Core) : (refuseTaken s c).memories = s.memories := by
  unfold refuseTaken
  split <;> simp

@[simp] theorem unitEnded_canonical (s : State) (u : UnitInfo) (ci cause detail : Nat) (h : Canonical s.memories) :
    Canonical (unitEnded s u ci cause detail).memories := by
  unfold unitEnded
  dsimp only
  (repeat' split) <;> simp [h]

@[simp] theorem completeUnit_canonical (s : State) (ci : Nat) (h : Canonical s.memories) : Canonical (completeUnit s ci).memories := by
  unfold completeUnit
  dsimp only
  (repeat' split) <;> simp [h]

@[simp] theorem execUnitCompletion_canonical (core : Nat) (s : State) (h : Canonical s.memories) :
    NextCanonical (execUnitCompletion core s) :=
  coreEvent_canonical (withPast_canonical (fun _ ht => by simp [ht]) h)

@[simp] theorem cancelCore_canonical (s : State) (ci level : Nat) (h : Canonical s.memories) :
    Canonical (cancelCore s ci level).memories := by
  unfold cancelCore
  dsimp only
  (repeat' split) <;> simp [h]

@[simp] theorem cancelPast_canonical (s : State) (part level : Nat) (x : Switched) (h : Canonical s.memories) :
    Canonical (cancelPast s part level x).memories := by
  unfold cancelPast
  dsimp only
  (repeat' split) <;> simp [h]

@[simp] theorem cancelLaunch_canonical (s : State) (part level : Nat) (l : Launch) (h : Canonical s.memories) :
    Canonical (cancelLaunch s part level l).memories := by
  refine checkLaunch_canonical _ _ _ (canonical_foldl (fun t _ ht => ?_) _ _ (canonical_foldl (fun t _ ht => ?_) _ _ ?_))
  · simp [ht]
  · simp [ht]
  · simp [h]

@[simp] theorem cancelAll_canonical (s : State) (part : Nat) (x : Packet) (h : Canonical s.memories) :
    Canonical (cancelAll s part x).memories := by
  refine canonical_foldl (fun t l ht => ?_) _ s h
  split <;> simp [ht]

@[simp] theorem evalHead_memories (s : State) (part q : Nat) : (evalHead s part q).memories = s.memories := by
  unfold evalHead
  split <;> rfl

@[simp] theorem execHeadConditionSatisfied_canonical (part q : Nat) (s : State) (h : Canonical s.memories) :
    NextCanonical (execHeadConditionSatisfied part q s) := by
  unfold execHeadConditionSatisfied
  dsimp only
  (repeat' split) <;> simp [h]

@[simp] theorem fetchPacket_memories (s : State) (part q : Nat) : (fetchPacket s part q).memories = s.memories := by
  unfold fetchPacket
  dsimp only
  (repeat' split) <;> simp

@[simp] theorem execQueueFetch_canonical (part q : Nat) (s : State) (h : Canonical s.memories) :
    NextCanonical (execQueueFetch part q s) := by
  unfold execQueueFetch
  split <;> simp [h]

@[simp] theorem passHead_memories (s : State) (part q : Nat) : (passHead s part q).memories = s.memories := by
  simp [passHead]

@[simp] theorem headEvent_canonical {s : State} {part q type : Nat} {f : Packet → State} (h : Canonical s.memories)
    (hf : ∀ x, Canonical (f x).memories) : NextCanonical (headEvent s part q type f) := by
  unfold headEvent
  dsimp only
  (repeat' split) <;> simp [h, hf]

@[simp] theorem execNopPacket_canonical (part q : Nat) (s : State) (h : Canonical s.memories) : NextCanonical (execNopPacket part q s) := by
  simp [execNopPacket, h]

@[simp] theorem addLaunch_memories (s : State) (part : Nat) (l : Launch) : (addLaunch s part l).memories = s.memories := by
  simp [addLaunch]

@[simp] theorem holdHead_memories (s : State) (part q : Nat) : (holdHead s part q).memories = s.memories := by
  simp [holdHead]

@[simp] theorem execLaunchPacket_canonical (part q : Nat) (s : State) (h : Canonical s.memories) :
    NextCanonical (execLaunchPacket part q s) := by
  simp [execLaunchPacket, h]

@[simp] theorem execNodePacket_canonical (part q : Nat) (s : State) (h : Canonical s.memories) :
    NextCanonical (execNodePacket part q s) := by
  simp [execNodePacket, h]

@[simp] theorem execWaitAllPacket_canonical (part q : Nat) (s : State) (h : Canonical s.memories) :
    NextCanonical (execWaitAllPacket part q s) := by
  simp [execWaitAllPacket, h]

@[simp] theorem execWaitAnyPacket_canonical (part q : Nat) (s : State) (h : Canonical s.memories) :
    NextCanonical (execWaitAnyPacket part q s) := by
  simp [execWaitAnyPacket, h]

@[simp] theorem execSignalPacket_canonical (part q : Nat) (s : State) (h : Canonical s.memories) :
    NextCanonical (execSignalPacket part q s) := by
  refine headEvent_canonical h fun x => ?_
  dsimp only
  split <;> simp [h]

@[simp] theorem execCancelPacket_canonical (part q : Nat) (s : State) (h : Canonical s.memories) :
    NextCanonical (execCancelPacket part q s) := by
  simp [execCancelPacket, h]

@[simp] theorem execPortalDmwr_canonical (func q : Nat) (pkt : BitVec 512) (s : State) (h : Canonical s.memories) :
    NextCanonical (execPortalDmwr func q pkt s) := by
  unfold execPortalDmwr
  dsimp only
  split
  · exact h
  · next p _ =>
    have hd := deliver_canonical s p q pkt h
    split <;> next hs => rw [hs] at hd; exact hd

@[simp] theorem execPortalPostedWrite_canonical (func q : Nat) (pkt : BitVec 512) (s : State) (h : Canonical s.memories) :
    NextCanonical (execPortalPostedWrite func q pkt s) := by
  unfold execPortalPostedWrite
  dsimp only
  (repeat' split) <;> simp [h]

@[simp] theorem execPortalWake_canonical (func q : Nat) (s : State) (h : Canonical s.memories) :
    NextCanonical (execPortalWake func q s) := by
  unfold execPortalWake
  split <;> simp [h]

@[simp] theorem stateEvent_canonical {s : State} {part q : Nat} {f : QState → State} (hf : ∀ x, Canonical (f x).memories) :
    NextCanonical (stateEvent s part q f) := by
  unfold stateEvent
  split <;> simp [hf]

@[simp] theorem execQueueActivate_canonical (part q : Nat) (s : State) (h : Canonical s.memories) :
    NextCanonical (execQueueActivate part q s) := by
  refine stateEvent_canonical fun st => ?_
  (repeat' split) <;> simp [h]

@[simp] theorem execQueueStop_canonical (part q : Nat) (s : State) (h : Canonical s.memories) : NextCanonical (execQueueStop part q s) := by
  refine stateEvent_canonical fun st => ?_
  (repeat' split) <;> simp [h]

@[simp] theorem execQueueUnmap_canonical (part q : Nat) (s : State) (h : Canonical s.memories) :
    NextCanonical (execQueueUnmap part q s) := by
  refine stateEvent_canonical fun st => ?_
  (repeat' split) <;> simp [h]

@[simp] theorem execQueueUnmapped_canonical (part q : Nat) (s : State) (h : Canonical s.memories) :
    NextCanonical (execQueueUnmapped part q s) := by
  refine stateEvent_canonical fun st => ?_
  (repeat' split) <;> simp [h]

@[simp] theorem execGangPacket_canonical (part q : Nat) (s : State) (h : Canonical s.memories) :
    NextCanonical (execGangPacket part q s) := by
  refine headEvent_canonical h fun x => ?_
  dsimp only
  split <;> simp [h]

@[simp] theorem gangEvent_canonical {s : State} {part id : Nat} {f : Gang → State} (h : Canonical s.memories)
    (hf : ∀ x, Canonical (f x).memories) : NextCanonical (gangEvent s part id f) := by
  unfold gangEvent
  (repeat' split) <;> simp [h, hf]

@[simp] theorem execGangMessageReceive_canonical (part gang member : Nat) (msg : GangMsg) (s : State) (h : Canonical s.memories) :
    NextCanonical (execGangMessageReceive part gang member msg s) := by
  unfold execGangMessageReceive
  (repeat' split) <;> simp [h]

@[simp] theorem execGangGoDecision_canonical (part gang : Nat) (s : State) (h : Canonical s.memories) :
    NextCanonical (execGangGoDecision part gang s) := by
  refine gangEvent_canonical h fun g => ?_
  (repeat' split) <;> simp [h]

@[simp] theorem execGangRelease_canonical (part gang : Nat) (s : State) (h : Canonical s.memories) :
    NextCanonical (execGangRelease part gang s) := by
  refine gangEvent_canonical h fun g => ?_
  dsimp only
  (repeat' split) <;> simp [h]

@[simp] theorem requeueUnit_canonical (s : State) (ci : Nat) (u : UnitInfo) (h : Canonical s.memories) :
    Canonical (requeueUnit s ci u).memories := by
  unfold requeueUnit
  (repeat' split) <;> simp [h]

@[simp] theorem preemptCore_canonical (s : State) (ci : Nat) (h : Canonical s.memories) : Canonical (preemptCore s ci).memories := by
  unfold preemptCore
  dsimp only
  (repeat' split) <;> simp [h]

@[simp] theorem execPreemptionRequest_canonical (core : Nat) (s : State) (h : Canonical s.memories) :
    NextCanonical (execPreemptionRequest core s) := by
  unfold execPreemptionRequest
  split <;> simp [h]

@[simp] theorem switchCore_canonical (s : State) (ci : Nat) (h : Canonical s.memories) : Canonical (switchCore s ci).memories := by
  unfold switchCore
  dsimp only
  (repeat' split) <;> simp [h]

@[simp] theorem execContextSwitch_canonical (core : Nat) (s : State) (h : Canonical s.memories) :
    NextCanonical (execContextSwitch core s) := by
  unfold execContextSwitch
  split <;> simp [h]

@[simp] theorem adoptUnit_memories (s : State) (ci j : Nat) : (adoptUnit s ci j).memories = s.memories := by
  unfold adoptUnit
  dsimp only
  (repeat' split) <;> simp

@[simp] theorem execUnitAdoption_canonical (core adopter : Nat) (s : State) (h : Canonical s.memories) :
    NextCanonical (execUnitAdoption core adopter s) := by
  unfold execUnitAdoption
  split <;> simp [h]

@[simp] theorem failUnit_canonical (s : State) (ci : Nat) (u : UnitInfo) (usable : Bool) (cause detail : Nat) (record : Bool)
    (h : Canonical s.memories) :
    Canonical (failUnit s ci u usable cause detail record).memories := by
  unfold failUnit
  (repeat' split) <;> simp [h]

@[simp] theorem snapshotLost_canonical (s : State) (ci : Nat) (h : Canonical s.memories) : Canonical (snapshotLost s ci).memories := by
  unfold snapshotLost
  dsimp only
  (repeat' split) <;> simp [h]

@[simp] theorem execSnapshotStoreError_canonical (core : Nat) (s : State) (h : Canonical s.memories) :
    NextCanonical (execSnapshotStoreError core s) := by
  unfold execSnapshotStoreError
  split <;> simp [h]

@[simp] theorem spoilCache_memories (s : State) (l : List DcLine) : (spoilCache s l).memories = s.memories := by
  simp [spoilCache]

@[simp] theorem applyRecords_canonical (s : State) (part : Nat) (h : Canonical s.memories) : Canonical (applyRecords s part).memories :=
  canonical_foldl (fun _ r ht => canonical_foldl (fun _ _ hu => devWrite_canonical _ _ _ _ _ _ _ _ hu) r.stores _ ht) _ s h

@[simp] theorem dropLost_memories (s : State) (d : Nat) : (dropLost s d).memories = s.memories := by
  simp [dropLost]

@[simp] theorem failDie_canonical (s : State) (d : Nat) (h : Canonical s.memories) : Canonical (failDie s d).memories := by
  refine canonical_foldl (fun _ _ ht => failUnit_canonical _ _ _ _ _ _ _ ht) _ _ ?_
  refine canonical_foldl (fun _ _ ht => applyRecords_canonical _ _ ht) _ _ ?_
  simpa [memories_foldl] using h

@[simp] theorem execDieFailover_canonical (die : Nat) (s : State) (h : Canonical s.memories) : NextCanonical (execDieFailover die s) := by
  unfold execDieFailover
  (repeat' split) <;> simp [h]

end Sys2Proof.Machine
end

section
/-! SUPPORT for O55. What the functions of Machine/Device.lean leave of the memories. -/

namespace Sys2Proof.Machine

@[simp] theorem dieFault_canonical (s : State) (d : Nat) (h : Canonical s.memories) : Canonical (dieFault s d).memories := by
  unfold dieFault
  split <;> simp [h]

@[simp] theorem execThermalTrip_canonical (die : Nat) (s : State) (h : Canonical s.memories) : NextCanonical (execThermalTrip die s) := by
  unfold execThermalTrip
  split <;> simp [h]

@[simp] theorem execThermalThrottle_canonical (die : Nat) (s : State) (h : Canonical s.memories) :
    NextCanonical (execThermalThrottle die s) := by
  unfold execThermalThrottle
  split <;> simp [h]

@[simp] theorem execThermalThrottleEnd_canonical (die : Nat) (s : State) (h : Canonical s.memories) :
    NextCanonical (execThermalThrottleEnd die s) := by
  unfold execThermalThrottleEnd
  split <;> simp [h]

@[simp] theorem estimatePower_memories (s : State) (die watts : Nat) (limit : Option Nat) :
    (estimatePower s die watts limit).memories = s.memories := by
  unfold estimatePower
  split <;> rfl

@[simp] theorem execPowerEstimate_canonical (die : Nat) (p : PowerReport) (s : State) (h : Canonical s.memories) :
    NextCanonical (execPowerEstimate die p s) := by
  unfold execPowerEstimate
  split <;> simp [h]

@[simp] theorem applyBoosten_memories (s : State) : (applyBoosten s).memories = s.memories := by
  simp [applyBoosten]

@[simp] theorem nextInterval_memories (s : State) : (nextInterval s).memories = s.memories := by
  unfold nextInterval
  split <;> rfl

@[simp] theorem execBoostInterval_canonical (s : State) (h : Canonical s.memories) : NextCanonical (execBoostInterval s) := by
  simp [execBoostInterval, h]

@[simp] theorem execDtimeSync_canonical (slew : Int) (s : State) (h : Canonical s.memories) : NextCanonical (execDtimeSync slew s) := by
  unfold execDtimeSync
  split <;> simp [h]

@[simp] theorem scrubSector_memories (s : State) (sector : Nat) : (scrubSector s sector).memories = s.memories := by
  unfold scrubSector
  (repeat' split) <;> simp

@[simp] theorem execPatrolScrub_canonical (sector : Nat) (s : State) (h : Canonical s.memories) :
    NextCanonical (execPatrolScrub sector s) := by
  unfold execPatrolScrub
  split <;> simp [h]

@[simp] theorem execMirroredSizeSet_canonical (gib : Nat) (s : State) (h : Canonical s.memories) :
    NextCanonical (execMirroredSizeSet gib s) := by
  unfold execMirroredSizeSet
  split <;> simp [h]

@[simp] theorem eraseAlarm_memories (s : State) : (eraseAlarm s).memories = s.memories := by
  simp [eraseAlarm]

@[simp] theorem execGlitchDetect_canonical (s : State) (h : Canonical s.memories) : NextCanonical (execGlitchDetect s) := h

@[simp] theorem execOwnerProvisioning_canonical (part : Nat) (key : BitVec 64) (s : State) (h : Canonical s.memories) :
    NextCanonical (execOwnerProvisioning part key s) := by
  unfold execOwnerProvisioning
  split <;> simp [h]

@[simp] theorem resetPackage_canonical (s : State) (fail : List Nat) (h : Canonical s.memories) :
    Canonical (resetPackage s fail).memories := by
  have hk : Canonical ([], s.hostMem, s.peerMem) := ⟨rfl, h.2.1, h.2.2⟩
  unfold resetPackage
  dsimp only
  split
  · simpa [State.reset] using hk
  · simpa [State.reset] using hk

@[simp] theorem execPackageReset_canonical (fail : List Nat) (s : State) (h : Canonical s.memories) :
    NextCanonical (execPackageReset fail s) := by
  simp [execPackageReset, h]

@[simp] theorem releaseHeld_memories (s : State) (d : Nat) : (releaseHeld s d).memories = s.memories := by
  refine memories_foldl (fun t i => ?_) _ s
  dsimp only
  split <;> simp

@[simp] theorem beginRestart_canonical (s : State) (d : Nat) (h : Canonical s.memories) : Canonical (beginRestart s d).memories := by
  unfold beginRestart
  dsimp only
  (repeat' split) <;> simp [h]

@[simp] theorem enterRecovery_memories (s : State) (d : Nat) : (enterRecovery s d).memories = s.memories := by
  simp [enterRecovery]

@[simp] theorem endRestart_canonical (s : State) (d : Nat) (fail : List Nat) (h : Canonical s.memories) :
    Canonical (endRestart s d fail).memories := by
  have hm (l : List Nat) : (l.foldl markRetired s).memories = s.memories := memories_foldl markRetired_memories l s
  unfold endRestart
  dsimp only
  split
  · simp [hm, h]
  · split
    · exact dieFault_canonical _ _ (by simpa [hm] using h)
    · simp [hm, h]

@[simp] theorem execFirmwareRestart_canonical (die : Nat) (fail : List Nat) (s : State) (h : Canonical s.memories) :
    NextCanonical (execFirmwareRestart die fail s) := by
  unfold execFirmwareRestart
  (repeat' split) <;> simp [h]

@[simp] theorem execFirmwareUpdate_canonical (ver : Nat) (minVer : Option Nat) (end_ : UpdateEnd) (s : State) (h : Canonical s.memories) :
    NextCanonical (execFirmwareUpdate ver minVer end_ s) := by
  unfold execFirmwareUpdate
  (repeat' split) <;> simp [h]

@[simp] theorem resetUnit_memories (func part : Nat) (s : State) (i : Nat) : (resetUnit func part s i).memories = s.memories := by
  simp [resetUnit]

@[simp] theorem beginReset_memories (s : State) (func part : Nat) : (beginReset s func part).memories = s.memories := by
  simp [beginReset, memories_foldl]

@[simp] theorem drainCore_memories (s : State) (part i : Nat) : (drainCore s part i).memories = s.memories := by
  simp [drainCore]

@[simp] theorem drainCache_memories (part : Nat) (s : State) (d : Nat) : (drainCache part s d).memories = s.memories :=
  memories_foldl (fun _ _ => dcDrop_memories _ _ _) _ s

@[simp] theorem endReset_memories (s : State) (part : Nat) : (endReset s part).memories = s.memories := by
  simp [endReset, memories_foldl]

@[simp] theorem execFlrOwner_canonical (func : Nat) (s : State) (h : Canonical s.memories) : NextCanonical (execFlrOwner func s) := by
  unfold execFlrOwner
  (repeat' split) <;> simp [h]

@[simp] theorem resetQueues_canonical (s : State) (func part : Nat) (h : Canonical s.memories) :
    Canonical (resetQueues s func part).memories := by
  refine canonical_foldl (fun _ l ht => checkLaunch_canonical _ _ _ (by simpa using ht)) _ _ ?_
  simpa [memories_foldl] using h

@[simp] theorem execFlrQueueFunction_canonical (func : Nat) (s : State) (h : Canonical s.memories) :
    NextCanonical (execFlrQueueFunction func s) := by
  unfold execFlrQueueFunction
  split
  · exact h
  · refine canonical_foldl (fun t p ht => ?_) _ s h
    split <;> simp [ht]

@[simp] theorem execMsixMessage_canonical (func : Nat) (s : State) (h : Canonical s.memories) : NextCanonical (execMsixMessage func s) := by
  unfold execMsixMessage
  (repeat' split) <;> simp [h]

@[simp] theorem modPort_memories (s : State) (d i : Nat) (f : Port → Port) : (modPort s d i f).memories = s.memories := by
  simp [modPort]

@[simp] theorem refuseFlight_memories (i : Nat) (s : State) (ci : Nat) : (refuseFlight i s ci).memories = s.memories :=
  memories_foldl (fun _ _ => by simp) _ s

@[simp] theorem refuseCore_memories (i : Nat) (s : State) (ci : Nat) : (refuseCore i s ci).memories = s.memories :=
  memories_foldl (fun _ _ => withPast_memories fun _ => refuseFlight_memories _ _ _) _ s

@[simp] theorem failLink_memories (s : State) (d i : Nat) : (failLink s d i).memories = s.memories := by
  simp [failLink, memories_foldl]

@[simp] theorem portEvent_canonical {s : State} {d i : Nat} {f : Port → State} (hf : ∀ x, Canonical (f x).memories) :
    NextCanonical (portEvent s d i f) := by
  unfold portEvent
  split <;> simp [hf]

@[simp] theorem execFlitCrcFailure_canonical (die : Nat) (f : PortFlit) (s : State) (h : Canonical s.memories) :
    NextCanonical (execFlitCrcFailure die f s) := by
  refine portEvent_canonical fun p => ?_
  (repeat' split) <;> simp [h]

@[simp] theorem execLinkTrainingTimeout_canonical (die port : Nat) (s : State) (h : Canonical s.memories) :
    NextCanonical (execLinkTrainingTimeout die port s) := by
  refine portEvent_canonical fun p => ?_
  split <;> simp [h]

@[simp] theorem execLinkTrainingComplete_canonical (die port : Nat) (s : State) (h : Canonical s.memories) :
    NextCanonical (execLinkTrainingComplete die port s) := by
  simp [execLinkTrainingComplete, h]

@[simp] theorem readDevice_memories (part core : Nat) (va : Word) (fuel : Nat) :
    ∀ (s : State) (pa n : Nat), (readDevice s part core va fuel pa n).1.memories = s.memories := by
  induction fuel with
  | zero => exact fun _ _ _ => rfl
  | succ fuel ih =>
    intro s pa n
    unfold readDevice
    dsimp only
    split
    · rfl
    · exact (ih _ _ _).trans (touchSector_memories ..)

@[simp] theorem writeLines_canonical (part a len : Nat) (va : Option Word) (fuel : Nat) :
    ∀ (s : State) (pa : Nat) (b : List Byte), Canonical s.memories → Canonical (writeLines s part a len va fuel pa b).memories := by
  induction fuel with
  | zero => exact fun _ _ _ h => h
  | succ fuel ih =>
    intro s pa b h
    unfold writeLines
    dsimp only
    split
    · exact h
    · exact ih _ _ _ (devWrite_canonical _ _ _ _ _ _ _ _ h)

@[simp] theorem writeDevice_canonical (s : State) (part pa : Nat) (va : Option Word) (b : List Byte) (h : Canonical s.memories) :
    Canonical (writeDevice s part pa va b).memories := by
  simp [writeDevice, h]

@[simp] theorem apertureWalk_memories (s : State) (part func : Nat) (va : Word) : (apertureWalk s part func va).memories = s.memories := by
  simp [apertureWalk]

@[simp] theorem apertureAccess_canonical {s : State} {func : Nat} {va : Word} {n : Nat} {k : AccessKind} {go : State → Nat → Nat → State}
    (h : Canonical s.memories) (hg : ∀ t p pa, Canonical t.memories → Canonical (go t p pa).memories) :
    Canonical (apertureAccess s func va n k go).memories := by
  unfold apertureAccess
  dsimp only
  (repeat' split) <;> simp [h, hg]

@[simp] theorem portalAccess_memories (s : State) (func q off n : Nat) (read : Bool) :
    (portalAccess s func q off n read).memories = s.memories := by
  unfold portalAccess
  (repeat' split) <;> rfl

@[simp] theorem hostAccess_canonical (s : State) (func : Nat) (addr : BitVec 64) (acc : HostAccess) (h : Canonical s.memories) :
    Canonical (hostAccess s func addr acc).memories := by
  unfold hostAccess
  dsimp only
  cases acc with
  | read n => exact apertureAccess_canonical h fun t p pa ht => by simpa using ht
  | write data => exact apertureAccess_canonical h fun t p pa ht => writeDevice_canonical _ _ _ _ _ ht
  | portal q off n read => simpa using h
  | errlog part rec =>
    dsimp only
    split <;> simp [h]
  | status reg =>
    dsimp only
    split <;> simp [h]

@[simp] theorem execHostMemoryAccess_canonical (func : Nat) (addr : BitVec 64) (acc : HostAccess) (s : State) (h : Canonical s.memories) :
    NextCanonical (execHostMemoryAccess func addr acc s) := by
  unfold execHostMemoryAccess
  split <;> simp [h]

@[simp] theorem setOwner_memories (s : State) (part func : Nat) : (setOwner s part func).memories = s.memories := by
  unfold setOwner
  split <;> rfl

@[simp] theorem bindFunc_memories (s : State) (part func : Nat) (on : Bool) : (bindFunc s part func on).memories = s.memories := by
  unfold bindFunc
  (repeat' split) <;> rfl

@[simp] theorem writeHostReg_memories (s : State) (r : HostReg) (v : BitVec 256) : (writeHostReg s r v).memories = s.memories := by
  unfold writeHostReg
  (repeat' split) <;> simp

@[simp] theorem execHostRegisterWrite_canonical (reg : HostReg) (value : BitVec 256) (s : State) (h : Canonical s.memories) :
    NextCanonical (execHostRegisterWrite reg value s) := by
  unfold execHostRegisterWrite
  split <;> simp [h]

@[simp] theorem execFenWrite_canonical (part : Nat) (value : BitVec 64) (s : State) (h : Canonical s.memories) :
    NextCanonical (execFenWrite part value s) := by
  unfold execFenWrite
  (repeat' split) <;> simp [h]

@[simp] theorem enableRing_memories (s : State) (part r : Nat) : (enableRing s part r).memories = s.memories := by
  unfold enableRing
  dsimp only
  (repeat' split) <;> simp

@[simp] theorem execRingEnable_canonical (part ring : Nat) (s : State) (h : Canonical s.memories) :
    NextCanonical (execRingEnable part ring s) := by
  unfold execRingEnable
  split <;> simp [h]

@[simp] theorem peerAtomic_canonical (s : State) (member part pa : Nat) (op : AmoOp) (size : Nat) (cmp val : BitVec 128)
    (h : Canonical s.memories) :
    Canonical (peerAtomic s member part pa op size cmp val).memories := by
  unfold peerAtomic
  dsimp only
  (repeat' split) <;> simp [h]

@[simp] theorem peerAccess_canonical (s : State) (member part : Nat) (acc : PeerAccess) (h : Canonical s.memories) :
    Canonical (peerAccess s member part acc).memories := by
  unfold peerAccess
  dsimp only
  (repeat' split) <;> simp [h]

@[simp] theorem execTetherPeerAccess_canonical (member part : Nat) (acc : PeerAccess) (s : State) (h : Canonical s.memories) :
    NextCanonical (execTetherPeerAccess member part acc s) := by
  unfold execTetherPeerAccess
  split <;> simp [h]

end Sys2Proof.Machine
end

section
/-! SUPPORT for O55. What the functions of Machine/Loader.lean leave of the memories. -/

namespace Sys2Proof.Machine

@[simp] theorem loadSpoil_memories (s : State) (q : LoadEnv) (va : Word) : (loadSpoil s q va).memories = s.memories := by
  unfold loadSpoil
  (repeat' split) <;> simp

@[simp] theorem readVirt_memories (q : LoadEnv) (ok : Word → Bool) (fuel : Nat) :
    ∀ (s : State) (va : Word) (n : Nat), (readVirt s q ok fuel va n).1.memories = s.memories := by
  induction fuel with
  | zero => exact fun _ _ _ => rfl
  | succ fuel ih =>
    intro s va n
    unfold readVirt
    dsimp only
    split
    · rfl
    · split
      · simp
      · next pa _ =>
        split
        · rfl
        · split
          · simp
          · have hr := ih (touchLine s q.part q.core none pa va).1 (va + BitVec.ofNat 64 (min n (128 - va.toNat % 128)))
              (n - min n (128 - va.toNat % 128))
            split <;> next hs => rw [hs] at hr; simpa using hr

@[simp] theorem readHost_memories (s : State) (q : LoadEnv) (va : Word) (n : Nat) : (readHost s q va n).1.memories = s.memories := by
  simp [readHost]

@[simp] theorem writeVirt_canonical (q : LoadEnv) (fuel : Nat) :
    ∀ (s : State) (va : Word) (b : List Byte), Canonical s.memories → Canonical (writeVirt s q fuel va b).1.memories := by
  induction fuel with
  | zero => exact fun _ _ _ h => h
  | succ fuel ih =>
    intro s va b h
    unfold writeVirt
    dsimp only
    split
    · exact h
    · split
      · simpa using h
      · split
        · exact h
        · exact ih _ _ _ (writeDevice_canonical _ _ _ _ _ h)

@[simp] theorem placeAll_canonical (q : LoadEnv) (obj : List Byte) (l : List (SegRec × Nat)) :
    ∀ s : State, Canonical s.memories → Canonical (placeAll s q obj l).1.memories := by
  induction l with
  | nil => exact fun _ h => h
  | cons x rest ih =>
    intro s h
    have hw (b : List Byte) := writeVirt_canonical q x.1.msize s (BitVec.ofNat 64 x.2) b h
    unfold placeAll
    dsimp only
    split
    · next hs => exact hs ▸ hw _
    · next s1 _ hs =>
      have h1 : Canonical s1.memories := by
        have := hw ((obj.drop x.1.foff).take x.1.fsize ++ List.replicate (x.1.msize - x.1.fsize) 0)
        rwa [hs] at this
      exact ih _ h1

@[simp] theorem verifySeg_memories (s : State) (q : LoadEnv) (obj : List Byte) (img recOff : Nat) (r : SegRec) (base j : Nat) :
    (verifySeg s q obj img recOff r base j).1.memories = s.memories := by
  have hr := readVirt_memories q (fun _ => true) r.fsize s (BitVec.ofNat 64 base) r.fsize
  unfold verifySeg
  dsimp only
  split
  · rfl
  · split
    · rfl
    · split <;> next hs => rwa [hs] at hr

@[simp] theorem verifyAll_memories (q : LoadEnv) (obj : List Byte) (img : Nat) (l : List (Nat × SegRec × Nat)) :
    ∀ (s : State) (j : Nat), (verifyAll s q obj img j l).1.memories = s.memories := by
  induction l with
  | nil => exact fun _ _ => rfl
  | cons x rest ih =>
    intro s j
    have hv := verifySeg_memories s q obj img x.1 x.2.1 x.2.2 j
    unfold verifyAll
    split
    · next hs => exact hs ▸ hv
    · next hs => rw [hs] at hv; exact (ih _ _).trans hv

@[simp] theorem loadImageOf_canonical (s : State) (q : LoadEnv) (obj : List Byte) (array : Word) (img : Nat) (h : Canonical s.memories) :
    Canonical (loadImageOf s q obj array img).1.memories := by
  have hr := readHost_memories s q array (8 * ((segOffs obj img).map (segRec obj)).length)
  unfold loadImageOf
  dsimp only
  split
  · exact h
  · split
    · exact h
    · split
      · next hs => rw [hs] at hr; exact hr ▸ h
      · next s1 arr hs =>
        have h1 : Canonical s1.memories := by rw [hs] at hr; exact hr ▸ h
        split
        · exact h1
        · split
          · exact (memories_foldl (fun _ _ => loadSpoil_memories _ _ _) _ s1).symm ▸ h1
          · have hp (l : List (SegRec × Nat)) := placeAll_canonical q obj l s1 h1
            split
            · next hs2 => exact (congrArg (fun x => Canonical x.1.memories) hs2).mp (hp _)
            · next s2 _ hs2 =>
              have h2 : Canonical s2.memories := (congrArg (fun x => Canonical x.1.memories) hs2).mp (hp _)
              have hv (l : List (Nat × SegRec × Nat)) := verifyAll_memories q obj img l s2 0
              split
              · next hs3 => exact (congrArg (fun x => Canonical x.1.memories) hs3).mp ((hv _).symm ▸ h2)
              · next s3 _ hs3 =>
                have h3 : Canonical s3.memories := (congrArg (fun x => Canonical x.1.memories) hs3).mp ((hv _).symm ▸ h2)
                simpa using h3

@[simp] theorem loadObject_canonical (s : State) (q : LoadEnv) (obj array : Word) (h : Canonical s.memories) :
    Canonical (loadObject s q obj array).1.memories := by
  have hr (t : State) (n : Nat) := readHost_memories t q obj n
  unfold loadObject
  dsimp only
  split
  · next s1 f hs =>
    have h1 : s1.memories = s.memories := by have := hr s 32; rwa [hs] at this
    exact h1 ▸ h
  · next s1 head hs =>
    have h1 : s1.memories = s.memories := by have := hr s 32; rwa [hs] at this
    split
    · next s2 f hs2 =>
      have h2 : s2.memories = s1.memories := by have := hr s1 (objLen head); rwa [hs2] at this
      exact (h2.trans h1) ▸ h
    · next s2 rest hs2 =>
      have h2 : s2.memories = s1.memories := by have := hr s1 (objLen head); rwa [hs2] at this
      have hc : Canonical s2.memories := (h2.trans h1) ▸ h
      split
      · exact hc
      · split
        · exact hc
        · exact loadImageOf_canonical _ _ _ _ _ hc

@[simp] theorem endRequest_memories (s : State) (status : Nat) : (endRequest s status).memories = s.memories := by
  simp [endRequest]

@[simp] theorem runRequest_canonical (s : State) (part core pa : Nat) (d : Nat → Nat) (h : Canonical s.memories) :
    Canonical (runRequest s part core pa d).1.memories := by
  unfold runRequest
  (repeat' split) <;> simp [h]

theorem handleRequest_canonical (s : State) (v : Word) (h : Canonical s.memories) :
    ∀ t, handleRequest s v = some t → Canonical t.memories := by
  intro t ht
  unfold handleRequest at ht
  dsimp only at ht
  split at ht
  · obtain rfl := Option.some.inj ht
    simpa using h
  · split at ht
    · obtain rfl := Option.some.inj ht
      simpa using h
    · split at ht
      · cases ht
      · obtain rfl := Option.some.inj ht
        refine (endRequest_memories _ _).symm ▸ writeDevice_canonical _ _ _ _ _ (runRequest_canonical _ _ _ _ _ ?_)
        simpa using h

@[simp] theorem execLoaderDoorbell_canonical (value : BitVec 64) (s : State) (h : Canonical s.memories) :
    NextCanonical (execLoaderDoorbell value s) := h

@[simp] theorem execLoadRequest_canonical (s : State) (h : Canonical s.memories) : NextCanonical (execLoadRequest s) := by
  unfold execLoadRequest
  split
  · exact h
  · next v r _ =>
    cases hr : handleRequest { s with doorbells := r } v with
    | none => exact h
    | some t => exact handleRequest_canonical { s with doorbells := r } v h t hr

end Sys2Proof.Machine
end

section
/-! SUPPORT for O55. What the functions of Machine/Dispatch.lean leave of the memories. -/

namespace Sys2Proof.Machine

theorem exec_canonical (i : Instr) {s : State} (h : Canonical s.memories) : NextCanonical (exec i s) :=
  match i with
  | .add .. => execAdd_canonical _ _ _ _ _ h
  | .sub .. => execSub_canonical _ _ _ _ _ h
  | .and .. => execAnd_canonical _ _ _ _ _ h
  | .or .. => execOr_canonical _ _ _ _ _ h
  | .xor .. => execXor_canonical _ _ _ _ _ h
  | .sll .. => execSll_canonical _ _ _ _ _ h
  | .srl .. => execSrl_canonical _ _ _ _ _ h
  | .sra .. => execSra_canonical _ _ _ _ _ h
  | .mul .. => execMul_canonical _ _ _ _ _ h
  | .mulhiS .. => execMulhiS_canonical _ _ _ _ _ h
  | .mulhiU .. => execMulhiU_canonical _ _ _ _ _ h
  | .quotS .. => execQuotS_canonical _ _ _ _ _ h
  | .quotU .. => execQuotU_canonical _ _ _ _ _ h
  | .rmdrS .. => execRmdrS_canonical _ _ _ _ _ h
  | .rmdrU .. => execRmdrU_canonical _ _ _ _ _ h
  | .addi .. => execAddi_canonical _ _ _ _ h
  | .andi .. => execAndi_canonical _ _ _ _ h
  | .ori .. => execOri_canonical _ _ _ _ h
  | .xori .. => execXori_canonical _ _ _ _ h
  | .slli .. => execSlli_canonical _ _ _ _ h
  | .srli .. => execSrli_canonical _ _ _ _ h
  | .srai .. => execSrai_canonical _ _ _ _ h
  | .himm .. => execHimm_canonical _ _ _ h
  | .adpc .. => execAdpc_canonical _ _ _ h
  | .cmpEq .. => execCmpEq_canonical _ _ _ _ _ h
  | .cmpNe .. => execCmpNe_canonical _ _ _ _ _ h
  | .cmpLt .. => execCmpLt_canonical _ _ _ _ _ h
  | .cmpGe .. => execCmpGe_canonical _ _ _ _ _ h
  | .cmpLtu .. => execCmpLtu_canonical _ _ _ _ _ h
  | .cmpGeu .. => execCmpGeu_canonical _ _ _ _ _ h
  | .flAnd .. => execFlAnd_canonical _ _ _ _ _ h
  | .flOr .. => execFlOr_canonical _ _ _ _ _ h
  | .flXor .. => execFlXor_canonical _ _ _ _ _ h
  | .flAndn .. => execFlAndn_canonical _ _ _ _ _ h
  | .flRd .. => execFlRd_canonical _ _ _ h
  | .flWr .. => execFlWr_canonical _ _ _ h
  | .cmpiEq .. => execCmpiEq_canonical _ _ _ _ h
  | .cmpiNe .. => execCmpiNe_canonical _ _ _ _ h
  | .cmpiLt .. => execCmpiLt_canonical _ _ _ _ h
  | .cmpiGe .. => execCmpiGe_canonical _ _ _ _ h
  | .cmpiLtu .. => execCmpiLtu_canonical _ _ _ _ h
  | .cmpiGeu .. => execCmpiGeu_canonical _ _ _ _ h
  | .br .. => execBr_canonical _ _ _ h
  | .brn .. => execBrn_canonical _ _ _ h
  | .call .. => execCall_canonical _ _ _ h
  | .jmpr .. => execJmpr_canonical _ _ _ _ h
  | .rep .. => execRep_canonical _ _ _ _ h
  | .loopO .. => execLoopO_canonical _ _ _ h
  | .loopI .. => execLoopI_canonical _ _ _ h
  | .lpclrO .. => execLpclrO_canonical _ h
  | .lpclrI .. => execLpclrI_canonical _ h
  | .loopm .. => execLoopm_canonical _ _ _ _ _ _ h
  | .yset .. => execYset_canonical _ _ _ h
  | .yclr .. => execYclr_canonical _ _ _ h
  | .ywait .. => execYwait_canonical _ _ _ h
  | .ywaitc .. => execYwaitc_canonical _ _ _ h
  | .ytas .. => execYtas_canonical _ _ _ _ h
  | .yrd .. => execYrd_canonical _ _ _ h
  | .tkpush .. => execTkpush_canonical _ _ _ h
  | .tkwait .. => execTkwait_canonical _ _ _ h
  | .tkcnt .. => execTkcnt_canonical _ _ _ _ h
  | .rset .. => execRset_canonical _ _ _ _ h
  | .rnext .. => execRnext_canonical _ _ _ _ h
  | .rsteal .. => execRsteal_canonical _ _ _ h
  | .rstat .. => execRstat_canonical _ _ _ h
  | .faddF64 .. => execFaddF64_canonical _ _ _ _ _ h
  | .fsubF64 .. => execFsubF64_canonical _ _ _ _ _ h
  | .fmulF64 .. => execFmulF64_canonical _ _ _ _ _ h
  | .fdivF64 .. => execFdivF64_canonical _ _ _ _ _ h
  | .fsqrtF64 .. => execFsqrtF64_canonical _ _ _ _ h
  | .fminF64 .. => execFminF64_canonical _ _ _ _ _ h
  | .fmaxF64 .. => execFmaxF64_canonical _ _ _ _ _ h
  | .fmacF64 .. => execFmacF64_canonical _ _ _ _ _ h
  | .fcmpEqF64 .. => execFcmpEqF64_canonical _ _ _ _ _ h
  | .fcmpLtF64 .. => execFcmpLtF64_canonical _ _ _ _ _ h
  | .fcmpLeF64 .. => execFcmpLeF64_canonical _ _ _ _ _ h
  | .scvtF64F32 .. => execScvtF64F32_canonical _ _ _ _ _ h
  | .scvtF64I64 .. => execScvtF64I64_canonical _ _ _ _ _ h
  | .scvtF64Ui64 .. => execScvtF64Ui64_canonical _ _ _ _ _ h
  | .scvtI64F64 .. => execScvtI64F64_canonical _ _ _ _ _ h
  | .scvtUi64F64 .. => execScvtUi64F64_canonical _ _ _ _ _ h
  | .scvtI32F64 .. => execScvtI32F64_canonical _ _ _ _ _ h
  | .fkindF64 .. => execFkindF64_canonical _ _ _ _ h
  | .fabsF64 .. => execFabsF64_canonical _ _ _ _ h
  | .fnegF64 .. => execFnegF64_canonical _ _ _ _ h
  | .fmsgnF64 .. => execFmsgnF64_canonical _ _ _ _ _ h
  | .faddF32 .. => execFaddF32_canonical _ _ _ _ _ h
  | .fsubF32 .. => execFsubF32_canonical _ _ _ _ _ h
  | .fmulF32 .. => execFmulF32_canonical _ _ _ _ _ h
  | .fdivF32 .. => execFdivF32_canonical _ _ _ _ _ h
  | .fsqrtF32 .. => execFsqrtF32_canonical _ _ _ _ h
  | .fminF32 .. => execFminF32_canonical _ _ _ _ _ h
  | .fmaxF32 .. => execFmaxF32_canonical _ _ _ _ _ h
  | .fmacF32 .. => execFmacF32_canonical _ _ _ _ _ h
  | .fcmpEqF32 .. => execFcmpEqF32_canonical _ _ _ _ _ h
  | .fcmpLtF32 .. => execFcmpLtF32_canonical _ _ _ _ _ h
  | .fcmpLeF32 .. => execFcmpLeF32_canonical _ _ _ _ _ h
  | .scvtF32F64 .. => execScvtF32F64_canonical _ _ _ _ _ h
  | .scvtF32I64 .. => execScvtF32I64_canonical _ _ _ _ _ h
  | .scvtF32Ui64 .. => execScvtF32Ui64_canonical _ _ _ _ _ h
  | .scvtI64F32 .. => execScvtI64F32_canonical _ _ _ _ _ h
  | .scvtUi64F32 .. => execScvtUi64F32_canonical _ _ _ _ _ h
  | .scvtI32F32 .. => execScvtI32F32_canonical _ _ _ _ _ h
  | .fkindF32 .. => execFkindF32_canonical _ _ _ _ h
  | .fabsF32 .. => execFabsF32_canonical _ _ _ _ h
  | .fnegF32 .. => execFnegF32_canonical _ _ _ _ h
  | .fmsgnF32 .. => execFmsgnF32_canonical _ _ _ _ _ h
  | .csrrd .. => execCsrrd_canonical _ _ _ h
  | .csrwr .. => execCsrwr_canonical _ _ _ _ h
  | .csrset .. => execCsrset_canonical _ _ _ _ h
  | .csrclr .. => execCsrclr_canonical _ _ _ _ h
  | .fork .. => execFork_canonical _ _ _ _ _ h
  | .join .. => execJoin_canonical _ _ h
  | .commit .. => execCommit_canonical _ h
  | .commitD .. => execCommitD_canonical _ _ _ h
  | .replay .. => execReplay_canonical _ _ h
  | .pset .. => execPset_canonical _ _ _ _ h
  | .pclr .. => execPclr_canonical _ _ _ _ h
  | .ptest .. => execPtest_canonical _ _ _ _ h
  | .hinit .. => execHinit_canonical _ _ _ _ h
  | .harrive .. => execHarrive_canonical _ _ _ _ h
  | .hwait .. => execHwait_canonical _ _ _ _ h
  | .hstat .. => execHstat_canonical _ _ _ _ h
  | .chainKick .. => execChainKick_canonical _ _ _ _ h
  | .chainStop .. => execChainStop_canonical _ _ _ h
  | .chainStat .. => execChainStat_canonical _ _ _ _ h
  | .qpost .. => execQpost_canonical _ _ _ _ h
  | .sigadd .. => execSigadd_canonical _ _ _ _ h
  | .ringpost .. => execRingpost_canonical _ _ _ _ h
  | .ares .. => execAres_canonical _ _ _ _ h
  | .aresh .. => execAresh_canonical _ _ _ _ h
  | .jeos .. => execJeos_canonical _ _ _ h
  | .fenceCore .. => execFenceCore_canonical _ _ h
  | .fenceDie .. => execFenceDie_canonical _ _ h
  | .fencePkg .. => execFencePkg_canonical _ _ h
  | .fenceSys .. => execFenceSys_canonical _ _ h
  | .endOp .. => execEndOp_canonical _ _ h
  | .ldG .. => execLdG_canonical _ _ _ _ _ _ _ h
  | .ldL .. => execLdL_canonical _ _ _ _ _ _ _ h
  | .vldG .. => execVldG_canonical _ _ _ _ _ _ h
  | .vldL .. => execVldL_canonical _ _ _ _ _ _ h
  | .gath .. => execGath_canonical _ _ _ _ _ _ _ h
  | .sbaseL .. => execSbaseL_canonical _ _ _ _ h
  | .sdim0L .. => execSdim0L_canonical _ _ _ _ h
  | .sdim1L .. => execSdim1L_canonical _ _ _ _ h
  | .sdim2L .. => execSdim2L_canonical _ _ _ _ h
  | .smodeL .. => execSmodeL_canonical _ _ _ _ h
  | .sbindL .. => execSbindL_canonical _ _ _ h
  | .sunbindL .. => execSunbindL_canonical _ _ _ h
  | .sstartL .. => execSstartL_canonical _ _ _ h
  | .sstopL .. => execSstopL_canonical _ _ _ h
  | .sseekL .. => execSseekL_canonical _ _ _ _ h
  | .sposL .. => execSposL_canonical _ _ _ _ h
  | .markL .. => execMarkL_canonical _ _ h
  | .cpin .. => execCpin_canonical _ _ _ _ h
  | .cpin2d .. => execCpin2d_canonical _ _ _ _ h
  | .cpinT .. => execCpinT_canonical _ _ _ _ h
  | .prefG .. => execPrefG_canonical _ _ _ h
  | .ssize .. => execSsize_canonical _ _ _ h
  | .smap .. => execSmap_canonical _ _ _ _ h
  | .sunmap .. => execSunmap_canonical _ _ _ h
  | .sflush .. => execSflush_canonical _ _ _ h
  | .sinval .. => execSinval_canonical _ _ _ h
  | .vadd .. => execVadd_canonical _ _ _ _ _ _ h
  | .vsub .. => execVsub_canonical _ _ _ _ _ _ h
  | .vmul .. => execVmul_canonical _ _ _ _ _ _ h
  | .vfma .. => execVfma_canonical _ _ _ _ _ _ h
  | .vfms .. => execVfms_canonical _ _ _ _ _ _ h
  | .vfnma .. => execVfnma_canonical _ _ _ _ _ _ h
  | .vmin .. => execVmin_canonical _ _ _ _ _ _ h
  | .vmax .. => execVmax_canonical _ _ _ _ _ _ h
  | .vdiv .. => execVdiv_canonical _ _ _ _ _ _ h
  | .vand .. => execVand_canonical _ _ _ _ _ _ h
  | .vor .. => execVor_canonical _ _ _ _ _ _ h
  | .vxor .. => execVxor_canonical _ _ _ _ _ _ h
  | .vsll .. => execVsll_canonical _ _ _ _ _ _ h
  | .vsrl .. => execVsrl_canonical _ _ _ _ _ _ h
  | .vsra .. => execVsra_canonical _ _ _ _ _ _ h
  | .vadds .. => execVadds_canonical _ _ _ _ _ _ h
  | .vsubs .. => execVsubs_canonical _ _ _ _ _ _ h
  | .vmulh .. => execVmulh_canonical _ _ _ _ _ _ h
  | .vabsd .. => execVabsd_canonical _ _ _ _ _ _ h
  | .vavg .. => execVavg_canonical _ _ _ _ _ _ h
  | .vcmpeq .. => execVcmpeq_canonical _ _ _ _ _ _ h
  | .vcmplt .. => execVcmplt_canonical _ _ _ _ _ _ h
  | .vcmple .. => execVcmple_canonical _ _ _ _ _ _ h
  | .vcmpne .. => execVcmpne_canonical _ _ _ _ _ _ h
  | .vsel .. => execVsel_canonical _ _ _ _ _ _ h
  | .vperm .. => execVperm_canonical _ _ _ _ _ _ h
  | .vzipLo .. => execVzipLo_canonical _ _ _ _ _ h
  | .vzipHi .. => execVzipHi_canonical _ _ _ _ _ h
  | .vuzpEv .. => execVuzpEv_canonical _ _ _ _ _ h
  | .vuzpOd .. => execVuzpOd_canonical _ _ _ _ _ h
  | .vslide .. => execVslide_canonical _ _ _ _ _ _ _ h
  | .vabs .. => execVabs_canonical _ _ _ _ _ h
  | .vneg .. => execVneg_canonical _ _ _ _ _ h
  | .vsqrt .. => execVsqrt_canonical _ _ _ _ _ h
  | .vrecip .. => execVrecip_canonical _ _ _ _ _ h
  | .vrsqrt .. => execVrsqrt_canonical _ _ _ _ _ h
  | .vnot .. => execVnot_canonical _ _ _ _ _ h
  | .vclz .. => execVclz_canonical _ _ _ _ _ h
  | .vpopc .. => execVpopc_canonical _ _ _ _ _ h
  | .vrint .. => execVrint_canonical _ _ _ _ _ h
  | .vclass .. => execVclass_canonical _ _ _ _ _ h
  | .vmov .. => execVmov_canonical _ _ _ _ _ h
  | .vcvt .. => execVcvt_canonical _ _ _ _ _ _ _ h
  | .vredSum .. => execVredSum_canonical _ _ _ _ _ h
  | .vredMin .. => execVredMin_canonical _ _ _ _ _ h
  | .vredMax .. => execVredMax_canonical _ _ _ _ _ h
  | .vredAnd .. => execVredAnd_canonical _ _ _ _ _ h
  | .vredOr .. => execVredOr_canonical _ _ _ _ _ h
  | .vredXor .. => execVredXor_canonical _ _ _ _ _ h
  | .vredSumw .. => execVredSumw_canonical _ _ _ _ _ h
  | .vscanSum .. => execVscanSum_canonical _ _ _ _ _ h
  | .vscanMin .. => execVscanMin_canonical _ _ _ _ _ h
  | .vscanMax .. => execVscanMax_canonical _ _ _ _ _ h
  | .mand .. => execMand_canonical _ _ _ _ h
  | .mor .. => execMor_canonical _ _ _ _ h
  | .mxor .. => execMxor_canonical _ _ _ _ h
  | .mandn .. => execMandn_canonical _ _ _ _ h
  | .mlen .. => execMlen_canonical _ _ _ h
  | .mpopc .. => execMpopc_canonical _ _ _ h
  | .mfirst .. => execMfirst_canonical _ _ _ h
  | .mtov .. => execMtov_canonical _ _ _ h
  | .vsplat .. => execVsplat_canonical _ _ _ _ _ h
  | .vext .. => execVext_canonical _ _ _ _ _ h
  | .vins .. => execVins_canonical _ _ _ _ _ h
  | .mxnest .. => execMxnest_canonical _ _ _ h
  | .mxgo .. => execMxgo_canonical _ _ h
  | .mxwait .. => execMxwait_canonical _ _ h
  | .mxstat .. => execMxstat_canonical _ _ _ h
  | .mxdrain .. => execMxdrain_canonical _ _ _ _ _ h
  | .mxzero .. => execMxzero_canonical _ _ _ h
  | .mxmma .. => execMxmma_canonical _ _ _ _ _ h
  | .tdef .. => execTdef_canonical _ _ _ _ h
  | .tvalid .. => execTvalid_canonical _ _ _ h
  | .tinval .. => execTinval_canonical _ _ _ h
  | .tstat .. => execTstat_canonical _ _ _ _ h
  | .twait .. => execTwait_canonical _ _ _ h
  | .walkAdd .. => execWalkAdd_canonical _ _ _ h
  | .walkMin .. => execWalkMin_canonical _ _ _ h
  | .walkMax .. => execWalkMax_canonical _ _ _ h
  | .walkAnd .. => execWalkAnd_canonical _ _ _ h
  | .walkOr .. => execWalkOr_canonical _ _ _ h
  | .walkXor .. => execWalkXor_canonical _ _ _ h
  | .walkPopc .. => execWalkPopc_canonical _ _ _ h
  | .walkHist .. => execWalkHist_canonical _ _ _ h
  | .vview .. => execVview_canonical _ _ _ h
  | .aview .. => execAview_canonical _ _ _ h
  | .vigilMx .. => execVigilMx_canonical _ _ _ _ _ h
  | .vigilVec .. => execVigilVec_canonical _ _ _ _ h
  | .vigilRd .. => execVigilRd_canonical _ _ _ _ h
  | .amdef .. => execAmdef_canonical _ _ _ _ h
  | .aset .. => execAset_canonical _ _ _ _ h
  | .astage .. => execAstage_canonical _ _ _ _ h
  | .aerr .. => execAerr_canonical _ _ _ h
  | .adec .. => execAdec_canonical _ _ _ h
  | .aget .. => execAget_canonical _ _ _ _ h
  | .aput .. => execAput_canonical _ _ _ _ h
  | .astat .. => execAstat_canonical _ _ _ _ h
  | .aoff .. => execAoff_canonical _ _ _ h
  | .await .. => execAwait_canonical _ _ h
  | .shdecl .. => execShdecl_canonical _ _ _ _ h
  | .apxb .. => execApxb_canonical _ _ _ h
  | .apxe .. => execApxe_canonical _ _ _ h
  | .shinv .. => execShinv_canonical _ _ _ h
  | .shwld .. => execShwld_canonical _ _ _ _ h
  | .shwst .. => execShwst_canonical _ _ _ _ h
  | .shstat .. => execShstat_canonical _ _ _ _ h
  | .shmean .. => execShmean_canonical _ _ _ _ h
  | .stG .. => execStG_canonical _ _ _ _ _ _ h
  | .stL .. => execStL_canonical _ _ _ _ _ _ h
  | .vstG .. => execVstG_canonical _ _ _ _ _ _ h
  | .vstL .. => execVstL_canonical _ _ _ _ _ _ h
  | .scat .. => execScat_canonical _ _ _ _ _ _ _ h
  | .sbaseS .. => execSbaseS_canonical _ _ _ _ h
  | .sdim0S .. => execSdim0S_canonical _ _ _ _ h
  | .sdim1S .. => execSdim1S_canonical _ _ _ _ h
  | .sdim2S .. => execSdim2S_canonical _ _ _ _ h
  | .smodeS .. => execSmodeS_canonical _ _ _ _ h
  | .sbindS .. => execSbindS_canonical _ _ _ h
  | .sunbindS .. => execSunbindS_canonical _ _ _ h
  | .sstartS .. => execSstartS_canonical _ _ _ h
  | .sstopS .. => execSstopS_canonical _ _ _ h
  | .sseekS .. => execSseekS_canonical _ _ _ _ h
  | .sposS .. => execSposS_canonical _ _ _ _ h
  | .markS .. => execMarkS_canonical _ _ h
  | .cpout .. => execCpout_canonical _ _ _ _ h
  | .cpout2d .. => execCpout2d_canonical _ _ _ _ h
  | .cpoutT .. => execCpoutT_canonical _ _ _ _ h
  | .amoAdd .. => execAmoAdd_canonical _ _ _ _ _ _ h
  | .amoAnd .. => execAmoAnd_canonical _ _ _ _ _ _ h
  | .amoOr .. => execAmoOr_canonical _ _ _ _ _ _ h
  | .amoXor .. => execAmoXor_canonical _ _ _ _ _ _ h
  | .amoMax .. => execAmoMax_canonical _ _ _ _ _ _ h
  | .amoMaxu .. => execAmoMaxu_canonical _ _ _ _ _ _ h
  | .amoSwap .. => execAmoSwap_canonical _ _ _ _ _ _ h
  | .amoCasD .. => execAmoCasD_canonical _ _ _ _ _ h
  | .amoCasQ .. => execAmoCasQ_canonical _ _ _ _ _ h
  | .tret .. => execTret_canonical _ _ h
  | .tretN .. => execTretN_canonical _ _ h
  | .ucall .. => execUcall_canonical _ _ h
  | .svc .. => execSvc_canonical _ _ _ _ h
  | .tlbinv .. => execTlbinv_canonical _ _ _ _ h
  | .scsrwr .. => execScsrwr_canonical _ _ _ _ h
  | .segset .. => execSegset_canonical _ _ _ _ h
  | .segclr .. => execSegclr_canonical _ _ _ h
  | .ctxout .. => execCtxout_canonical _ _ _ _ h
  | .ctxin .. => execCtxin_canonical _ _ _ _ h
  | .asset .. => execAsset_canonical _ _ _ _ h
  | .pinfo .. => execPinfo_canonical _ _ _ _ h
  | .pscrub .. => execPscrub_canonical _ _ _ h
  | .errrd .. => execErrrd_canonical _ _ _ _ h
  | .hrmark .. => execHrmark_canonical _ _ _ h
  | .hint .. => execHint_canonical _ _ h
  | .emulMajor7c .. => execEmulMajor7c_canonical _ _ h
  | .emulMajor7d .. => execEmulMajor7d_canonical _ _ h
  | .emulMajor7e .. => execEmulMajor7e_canonical _ _ h
  | .undefinedMajor .. => execUndefinedMajor_canonical _ _ h
  | .streamFetch .. => execStreamFetch_canonical _ _ _ h
  | .streamOutboundWrite .. => execStreamOutboundWrite_canonical _ _ _ h
  | .translationWalk .. => execTranslationWalk_canonical _ _ _ _ h
  | .invalidationApply .. => execInvalidationApply_canonical _ _ h
  | .matrixOpRun .. => execMatrixOpRun_canonical _ _ h
  | .fetcherCopy .. => execFetcherCopy_canonical _ _ _ h
  | .walkRun .. => execWalkRun_canonical _ _ h
  | .vigilCheck .. => execVigilCheck_canonical _ _ h
  | .almanacStep .. => execAlmanacStep_canonical _ _ h
  | .shepherdOperation .. => execShepherdOperation_canonical _ _ h
  | .copyPieceLand .. => execCopyPieceLand_canonical _ _ h
  | .outboundCopyExecute .. => execOutboundCopyExecute_canonical _ _ h
  | .outboundCopyComplete .. => execOutboundCopyComplete_canonical _ _ h
  | .copyFreeze .. => execCopyFreeze_canonical _ _ h
  | .freezeResume .. => execFreezeResume_canonical _ _ h
  | .freezeUnresolvable .. => execFreezeUnresolvable_canonical _ _ h
  | .faultServiceAnswer .. => execFaultServiceAnswer_canonical _ _ _ h
  | .chainEnd .. => execChainEnd_canonical _ _ _ h
  | .chainCopy .. => execChainCopy_canonical _ _ _ h
  | .chainCopy2d .. => execChainCopy2d_canonical _ _ _ h
  | .chainWait .. => execChainWait_canonical _ _ _ h
  | .chainPost .. => execChainPost_canonical _ _ _ h
  | .chainLink .. => execChainLink_canonical _ _ _ h
  | .chainFlag .. => execChainFlag_canonical _ _ _ h
  | .chainArrive .. => execChainArrive_canonical _ _ _ h
  | .pendingKickStart .. => execPendingKickStart_canonical _ _ _ h
  | .postDeparture .. => execPostDeparture_canonical _ _ h
  | .qpostDelivery .. => execQpostDelivery_canonical _ _ h
  | .hostAtomicopCompletion .. => execHostAtomicopCompletion_canonical _ _ _ h
  | .peerWriteAck .. => execPeerWriteAck_canonical _ _ h
  | .peerRefused .. => execPeerRefused_canonical _ _ h
  | .remoteHurdleArrival .. => execRemoteHurdleArrival_canonical _ _ h
  | .stealRequestArrival .. => execStealRequestArrival_canonical _ _ h
  | .stealGrant .. => execStealGrant_canonical _ _ h
  | .stealRefusal .. => execStealRefusal_canonical _ _ h
  | .detectedErrorReplay .. => execDetectedErrorReplay_canonical _ _ _ h
  | .unitAdoption .. => execUnitAdoption_canonical _ _ _ h
  | .outOfRegionError .. => execOutOfRegionError_canonical _ _ h
  | .snapshotStoreError .. => execSnapshotStoreError_canonical _ _ h
  | .dieFailover .. => execDieFailover_canonical _ _ h
  | .thermalTrip .. => execThermalTrip_canonical _ _ h
  | .thermalThrottle .. => execThermalThrottle_canonical _ _ h
  | .powerEstimate .. => execPowerEstimate_canonical _ _ _ h
  | .boostInterval .. => execBoostInterval_canonical _ h
  | .dtimeSync .. => execDtimeSync_canonical _ _ h
  | .patrolScrub .. => execPatrolScrub_canonical _ _ h
  | .glitchDetect .. => execGlitchDetect_canonical _ h
  | .packageReset .. => execPackageReset_canonical _ _ h
  | .firmwareRestart .. => execFirmwareRestart_canonical _ _ _ h
  | .firmwareUpdate .. => execFirmwareUpdate_canonical _ _ _ _ h
  | .flrOwner .. => execFlrOwner_canonical _ _ h
  | .flrQueueFunction .. => execFlrQueueFunction_canonical _ _ h
  | .portalDmwr .. => execPortalDmwr_canonical _ _ _ _ h
  | .portalPostedWrite .. => execPortalPostedWrite_canonical _ _ _ _ h
  | .portalWake .. => execPortalWake_canonical _ _ _ h
  | .queueActivate .. => execQueueActivate_canonical _ _ _ h
  | .queueStop .. => execQueueStop_canonical _ _ _ h
  | .queueUnmap .. => execQueueUnmap_canonical _ _ _ h
  | .queueUnmapped .. => execQueueUnmapped_canonical _ _ _ h
  | .headConditionSatisfied .. => execHeadConditionSatisfied_canonical _ _ _ h
  | .queueFetch .. => execQueueFetch_canonical _ _ _ h
  | .nopPacket .. => execNopPacket_canonical _ _ _ h
  | .launchPacket .. => execLaunchPacket_canonical _ _ _ h
  | .nodePacket .. => execNodePacket_canonical _ _ _ h
  | .waitAllPacket .. => execWaitAllPacket_canonical _ _ _ h
  | .waitAnyPacket .. => execWaitAnyPacket_canonical _ _ _ h
  | .signalPacket .. => execSignalPacket_canonical _ _ _ h
  | .cancelPacket .. => execCancelPacket_canonical _ _ _ h
  | .gangPacket .. => execGangPacket_canonical _ _ _ h
  | .gangMessageReceive .. => execGangMessageReceive_canonical _ _ _ _ _ h
  | .gangGoDecision .. => execGangGoDecision_canonical _ _ _ h
  | .gangRelease .. => execGangRelease_canonical _ _ _ h
  | .dispatch .. => execDispatch_canonical _ _ h
  | .candidateAged .. => execCandidateAged_canonical _ _ _ h
  | .standingClaim .. => execStandingClaim_canonical _ _ _ h
  | .unitCompletion .. => execUnitCompletion_canonical _ _ h
  | .msixMessage .. => execMsixMessage_canonical _ _ h
  | .preemptionRequest .. => execPreemptionRequest_canonical _ _ h
  | .contextSwitch .. => execContextSwitch_canonical _ _ h
  | .flitCrcFailure .. => execFlitCrcFailure_canonical _ _ _ h
  | .linkTrainingTimeout .. => execLinkTrainingTimeout_canonical _ _ _ h
  | .hostMemoryAccess .. => execHostMemoryAccess_canonical _ _ _ _ h
  | .loaderDoorbell .. => execLoaderDoorbell_canonical _ _ h
  | .loadRequest .. => execLoadRequest_canonical _ h
  | .fenWrite .. => execFenWrite_canonical _ _ _ h
  | .ringEnable .. => execRingEnable_canonical _ _ _ h
  | .mirroredSizeSet .. => execMirroredSizeSet_canonical _ _ h
  | .hostRegisterWrite .. => execHostRegisterWrite_canonical _ _ _ h
  | .tetherPeerAccess .. => execTetherPeerAccess_canonical _ _ _ _ h
  | .peerAtomicCompletion .. => execPeerAtomicCompletion_canonical _ _ h
  | .linkTrainingComplete .. => execLinkTrainingComplete_canonical _ _ _ h
  | .thermalThrottleEnd .. => execThermalThrottleEnd_canonical _ _ h
  | .ownerProvisioning .. => execOwnerProvisioning_canonical _ _ _ h

end Sys2Proof.Machine
end

section
/-! SUPPORT for O55. What the functions of Machine/Run.lean leave of the memories. -/

namespace Sys2Proof.Machine

@[simp] theorem repetition_canonical (s : State) (p : Word32) (k : Nat) (h : Canonical s.memories) : NextCanonical (repetition s p k) := by
  unfold repetition
  dsimp only
  split
  · simp [h]
  · split
    · simp [h]
    · split
      · simp [h]
      · split
        · simp [h]
        · split
          · simp [h]
          · exact exec_canonical _ (by simpa using h)

@[simp] theorem issueSplit_canonical (s : State) (h : Canonical s.memories) : NextCanonical (issueSplit s) := by
  unfold issueSplit
  dsimp only
  split
  · simp [h]
  · split
    · split
      · simp [h]
      · exact exec_canonical _ h
    · split
      · simp [h]
      · split <;> simp [h]

@[simp] theorem issueSlot_canonical (pre : Core) (s : State) (cl : Cluster) (h : Canonical s.memories) :
    NextCanonical (issueSlot pre s cl) := by
  have hs : Canonical ({ s with focusCl := cl } : State).memories := h
  have ht (e : Env) (t : Trap) : NextCanonical (conclude { s with focusCl := cl } e (.raise t)) := conclude_canonical _ _ _ hs trivial
  unfold issueSlot
  dsimp only
  split
  · exact hs
  · split
    · split
      · exact hs
      · exact ht _ _
    · split
      · exact ht _ _
      · split
        · exact hs
        · split
          · exact ht _ _
          · exact exec_canonical _ hs

@[simp] theorem issueSlots_canonical (pre : Core) (l : List Cluster) :
    ∀ s : State, Canonical s.memories → NextCanonical (issueSlots pre s l) := by
  induction l with
  | nil => exact fun _ h => h
  | cons cl r ih =>
    intro s h
    have hi := issueSlot_canonical pre s cl h
    unfold issueSlots
    split
    · next hs => rw [hs] at hi; exact ih _ hi
    · exact hi

@[simp] theorem keepBundle_memories (s : State) (ci : Nat) (pre : Core) : (keepBundle s ci pre).memories = s.memories := by
  unfold keepBundle
  split <;> rfl

@[simp] theorem finishBundle_canonical (s0 s : State) (b : Bundle) (hs0 : Canonical s0.memories) (hs : Canonical s.memories) :
    Canonical (finishBundle s0 s b).memories := by
  unfold finishBundle
  dsimp only
  (repeat' split) <;> simp [hs0, hs]

@[simp] theorem openBundle_memories (s : State) : (openBundle s).memories = s.memories := by
  simp [openBundle]

@[simp] theorem issueJoint_canonical (s : State) (h : Canonical s.memories) : NextCanonical (issueJoint s) := by
  have hi := issueSlots_canonical (getCore s s.focusCore) [.c, .l, .k, .s] (openBundle s) (by simpa using h)
  unfold issueJoint
  dsimp only
  split
  · split
    · next s' hs =>
      have h1 : Canonical s'.memories := by rwa [hs] at hi
      split <;> simp [h, h1]
    · exact hi
  · simp [h]

@[simp] theorem fillBuffer_memories (s : State) (ci : Nat) : (fillBuffer s ci).memories = s.memories := by
  unfold fillBuffer
  dsimp only
  (repeat' split) <;> simp

@[simp] theorem fetchAhead_memories (s : State) : (fetchAhead s).memories = s.memories := by
  simp [fetchAhead, memories_foldl]

@[simp] theorem noteWalk_memories (s t : State) (ci : Nat) : (noteWalk s t ci).memories = t.memories := by
  unfold noteWalk
  dsimp only
  (repeat' split) <;> simp

@[simp] theorem issueNext_canonical (s : State) (h : Canonical s.memories) : NextCanonical (issueNext s) := by
  unfold issueNext
  (repeat' split) <;> simp [h]

@[simp] theorem takeEngTrap_memories (s : State) (ci : Nat) (t : EngTrap) : (takeEngTrap s ci t).memories = s.memories := by
  unfold takeEngTrap
  split <;> simp

@[simp] theorem issueFocus_canonical (s : State) (h : Canonical s.memories) : NextCanonical (issueFocus s) := by
  have hn := issueNext_canonical s h
  unfold issueFocus
  dsimp only
  split
  · exact h
  · split
    · simp [h]
    · split
      · next hs => rw [hs] at hn; simpa using hn
      · exact hn

@[simp] theorem passNs_memories (s : State) (ns : Nat) : (passNs s ns).memories = s.memories := by
  simp [passNs]

@[simp] theorem passTime_memories (s : State) (ns cc : Nat) : (passTime s ns cc).memories = s.memories := by
  simp [passTime]

theorem performed_canonical {s t : State} {q : Queued} (h : Canonical s.memories) (ht : performed s q = some t) : Canonical t.memories := by
  have he := exec_canonical q.instr (s := { s with focusCore := q.core, focusCl := q.cl, bundle := some (freshBundle q.pre) }) h
  unfold performed at ht
  split at ht
  · next hs =>
    rw [hs] at he
    split at ht
    · split at ht
      · obtain rfl := Option.some.inj ht
        simpa using he
      · cases ht
    · cases ht
  · cases ht

theorem performed_getD_canonical (s : State) (q : Queued) (h : Canonical s.memories) : Canonical ((performed s q).getD s).memories := by
  cases hp : performed s q with
  | none => exact h
  | some t => exact performed_canonical h hp

@[simp] theorem performAll_canonical (s : State) (h : Canonical s.memories) : Canonical (performAll s).memories :=
  canonical_foldl performed_getD_canonical s.accesses s h

@[simp] theorem performNext_canonical (s : State) (ci : Nat) (cl : Cluster) (h : Canonical s.memories) :
    Canonical (performNext s ci cl).memories := by
  unfold performNext
  split
  · exact performed_getD_canonical _ _ h
  · exact h

@[simp] theorem lateTokens_memories (s : State) (l : List (Cluster × Option (Queued × Tk))) : (lateTokens s l).memories = s.memories := by
  refine memories_foldl (fun t x => ?_) l s
  split <;> simp

theorem lateIssue_canonical {s t : State} {l : List (Cluster × Option (Queued × Tk))} (h : Canonical s.memories)
    (ht : lateIssue s l = some t) : Canonical t.memories := by
  have hw (ws : List Cluster) := issueSlots_canonical (getCore s s.focusCore) ws (openBundle s) (by simpa using h)
  unfold lateIssue at ht
  dsimp only at ht
  split at ht
  · next u hu =>
    have hc : Canonical u.memories := by
      rw [← nextCanonical_next, ← hu]
      split
      · simpa using h
      · exact issueSplit_canonical s h
      · split
        · next v hv =>
          have h1 : Canonical v.memories := (congrArg NextCanonical hv).mp (hw _)
          split <;> simp [h, h1]
        · exact hw _
    obtain rfl := Option.some.inj ht
    simpa using hc
  · cases ht

@[simp] theorem issueLate_canonical (s : State) (h : Canonical s.memories) : NextCanonical (issueLate s) := by
  have hf : NextCanonical (issueFocus (performAll s)) := issueFocus_canonical _ (performAll_canonical s h)
  unfold issueLate
  dsimp only
  split
  · exact hf
  · split
    · exact h
    · split
      · exact hf
      · next hu =>
        split
        · exact lateIssue_canonical (by simpa using h) hu
        · exact hf

@[simp] theorem spoilHome_memories (s : State) (ci line word : Nat) : (spoilHome s ci line word).memories = s.memories := by
  simp [spoilHome]

@[simp] theorem upset_memories (s : State) (x : Upset) : (upset s x).memories = s.memories := by
  unfold upset
  (repeat' split) <;> simp

@[simp] theorem runMove_canonical (s : State) (m : Move) (h : Canonical s.memories) : NextCanonical (runMove s m) := by
  unfold runMove
  split
  · split
    · exact issueFocus_canonical _ (performAll_canonical _ (by simpa using h))
    · trivial
  · split
    · exact issueLate_canonical _ (by simpa using h)
    · trivial
  · split
    · simp [h]
    · trivial
  · simp [h]
  · split
    · trivial
    · split
      · simp [h]
      · exact exec_canonical _ (performAll_canonical _ (by simpa using h))

@[simp] theorem defaultStep_canonical (s : State) (h : Canonical s.memories) : NextCanonical (defaultStep s) := by
  have hm := runMove_canonical s { act := defaultAct s, ns := Config.freeNs s.tick, cc := Config.freeCc s.tick } h
  unfold defaultStep
  split
  · next t hs =>
    have ht : Canonical t.memories := (congrArg NextCanonical hs).mp hm
    split
    · exact ht
    · exact ht
  · exact hm

@[simp] theorem nextStep_canonical (s : State) (h : Canonical s.memories) : NextCanonical (nextStep s) := by
  unfold nextStep
  split
  · exact runMove_canonical _ _ h
  · exact defaultStep_canonical s h

end Sys2Proof.Machine
end

section
/-! SUPPORT for O55. What the functions of Machine/Step.lean leave of the memories. -/

namespace Sys2Proof.Machine

theorem step_canonical (s : State) (h : Canonical s.memories) : NextCanonical (step s) := nextStep_canonical s h

end Sys2Proof.Machine
end

section
/-! O55: every step keeps the three memories in canonical form. -/

namespace Sys2Proof.Machine

/-- Settles O55: every write of a step goes through `memWrite`, which keeps the canonical form, or is the empty memory of a package reset. -/
theorem stepKeepsMemory : Obligations.StepKeepsMemory := by
  intro s t h ht
  rw [memWf_iff] at h ⊢
  exact (congrArg NextCanonical ht).mp (step_canonical s h)

end Sys2Proof.Machine
end

section
/-! O35. `apxb` and `apxe` (R307). -/

namespace Sys2Proof.Machine

/-- Whether `apxb` replaces a region: its slot is ACTIVE, and this is no occurrence that it samples. -/
def shReplaces (z : ShSlot) : Bool := z.st == .active && z.scnt + 1 != shSamp z.decl

/-- Where a region that `apxb` replaces ends. -/
def apxbTarget (e : Env) (s : State) (k : Nat) : Option Word :=
  if shReplaces (shOf e.rd.a k) then findApxe s e.ci e.addr k else none

section Begins

variable {e : Env} {s t : State} {k : Nat} {x : BitVec 6} {tk : Tk} {vs : List (List Lane)} {xs : List Nat} {o : Option Word}

theorem shReplaces_active {z : ShSlot} (h : shReplaces z = true) : z.st = .active := by
  simp only [shReplaces, Bool.and_eq_true, beq_iff_eq] at h
  exact h.1

/-- `apxb` where no slot is open, and a region that it replaces has an end. -/
theorem execApxb_begins (h : MayIssue (encodeNat (.apxb x tk)) [] 0 tk s)
    (hclosed : ∀ j < 16, (shOf (issueEnv tk s).rd.a j).opened = false)
    (htarget : shReplaces (shOf (issueEnv tk s).rd.a x.toNat) = true →
      (findApxe (issued tk s) s.focusCore (issueEnv tk s).addr x.toNat).isSome = true)
    (hs : (if (shOf (issueEnv tk s).rd.a x.toNat).st = .off then Res.done (shOpen (issued tk s) s.focusCore x.toNat)
      else if (issueEnv tk s).rd.a.segCur ≠ (shOf (issueEnv tk s).rd.a x.toNat).seg then
        .done (modArch (shOpen (issued tk s) s.focusCore x.toNat) s.focusCore fun a => putSh a x.toNat { shOf a x.toNat with st := .invalid })
      else shBegin (issueEnv tk s) (issued tk s) x.toNat (apxbTarget (issueEnv tk s) (issued tk s) x.toNat)) = .done t) :
    exec (.apxb x tk) s = .next (goOn tk s t) := by
  refine execE_completes (exec_apxb x tk s) h ?_
  have hopen : ((List.range 16).any fun j => (shOf (issueEnv tk s).rd.a j).opened) = false := by
    simpa using hclosed
  have hend : ¬ (shReplaces (shOf (issueEnv tk s).rd.a x.toNat) &&
      (apxbTarget (issueEnv tk s) (issued tk s) x.toNat).isNone) = true := by
    intro hc
    obtain ⟨hr, hn⟩ := Bool.and_eq_true_iff.mp hc
    have hf := htarget hr
    simp only [apxbTarget, hr, if_true] at hn
    exact absurd (Option.isNone_iff_eq_none.mp hn) (Option.isSome_iff_ne_none.mp hf)
  exact ((if_neg (by rw [hopen]; decide)).trans (if_neg hend)).trans hs

/-- The vector registers that `apxb` reads or writes are held by no operation of the matrix queue. -/
theorem apxbNames_free (hi : mxHolds e.rd (getCore s e.ci) (shVi (shOf e.rd.a k).decl) = false)
    (ho : shReplaces (shOf e.rd.a k) = true → mxHolds e.rd (getCore s e.ci) (shVo (shOf e.rd.a k).decl) = false) :
    (if (apxbTarget e s k).isSome then [shVi (shOf e.rd.a k).decl, shVo (shOf e.rd.a k).decl] else [shVi (shOf e.rd.a k).decl]).any
      (mxHolds e.rd (getCore s e.ci)) = false := by
  cases hr : shReplaces (shOf e.rd.a k) with
  | true => split <;> simp [hi, ho hr]
  | false => simp [apxbTarget, hr, hi]

section Sources

variable (hf : (if o.isSome then [shVi (shOf e.rd.a k).decl, shVo (shOf e.rd.a k).decl] else [shVi (shOf e.rd.a k).decl]).any
    (mxHolds e.rd (getCore s e.ci)) = false)
  (hv : vecSources e s [shVi (shOf e.rd.a k).decl] = some (vs, t))
include hf hv

/-- A poisoned input, or a slot that neither observes nor replaces, opens the slot alone. -/
theorem shBegin_opens (h : laneValues (nth [] vs 0) (shNi (shOf e.rd.a k).decl) = none ∨
    (shOf e.rd.a k).st = .train ∨ (shOf e.rd.a k).st = .candidate ∨ (shOf e.rd.a k).st = .invalid) :
    shBegin e s k o = .done (shOpen t e.ci k) := by
  unfold shBegin
  rw [kVec_sources hf hv]
  cases hl : laneValues (nth [] vs 0) (shNi (shOf e.rd.a k).decl) with
  | none => rfl
  | some l =>
    rw [hl] at h
    rcases h with h | h | h | h
    · cases h
    all_goals simp only [h]

/-- A slot that observes, or has fallen back, captures the inputs. -/
theorem shBegin_captures (hl : laneValues (nth [] vs 0) (shNi (shOf e.rd.a k).decl) = some xs)
    (h : (shOf e.rd.a k).st = .observe ∨ (shOf e.rd.a k).st = .fallback) :
    shBegin e s k o = .done (modCore (shOpen t e.ci k) e.ci fun c =>
      { c with shcap := some { slot := k, cap := xs.map (BitVec.ofNat 32), smp := false, ys := [] } }) := by
  unfold shBegin
  rw [kVec_sources hf hv]
  rcases h with h | h <;> simp only [hl, h]

/-- A slot that replaces samples the surrogate beside the inputs, on the occurrence that it samples. -/
theorem shBegin_samples (hl : laneValues (nth [] vs 0) (shNi (shOf e.rd.a k).decl) = some xs) (ho : o = none)
    (h : (shOf e.rd.a k).st = .active) :
    shBegin e s k o = .done (modArch (modCore (shOpen t e.ci k) e.ci fun c =>
      { c with shcap := some { slot := k, cap := xs.map (BitVec.ofNat 32), smp := true,
                               ys := (shForward (getCore t e.ci) (shOf e.rd.a k).decl xs).map (BitVec.ofNat 32) } })
      e.ci fun a => putSh a k { shOf a k with scnt := 0 }) := by
  unfold shBegin
  rw [kVec_sources hf hv]
  simp only [hl, h, ho]

/-- On every other occurrence it writes the surrogate's outputs and goes to the region's end. -/
theorem shBegin_replaces {target : Word} (hl : laneValues (nth [] vs 0) (shNi (shOf e.rd.a k).decl) = some xs) (ho : o = some target)
    (h : (shOf e.rd.a k).st = .active) :
    shBegin e s k o = .done (modCore (shOpen t e.ci k) e.ci fun c =>
      let y := (shForward (getCore t e.ci) (shOf e.rd.a k).decl xs).map (BitVec.ofNat 32)
      let v := y.map (fun b => ({ data := b, psn := false } : Lane)) ++
        (readVAs e.rd.a c (shVo (shOf e.rd.a k).decl)).drop (shNo (shOf e.rd.a k).decl)
      let c1 := writeV e.rd.a c (shVo (shOf e.rd.a k).decl) v
      setPc { c1 with a := putSh c1.a k { shOf c1.a k with scnt := ((shOf e.rd.a k).scnt + 1) % 2 ^ 16, opened := false } }
        (cnum e.cl) target) := by
  unfold shBegin
  rw [kVec_sources hf hv]
  simp only [hl, h, ho]

end Sources

end Begins

/-- `apxb` in the segment that has declared its slot. -/
theorem execApxb_declared {s t : State} {x : BitVec 6} {tk : Tk} (h : MayIssue (encodeNat (.apxb x tk)) [] 0 tk s)
    (hclosed : ∀ j < 16, (shOf (issueEnv tk s).rd.a j).opened = false)
    (htarget : shReplaces (shOf (issueEnv tk s).rd.a x.toNat) = true →
      (findApxe (issued tk s) s.focusCore (issueEnv tk s).addr x.toNat).isSome = true)
    (hoff : (shOf (issueEnv tk s).rd.a x.toNat).st ≠ .off) (hseg : (issueEnv tk s).rd.a.segCur = (shOf (issueEnv tk s).rd.a x.toNat).seg)
    (hs : shBegin (issueEnv tk s) (issued tk s) x.toNat (apxbTarget (issueEnv tk s) (issued tk s) x.toNat) = .done t) :
    exec (.apxb x tk) s = .next (goOn tk s t) :=
  execApxb_begins h hclosed htarget ((if_neg hoff).trans ((if_neg (not_not.mpr hseg)).trans hs))

/-- The state in which `apxe` has closed its slot. -/
def apxeClosed (tk : Tk) (s : State) (x : BitVec 6) : State :=
  modArch (issued tk s) s.focusCore fun a => putSh a x.toNat { shOf (issueEnv tk s).rd.a x.toNat with opened := false }

section Ends

variable {s t : State} {x : BitVec 6} {tk : Tk} (h : MayIssue (encodeNat (.apxe x tk)) [] 0 tk s)
  (hopen : (shOf (issueEnv tk s).rd.a x.toNat).opened = true)
include h hopen

/-- `apxe` of a region that has captured nothing closes the slot. -/
theorem execApxe_closes (hcap : (getCore (issued tk s) s.focusCore).shcap = none) :
    exec (.apxe x tk) s = .next (goOn tk s (apxeClosed tk s x)) := by
  refine execE_completes (exec_apxe x tk s) h ((if_neg ?_).trans ?_)
  · exact fun hc => absurd hopen (Bool.eq_false_iff.mp (Bool.not_eq_true' _ ▸ hc))
  · show (match (getCore (issued tk s) s.focusCore).shcap with | none => _ | some p => _) = _
    rw [hcap]
    rfl

/-- `apxe` of a captured region also records the pair, or compares the sample, unless an output is poisoned. -/
theorem execApxe_records {p : ShCap} {vs : List (List Lane)} (hcap : (getCore (issued tk s) s.focusCore).shcap = some p)
    (hf : mxHolds (issueEnv tk s).rd (getCore (apxeClosed tk s x) s.focusCore) (shVo (shOf (issueEnv tk s).rd.a x.toNat).decl) = false)
    (hv : vecSources (issueEnv tk s) (apxeClosed tk s x) [shVo (shOf (issueEnv tk s).rd.a x.toNat).decl] = some (vs, t)) :
    exec (.apxe x tk) s = .next (goOn tk s (match laneValues (nth [] vs 0) (shNo (shOf (issueEnv tk s).rd.a x.toNat).decl) with
      | none => t
      | some l => modCore t s.focusCore fun c => if p.smp then shSample c x.toNat p.ys l else shRecord c x.toNat p.cap l)) := by
  refine execE_completes (exec_apxe x tk s) h ((if_neg ?_).trans ?_)
  · exact fun hc => absurd hopen (Bool.eq_false_iff.mp (Bool.not_eq_true' _ ▸ hc))
  · show (match (getCore (issued tk s) s.focusCore).shcap with | none => _ | some p => _) = _
    rw [hcap]
    refine (kVec_sources (by simpa using hf) hv).trans ?_
    cases laneValues (nth [] vs 0) (shNo (shOf (issueEnv tk s).rd.a x.toNat).decl) <;> rfl

end Ends

/-- Settles O35, by the cases of `apxb`'s slot (opened alone, captured, sampled, replaced) and of what `apxe` finds captured. -/
theorem approximationResults : Obligations.ApproximationResults := by
  intro s t x tk vs xs target p
  have hfree (hi : mxHolds (issueEnv tk s).rd (getCore (issued tk s) s.focusCore) (shVi (shOf (issueEnv tk s).rd.a x.toNat).decl) = false)
      (ho : shReplaces (shOf (issueEnv tk s).rd.a x.toNat) = true →
        mxHolds (issueEnv tk s).rd (getCore (issued tk s) s.focusCore) (shVo (shOf (issueEnv tk s).rd.a x.toNat).decl) = false) :=
    apxbNames_free (e := issueEnv tk s) (s := issued tk s) (k := x.toNat) hi ho
  refine ⟨?_, ?_, ?_, ?_, ?_, ?_, ?_, ?_⟩
  case refine_1 =>
    intro ⟨h, hc⟩ hoff
    exact execApxb_begins h hc (fun hr => absurd (hoff.symm.trans (shReplaces_active hr)) (by decide)) (if_pos hoff)
  case refine_2 =>
    intro ⟨h, hc⟩ ht hoff hseg
    exact execApxb_begins h hc (fun hr => Option.isSome_of_eq_some (ht hr)) ((if_neg hoff).trans (if_pos hseg))
  case refine_3 =>
    intro ⟨⟨h, hc⟩, hoff, hseg, ht, hi, hv⟩ hl
    exact execApxb_declared h hc (fun hr => Option.isSome_of_eq_some (ht hr).1) hoff hseg
      (shBegin_opens (hfree hi fun hr => (ht hr).2) hv hl)
  case refine_4 =>
    intro ⟨⟨h, hc⟩, hoff, hseg, ht, hi, hv⟩ hl hst
    exact execApxb_declared h hc (fun hr => Option.isSome_of_eq_some (ht hr).1) hoff hseg
      (shBegin_captures (hfree hi fun hr => (ht hr).2) hv hl hst)
  case refine_5 =>
    intro ⟨⟨h, hc⟩, hoff, hseg, ht, hi, hv⟩ hl hst hr
    exact execApxb_declared h hc (fun hr => Option.isSome_of_eq_some (ht hr).1) hoff hseg
      (shBegin_samples (hfree hi fun hr => (ht hr).2) hv hl (if_neg (Bool.eq_false_iff.mp hr)) hst)
  case refine_6 =>
    intro ⟨⟨h, hc⟩, hoff, hseg, ht, hi, hv⟩ hl hr
    exact execApxb_declared h hc (fun hr => Option.isSome_of_eq_some (ht hr).1) hoff hseg
      (shBegin_replaces (hfree hi fun hr => (ht hr).2) hv hl ((if_pos hr).trans (ht hr).1) (shReplaces_active hr))
  case refine_7 => exact execApxe_closes
  case refine_8 => exact fun h hopen hcap hf hv => execApxe_records h hopen hcap hf hv

end Sys2Proof.Machine
end

section
/-! O33. The Almanac words where they complete (R279 to R292). -/

namespace Sys2Proof.Machine

/-! ## The checks of the words -/

section Checks

variable {e : Env} {s : State}

/-- A form that is not queued goes on where the queue is empty. -/
theorem almNow_idle (h : (getCore s e.ci).almq = []) (r : Res) : almNow e s r = r :=
  if_pos (List.isEmpty_iff.mpr h)

/-- It waits where the queue is not. -/
theorem almNow_waits (h : (getCore s e.ci).almq ≠ []) (r : Res) : almNow e s r = .stall :=
  if_neg fun hq => h (List.isEmpty_iff.mp hq)

/-- A queued form goes on where the queue of four has room. -/
theorem almRoom_free (h : (getCore s e.ci).almq.length < 4) (r : Res) : almRoom e s r = r :=
  if_neg (by omega)

/-- A table that lies in the plain scratchpad and that no error marks is read. -/
theorem almTable_reads {o : Word} {n : Nat} {k : List Word → Res} (hn : 0 < n) (ho : o.toNat % 8 = 0)
    (hp : o.toNat + 8 * n ≤ plain e.rd.a) (hm : firstMarked (getCore s e.ci) (o.toNat / 4) (2 * n) = none) :
    almTable e s o n k = k ((List.range n).map fun q => BitVec.ofNat 64 (leNat (scrBytes (getCore s e.ci) (o.toNat + 8 * q) 8))) := by
  have hw : markedWord (getCore s e.ci) o (8 * n) = none := by
    rw [markedWord, show (o.toNat + 8 * n + 3) / 4 - o.toNat / 4 = 2 * n by omega, hm]
  unfold almTable
  simp only [hw, localFault_none (show 0 < 8 * n by omega) hp, ho, ne_eq, not_true_eq_false, if_false, scrNat]

/-- A register that names a range of handles. -/
theorem almRange_eq {v : Word} (hv : v.toNat < 2 ^ 17) (hn : 0 < v.toNat / 256) (hl : v.toNat % 256 + v.toNat / 256 ≤ 256) :
    almRange v = some (v.toNat % 256, v.toNat / 256) := by
  have hf : fieldOf v 0 8 = v.toNat % 256 := by simp [fieldOf]
  have hc : fieldOf v 8 9 = v.toNat / 256 := by simp only [fieldOf]; omega
  have hz : fieldOf v 17 47 = 0 := by simp only [fieldOf]; omega
  unfold almRange
  simp only [hf, hc, hz]
  exact if_neg (by omega)

/-- A register that names a handle and a field. -/
theorem almSelect_eq {v : Word} {takes : Nat → Bool} {k : Nat → Nat → AlmSlot → Res} (hv : v.toNat < 2 ^ 13)
    (ht : takes (v.toNat / 256) = true) (hst : (almOf e.rd.a (v.toNat % 256)).st ≠ .off) :
    almSelect e v takes k = k (v.toNat % 256) (v.toNat / 256) (almOf e.rd.a (v.toNat % 256)) := by
  have hf : fieldOf v 0 8 = v.toNat % 256 := by simp [fieldOf]
  have hc : fieldOf v 8 5 = v.toNat / 256 := by simp only [fieldOf]; omega
  unfold almSelect
  simp only [hf, hc, ht, if_neg hst, if_neg (show ¬ 2 ^ 13 ≤ v.toNat by omega)]
  rfl

/-- A queued form enters the queue. -/
theorem almQueue_enters {x : BitVec 6} {kind off : Nat} (hv : (e.x x).val.toNat < 2 ^ 17) (hn : 0 < (e.x x).val.toNat / 256)
    (hl : (e.x x).val.toNat % 256 + (e.x x).val.toNat / 256 ≤ 256) :
    almQueue e s x kind off = .later (modCore s e.ci fun c => { c with almq := c.almq ++
      [{ kind := kind, first := (e.x x).val.toNat % 256, count := (e.x x).val.toNat / 256, off := off, at_ := 0, push := e.pout,
         stopped := false }] }) := by
  unfold almQueue
  rw [almRange_eq hv hn hl]

/-- A form over a range of handles. -/
theorem onRange_eq {r : BitVec 6} {k : List Nat → Res} (hq : (getCore s e.ci).almq = []) (hr : (e.x r).psn = false)
    (hv : (e.x r).val.toNat < 2 ^ 17) (hn : 0 < (e.x r).val.toNat / 256)
    (hl : (e.x r).val.toNat % 256 + (e.x r).val.toNat / 256 ≤ 256) :
    onRange e s r k = k ((List.range ((e.x r).val.toNat / 256)).map ((e.x r).val.toNat % 256 + ·)) := by
  unfold onRange
  rw [almNow_idle hq, consume_one hr, almRange_eq hv hn hl]

/-- `astage` reads its operands where they lie in the plain scratchpad. -/
theorem almStage_eq {x : BitVec 6} {o : Word} {r : Res} (ho : o.toNat % 8 = 0) (hv : (e.x x).val.toNat < 2 ^ 17)
    (hn : 0 < (e.x x).val.toNat / 256) (hp : o.toNat + 8 * ((e.x x).val.toNat / 256) ≤ plain e.rd.a) :
    (if o.toNat % 8 ≠ 0 then raise 0x14 0 o
      else match localFault e.rd.a o (8 * fieldOf (e.x x).val 8 9) with
        | some t => raise 0x10 0 t
        | none => r) = r := by
  have hc : fieldOf (e.x x).val 8 9 = (e.x x).val.toNat / 256 := by simp only [fieldOf]; omega
  rw [if_neg (not_not.mpr ho), hc, localFault_none (by omega) hp]

theorem almLive_st {z : AlmSlot} (h : almLive z = true) : z.st ≠ .off := by
  intro hz
  simp [almLive, hz] at h

end Checks

/-! ## The words -/

/-- Settles O33, word by word. -/
theorem almanacResults : Obligations.AlmanacResults := by
  intro s x y tk f n
  dsimp only
  refine ⟨?amdef, ?aset, ?astage, ?queued, ?aget, ?aput, ?astat, ?aoff, ?await⟩
  case amdef =>
    intro h hq ⟨hy, ho, hp, hm⟩ hbad hbusy
    refine execE_completes (exec_amdef x y tk s) h ((almNow_idle hq _).trans ((consume_one hy _).trans ?_))
    exact (almTable_reads (by decide) ho hp hm).trans ((if_neg (Bool.eq_false_iff.mp hbad)).trans (if_neg (Bool.eq_false_iff.mp hbusy)))
  case aset =>
    intro m h hq hx ⟨hy, ho, hp, hm⟩ hv hbad hmeth hh
    refine execE_completes (exec_aset x y tk s) h ((almNow_idle hq _).trans ((consume_two hx hy _).trans ?_))
    refine (almTable_reads (by decide) ho hp hm).trans ((if_neg (by omega)).trans ((if_neg (Bool.eq_false_iff.mp hbad)).trans ?_))
    dsimp only
    split
    · next hn => exact nomatch hmeth.symm.trans hn
    · next m' hm' =>
      obtain rfl := Option.some.inj (hmeth.symm.trans hm')
      exact if_neg (Bool.eq_false_iff.mp hh)
  case astage =>
    intro h hq hx hy ho ⟨hv, hf, hn, hpos, hl⟩ hp
    subst hf hn
    refine execE_later (exec_astage x y tk s) h ((almRoom_free hq _).trans ((consume_two hx hy _).trans ?_))
    exact (almStage_eq ho hv hpos hp).trans (almQueue_enters hv hpos hl)
  case queued =>
    intro r hr h hq hx ⟨hv, hf, hn, hpos, hl⟩
    subst hf hn
    fin_cases hr
    · exact execE_later (exec_aerr x tk s) h ((almRoom_free hq _).trans ((consume_one hx _).trans (almQueue_enters hv hpos hl)))
    · exact execE_later (exec_adec x tk s) h ((almRoom_free hq _).trans ((consume_one hx _).trans (almQueue_enters hv hpos hl)))
  case aget =>
    intro h hq hy hv hst hf
    refine execE_completes (exec_aget x y tk s) h ((almNow_idle hq _).trans ((consume_one hy _).trans ?_))
    exact almSelect_eq hv (decide_eq_true hf) hst
  case aput =>
    intro h hq hx hy hf hlive hs he hlim
    have hlow : ((issueEnv tk s).x x).val.toNat / 256 ≤ 3 ∧ 1 ≤ ((issueEnv tk s).x x).val.toNat / 256 := by
      simp only [List.mem_cons, List.not_mem_nil, or_false] at hf
      omega
    refine execE_completes (exec_aput x y tk s) h ((almNow_idle hq _).trans ((consume_two hx hy _).trans ?_))
    refine (almSelect_eq (by omega) (by simp [hlow]) (almLive_st hlive)).trans ((if_neg ?_).trans (if_pos hlim))
    simp only [almOf, hlive, hs, he]
    decide
  case astat =>
    intro h hq hy ⟨hv, hf, hn, hpos, hl⟩
    subst hf hn
    refine execE_completes (exec_astat x y tk s) h ((onRange_eq hq hy hv hpos hl).trans ?_)
    rw [List.map_map]
    rfl
  case aoff =>
    intro h hq hx ⟨hv, hf, hn, hpos, hl⟩
    subst hf hn
    exact execE_completes (exec_aoff x tk s) h (onRange_eq hq hx hv hpos hl)
  case await =>
    exact fun h => ⟨fun hq => execE_completes (exec_await tk s) h (almNow_idle hq _),
      fun hq => execE_waits (exec_await tk s) h (almNow_waits hq _)⟩

end Sys2Proof.Machine
end

section
/-! O34. The Shepherd words where they complete (R297 to R308). -/

namespace Sys2Proof.Machine

section Checks

variable {e : Env} {s : State} {x y : BitVec 6}

/-- A register that names a range of the parameter store. -/
theorem storeRange_eq {v : Word} (hv : v.toNat < 2 ^ 31) (hz : v.toNat / 2 ^ 14 % 4 = 0) (hn : 0 < v.toNat / 2 ^ 16)
    (hl : v.toNat % 2 ^ 14 + v.toNat / 2 ^ 16 ≤ 16384) : storeRange v = some (v.toNat % 2 ^ 14, v.toNat / 2 ^ 16) := by
  have hf : fieldOf v 0 14 = v.toNat % 2 ^ 14 := by simp [fieldOf]
  have hc : fieldOf v 16 15 = v.toNat / 2 ^ 16 := by simp only [fieldOf]; omega
  have hr : fieldOf v 14 2 = 0 := by simp only [fieldOf]; omega
  have hu : fieldOf v 31 33 = 0 := by simp only [fieldOf]; omega
  unfold storeRange
  simp only [hf, hc, hr, hu]
  exact if_neg (by omega)

/-- A copy between the scratchpad and the parameter store, while no training runs (R305). -/
theorem storeCopy_eq {k : Nat → Nat → Nat → Res}
    (hv : (e.x y).val.toNat < 2 ^ 31) (hz : (e.x y).val.toNat / 2 ^ 14 % 4 = 0) (hn : 0 < (e.x y).val.toNat / 2 ^ 16)
    (hl : (e.x y).val.toNat % 2 ^ 14 + (e.x y).val.toNat / 2 ^ 16 ≤ 16384) (hx : (e.x x).psn = false) (hy : (e.x y).psn = false)
    (ho : (e.x x).val.toNat % 4 = 0) (hp : (e.x x).val.toNat + 4 * ((e.x y).val.toNat / 2 ^ 16) ≤ plain e.rd.a)
    (ht : trainingRuns (getCore s e.ci) = false) :
    storeCopy e s x y k = k (e.x x).val.toNat ((e.x y).val.toNat % 2 ^ 14) ((e.x y).val.toNat / 2 ^ 16) := by
  unfold storeCopy
  rw [consume_two hx hy, if_neg (not_not.mpr ho), storeRange_eq hv hz hn hl]
  dsimp only
  rw [localFault_none (by omega) hp]
  exact if_neg (Bool.eq_false_iff.mp ht)

/-- No slot that is in use meets the words that `shwld` writes. -/
theorem shwld_free {a : Arch} {w n : Nat} (h : ∀ k < 16, (shOf a k).st = .off ∨ (shOf a k).st = .observe ∨ (shOf a k).st = .invalid ∨
      spansMeet w n (shWoff (shOf a k).decl) (shWords (shOf a k).decl) = false) :
    ((List.range 16).any fun k =>
      (shOf a k).st != .off && (shOf a k).st != .observe && (shOf a k).st != .invalid &&
        spansMeet w n (shWoff (shOf a k).decl) (shWords (shOf a k).decl)) = false := by
  rw [List.any_eq_false]
  intro k hk
  rcases h k (List.mem_range.mp hk) with hs | hs | hs | hs <;> simp [hs]

end Checks

/-- `shdecl` where its descriptor can be read and is well formed. -/
theorem execShdecl_reads {s t : State} {x y : BitVec 6} {tk : Tk} (h : MayIssue (encodeNat (.shdecl x y tk)) [] 0 tk s)
    (hy : ((issueEnv tk s).x y).psn = false) (ho : ((issueEnv tk s).x y).val.toNat % 8 = 0)
    (hp : ((issueEnv tk s).x y).val.toNat + 32 ≤ plain (issueEnv tk s).rd.a)
    (hm : firstMarked (getCore (issued tk s) s.focusCore) (((issueEnv tk s).x y).val.toNat / 4) 8 = none)
    (hd : shDeclBad (issueEnv tk s).rd.a (scrDesc (getCore (issued tk s) s.focusCore) ((issueEnv tk s).x y).val.toNat) = false)
    (hs : (let z := shOf (issueEnv tk s).rd.a x.toNat
      let d := scrDesc (getCore (issued tk s) s.focusCore) ((issueEnv tk s).x y).val.toNat
      if z.st = .off ∨ z.st = .invalid then
        if shSpanBad (issueEnv tk s).rd.a x.toNat d then shepFault 1 ((issueEnv tk s).x y).val
        else Res.done (modArch (issued tk s) s.focusCore fun a => putSh a x.toNat
          { decl := d, st := .observe, ocnt := 0, scnt := 0, emean := 0, retr := 0, tstep := 0, seg := a.segCur, opened := false })
      else .done (modArch (issued tk s) s.focusCore fun a => putSh a x.toNat
        { z with decl := d, st := if shShape d = shShape z.decl then z.st else .invalid })) = .done t) :
    exec (.shdecl x y tk) s = .next (goOn tk s t) := by
  refine execE_completes (exec_shdecl x y tk s) h ((consume_one hy _).trans ((if_neg (not_not.mpr ho)).trans ?_))
  rw [localFault_none (by decide) hp]
  dsimp only
  split
  · next hm' => exact nomatch hm.symm.trans hm'
  · exact (if_neg (Bool.eq_false_iff.mp hd)).trans hs

/-- Settles O34, word by word. -/
theorem shepherdResults : Obligations.ShepherdResults := by
  intro s x y tk
  dsimp only
  refine ⟨?shdecl, ?shinv, ?shwld, ?shwst, ?shstat, ?shmean⟩
  case shdecl =>
    intro h hy ho hp hm hd
    refine ⟨fun hst hspan => ?_, fun hoff hinv => ?_⟩
    · exact execShdecl_reads h hy ho hp hm hd ((if_pos hst).trans (if_neg (Bool.eq_false_iff.mp hspan)))
    · exact execShdecl_reads h hy ho hp hm hd (if_neg fun hst => hst.elim hoff hinv)
  case shinv =>
    intro h
    exact execE_completes (exec_shinv x tk s) h rfl
  case shwld =>
    intro h ⟨hv, hz, hn, hl, hx, hy, ho, hp, ht⟩ hm hf
    refine execE_completes (exec_shwld x y tk s) h ((storeCopy_eq hv hz hn hl hx hy ho hp ht).trans ?_)
    dsimp only
    split
    · next m hm' => exact nomatch hm.symm.trans hm'
    · exact if_neg (Bool.eq_false_iff.mp (shwld_free hf))
  case shwst =>
    intro h ⟨hv, hz, hn, hl, hx, hy, ho, hp, ht⟩
    exact execE_completes (exec_shwst x y tk s) h (storeCopy_eq hv hz hn hl hx hy ho hp ht)
  case shstat =>
    intro h
    exact execE_completes (exec_shstat x y tk s) h rfl
  case shmean =>
    intro h
    exact execE_completes (exec_shmean x y tk s) h rfl

end Sys2Proof.Machine
end

section
/-! O38. Taking a trap (R318, R319, R321). -/

namespace Sys2Proof.Machine

section Causes

variable {s : State} {ci : Nat} {t : Trap}

/-- A walk's retry response ends the core's pins. -/
theorem takeTrap_retry (h : t.cause = 0) (cl : Cluster) : takeTrap s ci cl t = modArch s ci fun a => { a with pins := [] } :=
  if_pos (beq_iff_eq.mpr h)

variable (h0 : t.cause ≠ 0) (h21 : t.cause ≠ 0x21) (h07 : t.cause ≠ 0x07)
include h0 h21 h07

/-- A cause nested in the system handler ends the unit with TRAP_NESTED. -/
theorem takeTrap_inHandler (htl : (getCore s ci).a.tl = true) (cl : Cluster) :
    takeTrap s ci cl t = endUnit s ci 0x07 t.cause (some t.tval) := by
  have hr : isRetry t = false := beq_eq_false_iff_ne.mpr h0
  simp [takeTrap, hr, h21, h07, htl]

variable (htl : (getCore s ci).a.tl = false)
include htl

/-- UDF or EMUL in a user emulation handler ends the unit with EMUL_NESTED. -/
theorem takeTrap_inEmulation (huh : ((getCore s ci).a.uh && (t.cause == 1 || t.cause == 5)) = true) (cl : Cluster) :
    takeTrap s ci cl t = endUnit s ci 0x06 t.cause (some t.tval) := by
  have hr : isRetry t = false := beq_eq_false_iff_ne.mpr h0
  simp only [takeTrap, hr, h21, h07, htl, huh, beq_iff_eq, Bool.false_eq_true, if_false, if_true]

/-- Without a handler the unit ends with the trap's own cause. -/
theorem takeTrap_unhandled (huh : ((getCore s ci).a.uh && (t.cause == 1 || t.cause == 5)) = false)
    (hh : hasHandler s (getCore s ci) = false) (cl : Cluster) :
    takeTrap s ci cl t = endUnit (noteTrap s ci cl t) ci t.cause t.detail (some t.tval) := by
  have hr : isRetry t = false := beq_eq_false_iff_ne.mpr h0
  simp [takeTrap, hr, h21, h07, htl, huh, hh]

end Causes

/-! ## The frame -/

/-- A program counter below 2^56 stands in an EPC as it is. -/
theorem pcField_eq {v : Word} (h : v.toNat < 2 ^ 56) : v &&& (2 ^ 56 - 1 : BitVec 64) = v := by
  have hm : (2 ^ 56 - 1 : BitVec 64).toNat = 2 ^ 56 - 1 := by decide
  apply BitVec.eq_of_toNat_eq
  rw [BitVec.toNat_and, hm, Nat.and_two_pow_sub_one_of_lt_two_pow h]

/-- The EPC of a cluster that repeats nothing is its program counter. -/
theorem epcOf_plain {a : Arch} {i : Nat} (hp : (vget a.pc 0 i).toNat < 2 ^ 56) (hk : vget a.repK none i = none) :
    epcOf a i = vget a.pc 0 i := by
  unfold epcOf
  rw [hk, pcField_eq hp]
  dsimp only
  rw [Nat.zero_mul]
  exact BitVec.or_zero

/-- In a repetition its index stands above. -/
theorem epcOf_repeats {a : Arch} {i k n : Nat} (hp : (vget a.pc 0 i).toNat < 2 ^ 56) (hk : vget a.repK none i = some (k, n)) :
    epcOf a i = vget a.pc 0 i ||| BitVec.ofNat 64 (k * 2 ^ 56) := by
  unfold epcOf
  rw [hk, pcField_eq hp]

/-- The EPCs of a frame are those of its clusters. -/
theorem trapRegs_epc (c : Core) (cl : Cluster) (t : Trap) {i : Nat} (h : i < 4) : vget (trapRegs c cl t).epc 0 i = epcOf c.a i := by
  match i, h with
  | 0, _ | 1, _ | 2, _ | 3, _ => rfl

/-- A trap without a handler leaves TVAL and the EPCs. -/
theorem noteTrap_eq (s : State) (ci : Nat) (cl : Cluster) (t : Trap) :
    noteTrap s ci cl t = modCore s ci fun k => { k with tr := { k.tr with
      tval := t.tval, epc := #v[epcOf (getCore s ci).a 0, epcOf (getCore s ci).a 1, epcOf (getCore s ci).a 2, epcOf (getCore s ci).a 3] } } := by
  unfold noteTrap modCore
  rfl

/-- The core in the handler. -/
theorem enterHandler_core (s : State) {ci : Nat} (hci : ci < 72) (cl : Cluster) (t : Trap) :
    getCore (enterHandler s ci cl t) ci = setPcs { getCore s ci with
      tr := trapRegs (getCore s ci) cl t, nopSlot := none,
      a := { (getCore s ci).a with tl := true, litAt := none, mode := .joint, segCur := (getCore s ci).tvec.hseg, seq := none,
                                   loops := Vector.replicate 8 LoopLv.zero, clst := Vector.replicate 4 .run } }
      ((segOf s (partOf (getCore s ci)) (getCore s ci).tvec.hseg).base + BitVec.ofNat 64 (16 * (getCore s ci).tvec.off.toNat)) :=
  getCore_putCore_self _ _ hci

/-- The other cores stay as they were. -/
theorem enterHandler_others (s : State) {ci j : Nat} (h : j ≠ ci) (cl : Cluster) (t : Trap) :
    getCore (enterHandler s ci cl t) j = getCore s j :=
  getCore_putCore_ne _ _ (Ne.symm h)

/-- Settles O38, by the order in which a trap looks for where it goes. -/
theorem trapEntry : Obligations.TrapEntry := by
  intro s ci cl t hci
  refine ⟨fun h => takeTrap_retry h cl, fun h0 h21 h07 => ?_⟩
  dsimp only
  refine ⟨fun htl => takeTrap_inHandler h0 h21 h07 htl cl, fun htl huh => takeTrap_inEmulation h0 h21 h07 htl huh cl,
    fun htl huh hh => (takeTrap_unhandled h0 h21 h07 htl huh hh cl).trans (by rw [noteTrap_eq]), fun htl huh hh => ?_⟩
  rw [takeTrap_handler h0 h21 h07 htl huh hh cl, enterHandler_core s hci]
  refine ⟨rfl, rfl, rfl, rfl, fun hs => ?_, fun q n hs => ?_, fun i hi hp => ⟨fun hk => ?_, fun k n hk => ?_⟩, rfl, rfl, rfl, rfl, rfl, rfl, rfl,
    fun i hi => ?_, rfl, rfl, rfl, rfl, rfl, rfl, rfl, rfl, rfl, rfl, fun j hj => enterHandler_others s hj cl t⟩
  · simp [setPcs, trapRegs, hs]
  · simp [setPcs, trapRegs, hs]
  · exact (trapRegs_epc _ cl t hi).trans (epcOf_plain hp hk)
  · exact (trapRegs_epc _ cl t hi).trans (epcOf_repeats hp hk)
  · simp [setPcs, vget, hi]

end Sys2Proof.Machine
end

section
/-! O39. Returns from a handler, `ucall` and `svc` (R323, R324, R327). -/

namespace Sys2Proof.Machine

/-! ## The return words -/

/-- The core as the active frame's return finds it: TL clear, the engines that the trap held running again. -/
def activeFrame (c : Core) : Core := resumeAfter { c with a := { c.a with tl := false } }

/-- The core as the return from the user handler finds it: the held frame's registers in place. -/
def heldFrame (c : Core) : Core := { c with a := { c.a with uh := false, held := false }, tr := c.heldTr }

section Returns

variable {e : Env} {s : State} {w : Nat} {past : Bool}

/-- With TL a return word restores the active frame. -/
theorem returnWord_active (h : e.rd.a.tl = true) :
    returnWord e s w past = .set (putCore s e.ci
      (if past then pastTrap s e.ci (restoreFrame (activeFrame (getCore s e.ci)) (getCore s e.ci).tr) (getCore s e.ci).tr
       else restoreFrame (activeFrame (getCore s e.ci)) (getCore s e.ci).tr)) :=
  if_pos h

/-- In the user handler it restores the held one. -/
theorem returnWord_held (h : e.rd.a.tl = false) (hu : (e.rd.a.uh && e.rd.a.held) = true) :
    returnWord e s w past = .set (putCore s e.ci
      (if past then pastTrap s e.ci (restoreFrame (heldFrame (getCore s e.ci)) (getCore s e.ci).heldTr) (getCore s e.ci).heldTr
       else restoreFrame (heldFrame (getCore s e.ci)) (getCore s e.ci).heldTr)) :=
  (if_neg (Bool.eq_false_iff.mp h)).trans (if_pos hu)

/-- Elsewhere it raises SEG_FAULT. -/
theorem returnWord_refused (h : e.rd.a.tl = false) (hu : e.rd.a.uh = false) :
    returnWord e s w past = .raise (mkTrap 0x39 4 (BitVec.ofNat 64 w)) :=
  (if_neg (Bool.eq_false_iff.mp h)).trans (if_neg (by simp [hu]))

end Returns

/-! ## The frame restored -/

/-- The program counter that a cluster takes from the frame. -/
theorem restoreFrame_pc_split {c : Core} {r : TrapRegs} (h : r.frame.mode = .split) {i : Nat} (hi : i < 4) :
    vget (restoreFrame c r).a.pc 0 i = vget r.epc 0 i &&& (2 ^ 56 - 1 : BitVec 64) := by
  unfold restoreFrame
  rw [h]
  match i, hi with
  | 0, _ | 1, _ | 2, _ | 3, _ => rfl

/-- In joint mode every cluster takes that of cluster C. -/
theorem restoreFrame_pc_joint {c : Core} {r : TrapRegs} (h : r.frame.mode = .joint) {i : Nat} (hi : i < 4) :
    vget (restoreFrame c r).a.pc 0 i = vget r.epc 0 0 &&& (2 ^ 56 - 1 : BitVec 64) := by
  unfold restoreFrame
  rw [h]
  match i, hi with
  | 0, _ | 1, _ | 2, _ | 3, _ => rfl

/-- In joint mode `tret.n` skips the slot of the trapping instruction. -/
theorem pastTrap_joint {s : State} {ci : Nat} {c : Core} {r : TrapRegs} (h : r.frame.mode = .joint) :
    pastTrap s ci c r = { c with nopSlot := some (clusterOf r.cl.toNat) } := by
  unfold pastTrap
  rw [h]

/-! ## `ucall` and `svc` -/

/-- The state of `ucall`: the frame held, the gate address in bank register x31, the emulation entry next. -/
def ucalled (s : State) (rd : Core) : Core :=
  let c := getCore s s.focusCore
  let h := segOf s (partOf rd) rd.tvec.hseg
  let l := segOf s (partOf rd) rd.segL
  setPcs { c with heldTr := c.tr, bank := vset c.bank 3 { val := h.base + h.gate.setWidth 64, psn := false },
                  a := { c.a with held := true, tl := false, uh := true, segCur := c.segL } } (l.base + l.eoff.setWidth 64)

section Calls

variable {s : State} {g : BitVec 3}

theorem execUcall_enters (h : MayIssue (encodeNat (.ucall g)) [] g tkNone s) (htl : (envOf s).rd.a.tl = true)
    (hc : (envOf s).rd.tr.cause = 5) (he : hasEmul s (envOf s).rd = true) :
    exec (.ucall g) s = .next (goSet s (putCore s s.focusCore (ucalled s (envOf s).rd))) := by
  refine exec_places (exec_ucall g s) h ((if_neg ?_).trans rfl)
  simp only [issueEnv, htl, hc, he]
  decide

theorem execUcall_refused (h : MayIssue (encodeNat (.ucall g)) [] g tkNone s)
    (hn : (envOf s).rd.a.tl = false ∨ (envOf s).rd.tr.cause ≠ 5 ∨ hasEmul s (envOf s).rd = false) :
    exec (.ucall g) s = .next (goTrap s (mkTrap 0x39 4 (BitVec.ofNat 64 (encodeNat (.ucall g))))) := by
  refine exec_raises (exec_ucall g s) h (if_pos ?_)
  simp only [issueEnv]
  rcases hn with hn | hn | hn
  · simp [hn]
  · rw [beq_eq_false_iff_ne.mpr hn]
    simp
  · simp [hn]

end Calls

/-- Settles O39, word by word. -/
theorem handlerReturns : Obligations.HandlerReturns := by
  intro s d a g
  dsimp only
  refine ⟨fun h => ⟨fun htl => ?_, fun htl hu => ?_, fun htl hu => ?_⟩, fun h => ⟨fun htl => ?_, fun htl hu => ?_, fun htl hu => ?_⟩,
    fun k r => ⟨rfl, rfl, rfl, rfl, rfl, fun i hi hm => restoreFrame_pc_split hm hi, fun i hi hm => restoreFrame_pc_joint hm hi,
      fun hm => pastTrap_joint hm⟩,
    fun h => ⟨fun htl hc hl hf => ?_, fun hn => ?_⟩, fun h => ⟨fun htl hp => ?_, fun htl => ?_⟩⟩
  · exact exec_places (exec_tret g s) h (returnWord_active htl)
  · exact exec_places (exec_tret g s) h (returnWord_held htl hu)
  · exact exec_raises (exec_tret g s) h (returnWord_refused htl hu)
  · exact exec_places (exec_tretN g s) h ((returnWord_active htl).trans (by rw [if_pos rfl]; rfl))
  · exact exec_places (exec_tretN g s) h ((returnWord_held htl hu).trans (by rw [if_pos rfl]; rfl))
  · exact exec_raises (exec_tretN g s) h (returnWord_refused htl hu)
  · exact execUcall_enters h htl hc (by simp only [hasEmul, hl, hf, Bool.and_self])
  · refine execUcall_refused h (hn.imp_right fun hn => hn.imp_right fun hn => ?_)
    rcases hn with hn | hn <;> simp only [hasEmul, hn, Bool.false_and, Bool.and_false]
  · exact exec_places (exec_svc d a g s) h ((if_neg (by simpa [issueEnv] using htl)).trans (consume_one hp _))
  · exact exec_raises (exec_svc d a g s) h (if_pos (by simpa [issueEnv] using htl))

end Sys2Proof.Machine
end

section
/-! O40. The system words: `ctxin` also withdraws the preemption that its core still has pending (R328). -/

namespace Sys2Proof.Machine

/-- What `ctxin` loads: the image, into a core whose pending preemption is withdrawn first. -/
theorem execCtxin_loads {s : State} {a b : BitVec 6} {g : BitVec 3} {j : Nat} {i : Core}
    (h : MayIssue (encodeNat (.ctxin a b g)) [] g tkNone s) (ha : ((envOf s).x a).psn = false) (hb : ((envOf s).x b).psn = false)
    (hj : haltedCore s ((envOf s).x a).val = some j)
    (hi : Sparse.get none (getDie s (dieOf s.focusCore)).images (fieldOf ((envOf s).x b).val 0 5) = some i)
    (hm : inMask (getPart s (partOf i)) j = true) :
    exec (.ctxin a b g) s =
      .next (goOn tkNone s (noteClaim s (modCore s j fun c => loadImage { c with preempt := none, asker := none } i) j)) := by
  refine exec_completes (exec_ctxin a b g s) h ((consume_two ha hb _).trans ?_)
  show (match haltedCore s ((envOf s).x a).val with | none => _ | some j => _) = _
  rw [hj]
  show (match Sparse.get none (getDie s (dieOf s.focusCore)).images (fieldOf ((envOf s).x b).val 0 5) with | none => _ | some i => _) = _
  rw [hi]
  exact if_neg (by rw [hm]; decide)

/-! ## A core that is halted with a preemption pending, and an image of a unit of the same partition -/

/-- A unit of partition 0. -/
def unitPreempted : UnitInfo :=
  { part := 0, asn := 0, launch := 0, index := 0, prio := 0, arrive := 0, start := 0, seg := 0, committed := true, localw := 0, record := none,
    err := none, gang := none }

/-- Its image. -/
def imagePreempted : Core := { Core.zero with unit := some unitPreempted }

/-- A halted core that partition 0 has asked to give way. -/
def coreAsked : Core := { Core.zero with run := .halted, preempt := some 0 }

/-- Core 1 runs firmware, and issues `ctxin` of the image in slot 0 into core 0. -/
def stateCtxin : State :=
  { putCore State.reset 0 coreAsked with
    focusCore := 1
    parts := vset State.reset.parts 0
      { Part.zero 0 with mask0 := 1, segs := vset (Part.zero 0).segs 0 { Seg.zero with v := true, sys := true, fw := true } }
    dies := vset State.reset.dies 0 { Die.zero with images := [(0, some imagePreempted)] } }

/-- Refutes O40: `ctxin` clears the pending preemption of the core that it loads before it loads the image (`coreAsked` holds one of the image's
partition), and the statement's `loadImage` keeps it. -/
theorem not_systemResults : ¬ Obligations.SystemResults := by
  intro h
  obtain ⟨-, -, -, -, -, hctxin, -⟩ := h stateCtxin 0 0 0 0
  have hissue : MayIssue (encodeNat (.ctxin 0 0 0)) [] 0 tkNone stateCtxin := by decide +kernel
  have himage : Sparse.get none (getDie stateCtxin (dieOf stateCtxin.focusCore)).images 0 = some imagePreempted := by decide +kernel
  have hmask : inMask (getPart stateCtxin (partOf imagePreempted)) 0 = true := by decide +kernel
  have hhalted : (getCore stateCtxin 0).run = .halted := by decide +kernel
  have hstated := hctxin imagePreempted hissue ⟨rfl, rfl⟩ (by decide +kernel) hhalted himage hmask
  rw [execCtxin_loads (j := 0) (i := imagePreempted) hissue rfl rfl (by decide +kernel) himage hmask] at hstated
  have hpreempt := congrArg (fun t => (getCore t 0).preempt) (Host.Outcome.next.inj hstated)
  revert hpreempt
  decide +kernel

end Sys2Proof.Machine
end

section
/-! O48. The function-level reset of a partition can write another's error log: draining its lines writes their sectors back (R137, R339). -/

namespace Sys2Proof.Machine

/-- The second FLR_OWNER of a partition ends its reset. -/
theorem execFlrOwner_ends {s : State} {func p : Nat} (ho : ownedPart s func = some p) (hr : (getPart s p).resetting = true) :
    exec (.flrOwner func) s = .next (endReset s p) := by
  rw [exec_flrOwner, execFlrOwner, ho]
  exact congrArg _ (if_pos hr)

/-- A die cache that holds a line of sector 0 twice, dirty for partition 1 and clean for partition 0, and the sector's other line for partition 0. -/
def dieMixedSector : Die :=
  { Die.zero with dcache := [{ line := 0, part := 1, marks := 0, dirty := true }, { line := 0, part := 0, marks := 0, dirty := false },
      { line := 1, part := 0, marks := 0, dirty := false }] }

/-- Partition 0 is in its reset, and sector 0 has an uncorrectable error. -/
def stateMixedSector : State :=
  { State.reset with
    parts := vset State.reset.parts 0 { Part.zero 0 with resetting := true }
    dies := vset State.reset.dies 0 dieMixedSector
    faulty := [(0, some .uncorrectable)] }

/-- The end of partition 0's reset: the write-back is not of a whole sector, reads it under the tag of partition 1, and records there what it
finds. -/
theorem endReset_stateMixedSector : (getPart (endReset stateMixedSector 0) 1).errlog ≠ (getPart stateMixedSector 1).errlog := by
  decide +kernel

/-- Refutes O48: the reset of partition 0's function changes the error log of partition 1, in a state whose die cache holds three entries of one
sector (`stateMixedSector`). -/
theorem not_packageEvents : ¬ Obligations.PackageEvents := by
  intro h
  obtain ⟨-, -, -, -, -, -, -, -, -, -, -, -, -, -, -, -, -, -, -, hflr, -⟩ := h stateMixedSector 0 0 0 0 0 0 0 0 [] none none (by decide) (by decide)
  have howned : ownedPart stateMixedSector 0 = some 0 := by decide +kernel
  have hresetting : (getPart stateMixedSector 0).resetting = true := by decide +kernel
  obtain ⟨-, hends⟩ := hflr 0 0 howned (by decide) (by decide)
  obtain ⟨t, ht, -, -, hparts, -⟩ := hends hresetting
  obtain rfl := Host.Outcome.next.inj ((execFlrOwner_ends howned hresetting).symm.trans ht)
  exact endReset_stateMixedSector (congrArg Part.errlog (hparts 1 (by decide) (by decide)))

end Sys2Proof.Machine
end

section
/-! O50. What the queues do (R342 to R352, R358, R359). -/

namespace Sys2Proof.Machine

/-! ## A queue changed -/

section Queues

variable {s : State} {part q : Nat}

theorem queueOf_modQueue (hp : part < 8) (hq : q < 64) (f : Queue → Queue) :
    queueOf (getPart (modQueue s part q f) part) q = f (queueOf (getPart s part) q) := by
  unfold modQueue
  rw [getPart_modPart_self _ _ hp]
  exact vget_vset_self _ _ _ hq

theorem modQueue_modQueue (hp : part < 8) (hq : q < 64) (f g : Queue → Queue) :
    modQueue (modQueue s part q f) part q g = modQueue s part q fun x => g (f x) := by
  unfold modQueue modPart
  rw [getPart_putPart_self _ _ hp]
  simp [putPart, queueOf, hq]

/-- A record in an error log changes no queue. -/
theorem queueOf_logErr (hp : part < 8) (p c x d : Nat) (a b : Option Word) (e : Nat) :
    queueOf (getPart (logErr s p c x d a b e) part) q = queueOf (getPart s part) q := by
  have hpush (y : Part) (r : ErrRec) : queueOf (pushErr y r) q = queueOf y q := by
    unfold pushErr
    split <;> rfl
  unfold logErr
  by_cases h : p = part
  · subst h
    rw [getPart_modPart_self _ _ hp, hpush]
  · rw [getPart_modPart_ne _ _ h]

/-- A fault of a queue that runs puts it in FETCH_FAULT (R345). -/
theorem queueFault_st (hp : part < 8) (hq : q < 64) (va : Word) :
    (queueOf (getPart (queueFault s part q va) part) q).st =
      (match (queueOf (getPart s part) q).st with | .active | .waiting => .fetchFault | st => st) := by
  unfold queueFault
  rw [queueOf_logErr hp]
  exact congrArg Queue.st (queueOf_modQueue hp hq _)

/-! ## The head (R344, R350) -/

/-- A held head makes the queue WAITING. -/
theorem evalHead_held (h : headHeld s part q = true) : evalHead s part q = modQueue s part q fun y => { y with st := .waiting } :=
  if_pos h

/-- Any other makes it ACTIVE, and leaves it if it has acted. -/
theorem evalHead_free (h : headHeld s part q = false) : evalHead s part q = modQueue s part q fun y =>
    { y with st := .active, heldPkt := if y.started then none else y.heldPkt, started := false } :=
  if_neg (Bool.eq_false_iff.mp h)

theorem evalHead_st (hp : part < 8) (hq : q < 64) :
    (queueOf (getPart (evalHead s part q) part) q).st = if headHeld s part q then .waiting else .active := by
  cases h : headHeld s part q with
  | true => rw [evalHead_held h, queueOf_modQueue hp hq]; rfl
  | false => rw [evalHead_free h, queueOf_modQueue hp hq]; rfl

theorem evalHead_pw (hp : part < 8) (hq : q < 64) :
    (queueOf (getPart (evalHead s part q) part) q).pw = (queueOf (getPart s part) q).pw := by
  cases h : headHeld s part q with
  | true => rw [evalHead_held h, queueOf_modQueue hp hq]
  | false => rw [evalHead_free h, queueOf_modQueue hp hq]

theorem evalHead_mem : (evalHead s part q).mem = s.mem := by
  unfold evalHead
  split <;> rfl

end Queues

/-! ## A packet at a portal (R342, R358) -/

section Portals

variable {s : State} {part q func : Nat} {pkt : Packet}

/-- A portal serves its partition's queue. -/
theorem portalPart_served (h : portalPart s func q = some part) : queueServed part (queueOf (getPart s part) q) = true := by
  unfold portalPart at h
  split at h
  · cases h
  · have hf := List.find?_some h
    simp only [Bool.and_eq_true] at hf
    exact hf.1.2

theorem deliver_reset (h : (queueOf (getPart s part) q).st = .reset) : deliver s part q pkt = (s, .unsupported) :=
  if_pos (.inl h)

variable (hs : queueServed part (queueOf (getPart s part) q) = true) (hr : (queueOf (getPart s part) q).st ≠ .reset)
include hs hr

theorem deliver_malformed (hb : packetBad s part (queueOf (getPart s part) q).dataPlane pkt = true) :
    deliver s part q pkt = (modPart s part fun y => { y with malformed := (y.malformed + 1) % 2 ^ 64 }, .abort) :=
  (if_neg (by simp [hs, hr])).trans (if_pos hb)

variable (hb : packetBad s part (queueOf (getPart s part) q).dataPlane pkt = false)
include hb

theorem deliver_full (hf : (queueOf (getPart s part) q).st = .fetchFault ∨
      2 ^ (queueOf (getPart s part) q).log2n ≤ (queueOf (getPart s part) q).tail - (queueOf (getPart s part) q).head) :
    deliver s part q pkt = (s, .retry) :=
  (if_neg (by simp [hs, hr])).trans ((if_neg (Bool.eq_false_iff.mp hb)).trans (if_pos hf))

variable (hf : (queueOf (getPart s part) q).st ≠ .fetchFault)
  (hl : (queueOf (getPart s part) q).tail - (queueOf (getPart s part) q).head < 2 ^ (queueOf (getPart s part) q).log2n)
include hf hl

/-- Where the queue has room, a pinned line of its ring refuses the packet for now (R182). -/
theorem deliver_pinned
    (hpin : queuePinned s part (queueOf (getPart s part) q)
      (entryAddr (queueOf (getPart s part) q) (queueOf (getPart s part) q).tail) .write = true) :
    deliver s part q pkt = (s, .pinned) :=
  (if_neg (by simp [hs, hr])).trans ((if_neg (Bool.eq_false_iff.mp hb)).trans
    ((if_neg (not_or.mpr ⟨hf, Nat.not_le.mpr hl⟩)).trans (if_pos hpin)))

/-- A ring entry that does not translate is a fault of the queue. -/
theorem deliver_faults
    (hpin : queuePinned s part (queueOf (getPart s part) q)
      (entryAddr (queueOf (getPart s part) q) (queueOf (getPart s part) q).tail) .write = false)
    (ha : queueAddr s part (queueOf (getPart s part) q)
      (entryAddr (queueOf (getPart s part) q) (queueOf (getPart s part) q).tail) .write = none) :
    deliver s part q pkt =
      (let x := queueOf (getPart s part) q
       (queueFault (queueWalk s part x (entryAddr x x.tail)) part q (entryAddr x x.tail), .retry)) := by
  refine (if_neg (by simp [hs, hr])).trans ((if_neg (Bool.eq_false_iff.mp hb)).trans
    ((if_neg (not_or.mpr ⟨hf, Nat.not_le.mpr hl⟩)).trans ((if_neg (Bool.eq_false_iff.mp hpin)).trans ?_)))
  rw [ha]

/-- Any other takes the packet. -/
theorem deliver_accepts {pa : Nat}
    (hpin : queuePinned s part (queueOf (getPart s part) q)
      (entryAddr (queueOf (getPart s part) q) (queueOf (getPart s part) q).tail) .write = false)
    (ha : queueAddr s part (queueOf (getPart s part) q)
      (entryAddr (queueOf (getPart s part) q) (queueOf (getPart s part) q).tail) .write = some pa) :
    deliver s part q pkt =
      (let x := queueOf (getPart s part) q
       let s1 := devWrite (queueWalk s part x (entryAddr x x.tail)) none part pa (entryAddr x x.tail) (natBytes 64 pkt.toNat) 0 false
       (wakeQueue (modQueue s1 part q fun x => { x with tail := x.tail + 1, open_ := x.open_ ++ [x.tail] }) part q, .accepted)) := by
  refine (if_neg (by simp [hs, hr])).trans ((if_neg (Bool.eq_false_iff.mp hb)).trans
    ((if_neg (not_or.mpr ⟨hf, Nat.not_le.mpr hl⟩)).trans ((if_neg (Bool.eq_false_iff.mp hpin)).trans ?_)))
  rw [ha]

end Portals

/-- The state once a portal has answered a DMWr. -/
def dmwrAnswer (func q : Nat) (t : State) : Accept → State
  | .accepted => { t with outbox := t.outbox ++ [.dmwrOk func q] }
  | .retry => { t with outbox := t.outbox ++ [.dmwrRetry func q] }
  | .abort => { t with outbox := t.outbox ++ [.dmwrAbort func q] }
  | .unsupported => { t with outbox := t.outbox ++ [.unsupported func q] }
  | .pinned => t

section Answers

variable {s t : State} {part q func : Nat} {pkt : BitVec 512} {r : Accept}

/-- What a DMWr leaves. -/
theorem execPortalDmwr_answers (hp : portalPart s func q = some part) (hd : deliver s part q pkt = (t, r)) :
    exec (.portalDmwr func q pkt) s = .next (dmwrAnswer func q t r) := by
  rw [exec_portalDmwr, execPortalDmwr, hp]
  dsimp only
  rw [hd]
  cases r <;> rfl

/-- What a posted write leaves. -/
theorem execPortalPostedWrite_leaves (hp : portalPart s func q = some part) (hd : deliver s part q pkt = (t, r)) :
    exec (.portalPostedWrite func q pkt) s = .next (if r = .pinned then t else modQueue t part q fun x => { x with lref := r != .accepted }) := by
  rw [exec_portalPostedWrite, execPortalPostedWrite, hp]
  dsimp only
  rw [hd]

/-- A portal that serves no queue. -/
theorem execPortal_unserved (hp : portalPart s func q = none) :
    exec (.portalDmwr func q pkt) s = .next { s with outbox := s.outbox ++ [.unsupported func q] } ∧
    exec (.portalPostedWrite func q pkt) s = .next { s with outbox := s.outbox ++ [.unsupported func q] } ∧
    exec (.portalWake func q) s = .next { s with outbox := s.outbox ++ [.unsupported func q] } := by
  rw [exec_portalDmwr, execPortalDmwr, exec_portalPostedWrite, execPortalPostedWrite, exec_portalWake, execPortalWake, hp]
  exact ⟨rfl, rfl, rfl⟩

theorem execPortalWake_wakes (hp : portalPart s func q = some part) : exec (.portalWake func q) s = .next (wakeQueue s part q) := by
  rw [exec_portalWake, execPortalWake, hp]

/-- A wake of a queue that is mapped, or stopped, does nothing. -/
theorem wakeQueue_other (h1 : (queueOf (getPart s part) q).st ≠ .unmapping) (h2 : (queueOf (getPart s part) q).st ≠ .unmapped) :
    wakeQueue s part q = s := by
  unfold wakeQueue
  split
  · next h => exact absurd h h1
  · next h => exact absurd h h2
  · rfl

end Answers

/-! ## The host's transitions (R350, R358) -/

theorem stateEvent_eq {s : State} {part q : Nat} {f : QState → State} (hp : part < 8) (hq : q < 64) :
    stateEvent s part q f = .next (f (queueOf (getPart s part) q).st) :=
  if_neg (by omega)

/-! ## The packet at the head (R344, R349) -/

section Waits

variable {p : Part} {x : Packet}

/-- A WAIT_ALL goes on waiting while one of its signals is short of its value. -/
theorem waitOver_all (h : pType x = 3) : waitOver p x = false ↔
    ∃ i < pNsig x, satisfied (signalOf p (fieldOf x (64 + 36 * i) 12)) (fieldOf x (76 + 36 * i) 24) = false := by
  simp [waitOver, h, pWait]

/-- A WAIT_ANY goes on while every one is. -/
theorem waitOver_any (h : pType x = 4) : waitOver p x = false ↔
    ∀ i < pNsig x, satisfied (signalOf p (fieldOf x (64 + 36 * i) 12)) (fieldOf x (76 + 36 * i) 24) = false := by
  simp [waitOver, h, pWait]

end Waits

section Heads

variable {s : State} {part q : Nat} {pkt : Packet} {type : Nat} {f : Packet → State}

/-- What holds a head that has not acted. -/
theorem headHeld_iff (hk : (queueOf (getPart s part) q).heldPkt = some pkt) (hn : (queueOf (getPart s part) q).started = false) :
    headHeld s part q = true ↔
      (bitOf pkt 8 = true ∧ ∃ n ∈ (queueOf (getPart s part) q).open_, n < (queueOf (getPart s part) q).heldSeq) ∨
      (pType pkt = 3 ∧ ∃ i < pNsig pkt,
        satisfied (signalOf (getPart s part) (fieldOf pkt (64 + 36 * i) 12)) (fieldOf pkt (76 + 36 * i) 24) = false) ∨
      (pType pkt = 4 ∧ ∀ i < pNsig pkt,
        satisfied (signalOf (getPart s part) (fieldOf pkt (64 + 36 * i) 12)) (fieldOf pkt (76 + 36 * i) 24) = false) ∨
      (pType pkt = 2 ∧ 2048 ≤ (getDie s (homeOf s (queueOf (getPart s part) q).homedie)).graph.length) := by
  have hwait : ((pType pkt == 3 || pType pkt == 4) && !waitOver (getPart s part) pkt) = true ↔
      (pType pkt = 3 ∧ waitOver (getPart s part) pkt = false) ∨ (pType pkt = 4 ∧ waitOver (getPart s part) pkt = false) := by
    simp only [Bool.and_eq_true, Bool.or_eq_true, beq_iff_eq, Bool.not_eq_true', or_and_right]
  have hheld : headHeld s part q = (barrierHeld (queueOf (getPart s part) q) pkt ||
      ((pType pkt == 3 || pType pkt == 4) && !waitOver (getPart s part) pkt) ||
      (pType pkt == 2 && decide (2048 ≤ (getDie s (homeOf s (queueOf (getPart s part) q).homedie)).graph.length))) := by
    simp only [headHeld, hk, hn, Bool.not_false, if_true]
  rw [hheld, Bool.or_eq_true, Bool.or_eq_true, hwait, or_assoc, or_assoc, and_congr_right waitOver_all, and_congr_right waitOver_any]
  simp [barrierHeld, pBarrier]

variable (hp : part < 8) (hq : q < 64) (hk : (queueOf (getPart s part) q).heldPkt = some pkt)
  (hst : (queueOf (getPart s part) q).st = .active) (hn : (queueOf (getPart s part) q).started = false)
include hp hq hk hst hn

theorem headEvent_eq : headEvent s part q type f =
    if pType pkt ≠ type then .next s else if headHeld s part q then .next (evalHead s part q) else .next (f pkt) := by
  unfold headEvent
  rw [if_neg (by omega)]
  simp [hk, hst, hn]

theorem headEvent_otherType (h : pType pkt ≠ type) : headEvent s part q type f = .next s :=
  (headEvent_eq hp hq hk hst hn).trans (if_pos h)

theorem headEvent_held (h : pType pkt = type) (hh : headHeld s part q = true) :
    headEvent s part q type f = .next (modQueue s part q fun y => { y with st := .waiting }) := by
  rw [headEvent_eq hp hq hk hst hn, if_neg (not_not.mpr h), if_pos hh, evalHead_held hh]

theorem headEvent_acts (h : pType pkt = type) (hh : headHeld s part q = false) : headEvent s part q type f = .next (f pkt) := by
  rw [headEvent_eq hp hq hk hst hn, if_neg (not_not.mpr h), if_neg (Bool.eq_false_iff.mp hh)]

end Heads

/-! ## The fetch at the head (R343, R345) -/

section Fetches

variable {s : State} {part q : Nat}

/-- While no launch of a partition is over, none completes. -/
theorem retryLaunches_none (h : ∀ l ∈ (getPart s part).launches, launchDone l = false) : retryLaunches s part q = s := by
  have hcheck (id : Nat) : checkLaunch s part id = s := by
    unfold checkLaunch
    split
    · rfl
    · next l hl =>
      exact if_neg (by simp [h l (List.mem_of_find?_eq_some hl)])
  unfold retryLaunches
  generalize (getPart s part).launches.filter (fun l => l.queue == q) = ls
  induction ls with
  | nil => rfl
  | cons l ls ih => rw [List.foldl_cons, hcheck, ih]

/-- A queue that is not ACTIVE, holds a packet or is empty fetches nothing. -/
theorem fetchPacket_idle (h : (queueOf (getPart s part) q).st ≠ .active ∨ (queueOf (getPart s part) q).heldPkt.isSome = true ∨
      (queueOf (getPart s part) q).tail ≤ (queueOf (getPart s part) q).head) : fetchPacket s part q = s :=
  if_pos h

variable (hst : (queueOf (getPart s part) q).st = .active) (hk : (queueOf (getPart s part) q).heldPkt = none)
  (hl : (queueOf (getPart s part) q).head < (queueOf (getPart s part) q).tail)
include hst hk hl

/-- An ACTIVE queue with an entry in its ring and none at its head fetches. -/
theorem fetchPacket_notIdle : ¬ ((queueOf (getPart s part) q).st ≠ .active ∨ (queueOf (getPart s part) q).heldPkt.isSome = true ∨
    (queueOf (getPart s part) q).tail ≤ (queueOf (getPart s part) q).head) := by
  simp [hst, hk, hl]

theorem fetchPacket_pinned (hpin : queuePinned s part (queueOf (getPart s part) q)
      (entryAddr (queueOf (getPart s part) q) (queueOf (getPart s part) q).head) .read = true) : fetchPacket s part q = s :=
  (if_neg (fetchPacket_notIdle hst hk hl)).trans (if_pos hpin)

variable (hpin : queuePinned s part (queueOf (getPart s part) q)
  (entryAddr (queueOf (getPart s part) q) (queueOf (getPart s part) q).head) .read = false)
include hpin

theorem fetchPacket_faults (ha : queueAddr s part (queueOf (getPart s part) q)
      (entryAddr (queueOf (getPart s part) q) (queueOf (getPart s part) q).head) .read = none) :
    fetchPacket s part q =
      (let x := queueOf (getPart s part) q
       queueFault (queueWalk s part x (entryAddr x x.head)) part q (entryAddr x x.head)) := by
  refine (if_neg (fetchPacket_notIdle hst hk hl)).trans ((if_neg (Bool.eq_false_iff.mp hpin)).trans ?_)
  rw [ha]

variable {pa : Nat} {s1 : State} {mark : Bool}
  (ha : queueAddr s part (queueOf (getPart s part) q)
    (entryAddr (queueOf (getPart s part) q) (queueOf (getPart s part) q).head) .read = some pa)
  (ht : touchSector (queueWalk s part (queueOf (getPart s part) q)
      (entryAddr (queueOf (getPart s part) q) (queueOf (getPart s part) q).head)) part (36 * homeOf s (queueOf (getPart s part) q).homedie)
    none pa 64 (entryAddr (queueOf (getPart s part) q) (queueOf (getPart s part) q).head) = (s1, mark))
include ha ht

/-- A marked entry is a fault of the queue. -/
theorem fetchPacket_marked (hm : mark = true) :
    fetchPacket s part q = queueFault s1 part q (entryAddr (queueOf (getPart s part) q) (queueOf (getPart s part) q).head) := by
  refine (if_neg (fetchPacket_notIdle hst hk hl)).trans ((if_neg (Bool.eq_false_iff.mp hpin)).trans ?_)
  rw [ha]
  dsimp only
  rw [ht]
  exact if_pos hm

variable (hm : mark = false)
include hm

/-- A malformed packet is passed over, and counted. -/
theorem fetchPacket_malformed
    (hb : packetBad (modQueue s1 part q fun y => { y with head := y.head + 1 }) part (queueOf (getPart s part) q).dataPlane
      (BitVec.ofNat 512 (leNat (memBytes s1.mem pa 64))) = true) :
    fetchPacket s part q = finishPacket (modPart (modQueue s1 part q fun y => { y with head := y.head + 1 }) part fun y =>
      { y with malformed := (y.malformed + 1) % 2 ^ 64 }) part q (queueOf (getPart s part) q).head := by
  refine (if_neg (fetchPacket_notIdle hst hk hl)).trans ((if_neg (Bool.eq_false_iff.mp hpin)).trans ?_)
  rw [ha]
  dsimp only
  rw [ht]
  exact (if_neg (Bool.eq_false_iff.mp hm)).trans (if_pos hb)

/-- Any other is held at the head. -/
theorem fetchPacket_holds (hp : part < 8) (hq : q < 64)
    (hb : packetBad (modQueue s1 part q fun y => { y with head := y.head + 1 }) part (queueOf (getPart s part) q).dataPlane
      (BitVec.ofNat 512 (leNat (memBytes s1.mem pa 64))) = false) :
    fetchPacket s part q = modQueue s1 part q fun y =>
      { y with head := y.head + 1, heldPkt := some (BitVec.ofNat 512 (leNat (memBytes s1.mem pa 64))), heldSeq := y.head, started := false } := by
  refine (if_neg (fetchPacket_notIdle hst hk hl)).trans ((if_neg (Bool.eq_false_iff.mp hpin)).trans ?_)
  rw [ha]
  dsimp only
  rw [ht]
  exact (if_neg (Bool.eq_false_iff.mp hm)).trans ((if_neg (Bool.eq_false_iff.mp hb)).trans (modQueue_modQueue hp hq _ _))

end Fetches

/-! ## Candidates (R349, R355) -/

/-- A node's predecessors are over where no node of its graph that PRED names is held in the table. -/
theorem predsDone_eq (d : Die) (n : GNode) : predsDone d n =
    n.preds.all fun i => d.graph.all fun m => !(m.part == n.part && m.graph == n.graph && m.nodeid == i) := by
  simp only [predsDone, List.all_eq_not_any_not, Bool.not_not]

/-- The nodes of a die that `ready` names entered as candidates: `readyNodes`, by any test of what has completed. -/
def enterReady (s : State) (d : Nat) (ready : GNode → Bool) : State :=
  let s1 := modDie s d fun x => { x with graph := x.graph.map fun n => { n with ready := n.ready || ready n } }
  pushCands s1 (((getDie s d).graph.filter fun n => !n.ready && ready n).flatMap fun n => match launchOf (getPart s1 n.part) n.launch with
    | some l => l.todo.map (candOf s1 n.part l)
    | none => [])

theorem readyNodes_eq (s : State) (d : Nat) : readyNodes s d = enterReady s d (predsDone (getDie s d)) := rfl

/-- Settles O50, by what each of the queue's events finds of its state. -/
theorem queueEvents : Obligations.QueueEvents := by
  intro s part q func pkt hp hq
  refine ⟨execPortal_unserved, ?served, queueFault_st hp hq, ?activate, ?remap, ?full, ?stop, ?unmap, ?unmapped, retryLaunches_none,
    ?satisfied, ?unsatisfied, ?nofetch, ?fetch, ?head, ?ready, ?cand, fun k l => rfl⟩
  case served =>
    intro hs
    have hsv := portalPart_served hs
    refine ⟨fun hst => ?_, fun hst => ?_, fun h1 h2 => (execPortalWake_wakes hs).trans (by rw [wakeQueue_other h1 h2]),
      fun hst => ?_, fun hr hb => ?_, fun hr hb hf => ?_, fun hr hb hf hl => ⟨fun hpin => ?_, fun hpin ha => ?_, fun pa ha hpin => ?_⟩⟩
    · rw [execPortalWake_wakes hs, wakeQueue, hst]
    · rw [execPortalWake_wakes hs, wakeQueue, hst]
    · exact ⟨execPortalDmwr_answers hs (deliver_reset hst), execPortalPostedWrite_leaves hs (deliver_reset hst)⟩
    · exact ⟨execPortalDmwr_answers hs (deliver_malformed hsv hr hb), execPortalPostedWrite_leaves hs (deliver_malformed hsv hr hb)⟩
    · exact ⟨execPortalDmwr_answers hs (deliver_full hsv hr hb hf), execPortalPostedWrite_leaves hs (deliver_full hsv hr hb hf)⟩
    · exact ⟨execPortalDmwr_answers hs (deliver_pinned hsv hr hb hf hl hpin),
        execPortalPostedWrite_leaves hs (deliver_pinned hsv hr hb hf hl hpin)⟩
    · exact ⟨execPortalDmwr_answers hs (deliver_faults hsv hr hb hf hl hpin ha),
        execPortalPostedWrite_leaves hs (deliver_faults hsv hr hb hf hl hpin ha)⟩
    · exact ⟨execPortalDmwr_answers hs (deliver_accepts hsv hr hb hf hl hpin ha),
        execPortalPostedWrite_leaves hs (deliver_accepts hsv hr hb hf hl hpin ha)⟩
  case activate =>
    intro h
    refine ⟨evalHead s part q, ?_, evalHead_st hp hq, evalHead_mem⟩
    rw [exec_queueActivate, execQueueActivate, stateEvent_eq hp hq]
    rcases h with h | ⟨h, hm⟩
    · simp only [h]
    · simp only [h, if_neg (Nat.not_le.mpr hm)]
  case remap =>
    intro h hm
    refine ⟨evalHead (modQueue s part q fun x => { x with pw := false }) part q, ?_, ?_, ?_⟩
    · rw [exec_queueActivate, execQueueActivate, stateEvent_eq hp hq]
      simp only [h, if_neg (Nat.not_le.mpr hm)]
    · rw [evalHead_pw hp hq, queueOf_modQueue hp hq]
    · rw [evalHead_st hp hq]
      split
      · exact .inl rfl
      · exact .inr rfl
  case full =>
    intro h hm
    rw [exec_queueActivate, execQueueActivate, stateEvent_eq hp hq]
    rcases h with h | h <;> simp only [h, if_pos hm]
  case stop =>
    intro h
    rw [exec_queueStop, execQueueStop, stateEvent_eq hp hq]
    rcases h with h | h <;> simp only [h]
  case unmap =>
    intro h
    rw [exec_queueUnmap, execQueueUnmap, stateEvent_eq hp hq]
    rcases h with h | h | h <;> simp only [h]
  case unmapped =>
    intro h
    rw [exec_queueUnmapped, execQueueUnmapped, stateEvent_eq hp hq]
    have hst := congrArg Queue.st (queueOf_modQueue (s := s) hp hq fun x => { x with st := .unmapped })
    simp only [h]
    refine ⟨_, rfl, ?_, ?_⟩
    · split
      · exact hst
      · exact hst
    · split <;> rfl
  case satisfied =>
    intro hst hh
    rw [exec_headConditionSatisfied, execHeadConditionSatisfied, if_neg (by omega), ← evalHead_free hh]
    exact congrArg _ (if_pos ⟨hst, by simp [hh]⟩)
  case unsatisfied =>
    intro h
    rw [exec_headConditionSatisfied, execHeadConditionSatisfied, if_neg (by omega)]
    refine congrArg _ (if_neg fun ⟨hst, hh⟩ => ?_)
    rcases h with h | h
    · exact h hst
    · rw [h] at hh
      exact absurd hh (by decide)
  case nofetch =>
    intro h
    rw [exec_queueFetch, execQueueFetch, if_neg (by omega), fetchPacket_idle h]
  case fetch =>
    intro hst hk hl
    have hfetch : exec (.queueFetch part q) s = .next (fetchPacket (retryLaunches s part q) part q) := by
      rw [exec_queueFetch, execQueueFetch, if_neg (by omega)]
    refine ⟨fun hpin => ?_, fun hpin ha => ?_, fun pa s1 mark ha ht => ⟨fun hpin hm => ?_, fun hpin hm => ⟨fun hb => ?_, fun hb => ?_⟩⟩⟩
    · exact hfetch.trans (congrArg _ (fetchPacket_pinned hst hk hl hpin))
    · exact hfetch.trans (congrArg _ (fetchPacket_faults hst hk hl hpin ha))
    · exact hfetch.trans (congrArg _ (fetchPacket_marked hst hk hl hpin ha ht hm))
    · exact hfetch.trans (congrArg _ (fetchPacket_malformed hst hk hl hpin ha ht hm hb))
    · exact hfetch.trans (congrArg _ (fetchPacket_holds hst hk hl hpin ha ht hm hp hq hb))
  case head =>
    intro p hk hst hn
    have hwaits {type : Nat} {f : Packet → State} : (pType p ≠ type → headEvent s part q type f = .next s) ∧
        (pType p = type → headHeld s part q = true → headEvent s part q type f = .next (modQueue s part q fun y => { y with st := .waiting })) :=
      ⟨headEvent_otherType hp hq hk hst hn, headEvent_held hp hq hk hst hn⟩
    refine ⟨headHeld_iff hk hn, ?_, fun hh => ?_⟩
    · simp only [List.forall_mem_cons, List.not_mem_nil, false_imp_iff, implies_true, and_true]
      exact ⟨hwaits, hwaits, hwaits, hwaits, hwaits, hwaits, hwaits, hwaits⟩
    · have hacts {type : Nat} {f : Packet → State} (ht : pType p = type) : headEvent s part q type f = .next (f p) :=
        headEvent_acts hp hq hk hst hn ht hh
      refine ⟨hacts, hacts, hacts, hacts, hacts, hacts, hacts, fun ht => ⟨fun hf => ?_, fun hf => ?_⟩⟩
      · exact (hacts ht).trans (congrArg Host.Outcome.next (congrArg (holdHead · part q) (if_pos hf)))
      · exact (hacts ht).trans (congrArg Host.Outcome.next (congrArg (holdHead · part q) (if_neg hf)))
  case ready =>
    exact fun d _ => (readyNodes_eq s d).trans (congrArg (enterReady s d) (funext (predsDone_eq (getDie s d))))
  case cand => exact fun l i => ⟨rfl, rfl, rfl, rfl, rfl, rfl, rfl, rfl, rfl, rfl⟩

end Sys2Proof.Machine
end
